-- ==== Sys2Proof/Word.lean ====
section
/-!
DEFINITION. The 72-bit tagged word of the Caerash (R52, R53): an 8-bit tag beside a 64-bit payload, and the tag
codes of R56 under their names. Only the word type and its plainest constants stand here.
-/
namespace Sys2Proof

/-- A 64-bit payload. -/
abbrev Pay := BitVec 64

/-- A tagged word (R52): `tag` is the 8-bit tag (class in [7:6], subtype in [5:0], R53), `pay` the 64-bit payload. -/
structure Word where
  tag : BitVec 8
  pay : Pay
  deriving DecidableEq, Repr

namespace Tag
/-- The tag codes of R56. -/
abbrev fix  : BitVec 8 := 0x00#8
abbrev flo  : BitVec 8 := 0x01#8
abbrev chr  : BitVec 8 := 0x02#8
abbrev bool : BitVec 8 := 0x03#8
abbrev unb  : BitVec 8 := 0x04#8
abbrev raw  : BitVec 8 := 0x05#8
abbrev tick : BitVec 8 := 0x06#8
abbrev hand : BitVec 8 := 0x07#8
abbrev cons : BitVec 8 := 0x40#8
abbrev vec  : BitVec 8 := 0x41#8
abbrev str  : BitVec 8 := 0x42#8
abbrev big  : BitVec 8 := 0x43#8
abbrev sym  : BitVec 8 := 0x44#8
abbrev clo  : BitVec 8 := 0x45#8
abbrev blob : BitVec 8 := 0x46#8
abbrev weak : BitVec 8 := 0x47#8
abbrev pref : BitVec 8 := 0x48#8
abbrev code : BitVec 8 := 0x49#8
abbrev hdr  : BitVec 8 := 0x80#8
abbrev fwd  : BitVec 8 := 0x81#8
abbrev free : BitVec 8 := 0x82#8
abbrev link : BitVec 8 := 0x83#8
abbrev trap : BitVec 8 := 0x84#8
abbrev insn : BitVec 8 := 0x85#8
end Tag

namespace Word
/-- NIL is BOOL : 0 (R55). -/
abbrev nil : Word := ⟨Tag.bool, 0#64⟩
/-- T is BOOL : 1. -/
abbrev t : Word := ⟨Tag.bool, 1#64⟩
/-- FIX : p. -/
abbrev fix (p : Pay) : Word := ⟨Tag.fix, p⟩
/-- RAW : p. -/
abbrev raw (p : Pay) : Word := ⟨Tag.raw, p⟩
/-- FLO : p. -/
abbrev flo (p : Pay) : Word := ⟨Tag.flo, p⟩
/-- RAW : n, for a number. -/
abbrev rawN (n : Nat) : Word := ⟨Tag.raw, BitVec.ofNat 64 n⟩
/-- FIX : n, for a number. -/
abbrev fixN (n : Nat) : Word := ⟨Tag.fix, BitVec.ofNat 64 n⟩
/-- T or NIL by a truth value. -/
abbrev ofBool (b : Bool) : Word := if b then t else nil
end Word

end Sys2Proof
end

