-- ==== Sys2Proof/Syntax.lean ====
section
/-!
DEFINITION. The commands of the Caerash: one constructor of `Instr` per row of spec/opcode_table.json, in the
table's order, with the operands each needs. An instruction row is one fetched instruction at one context, with
all its encoded fields, the reserved ones included (R99, R100); an event row carries what the event brings.
-/
namespace Sys2Proof

/-- What an access of an instruction meets in hardware, beyond what the state decides: the outside world's and the
silicon's part of the command. -/
inductive Met where
  /-- nothing: every access completes -/
  | clean
  /-- an error response or a fabric timeout on the access (R20, R25) -/
  | errResp
  /-- a mesh double-bit error in the response (R20) -/
  | meshDouble
  /-- uncorrectable DRAM data (R94) -/
  | dramUe
  /-- a parity error in the L1D line the access hits (R401, R402) -/
  | l1Parity
  /-- an uncorrectable error in the L2 line the access reaches (R403) -/
  | l2Ue
  /-- a parity error in the TLB entry that matches (R369) -/
  | tlbParity
  /-- a parity error in the ORC entry that resolves the base of the access (R586) -/
  | orcParity
  /-- a single-bit error that the mesh corrects (R20) -/
  | meshCorr
  /-- a single-bit error that a DDR5 controller corrects (R93) -/
  | ddrCorr
  /-- a single-bit error that the L2 corrects (R403) -/
  | l2Corr
  /-- an uncorrectable error in the L2 tag entry of the line the access reaches (R403) -/
  | l2TagUe
  /-- the response does not come at once: the access takes a Transaction Table entry and waits (R21, R25) -/
  | outstanding
  deriving DecidableEq, Repr

/-- Where an instruction is issued and what it meets. `x` is the context (R11); `met` falls on the data access
number `nth` of the instruction (counted from 0), `fetch` on its fetch; `regPar` says that a register word it reads
has bad parity (R500), `pushPar` that the TLB entry its exception frame's push finds has (R369), `vecBad` that the read of its exception's vector entry
fails (R441), `ucPar` that the decode
entry (0) or the n-th micro-word it reads has (R281); `shadowSig` is the shadow's signature at a window end the
instruction itself closes, when it differs from the leader's (R487). -/
structure At where
  x : BitVec 8
  met : Met := .clean
  nth : Nat := 0
  fetch : Met := .clean
  regPar : Bool := false
  pushPar : Bool := false
  vecBad : Bool := false
  ucPar : Option Nat := none
  shadowSig : Option (BitVec 64) := none
  deriving DecidableEq, Repr

/-- Format R (R99): D, A, B and the reserved bits [10:6]. -/
structure RF where
  d : BitVec 5 := 0
  a : BitVec 5 := 0
  b : BitVec 5 := 0
  rsv : BitVec 5 := 0
  deriving DecidableEq, Repr

/-- Formats I and M (R99): D, A and the 16-bit immediate. -/
structure IF where
  d : BitVec 5 := 0
  a : BitVec 5 := 0
  imm : BitVec 16 := 0
  deriving DecidableEq, Repr

/-- An MTS whose row fixes the special register: D and A, and the reserved immediate bits [15:12] (R100, R113). -/
structure SF where
  d : BitVec 5 := 0
  a : BitVec 5 := 0
  hi : BitVec 4 := 0
  deriving DecidableEq, Repr

/-- A source of a register access: its source code (R15) and, for a core, the context that makes it. -/
structure Src where
  code : BitVec 8
  x : BitVec 8 := 0
  deriving DecidableEq, Repr

/-- The four message classes of the mesh. -/
inductive MsgClass where
  | req | rsp | evt | mgt
  deriving DecidableEq, Repr

/-- How a response ends (R20, R25, R93, R94, R403): well, well after a correction in the mesh, in DRAM or in the L2, with
an error, with a double-bit error of the mesh, with uncorrectable DRAM data, or with an uncorrectable L2 line. -/
inductive Resp where
  | good | meshCorr | ddrCorr | l2Corr | error | doubleBit | dramUe | l2Ue
  deriving DecidableEq, Repr

/-- What an ECC check of a word or line finds (R20, R403, R707, R710). -/
inductive Ecc where
  | clean | corrected | bad
  deriving DecidableEq, Repr

/-- A Scavenge Engine, and what its reads of memory find (R95, R336). -/
structure EngRead where
  n : BitVec 3
  e : Ecc
  deriving DecidableEq, Repr

/-- A submission to an SATB intake, and what the engine's read of its entries finds (R313, R336). -/
structure SatbIn where
  v : BitVec 64
  e : Ecc
  deriving DecidableEq, Repr

/-- What the Store Engine's reads for a descriptor find: of the words it transfers, and of the map (R95, R609). -/
structure XqFound where
  data : Ecc
  map : Ecc
  deriving DecidableEq, Repr

/-- The bytes that an inbound PCIe read asks for, and what reading them finds (R731). -/
structure InRead where
  len : BitVec 13
  e : Ecc
  deriving DecidableEq, Repr

/-- The peer of a UDP datagram (R533): the Ethernet port it came by, the peer's address bytes and UDP port, and the
address of the device it was sent to. -/
structure Peer where
  port : BitVec 2
  addr : List (BitVec 8)
  udp : BitVec 16
  here : List (BitVec 8)
  deriving DecidableEq, Repr

/-- The way a packet came, and its replies go (R533 to R535): a UDP peer; a queue pair of a PCIe controller with the
request's cookie, result buffer address and size; or the Service Port. -/
inductive Via where
  | udp (p : Peer)
  | pcie (c : BitVec 2) (q : BitVec 4) (cookie : BitVec 32) (buf : BitVec 64) (size : BitVec 32)
  | sp
  deriving DecidableEq, Repr

/-- What a drive read brings of a slot (R576, R583): the drive completed it, the header's MAGIC is right, its VG and
BLOCK, its digest matches, and the words of the block, unlisted words being FIX : 0. -/
structure DriveBlock where
  done : Bool
  magic : Bool
  vg : BitVec 9
  block : BitVec 32
  digest : Bool
  words : List (Nat × Word)
  deriving DecidableEq, Repr

/-- What a mount finds on a drive (R577, R606): no drive, one outside the subset (R599), no valid superblock, or the size of the
drive in LBAs with the fields of the governing one. -/
inductive DriveFound where
  | absent
  | unfit
  | noSb
  | sb (lbas : BitVec 64) (vg : BitVec 9) (nblkM1 : BitVec 26) (nslotsM1 : BitVec 27) (epoch : BitVec 64) (cur : Bool)
  deriving DecidableEq, Repr

/-- A valid checkpoint (R578): stamp table entries by stream, and slots by block; unlisted blocks are zero blocks. -/
structure Ckpt where
  stamps : List (Nat × Nat)
  slots : List (Nat × Nat)
  deriving DecidableEq, Repr

/-- A Sentinel image as the Boot ROM reads it from the flash (R621): header, signature and body bytes, and whether
the body's read meets a QSPI error. -/
structure Image where
  hdr : List (BitVec 8)
  sig : List (BitVec 8)
  body : List (BitVec 8)
  readErr : Bool
  deriving DecidableEq, Repr

/-- A submission-queue entry with the packet that host memory holds for it (R534). -/
structure SqEntry where
  bytes : List (BitVec 8)
  len : BitVec 32
  cookie : BitVec 32
  buf : BitVec 64
  size : BitVec 32
  deriving DecidableEq, Repr

/-! ### Ledger contents
A mirror peer's copy comes with a command, so these records stand here (R567). -/

/-- The final status of a retired SEQ (R526, R541): the trailer recorded at acceptance stays with it. -/
structure WinEnt where
  seq : Nat
  status : Nat
  appcode : Nat
  trailer : List (BitVec 8)
  deriving DecidableEq, Repr

/-- A stream (R526): state 0 closed, 1 open, 2 closing; transport as STREAM_OPEN codes it; the peer of the last
authenticated packet (R533). -/
structure Stream where
  st : Nat
  transport : Nat
  crc : Bool
  credits : Nat
  strmOk : Bool
  ctxA : Nat
  ctxB : Nat
  lastSeq : Nat
  window : List WinEnt
  peer : Option Peer
  deriving DecidableEq, Repr

/-- Where an effect stands (R559 to R561): held, in the effect area and waiting for its turn, handed to its target, or
complete. -/
inductive EffSt where
  | held | ready | released | complete
  deriving DecidableEq, Repr

/-- An effect of one attempt (R557, R558): payload bytes copied when it enters the effect area; for a held effect,
the address of the payload. -/
structure Eff where
  idx : Nat
  kind : Nat
  target : Pay
  now : Bool
  addr : Nat
  len : Nat
  data : List (BitVec 8)
  st : EffSt
  deriving DecidableEq, Repr

/-- How far a command has come (R551 to R561). -/
inductive CmdSt where
  /-- accepted, waiting for its turn -/
  | waiting
  /-- image written for context x, not yet taken -/
  | sent (x : Nat)
  /-- taken by context x -/
  | running (x : Nat)
  /-- a management command whose transition runs (R655) -/
  | inMode
  /-- ended with a final status -/
  | ended
  deriving DecidableEq, Repr

/-- A ledger slot (R531, R546 to R563). -/
structure Slot where
  stream : Nat
  seq : Nat
  hdr : List (BitVec 8)
  params : List (BitVec 8)
  trailer : List (BitVec 8)
  gen : Nat
  page : Bool
  accepted : Pay
  attempt : Nat
  emit : Nat
  replay : Bool
  st : CmdSt
  status : Nat
  appcode : Nat
  result : List (BitVec 8)
  effs : List Eff
  next : Nat
  bytes : Nat
  /-- the final reply has been handed to its transport -/
  replied : Bool
  /-- ACCEPTED waits for the mirror peer (R566) -/
  mirrorWait : Bool
  via : Via
  deriving DecidableEq, Repr

/-- A record of the store journal (R594): a block sealed by a command, with its slot or as a zero block, or an applied commit entry. -/
inductive JRec where
  | sealed (block : Nat) (slot : Option Nat) (lpos : Nat)
  | commit (block : Nat) (slot : Option Nat) (stream stamp : Nat)
  deriving DecidableEq, Repr

/-- A key of the store (R630, R636): the key, and the identity label of the DSK under which JNV holds it wrapped (the label of RMA
or not, R619); none for one installed while the part has no DSK, which JNV does not hold. -/
structure WKey where
  under : Option Bool
  key : List (BitVec 8)
  deriving DecidableEq, Repr

/-- What the Ledger keeps in JNV (R526, R547, R636): streams, slots, slot generations, current keys with the counter,
and the store journal. -/
structure Led where
  streams : List (Nat × Stream)
  slots : List (Nat × Slot)
  gens : List (Nat × Nat)
  keys : List (Nat × WKey)
  kctr : Pay
  journal : List JRec
  deriving DecidableEq, Repr

def Led.empty : Led := { streams := [], slots := [], gens := [], keys := [], kctr := 0, journal := [] }

/-- One frame's measurements: raw counts by index (R763), unlisted counts being 0, and the two noise measures. -/
structure Scan where
  raw : List (Nat × BitVec 16)
  noise : BitVec 16
  cand : BitVec 16
  deriving DecidableEq, Repr

/-! ### Commands -/

/-- The commands: one constructor per row of the table of operations and events, in its order. -/
inductive Instr where
  /-- ADD (R139) -/
  | add (at_ : At) (f : RF)
  /-- SUB (R140) -/
  | sub (at_ : At) (f : RF)
  /-- MUL (R140) -/
  | mul (at_ : At) (f : RF)
  /-- DIV (R140) -/
  | div (at_ : At) (f : RF)
  /-- REM (R140) -/
  | rem (at_ : At) (f : RF)
  /-- NEG (R141) -/
  | neg (at_ : At) (f : RF)
  /-- ABS (R141) -/
  | abs (at_ : At) (f : RF)
  /-- ADDI (R139) -/
  | addi (at_ : At) (f : IF)
  /-- MULI (R139) -/
  | muli (at_ : At) (f : IF)
  /-- CMP (R143) -/
  | cmp (at_ : At) (f : RF)
  /-- CEQ (R143) -/
  | ceq (at_ : At) (f : RF)
  /-- CLT (R143) -/
  | clt (at_ : At) (f : RF)
  /-- CLE (R143) -/
  | cle (at_ : At) (f : RF)
  /-- CEQI (R143) -/
  | ceqi (at_ : At) (f : IF)
  /-- CLTI (R143) -/
  | clti (at_ : At) (f : IF)
  /-- EQ (R144) -/
  | eq (at_ : At) (f : RF)
  /-- AND (R150) -/
  | and (at_ : At) (f : RF)
  /-- OR (R150) -/
  | or (at_ : At) (f : RF)
  /-- XOR (R150) -/
  | xor (at_ : At) (f : RF)
  /-- ANDN (R150) -/
  | andn (at_ : At) (f : RF)
  /-- NOT (R150) -/
  | not (at_ : At) (f : RF)
  /-- ANDI (R150) -/
  | andi (at_ : At) (f : IF)
  /-- ORI (R150) -/
  | ori (at_ : At) (f : IF)
  /-- XORI (R150) -/
  | xori (at_ : At) (f : IF)
  /-- SHL (R150) -/
  | shl (at_ : At) (f : RF)
  /-- SHR (R150) -/
  | shr (at_ : At) (f : RF)
  /-- SAR (R150) -/
  | sar (at_ : At) (f : RF)
  /-- ROT (R150) -/
  | rot (at_ : At) (f : RF)
  /-- SHI (R150) -/
  | shi (at_ : At) (f : IF)
  /-- POPC (R150) -/
  | popc (at_ : At) (f : RF)
  /-- CLZ (R150) -/
  | clz (at_ : At) (f : RF)
  /-- CTZ (R150) -/
  | ctz (at_ : At) (f : RF)
  /-- TAG (R150) -/
  | tag (at_ : At) (f : RF)
  /-- TCLS (R150) -/
  | tcls (at_ : At) (f : RF)
  /-- TTST (R150) -/
  | ttst (at_ : At) (f : RF)
  /-- TTSTI (R150) -/
  | ttsti (at_ : At) (f : IF)
  /-- RTAG (R151) -/
  | rtag (at_ : At) (f : RF)
  /-- RTAGI (R151) -/
  | rtagi (at_ : At) (f : IF)
  /-- MOV (R150) -/
  | mov (at_ : At) (f : RF)
  /-- CVTF (R150) -/
  | cvtf (at_ : At) (f : RF)
  /-- CVTI (R150) -/
  | cvti (at_ : At) (f : RF)
  /-- FTOR (R150) -/
  | ftor (at_ : At) (f : RF)
  /-- RTOF (R150) -/
  | rtof (at_ : At) (f : RF)
  /-- LDI (R150) -/
  | ldi (at_ : At) (f : IF)
  /-- LDC (R150) -/
  | ldc (at_ : At) (f : IF)
  /-- LDR (R150) -/
  | ldr (at_ : At) (f : IF)
  /-- CAR (R152) -/
  | car (at_ : At) (f : RF)
  /-- CDR (R152) -/
  | cdr (at_ : At) (f : RF)
  /-- CONS (R153) -/
  | cons (at_ : At) (f : RF)
  /-- RPLACA (R154) -/
  | rplaca (at_ : At) (f : RF)
  /-- RPLACD (R154) -/
  | rplacd (at_ : At) (f : RF)
  /-- VREF (R156) -/
  | vref (at_ : At) (f : RF)
  /-- VSET (R156) -/
  | vset (at_ : At) (f : RF)
  /-- VLEN (R155) -/
  | vlen (at_ : At) (f : RF)
  /-- BREF (R156) -/
  | bref (at_ : At) (f : RF)
  /-- BSET (R156) -/
  | bset (at_ : At) (f : RF)
  /-- UNWK (R155) -/
  | unwk (at_ : At) (f : RF)
  /-- LD (R160) -/
  | ld (at_ : At) (f : IF)
  /-- ST (R160) -/
  | st (at_ : At) (f : IF)
  /-- LDT (R160) -/
  | ldt (at_ : At) (f : IF)
  /-- STT (R161) -/
  | stt (at_ : At) (f : IF)
  /-- LDX (R160) -/
  | ldx (at_ : At) (f : IF)
  /-- L8 (R160) -/
  | l8 (at_ : At) (f : IF)
  /-- L16 (R160) -/
  | l16 (at_ : At) (f : IF)
  /-- L32 (R160) -/
  | l32 (at_ : At) (f : IF)
  /-- S8 (R160) -/
  | s8 (at_ : At) (f : IF)
  /-- S16 (R160) -/
  | s16 (at_ : At) (f : IF)
  /-- S32 (R160) -/
  | s32 (at_ : At) (f : IF)
  /-- ZAL (R405) -/
  | zal (at_ : At) (f : IF)
  /-- LDW (R376) -/
  | ldw (at_ : At) (f : IF)
  /-- LDWT (R376) -/
  | ldwt (at_ : At) (f : IF)
  /-- MFS (R113) -/
  | mfs (at_ : At) (f : IF)
  /-- MTS (R113) -/
  | mts (at_ : At) (f : IF)
  /-- MTS_PS (R437) -/
  | mtsPs (at_ : At) (f : SF)
  /-- MTS_LE (R188) -/
  | mtsLe (at_ : At) (k : BitVec 2) (f : SF)
  /-- MTS_WINB (R243) -/
  | mtsWinb (at_ : At) (f : SF)
  /-- MTS_TVB (R443) -/
  | mtsTvb (at_ : At) (f : SF)
  /-- MTS_CCTL (R417) -/
  | mtsCctl (at_ : At) (f : SF)
  /-- L1D_SWEEP_END (R417) -/
  | l1dSweepEnd (k : BitVec 6) (bad : List Nat)
  /-- UCS_GO (R286) -/
  | ucsGo (at_ : At) (f : SF)
  /-- UCS_CLR (R286) -/
  | ucsClr (at_ : At) (f : SF)
  /-- UCS_LOAD_COMPLETE (R286) -/
  | ucsLoadComplete (k : BitVec 6)
  /-- BR (R169) -/
  | br (at_ : At) (disp : BitVec 26)
  /-- CALL (R172) -/
  | call (at_ : At) (disp : BitVec 26)
  /-- BCC (R170) -/
  | bcc (at_ : At) (a b : BitVec 5) (cond : BitVec 4) (disp : BitVec 12)
  /-- BTAG (R171) -/
  | btag (at_ : At) (a : BitVec 5) (neg cls : Bool) (val : BitVec 8) (disp : BitVec 11)
  /-- LOOP (R179) -/
  | loop (at_ : At) (a rsv : BitVec 5) (ns : BitVec 16)
  /-- JMPR (R172) -/
  | jmpr (at_ : At) (f : RF)
  /-- CALLR (R172) -/
  | callr (at_ : At) (f : RF)
  /-- RET (R172) -/
  | ret (at_ : At) (f : RF)
  /-- REP (R193) -/
  | rep (at_ : At) (rsv : BitVec 26) (target : Word) (tfetch : Met) (lim : Nat)
  /-- EXT (R102) -/
  | ext (at_ : At) (inner : BitVec 6) (d a : BitVec 5) (rsv : BitVec 10) (imm : BitVec 32)
  /-- ILLEGAL_INSTRUCTION (R106) -/
  | illegalInstruction (at_ : At) (w : Word)
  /-- WFE (R199) -/
  | wfe (at_ : At) (f : RF)
  /-- SEV (R202) -/
  | sev (at_ : At) (f : RF)
  /-- EVENT_LATCH_SET (R197) -/
  | eventLatchSet (x : BitVec 8)
  /-- WAITT (R205) -/
  | waitt (at_ : At) (f : RF)
  /-- WAITT_DEADLINE (R205) -/
  | waittDeadline (x : BitVec 8)
  /-- AGREE (R212) -/
  | agree (at_ : At) (f : RF) (skew : Option (BitVec 64))
  /-- MOVB (R216) -/
  | movb (at_ : At) (f : RF) (lim : Nat)
  /-- FILLB (R216) -/
  | fillb (at_ : At) (f : RF) (lim : Nat)
  /-- SCANM (R216) -/
  | scanm (at_ : At) (f : RF) (lim : Nat)
  /-- SCANC (R216) -/
  | scanc (at_ : At) (f : RF) (lim : Nat)
  /-- CALLW (R229) -/
  | callw (at_ : At) (f : RF)
  /-- RETW (R230) -/
  | retw (at_ : At) (f : RF)
  /-- SAVEH (R250) -/
  | saveh (at_ : At) (f : RF) (lim : Nat)
  /-- REST (R251) -/
  | rest (at_ : At) (f : RF) (lim : Nat)
  /-- MOVWB_F (R244) -/
  | movwbF (at_ : At) (f : RF)
  /-- MOVWB_T (R244) -/
  | movwbT (at_ : At) (f : RF)
  /-- CUSTOMER_SLOT_INSTRUCTION (R266) -/
  | customerSlot (at_ : At) (slot : BitVec 4) (f : RF) (lim : Nat)
  /-- TRAP (R464) -/
  | trap (at_ : At) (f : IF)
  /-- CALLG (R468) -/
  | callg (at_ : At) (f : RF)
  /-- RETG (R469) -/
  | retg (at_ : At) (f : RF)
  /-- RETE (R463) -/
  | rete (at_ : At) (f : RF)
  /-- EVENT_LINE_ENTRY (R470) -/
  | eventLineEntry (x : BitVec 8) (longNext : Bool)
  /-- STORE_BUS_ERROR (R455) -/
  | storeBusError (x : BitVec 8) (longNext : Bool)
  /-- DEFERRED_MACHINE_CHECK (R457) -/
  | deferredMachineCheck (x : BitVec 8) (longNext : Bool)
  /-- TWIN_EVENT (R516) -/
  | twinEvent (x : BitVec 8) (longNext : Bool)
  /-- TLBW (R368) -/
  | tlbw (at_ : At) (f : RF)
  /-- TLBR (R366) -/
  | tlbr (at_ : At) (f : RF)
  /-- TLBS (R366) -/
  | tlbs (at_ : At) (f : RF)
  /-- TLBI_A (R380) -/
  | tlbiA (at_ : At) (f : RF)
  /-- TLBI_T (R380) -/
  | tlbiT (at_ : At) (f : RF)
  /-- TLBI_T_FORCE (R380) -/
  | tlbiTForce (at_ : At) (f : RF)
  /-- TLBI_ALL (R380) -/
  | tlbiAll (at_ : At) (f : RF)
  /-- TLBI_ALL_FORCE (R380) -/
  | tlbiAllForce (at_ : At) (f : RF)
  /-- FENCE_L (R424) -/
  | fenceL (at_ : At) (f : RF)
  /-- FENCE_S (R424) -/
  | fenceS (at_ : At) (f : RF)
  /-- FENCE (R424) -/
  | fence (at_ : At) (f : RF)
  /-- FENCE_IO (R424) -/
  | fenceIo (at_ : At) (f : RF)
  /-- ISYNC (R412) -/
  | isync (at_ : At) (f : RF)
  /-- CWB (R408) -/
  | cwb (at_ : At) (f : RF)
  /-- CINV (R408) -/
  | cinv (at_ : At) (f : RF)
  /-- CWBI (R408) -/
  | cwbi (at_ : At) (f : RF)
  /-- CINVR (R410) -/
  | cinvr (at_ : At) (f : RF)
  /-- CINVR_NW (R410) -/
  | cinvrNw (at_ : At) (f : RF)
  /-- NOP (R107) -/
  | nop (at_ : At) (f : RF)
  /-- CKPT (R498) -/
  | ckpt (at_ : At) (f : RF)
  /-- BRK (R512) -/
  | brk (at_ : At) (f : RF)
  /-- RESPONSE_DELIVERY (R25) -/
  | responseDelivery (id : Nat) (r : Resp)
  /-- FABRIC_TIMEOUT (R25) -/
  | fabricTimeout (id : Nat)
  /-- TRANSACTION_ENTRY_GRANT (R24) -/
  | transactionEntryGrant
  /-- CREDIT_RETURN (R16) -/
  | creditReturn (src tgt : BitVec 8) (cls : MsgClass)
  /-- COHERENCE_REQUEST (R392) -/
  | coherenceRequest (src : BitVec 8) (pa : BitVec 48) (write bad : Bool)
  /-- L2_SWEEP (R420) -/
  | l2Sweep (src : Src) (n : BitVec 3) (v : BitVec 64)
  /-- L2_SWEEP_END (R420) -/
  | l2SweepEnd (n : BitVec 3) (bad : List Nat)
  /-- L2_LOCK_WRITE (R415) -/
  | l2LockWrite (src : Src) (n : BitVec 3) (v : BitVec 64)
  /-- LOCK_LOAD (R416) -/
  | lockLoad (src : Src) (n : BitVec 3) (v : BitVec 64)
  /-- LOCK_LOAD_END (R416) -/
  | lockLoadEnd (n : BitVec 3)
  /-- REGISTER_WRITE (R47) -/
  | registerWrite (src : Src) (off : BitVec 24) (v : BitVec 64)
  /-- GC_RSET (R297) -/
  | gcRset (src : Src) (v : BitVec 64)
  /-- GC_RSTAT_LOAD (R296) -/
  | gcRstatLoad (src : Src)
  /-- HEAP_ENABLE (R346) -/
  | heapEnable (src : Src) (h : BitVec 2) (v : BitVec 64)
  /-- WRITE_MARK (R319) -/
  | writeMark (src : Src) (h : BitVec 2) (v : BitVec 64)
  /-- WRITE_WEAK (R318) -/
  | writeWeak (src : Src) (h : BitVec 2) (v : BitVec 64)
  /-- WRITE_EVAC (R318) -/
  | writeEvac (src : Src) (h : BitVec 2) (v : BitVec 64)
  /-- WRITE_IDLE (R318) -/
  | writeIdle (src : Src) (h : BitVec 2) (v : BitVec 64)
  /-- MARK_ACTIVE (R319) -/
  | markActive (h : BitVec 2)
  /-- ROOTS_SET (R321) -/
  | rootsSet (src : Src) (h : BitVec 2) (v : BitVec 64)
  /-- TERMINATION_ROUND (R325) -/
  | terminationRound (h : BitVec 2)
  /-- MARK_ENTRY (R323) -/
  | markEntry (n : BitVec 3) (e : Ecc)
  /-- CARD_SCAN (R324) -/
  | cardScan (n : BitVec 3) (e : Ecc)
  /-- WEAK_CLEAR (R326) -/
  | weakClear (r : EngRead)
  /-- WEAK_END (R327) -/
  | weakEnd (h : BitVec 2)
  /-- ENGINE_COPY (R328) -/
  | engineCopy (n : BitVec 3) (e : Ecc)
  /-- CLN_SE_SATBIN (R313) -/
  | seSatbin (src : Src) (n : BitVec 3) (w : SatbIn)
  /-- CLN_SE_SATBDONE (R313) -/
  | seSatbdone (src : Src) (n : BitVec 3)
  /-- CLN_SE_PUSH (R350) -/
  | sePush (src : Src) (n : BitVec 3) (v : BitVec 64)
  /-- CLN_SE_EVREQ (R316) -/
  | seEvreq (src : Src) (n : BitVec 3) (v : BitVec 64)
  /-- CLN_SE_EVDONE (R316) -/
  | seEvdone (src : Src) (n : BitVec 3)
  /-- CLN_SE_SPLIM (R335) -/
  | seSplim (src : Src) (n : BitVec 3) (v : BitVec 64)
  /-- GC_HEAP_ALLOC (R349) -/
  | gcHeapAlloc (src : Src) (h : BitVec 2)
  /-- PRT_WRITE (R360) -/
  | prtWrite (src : Src) (i : BitVec 6) (word1 : Bool) (v : BitVec 64)
  /-- PRT_LOCK (R359) -/
  | prtLock (src : Src)
  /-- PRT_CTL_LOAD (R360) -/
  | prtCtlLoad (src : Src)
  /-- SEC_R0TVB_WRITE (R443) -/
  | secR0tvbWrite (src : Src) (v : BitVec 64)
  /-- SPLIT (R481) -/
  | split (src : Src) (t : BitVec 5)
  /-- JOIN (R482) -/
  | join (src : Src) (t : BitVec 5) (ksync : Bool)
  /-- LOOSE (R481) -/
  | loose (src : Src) (t : BitVec 5)
  /-- SOLO (R481) -/
  | solo (src : Src) (t : BitVec 5) (keepShadow : Bool)
  /-- TWIN_FENCE (R481) -/
  | twinFence (src : Src) (t : BitVec 5)
  /-- UNFENCE (R481) -/
  | unfence (src : Src) (t : BitVec 5)
  /-- TWIN_TRANSITION_COMPLETE (R481) -/
  | twinTransitionComplete (t : BitVec 5) (leaderOk shadowOk : Bool)
  /-- TWIN_LOGACK (R516) -/
  | twinLogack (src : Src) (v : BitVec 64)
  /-- WINDOW_END (R487) -/
  | windowEnd (t : BitVec 5) (shadow : Option (BitVec 64))
  /-- OUTPUT_MATCH (R496) -/
  | outputMatch (t : BitVec 5) (r : Resp)
  /-- PARTNER_WAIT_TIMEOUT (R496) -/
  | partnerWaitTimeout (t : BitVec 5) (shadow : Bool)
  /-- BIST_END (R504) -/
  | bistEnd (t : BitVec 5) (leaderOk shadowOk : Bool)
  /-- COMPARATOR_TEST (R508) -/
  | comparatorTest (t : BitVec 5) (faulty : Bool)
  /-- DELAY_LINE_PARITY (R510) -/
  | delayLineParity (t : BitVec 5) (second : Bool)
  /-- DEBUG_HALT (R511) -/
  | debugHalt (k : BitVec 6)
  /-- DEBUG_RESUME (R736) -/
  | debugResume (k : BitVec 6)
  /-- DEBUG_STEP (R736) -/
  | debugStep (x : BitVec 8)
  /-- DEBUG_REGISTER_ACCESS (R736) -/
  | debugRegisterAccess (x : BitVec 8) (special : Bool) (n : BitVec 12) (bank : BitVec 3) (w : Option Word)
  /-- DEBUG_MEMORY_ACCESS (R736) -/
  | debugMemoryAccess (pa : BitVec 48) (w : Option Word)
  /-- DEBUG_ATTACH (R643) -/
  | debugAttach
  /-- UDP_DATAGRAM (R533) -/
  | udpDatagram (p : Peer) (bs : List (BitVec 8))
  /-- SQ_TAIL_DOORBELL (R534) -/
  | sqTailDoorbell (c : BitVec 2) (q : BitVec 4) (tail : BitVec 32) (es : List SqEntry)
  /-- CQ_HEAD_DOORBELL (R534) -/
  | cqHeadDoorbell (c : BitVec 2) (q : BitVec 4) (head : BitVec 32) (es : List SqEntry)
  /-- SP_WRITE_PACKET (R535) -/
  | spWritePacket (bs : List (BitVec 8))
  /-- SP_READ_REPLY (R535) -/
  | spReadReply
  /-- SP_READ_STATUS (R535) -/
  | spReadStatus
  /-- STATUS (R543) -/
  | status (via : Via) (bs : List (BitVec 8))
  /-- STREAM_INFO (R543) -/
  | streamInfo (via : Via) (bs : List (BitVec 8))
  /-- TELEM_READ (R721) -/
  | telemRead (via : Via) (bs : List (BitVec 8))
  /-- ATTEST (R632) -/
  | attest (via : Via) (bs : List (BitVec 8))
  /-- ATTEST_SIGNED (R632) -/
  | attestSigned
  /-- ATTEST_READ (R633) -/
  | attestRead (via : Via) (bs : List (BitVec 8))
  /-- STREAM_OPEN (R543) -/
  | streamOpen (n : BitVec 17)
  /-- STREAM_CLOSE (R543) -/
  | streamClose (n : BitVec 17)
  /-- BLOB_PUT (R543) -/
  | blobPut (n : BitVec 17)
  /-- KEY_SET (R635) -/
  | keySet (n : BitVec 17)
  /-- MODE_REQ (R655) -/
  | modeReq (n : BitVec 17)
  /-- MODE_REQ_RESET_DELAY (R655) -/
  | modeReqResetDelay
  /-- DISPATCH (R551) -/
  | dispatch (n : BitVec 17)
  /-- LDG_NEXT (R553) -/
  | ldgNext (src : Src) (x : BitVec 8)
  /-- LDG_COMMIT (R554) -/
  | ldgCommit (src : Src) (x : BitVec 8) (v : BitVec 64)
  /-- LDG_EFFPUT (R557) -/
  | ldgEffput (src : Src) (x : BitVec 8) (v : BitVec 64)
  /-- LDG_ACK (R555) -/
  | ldgAck (src : Src) (x : BitVec 8)
  /-- LDG_IMGBASE_WRITE (R551) -/
  | ldgImgbaseWrite (src : Src) (v : BitVec 64)
  /-- DEADLINE (R556) -/
  | deadline (n : BitVec 17)
  /-- EFFECT_COMPLETE (R561) -/
  | effectComplete (n : BitVec 17) (gen : BitVec 15) (idx : BitVec 16)
  /-- JOURNAL_DRAIN (R550) -/
  | journalDrain (bad : List Nat)
  /-- LEDGER_REBUILD (R564) -/
  | ledgerRebuild
  /-- LEDGER_REBUILD_END (R564) -/
  | ledgerRebuildEnd
  /-- MIRROR_WRITE (R565) -/
  | mirrorWrite (auth : Bool) (off : BitVec 26) (ws : List Word)
  /-- MIRROR_ACK (R566) -/
  | mirrorAck (n : BitVec 17)
  /-- MIRROR_TIMEOUT (R566) -/
  | mirrorTimeout (n : BitVec 17)
  /-- MIRROR_RESYNC_DONE (R566) -/
  | mirrorResyncDone
  /-- RESTORE (R567) -/
  | restore (src : Src) (copy : Option Led)
  /-- DRIVE_READ_COMPLETE (R583) -/
  | driveReadComplete (b : BitVec 26) (second : Bool) (d : DriveBlock)
  /-- ZERO_BLOCK_FILL (R584) -/
  | zeroBlockFill (b : BitVec 26)
  /-- FRAME_EVICTION (R585) -/
  | frameEviction
  /-- STO_XQTAIL (R598) -/
  | stoXqtail (src : Src) (v : BitVec 64)
  /-- READ (R596) -/
  | read (i : BitVec 12) (m : XqFound)
  /-- FETCH (R596) -/
  | fetch (i : BitVec 12) (m : Ecc)
  /-- PIN (R596) -/
  | pin (i : BitVec 12) (m : Ecc)
  /-- UNPIN (R596) -/
  | unpin (i : BitVec 12) (m : Ecc)
  /-- SEAL (R589) -/
  | seal (i : BitVec 12) (m : XqFound)
  /-- SEAL_COMPLETE (R589) -/
  | sealComplete (i : BitVec 12)
  /-- CHECKPOINT (R594) -/
  | checkpoint
  /-- CHECKPOINT_END (R594) -/
  | checkpointEnd
  /-- MOUNT (R606) -/
  | mount (src : Src) (v : BitVec 64)
  /-- MOUNT_END (R606) -/
  | mountEnd (d0 d1 : DriveFound) (ck : Option Ckpt)
  /-- FORMAT (R605) -/
  | format (src : Src) (v : BitVec 64)
  /-- FORMAT_END (R605) -/
  | formatEnd
  /-- RESYNC (R604) -/
  | resync (src : Src) (v : BitVec 64)
  /-- RESYNC_END (R604) -/
  | resyncEnd
  /-- STO_DISABLE (R611) -/
  | stoDisable (src : Src) (v : BitVec 64)
  /-- DRIVE_FAULT (R601) -/
  | driveFault (second : Bool)
  /-- DRIVE_COMMAND_TIMEOUT (R601) -/
  | driveCommandTimeout (second : Bool)
  /-- DRIVE_READY (R608) -/
  | driveReady (second : Bool)
  /-- BOOT_ROM (R622) -/
  | bootRom (fuseBad flash blown : Bool) (a b : Image)
  /-- IDENTITY_DERIVATION (R628) -/
  | identityDerivation (ok : Bool)
  /-- SEC_MEASEXT (R627) -/
  | secMeasext (src : Src) (v : BitVec 64)
  /-- INSTALL (R636) -/
  | install (src : Src) (v : BitVec 64)
  /-- ERASE (R637) -/
  | erase (src : Src) (v : BitVec 64)
  /-- REVOKE_SLOT (R648) -/
  | revokeSlot (src : Src) (v : BitVec 64)
  /-- ROLLBACK (R648) -/
  | rollback (src : Src) (v : BitVec 64)
  /-- DEBUGLOCK (R648) -/
  | debuglock (src : Src) (v : BitVec 64)
  /-- LIFE (R648) -/
  | life (src : Src) (v : BitVec 64)
  /-- PROGKEY (R648) -/
  | progkey (src : Src) (v : BitVec 64)
  /-- FUSE_OPERATION_COMPLETE (R642) -/
  | fuseOperationComplete (ok : Bool)
  /-- KECCAK_TAIL (R639) -/
  | keccakTail (sentinel : Bool) (tail : BitVec 64)
  /-- SHAKE256 (R640) -/
  | shake256 (sentinel : Bool) (e : Ecc)
  /-- KMAC256 (R640) -/
  | kmac256 (sentinel : Bool) (e : Ecc)
  /-- VERIFY_SLH_DSA_SHAKE_256S (R641) -/
  | verifySlhDsaShake256s (sentinel : Bool) (e : Ecc)
  /-- VERIFY_SLH_DSA_SHAKE_256F (R641) -/
  | verifySlhDsaShake256f (sentinel : Bool) (e : Ecc)
  /-- POWER_ON (R656) -/
  | powerOn (rstLow : Bool)
  /-- RST_N_LOW (R656) -/
  | rstNLow
  /-- RST_N_RISE (R660) -/
  | rstNRise (dnum : BitVec 3) (dcfg : BitVec 2) (dspd : Bool)
  /-- INTERNAL_RESET_END (R659) -/
  | internalResetEnd
  /-- REFCLK_LOSS (R656) -/
  | refclkLoss
  /-- RAIL_OUT_OF_TOLERANCE (R797) -/
  | railOutOfTolerance
  /-- DDR_TRAINING_END (R660) -/
  | ddrTrainingEnd
  /-- RUN (R650) -/
  | run (src : Src)
  /-- SAFEHOLD (R654) -/
  | safehold (src : Src)
  /-- SERVICE (R650) -/
  | service (src : Src)
  /-- QUIET (R672) -/
  | quiet (src : Src)
  /-- RESET (R656) -/
  | reset (src : Src)
  /-- QUIET_DRAIN_DONE (R672) -/
  | quietDrainDone
  /-- QUIET_DRAIN_TIMEOUT (R672) -/
  | quietDrainTimeout
  /-- QUIET_GATED (R672) -/
  | quietGated
  /-- QUIET_WAKE (R673) -/
  | quietWake
  /-- QUIET_WAKE_DONE (R674) -/
  | quietWakeDone
  /-- FEED (R665) -/
  | feed (src : Src) (period : BitVec 10)
  /-- WATCH_PERIOD_WRITE (R665) -/
  | watchPeriodWrite (src : Src) (period : BitVec 10)
  /-- WATCH_EXPIRY (R665) -/
  | watchExpiry
  /-- SYS_START (R659) -/
  | sysStart (src : Src) (x : BitVec 8)
  /-- SYS_TIME_WRITE (R671) -/
  | sysTimeWrite (src : Src) (v : BitVec 64)
  /-- DVFS_POINT_WRITE (R668) -/
  | dvfsPointWrite (src : Src) (n : BitVec 3) (v : BitVec 64)
  /-- DVFS_CHANGE_END (R668) -/
  | dvfsChangeEnd (n : BitVec 3)
  /-- THERMAL_DERATE (R669) -/
  | thermalDerate (n : BitVec 3) (tj : BitVec 8)
  /-- DERATE_CLEAR (R669) -/
  | derateClear (n : BitVec 3) (tj : BitVec 8)
  /-- TEMP (R670) -/
  | temp (n : BitVec 3) (tj : BitVec 8)
  /-- OVERTEMPERATURE_RESET (R656) -/
  | overtemperatureReset (n : BitVec 3) (tj : BitVec 8)
  /-- CLUSTER_PLL_LOSS (R814) -/
  | clusterPllLoss (n : BitVec 3)
  /-- PLL_RELOCK (R666) -/
  | pllRelock (n : BitVec 3)
  /-- EVCLK (R666) -/
  | evclk
  /-- PLL_CALIBRATION (R717) -/
  | pllCalibration (out : List (BitVec 3 × BitVec 8))
  /-- PFW_N_ASSERT (R686) -/
  | pfwNAssert
  /-- PFW_N_RELEASE (R692) -/
  | pfwNRelease
  /-- FLUSH_COMPLETE (R689) -/
  | flushComplete
  /-- RESUME (R692) -/
  | resume
  /-- CUT_OFF (R695) -/
  | cutOff
  /-- TESTGO (R698) -/
  | testgo (src : Src) (v : BitVec 64)
  /-- CERT_TEST_DUE (R698) -/
  | certTestDue
  /-- CERT_TEST_END (R698) -/
  | certTestEnd (eout : BitVec 32) (v2 : BitVec 16)
  /-- CERT_TEST_RETRY (R698) -/
  | certTestRetry
  /-- PATROL_READ (R707) -/
  | patrolRead (e : Ecc)
  /-- L2_SCRUB (R709) -/
  | l2Scrub (n : BitVec 3) (e : Ecc)
  /-- KEEP_COMPARE (R710) -/
  | keepCompare (ea eb : Ecc)
  /-- KEEP_RECHECK (R711) -/
  | keepRecheck
  /-- JNV_WEAR_ROTATION (R713) -/
  | jnvWearRotation (block : BitVec 14)
  /-- ZQ_CALIBRATION (R716) -/
  | zqCalibration (ch : BitVec 1)
  /-- DQS_RETRAINING (R716) -/
  | dqsRetraining (ch : BitVec 1) (drifted : Bool)
  /-- MR4_READ (R716) -/
  | mr4Read (ch : BitVec 1) (rate : BitVec 3)
  /-- ETH_FRAME_RECEIVED (R727) -/
  | ethFrameReceived (p : BitVec 2) (bs : List (BitVec 8)) (ts : Option (BitVec 64)) (full : Bool)
  /-- ETH_TX_TAIL (R754) -/
  | ethTxTail (src : Src) (p : BitVec 2) (v : BitVec 64)
  /-- ETH_TX_COMPLETE (R754) -/
  | ethTxComplete (p : BitVec 2) (q : BitVec 3) (e : Ecc)
  /-- ETH_GBASE_WRITE (R755) -/
  | ethGbaseWrite (src : Src) (p : BitVec 2) (v : BitVec 64)
  /-- GATE_LIST_SWITCH (R755) -/
  | gateListSwitch (p : BitVec 2)
  /-- GATE_ENTRY_EXPIRY (R755) -/
  | gateEntryExpiry (p : BitVec 2)
  /-- PCIE_INBOUND_REQUEST (R730) -/
  | pcieInboundRequest (c : BitVec 2) (pa : BitVec 64) (write : Bool) (data : List (BitVec 8)) (r : InRead)
  /-- CAN_FRAME_RECEIVED (R758) -/
  | canFrameReceived (h : BitVec 2) (word : BitVec 64) (esi rtr : Bool) (data : List (BitVec 8))
  /-- CAN_FRAME_SENT (R732) -/
  | canFrameSent (h : BitVec 2)
  /-- CAN_BUS_OFF (R756) -/
  | canBusOff (h : BitVec 2)
  /-- CAN_BUS_OFF_RECOVERY (R756) -/
  | canBusOffRecovery (h : BitVec 2)
  /-- UART_BYTE_RECEIVED (R733) -/
  | uartByteReceived (u : BitVec 2) (b : BitVec 8) (perr ferr brk : Bool)
  /-- UART_DATA_WRITE (R759) -/
  | uartDataWrite (src : Src) (u : BitVec 2) (v : BitVec 64)
  /-- UART_DATA_READ (R759) -/
  | uartDataRead (src : Src) (u : BitVec 2)
  /-- UART_TX_EMPTY (R759) -/
  | uartTxEmpty (u : BitVec 2)
  /-- I2C_GO (R760) -/
  | i2cGo (src : Src) (i : BitVec 1) (v : BitVec 64)
  /-- I2C_TRANSFER_DONE (R760) -/
  | i2cTransferDone (i : BitVec 1) (nack arb : Bool) (count : BitVec 7) (data : List (BitVec 8))
  /-- I2C_TARGET_TRANSACTION (R760) -/
  | i2cTargetTransaction (i : BitVec 1) (write : Bool) (data : List (BitVec 8)) (count : BitVec 7)
  /-- QSPI_GO (R761) -/
  | qspiGo (src : Src) (v : BitVec 64)
  /-- QSPI_DONE (R761) -/
  | qspiDone (data : List (BitVec 8))
  /-- EVT_EDGE (R738) -/
  | evtEdge (i : BitVec 4) (level : Bool)
  /-- SOURCE_ASSERT (R741) -/
  | sourceAssert (i : BitVec 7)
  /-- PWM_PERIOD_BOUNDARY (R745) -/
  | pwmPeriodBoundary (n : BitVec 6)
  /-- CAPTURE_EDGE (R744) -/
  | captureEdge (n : BitVec 6) (rising : Bool)
  /-- COUNT_EDGE (R744) -/
  | countEdge (n : BitVec 6) (rising : Bool)
  /-- STEP_PULSE_END (R744) -/
  | stepPulseEnd (n : BitVec 6)
  /-- PLS_CNT_WRITE (R744) -/
  | plsCntWrite (src : Src) (n : BitVec 6) (v : BitVec 64)
  /-- PANEL_FRAME (R764) -/
  | panelFrame (c : Scan)
  /-- FRAME_RECORD_ACK (R770) -/
  | frameRecordAck
  /-- STUCK_RELEASE (R773) -/
  | stuckRelease (c : Scan)
  /-- BRESET (R766) -/
  | breset (src : Src) (v : BitVec 64)
  /-- PANEL_ENABLE (R766) -/
  | panelEnable (src : Src) (v : BitVec 64)
  /-- PANEL_DISABLE (R782) -/
  | panelDisable (src : Src) (v : BitVec 64)
  /-- PANEL_PLL_LOSS (R777) -/
  | panelPllLoss
  /-- TEMP_CLEAR (R670) -/
  | tempClear (n : BitVec 3) (tj : BitVec 8)
  /-- PANEL_PLL_RELOCK (R777) -/
  | panelPllRelock
  /-- CAN_ERROR_PASSIVE (R757) -/
  | canErrorPassive (h : BitVec 2) (tec rec_ : BitVec 8)
  /-- PCIE_LINK_EVENT (R737) -/
  | pcieLinkEvent (c : BitVec 2)
  /-- VHOLD_SAMPLE (R685) -/
  | vholdSample (v : BitVec 16)
  /-- JNV_MOVE_SWITCH (R713) -/
  | jnvMoveSwitch
  /-- RETRAINING_HOLD_END (R716) -/
  | retrainingHoldEnd (ch : BitVec 1)
  /-- UART_BYTE_SENT (R759) -/
  | uartByteSent (u : BitVec 2)
  /-- UART_CTS_CHANGE (R759) -/
  | uartCtsChange (u : BitVec 2) (level : Bool)
  deriving DecidableEq, Repr

end Sys2Proof
end

