-- ==== Sys2Proof/WellFormed.lean ====
section
/-!
DEFINITION. Which commands are well formed: operands that name a unit, register or address the part has. The others come
from nowhere, or go nowhere, and have no effect (assumption 94).
-/
namespace Sys2Proof

/-- The source code is one that R15 assigns. -/
def Src.wf (s : Src) : Bool := decide (s.code.toNat < 0x54)

/-- The operands name something the part has. -/
def Instr.wf : Instr → Bool
  | .add _ _ => true
  | .sub _ _ => true
  | .mul _ _ => true
  | .div _ _ => true
  | .rem _ _ => true
  | .neg _ _ => true
  | .abs _ _ => true
  | .addi _ _ => true
  | .muli _ _ => true
  | .cmp _ _ => true
  | .ceq _ _ => true
  | .clt _ _ => true
  | .cle _ _ => true
  | .ceqi _ _ => true
  | .clti _ _ => true
  | .eq _ _ => true
  | .and _ _ => true
  | .or _ _ => true
  | .xor _ _ => true
  | .andn _ _ => true
  | .not _ _ => true
  | .andi _ _ => true
  | .ori _ _ => true
  | .xori _ _ => true
  | .shl _ _ => true
  | .shr _ _ => true
  | .sar _ _ => true
  | .rot _ _ => true
  | .shi _ _ => true
  | .popc _ _ => true
  | .clz _ _ => true
  | .ctz _ _ => true
  | .tag _ _ => true
  | .tcls _ _ => true
  | .ttst _ _ => true
  | .ttsti _ _ => true
  | .rtag _ _ => true
  | .rtagi _ _ => true
  | .mov _ _ => true
  | .cvtf _ _ => true
  | .cvti _ _ => true
  | .ftor _ _ => true
  | .rtof _ _ => true
  | .ldi _ _ => true
  | .ldc _ _ => true
  | .ldr _ _ => true
  | .car _ _ => true
  | .cdr _ _ => true
  | .cons _ _ => true
  | .rplaca _ _ => true
  | .rplacd _ _ => true
  | .vref _ _ => true
  | .vset _ _ => true
  | .vlen _ _ => true
  | .bref _ _ => true
  | .bset _ _ => true
  | .unwk _ _ => true
  | .ld _ _ => true
  | .st _ _ => true
  | .ldt _ _ => true
  | .stt _ _ => true
  | .ldx _ _ => true
  | .l8 _ _ => true
  | .l16 _ _ => true
  | .l32 _ _ => true
  | .s8 _ _ => true
  | .s16 _ _ => true
  | .s32 _ _ => true
  | .zal _ _ => true
  | .ldw _ _ => true
  | .ldwt _ _ => true
  | .mfs _ _ => true
  | .mts _ _ => true
  | .mtsPs _ _ => true
  | .mtsLe _ _ _ => true
  | .mtsWinb _ _ => true
  | .mtsTvb _ _ => true
  | .mtsCctl _ _ => true
  | .l1dSweepEnd _ _ => true
  | .ucsGo _ _ => true
  | .ucsClr _ _ => true
  | .ucsLoadComplete _ => true
  | .br _ _ => true
  | .call _ _ => true
  | .bcc _ _ _ _ _ => true
  | .btag _ _ _ _ _ _ => true
  | .loop _ _ _ _ => true
  | .jmpr _ _ => true
  | .callr _ _ => true
  | .ret _ _ => true
  | .rep _ _ _ _ _ => true
  | .ext _ _ _ _ _ _ => true
  | .illegalInstruction _ _ => true
  | .wfe _ _ => true
  | .sev _ _ => true
  | .eventLatchSet _ => true
  | .waitt _ _ => true
  | .waittDeadline _ => true
  | .agree _ _ _ => true
  | .movb _ _ _ => true
  | .fillb _ _ _ => true
  | .scanm _ _ _ => true
  | .scanc _ _ _ => true
  | .callw _ _ => true
  | .retw _ _ => true
  | .saveh _ _ _ => true
  | .rest _ _ _ => true
  | .movwbF _ _ => true
  | .movwbT _ _ => true
  | .customerSlot _ _ _ _ => true
  | .trap _ _ => true
  | .callg _ _ => true
  | .retg _ _ => true
  | .rete _ _ => true
  | .eventLineEntry _ _ => true
  | .storeBusError _ _ => true
  | .deferredMachineCheck _ _ => true
  | .twinEvent _ _ => true
  | .tlbw _ _ => true
  | .tlbr _ _ => true
  | .tlbs _ _ => true
  | .tlbiA _ _ => true
  | .tlbiT _ _ => true
  | .tlbiTForce _ _ => true
  | .tlbiAll _ _ => true
  | .tlbiAllForce _ _ => true
  | .fenceL _ _ => true
  | .fenceS _ _ => true
  | .fence _ _ => true
  | .fenceIo _ _ => true
  | .isync _ _ => true
  | .cwb _ _ => true
  | .cinv _ _ => true
  | .cwbi _ _ => true
  | .cinvr _ _ => true
  | .cinvrNw _ _ => true
  | .nop _ _ => true
  | .ckpt _ _ => true
  | .brk _ _ => true
  | .responseDelivery _ _ => true
  | .fabricTimeout _ => true
  | .transactionEntryGrant => true
  | .creditReturn _ _ _ => true
  | .coherenceRequest src _ _ _ => decide (src.toNat < 0x54)
  | .l2Sweep src _ _ => decide (src.wf)
  | .l2SweepEnd _ _ => true
  | .l2LockWrite src _ _ => decide (src.wf)
  | .lockLoad src _ _ => decide (src.wf)
  | .lockLoadEnd _ => true
  | .registerWrite src _ _ => decide (src.wf)
  | .gcRset src _ => decide (src.wf)
  | .gcRstatLoad src => decide (src.wf)
  | .heapEnable src _ _ => decide (src.wf)
  | .writeMark src _ _ => decide (src.wf)
  | .writeWeak src _ _ => decide (src.wf)
  | .writeEvac src _ _ => decide (src.wf)
  | .writeIdle src _ _ => decide (src.wf)
  | .markActive _ => true
  | .rootsSet src _ _ => decide (src.wf)
  | .terminationRound _ => true
  | .markEntry _ _ => true
  | .cardScan _ _ => true
  | .weakClear _ => true
  | .weakEnd _ => true
  | .engineCopy _ _ => true
  | .seSatbin src _ _ => decide (src.wf)
  | .seSatbdone src _ => decide (src.wf)
  | .sePush src _ _ => decide (src.wf)
  | .seEvreq src _ _ => decide (src.wf)
  | .seEvdone src _ => decide (src.wf)
  | .seSplim src _ _ => decide (src.wf)
  | .gcHeapAlloc src _ => decide (src.wf)
  | .prtWrite src _ _ _ => decide (src.wf)
  | .prtLock src => decide (src.wf)
  | .prtCtlLoad src => decide (src.wf)
  | .secR0tvbWrite src _ => decide (src.wf)
  | .split src _ => decide (src.wf)
  | .join src _ _ => decide (src.wf)
  | .loose src _ => decide (src.wf)
  | .solo src _ _ => decide (src.wf)
  | .twinFence src _ => decide (src.wf)
  | .unfence src _ => decide (src.wf)
  | .twinTransitionComplete _ _ _ => true
  | .twinLogack src _ => decide (src.wf)
  | .windowEnd _ _ => true
  | .outputMatch _ _ => true
  | .partnerWaitTimeout _ _ => true
  | .bistEnd _ _ _ => true
  | .comparatorTest _ _ => true
  | .delayLineParity _ _ => true
  | .debugHalt _ => true
  | .debugResume _ => true
  | .debugStep _ => true
  | .debugRegisterAccess _ special n _ _ => decide (special ∨ n.toNat < 32)
  | .debugMemoryAccess pa _ => decide (pa.toNat % 8 = 0)
  | .debugAttach => true
  | .udpDatagram _ _ => true
  | .sqTailDoorbell c _ _ _ => decide (c.toNat < 3)
  | .cqHeadDoorbell c _ _ _ => decide (c.toNat < 3)
  | .spWritePacket _ => true
  | .spReadReply => true
  | .spReadStatus => true
  | .status _ _ => true
  | .streamInfo _ _ => true
  | .telemRead _ _ => true
  | .attest _ _ => true
  | .attestSigned => true
  | .attestRead _ _ => true
  | .streamOpen _ => true
  | .streamClose _ => true
  | .blobPut _ => true
  | .keySet _ => true
  | .modeReq _ => true
  | .modeReqResetDelay => true
  | .dispatch _ => true
  | .ldgNext src _ => decide (src.wf)
  | .ldgCommit src _ _ => decide (src.wf)
  | .ldgEffput src _ _ => decide (src.wf)
  | .ldgAck src _ => decide (src.wf)
  | .ldgImgbaseWrite src _ => decide (src.wf)
  | .deadline _ => true
  | .effectComplete _ _ _ => true
  | .journalDrain _ => true
  | .ledgerRebuild => true
  | .ledgerRebuildEnd => true
  | .mirrorWrite _ off _ => decide (off.toNat % 8 = 0)
  | .mirrorAck _ => true
  | .mirrorTimeout _ => true
  | .mirrorResyncDone => true
  | .restore src _ => decide (src.wf)
  | .driveReadComplete _ _ _ => true
  | .zeroBlockFill _ => true
  | .frameEviction => true
  | .stoXqtail src _ => decide (src.wf)
  | .read _ _ => true
  | .fetch _ _ => true
  | .pin _ _ => true
  | .unpin _ _ => true
  | .seal _ _ => true
  | .sealComplete _ => true
  | .checkpoint => true
  | .checkpointEnd => true
  | .mount src _ => decide (src.wf)
  | .mountEnd _ _ _ => true
  | .format src _ => decide (src.wf)
  | .formatEnd => true
  | .resync src _ => decide (src.wf)
  | .resyncEnd => true
  | .stoDisable src _ => decide (src.wf)
  | .driveFault _ => true
  | .driveCommandTimeout _ => true
  | .driveReady _ => true
  | .bootRom _ _ _ _ _ => true
  | .identityDerivation _ => true
  | .secMeasext src _ => decide (src.wf)
  | .install src _ => decide (src.wf)
  | .erase src _ => decide (src.wf)
  | .revokeSlot src _ => decide (src.wf)
  | .rollback src _ => decide (src.wf)
  | .debuglock src _ => decide (src.wf)
  | .life src _ => decide (src.wf)
  | .progkey src _ => decide (src.wf)
  | .fuseOperationComplete _ => true
  | .keccakTail _ _ => true
  | .shake256 _ _ => true
  | .kmac256 _ _ => true
  | .verifySlhDsaShake256s _ _ => true
  | .verifySlhDsaShake256f _ _ => true
  | .powerOn _ => true
  | .rstNLow => true
  | .rstNRise _ _ _ => true
  | .internalResetEnd => true
  | .refclkLoss => true
  | .railOutOfTolerance => true
  | .ddrTrainingEnd => true
  | .run src => decide (src.wf)
  | .safehold src => decide (src.wf)
  | .service src => decide (src.wf)
  | .quiet src => decide (src.wf)
  | .reset src => decide (src.wf)
  | .quietDrainDone => true
  | .quietDrainTimeout => true
  | .quietGated => true
  | .quietWake => true
  | .quietWakeDone => true
  | .feed src _ => decide (src.wf)
  | .watchPeriodWrite src _ => decide (src.wf)
  | .watchExpiry => true
  | .sysStart src _ => decide (src.wf)
  | .sysTimeWrite src _ => decide (src.wf)
  | .dvfsPointWrite src _ _ => decide (src.wf)
  | .dvfsChangeEnd _ => true
  | .thermalDerate _ _ => true
  | .derateClear _ _ => true
  | .temp _ _ => true
  | .overtemperatureReset _ _ => true
  | .clusterPllLoss _ => true
  | .pllRelock _ => true
  | .evclk => true
  | .pllCalibration _ => true
  | .pfwNAssert => true
  | .pfwNRelease => true
  | .flushComplete => true
  | .resume => true
  | .cutOff => true
  | .testgo src _ => decide (src.wf)
  | .certTestDue => true
  | .certTestEnd _ _ => true
  | .certTestRetry => true
  | .patrolRead _ => true
  | .l2Scrub _ _ => true
  | .keepCompare _ _ => true
  | .keepRecheck => true
  | .jnvWearRotation _ => true
  | .zqCalibration _ => true
  | .dqsRetraining _ _ => true
  | .mr4Read _ _ => true
  | .ethFrameReceived _ _ _ _ => true
  | .ethTxTail src _ _ => decide (src.wf)
  | .ethTxComplete _ _ _ => true
  | .ethGbaseWrite src _ _ => decide (src.wf)
  | .gateListSwitch _ => true
  | .gateEntryExpiry _ => true
  | .pcieInboundRequest c _ _ _ _ => decide (c.toNat < 3)
  | .canFrameReceived _ _ _ _ _ => true
  | .canFrameSent _ => true
  | .canBusOff _ => true
  | .canBusOffRecovery _ => true
  | .uartByteReceived _ _ _ _ _ => true
  | .uartDataWrite src _ _ => decide (src.wf)
  | .uartDataRead src _ => decide (src.wf)
  | .uartTxEmpty _ => true
  | .i2cGo src _ _ => decide (src.wf)
  | .i2cTransferDone _ _ _ _ _ => true
  | .i2cTargetTransaction _ _ _ _ => true
  | .qspiGo src _ => decide (src.wf)
  | .qspiDone _ => true
  | .evtEdge _ _ => true
  | .sourceAssert i => decide (i.toNat < 0x74)
  | .pwmPeriodBoundary _ => true
  | .captureEdge _ _ => true
  | .countEdge _ _ => true
  | .stepPulseEnd _ => true
  | .plsCntWrite src _ _ => decide (src.wf)
  | .panelFrame _ => true
  | .frameRecordAck => true
  | .stuckRelease _ => true
  | .breset src _ => decide (src.wf)
  | .panelEnable src _ => decide (src.wf)
  | .panelDisable src _ => decide (src.wf)
  | .panelPllLoss => true
  | .tempClear _ _ => true
  | .panelPllRelock => true
  | .canErrorPassive _ _ _ => true
  | .pcieLinkEvent c => decide (c.toNat < 3)
  | .vholdSample _ => true
  | .jnvMoveSwitch => true
  | .retrainingHoldEnd _ => true
  | .uartByteSent _ => true
  | .uartCtsChange _ _ => true

end Sys2Proof
end

