-- ==== Sys2Proof/Decode.lean ====
section
/-!
DEFINITION. The command that a word spells by the table's bits. The Caerash takes its commands as named operations with
operands: no row of spec/opcode_table.json gives bits, so no word spells a command. The instruction words of the cores
reach the model as rows that name their fields.
-/
namespace Sys2Proof

/-- The command an `nbits`-bit word spells: none, since the table gives no row any bits (assumption 11). -/
def decodeTableWord (_nbits _w : Nat) : Option Instr := none

end Sys2Proof
end

