-- ==== Sys2Proof/Config.lean ====
section
/-!
DEFINITION. What the spec leaves open, as constants with no body: free values (a result, a content or a choice the
spec does not state), and the functions that outside standards or physical parts fix and this model leaves
uninterpreted. Nothing can be proved about their values; each is named in the assumption log.
-/
namespace Sys2Proof.Config

/-- The n-th free 64-bit value of a run (assumption 2). A step that needs one advances State.freeCount. -/
opaque freeValue : Nat → BitVec 64

/-- The output bytes of SHAKE256 for a message and an output length (R640; assumption 20). -/
opaque shakeOut : List (BitVec 8) → (n : Nat) → Vector (BitVec 8) n
/-- SHAKE256 of a message (bytes), as the wanted number of output bytes. -/
def shake256 (m : List (BitVec 8)) (n : Nat) : List (BitVec 8) := (shakeOut m n).toList

/-- The output bytes of KMAC256 under a key, of a message, for an output length and customisation bytes (R532, R640;
assumption 20). -/
opaque kmacOut : List (BitVec 8) → List (BitVec 8) → List (BitVec 8) → (n : Nat) → Vector (BitVec 8) n
/-- KMAC256 under a key, of a message, with the wanted output length and the customisation bytes. -/
def kmac256 (k m : List (BitVec 8)) (n : Nat) (text : List (BitVec 8)) : List (BitVec 8) := (kmacOut k m text n).toList

/-- The SLH-DSA verification of R641: variant (true for 256s), public key, message, signature (assumption 20). -/
opaque slhVerify : Bool → List (BitVec 8) → List (BitVec 8) → List (BitVec 8) → Bool

/-- The SLH-DSA-SHAKE-256f public key of 96 derived bytes (R629; assumption 20). -/
opaque slhKey : List (BitVec 8) → Vector (BitVec 8) 64
def slhPublic (bs : List (BitVec 8)) : List (BitVec 8) := (slhKey bs).toList

/-- The SLH-DSA-SHAKE-256f signature of the identity key from 96 derived bytes, with a context string, over a message
(R631; assumption 20). -/
opaque slhSig : List (BitVec 8) → List (BitVec 8) → List (BitVec 8) → Vector (BitVec 8) 49856
def slhSign (sk ctx m : List (BitVec 8)) : List (BitVec 8) := (slhSig sk ctx m).toList

/-- The PUF key that SEC reconstructs, which nothing can read (R616, R628; assumption 20). -/
opaque pufKey : List (BitVec 8)

/-- IDSEED of the fuse array, which nothing can read (R616, R617; assumption 20). -/
opaque idSeed : List (BitVec 8)

/-- The digest of the Boot ROM contents that extends MEAS0 (R626; assumption 20). -/
opaque romDigest : List (BitVec 8)

/-- A baseline as the Panel Sense Unit learns it from its eight counts (R766 gives no formula; assumption 40). -/
opaque panelLearn : List Nat → Nat

/-- Whether the Panel Sense Unit rounds an inexact quotient up: numerator and denominator (R766, R769; assumption 40). -/
opaque panelRoundUp : Int → Nat → Bool

end Sys2Proof.Config
end

