-- ==== Sys2Proof/Machine/Bits.lean ====
section
/-!
DEFINITION. Bit fields of payloads and registers, written as the spec's [msb:lsb] ranges, and the byte and
sign-extension helpers the meanings share.
-/
namespace Sys2Proof.Machine

/-- A number as a 64-bit payload, wrapping. -/
abbrev p64 (n : Nat) : Pay := BitVec.ofNat 64 n

/-- The field [hi:lo] of a number. -/
def nfld (x hi lo : Nat) : Nat := (x >>> lo) % 2 ^ (hi + 1 - lo)

/-- The field [hi:lo] of a payload, as a number. -/
def fld (x : Pay) (hi lo : Nat) : Nat := nfld x.toNat hi lo

/-- Bit n of a payload. -/
def bit (x : Pay) (n : Nat) : Bool := x.getLsbD n

/-- The payload with ones exactly in [hi:lo]. -/
def maskFld (hi lo : Nat) : Pay := p64 ((2 ^ (hi + 1 - lo) - 1) <<< lo)

/-- `x` with its field [hi:lo] replaced by `v` (taken modulo the field's width). -/
def setFld (x : Pay) (hi lo v : Nat) : Pay :=
  (x &&& ~~~ maskFld hi lo) ||| p64 ((v % 2 ^ (hi + 1 - lo)) <<< lo)

/-- `x` with bit n set to `b`. -/
def setBit (x : Pay) (n : Nat) (b : Bool) : Pay := setFld x n n b.toNat

/-- A field value placed at [hi:lo] of an otherwise zero payload. -/
def atFld (hi lo v : Nat) : Pay := setFld 0#64 hi lo v

/-- A truth value as a number. -/
abbrev b2n (b : Bool) : Nat := b.toNat

/-- A 16-bit immediate sign-extended to 64 bits (R101). -/
def sext16 (v : BitVec 16) : Pay := v.signExtend 64

/-- A 32-bit immediate sign-extended to 64 bits (R101, R102). -/
def sext32 (v : BitVec 32) : Pay := v.signExtend 64

/-- A field of `w` bits read as a signed number. -/
def signedOf (w v : Nat) : Int := if v < 2 ^ (w - 1) then (v : Int) else (v : Int) - 2 ^ w

/-- Byte b (0 to 7) of a payload: bits [8b+7:8b] (R54). -/
def byteOf (p : Pay) (b : Nat) : BitVec 8 := BitVec.ofNat 8 (p.toNat >>> (8 * b))

/-- The low n bytes of a payload as a number. -/
def lowBytes (p : Pay) (n : Nat) : Nat := p.toNat % 2 ^ (8 * n)

/-- `p` with the `n` bytes from byte `b` up replaced by the low bytes of `v`. -/
def putBytes (p : Pay) (b n : Nat) (v : Pay) : Pay := setFld p (8 * (b + n) - 1) (8 * b) v.toNat

/-- The `n` bytes from byte `b` up of a payload, zero-extended. -/
def getBytes (p : Pay) (b n : Nat) : Pay := p64 (fld p (8 * (b + n) - 1) (8 * b))

/-- Little-endian number of a list of bytes, the first byte least significant. -/
def leNat : List (BitVec 8) → Nat
  | [] => 0
  | b :: bs => b.toNat + 256 * leNat bs

/-- The low `n` bytes of a number, least significant first. -/
def leBytes : Nat → Nat → List (BitVec 8)
  | 0, _ => []
  | n + 1, v => BitVec.ofNat 8 v :: leBytes n (v / 256)

/-- Exclusive-or step of a feedback register: shifts left and folds the polynomial back in. -/
def lfsrStep (w poly : Nat) (m : Nat) : Nat :=
  let sh := (m * 2) % 2 ^ w
  if m / 2 ^ (w - 1) % 2 = 1 then sh ^^^ poly else sh

/-- The MISR step of R486 for one input word: shift left, fold x⁴+x³+x+1 (0x1B) back, then XOR the word. -/
def misrStep (m w : Pay) : Pay := p64 (lfsrStep 64 0x1B m.toNat) ^^^ w

/-- Saturating increment of an n-bit counter. -/
def satInc (bits n : Nat) : Nat := if n + 1 < 2 ^ bits then n + 1 else 2 ^ bits - 1

end Sys2Proof.Machine
end

