-- ==== Sys2Proof/Machine/Tbl.lean ====
section
/-!
DEFINITION. One canonical sparse table, used for memory, contexts, registers and every numbered group of like
things: a list of (key, value) pairs with strictly rising keys and no entry equal to what an unlisted key reads
as. What an unlisted key reads as is a parameter of every operation, so equal tables are equal lists.
-/
namespace Sys2Proof.Machine

/-- A sparse table from numbers to `α`. -/
abbrev Tbl (α : Type) := List (Nat × α)

/-- The entry listed for key `k`, if any. -/
def Tbl.look {α : Type} : Tbl α → Nat → Option α
  | [], _ => none
  | (i, v) :: t, k => if i = k then some v else Tbl.look t k

/-- What the table reads as at `k`; unlisted keys read as `d k`. -/
def Tbl.get {α : Type} (d : Nat → α) (t : Tbl α) (k : Nat) : α := (Tbl.look t k).getD (d k)

/-- The table with key `k` unlisted. -/
def Tbl.erase {α : Type} : Tbl α → Nat → Tbl α
  | [], _ => []
  | (i, v) :: t, k => if i = k then Tbl.erase t k else (i, v) :: Tbl.erase t k

/-- The table with key `k` listed as `v`, in rising order. -/
def Tbl.insert {α : Type} : Tbl α → Nat → α → Tbl α
  | [], k, v => [(k, v)]
  | (i, w) :: t, k, v =>
    if i = k then (k, v) :: t else if k < i then (k, v) :: (i, w) :: t else (i, w) :: Tbl.insert t k v

/-- The table with key `k` reading as `v`, in canonical form: an entry equal to what it would read as unlisted goes. -/
def Tbl.set {α : Type} [DecidableEq α] (d : Nat → α) (t : Tbl α) (k : Nat) (v : α) : Tbl α :=
  if v = d k then Tbl.erase t k else Tbl.insert t k v

/-- Keys rise strictly, from `lo` up. -/
def Tbl.rising {α : Type} : Nat → Tbl α → Bool
  | _, [] => true
  | lo, (k, _) :: t => decide (lo ≤ k) && Tbl.rising (k + 1) t

/-- The canonical form: keys rise strictly and no entry equals what its key reads as unlisted. -/
def Tbl.wf {α : Type} [DecidableEq α] (d : Nat → α) (t : Tbl α) : Bool :=
  Tbl.rising 0 t && t.all (fun e => decide (e.2 ≠ d e.1))

/-- The table with the value at `k` changed by `f`. -/
def Tbl.upd {α : Type} [DecidableEq α] (d : Nat → α) (t : Tbl α) (k : Nat) (f : α → α) : Tbl α :=
  Tbl.set d t k (f (Tbl.get d t k))

/-- A fold over the numbers from `k`, `n` of them, in rising order. -/
def forN {σ : Type} : Nat → Nat → (Nat → σ → σ) → σ → σ
  | 0, _, _, s => s
  | n + 1, k, f, s => forN n (k + 1) f (f k s)

/-- The first number from `k`, among `n`, that `p` holds of. -/
def firstN : Nat → Nat → (Nat → Bool) → Option Nat
  | 0, _, _ => none
  | n + 1, k, p => if p k then some k else firstN n (k + 1) p

/-- How many of the `n` numbers from `k` the predicate holds of. -/
def countN : Nat → Nat → (Nat → Bool) → Nat
  | 0, _, _ => 0
  | n + 1, k, p => (if p k then 1 else 0) + countN n (k + 1) p

/-- Distance of sender c after the last one served, for the round robin of R24 and R33. -/
def turnOf (last c : Nat) : Nat := (c + 255 - last) % 256

/-- The first of the waiting entries in the round robin of their senders; the oldest of one sender. -/
def roundRobin {α : Type} (src : α → Nat) (last : Nat) : List α → Option α
  | [] => none
  | t :: ts =>
    match roundRobin src last ts with
    | some u => if turnOf last (src u) < turnOf last (src t) then some u else some t
    | none => some t

end Sys2Proof.Machine
end

