-- ==== Sys2Proof/Machine/State.lean ====
section
/-!
DEFINITION. The state of the Caerash as plain data: contexts, cores, twins, clusters, memory, device registers and
the hidden state of every block, with the queue of waiting commands; the closed inductives of faults and refusals;
and the state after a device reset.
-/
namespace Sys2Proof.Machine

/-- A load still pending (R126 to R138): instructions still to retire before its write, register, bank, value. -/
structure PendLoad where
  rem : Nat
  reg : BitVec 5
  bank : Nat
  val : Word
  deriving DecidableEq, Repr

/-- What a context does at its boundary (R199 to R206, R274, R305, R583). -/
inductive RunState where
  /-- executing -/
  | run
  /-- waiting in WFE -/
  | wfe
  /-- waiting in WAITT: destination register and deadline -/
  | waitt (d : BitVec 5) (deadline : Pay)
  /-- parked on a PREF to a block that is not resident -/
  | pref (block : Nat)
  /-- parked while the owner engine copies an object (virtual address) -/
  | copy (obj : Nat)
  /-- waiting for the response of a fabric transaction -/
  | fabric (id : Nat)
  /-- a loose core waiting for its partner at the output comparator -/
  | partner
  /-- a load waiting for an engine or block to answer it: source page offset of the register -/
  | reg (off : Nat)
  /-- an MTS to CCTL waiting for the L1D sweep it started; the value it writes (R417), the size of the MTS, and whether a
  repeat runs it -/
  | sweep (v : Pay) (size : Nat) (rep : Bool)
  /-- an access that waits for a sweep to end, a slot that waits for a slot load, or a request that finds no miss register,
  buffer entry or Transaction Table entry to go on with (R32, R287, R394, R396, R397, R417, R420) -/
  | hold
  /-- a fence that waits for the held outputs of its twin's open window to leave (R424, R491) -/
  | window
  deriving DecidableEq, Repr

/-- A pending event line (R470): its number and the device time of its assertion. -/
structure LineEv where
  n : Nat
  time : Pay
  deriving DecidableEq, Repr

/-- A recorded Store Bus Error (R449, R455): cause, address of the access, address of the store. -/
structure StoreErr where
  cause : Nat
  addr : Pay
  pc : Pay
  deriving DecidableEq, Repr

/-- A deferred Machine Check (R452, R457): cause and physical address. -/
structure DefMc where
  cause : Nat
  addr : Pay
  deriving DecidableEq, Repr

/-- A held store of a customer slot instruction (R268): virtual and physical address, cacheability, width in bytes,
value, whether the write barrier acts at its release, whether it reaches memory, its SATB entries (R270), and whether
its response is an error. -/
structure HeldStore where
  va : Pay
  pa : Nat
  cache : Bool
  width : Nat
  val : Word
  barrier : Bool
  mem : Bool
  k : Nat
  err : Bool
  deriving DecidableEq, Repr

/-- A customer slot instruction that has stopped within its micro-program (R274): micro-registers, the micro-op it stands at,
held stores; whether it stands at a YIELD, and whether it has met no YIELD yet since it started (R271). -/
structure SlotRun where
  u : Tbl Word
  uop : Nat
  held : List HeldStore
  yield : Bool := false
  first : Bool := false
  deriving DecidableEq, Repr

/-- One answer that a waiting access has received and that its re-issued instruction consumes in order. -/
inductive Grant where
  /-- a load answered with a word -/
  | word (w : Word)
  /-- a store performed -/
  | done
  /-- an error response -/
  | error
  /-- a double-bit error in the response -/
  | doubleBit
  /-- uncorrectable DRAM data in the response -/
  | dramUe
  /-- the line is poisoned (R404) -/
  | poison
  /-- the block of a PREF could not be read (R600) -/
  | noBlock
  /-- the object could not be copied out of its region (R332) -/
  | noCopy
  deriving DecidableEq, Repr

/-- What an access of a waiting instruction has already found, so that the instruction finds the same when it goes on
(R360, R382): a translation with its checks, a word read by physical address, or an answer. -/
inductive Obs where
  | tr (pa : Nat) (cache : Bool)
  | word (w : Word)
  | grant (g : Grant)
  deriving DecidableEq, Repr

/-- One hardware context: registers, special registers of R257 under their numbers of R114, and its run state. -/
structure Ctx where
  /-- G1 to G15 at 1 to 15 and Lr of bank b at 16 + 16·b + r; unlisted reads as NIL (R225, R227) -/
  regs : Tbl Word
  /-- special registers held per context, by number; unlisted reads as 0 (R114, R257). WINB holds TB, HOME, OLD,
  SCTX and SBANK in their places of R242; NRES is computed -/
  sr : Tbl Pay
  /-- pending loads, oldest first (R130) -/
  loads : List PendLoad
  /-- the event latch (R197) -/
  latch : Bool
  run : RunState
  /-- pending event lines, in ascending line number (R470) -/
  lines : List LineEv
  /-- recorded Store Bus Errors, oldest first (R455) -/
  sbes : List StoreErr
  /-- deferred Machine Checks, oldest first (R457) -/
  mcs : List DefMc
  /-- an SEV or wake the Event Router holds for this context (R204) -/
  evHeld : Bool
  /-- event lines the Event Router holds for this context (R741) -/
  linesHeld : List LineEv
  /-- the context has been started since the device reset (R659) -/
  started : Bool
  /-- halted by debug access (R511) -/
  halted : Bool
  /-- debug access lets it run to its next boundary (R736) -/
  stepping : Bool
  /-- stopped by a twin transition or recovery, a fence, Quiet, or the Reserve sequence -/
  frozen : Bool
  /-- a return from an exception happened and no iteration, element or YIELD has completed since (R194, R219, R271) -/
  fresh : Bool
  /-- a customer slot instruction parked on a PREF (R274) -/
  slot : Option SlotRun
  /-- answers for the accesses of the instruction that waits -/
  grants : List Grant
  /-- what the accesses of the instruction that waits have found so far, in order -/
  obs : List Obs
  /-- the instruction at PC has been fetched and waits within its accesses -/
  inflight : Bool
  /-- a context reset found no entry 0: halted until a device reset (R462) -/
  dead : Bool
  deriving DecidableEq, Repr

/-- A context after a context reset (R227, R462), before it is started. -/
def Ctx.reset : Ctx :=
  { regs := [], sr := [], loads := [], latch := false, run := .run, lines := [], sbes := [], mcs := [],
    evHeld := false, linesHeld := [], started := false, halted := false, stepping := false, frozen := false, fresh := false,
    slot := none, grants := [], obs := [], inflight := false, dead := false }

/-- A main TLB entry as its two words of R365. -/
structure TlbEntry where
  tagw : Pay
  attr : Pay
  deriving DecidableEq, Repr

/-- A line in an L1D: way, dirty, and the context that last wrote it (R402). -/
structure L1Line where
  way : Nat
  dirty : Bool
  writer : Nat
  deriving DecidableEq, Repr

/-- A line in an L2: way, dirty, poisoned (R404). -/
structure L2Line where
  way : Nat
  dirty : Bool
  poison : Bool
  deriving DecidableEq, Repr

/-- A load or clear of customer slots that has been validated and waits to reach its targets (R286): decode entries
and micro-words of the image, empty for a clear alone. -/
structure UcsJob where
  clr : Bool
  csbase : Nat
  entries : List Pay
  words : List Pay
  targets : List Nat
  deriving DecidableEq, Repr

/-- One core: its per-core special registers by number, TLB, vector latch, slots and L1 caches. -/
structure Core where
  /-- TVB, GTB, CCTL, UCS, RTB, CKM, CYC by number; unlisted reads as its reset value (R114, R257) -/
  sr : Tbl Pay
  /-- main TLB entries 0 to 255; unlisted reads as all zero, which is invalid (R362, R370) -/
  tlb : Tbl TlbEntry
  /-- the entry after the previous victim, where the search for the next one begins (R373) -/
  victim : Nat
  /-- latched entries 64 to 127 of the ring 1 table; unlisted is absent (R443) -/
  latch1 : Tbl Word
  /-- latched entries 64 to 127 of the ring 0 table; unlisted is absent (R443) -/
  latch0 : Tbl Word
  /-- decode table: entry of each loaded slot 0 to 15; unlisted is empty (R260, R261) -/
  decode : Tbl Pay
  /-- control store 0 to 4095 (R260) -/
  cstore : Tbl Pay
  /-- slots load in progress (R286) -/
  ucsJob : Option UcsJob
  /-- L1D lines by line number pa div 64 (copy B of Keep SRAM by its own numbers) -/
  l1d : Tbl L1Line
  /-- L1I lines: line number to way -/
  l1i : Tbl Nat
  /-- invalid-locked L1I lines: line number to way (R409, R414) -/
  l1iLk : Tbl Nat
  /-- L1D LFSR (R398) -/
  lfsrD : Nat
  /-- L1I LFSR (R398) -/
  lfsrI : Nat
  /-- heap h is in MARK or WEAK as this core has switched (R319, R320): SATB recording on -/
  satb : Tbl Bool
  deriving DecidableEq, Repr

/-- A core after a device reset (R370, R398, R443, R280). -/
def Core.reset : Core :=
  { sr := [], tlb := [], victim := 0, latch1 := [], latch0 := [], decode := [], cstore := [], ucsJob := none,
    l1d := [], l1i := [], l1iLk := [], lfsrD := 0xACE1, lfsrI := 0xACE1, satb := [] }

/-- The modes of a twin (R479, R522). -/
inductive TwinMode where
  | tight | loose | split | solo | fenced | off
  deriving DecidableEq, Repr

/-- A command of TWIN_CMD or a transition the TWIN block starts itself (R481). -/
inductive TwinOp where
  | split | join | loose | solo | fence | unfence
  deriving DecidableEq, Repr

/-- A transition in progress (R481). -/
structure TwinTrans where
  op : TwinOp
  /-- SOLO: the shadow is kept -/
  keepShadow : Bool
  /-- JOIN: copy Keep SRAM -/
  ksync : Bool
  /-- started by TWIN_CMD, so that TWIN_CMDSTAT reports it -/
  byCmd : Bool
  /-- mode before -/
  before : TwinMode
  /-- a debug halt of this core follows (R511) -/
  haltCore : Option Nat
  deriving DecidableEq, Repr

/-- A recovery in progress (R503): log cause, AUX, details, detection time, the mode before. -/
structure Recov where
  cause : Nat
  aux : Nat
  d2 : Word
  d3 : Word
  time : Pay
  before : TwinMode
  /-- cause KEEP on the standby Keeper twin: the recovery of the other one follows (R501) -/
  next : Bool
  deriving DecidableEq, Repr

/-- An output that waits in a twin's output hold buffer (R491), or that has left it. -/
inductive Out where
  /-- a store that leaves the core: context, source code, physical address, width in bytes (8 is a whole word with
  its tag; 9 stands for STT), value, address of the store instruction -/
  | store (x src pa width : Nat) (val : Word) (pc : Pay)
  /-- an SEV to a context -/
  | sev (src target : Nat)
  /-- a heal of context x: the word `new` where the slot at pa still holds `old` (R306) -/
  | heal (x src pa : Nat) (old new : Word) (pc : Pay)
  deriving DecidableEq, Repr

/-- No context: the answer to what it sent concerns nobody (R503). -/
abbrev noCtx : Nat := 256

/-- An output whose context was reset since. -/
def Out.orphan : Out → Out
  | .store _ src pa width v pc => .store noCtx src pa width v pc
  | .sev src target => .sev src target
  | .heal _ src pa old new pc => .heal noCtx src pa old new pc

/-- One output that a loose core presents to the comparator (R496). -/
inductive LooseReq where
  /-- kind store: pa, width, value, pc -/
  | store (pa width : Nat) (val : Word) (pc : Pay)
  /-- kind load: pa, width -/
  | load (pa width : Nat)
  /-- kind fetch: pa -/
  | fetch (pa : Nat)
  /-- kind AGREE: selector, sample of this core, tolerance -/
  | agree (sel : Nat) (sample tol : Pay)
  /-- kind CKPT: signature -/
  | ckpt (sig : Pay)
  /-- kind SEV -/
  | sev (target : Nat)
  deriving DecidableEq, Repr

/-- A loose request with the context that made it. -/
structure LooseEntry where
  x : Nat
  req : LooseReq
  deriving DecidableEq, Repr

/-- One twin (R475 to R523). -/
structure Twin where
  mode : TwinMode
  trans : Option TwinTrans
  recov : Option Recov
  /-- leader fenced, shadow fenced, leader and shadow failed their last BIST, spare comparator in use, delay-line
  fault (R522) -/
  lf : Bool
  sf : Bool
  lb : Bool
  sb : Bool
  cmps : Bool
  dlf : Bool
  /-- no comparator left (R509) -/
  cmpLost : Bool
  rcnt : Nat
  /-- groups retired in the open window (R487) -/
  groups : Nat
  /-- leader's MISR of the open window (R486) -/
  misr : Pay
  /-- words that the open window has overwritten: memory key and old word, newest first (R489, R493) -/
  undo : List (Nat × Word)
  /-- SQT of each context at the last confirmed window (R314) -/
  sqtConf : Tbl Pay
  /-- output hold buffer, oldest first (R491) -/
  hold : List Out
  /-- comparator queues of a loose twin, oldest first (R496) -/
  outL : List LooseEntry
  outS : List LooseEntry
  deriving DecidableEq, Repr

/-- The MISR seed (R486). -/
abbrev misrSeed : Pay := 0xFFFFFFFFFFFFFFFF#64

/-- A twin after a device reset (R480). -/
def Twin.reset : Twin :=
  { mode := .tight, trans := none, recov := none, lf := false, sf := false, lb := false, sb := false, cmps := false,
    dlf := false, cmpLost := false, rcnt := 0, groups := 0, misr := misrSeed, undo := [], sqtConf := [], hold := [],
    outL := [], outS := [] }

/-- A SATB or PUSH submission the intake of an engine has not absorbed (R313, R334), and the physical address at which its
queue could not be read, if the engine met such a line (R336). -/
structure Intake where
  x : Nat
  words : List Word
  bad : Option Nat := none
  deriving DecidableEq, Repr

/-- A copy request held by an engine (R328, R334): object address and context; `ev` names the cluster whose EVDONE
waits for it (R350), none for a parked context. -/
structure CopyReq where
  obj : Nat
  x : Nat
  ev : Option Nat
  deriving DecidableEq, Repr

/-- The state of a context's last EVREQ at the engine side (R316, R350): running for an object, or its answer. -/
inductive EvReq where
  | idle | running (obj : Nat) | ended (ans : Pay)
  deriving DecidableEq, Repr

/-- A to-region of an engine (R329): region index and the word offset of its next free word. -/
structure ToRegion where
  ridx : Nat
  off : Nat
  deriving DecidableEq, Repr

/-- One cluster: its L2 and the Scavenge Engine's queues (R388, R334). -/
structure Cluster where
  l2 : Tbl L2Line
  /-- invalid-locked L2 lines: line number to way (R409, R415) -/
  l2Lk : Tbl Nat
  lfsr : Nat
  /-- a lock load in progress: first line, lines, way (R416) -/
  lkJob : Option (Nat × Nat × Nat)
  /-- mark queue, on chip and spilled, oldest first (R334) -/
  markQ : List Word
  /-- weak list: physical addresses of recorded slots (R323, R326) -/
  weakL : List Nat
  copyQ : List CopyReq
  /-- cards handed out to this engine: region index and card number (R324) -/
  cardQ : List (Nat × Nat)
  intake : List Intake
  /-- entries absorbed since reset (R350) -/
  absorbed : Nat
  /-- state of each context's last EVREQ, by context -/
  evreq : Tbl EvReq
  /-- to-regions by target generation (R329) -/
  toReg : Tbl ToRegion
  /-- where the walk of each evacuating region stands: region to word offset (R328) -/
  walk : Tbl Nat
  /-- Object Residency Cache: block to frame (R581) -/
  orc : Tbl Nat
  /-- L2 tag entries with an uncorrectable error: set and way (R403) -/
  tagBad : List (Nat × Nat)
  /-- the last two lines that the L2 missed, newest first (R400; assumption 80) -/
  misses : List Nat
  deriving DecidableEq, Repr

/-- A cluster after a device reset. -/
def Cluster.reset : Cluster :=
  { l2 := [], l2Lk := [], lfsr := 0xACE1, lkJob := none, markQ := [], weakL := [], copyQ := [], cardQ := [],
    intake := [], absorbed := 0, evreq := [], toReg := [], walk := [], orc := [], tagBad := [], misses := [] }

/-- What the GC block keeps of one heap's cycles: evacuating regions that had DONE when the running MARK began (R330),
those that a MARK begun after DONE has passed (R297), regions allocated since the MARK write (R322), and dirty cards not yet
given to an engine: region index and card number (R324, R334). -/
structure HeapSt where
  atMark : List Nat
  passed : List Nat
  young : List Nat
  cards : List (Nat × Nat)
  deriving DecidableEq, Repr

def HeapSt.reset : HeapSt := { atMark := [], passed := [], young := [], cards := [] }

/-- Where a fabric transaction stands (R16, R22, R23). -/
inductive TxnSt where
  /-- held at its source for a queue credit -/
  | held
  /-- waiting for a Transaction Table entry -/
  | waiting
  /-- holding a reserved entry of its holder -/
  | reserved
  /-- holding an entry of the shared pool -/
  | pool
  deriving DecidableEq, Repr

/-- What a transaction carries (R21): a load answered with its value, a cache line that a data access or a fetch missed, a
posted store, or a dirty line in an L2's eviction buffer (R396). -/
inductive TxnKind where
  | load | line | fetch | store | evict
  deriving DecidableEq, Repr

/-- A memory or I/O transaction that has not completed (R21). `out` is the posted store it carries, if it is one;
otherwise, but for an eviction, the context `x` waits for `width` bytes at `pa`. -/
structure Txn where
  id : Nat
  src : Nat
  tgt : Nat
  x : Nat
  pa : Nat
  width : Nat
  kind : TxnKind
  out : Option Out
  st : TxnSt
  /-- device time at which it entered the table (R25) -/
  time : Pay
  /-- a posted store that has taken effect at its target, and whose acknowledgement is on its way (R18) -/
  arrived : Bool
  deriving DecidableEq, Repr

/-- Who owns a resident frame (R587): nobody, or a command by its LPOS, open or sealed (with its slot, or none for a
zero block). -/
inductive FrameOwn where
  | clean
  | opened (lpos : Nat)
  | sealed (lpos : Nat) (slot : Option Nat)
  deriving DecidableEq, Repr

/-- A resident frame: its block, owner and pin count (R580, R587, R596). -/
structure FrameSt where
  block : Nat
  own : FrameOwn
  pins : Nat
  deriving DecidableEq, Repr

/-- A block read in a read slot of the Store Engine (R583): the block, the drives that have failed it (R600), and the
transfer-queue descriptors that wait on it. -/
structure StoRead where
  block : Nat
  failed : List Nat
  xq : List Nat
  /-- source code of the sender that asked first: a cluster's core, or the Store Engine for its queue (R33) -/
  src : Nat
  /-- it holds one of the 4,096 read slots; otherwise it waits for one (R32) -/
  slot : Bool
  deriving DecidableEq, Repr

/-- A command that the Store Engine has sent to a drive (R575 to R578, R589, R599, R600, R604): a write of whole LBAs, with Force
Unit Access or not, or the copy of LBAs from the other drive. -/
inductive DriveCmd where
  | write (drive lba : Nat) (fua : Bool) (bytes : List (BitVec 8))
  | copy (drive lba count : Nat)
  deriving DecidableEq, Repr

/-- A SEAL whose drive writes have not all ended (R589): descriptor, block, command, slot, drives still writing. -/
structure StoSeal where
  xq : Nat
  block : Nat
  lpos : Nat
  slot : Nat
  drives : List Nat
  deriving DecidableEq, Repr

/-- What the Store Engine is busy with (R604 to R606). -/
inductive StoJob where
  | none | mount | format | resync
  deriving DecidableEq, Repr

/-- The Store Engine's own state (R574 to R613). Geometry is the one in effect since the last MOUNT. -/
structure Sto where
  job : StoJob
  mapBase : Nat
  frpBase : Nat
  frvBase : Nat
  nfr : Nat
  drives : Nat
  /-- resident frames by frame number -/
  frames : Tbl FrameSt
  reads : List StoRead
  seals : List StoSeal
  /-- slots in use: slot to block -/
  slots : Tbl Nat
  /-- stamp table: stream to SEQ·256 + effect index (R578, R592) -/
  stamps : Tbl Nat
  /-- the position noted by a checkpoint in progress, in journal records (R594) -/
  ckptAt : Nat
  /-- epoch of the current checkpoint, and the area CUR names (R577) -/
  epoch : Nat
  cur : Bool
  /-- drives whose commands wait for the controller to report ready again, with the device time they must do it by
  (R608) -/
  awaiting : Tbl Pay
  /-- clock hand of frame eviction (R585) -/
  hand : Nat
  /-- transfer-queue descriptors taken whose status is not written yet, by index (R598) -/
  taken : List Nat
  /-- descriptors whose status is written, past HEAD (R598) -/
  doneXq : List Nat
  /-- blocks whose map word was met with an uncorrectable error since the last MOUNT (R609) -/
  mapBad : List Nat
  /-- source code whose request last took a read slot (R33) -/
  lastRead : Nat
  /-- commands sent to the drives, newest first -/
  drv : List DriveCmd
  deriving DecidableEq, Repr

def Sto.reset : Sto :=
  { job := .none, mapBase := 0, frpBase := 0, frvBase := 0, nfr := 0, drives := 0, frames := [], reads := [], seals := [],
    slots := [], stamps := [], ckptAt := 0, epoch := 0, cur := false, awaiting := [], hand := 0, taken := [], doneXq := [],
    mapBad := [], lastRead := 255, drv := [] }

/-! ### Command Engine and Ledger -/

/-- A reply before its trailer (R530). -/
structure Reply where
  stream : Nat
  opcode : Nat
  seq : Nat
  flags : Nat
  status : Nat
  credit : Nat
  lpos : Nat
  appcode : Nat
  result : List (BitVec 8)
  deriving DecidableEq, Repr

/-- A reply on its way. -/
structure ReplyOut where
  via : Via
  r : Reply
  deriving DecidableEq, Repr

/-- The mailbox of a context (R553): a dispatch not yet taken, the acknowledgement not yet read, and a request that
waits for effect-area room (R562): true for a COMMIT, with its descriptor's address. -/
structure Mail where
  next : Option Nat
  ack : Option Pay
  wait : Option (Bool × Nat)
  deriving DecidableEq, Repr

def Mail.empty : Mail := { next := none, ack := none, wait := none }

/-- A PCIe queue pair (R534). -/
structure QPair where
  sq : Pay
  cq : Pay
  sqLog : Nat
  cqLog : Nat
  en : Bool
  sqHead : Nat
  sqTail : Nat
  cqHead : Nat
  cqTail : Nat
  phase : Bool
  wait : List ReplyOut
  deriving DecidableEq, Repr

def QPair.empty : QPair :=
  { sq := 0, cq := 0, sqLog := 0, cqLog := 0, en := false, sqHead := 0, sqTail := 0, cqHead := 0, cqTail := 0, phase := true,
    wait := [] }

/-- The Command Engine and the Ledger. -/
structure Ldg where
  /-- JNV with the journal front, and JNV alone as the last drain left it (R546, R550) -/
  live : Led
  drained : Led
  /-- bytes in the journal front not yet drained -/
  front : Nat
  mail : Tbl Mail
  /-- slots whose dispatch is held (R551) -/
  held : List Nat
  /-- the rebuild has ended and uncommitted commands are to be dispatched as replays (R564) -/
  blob : Tbl (BitVec 8)
  blobLen : Nat
  /-- replies that wait for the Service Port, oldest first, and those that find it full (R535) -/
  spQ : List ReplyOut
  spWait : List ReplyOut
  /-- packets that the Service Port has discarded (R35, R535) -/
  spDrops : Nat
  pairs : Tbl QPair
  /-- replies that have left the device, newest first -/
  sent : List ReplyOut
  /-- a background resend to the mirror peer runs (R566) -/
  resync : Bool
  /-- slots sent to the mirror peer and not acknowledged, with the time of sending (R566) -/
  mirQ : List (Nat × Pay)
  /-- DRAM training has ended, so that the rebuild may begin (R660) -/
  trained : Bool
  /-- contexts that a third fault has reset, of which the Ledger has been told (R563) -/
  restart : List Nat
  deriving DecidableEq, Repr

def Ldg.reset : Ldg :=
  { live := Led.empty, drained := Led.empty, front := 0, mail := [], held := [], blob := [], blobLen := 0, spQ := [],
    spWait := [], spDrops := 0, pairs := [], sent := [], resync := false, mirQ := [], trained := false, restart := [] }

/-! ### Security block -/

/-- A key slot of the fuse array (R617). -/
structure KSlot where
  digest : List (BitVec 8)
  uses : Nat
  prog : Bool
  revoke : Bool
  deriving DecidableEq, Repr

def KSlot.blank : KSlot := { digest := [], uses := 0, prog := false, revoke := false }

/-- A fuse operation that runs (R642, R648): its fields and the digest for PROGKEY. -/
structure FuseJob where
  op : Nat
  slot : Nat
  uses : Nat
  value : Nat
  digest : List (BitVec 8)
  deriving DecidableEq, Repr

/-- A key installed and not yet committed (R636). -/
structure PendKey where
  idx : Nat
  lpos : Nat
  key : List (BitVec 8)
  ctr : Pay
  deriving DecidableEq, Repr

/-- An ATTEST query that waits for IDREADY or for its signature (R632): where its reply goes, its SEQ-less header
fields, and its report without the signature once assembled. -/
structure AttReq where
  via : Via
  stream : Nat
  flags : Nat
  nonce : List (BitVec 8)
  body : List (BitVec 8)
  deriving DecidableEq, Repr

/-- The Security block: fuses (R617), write-only registers, keys and the attestation report. -/
structure Sec where
  devuid : Pay
  kslots : Tbl KSlot
  rollback : Nat
  life : Nat
  debuglock : Bool
  keyW : Tbl Pay
  keyCtr : Pay
  dig : Tbl Pay
  pend : List PendKey
  fuse : Option FuseJob
  att : Option AttReq
  report : List (BitVec 8)
  /-- debug access has attached (R643) -/
  attached : Bool
  /-- the identity label that the last device reset derived with is that of RMA (R619, R628) -/
  rma : Bool
  deriving DecidableEq, Repr

def Sec.reset : Sec :=
  { devuid := 0, kslots := [], rollback := 0, life := 1, debuglock := false, keyW := [], keyCtr := 0, dig := [], pend := [],
    fuse := none, att := none, report := [], attached := false, rma := false }

/-! ### SYS and PWR -/

/-- Where a Quiet entry or wake stands (R672, R674). -/
inductive QuietSt where
  | none | drain | sweep | waking
  deriving DecidableEq, Repr

/-- SYS beyond its registers. -/
structure Sys where
  /-- the device is in Reset (R649) -/
  inReset : Bool
  /-- RST_N is low -/
  rstLow : Bool
  /-- RST_N went low during Reserve: a device reset follows the flush (R696) -/
  rstWait : Bool
  /-- every sensor must read 150 °C or less before the reset ends (R656) -/
  hot : Bool
  /-- the watch: armed, and the device time of its expiry (R665) -/
  armed : Bool
  expiry : Pay
  quiet : QuietSt
  quietEnd : Pay
  /-- a wake request that arose during a Quiet entry (R680), and a debug halt that woke (R674) -/
  wakeReq : Bool
  haltReq : Option Nat
  /-- an automatic Safe-Hold waits for the running transition (R651) -/
  autoSafe : Bool
  /-- the MODE_REQ, by its slot, whose transition runs (R655) -/
  modeReq : Option Nat
  /-- a committed MODE_REQ Reset takes effect at this device time (R655) -/
  resetAt : Option Pay
  /-- clusters whose point change runs, with the point (R668) -/
  dvfs : Tbl Nat
  /-- clusters whose PLL has lost lock (R666) -/
  unlocked : List Nat
  /-- the panel PLL has lock -/
  pnlLock : Bool
  deriving DecidableEq, Repr

def Sys.reset : Sys :=
  { inReset := false, rstLow := false, rstWait := false, hot := false, armed := false, expiry := 0, quiet := .none, quietEnd := 0,
    wakeReq := false, haltReq := none, autoSafe := false, modeReq := none, resetAt := none, dvfs := [],
    unlocked := [], pnlLock := true }

/-- A certification test that runs (R698): V1 in 10 mV units and its start. -/
structure CertTest where
  v1 : Nat
  start : Pay
  deriving DecidableEq, Repr

/-- PWR beyond its registers. -/
structure Pwr where
  /-- PFW_N as filtered is low (R685) -/
  pfw : Bool
  /-- a Reserve sequence runs: entered from this mode, 0 standing for Reset (R686, R687) -/
  glaze : Option Nat
  /-- device time at which PFW_N last rose (R692) -/
  pfwHigh : Pay
  /-- device time since which VHOLD has been at least VOK, if it is (R695, R698) -/
  okSince : Option Pay
  /-- a cut-off holds the device in reset until VHOLD has been at least VOK for 10 ms (R695) -/
  cut : Bool
  test : Option CertTest
  /-- start of the last test that completed, and the time from which an aborted test runs again (R698) -/
  lastTest : Option Pay
  retryAt : Option Pay
  /-- a test is due (R698) -/
  due : Bool
  /-- the save in JNV (R689 to R691): COMPLETE, sequence, the Ledger's contents it holds, the pages of Staging SRAM it
  holds, Keep fields -/
  complete : Bool
  seq : Nat
  saved : Option Led
  pages : List Nat
  keepOff : Nat
  keepLen : Nat
  keepDiff : Bool
  deriving DecidableEq, Repr

def Pwr.reset : Pwr :=
  { pfw := false, glaze := none, pfwHigh := 0, okSince := none, cut := false, test := none, lastTest := none, retryAt := none, due := true,
    complete := false, seq := 0, saved := none, pages := [], keepOff := 0, keepLen := 0, keepDiff := false }

/-! ### Background services -/

/-- A telemetry record (R720). -/
structure TelRec where
  seq : Nat
  src : Nat
  code : Nat
  count : Nat
  time : Pay
  addr : Pay
  extra : Pay
  deriving DecidableEq, Repr

/-- A JNV block move in progress (R713), and the foreground writes that wait for its switch. -/
structure JnvMove where
  block : Nat
  waiting : List Out
  deriving DecidableEq, Repr

structure Bgs where
  /-- the telemetry ring, oldest record first (R719) -/
  tel : List TelRec
  /-- L2 scrub position of each cluster: set (R709) -/
  l2Pos : Tbl Nat
  /-- Keep compare position: byte offset (R710), and a word that differed with the words read (R711) -/
  keepPos : Nat
  keepDiff : Option (Nat × Word × Word)
  /-- logical JNV blocks to spares (R714), the spares left, and the blocks remapped over the part's life (R724) -/
  remap : Tbl Nat
  spares : Nat
  remaps : Nat
  move : Option JnvMove
  /-- refresh rate each DRAM channel uses (R716) -/
  refresh : Tbl Nat
  /-- end of the current hold and of the last hold of each channel (R716) -/
  holds : Tbl Pay
  /-- excluded sensors: cluster·256 + sensor (R717) -/
  excluded : List Nat
  deriving DecidableEq, Repr

def Bgs.reset : Bgs :=
  { tel := [], l2Pos := [], keepPos := 0, keepDiff := none, remap := [], spares := 512, remaps := 0, move := none,
    refresh := [], holds := [], excluded := [] }

/-! ### Interfaces -/

/-- Where a frame in a transmit queue comes from (R728): a descriptor of the transmit ring, or an effect. -/
inductive TxFrom where
  | ring (i : Nat)
  | eff (slot gen idx : Nat)
  deriving DecidableEq, Repr

/-- A frame in a transmit queue: where it comes from, and the bytes of an effect; a descriptor's bytes are read when it
is sent (R754). -/
structure TxFrame where
  src : TxFrom
  bytes : List (BitVec 8)
  deriving DecidableEq, Repr

/-- A gate list (R755): entries as (gates, interval), and its base time. -/
structure GateList where
  entries : List (Nat × Nat)
  base : Pay
  deriving DecidableEq, Repr

/-- An Ethernet port beyond its registers. -/
structure EthPort where
  queues : Tbl (List TxFrame)
  standby : Option GateList
  active : Option GateList
  /-- the entry of the active list in force, and when its interval ends -/
  entry : Nat
  entryEnd : Pay
  /-- frames that have left the port, newest first -/
  sent : List (List (BitVec 8))
  deriving DecidableEq, Repr

def EthPort.reset : EthPort := { queues := [], standby := none, active := none, entry := 0, entryEnd := 0, sent := [] }

/-- A completion to the device behind a root port (R730, R731): controller, Unsupported Request, the EP bit, the data. -/
structure PcieCpl where
  ctrl : Nat
  ur : Bool
  ep : Bool
  data : List (BitVec 8)
  deriving DecidableEq, Repr

/-- A CAN frame as word 0 of R732 and its data bytes; ESI and RTR apart. -/
structure CanFrame where
  word : Pay
  esi : Bool
  rtr : Bool
  time : Pay
  data : List (BitVec 8)
  deriving DecidableEq, Repr

/-- A CAN channel beyond its registers: receive FIFO with the accepting filter of each frame, waiting effects (slot,
generation, index), whether a write of EN has started the recovery from bus-off (R756), and the payloads of effects that
have left, newest first. -/
structure CanCh where
  fifo : List (CanFrame × Option Nat)
  txq : List (Nat × Nat × Nat)
  recovering : Bool
  sent : List (List (BitVec 8))
  deriving DecidableEq, Repr

def CanCh.reset : CanCh := { fifo := [], txq := [], recovering := false, sent := [] }

/-- A UART beyond its registers: received bytes as words of SIO_UuDATA, bytes to send, the byte in the shifter, the
CTS input, and the bytes that have left, newest first. -/
structure Uart where
  rx : List Pay
  tx : List (BitVec 8)
  shift : Option (BitVec 8)
  cts : Bool
  sent : List (BitVec 8)
  deriving DecidableEq, Repr

def Uart.reset : Uart := { rx := [], tx := [], shift := none, cts := true, sent := [] }

/-- Hidden state of SIO: UARTs, I²C commands that run, the QSPI command that runs, and the bus held for a repeated
START (R760). -/
structure Sio where
  uarts : Tbl Uart
  i2c : Tbl Pay
  held : List Nat
  qspi : Option Pay
  deriving DecidableEq, Repr

def Sio.reset : Sio := { uarts := [], i2c := [], held := [], qspi := none }

/-- A Pulse Unit channel beyond its registers: PER and CMP in force (R745), and whether a STEP train runs. -/
structure PlsCh where
  per : Nat
  cmp : Nat
  stepping : Bool
  deriving DecidableEq, Repr

def PlsCh.reset : PlsCh := { per := 0, cmp := 0, stepping := false }

/-- A tracked touch (R769): position now and as last reported, strength, glove, start, peak node. -/
structure Touch where
  id : Nat
  x : Nat
  y : Nat
  rx : Nat
  ry : Nat
  str : Nat
  glove : Bool
  start : Pay
  node : Nat
  deriving DecidableEq, Repr

/-- A candidate that has not yet been a touch for long enough (R767): its position and how many frames it has stood. -/
structure Cand where
  x : Nat
  y : Nat
  frames : Nat
  deriving DecidableEq, Repr

/-- The Panel Sense Unit beyond its registers. -/
structure Pnl where
  /-- baselines by 1024·hop entry + index (R766) -/
  base : Tbl Nat
  /-- hop entries still to learn, in turn, with the frames left on each, and the counts of the entry being learned by
  index (R766) -/
  learn : List (Nat × Nat)
  learnt : Tbl (List Nat)
  touches : List Touch
  cands : List Cand
  /-- last noise measure of each hop entry, and the next to listen to (R771) -/
  noise : Tbl Nat
  listen : Nat
  /-- ring and frequency registers as the last EN write found them (R778) -/
  ring : Pay
  freqs : Tbl Pay
  /-- touches to report up in the first frame after a resume (R777) -/
  upNext : List Touch
  /-- records written and not yet acknowledged: whether each asserts source 0x50 (R770) -/
  unacked : List Bool
  /-- the next frame follows a hop (R771) -/
  hopped : Bool
  deriving DecidableEq, Repr

def Pnl.reset : Pnl :=
  { base := [], learn := [], learnt := [], touches := [], cands := [], noise := [], listen := 0, ring := 0, freqs := [], upNext := [],
    unacked := [], hopped := false }

/-- Why the block stops: it has no constructor, since no rule of the spec lets a command end without a next state. Safe:
no command ever faults. -/
inductive Fault where
  deriving DecidableEq, Repr

/-- Why a command has no meaning here. -/
inductive Refusal where
  /-- the row has no meaning yet: raised by Dispatch only; safe -/
  | notModelled (mnemonic : String)
  deriving DecidableEq, Repr

/-- The whole machine. -/
structure State where
  /-- waiting commands, first in, first out -/
  pending : List Instr
  /-- the model's own counter for free values (assumption 2) -/
  freeCount : Nat
  /-- payload bytes of memory by physical address; copy B of Keep SRAM at its addresses plus 2^48; unlisted reads
  as 0 (R36, R38, R54) -/
  mem : List Host.Cell
  /-- tags of memory words by word number; unlisted reads as RAW (R52, R86) -/
  tags : Tbl (BitVec 8)
  /-- for a line that some cache holds dirty: the words that memory itself still holds (R396, R408) -/
  backing : Tbl (List Word)
  /-- device registers by offset from 0x7F00_0000_0000; unlisted reads as its reset value (R40) -/
  dev : Tbl Pay
  ctxs : Tbl Ctx
  cores : Tbl Core
  twins : Tbl Twin
  clusters : Tbl Cluster
  heaps : Tbl HeapSt
  /-- the command (LPOS) that a context runs, by context; unlisted runs none (R587) -/
  runs : Tbl Nat
  sto : Sto
  ldg : Ldg
  sec : Sec
  sys : Sys
  pwr : Pwr
  bgs : Bgs
  eth : Tbl EthPort
  can : Tbl CanCh
  /-- completions of inbound PCIe reads, newest first -/
  pcieCpl : List PcieCpl
  sio : Sio
  /-- levels of EVT0 to EVT15 as the Event Router last saw them (R210) -/
  evt : BitVec 16
  pls : Tbl PlsCh
  pnl : Pnl
  /-- outputs that have left their buffers and are on their way to their targets -/
  outbox : List Out
  txns : List Txn
  nextTxn : Nat
  /-- source code that was last granted a Transaction Table entry (R24) -/
  lastGrant : Nat
  /-- message queues by 256·256·class + 256·sender + target: the flits of each message in them, oldest first (R16, R31) -/
  queues : Tbl (List Nat)
  /-- source code whose held request each queue last took (R33) -/
  lastSent : Tbl Nat
  /-- the word that the last command that loads a register returned -/
  answer : Option Word
  /-- device time in ns, and its fraction in units of 2^-32 ns (R671) -/
  time : Pay
  timeFrac : Nat
  /-- straps: device number, DRAM size code, DRAM speed code (R13, R806) -/
  dnum : BitVec 3
  dcfg : BitVec 2
  dspd : Bool
  deriving DecidableEq, Repr

/-- Context 0 of Keeper twin 0 at the Boot ROM reset vector, at ring 0 with TE = 0 (R659). -/
def Ctx.boot : Ctx := { Ctx.reset with started := true, sr := [(1, 0x7FFFFFF00000#64)] }

/-- Device registers that Boot entry leaves off their reset values: cause and the locks of the cluster PLLs (R656,
R660). -/
def bootRegs (cause count : Pay) : Tbl Pay :=
  [(0x38, cause <<< 56 ||| count), (0x100, 0x20000#64), (0x108, 0x20000#64), (0x110, 0x20000#64), (0x118, 0x20000#64),
   (0x120, 0x20000#64), (0x128, 0x20000#64), (0x130, 0x20000#64), (0x138, 0x20000#64)]

/-- The machine right after a power-on device reset, as it enters Boot (R656, R659): every field at the value the spec
states, or that the assumption log names. -/
def State.reset : State :=
  { pending := [], freeCount := 0, mem := [], tags := [], backing := [], dev := bootRegs 1 0, ctxs := [(0, Ctx.boot)], cores := [],
    twins := [], clusters := [], heaps := [], runs := [], sto := Sto.reset, ldg := Ldg.reset,
    sec := Sec.reset, sys := Sys.reset, pwr := Pwr.reset, bgs := Bgs.reset, eth := [], can := [], pcieCpl := [], sio := Sio.reset, evt := 0,
    pls := [], pnl := Pnl.reset,
    outbox := [], txns := [], nextTxn := 0, lastGrant := 0, queues := [], lastSent := [], answer := none,
    time := 0, timeFrac := 0, dnum := 0, dcfg := 0, dspd := false }

end Sys2Proof.Machine
end

