-- ==== Sys2Proof/Machine/Regs.lean ====
section
/-!
DEFINITION. The device registers as the spec's register tables give them: for each register its fields with their
access codes, reset values and reserved codes (R6 to R9, R40, R48 to R50), and the generic write that follows from
them. Registers whose write does more are completed in the file of their block.
-/
namespace Sys2Proof.Machine

/-- The access codes of R6. -/
inductive Acc where
  | ro | rw | w1c | w1s | wo
  deriving DecidableEq, Repr

/-- One field of a register: bits [hi:lo], access, reset value, and the reserved codes of an enumeration as ranges. -/
structure RField where
  hi : Nat
  lo : Nat
  acc : Acc
  rst : Nat := 0
  bad : List (Nat × Nat) := []
  deriving DecidableEq, Repr

/-- A register's fields; bits in no field are reserved (R7). -/
abbrev RDesc := List RField

/-- The reset value of a register. -/
def RDesc.reset (d : RDesc) : Pay := d.foldl (fun v f => setFld v f.hi f.lo f.rst) 0#64

/-- R8: the written value places a reserved code in some field. -/
def RDesc.rejects (d : RDesc) (v : Pay) : Bool :=
  d.any (fun f => f.bad.any (fun r => decide (r.1 ≤ fld v f.hi f.lo ∧ fld v f.hi f.lo ≤ r.2)))

/-- R6: what one field holds after a write. -/
def RField.write (f : RField) (old v : Pay) : Pay :=
  let o := fld old f.hi f.lo
  let w := fld v f.hi f.lo
  match f.acc with
  | .ro | .wo => old
  | .rw => setFld old f.hi f.lo w
  | .w1c => setFld old f.hi f.lo (o ^^^ (o &&& w))
  | .w1s => setFld old f.hi f.lo (o ||| w)

/-- R6, R7: what the register holds after an accepted write; WO fields keep zero and act by their Effect. -/
def RDesc.write (d : RDesc) (old v : Pay) : Pay := d.foldl (fun r f => f.write r v) old

/-- Short constructors for the register tables. -/
abbrev ro (hi lo : Nat) (rst : Nat := 0) : RField := { hi := hi, lo := lo, acc := .ro, rst := rst }
abbrev rw (hi lo : Nat) (rst : Nat := 0) (bad : List (Nat × Nat) := []) : RField :=
  { hi := hi, lo := lo, acc := .rw, rst := rst, bad := bad }
abbrev w1c (b : Nat) (rst : Nat := 0) : RField := { hi := b, lo := b, acc := .w1c, rst := rst }
abbrev w1s (b : Nat) : RField := { hi := b, lo := b, acc := .w1s }
abbrev wo (hi lo : Nat) (bad : List (Nat × Nat) := []) : RField := { hi := hi, lo := lo, acc := .wo, bad := bad }

/-- The register at `o` in an association list. -/
def lookR : List (Nat × RDesc) → Nat → Option RDesc
  | [], _ => none
  | (k, d) :: t, o => if k = o then some d else lookR t o

/-- Page number of a device-register offset. -/
abbrev pageOf (off : Nat) : Nat := off / 0x10000
/-- Offset within the page. -/
abbrev inPage (off : Nat) : Nat := off % 0x10000

/-- R40: the pages that hold a block. -/
def pageMapped (p : Nat) : Bool := p ≤ 0x10 || (0x20 ≤ p && p ≤ 0x27)

/-- BLOCK_ID (R49). -/
def idDesc (p : Nat) : RDesc := [ro 31 24 p, ro 23 16 0xB0]

/-- ERR (R50). W1C of VALID clears the record, in the write of the page. -/
def errDesc : RDesc := [w1c 63, w1c 62, ro 55 48, ro 47 40, ro 15 0]

/-- TWIN page (R517 to R523); the log words TWIN_LOGi are plain read-only words. -/
def twinRegs : List (Nat × RDesc) :=
  [ (0x10, [wo 63 60 [(0, 0), (7, 15)], wo 12 12, wo 11 11, wo 4 0]),
    (0x18, [ro 63 63, ro 62 59, ro 4 0]),
    (0x20, [rw 4 4 1, rw 3 0 8 [(0, 5), (13, 15)]]),
    (0x28, [ro 63 63, ro 62 62, ro 61 61, ro 39 32, ro 31 24, ro 15 0]),
    (0x30, [ro 63 48, ro 31 0]),
    (0x38, [rw 31 0]) ]

def twinDesc (o : Nat) : Option RDesc :=
  if 0x100 ≤ o ∧ o < 0x200 ∧ o % 8 = 0 then some [ro 31 16, ro 8 8, ro 7 5, ro 4 4, ro 3 3, ro 2 2, ro 1 1, ro 0 0]
  else if 0x1000 ≤ o ∧ o < 0x1800 ∧ o % 8 = 0 then some [ro 63 0]
  else lookR twinRegs o

/-- The registers of one heap (R345 to R349), by offset from 0x0100 + 0x40·h. -/
def heapRegs : List (Nat × RDesc) :=
  [ (0x00, [rw 47 20]),
    (0x08, [rw 35 20]),
    (0x10, [rw 47 32, rw 31 16, rw 2 0 1 [(7, 7)]]),
    (0x18, [rw 35 12]),
    (0x20, [ro 31 31, rw 30 30, rw 15 14 3, ro 13 12, rw 8 8 1, rw 3 3, rw 2 0 0 [(4, 7)]]),
    (0x28, [rw 63 56 20, rw 55 48 25, rw 47 32 64, rw 19 10 512, rw 9 8 2 [(0, 0)], rw 0 0 1]),
    (0x30, [ro 63 63, ro 62 62, w1c 61, w1c 60, w1c 59, w1c 58, ro 48 32, ro 31 0]),
    (0x38, [ro 63 0]) ]

/-- GC page (R341 to R344). -/
def gcDesc (o : Nat) : Option RDesc :=
  if 0x100 ≤ o ∧ o < 0x200 then lookR heapRegs ((o - 0x100) % 0x40)
  else if o = 0x10 then some [rw 35 16]
  else if o = 0x18 then some [wo 63 62, wo 61 60, wo 59 59, wo 58 58, wo 57 54 [(8, 14)], wo 15 0]
  else if o = 0x20 then some [w1c 63, ro 15 0]
  else none

/-- CLn pages: L2 (R430 to R433), Scavenge Engine (R350 to R352) and Object Residency Cache registers. -/
def clRegs : List (Nat × RDesc) :=
  [ (0x1000, [rw 1 1, rw 0 0]),
    (0x3000, [ro 63 32, ro 31 0]),
    (0x1008, [ro 63 63, ro 62 62, w1c 61, w1c 60, ro 59 59, ro 31 0]),
    (0x1010, [rw 7 0]),
    (0x1018, [rw 47 6]),
    (0x1020, [wo 63 63, rw 51 48 0 [(8, 15)], rw 11 0]),
    (0x1028, [ro 47 6]),
    (0x4000, [rw 31 24 8, rw 1 1, rw 0 0 1]),
    (0x4008, [ro 63 63, ro 62 62, w1c 61, w1c 60, ro 47 32, ro 31 0]),
    (0x4010, [rw 35 12]),
    (0x4018, [rw 35 12]),
    (0x4020, [wo 47 3]),
    (0x4028, [wo 63 40, wo 35 3]),
    (0x4030, [ro 63 0]),
    (0x4038, [wo 47 3]),
    (0x4040, [ro 63 0]),
    (0x4048, [ro 63 0]),
    (0x4050, [ro 63 0]),
    (0x4058, [ro 63 0]) ]

def clDesc (o : Nat) : Option RDesc := lookR clRegs o

/-- STO page (R610 to R613). -/
def stoRegs : List (Nat × RDesc) :=
  [ (0x10, [rw 63 63, wo 61 61, wo 60 60, wo 59 59, rw 47 40 50, rw 39 32 4, rw 31 24, rw 7 6 1 [(3, 3)], rw 5 4 0 [(3, 3)], rw 1 0]),
    (0x18, [ro 63 63, ro 62 62, ro 61 61, ro 60 60, ro 59 58, ro 57 57, ro 56 56, ro 55 55, w1c 54, ro 51 48, ro 19 0]),
    (0x20, [rw 63 55, rw 54 28, rw 25 0]),
    (0x28, [rw 47 16]),
    (0x30, [rw 47 16]),
    (0x38, [rw 47 16]),
    (0x40, [rw 19 0]),
    (0x48, [rw 51 48 0 [(0, 0), (13, 15)], rw 47 5]),
    (0x50, [rw 11 0]),
    (0x58, [ro 11 0]),
    (0x60, [ro 25 0]),
    (0x100, [ro 63 0]),
    (0x108, [ro 63 0]),
    (0x110, [ro 63 0]),
    (0x118, [ro 63 0]) ]

/-- SYS page (R675 to R679). -/
def sysRegs : List (Nat × RDesc) :=
  [ (0x10, [ro 15 15, ro 14 11, ro 10 8, ro 2 0 1]),
    (0x18, [wo 63 60 [(0, 0), (6, 15)]]),
    (0x20, [rw 3 3, rw 2 2, rw 1 1, rw 0 0]),
    (0x28, [ro 63 63, ro 62 62, w1c 61, ro 60 60, w1c 59, w1c 58, ro 39 39, ro 38 38, ro 37 37, ro 36 36, w1c 35]),
    (0x30, [wo 63 63, rw 9 0]),
    (0x38, [ro 63 56, ro 31 0]),
    (0x40, [wo 63 63, wo 7 0]),
    (0x48, [rw 63 0]),
    (0x50, [rw 39 32 0x28, rw 31 0]) ]

def sysDesc (o : Nat) : Option RDesc :=
  if 0x100 ≤ o ∧ o < 0x140 ∧ o % 8 = 0 then some [ro 63 56, ro 18 18, ro 17 17, ro 16 16, ro 10 8, rw 2 0 0 [(5, 7)]]
  else lookR sysRegs o

/-- PWR page (R699 to R704). -/
def pwrRegs : List (Nat × RDesc) :=
  [ (0x10, [wo 63 63, rw 55 48 24, rw 39 32 10, rw 20 16, rw 13 8]),
    (0x18, [ro 63 63, ro 62 62, ro 61 61, ro 60 60, w1c 59, w1c 58, ro 57 57, ro 47 32, ro 31 0]),
    (0x20, [rw 31 0 149000]),
    (0x28, [rw 63 48 650, rw 47 32 1100, rw 31 16 1120, rw 15 0 12288]),
    (0x30, [ro 63 63, w1c 62, ro 61 61, w1c 60, ro 31 0]) ]

/-- CE page (R568, R569). -/
def ceDesc (o : Nat) : Option RDesc :=
  if o = 0x10 then some [rw 47 32 0x7264, rw 4 4, rw 3 1, rw 0 0]
  else if 0x100 ≤ o ∧ o < 0x150 ∧ o % 8 = 0 then some [ro 63 0]
  else none

/-- LDG page (R553, R570 to R572). -/
def ldgRegs : List (Nat × RDesc) :=
  [ (0x10, [rw 1 1, rw 0 0]),
    (0x18, [ro 63 63, ro 62 62, ro 61 61, ro 60 60, w1c 59, w1c 58, ro 44 32 5120, ro 17 0 131072]),
    (0x20, [rw 47 13]),
    (0x28, [rw 63 63, rw 62 62, rw 61 61, wo 60 60, rw 10 8, rw 0 0]),
    (0x30, [rw 47 26]) ]

def ldgDesc (o : Nat) : Option RDesc :=
  if 0x8000 ≤ o ∧ o < 0xA000 ∧ o % 8 = 0 then
    (if o % 0x20 = 0 then some [ro 63 63, ro 31 0] else if o % 0x20 = 0x18 then some [ro 63 63, ro 57 56, ro 47 40, ro 7 0]
     else some [wo 47 3])
  else lookR ldgRegs o

/-- SEC page (R358, R359, R442, R467, R644 to R648). -/
def secRegs : List (Nat × RDesc) :=
  [ (0x10, [ro 63 56, ro 55 48, ro 47 40, ro 33 32, ro 31 0]),
    (0x18, [ro 63 56, ro 55 55, ro 54 48, ro 47 44, ro 43 40, ro 39 28]),
    (0x20, [ro 63 63, ro 62 62, ro 61 61, ro 60 60, ro 59 59, w1c 58]),
    (0x28, [ro 63 0]),
    (0x30, [wo 63 60 [(0, 0), (6, 15)], wo 17 16, wo 14 12, wo 7 0]),
    (0x38, [ro 63 63, ro 62 59]),
    (0x40, [rw 0 0]),
    (0x48, [rw 51 48 0 [(0, 0), (9, 15)], rw 47 6, rw 0 0]),
    (0x50, [rw 51 48 0 [(0, 0), (9, 15)], rw 47 6, rw 0 0]),
    (0x58, [wo 63 60 [(0, 0), (3, 15)], wo 47 16, wo 12 0]),
    (0x60, [wo 63 0]), (0x68, [wo 63 0]), (0x70, [wo 63 0]), (0x78, [wo 63 0]),
    (0x80, [wo 63 0]),
    (0x300, [wo 63 0]), (0x308, [wo 63 0]), (0x310, [wo 63 0]), (0x318, [wo 63 0]),
    (0x320, [wo 2 0 [(7, 7)]]),
    (0xE00, [rw 47 11]),
    (0xE08, [rw 47 9]),
    (0xF00, [w1s 0]) ]

def secDesc (o : Nat) : Option RDesc :=
  if 0x1000 ≤ o ∧ o < 0x1400 ∧ o % 8 = 0 then
    (if o % 16 = 0 then some [rw 47 12] else some [rw 47 12, rw 5 5, rw 4 4, rw 1 0])
  else if 0x100 ≤ o ∧ o < 0x180 ∧ o % 8 = 0 then some [ro 63 0]
  else if 0x200 ≤ o ∧ o < 0x300 ∧ o % 8 = 0 then some [ro 63 0]
  else lookR secRegs o

/-- PCIE page (R750). -/
def pcieDesc (o : Nat) : Option RDesc :=
  if 0x100 ≤ o ∧ o < 0x400 then
    lookR [ (0x00, [rw 63 63, rw 8 8, rw 5 4 0 [(3, 3)], rw 2 0 1 [(0, 0), (5, 7)]]), (0x08, [rw 47 12]), (0x10, [rw 47 12]),
      (0x18, [ro 63 0]) ] (o % 0x100)
  else none

/-- ETH page (R750 to R752, R755). -/
def ethDesc (o : Nat) : Option RDesc :=
  if 0x100 ≤ o ∧ o < 0x500 then
    lookR [ (0x00, [rw 63 63, rw 62 62, rw 61 61, rw 60 60, rw 17 16 0 [(3, 3)], rw 13 0 1518]),
      (0x08, [rw 47 0]), (0x10, [rw 63 63, rw 31 0]), (0x18, [rw 63 63]),
      (0x20, [rw 63 63, rw 59 56 0xB [(0, 10), (15, 15)], rw 51 48 8 [(0, 3), (13, 15)], rw 47 11]),
      (0x28, [rw 63 63, rw 51 48 8 [(0, 3), (13, 15)], rw 47 5]),
      (0x30, [rw 63 63, rw 62 56, rw 47 3]), (0x38, [rw 63 0]),
      (0x40, [ro 63 0]), (0x48, [ro 63 0]), (0x50, [ro 63 0]), (0x58, [ro 63 0]), (0x60, [ro 63 0]),
      (0x68, [rw 43 32, ro 11 0]), (0x70, [rw 43 32, ro 11 0]), (0x80, [rw 63 0]), (0x88, [rw 63 0]) ] (o % 0x100)
  else none

/-- CAN page (R756 to R758). -/
def canDesc (o : Nat) : Option RDesc :=
  if 0x400 ≤ o ∧ o < 0x1400 then
    let q := o % 0x400
    if 0x200 ≤ q ∧ q % 8 = 0 then some [rw 63 63, rw 62 62, rw 60 32, rw 28 0]
    else lookR [ (0x00, [rw 63 63, rw 62 62, rw 61 61, rw 60 60, rw 59 59 1]),
      (0x08, [rw 57 48 1, rw 46 40 15, rw 38 32 15, rw 23 16 62]),
      (0x10, [rw 52 48, rw 43 40 3, rw 35 32 9, rw 20 16 28, rw 15 15 1, rw 14 8 30]),
      (0x18, [rw 63 63, rw 51 48 6 [(0, 0), (11, 15)], rw 47 7]),
      (0x20, [rw 41 32, ro 9 0]), (0x28, [ro 63 63, ro 62 62, ro 61 61, ro 15 8, ro 7 0]), (0x30, [ro 63 0]) ] q
  else none

/-- SIO page (R759 to R761). -/
def sioDesc (o : Nat) : Option RDesc :=
  if 0x100 ≤ o ∧ o < 0x500 then
    lookR [ (0x00, [rw 63 63, rw 62 62, rw 61 61, rw 60 60, rw 59 59, rw 47 40, rw 39 32, rw 9 8 0 [(3, 3)], rw 4 4, rw 1 0 3]),
      (0x08, [rw 24 0 55556]), (0x10, [ro 63 63, ro 62 62, ro 61 61, ro 60 60, rw 7 0]),
      (0x18, [ro 63 63 1, ro 38 32, ro 6 0]), (0x20, [ro 63 0]), (0x28, [ro 63 0]) ] (o % 0x100)
  else if 0x800 ≤ o ∧ o < 0xA00 then
    let q := o % 0x100
    if 0x20 ≤ q ∧ q < 0x60 ∧ q % 8 = 0 then some [rw 63 0]
    else lookR [ (0x00, [rw 63 63, rw 62 62, rw 61 61, rw 57 56 0 [(3, 3)], rw 42 42, rw 41 32]),
      (0x08, [wo 63 63, wo 62 62, wo 61 61, wo 50 50, wo 49 40, wo 6 0]),
      (0x10, [ro 63 63, w1c 62, w1c 61, w1c 60, ro 59 59, ro 6 0]) ] q
  else lookR [ (0x8000, [wo 63 63, wo 62 62, wo 61 60 [(3, 3)], wo 59 58 [(3, 3)], wo 55 48, wo 44 40, wo 12 0]),
      (0x8008, [rw 31 0]), (0x8010, [rw 47 0]), (0x8018, [ro 63 63, w1c 62, w1c 61]), (0x8020, [rw 1 0]) ] o

/-- EVR page (R738, R740); source numbers run to 0x7F. -/
def evrDesc (o : Nat) : Option RDesc :=
  if 0x1000 ≤ o ∧ o < 0x1400 ∧ o % 8 = 0 then
    some [rw 63 63, rw 62 61 1 [(0, 0)], rw 55 48, rw 45 40, rw 9 8 1 [(0, 0)], rw 7 0]
  else if 0x1400 ≤ o ∧ o < 0x1800 ∧ o % 8 = 0 then some [ro 31 0]
  else none

/-- PLS page (R743). -/
def plsDesc (o : Nat) : Option RDesc :=
  if 0x1000 ≤ o ∧ o < 0x1800 ∧ o % 8 = 0 then
    (if o % 0x20 = 0 then some [rw 63 63, w1c 62, ro 61 61, rw 9 8 1 [(0, 0)], rw 2 0 0 [(5, 7)]] else some [rw 31 0])
  else none

/-- PNL page (R778 to R781). -/
def pnlRegs : List (Nat × RDesc) :=
  [ (0x10, [wo 63 63, rw 8 8, rw 7 7, rw 4 4 1, rw 3 2 2 [(3, 3)], rw 0 0]),
    (0x18, [ro 63 63, ro 62 62, ro 61 61, w1c 60, ro 59 59, ro 58 56, ro 47 32, ro 31 0]),
    (0x20, [rw 63 56 32, rw 55 48 24, rw 47 40 16, rw 39 32 3, rw 31 28 6, rw 23 12 200, rw 11 8 10]),
    (0x28, [rw 63 52 120, rw 51 40 80, rw 39 28 40, rw 27 16 25, rw 15 4 60]),
    (0x30, [rw 51 48 4 [(0, 0), (13, 15)], rw 47 12]),
    (0x38, [rw 43 32, ro 11 0]),
    (0x200, [ro 63 0]), (0x208, [ro 63 0]), (0x210, [ro 63 0]), (0x218, [ro 63 0]) ]

def pnlDesc (o : Nat) : Option RDesc :=
  if 0x100 ≤ o ∧ o < 0x140 ∧ o % 8 = 0 then some [rw 63 63 1, rw 9 0 (200 + 30 * ((o - 0x100) / 8))]
  else if 0x300 ≤ o ∧ o < 0x350 ∧ o % 8 = 0 then some [ro 63 57, ro 47 12]
  else lookR pnlRegs o

/-- BGS page (R722 to R724). -/
def bgsRegs : List (Nat × RDesc) :=
  [ (0x10, [rw 63 56 8, rw 55 48 4, rw 47 40 10, rw 34 30 30, rw 2 2 1, rw 1 1 1, rw 0 0 1]),
    (0x18, [ro 63 63, w1c 62, ro 41 32 512, ro 31 0]),
    (0x20, [ro 63 48, ro 47 6]),
    (0x28, [ro 63 62, ro 48 0]),
    (0x30, [ro 31 0]),
    (0x38, [rw 31 0]),
    (0x40, [ro 63 0]), (0x48, [ro 63 0]), (0x50, [ro 63 0]), (0x58, [ro 63 0]) ]

/-- The register of a block page other than CLn. The DDR page holds its ID and ERR only. -/
def pageDesc (p o : Nat) : Option RDesc :=
  if p = 0x00 then sysDesc o
  else if p = 0x01 then lookR pwrRegs o
  else if p = 0x02 then twinDesc o
  else if p = 0x03 then ceDesc o
  else if p = 0x04 then ldgDesc o
  else if p = 0x05 then lookR stoRegs o
  else if p = 0x06 then gcDesc o
  else if p = 0x07 then secDesc o
  else if p = 0x09 then pcieDesc o
  else if p = 0x0A then ethDesc o
  else if p = 0x0B then canDesc o
  else if p = 0x0C then sioDesc o
  else if p = 0x0D then evrDesc o
  else if p = 0x0E then plsDesc o
  else if p = 0x0F then pnlDesc o
  else if p = 0x10 then lookR bgsRegs o
  else none

/-- The register at an offset from 0x7F00_0000_0000, if one is defined there (R44, R48). -/
def regDesc (off : Nat) : Option RDesc :=
  let p := pageOf off
  let o := inPage off
  if !pageMapped p then none
  else if o = 0 then some (idDesc p)
  else if o = 8 then some errDesc
  else if 0x20 ≤ p then clDesc o
  else pageDesc p o

/-- The value a register holds right after a device reset; undefined offsets read as zero (R44). -/
def regReset (off : Nat) : Pay := ((regDesc off).map RDesc.reset).getD 0#64

/-- The value the device register at `off` holds. -/
def State.reg (s : State) (off : Nat) : Pay := Tbl.get regReset s.dev off

/-- The machine with the device register at `off` holding `v`. -/
def State.setReg (s : State) (off : Nat) (v : Pay) : State := { s with dev := Tbl.set regReset s.dev off v }

/-- A field of a device register. -/
def State.rf (s : State) (off hi lo : Nat) : Nat := fld (s.reg off) hi lo

/-- The machine with one field of a device register changed. -/
def State.setRf (s : State) (off hi lo v : Nat) : State := s.setReg off (setFld (s.reg off) hi lo v)

/-- R50, R51: record an error of code `code` at `off` from source `src` in the block's ERR register. -/
def State.recErr (s : State) (off src code : Nat) : State :=
  let e := pageOf off * 0x10000 + 8
  let v := s.reg e
  if bit v 63 then s.setReg e (setBit v 62 true)
  else s.setReg e (setFld (setFld (setFld (setBit v 63 true) 55 48 src) 47 40 code) 15 0 (inPage off))

/-- Codes of ERR (R50). -/
abbrev errReject : Nat := 1
abbrev errWidth : Nat := 2
abbrev errUndef : Nat := 3
abbrev errStt : Nat := 4

/-- The generic effect of an accepted 64-bit write (R6), with R50's joint clearing of an ERR record. -/
def State.plainWrite (s : State) (off : Nat) (v : Pay) : State :=
  if inPage off = 8 then
    let old := s.reg off
    if bit v 63 then s.setReg off 0#64
    else s.setReg off (setBit old 62 (bit old 62 && !bit v 62))
  else
    match regDesc off with
    | none => s
    | some d => s.setReg off (d.write (s.reg off) v)

end Sys2Proof.Machine
end

