-- ==== Sys2Proof/Machine/Access.lean ====
section
/-!
DEFINITION. Reading and writing the parts of the state: contexts, cores, twins, clusters, general and special
registers, and the numbering of R11 and R476.
-/
namespace Sys2Proof.Machine

def State.ctx (s : State) (x : Nat) : Ctx := Tbl.get (fun _ => Ctx.reset) s.ctxs x
def State.setCtx (s : State) (x : Nat) (c : Ctx) : State := { s with ctxs := Tbl.set (fun _ => Ctx.reset) s.ctxs x c }
def State.updCtx (s : State) (x : Nat) (f : Ctx → Ctx) : State := s.setCtx x (f (s.ctx x))
def State.core (s : State) (k : Nat) : Core := Tbl.get (fun _ => Core.reset) s.cores k
def State.setCore (s : State) (k : Nat) (c : Core) : State := { s with cores := Tbl.set (fun _ => Core.reset) s.cores k c }
def State.updCore (s : State) (k : Nat) (f : Core → Core) : State := s.setCore k (f (s.core k))
def State.twin (s : State) (t : Nat) : Twin := Tbl.get (fun _ => Twin.reset) s.twins t
def State.setTwin (s : State) (t : Nat) (w : Twin) : State := { s with twins := Tbl.set (fun _ => Twin.reset) s.twins t w }
def State.updTwin (s : State) (t : Nat) (f : Twin → Twin) : State := s.setTwin t (f (s.twin t))
def State.cluster (s : State) (n : Nat) : Cluster := Tbl.get (fun _ => Cluster.reset) s.clusters n
def State.setCluster (s : State) (n : Nat) (c : Cluster) : State :=
  { s with clusters := Tbl.set (fun _ => Cluster.reset) s.clusters n c }
def State.updCluster (s : State) (n : Nat) (f : Cluster → Cluster) : State := s.setCluster n (f (s.cluster n))

/-- The next free value, and the machine with its counter advanced (assumption 2). -/
def State.free (s : State) : Pay × State := (Config.freeValue s.freeCount, { s with freeCount := s.freeCount + 1 })

/-- Page offsets of blocks (R40). -/
abbrev oSys : Nat := 0x000000
abbrev oPwr : Nat := 0x010000
abbrev oTwin : Nat := 0x020000
abbrev oCe : Nat := 0x030000
abbrev oLdg : Nat := 0x040000
abbrev oSto : Nat := 0x050000
abbrev oGc : Nat := 0x060000
abbrev oSec : Nat := 0x070000
abbrev oDdr : Nat := 0x080000
abbrev oPcie : Nat := 0x090000
abbrev oEth : Nat := 0x0A0000
abbrev oCan : Nat := 0x0B0000
abbrev oSio : Nat := 0x0C0000
abbrev oEvr : Nat := 0x0D0000
abbrev oPls : Nat := 0x0E0000
abbrev oPnl : Nat := 0x0F0000
abbrev oBgs : Nat := 0x100000
def oCl (n : Nat) : Nat := 0x200000 + n * 0x10000
def oHeap (h : Nat) : Nat := oGc + 0x100 + 0x40 * h

/-- The cluster of twin t, of core k (R11). -/
abbrev twinOf (x : Nat) : Nat := x / 8
abbrev clusterOfTwin (t : Nat) : Nat := t / 4
abbrev clusterOfCore (k : Nat) : Nat := k / 8

/-- The cluster is not power-gated (R479: its twins are not Off). -/
def State.clOn (s : State) (n : Nat) : Bool := (s.twin (4 * n)).mode ≠ .off

/-- A twin in one of the modes that present only its leader's contexts (R476). -/
def Twin.presents4 (w : Twin) : Bool := w.mode = .tight || w.mode = .loose || w.mode = .solo

/-- The core that executes context x: in solo mode the core that runs, else the core of R11 (R476, R482). -/
def State.coreOf (s : State) (x : Nat) : Nat :=
  let w := s.twin (twinOf x)
  if w.mode = .solo ∧ w.lf then 2 * twinOf x + 1 else x / 4

/-- The context that an event aimed at x reaches (R477). -/
def State.presented (s : State) (x : Nat) : Nat :=
  let w := s.twin (twinOf x)
  if w.presents4 ∧ x % 8 ≥ 4 then x - 4 else x

/-- The contexts that a twin presents (R476). -/
def State.presentedOf (s : State) (t : Nat) : List Nat :=
  let w := s.twin t
  if w.mode = .fenced ∨ w.mode = .off then []
  else if w.presents4 then [8 * t, 8 * t + 1, 8 * t + 2, 8 * t + 3]
  else if w.lf then [8 * t + 4, 8 * t + 5, 8 * t + 6, 8 * t + 7]
  else if w.sf then [8 * t, 8 * t + 1, 8 * t + 2, 8 * t + 3]
  else [8 * t, 8 * t + 1, 8 * t + 2, 8 * t + 3, 8 * t + 4, 8 * t + 5, 8 * t + 6, 8 * t + 7]

/-- The contexts whose state a twin holds: the presented ones, and in loose mode the shadow's own copies (R495). -/
def State.heldOf (s : State) (t : Nat) : List Nat :=
  if (s.twin t).mode = .loose then [8 * t, 8 * t + 1, 8 * t + 2, 8 * t + 3, 8 * t + 4, 8 * t + 5, 8 * t + 6, 8 * t + 7]
  else s.presentedOf t

/-- The twin is in transition or recovery (R522, MODE 6). -/
def Twin.moving (w : Twin) : Bool := w.trans.isSome || w.recov.isSome

/-- FEAT3 (R124): part, stepping, clusters, cores per cluster. -/
def feat3 : Pay := 0x7264B00808000000#64

/-! ### Special registers -/

namespace Sr
/-- Special-register numbers (R114). -/
abbrev ps : Nat := 0x000
abbrev pc : Nat := 0x001
abbrev tvb : Nat := 0x002
abbrev gtb : Nat := 0x003
abbrev tdb : Nat := 0x004
abbrev cid : Nat := 0x005
abbrev cctl : Nat := 0x006
abbrev ucs : Nat := 0x007
abbrev sp0 : Nat := 0x008
abbrev esp0 : Nat := 0x00C
abbrev winb : Nat := 0x010
abbrev asid : Nat := 0x011
abbrev txs : Nat := 0x012
abbrev rtb : Nat := 0x015
abbrev ckm : Nat := 0x016
abbrev cyc : Nat := 0x018
abbrev rpc : Nat := 0x019
abbrev ls0 : Nat := 0x020
abbrev le0 : Nat := 0x023
abbrev lc0 : Nat := 0x026
abbrev cbase : Nat := 0x030
abbrev clim : Nat := 0x031
abbrev sqb : Nat := 0x032
abbrev sql : Nat := 0x033
abbrev sqt : Nat := 0x034
abbrev feat0 : Nat := 0x040
end Sr

/-- Reset values of the per-core special registers: CKM selects G1–G15, L0–L15 and PS (R499); the rest are 0. -/
def coreSrReset (n : Nat) : Pay := if n = Sr.ckm then 0x1FFFFFFFE#64 else 0#64

def Ctx.sp (c : Ctx) (n : Nat) : Pay := Tbl.get (fun _ => 0#64) c.sr n
def Ctx.setSp (c : Ctx) (n : Nat) (v : Pay) : Ctx := { c with sr := Tbl.set (fun _ => 0#64) c.sr n v }
def Core.sp (c : Core) (n : Nat) : Pay := Tbl.get coreSrReset c.sr n
def Core.setSp (c : Core) (n : Nat) (v : Pay) : Core := { c with sr := Tbl.set coreSrReset c.sr n v }

/-- Fields of PS (R436). -/
def Ctx.ring (c : Ctx) : Nat := fld (c.sp Sr.ps) 1 0
def Ctx.te (c : Ctx) : Bool := bit (c.sp Sr.ps) 4
def Ctx.sgo (c : Ctx) : Bool := bit (c.sp Sr.ps) 5
def Ctx.ie (c : Ctx) : Bool := bit (c.sp Sr.ps) 7
def Ctx.em (c : Ctx) : Bool := bit (c.sp Sr.ps) 9
def Ctx.pc (c : Ctx) : Pay := c.sp Sr.pc
def Ctx.setPc (c : Ctx) (v : Pay) : Ctx := c.setSp Sr.pc v

/-- Fields of WINB (R242, R226). -/
def Ctx.tb (c : Ctx) : Bool := bit (c.sp Sr.winb) 31
def Ctx.home (c : Ctx) : Nat := fld (c.sp Sr.winb) 26 24
def Ctx.old (c : Ctx) : Nat := fld (c.sp Sr.winb) 22 20
def Ctx.sctx (c : Ctx) : Nat := fld (c.sp Sr.winb) 9 8
def Ctx.sbank (c : Ctx) : Nat := fld (c.sp Sr.winb) 2 0
def Ctx.nres (c : Ctx) : Nat := ((c.home + 7 - c.old) % 7) + 1
def Ctx.setTb (c : Ctx) (b : Bool) : Ctx := c.setSp Sr.winb (setBit (c.sp Sr.winb) 31 b)
def Ctx.setHome (c : Ctx) (n : Nat) : Ctx := c.setSp Sr.winb (setFld (c.sp Sr.winb) 26 24 n)
def Ctx.setOld (c : Ctx) (n : Nat) : Ctx := c.setSp Sr.winb (setFld (c.sp Sr.winb) 22 20 n)
/-- The current bank: 7 while TB = 1, else HOME (R226). -/
def Ctx.bank (c : Ctx) : Nat := if c.tb then 7 else c.home

/-! ### Contexts that run -/

/-- A context waits in WFE or WAITT (R201). -/
def Ctx.waiting (c : Ctx) : Bool := match c.run with | .wfe => true | .waitt _ _ => true | _ => false

/-- The context stands at an instruction boundary (R456): it runs, or waits in WFE or WAITT, with no instruction begun. -/
def Ctx.atBoundary (c : Ctx) : Bool :=
  (c.run = .run || c.waiting) && c.slot.isNone && !c.inflight && c.grants.isEmpty

/-- Context x has stopped for a JOIN: it stands at a boundary that R456 allows, or no instruction of it would issue (R482
step 1). -/
def Ctx.joinStop (c : Ctx) : Bool :=
  !c.started || c.halted || c.frozen || c.dead || (c.atBoundary && !c.tb && c.loads.isEmpty)

/-- A JOIN of the twin runs, in which contexts run on to their next boundary (R482). -/
def Twin.joining (w : Twin) : Bool := w.recov.isNone && (match w.trans with | some tr => tr.op = .join | none => false)

/-- The context runs on some core now: its instructions can issue when it neither waits nor is parked. -/
def State.powered (s : State) (x : Nat) : Bool :=
  let w := s.twin (twinOf x)
  let c := s.ctx x
  s.clOn (clusterOfTwin (twinOf x)) && c.started && !c.halted && !c.frozen && !c.dead && (!w.moving || (w.joining && !c.joinStop))
    && (w.mode = .tight || w.mode = .split || w.mode = .loose || w.mode = .solo)
    && (w.mode = .split || w.mode = .loose || x % 8 < 4)
    && !(w.mode = .split && (if x % 8 < 4 then w.lf else w.sf))

/-! ### General registers -/

/-- Where a register field's register is kept: globals at their number, Lr of bank b at 16 + 16·b + r (R98, R225). -/
def regKey (bank : Nat) (r : BitVec 5) : Nat := if r.toNat < 16 then r.toNat else 16 + 16 * bank + (r.toNat - 16)

/-- The register at a key; G0 reads as NIL (R98). -/
def Ctx.rdKey (c : Ctx) (k : Nat) : Word := if k = 0 then Word.nil else Tbl.get (fun _ => Word.nil) c.regs k
/-- The register at a key written; a write to G0 is discarded (R98). -/
def Ctx.wrKey (c : Ctx) (k : Nat) (w : Word) : Ctx :=
  if k = 0 then c else { c with regs := Tbl.set (fun _ => Word.nil) c.regs k w }
/-- The register a field names in the current bank. -/
def Ctx.rd (c : Ctx) (r : BitVec 5) : Word := c.rdKey (regKey c.bank r)
def Ctx.wr (c : Ctx) (r : BitVec 5) (w : Word) : Ctx := c.wrKey (regKey c.bank r) w

/-- Every register of bank b set to NIL (R229). -/
def Ctx.clearBank (c : Ctx) (b : Nat) : Ctx :=
  { c with regs := c.regs.filter (fun e => !(16 + 16 * b ≤ e.1 ∧ e.1 < 32 + 16 * b)) }

/-! ### Signatures of tight mode (R486) -/

/-- Fold one item's input words into the open window's MISR of twin t. -/
def State.sign (s : State) (t : Nat) (ws : List Pay) : State :=
  s.updTwin t (fun w => { w with misr := ws.foldl misrStep w.misr })

/-- First input word of a register write (R486): tag, register number, bank, context. -/
def signReg (x reg bank : Nat) (v : Word) : List Pay :=
  [ atFld 63 56 v.tag.toNat ||| atFld 47 32 reg ||| atFld 31 29 bank ||| atFld 28 27 (x % 4), v.pay ]

/-- Width code of R486: byte, two bytes, four bytes, word, line. -/
def widthCode (w : Nat) : Nat := if w = 1 then 0 else if w = 2 then 1 else if w = 4 then 2 else if w = 64 then 4 else 3

/-- Input words of a store and of a load (R486). -/
def signStore (pa width : Nat) (v : Word) : List Pay :=
  [ atFld 63 56 v.tag.toNat ||| atFld 55 52 (widthCode width) ||| atFld 47 0 pa, v.pay ]
def signLoad (pa width : Nat) : List Pay := [ atFld 55 52 (widthCode width) ||| atFld 51 51 1 ||| atFld 47 0 pa ]

/-- Context x runs in a tight twin. -/
def State.isTight (s : State) (x : Nat) : Bool := (s.twin (twinOf x)).mode = .tight
def State.isLoose (s : State) (x : Nat) : Bool := (s.twin (twinOf x)).mode = .loose

/-- Write the register named by a field of context x, signed in tight mode (R486). -/
def State.wrReg (s : State) (x : Nat) (r : BitVec 5) (w : Word) : State :=
  let bank := (s.ctx x).bank
  let s1 := s.updCtx x (fun c => c.wrKey (regKey bank r) w)
  if s.isTight x ∧ r ≠ 0 then s1.sign (twinOf x) (signReg x r.toNat bank w) else s1

/-- Write a register by key (bank given), signed in tight mode: pending loads as they land, window fills. -/
def State.wrRegBank (s : State) (x : Nat) (r : BitVec 5) (bank : Nat) (w : Word) : State :=
  let s1 := s.updCtx x (fun c => c.wrKey (regKey bank r) w)
  if s.isTight x ∧ r ≠ 0 then s1.sign (twinOf x) (signReg x r.toNat bank w) else s1

/-- Write a per-context special register by number, signed as MTS in tight mode (R486). -/
def State.wrSpec (s : State) (x n : Nat) (v : Pay) : State :=
  let s1 := s.updCtx x (fun c => c.setSp n v)
  if s.isTight x then s1.sign (twinOf x) (signReg x (0x1000 + n) 0 (Word.raw v)) else s1

end Sys2Proof.Machine
end

