-- ==== Sys2Proof/Machine/Mesh.lean ====
section
/-!
DEFINITION. The physical address space (R36 to R39, R46), and the fabric between sources and targets: message queues with
their credits (R16 to R18, R31), and the Transaction Table (R21 to R24).
-/
namespace Sys2Proof.Machine

/-! ### Ranges -/

/-- The ranges of R36. -/
inductive Region where
  | dram | pcie (c : Nat) | keep | staging | jnv | dev (off : Nat) | rom | unmapped
  deriving DecidableEq, Repr

/-- A memory range that can be written, whose words a store meets at step 7 of R159. -/
def Region.isRam : Region → Bool
  | .dram | .keep | .staging | .jnv => true
  | _ => false

/-- Fitted DRAM in bytes: 8 GiB shifted by the strap code (R37, R806). -/
def State.dramSize (s : State) : Nat := 0x200000000 * 2 ^ s.dcfg.toNat

/-- Where the device registers start (R40). -/
abbrev devBase : Nat := 0x7F0000000000

/-- The range of a physical address (R36, R37). -/
def State.region (s : State) (pa : Nat) : Region :=
  if pa < 0x1000000000 then (if pa < s.dramSize then .dram else .unmapped)
  else if 0x400000000000 ≤ pa ∧ pa < 0x4C0000000000 then .pcie ((pa - 0x400000000000) / 0x40000000000)
  else if 0x7E0000000000 ≤ pa ∧ pa < 0x7E0000400000 then .keep
  else if 0x7E0000400000 ≤ pa ∧ pa < 0x7E0000600000 then .staging
  else if 0x7E0010000000 ≤ pa ∧ pa < 0x7E0014000000 then .jnv
  else if devBase ≤ pa ∧ pa < 0x7F0001000000 then
    (if pageMapped (pageOf (pa - devBase)) then .dev (pa - devBase) else .unmapped)
  else if 0x7FFFFFF00000 ≤ pa ∧ pa < 0x7FFFFFF10000 then .rom
  else .unmapped

/-- Keep SRAM starts here; copy B lies 2^48 higher in the model's own numbering (R38). -/
abbrev keepBase : Nat := 0x7E0000000000
abbrev copyB : Nat := 0x1000000000000

/-- R39: source code `src` reaches Keep SRAM (cores 0 to 3 only). -/
def keepSource (src : Nat) : Bool := src < 4

/-- The memory key an access of source `src` at `pa` reaches: odd Keeper cores reach copy B of Keep SRAM (R38). -/
def State.key (s : State) (src pa : Nat) : Nat :=
  if s.region pa = .keep ∧ src < 4 ∧ src % 2 = 1 then pa + copyB else pa

/-! ### The Transaction Table -/

/-- The holder of R21 that source code `src` belongs to: a cluster by its number, or the source code itself. -/
def holderOf (src : Nat) : Nat := if src < 64 then src / 8 else if 0x48 ≤ src ∧ src ≤ 0x4F then src - 0x48 else src

/-- Reserved entries and most pool entries of a holder (R21). -/
def reservedOf (h : Nat) : Nat :=
  if h < 8 then 512 else if h = 0x40 then 1024 else if h = 0x43 then 512 else if h = 0x41 then 256
  else if h = 0x42 then 256 else if h = 0x46 then 128 else if h = 0x44 then 64 else if h = 0x45 then 64
  else if h = 0x47 then 64 else if h = 0x50 then 16 else 0
def poolMostOf (h : Nat) : Nat :=
  if h < 8 then 512 else if h = 0x40 then 512 else if h = 0x43 then 512 else if h = 0x41 then 256
  else if h = 0x42 then 256 else if h = 0x44 then 64 else if h = 0x45 then 64 else if h = 0x47 then 64 else 0
abbrev poolSize : Nat := 1712

/-- The transaction is in the table. -/
def Txn.inTable (t : Txn) : Bool := t.st = .reserved || t.st = .pool

/-- Entries that a holder holds in one state. -/
def State.entries (s : State) (h : Nat) (st : TxnSt) : Nat := s.txns.countP (fun t => holderOf t.src = h && t.st = st)

/-- The entry a request of a holder may take now (R22, R23). -/
def State.entryFor (s : State) (h : Nat) : TxnSt :=
  if s.entries h .reserved < reservedOf h then .reserved
  else if s.entries h .pool < poolMostOf h ∧ s.txns.countP (fun t => t.st = .pool) < poolSize then .pool
  else .waiting

/-- The entry that a new request of a holder takes: behind the holder's own waiting requests, and to the shared pool behind
everybody's (R22 to R24). -/
def State.newEntry (s : State) (h : Nat) : TxnSt :=
  if s.entries h .waiting ≠ 0 then .waiting
  else match s.entryFor h with
    | .pool => if s.txns.any (fun t => t.st = .waiting) then .waiting else .pool
    | e => e

/-- Transaction `id` takes the entry `st`; its 50 ms begin as it enters the table (R25). -/
def State.enter (s : State) (id : Nat) (st : TxnSt) : State :=
  { s with txns := s.txns.map (fun u => if u.id = id then { u with st := st, time := s.time } else u) }

/-! ### Message queues -/

/-- Key of a message queue: class, sender's mesh attachment and target (R16). -/
def creditKey (cls src tgt : Nat) : Nat := (cls * 256 + src) * 256 + tgt

/-- The flits that a queue of a mesh attachment holds (R31; assumption 6). -/
abbrev queueDepth : Nat := 16

/-- The unit that a physical address belongs to, as a target of messages. DESIGN CHOICE (assumption 81): the two DDR5
controllers take lines in turn by pa[6], and Keep SRAM, Staging SRAM, JNV and the Boot ROM are one target; the spec states
neither. -/
def State.targetOf (s : State) (pa : Nat) : Nat :=
  match s.region pa with
  | .dev off => if 0x20 ≤ pageOf off then pageOf off else 0x80 + pageOf off
  | .pcie c => 0x60 + c
  | .dram => 0x70 + pa / 64 % 2
  | _ => 0x78

/-- Flits of a request and of its response (R15): a line travels as a header flit and two data flits. -/
def reqFlits (kind : TxnKind) (width : Nat) : Nat := if kind = .evict ∨ (kind = .store ∧ width = 64) then 3 else 1
def rspFlits (kind : TxnKind) : Nat := if kind = .line ∨ kind = .fetch then 3 else 1

/-- What a queue holds. -/
def State.queue (s : State) (key : Nat) : List Nat := Tbl.get (fun _ => []) s.queues key

/-- Flits that all entries a holder may hold can need for their responses: its response queue has room for them
(R17; assumption 6). -/
def rspDepth (h : Nat) : Nat := 3 * (reservedOf h + poolMostOf h)

/-- Response credits that a holder has reserved: for every request it has sent (R17). -/
def State.rspUse (s : State) (h : Nat) : Nat :=
  ((s.txns.filter (fun t => holderOf t.src = h && t.st ≠ .held)).map (fun t => rspFlits t.kind)).sum

/-- A request of `src` finds room: credits of its queue to the target, behind no request held for them, and response credits
(R16, R17). -/
def State.hasCredit (s : State) (src tgt : Nat) (kind : TxnKind) (width : Nat) : Bool :=
  let h := holderOf src
  decide ((s.queue (creditKey 0 h tgt)).sum + reqFlits kind width ≤ queueDepth)
    && decide (s.rspUse h + rspFlits kind ≤ rspDepth h)
    && !s.txns.any (fun t => t.st = .held && holderOf t.src = h && t.tgt = tgt)

/-- A request of `src` to `pa` can be sent and enter the table now (R16, R17, R22, R23). -/
def State.canSend (s : State) (src pa : Nat) (kind : TxnKind) (width : Nat) : Bool :=
  s.hasCredit src (s.targetOf pa) kind width && s.newEntry (holderOf src) ≠ .waiting

/-- A message of `n` flits joins a queue. -/
def State.enqueue (s : State) (key n : Nat) : State :=
  { s with queues := Tbl.set (fun _ => []) s.queues key (s.queue key ++ [n]) }

/-- Send a request (R16, R17, R22): held at its source for credits, waiting for a table entry, or in the table. -/
def State.sendReq (s : State) (src x pa width : Nat) (kind : TxnKind) (out : Option Out) : Nat × State :=
  let tgt := s.targetOf pa
  let id := s.nextTxn
  let ok := s.hasCredit src tgt kind width
  let st := if ok then s.newEntry (holderOf src) else .held
  let s1 := if ok then s.enqueue (creditKey 0 (holderOf src) tgt) (reqFlits kind width) else s
  (id, { s1 with nextTxn := id + 1, txns := s1.txns ++ [⟨id, src, tgt, x, pa, width, kind, out, st, s.time, false⟩] })

/-- An engine's or block's request goes out and is answered within its own event: it needs an entry of its holder that is
free (R22, R23). -/
def State.fabricFree (s : State) (src : Nat) : Bool := s.newEntry (holderOf src) ≠ .waiting

/-! ### Registers of the caches' own queues -/

/-- Misses of core k that hold one of its 8 miss registers (R394). -/
def State.l1Misses (s : State) (k : Nat) : Nat := s.txns.countP (fun t => t.src = k && (t.kind = .line || t.kind = .fetch))

/-- Misses that hold one of the 64 miss registers of cluster n's L2 (R395). -/
def State.l2Misses (s : State) (n : Nat) : Nat :=
  s.txns.countP (fun t => holderOf t.src = n && (t.kind = .line || t.kind = .fetch))

/-- A further miss of core k finds a register in the L1 and in the L2: two of the core's eight are kept for fetches, and a
core holds at most 12 of the L2's 64 (R394, R395). -/
def State.missRoom (s : State) (k : Nat) (fetch : Bool) : Bool :=
  decide (s.l1Misses k < (if fetch then 8 else 6)) && decide (s.l2Misses (clusterOfCore k) < 64) && decide (s.l1Misses k < 12)

/-- The miss of core k that a later miss to the same line merges into (R394). -/
def State.missOf (s : State) (k pa : Nat) : Option Nat :=
  (s.txns.find? (fun t => t.src = k && (t.kind = .line || t.kind = .fetch) && t.pa / 64 = pa / 64)).map (·.id)

/-- Registers are free for a prefetch of core k: three in the L1, sixteen in the L2 (R400). -/
def State.prefetchRoom (s : State) (k : Nat) : Bool :=
  decide (s.l1Misses k + 3 ≤ 8) && decide (s.l2Misses (clusterOfCore k) + 16 ≤ 64)

/-- A store of context x finds an entry in the store buffer of core k: 16 of the core, 8 of the context (R397). -/
def State.storeRoom (s : State) (k x : Nat) : Bool :=
  decide (s.txns.countP (fun t => t.src = k && t.kind = .store) < 16)
    && decide (s.txns.countP (fun t => t.x = x && t.kind = .store) < 8)

/-- The eviction of a line that stands in the eviction buffer of some cluster (R396). -/
def State.evicting (s : State) (line : Nat) : Option Txn := s.txns.find? (fun t => t.kind = .evict && t.pa = 64 * line)

/-- The L2 of cluster n has room in its eviction buffer (R396). -/
def State.evictRoom (s : State) (n : Nat) : Bool :=
  decide (s.txns.countP (fun t => t.kind = .evict && holderOf t.src = n) < 16)

/-- A line's eviction leaves the buffer without being written. -/
def State.cancelEvict (s : State) (line : Nat) : State :=
  { s with txns := s.txns.filter (fun t => !(t.kind = .evict && t.pa = 64 * line)) }

end Sys2Proof.Machine
end

