-- ==== Sys2Proof/Machine/Phys.lean ====
section
/-!
DEFINITION. Memory words with their tags (R52 to R54, R86), the Physical Region Table (R355 to R357), and the caches: which
lines they hold, which are dirty, poisoned or locked, and what memory itself still holds of dirty lines (R388 to R421).
-/
namespace Sys2Proof.Machine

/-! ### Memory words -/

/-- A byte of memory; unlisted bytes read as 0 (assumption 1). -/
def State.byte (s : State) (k : Nat) : BitVec 8 := Tbl.get (fun _ => 0#8) s.mem k
def State.setByte (s : State) (k : Nat) (v : BitVec 8) : State := { s with mem := Tbl.set (fun _ => 0#8) s.mem k v }
/-- The tag of the memory word with key k (a multiple of 8); unlisted words are RAW (assumption 1). -/
def State.tagAt (s : State) (k : Nat) : BitVec 8 := Tbl.get (fun _ => Tag.raw) s.tags (k / 8)
def State.setTagAt (s : State) (k : Nat) (t : BitVec 8) : State :=
  { s with tags := Tbl.set (fun _ => Tag.raw) s.tags (k / 8) t }

/-- The payload of the aligned word at key k: byte b is bits [8b+7:8b] (R54). -/
def State.payAt (s : State) (k : Nat) : Pay :=
  p64 (leNat [s.byte k, s.byte (k+1), s.byte (k+2), s.byte (k+3), s.byte (k+4), s.byte (k+5), s.byte (k+6), s.byte (k+7)])

/-- The word at an aligned key. -/
def State.word (s : State) (k : Nat) : Word := ⟨s.tagAt (k / 8 * 8), s.payAt (k / 8 * 8)⟩

/-- The bytes of a payload written from key k up. -/
def State.setPay (s : State) (k : Nat) (p : Pay) : State :=
  forN 8 0 (fun b s => s.setByte (k + b) (byteOf p b)) s

/-- The word at an aligned key written. -/
def State.setWord (s : State) (k : Nat) (w : Word) : State := (s.setPay (k / 8 * 8) w.pay).setTagAt (k / 8 * 8) w.tag

/-- A run of words from key k up. -/
def State.words (s : State) (k : Nat) : Nat → List Word
  | 0 => []
  | n + 1 => s.word k :: s.words (k + 8) n

/-- A list of words written from key k up, one after the other. -/
def setWordsFrom : List Word → Nat → State → State
  | [], _, s => s
  | w :: ws, k, s => setWordsFrom ws (k + 8) (s.setWord k w)

/-- A list of words written from key k up. -/
def State.setWords (s : State) (k : Nat) (ws : List Word) : State := setWordsFrom ws k s

/-- A run of payload bytes from key k up. -/
def State.bytes (s : State) (k : Nat) : Nat → List (BitVec 8)
  | 0 => []
  | n + 1 => s.byte k :: s.bytes (k + 1) n

/-- Bytes written by the IO Hub: every word it touches becomes RAW (R89). -/
def State.setBytesRaw (s : State) (k : Nat) : List (BitVec 8) → State
  | [] => s
  | b :: bs => ((s.setByte k b).setTagAt k Tag.raw).setBytesRaw (k + 1) bs

/-! ### The Physical Region Table -/

/-- SEC_PRTn_BASE and SEC_PRTn_ATTR (R358). -/
def State.prtBase (s : State) (n : Nat) : Pay := s.reg (oSec + 0x1000 + 0x10 * n)
def State.prtAttr (s : State) (n : Nat) : Pay := s.reg (oSec + 0x1008 + 0x10 * n)

/-- Entry n governs the 4 KiB page of pa (R355, R358). -/
def State.prtHits (s : State) (pa n : Nat) : Bool :=
  let a := s.prtAttr n
  bit a 5 && decide (fld (s.prtBase n) 47 12 ≤ pa / 4096) && decide (pa / 4096 ≤ fld a 47 12)

/-- Default ceiling and side-effect flag of a range, and its fixed attributes (R357). -/
structure PrtAttr where
  ceil : Nat
  se : Bool
  deriving DecidableEq, Repr

/-- The attributes that govern physical address pa (R355, R357): DRAM above the fitted size is in the DRAM range still. -/
def State.prt (s : State) (pa : Nat) : PrtAttr :=
  let r := if pa < 0x1000000000 then .dram else s.region pa
  let dflt : PrtAttr :=
    match r with
    | .dram | .keep | .staging => ⟨0, false⟩
    | .unmapped => ⟨3, false⟩
    | _ => ⟨0, true⟩
  let g : PrtAttr :=
    match firstN 64 0 (fun n => s.prtHits pa n) with
    | some n => ⟨fld (s.prtAttr n) 1 0, bit (s.prtAttr n) 4⟩
    | none => dflt
  match r with
  | .pcie _ => ⟨g.ceil, true⟩
  | .keep => ⟨0, g.se⟩
  | .rom => ⟨0, true⟩
  | .dev off =>
    if pageOf off = 0x02 ∨ pageOf off = 0x07 ∨ (pageOf off = 0x0C ∧ 0x8000 ≤ inPage off ∧ inPage off ≤ 0x8FFF)
    then ⟨0, true⟩ else ⟨g.ceil, true⟩
  | .unmapped => dflt
  | _ => g

/-- R356: the PRT permits an access at ring r. -/
def State.prtOk (s : State) (ring pa : Nat) : Bool := decide (ring ≤ (s.prt pa).ceil)

/-! ### Caches -/

/-- A read of one key of a list keyed by numbers. -/
def State.l1dAt (s : State) (k line : Nat) : Option L1Line := Tbl.look (s.core k).l1d line
def State.l2At (s : State) (n line : Nat) : Option L2Line := Tbl.look (s.cluster n).l2 line

/-- The 16-bit LFSR of R398, stepped once: taps of x¹⁶ + x¹⁴ + x¹³ + x¹¹ + 1 (form: assumption 5). -/
def lfsr16 (v : Nat) : Nat :=
  let b := (v ^^^ (v >>> 2) ^^^ (v >>> 3) ^^^ (v >>> 5)) % 2
  (v >>> 1) ||| (b <<< 15)

/-- What memory itself holds of a line is set aside when a cache makes the line dirty. -/
def State.saveBacking (s : State) (line : Nat) : State :=
  match Tbl.look s.backing line with
  | some _ => s
  | none => { s with backing := Tbl.insert s.backing line (s.words (line * 64) 8) }

/-- The line is written to memory: nothing is set aside any more. -/
def State.writeBack (s : State) (line : Nat) : State := { (s.cancelEvict line) with backing := Tbl.erase s.backing line }

/-- The dirty contents of a line are discarded: the words that memory held return. -/
def State.discard (s : State) (line : Nat) : State :=
  match Tbl.look s.backing line with
  | some ws => { ((s.cancelEvict line).setWords (line * 64) ws) with backing := Tbl.erase s.backing line }
  | none => s

/-- A dirty line leaves cluster n's L2: it is written to memory at once where its request can go out, and else stands in
the eviction buffer, with the cluster's first core as its source (R15, R396; assumption 82). -/
def State.evictLine (s : State) (n line : Nat) : State :=
  if s.canSend (8 * n) (64 * line) .evict 64 then s.writeBack line else (s.sendReq (8 * n) (32 * n) (64 * line) 64 .evict none).2

/-- A Keep SRAM line, of either copy. -/
def isKeepLine (line : Nat) : Bool :=
  let a := line * 64
  (decide (keepBase ≤ a) && decide (a < keepBase + 0x400000))
    || (decide (keepBase + copyB ≤ a) && decide (a < keepBase + copyB + 0x400000))

/-- Remove a line from the L1D of core k: a dirty copy merges into the L2 line of its cluster, or, for Keep SRAM,
is written straight back (R391, R396). -/
def State.l1dDrop (s : State) (k line : Nat) : State :=
  match s.l1dAt k line with
  | none => s
  | some l =>
    let s1 := s.updCore k (fun c => { c with l1d := Tbl.erase c.l1d line })
    if !l.dirty then s1
    else
      match s1.l2At (clusterOfCore k) line with
      | some m => s1.updCluster (clusterOfCore k) (fun c => { c with l2 := Tbl.insert c.l2 line { m with dirty := true } })
      | none => s1.writeBack line

/-- The cores of cluster n that hold anything. -/
def State.coresOf (s : State) (n : Nat) : List Nat := (s.cores.map (·.1)).filter (fun k => clusterOfCore k = n)

/-- Remove a line from every L1D of cluster n (R391). -/
def State.l1dDropAll (s : State) (n line : Nat) : State := (s.coresOf n).foldl (fun s k => s.l1dDrop k line) s

/-- Remove a line from every L1I of cluster n; in a locked way it becomes invalid-locked (R391, R409). -/
def Core.l1iDrop (c : Core) (line : Nat) : Core :=
  match Tbl.look c.l1i line with
  | none => c
  | some w =>
    let c1 := { c with l1i := Tbl.erase c.l1i line }
    if bit (c.sp Sr.cctl) (4 + w) ∧ w < 2 then { c1 with l1iLk := Tbl.insert c1.l1iLk line w } else c1

def State.l1iDropAll (s : State) (n line : Nat) : State :=
  (s.coresOf n).foldl (fun s k => s.updCore k (fun c => c.l1iDrop line)) s

/-- Way w of cluster n's L2 is locked (R415). -/
def State.l2Locked (s : State) (n w : Nat) : Bool := w < 8 && bit (s.reg (oCl n + 0x1010)) w

/-- Cluster n's L2 loses a line: L1 copies go first, dirty contents are written to memory, and in a locked way the
line becomes invalid-locked (R391, R409). -/
def State.l2Drop (s : State) (n line : Nat) (toMemory : Bool) : State :=
  let s1 := (s.l1dDropAll n line).l1iDropAll n line
  match s1.l2At n line with
  | none => s1
  | some m =>
    let s2 := s1.updCluster n (fun c => { c with l2 := Tbl.erase c.l2 line })
    let s3 := if m.dirty ∧ toMemory then s2.evictLine n line else s2
    if s.l2Locked n m.way then s3.updCluster n (fun c => { c with l2Lk := Tbl.insert c.l2Lk line m.way }) else s3

/-- The ways of set `set` that lines of the list occupy. -/
def waysUsed (sets set : Nat) (t : List (Nat × Nat)) : List Nat :=
  (t.filter (fun e => e.1 % sets = set)).map (·.2)

/-- R398: the way a fill takes: lowest invalid unlocked way, else from the LFSR upward past locked or poisoned ways;
none when every way is locked or poisoned (R399). -/
def fillWay (ways lfsr : Nat) (used : List Nat) (barred : Nat → Bool) : Option Nat :=
  match firstN ways 0 (fun w => !used.contains w && !barred w) with
  | some w => some w
  | none => (firstN ways 0 (fun i => !barred ((lfsr + i) % ways))).map (fun i => (lfsr + i) % ways)

/-- The occupant of a way of a set. -/
def occupant (sets set way : Nat) (t : List (Nat × Nat)) : Option Nat :=
  (t.find? (fun e => e.1 % sets = set && e.2 = way)).map (·.1)

/-- L2 lines as (line, way). -/
def Cluster.lineWays (c : Cluster) : List (Nat × Nat) := c.l2.map (fun e => (e.1, e.2.way))

/-- Way w of a set holds a line that is poisoned, or a tag entry that cannot be read (R398, R403). -/
def Cluster.badWay (c : Cluster) (set w : Nat) : Bool :=
  c.l2.any (fun e => e.1 % 4096 = set && e.2.way = w && e.2.poison) || c.tagBad.contains (set, w)

/-- The L2 way a fill of `line` takes: the way it was locked in (R409), else R398. -/
def State.l2Way (s : State) (n line : Nat) : Option Nat :=
  let c := s.cluster n
  match Tbl.look c.l2Lk line with
  | some w => some w
  | none =>
    let set := line % 4096
    let used := waysUsed 4096 set c.lineWays ++ waysUsed 4096 set c.l2Lk
    fillWay 16 (c.lfsr % 16) used (fun w => s.l2Locked n w || c.badWay set w)

/-- The line that a fill of `line` into cluster n's L2 drives out. -/
def State.l2Victim (s : State) (n line : Nat) : Option Nat :=
  if isKeepLine line ∨ (s.l2At n line).isSome then none
  else
    match s.l2Way n line with
    | none => none
    | some w => (occupant 4096 (line % 4096) w (s.cluster n).lineWays).filter (· ≠ line)

/-- CLn_L2_STAT.SWEEP: the L2 of cluster n is being swept (R420). -/
def State.l2Sweeping (s : State) (n : Nat) : Bool := bit (s.reg (oCl n + 0x1008)) 63

/-- L2 of cluster n enabled (R421, R431). -/
def State.l2En (s : State) (n : Nat) : Bool := bit (s.reg (oCl n + 0x1000)) 0

/-- Fill `line` into cluster n's L2 (R398); no change when it is there, disabled, or every way is barred. -/
def State.l2Fill (s : State) (n line : Nat) : State :=
  if isKeepLine line ∨ !s.l2En n then s
  else
    match s.l2At n line with
    | some _ => s
    | none =>
      match s.l2Way n line with
      | none => s
      | some w =>
        let s1 := match s.l2Victim n line with | some old => s.l2Drop n old true | none => s
        -- a line that still stands in the cluster's eviction buffer, not yet issued, comes back dirty (R396)
        let back := s1.txns.any (fun t => t.kind = .evict && t.pa = 64 * line && holderOf t.src = n && !t.inTable)
        (if back then s1.cancelEvict line else s1).updCluster n (fun c =>
          { c with l2 := Tbl.insert c.l2 line ⟨w, back, false⟩, l2Lk := Tbl.erase c.l2Lk line, lfsr := lfsr16 c.lfsr })

/-- L1D of core k enabled (R418, R421). -/
def State.l1dEn (s : State) (k : Nat) : Bool := bit ((s.core k).sp Sr.cctl) 0 && s.l2En (clusterOfCore k)

/-- The way that a fill of `line` into core k's L1D takes (R398), and the line it drives out. -/
def State.l1dWay (s : State) (k line : Nat) : Option Nat :=
  fillWay 4 ((s.core k).lfsrD % 4) (waysUsed 128 (line % 128) ((s.core k).l1d.map (fun e => (e.1, e.2.way)))) (fun _ => false)
def State.l1dVictim (s : State) (k line : Nat) : Option Nat :=
  if (s.l1dAt k line).isSome then none
  else (s.l1dWay k line).bind (fun w => occupant 128 (line % 128) w ((s.core k).l1d.map (fun e => (e.1, e.2.way))))

/-- Fill `line` into core k's L1D after the L2 (R391, R398). -/
def State.l1dFill (s : State) (k line : Nat) : State :=
  let s0 := s.l2Fill (clusterOfCore k) line
  if !s0.l1dEn k then s0
  else if !isKeepLine line && (s0.l2At (clusterOfCore k) line).isNone then s0
  else
    match s0.l1dAt k line with
    | some _ => s0
    | none =>
      match s0.l1dWay k line with
      | none => s0
      | some w =>
        let s1 := match s0.l1dVictim k line with | some old => s0.l1dDrop k old | none => s0
        s1.updCore k (fun c => { c with l1d := Tbl.insert c.l1d line ⟨w, false, 0⟩, lfsrD := lfsr16 c.lfsrD })

/-- Fill `line` into core k's L1I on a fetch (R391, R398, R414): a Keep SRAM line is held in no L1I. -/
def State.l1iFill (s : State) (k line : Nat) : State :=
  let cctl := (s.core k).sp Sr.cctl
  let s0 := s.l2Fill (clusterOfCore k) line
  if !bit cctl 1 ∨ !s0.l2En (clusterOfCore k) ∨ isKeepLine line then s0
  else if (s0.l2At (clusterOfCore k) line).isNone then s0
  else
    let c := s0.core k
    match Tbl.look c.l1i line with
    | some _ => s0
    | none =>
      let way := match Tbl.look c.l1iLk line with
        | some w => some w
        | none => if bit cctl 7 then some (fld cctl 6 6) else
            fillWay 4 (c.lfsrI % 4) (waysUsed 128 (line % 128) c.l1i ++ waysUsed 128 (line % 128) c.l1iLk)
              (fun w => w < 2 && bit cctl (4 + w))
      match way with
      | none => s0
      | some w =>
        let s1 := match occupant 128 (line % 128) w c.l1i with
          | some old => s0.updCore k (fun c => { c with l1i := Tbl.erase c.l1i old })
          | none => s0
        s1.updCore k (fun c => { c with l1i := Tbl.insert c.l1i line w, l1iLk := Tbl.erase c.l1iLk line, lfsrI := lfsr16 c.lfsrI })

/-- Clusters that hold anything. -/
def State.clusterList (s : State) : List Nat := s.clusters.map (·.1)

/-- Some L2 of the device holds the line poisoned, or holds a tag entry that cannot be read and could name it (R403,
R404). -/
def State.poisoned (s : State) (line : Nat) : Bool :=
  s.clusters.any (fun e => match Tbl.look e.2.l2 line with
    | some m => m.poison
    | none => e.2.tagBad.any (fun b => b.1 = line % 4096))

/-- A read by cluster n (or by another source, `none`): a dirty copy elsewhere is supplied and written back clean; a poisoned
line stays as it is (R392, R404, R434). -/
def State.cohRead (s : State) (n : Option Nat) (line : Nat) : State :=
  (s.clusterList.filter (fun m => some m ≠ n)).foldl (fun s m =>
    match s.l2At m line with
    | none => s
    | some l => if l.poison then s else
      let s1 := s.l1dDropAll m line
      match s1.l2At m line with
      | some l1 => if l1.dirty then (s1.updCluster m (fun c => { c with l2 := Tbl.insert c.l2 line { l with dirty := false } })).writeBack line else s1
      | none => s1) s

/-- A write by core k, by cluster n only, or by another source: every other cached copy except L1I copies becomes
invalid; a dirty copy, in a cache or an eviction buffer, that goes elsewhere than memory keeps its contents for the new
owner (R392, R396). -/
def State.cohWrite (s : State) (k : Option Nat) (n : Option Nat) (line : Nat) : State :=
  let s1 := (s.cores.map (·.1)).foldl (fun s j => if some j = k then s else s.l1dDrop j line) s
  (s1.clusterList.filter (fun m => some m ≠ n)).foldl (fun s m =>
    match s.l2At m line with
    | none => s
    | some l => if l.poison then s else
      let s2 := s.updCluster m (fun c => { c with l2 := Tbl.erase c.l2 line })
      let s3 := if s2.l2Locked m l.way then s2.updCluster m (fun c => { c with l2Lk := Tbl.insert c.l2Lk line l.way }) else s2
      if l.dirty ∧ n = none then s3.writeBack line else s3)
    (match s1.evicting line with
      | some _ => if n = none then s1.writeBack line else s1.cancelEvict line
      | none => s1)

/-- The line is dirty in some cache. -/
def State.lineDirty (s : State) (line : Nat) : Bool := (Tbl.look s.backing line).isSome

/-- A write of one word by an engine or an uncached access: all copies leave the caches, then memory is written
(R392). -/
def State.extWrite (s : State) (k : Nat) (w : Word) : State := (s.cohWrite none none (k / 64)).setWord k w

/-- A read of one word by an engine or an uncached access (R392). -/
def State.extRead (s : State) (k : Nat) : Word × State := let s1 := s.cohRead none (k / 64); (s1.word k, s1)

/-- A cached read by core k of the line of key `key`. -/
def State.cacheRead (s : State) (k key : Nat) : State :=
  let line := key / 64
  if (s.l1dAt k line).isSome then s else (s.cohRead (some (clusterOfCore k)) line).l1dFill k line

/-- A cached write by core k of one word at `key`, by context x: ownership, fill, dirty marking (R388, R392, R402),
and the write-back of confirmed contents before a store makes a dirty line provisional (R490). -/
def State.cacheWrite (s : State) (k key x : Nat) (w : Word) (prov : Bool) : State :=
  let line := key / 64
  let n := clusterOfCore k
  let s1 := (s.cohWrite (some k) (some n) line).l1dFill k line
  let s2 := s1.saveBacking line
  let s3 :=
    match s2.l1dAt k line with
    | some l =>
      let s2a :=
        if prov ∧ l.dirty then
          match s2.l2At n line with
          | some m => s2.updCluster n (fun c => { c with l2 := Tbl.insert c.l2 line { m with dirty := true } })
          | none => if isKeepLine line then (s2.writeBack line).saveBacking line else s2
        else s2
      s2a.updCore k (fun c => { c with l1d := Tbl.insert c.l1d line { l with dirty := true, writer := x } })
    | none =>
      match s2.l2At n line with
      | some m => s2.updCluster n (fun c => { c with l2 := Tbl.insert c.l2 line { m with dirty := true } })
      | none => s2.writeBack line
  s3.setWord key w

/-! ### Prefetch (R400) -/

/-- Line q may be prefetched after line p: the same 4 KiB page, no side-effect range, not poisoned. -/
def State.prefetchable (s : State) (p q : Nat) : Bool :=
  decide (p / 64 = q / 64) && s.region (64 * q) ≠ .unmapped && !(s.prt (64 * q)).se && !s.poisoned q && !isKeepLine q

/-- The line that the L2's stride detector asks for after a demand miss: the one a stride of up to four lines further, when
the last two misses of the cluster stand that stride apart too (assumption 80). -/
def Cluster.stride (c : Cluster) (line : Nat) : Option Nat :=
  match c.misses with
  | [p, q] =>
    let d : Int := (line : Int) - (p : Int)
    if d = (p : Int) - (q : Int) ∧ d ≠ 0 ∧ d.natAbs ≤ 4 ∧ 0 ≤ (line : Int) + d then some (((line : Int) + d).toNat) else none
  | _ => none

/-- The L2 of cluster n notes a demand miss. -/
def State.noteMiss (s : State) (n line : Nat) : State :=
  s.updCluster n (fun c => { c with misses := line :: c.misses.take 1 })

/-! ### Memory as another source sees it -/

/-- A word by physical address as a source other than a core reads it; none at an address with no memory. Device
registers and PCIe windows are not memory. -/
def State.peekMem (s : State) (pa : Nat) : Option Word :=
  match s.region pa with
  | .dram | .staging | .jnv | .rom => some (s.word pa)
  | .keep => some (s.word pa)
  | _ => none

end Sys2Proof.Machine
end

