-- ==== Sys2Proof/Machine/Trans.lean ====
section
/-!
DEFINITION. Exceptions as records (R438, R444), address translation through the main TLB and the Physical Region
Table with its order of checks (R353 to R374), and the TLB's own operations (R363 to R373, R380).
-/
namespace Sys2Proof.Machine

/-- An exception that an instruction or a boundary raises: vector, cause word, fault address, extra words 0 to 3
(R444), and whether the frame's PC is the next instruction (R438). -/
structure Exc where
  vec : Nat
  cause : Pay
  fa : Pay := 0
  x0 : Word := Word.raw 0
  x1 : Word := Word.raw 0
  x2 : Word := Word.raw 0
  x3 : Word := Word.raw 0
  deriving DecidableEq, Repr

/-- Kinds of access, as R371 and R374 tell them apart. -/
inductive AccKind where
  | load | store | fetch
  deriving DecidableEq, Repr

/-! ### Exceptions by name -/
namespace Exc
def illegal (sub : Nat) : Exc := { vec := 4, cause := p64 sub }
def reserved (c : Nat) : Exc := { vec := 5, cause := p64 c }
def privilege (c : Nat) : Exc := { vec := 6, cause := p64 c }
def mcheck (c : Nat) (pa : Nat) : Exc := { vec := 2, cause := p64 c, fa := p64 pa }
def dataBus (c : Nat) (fa : Pay) : Exc := { vec := 13, cause := p64 c, fa := fa }
def insnBus (c : Nat) (fa : Pay) : Exc := { vec := 12, cause := p64 c, fa := fa }
def stack (c : Nat) : Exc := { vec := 15, cause := p64 c }
def addrForm (c : Nat) (a : Pay) : Exc := { vec := 19, cause := p64 c, fa := a }
def align (c : Nat) (a : Pay) : Exc := { vec := 23, cause := p64 c, fa := a }
/-- Tag Trap (R145): operation, reason, OPMASK, the two operand tags of extra word 0, fault address. -/
def tagTrap (op reason mask : Nat) (ta tb : BitVec 8) (fa : Pay := 0) : Exc :=
  { vec := 18, cause := atFld 23 16 mask ||| atFld 15 8 op ||| atFld 7 0 reason, fa := fa,
    x0 := Word.raw (atFld 15 8 ta.toNat ||| atFld 7 0 tb.toNat) }
end Exc

/-- Tag Trap reasons (R146). -/
abbrev rOvf : Nat := 1
abbrev rType : Nat := 2
abbrev rDivz : Nat := 3
abbrev rRange : Nat := 4
abbrev rIndex : Nat := 5
abbrev rClass10 : Nat := 6
abbrev rWeak : Nat := 7
abbrev rTrapw : Nat := 8
abbrev rPart : Nat := 9
abbrev rOtag : Nat := 10
abbrev rFmt : Nat := 11
abbrev rAlloc : Nat := 12

/-! ### TLB entries -/

def noEntry : TlbEntry := ⟨0#64, 0#64⟩
def Core.ent (c : Core) (i : Nat) : TlbEntry := Tbl.get (fun _ => noEntry) c.tlb i
def Core.setEnt (c : Core) (i : Nat) (e : TlbEntry) : Core := { c with tlb := Tbl.set (fun _ => noEntry) c.tlb i e }

namespace TlbEntry
def asid (e : TlbEntry) : Nat := fld e.tagw 63 52
def g (e : TlbEntry) : Bool := bit e.tagw 51
def v (e : TlbEntry) : Bool := bit e.tagw 50
def mask (e : TlbEntry) : Nat := fld e.tagw 4 0
/-- log₂ of the page size (R362). -/
def sh (e : TlbEntry) : Nat := 12 + e.mask
def mr (e : TlbEntry) : Nat := fld e.attr 11 10
def sg (e : TlbEntry) : Bool := bit e.attr 9
def c (e : TlbEntry) : Bool := bit e.attr 8
def r (e : TlbEntry) : Bool := bit e.attr 7
def w (e : TlbEntry) : Bool := bit e.attr 6
def x (e : TlbEntry) : Bool := bit e.attr 5
def l (e : TlbEntry) : Bool := bit e.attr 4
/-- The page holds va[47:0] (R363). -/
def covers (e : TlbEntry) (va : Nat) : Bool := (fld e.tagw 47 12 * 4096) >>> e.sh = (va % 2 ^ 48) >>> e.sh
/-- R363: the entry matches va for an ASID. -/
def hits (e : TlbEntry) (va asid : Nat) : Bool := e.v && e.covers va && (e.g || e.asid = asid)
/-- R363: the physical address for va. -/
def phys (e : TlbEntry) (va : Nat) : Nat := ((fld e.attr 47 12 * 4096) >>> e.sh) <<< e.sh ||| (va % 2 ^ e.sh)
end TlbEntry

/-- The index of the valid entry that matches (R363, R364). -/
def Core.tlbFind (c : Core) (va asid : Nat) : Option Nat := (c.tlb.find? (fun e => e.2.hits va asid)).map (·.1)

/-- Valid locked entries (R365, TXS.LOCKS). -/
def Core.locks (c : Core) : Nat := c.tlb.countP (fun e => e.2.v && e.2.l)

/-- R373: the entry the next TLBW writes when it replaces none: from `i` up, not a valid locked one. -/
def Core.victimFrom (c : Core) (i : Nat) : Nat :=
  match firstN 256 0 (fun j => let e := c.ent ((i + j) % 256); !(e.v && e.l)) with
  | some j => (i + j) % 256
  | none => i % 256

/-- Two pages share an address: the larger page covers the smaller one's base. -/
def TlbEntry.overlaps (a b : TlbEntry) : Bool :=
  let s := max a.sh b.sh
  (fld a.tagw 47 12 * 4096) >>> s = (fld b.tagw 47 12 * 4096) >>> s

/-- What TLBW does (R367, R368): the index written and the core after, or a reject reason. -/
inductive TlbwRes where
  | wrote (i : Nat) (c : Core)
  | reject (reason : Nat)

/-- TLBW (R367, R368, R373). -/
def Core.tlbw (c : Core) (tagw attr : Pay) : TlbwRes :=
  let mask := fld tagw 4 0
  let sh := 12 + mask
  let tagw1 := setFld tagw 47 12 ((fld tagw 47 12 * 4096) >>> sh <<< sh / 4096)
  let e : TlbEntry := ⟨tagw1, attr⟩
  let same := (c.tlb.find? (fun o => o.2.v && o.2.mask = mask && fld o.2.tagw 47 12 = fld tagw1 47 12
      && ((o.2.g && e.g) || (!o.2.g && !e.g && o.2.asid = e.asid)))).map (·.1)
  let vic := c.victimFrom c.victim
  let i := same.getD vic
  let others := c.tlb.filter (fun o => o.1 ≠ i)
  if mask > 28 then .reject 1
  else if (fld attr 47 12 * 4096) % 2 ^ sh ≠ 0 then .reject 2
  else if e.v ∧ e.l ∧ others.countP (fun o => o.2.v && o.2.l) ≥ 32 then .reject 3
  else if e.v ∧ others.any (fun o => o.2.v && o.2.overlaps e && (o.2.g || e.g || o.2.asid = e.asid)) then .reject 4
  else if fld tagw 49 48 ≠ 0 ∨ fld tagw 11 5 ≠ 0 ∨ fld attr 63 48 ≠ 0 ∨ fld attr 3 0 ≠ 0 then .reject 5
  else
    let c1 := c.setEnt i e
    .wrote i (if same.isSome then c1 else { c1 with victim := (vic + 1) % 256 })

/-- An entry invalidated: V cleared, the rest as last written (R366, R380). -/
def TlbEntry.inval (e : TlbEntry) : TlbEntry := { e with tagw := setBit e.tagw 50 false }

/-- Invalidate every listed entry that `p` holds of (R380). -/
def Core.tlbInval (c : Core) (p : TlbEntry → Bool) : Core :=
  c.tlb.foldl (fun c e => if e.2.v && p e.2 then c.setEnt e.1 e.2.inval else c) c

/-! ### Translation -/

/-- The result of translating one access: physical address and whether the page grants cacheability (R354, R365). -/
structure Tr where
  pa : Nat
  cache : Bool
  deriving DecidableEq, Repr

def tlbKind (k : AccKind) : Nat := match k with | .load => 1 | .store => 2 | .fetch => 3

/-- TLB Protection (R374). -/
def Exc.prot (k : AccKind) (reason : Nat) (fa : Pay) (x0 : Word) : Exc :=
  { vec := 10, cause := atFld 9 8 (tlbKind k) ||| atFld 7 0 reason, fa := fa, x0 := x0 }

/-- The tag word of R371 that a miss frame carries. -/
def missTag (asid : Nat) (va : Pay) : Pay := atFld 63 52 asid ||| atFld 50 50 1 ||| atFld 47 12 (fld va 47 12)

/-- ITLB or DTLB Miss (R374). -/
def Exc.miss (k : AccKind) (asid : Nat) (va : Pay) : Exc :=
  { vec := if k = .fetch then 8 else 9, cause := p64 (if k = .store then 2 else 1), fa := va,
    x0 := Word.raw (p64 asid), x1 := Word.raw (missTag asid va) }

/-- R371 steps 2 to 4 against a matched entry: the reason code of TLB Protection, if any. -/
def TlbEntry.denies (e : TlbEntry) (k : AccKind) (ring : Nat) (sgo : Bool) : Option Nat :=
  if ring > e.mr then some 4
  else if e.sg ∧ ring ≤ 1 ∧ (k = .fetch ∨ !sgo) then some 5
  else match k with
    | .load => if e.r then none else some 1
    | .store => if e.w then none else some 2
    | .fetch => if e.x then none else some 3

/-- Translate an access of context x at a ring (R353, R371): the TLB when translation is on, then the PRT. -/
def State.translate (s : State) (x ring : Nat) (k : AccKind) (va : Pay) : Except Exc Tr :=
  let c := s.ctx x
  if ring ≤ 1 ∧ !c.te then
    let pa := va.toNat % 2 ^ 48
    if s.prtOk ring pa then .ok ⟨pa, !(s.prt pa).se⟩ else .error (Exc.prot k 6 va (Word.rawN pa))
  else
    let asid := fld (c.sp Sr.asid) 11 0
    let core := s.core (s.coreOf x)
    match core.tlbFind va.toNat asid with
    | none => .error (Exc.miss k asid va)
    | some i =>
      let e := core.ent i
      match e.denies k ring c.sgo with
      | some reason => .error (Exc.prot k reason va (Word.rawN i))
      | none =>
        let pa := e.phys va.toNat
        if s.prtOk ring pa then .ok ⟨pa, e.c && !(s.prt pa).se⟩ else .error (Exc.prot k 6 va (Word.rawN pa))

end Sys2Proof.Machine
end

