-- ==== Sys2Proof/Machine/Heaps.lean ====
section
/-!
DEFINITION. Tag classes (R53, R56), payload and pointer forms (R60 to R63), and heaps, regions and their side areas (R290 to
R298) as the Region Table and the heap registers give them.
-/
namespace Sys2Proof.Machine

/-! ### Tags -/

def isClass10 (t : BitVec 8) : Bool := t.toNat / 64 = 2
def isReservedTag (t : BitVec 8) : Bool :=
  let n := t.toNat
  (8 ≤ n && n ≤ 0x3F) || (0x4A ≤ n && n ≤ 0x5F) || (0x86 ≤ n && n ≤ 0xBF)
def isUserPtr (t : BitVec 8) : Bool := t.toNat / 32 = 3
/-- A pointer tag (class 01, defined). -/
def isPtrTag (t : BitVec 8) : Bool := t.toNat / 64 = 1 && !isReservedTag t
/-- The tags a base register may hold as an object pointer (R157). -/
def isBasePtr (t : BitVec 8) : Bool := isPtrTag t && t ≠ Tag.weak && t ≠ Tag.pref
def isNum (t : BitVec 8) : Bool := t = Tag.fix || t = Tag.flo
def isRawFix (t : BitVec 8) : Bool := t = Tag.fix || t = Tag.raw

/-! ### Payload forms -/

/-- A Unicode scalar value in its form (R60). -/
def chrOk (p : Pay) : Bool :=
  let n := p.toNat
  n ≤ 0x10FFFF && !(0xD800 ≤ n && n ≤ 0xDFFF)

/-- A word whose payload has the form of its immediate tag; other tags set no form here (R60). -/
def immForm (w : Word) : Bool :=
  if w.tag = Tag.chr then chrOk w.pay
  else if w.tag = Tag.bool then decide (w.pay.toNat ≤ 1)
  else if w.tag = Tag.unb then decide (fld w.pay 63 48 = 0)
  else if w.tag = Tag.hand then decide (fld w.pay 63 40 = 0)
  else true

/-- Canonical pointer form: bits [63:48] and [2:0] zero (R61). The exception R62 gives otherwise. -/
def ptrForm (p : Pay) : Option Exc :=
  if fld p 63 48 ≠ 0 then some (Exc.addrForm 1 p) else if fld p 2 0 ≠ 0 then some (Exc.align 1 p) else none

/-! ### Heaps and the Region Table -/

def State.heapEn (s : State) (h : Nat) : Bool := bit (s.reg (oHeap h + 0x20)) 3
def State.heapPhase (s : State) (h : Nat) : Nat := s.rf (oHeap h + 0x20) 2 0
def State.heapVbase (s : State) (h : Nat) : Nat := (s.reg (oHeap h)).toNat
def State.heapPbase (s : State) (h : Nat) : Nat := (s.reg (oHeap h + 8)).toNat
/-- Region size S in bytes (R291, R345). -/
def State.heapS (s : State) (h : Nat) : Nat := 0x100000 * 2 ^ s.rf (oHeap h + 0x10) 2 0
def State.heapRidx (s : State) (h : Nat) : Nat := s.rf (oHeap h + 0x10) 47 32
def State.heapRegions (s : State) (h : Nat) : Nat := s.rf (oHeap h + 0x10) 31 16 + 1
def State.heapGenmax (s : State) (h : Nat) : Nat := s.rf (oHeap h + 0x20) 15 14
def State.heapCycle (s : State) (h : Nat) : Nat := s.rf (oHeap h + 0x20) 13 12

/-- va lies in heap h (R290, R291). -/
def State.inHeap (s : State) (h va : Nat) : Bool :=
  decide (s.heapVbase h ≤ va) && decide (va < s.heapVbase h + s.heapRegions h * s.heapS h)

/-- The enabled heap that an address lies in, among those `en` admits. -/
def State.heapAt (s : State) (en : Nat → Bool) (va : Nat) : Option Nat :=
  firstN 4 0 (fun h => s.heapEn h && en h && s.inHeap h va)

/-- Tags of heap pointers (R292). -/
def isHeapTag (t : BitVec 8) : Bool := isPtrTag t && t ≠ Tag.pref

/-- The heap that a word points into, where heaps `en` count (R292). -/
def State.heapPtr (s : State) (en : Nat → Bool) (w : Word) : Option Nat :=
  if isHeapTag w.tag ∧ ptrForm w.pay = none then s.heapAt en w.pay.toNat else none

/-- Global region index of a heap address (R291). -/
def State.regionIdx (s : State) (h va : Nat) : Nat := s.heapRidx h + (va - s.heapVbase h) / s.heapS h

/-- Physical address of a heap address (R290). -/
def State.heapPhys (s : State) (h va : Nat) : Nat := va - s.heapVbase h + s.heapPbase h

/-- Fields of word 0 of a Region Table entry (R293). -/
def rtState (w : Pay) : Nat := fld w 63 62
def rtGen (w : Pay) : Nat := fld w 61 60
def rtEcopy (w : Pay) : Bool := bit w 59
def rtDone (w : Pay) : Bool := bit w 58
def rtOwner (w : Pay) : Nat := fld w 57 54
def rtSide (w : Pay) : Nat := fld w 47 12 * 4096
abbrev rgNormal : Nat := 0
abbrev rgEvac : Nat := 1
abbrev rgFree : Nat := 2
abbrev rgPinned : Nat := 3

/-- Heap h acts on the core of context x: RTB.HEN, which reads 0 in loose mode (R300, R301). -/
def State.hen (s : State) (x h : Nat) : Bool := !s.isLoose x && bit ((s.core (s.coreOf x)).sp Sr.rtb) h

/-- SATB recording is on for heap h at the core of context x (R319, R320). -/
def State.satbOn (s : State) (x h : Nat) : Bool := Tbl.get (fun _ => false) (s.core (s.coreOf x)).satb h

/-- The card byte of a slot at heap address va in region idx, whose entry is `rt` (R298). -/
def State.cardAddr (s : State) (h va : Nat) (rt : Pay) : Nat :=
  rtSide rt + s.heapS h / 64 + ((va - s.heapVbase h) % s.heapS h) / 512

/-- An access by context x at `va` that is not made through an object's base reaches an evacuating region (R304): the Region
Table entry is read by RTB.BASE. -/
def State.intoEvac (s : State) (x : Nat) (va : Nat) : Bool :=
  match s.heapAt (s.hen x) va with
  | none => false
  | some h =>
    let k := s.coreOf x
    let b := fld ((s.core k).sp Sr.rtb) 47 16 * 0x10000 + 16 * s.regionIdx h va
    decide (rtState (s.word (s.key k b)).pay = rgEvac)

end Sys2Proof.Machine
end

