-- ==== Sys2Proof/Machine/Ops.lean ====
section
/-!
DEFINITION. The operations every meaning shares: retiring an instruction with its load shadow and loop ends
(R126 to R138, R180), posted stores and the windows of tight twins (R486 to R493), taking an exception (R438 to
R462), the context reset, event latches and lines, the twin fault log and the Event Router.
-/
namespace Sys2Proof.Machine

/-! ### The twin fault log (R513 to R516) -/

/-- Append a log record: cause, twin, outcome, AUX, detection time, details. -/
def State.logRec (s : State) (cause twin outcome aux : Nat) (time : Pay) (w2 w3 : Pay) : State :=
  let seq := s.rf (oTwin + 0x30) 31 0
  let ack := s.rf (oTwin + 0x38) 31 0
  let lost := s.rf (oTwin + 0x30) 63 48
  let b := oTwin + 0x1000 + 0x20 * (seq % 64)
  let s1 := s.setReg b (atFld 63 56 cause ||| atFld 55 51 twin ||| atFld 50 48 outcome ||| atFld 47 32 aux ||| atFld 31 0 seq)
  let s2 := ((s1.setReg (b + 8) time).setReg (b + 16) w2).setReg (b + 24) w3
  let s3 := s2.setRf (oTwin + 0x30) 31 0 (seq + 1)
  if seq - ack ≥ 64 then s3.setRf (oTwin + 0x30) 63 48 (satInc 16 lost) else s3

/-- Word w of log record number seq. -/
def State.logWord (s : State) (seq w : Nat) : Pay := s.reg (oTwin + 0x1000 + 0x20 * (seq % 64) + 8 * w)

/-- The oldest unacknowledged record, still held (R513, R516). -/
def State.oldestLog (s : State) : Nat :=
  let seq := s.rf (oTwin + 0x30) 31 0
  max (s.rf (oTwin + 0x38) 31 0) (seq - 64)

/-- Twin Event is pending (R502, R516): unacknowledged records, INPUT records counting only while IDEV is 1. -/
def State.twinEventPending (s : State) : Bool :=
  let seq := s.rf (oTwin + 0x30) 31 0
  let lo := s.oldestLog
  (firstN (seq - lo) lo (fun i => fld (s.logWord i 0) 63 56 ≠ 5 || bit (s.reg (oTwin + 0x20)) 4)).isSome

/-- The context that takes Twin Event (R478). -/
def State.sentinelCtx (s : State) : Nat := 8 * s.rf (oTwin + 0x28) 62 62

/-! ### Retirement -/

/-- The innermost active loop level (R178). -/
def Ctx.innermost (c : Ctx) : Option Nat :=
  if c.sp (Sr.lc0 + 2) ≠ 0 then some 2 else if c.sp (Sr.lc0 + 1) ≠ 0 then some 1 else if c.sp Sr.lc0 ≠ 0 then some 0 else none

/-- The loop depth (R178). -/
def Ctx.depth (c : Ctx) : Nat := match c.innermost with | some k => k + 1 | none => 0

/-- LEk as ADDR and RING (R189). -/
def Ctx.leAddr (c : Ctx) (k : Nat) : Pay := c.sp (Sr.le0 + k) &&& ~~~3#64
def Ctx.leRing (c : Ctx) (k : Nat) : Nat := fld (c.sp (Sr.le0 + k)) 1 0

/-- The end action of level j (R180): the context after it, with PC set. -/
def Ctx.endLevel (c : Ctx) (next : Pay) : Nat → Ctx
  | 0 =>
    if c.sp Sr.lc0 > 1#64 then (c.setSp Sr.lc0 (c.sp Sr.lc0 - 1)).setPc (c.sp Sr.ls0)
    else (c.setSp Sr.lc0 0).setPc next
  | j + 1 =>
    if c.sp (Sr.lc0 + (j + 1)) > 1#64 then (c.setSp (Sr.lc0 + (j + 1)) (c.sp (Sr.lc0 + (j + 1)) - 1)).setPc (c.sp (Sr.ls0 + (j + 1)))
    else
      let c1 := c.setSp (Sr.lc0 + (j + 1)) 0
      if c.sp (Sr.le0 + j) = c.sp (Sr.le0 + (j + 1)) then Ctx.endLevel c1 next j else c1.setPc next

/-- The end action that stands at one of the addresses an instruction occupies, if any (R180, R195). -/
def Ctx.endAction (c : Ctx) (slots : List Pay) (next : Pay) : Ctx :=
  match c.innermost with
  | some j => if slots.contains (c.leAddr j) ∧ c.leRing j = c.ring then c.endLevel next j else c.setPc next
  | none => c.setPc next

/-- Pending loads count one more retirement; those that reach 0 land, in order (R127, R130). -/
def State.landLoads (s : State) (x : Nat) : State :=
  let ls := (s.ctx x).loads.map (fun p => { p with rem := p.rem - 1 })
  let s1 := (ls.filter (fun p => p.rem = 0)).foldl (fun s p => s.wrRegBank x p.reg p.bank p.val) s
  s1.updCtx x (fun c => { c with loads := ls.filter (fun p => p.rem ≠ 0) })

/-- A single step of debug access is over at this boundary (R736). -/
def Ctx.stepEnd (c : Ctx) : Ctx := if c.stepping then { c with stepping := false, halted := true } else c

/-- Bookkeeping at every retirement: one more group of the window (R487), answers used up, no longer fresh. -/
def State.retireMark (s : State) (x : Nat) : State :=
  let s1 := s.updCtx x (fun c => { c.stepEnd with fresh := false, grants := [], obs := [], inflight := false, slot := none, run := .run })
  if s.isTight x then s1.updTwin (twinOf x) (fun w => { w with groups := w.groups + 1 }) else s1

/-- Retire an instruction that occupies `slots`: loads land, the end action or the next address follows, and its own
load, if it is one, becomes pending for two more retirements (R127, R180). -/
def State.retire (s : State) (x : Nat) (slots : List Pay) (next : Pay) (ld : Option PendLoad) : State :=
  let s1 := (s.landLoads x).retireMark x
  s1.updCtx x (fun c =>
    let c1 := c.endAction slots next
    match ld with
    | some p => { c1 with loads := c1.loads ++ [p] }
    | none => c1)

/-- Retire an instruction that transfers control to `target` (R182). -/
def State.retireTo (s : State) (x : Nat) (target : Pay) : State :=
  ((s.landLoads x).retireMark x).updCtx x (fun c => c.setPc target)

/-! ### Windows of a tight twin -/

/-- Contexts of twin t whose fence waits for held outputs go on (R424). -/
def State.wakeWindow (s : State) (t : Nat) : State :=
  (s.ctxs.filter (fun e => twinOf e.1 = t && e.2.run = .window)).foldl (fun s e => s.updCtx e.1 (fun c => { c with run := .run })) s

/-- The window of twin t is confirmed: held outputs leave in order, nothing is provisional, MISRs are seeded (R487,
R489, R491). -/
def State.confirm (s : State) (t : Nat) : State :=
  let w := s.twin t
  { ((s.setTwin t { w with groups := 0, misr := misrSeed, undo := [], sqtConf := [], hold := [] }).wakeWindow t) with
    outbox := s.outbox ++ w.hold }

/-- Rolling an undo log back restores the oldest word of each key. -/
def undoAll : List (Nat × Word) → State → State
  | [], s => s
  | (k, w) :: us, s => undoAll us (s.setWord k w)

/-- The open window of twin t is discarded: provisional lines leave the L1D unwritten, held outputs are dropped
(R493). -/
def State.rollback (s : State) (t : Nat) : State :=
  let w := s.twin t
  let s1 := undoAll w.undo s
  let lines := w.undo.map (fun e => e.1 / 64)
  let s2 := lines.foldl (fun s l =>
    let s1 := s.updCore (2 * t) (fun c => { c with l1d := Tbl.erase c.l1d l })
    match s1.l2At (clusterOfTwin t) l with
    | some m => if m.dirty then s1 else { s1 with backing := Tbl.erase s1.backing l }
    | none => { s1 with backing := Tbl.erase s1.backing l }) s1
  let s3 := w.sqtConf.foldl (fun s e => s.updCtx e.1 (fun c => c.setSp Sr.sqt e.2)) s2
  s3.setTwin t { w with groups := 0, misr := misrSeed, undo := [], sqtConf := [], hold := [] }

/-- A line that twin t holds provisional (R489). -/
def Twin.provisional (w : Twin) (line : Nat) : Bool := w.undo.any (fun e => e.1 / 64 = line)

/-- Another source reaches a line: every window in which it is provisional closes and is confirmed (R488). -/
def State.confirmLine (s : State) (line : Nat) : State :=
  (s.twins.filter (fun e => e.2.provisional line)).foldl (fun s e => s.confirm e.1) s

/-- A word write that goes past the caches, with the closing of windows (R392, R488). -/
def State.busWrite (s : State) (k : Nat) (w : Word) : State := (s.confirmLine (k / 64)).extWrite k w

/-- A unit other than a core cannot have the line: it is poisoned, or lies in Keep SRAM (R39, R404). -/
def State.unitBarred (s : State) (line : Nat) : Bool := s.poisoned line || isKeepLine line

/-- Word writes and reads by an engine or block. One that meets a poisoned line or Keep SRAM fails: it writes nothing (R39,
R404). -/
def State.engWrite (s : State) (k : Nat) (w : Word) : State := if s.unitBarred (k / 64) then s else s.busWrite k w
def State.engRead (s : State) (k : Nat) : Word × State := (s.confirmLine (k / 64)).extRead k
def State.engWords (s : State) (k : Nat) (ws : List Word) : State :=
  (List.range ws.length).foldl (fun s i => s.engWrite (k + 8 * i) (ws.getD i Word.nil)) s

/-! ### Stores -/

/-- Record a Store Bus Error at a context (R455), if there is one still (R503). In loose mode both copies of the context meet
it. -/
def State.recSbe (s : State) (x cause pa : Nat) (pc : Pay) : State :=
  let e : StoreErr := ⟨cause, p64 pa, pc⟩
  if x = noCtx then s else
  let s1 := s.updCtx x (fun c => { c with sbes := c.sbes ++ [e] })
  if s.isLoose x then s1.updCtx (if x % 8 < 4 then x + 4 else x - 4) (fun c => { c with sbes := c.sbes ++ [e] }) else s1

/-- The word at key k after a store of `width` bytes: 8 writes the word, 1, 2 or 4 bytes make it RAW (R88), 9 sets
the tag alone (STT). -/
def merged (old : Word) (pa width : Nat) (v : Word) : Word :=
  if width = 8 then v
  else if width = 9 then ⟨v.tag, old.pay⟩
  else ⟨Tag.raw, putBytes old.pay (pa % 8) width v.pay⟩

/-- A store applied to memory by source `src` without a cache (R392): a whole line for ZAL (width 64). -/
def State.memStore (s : State) (src pa width : Nat) (v : Word) : State :=
  let k := s.key src pa
  if width = 64 then (List.range 8).foldl (fun s i => s.busWrite (k + 8 * i) v) s
  else s.busWrite (k / 8 * 8) (merged (s.word k) pa width v)

/-- A word at `k` written where it still holds `old` (R306). -/
def State.memHeal (s : State) (k : Nat) (old new : Word) : State := if s.word k = old then s.busWrite (k / 8 * 8) new else s

/-- What twin t's leader has written of Keep SRAM at pa, its shadow has written of copy B (R38, R485). -/
def State.mirrorKeep (s : State) (t pa width : Nat) : State :=
  forN (if width = 64 then 8 else 1) 0 (fun i s =>
    let p := pa / 8 * 8 + 8 * i
    s.setWord (s.key (2 * t + 1) p) (s.word (s.key (2 * t) p))) s

/-- An uncached store to Keep SRAM by core src (R38, R418, R421). -/
def State.keepStore (s : State) (x src pa width : Nat) (v : Word) : State :=
  let s1 := s.memStore src pa width v
  if s.isTight x then s1.mirrorKeep (twinOf x) pa width else s1

/-- R491: the access bypasses the L1D: the translation says so, or the L1D or L2 is off, or the L2 set is full. -/
def State.uncached (s : State) (k key : Nat) (cache : Bool) : Bool :=
  !cache || !s.l1dEn k
    || (!isKeepLine (key / 64) && (s.l2At (clusterOfCore k) (key / 64)).isNone && (s.l2Way (clusterOfCore k) (key / 64)).isNone)

/-- The access is uncached in the sense of R392 only: the L2 too is bypassed. -/
def State.bypassL2 (s : State) (k key : Nat) (cache : Bool) : Bool :=
  !cache || !s.l2En (clusterOfCore k)
    || (!isKeepLine (key / 64) && (s.l2At (clusterOfCore k) (key / 64)).isNone && (s.l2Way (clusterOfCore k) (key / 64)).isNone)

/-- A cached store of one word at key k in a tight twin is provisional: the word it overwrites is logged (R489). -/
def State.cachedStore (s : State) (k key x : Nat) (w : Word) : State :=
  let t := k / 2
  let tight := (s.twin t).mode = .tight
  let s0 := (s.twins.filter (fun e => e.1 ≠ t && e.2.provisional (key / 64))).foldl (fun s e => s.confirm e.1) s
  let s1 := if tight then s0.updTwin t (fun w => { w with undo := (key, s0.word key) :: w.undo }) else s0
  s1.cacheWrite k key x w ((s1.twin t).mode = .tight && !(s0.twin t).provisional (key / 64))

/-- An output of twin t joins its hold buffer; a full buffer closes the window first (R488, R491). -/
def State.holdOut (s : State) (t : Nat) (o : Out) : State :=
  let s1 := if (s.twin t).hold.length ≥ 32 then s.confirm t else s
  s1.updTwin t (fun w => { w with hold := w.hold ++ [o] })

/-- The comparator entry of an output of a loose core. -/
def Out.looseReq : Out → LooseReq
  | .store _ _ pa width v pc => .store pa width v pc
  | .sev _ target => .sev target
  | .heal _ _ pa _ new pc => .store pa 8 new pc

/-- An output of context x waits in the open window of its tight twin (R491). -/
def State.heldBy (s : State) (x : Nat) : Bool :=
  s.isTight x && (s.twin (twinOf x)).hold.any (fun o => match o with
    | .store y _ _ _ _ _ | .heal y _ _ _ _ _ => y = x
    | .sev _ _ => false)

/-- An output of context x leaves its core: into the hold buffer of a tight twin, to the comparator of a loose one, or out
(R47, R491, R496). -/
def State.leaveCore (s : State) (x : Nat) (o : Out) : State :=
  let t := twinOf x
  if s.isTight x then s.holdOut t o
  else if s.isLoose x then
    let e : LooseEntry := ⟨x, o.looseReq⟩
    s.updTwin t (fun w => if x % 8 < 4 then { w with outL := w.outL ++ [e] } else { w with outS := w.outS ++ [e] })
  else { s with outbox := s.outbox ++ [o] }

/-- A cached store of `width` bytes at key `key` by context x of core k: the eight words of a line for ZAL (R405). -/
def State.cachedWidth (s : State) (k key x pa width : Nat) (v : Word) : State :=
  if width = 64 then (List.range 8).foldl (fun s i => s.cachedStore k (key / 64 * 64 + 8 * i) x v) s
  else s.cachedStore k (key / 8 * 8) x (merged (s.word key) pa width v)

/-- A posted store of context x after its checks: signed; cached stores write at once; others wait in the hold
buffer of a tight twin, in the comparator of a loose one, or leave (R47, R486, R491, R496). -/
def State.postStore (s : State) (x : Nat) (tr : Tr) (width : Nat) (v : Word) (pc : Pay) : State :=
  let k := s.coreOf x
  let t := twinOf x
  let s1 := if s.isTight x then s.sign t (signStore tr.pa (if width = 9 then 8 else width) (if width = 64 then Word.fix 0 else v)) else s
  let leave (s : State) : State := s.leaveCore x (.store x k tr.pa width v pc)
  let key := s.key k tr.pa
  match s.region tr.pa with
  | .unmapped => s1.recSbe x 1 tr.pa pc
  | .rom => s1.recSbe x 6 tr.pa pc
  | .keep =>
    if !keepSource k then s1.recSbe x 7 tr.pa pc
    else if s1.uncached k key tr.cache then (if s.isTight x then leave s1 else s1.keepStore x k tr.pa width v)
    else
      let s2 := s1.cachedWidth k key x tr.pa width v
      if s.isTight x then s2.mirrorKeep t tr.pa width else s2
  | .dev _ | .pcie _ => leave s1
  | _ =>
    if s.isLoose x then leave s1
    else if s1.uncached k key tr.cache then leave s1
    else s1.cachedWidth k key x tr.pa width v

/-- A heal of the slot at tr.pa from `old` to `new` by context x (R306, R338): signed as a store; a cached slot is compared and
written now, an uncached one where the word is. -/
def State.postHeal (s : State) (x : Nat) (tr : Tr) (old new : Word) (pc : Pay) : State :=
  let k := s.coreOf x
  let key := s.key k tr.pa
  let s1 := if s.isTight x then s.sign (twinOf x) (signStore tr.pa 8 new) else s
  if s1.uncached k key tr.cache then s1.leaveCore x (.heal x k tr.pa old new pc)
  else if s1.word key = old then
    let s2 := s1.cachedWidth k key x tr.pa 8 new
    if s.isTight x ∧ s.region tr.pa = .keep then s2.mirrorKeep (twinOf x) tr.pa 8 else s2
  else s1

/-! ### SATB submission (R313, R314) -/

/-- A line of the range that no unit can read, since it is poisoned (R404). -/
def State.badIn (s : State) (pa len : Nat) : Option Nat :=
  ((s.clusters.flatMap (fun e => (e.2.l2.filter (fun m => m.2.poison)).map (·.1))
    ++ (if s.clusters.all (fun e => e.2.tagBad.isEmpty) then [] else (List.range' (pa / 64) (len / 64 + 2)).filter s.poisoned)).find?
    (fun l => decide (64 * l < pa + len) && decide (pa < 64 * l + 64))).map (64 * ·)

/-- A submission of context x, of the `n` entries from `base` up, reaches the intake of cluster c's engine, which absorbs it when
it can (R313, R335); entries in a poisoned line are lost to the engine, which takes note of it (R336). -/
def State.intake (s : State) (c x base n : Nat) : State :=
  let ws := (List.range n).filterMap (fun i =>
    if (s.badIn (base + 8 * i) 8).isSome then none else some (s.word (base + 8 * i)))
  s.updCluster c (fun k => { k with intake := k.intake ++ [⟨x, if (s.badIn base (8 * n)).isSome then ws else s.words base n, s.badIn base (8 * n)⟩] })

/-- The entries from SQB to SQT of context x go to its cluster's engine as one submission (R314). -/
def State.submitSatb (s : State) (x : Nat) : State :=
  let c := s.ctx x
  let b := (c.sp Sr.sqb).toNat
  let n := ((c.sp Sr.sqt).toNat - b) / 8
  if n = 0 then s else s.intake (clusterOfTwin (twinOf x)) x b n

/-! ### Vector tables (R439 to R443) -/

/-- A word by physical address as core k reads it for a table; none where the read fails, a poisoned line included (R404). -/
def State.physWord (s : State) (k pa : Nat) : Option Word :=
  if s.poisoned (s.key k pa / 64) then none
  else match s.region pa with
  | .dram | .staging | .jnv | .rom => some (s.word pa)
  | .keep => if keepSource k then some (s.word (s.key k pa)) else none
  | .dev off => some (Word.raw (s.reg off))
  | _ => none

/-- A vector entry is present (R440); the RING bits of a ring 0 entry are reserved. -/
def entryOk (ring0 : Bool) (w : Word) : Bool :=
  w.tag = Tag.raw && fld w.pay 63 48 = 0 && fld w.pay 47 2 ≠ 0 && (!ring0 || fld w.pay 1 0 = 0)

/-- Physical address of entry v of the ring 0 or ring 1 table of context x's core (R439, R442). -/
def State.entryAddr (s : State) (x : Nat) (ring0 : Bool) (v : Nat) : Nat :=
  let b := if ring0 then s.reg (oSec + 0xE00) else (s.core (s.coreOf x)).sp Sr.tvb
  fld b 47 11 * 2048 + 8 * v

/-- Entry v: from the latch for event lines, else read by physical address under the PRT; none when absent or the
read fails (R439, R440, R443). -/
def State.vecEntry (s : State) (x : Nat) (ring0 : Bool) (v : Nat) : Option Pay :=
  let k := s.coreOf x
  if 64 ≤ v ∧ v < 128 then
    let w := Tbl.get (fun _ => Word.raw 0) (if ring0 then (s.core k).latch0 else (s.core k).latch1) v
    if entryOk ring0 w then some w.pay else none
  else
    let a := s.entryAddr x ring0 v
    if !s.prtOk (if ring0 then 0 else 1) a then none
    else match s.physWord k a with
      | some w => if entryOk ring0 w then some w.pay else none
      | none => none

/-- What core k latches of one table: entries 64 to 127 (R443). -/
def State.latchOf (s : State) (k base : Nat) (ring0 : Bool) : Tbl Word :=
  forN 64 64 (fun v t =>
    let w := if s.prtOk (if ring0 then 0 else 1) (base + 8 * v) then (s.physWord k (base + 8 * v)).getD (Word.raw 0) else Word.raw 0
    Tbl.set (fun _ => Word.raw 0) t v w) []

/-! ### Context reset (R227, R462) -/

/-- SQT of context x as the last confirmed window left it (R314). -/
def State.confirmedSqt (s : State) (x : Nat) : State :=
  match Tbl.look (s.twin (twinOf x)).sqtConf x with
  | none => s
  | some q => (s.updCtx x (fun c => c.setSp Sr.sqt q)).updTwin (twinOf x) (fun w => { w with sqtConf := Tbl.erase w.sqtConf x })

/-- Reset context x and start it at entry 0 of the ring 0 table; an absent entry leaves it halted for good. -/
def State.ctxReset (s : State) (x : Nat) : State :=
  let s1 := (s.confirmedSqt x).submitSatb x
  let c := s1.ctx x
  let base : Ctx :=
    { Ctx.reset with
      evHeld := c.evHeld, linesHeld := c.linesHeld, started := true, sbes := c.sbes,
      mcs := c.mcs, halted := c.stepEnd.halted, frozen := c.frozen }
  match s1.vecEntry x true 0 with
  | some p => s1.setCtx x (base.setPc (atFld 47 2 (fld p 47 2)))
  | none => s1.setCtx x { base with dead := true }

/-! ### Taking an exception (R441, R447, R459 to R461) -/

/-- Where an exception goes: its ring and handler address, or the ring and the entry whose read failed (R441). -/
inductive Target where
  | handler (ring : Nat) (addr : Pay)
  | failed (ring : Nat) (entry : Nat)
  deriving DecidableEq, Repr

/-- The target of vector v at a ring (R441). -/
def State.target (s : State) (x v ring : Nat) : Target :=
  let ring0 (_ : Unit) : Target :=
    match s.vecEntry x true v with
    | some p => .handler 0 (atFld 47 2 (fld p 47 2))
    | none => .failed 0 (s.entryAddr x true v)
  if v = 0 ∨ v = 3 ∨ ring = 0 then ring0 ()
  else
    match s.vecEntry x false v with
    | none => .failed (min ring 1) (s.entryAddr x false v)
    | some p =>
      let t := min ring (fld p 1 0)
      if t = 0 then ring0 () else .handler t (atFld 47 2 (fld p 47 2))

/-- The stack pointer of ring t, ordinary or emergency (R446). -/
def spNo (t : Nat) (em : Bool) : Nat := (if em then Sr.esp0 else Sr.sp0) + t

/-- The eight store translations of a frame push at ring t, or none when any fails, lies in an evacuating region (R304), or the
pointer is bad (R447). -/
def State.pushPlan (s : State) (x t : Nat) (sp : Pay) : Option (List Tr) :=
  if fld sp 63 48 ≠ 0 ∨ fld sp 2 0 ≠ 0 ∨ sp.toNat < 64 then none
  else if (List.range 8).any (fun i => s.intoEvac x (sp - 64 + p64 (8 * i)).toNat) then none
  else (List.range 8).mapM (fun i => (s.translate x t .store (sp - 64 + p64 (8 * i))).toOption)

/-- The shadow descriptor of R135. The spec gives BANK for a local register only; for a global it is `g`, a free value. -/
def shadowDesc (ls : List PendLoad) (g : Nat) : Pay :=
  let half (p : PendLoad) : Nat :=
    0x8000 + p.rem * 0x2000 + (if p.reg.toNat < 16 then g else p.bank) * 0x400 + p.reg.toNat
  match ls with
  | [] => 0
  | [a] => p64 (half a)
  | a :: b :: _ => p64 (half b * 0x10000 + half a)

/-- The eight words of the frame (R444, R445). -/
def Ctx.frame (c : Ctx) (pc : Pay) (e : Exc) (g : Nat) : List Word :=
  let sh := !c.loads.isEmpty
  let xs := if sh then [Word.raw (shadowDesc c.loads g), (c.loads[0]?.map (·.val)).getD Word.nil, (c.loads[1]?.map (·.val)).getD Word.nil]
    else [e.x1, e.x2, e.x3]
  [Word.raw pc, Word.raw (setBit (c.sp Sr.ps) 15 sh), Word.raw e.cause, Word.raw e.fa, e.x0] ++ xs

/-- The entry actions of R238 and R239 on WINB.OLD; they stay in force if the push fails. -/
def Ctx.entryAction (c : Ctx) (v : Nat) : Ctx :=
  if v = 16 then c.setOld ((c.old + 1) % 7) else if v = 17 then c.setOld ((c.old + 6) % 7) else c

/-- One word of a frame is stored. A poisoned line takes nothing and raises a Machine Check, deferred to the next boundary
(R404, R457; assumption 84). -/
def State.pushOne (s : State) (x : Nat) (w : Word) (tr : Tr) (pc : Pay) : State :=
  if s.poisoned (s.key (s.coreOf x) tr.pa / 64) then s.updCtx x (fun c => { c with mcs := c.mcs ++ [⟨4, p64 tr.pa⟩] })
  else s.postStore x tr 8 w pc

/-- Write the frame and enter the handler (R447). -/
def State.pushEnter (s0 : State) (x t : Nat) (em : Bool) (h : Pay) (pc : Pay) (e : Exc) (plan : List Tr) : State :=
  let c := s0.ctx x
  let g := if c.loads.any (fun p => decide (p.reg.toNat < 16)) then s0.free else (0, s0)
  let s := g.2
  let sp := c.sp (spNo t em)
  let s1 := ((c.frame pc e (fld g.1 2 0)).zip plan).foldl (fun s wp => s.pushOne x wp.1 wp.2 pc) s
  let ps := setBit (setBit (setBit (setFld (c.sp Sr.ps) 1 0 t) 7 false) 5 false) 9 em
  s1.updCtx x (fun c0 =>
    let c := c0.stepEnd
    { (((c.setSp (spNo t em) (sp - 64)).setSp Sr.ps ps).setTb true).setPc h with
      loads := [], run := .run, fresh := false, slot := none, grants := [], obs := [], inflight := false })

/-- A third fault: log record THIRD, a context reset, and word to the Ledger (R461, R515, R563). -/
def State.thirdFault (s : State) (x : Nat) (pc : Pay) (e : Exc) (dfCause how : Nat) : State :=
  let s1 := s.logRec 0x0B (twinOf x) 0 x s.time
    (atFld 63 56 e.vec ||| atFld 55 48 (fld e.cause 7 0) ||| atFld 47 40 dfCause ||| atFld 39 32 how) pc
  let s2 := s1.ctxReset x
  { s2 with ldg := { s2.ldg with restart := s2.ldg.restart ++ [x] } }

/-- Double Fault at ring t (R459, R460): onto the emergency stack of t, or a third fault. -/
def State.doubleFault (s : State) (x t : Nat) (pc : Pay) (e : Exc) (cause : Nat) (fa : Pay) : State :=
  let c := s.ctx x
  if c.em then s.thirdFault x pc e cause 2
  else
    match s.vecEntry x (t = 0) 1 with
    | none => s.thirdFault x pc e cause 3
    | some p =>
      match s.pushPlan x t (c.sp (spNo t true)) with
      | none => s.thirdFault x pc e cause 1
      | some plan =>
        s.pushEnter x t true (atFld 47 2 (fld p 47 2)) pc
          { vec := 1, cause := p64 cause, fa := fa, x0 := Word.rawN e.vec, x1 := Word.raw e.cause, x2 := Word.raw e.fa } plan

/-- Entry to a vector other than 0 and 1 with TB = 0, or asynchronous (R447). -/
def State.deliver (s : State) (x : Nat) (pc : Pay) (e : Exc) : State :=
  let c := s.ctx x
  match s.target x e.vec c.ring with
  | .failed t a => s.doubleFault x t pc e 3 (p64 a)
  | .handler t h =>
    let em := if t = c.ring then c.em else false
    let s1 := s.updCtx x (fun c => c.entryAction e.vec)
    match s1.pushPlan x t (c.sp (spNo t em)) with
    | none => s1.doubleFault x t pc e 1 (c.sp (spNo t em) - 64)
    | some plan => s1.pushEnter x t em h pc e plan

/-- The ring an exception would be taken at, whether or not its entry can be read (R459). -/
def Target.ring : Target → Nat
  | .handler t _ => t
  | .failed t _ => t

/-- Taking a synchronous exception with frame PC `pc` (R232, R447): with TB = 1 it is a Double Fault, NESTED. -/
def State.takeExc (s : State) (x : Nat) (pc : Pay) (e : Exc) : State :=
  let c := s.ctx x
  if c.tb then s.doubleFault x (s.target x e.vec c.ring).ring pc e 2 e.fa else s.deliver x pc e

/-! ### Asynchronous exceptions (R456 to R458) -/

/-- Which asynchronous exception a context takes next. -/
inductive Async where
  | mcheck | twin | sbe | line
  deriving DecidableEq, Repr

/-- The boundary of context x admits an asynchronous exception (R456). -/
def Ctx.admits (c : Ctx) : Bool := !c.tb && c.loads.isEmpty

/-- Context x is the one that Twin Event reaches; in loose mode both copies are (R478, R497). -/
def State.isSentinelCtx (s : State) (x : Nat) : Bool := s.sentinelCtx = x || (s.isLoose x && s.sentinelCtx + 4 = x)

/-- The first takeable asynchronous exception (R458). -/
def State.async (s : State) (x : Nat) : Option Async :=
  let c := s.ctx x
  if !c.admits then none
  else if !c.mcs.isEmpty then some .mcheck
  else if s.isSentinelCtx x && s.twinEventPending then some .twin
  else if !c.sbes.isEmpty then some .sbe
  else if c.ie && !c.lines.isEmpty then some .line
  else none

/-- Take one asynchronous exception at the boundary: PC is that of the next instruction (R438). -/
def State.takeAsync (s : State) (x : Nat) (a : Async) : State :=
  let c := s.ctx x
  match a with
  | .mcheck =>
    match c.mcs with
    | [] => s
    | m :: ms => (s.updCtx x (fun c => { c with mcs := ms })).deliver x c.pc (Exc.mcheck m.cause m.addr.toNat)
  | .twin =>
    let seq := s.oldestLog
    let w0 := s.logWord seq 0
    s.deliver x c.pc { vec := 3, cause := atFld 7 0 (fld w0 63 56) ||| atFld 12 8 (fld w0 55 51), x0 := Word.rawN seq }
  | .sbe =>
    match c.sbes with
    | [] => s
    | e :: es => (s.updCtx x (fun c => { c with sbes := es })).deliver x c.pc
        { vec := 14, cause := p64 e.cause, fa := e.addr, x0 := Word.raw e.pc }
  | .line =>
    match c.lines with
    | [] => s
    | l :: ls => (s.updCtx x (fun c => { c with lines := ls })).deliver x c.pc
        { vec := 64 + l.n, cause := p64 l.n, x0 := ⟨Tag.tick, l.time⟩ }

/-! ### Events (R197 to R206, R470, R738 to R741) -/

/-- The waiting WFE or WAITT of context x sees its latch: it completes, unless an exception is takeable, which is
taken instead with the latch kept (R199, R205, R224). -/
def State.wakeWait (s : State) (x : Nat) : State :=
  let c := s.ctx x
  if !c.latch then s
  else if (s.async x).isSome then s
  else
    match c.run with
    | .wfe => ((s.updCtx x (fun c => { c with latch := false })).retire x [c.pc] (c.pc + 4) none)
    | .waitt d _ => (((s.updCtx x (fun c => { c with latch := false })).wrReg x d (Word.fix 1)).retire x [c.pc] (c.pc + 4) none)
    | _ => s

/-- Set the latch of one context that runs (R197). -/
def State.latchCtx (s : State) (x : Nat) : State := (s.updCtx x (fun c => { c with latch := true })).wakeWait x

/-- Set a pending line of one context that runs; an already pending line keeps its time (R740). -/
def insertLine (l : LineEv) : List LineEv → List LineEv
  | [] => [l]
  | m :: ms => if l.n = m.n then m :: ms else if l.n < m.n then l :: m :: ms else m :: insertLine l ms

/-- The contexts that an event for presented context x reaches: in loose mode both cores' copies (R497). -/
def State.reached (s : State) (x : Nat) : List Nat := if s.isLoose x then [x, x + 4] else [x]

/-- An event held for a context of a gated cluster is a wake request, also during a Quiet entry (R673, R680). -/
def State.wantWake (s : State) (x : Nat) : State :=
  if (s.twin (twinOf x)).mode = .off ∨ (s.sys.quiet ≠ .none ∧ 32 ≤ x) then { s with sys := { s.sys with wakeReq := true } } else s

/-- An SEV, wake or doorbell for context x: to the presented context, or held at the Event Router while that does
not run (R197, R204, R477, R741). -/
def State.setLatch (s : State) (x0 : Nat) : State :=
  let x := s.presented x0
  if s.powered x then (s.reached x).foldl (fun s y => s.latchCtx y) s
  else (s.updCtx x (fun c => { c with evHeld := true })).wantWake x

/-- Line n asserted for context x at time tm (R470, R741). -/
def State.setLine (s : State) (x0 n : Nat) (tm : Pay) : State :=
  let x := s.presented x0
  if s.powered x then (s.reached x).foldl (fun s y => s.updCtx y (fun c => { c with lines := insertLine ⟨n, tm⟩ c.lines })) s
  else (s.updCtx x (fun c => { c with linesHeld := insertLine ⟨n, tm⟩ c.linesHeld })).wantWake x

/-- What the Event Router holds for context x is delivered once it runs (R204, R741). -/
def State.deliverHeld (s : State) (x : Nat) : State :=
  if !s.powered x then s
  else
    let c := s.ctx x
    let s1 := s.updCtx x (fun c => { c with evHeld := false, linesHeld := [] })
    let s2 := c.linesHeld.foldl (fun s l => s.setLine x l.n l.time) s1
    if c.evHeld then s2.setLatch x else s2

/-- Source i of the Event Router asserts at the present device time (R738 to R741). -/
def State.assertSource (s : State) (i : Nat) : State :=
  let b := s.reg (oEvr + 0x1000 + 8 * i)
  if !bit b 63 ∨ (regDesc (oEvr + 0x1000 + 8 * i)).isNone then s
  else
    let x := fld b 55 48
    let n := fld b 45 40
    let s1 := if bit b 61 then
        let c := s.ctx (s.presented x)
        let again := c.lines.any (fun l => l.n = n) || c.linesHeld.any (fun l => l.n = n)
        let sa := if again then s.setRf (oEvr + 0x1400 + 8 * i) 31 0 (satInc 32 (s.rf (oEvr + 0x1400 + 8 * i) 31 0)) else s
        sa.setLine x n s.time
      else s
    if bit b 62 then s1.setLatch x else s1

/-- Freeze or release a list of contexts. -/
def State.freeze (s : State) (xs : List Nat) : State := xs.foldl (fun s x => s.updCtx x (fun c => { c with frozen := true })) s
def State.unfreeze (s : State) (xs : List Nat) : State :=
  xs.foldl (fun s x => (s.updCtx x (fun c => { c with frozen := false })).deliverHeld x) s

end Sys2Proof.Machine
end

