-- ==== Sys2Proof/Machine/Pref.lean ====
section
/-!
DEFINITION. Resolving a PREF through the Object Residency Cache and the ownership of frames (R64 to R66, R581 to
R587).
-/
namespace Sys2Proof.Machine

/-- What resolving a PREF base gives. -/
inductive PrefRes where
  /-- the virtual address of the word named, before the displacement -/
  | va (a : Pay) (s : State)
  | exc (e : Exc)
  | park (block : Nat) (s : State)

/-- Fields of a PREF payload (R64). -/
def prefVg (p : Pay) : Nat := fld p 47 39
def prefBlock (p : Pay) : Nat := fld p 38 13
def prefWoff (p : Pay) : Nat := fld p 12 0

/-- NBLOCKS of the mounted store (R613). -/
def State.nblocks (s : State) : Nat := s.rf (oSto + 0x20) 25 0 + 1
def State.mounted (s : State) : Bool := bit (s.reg (oSto + 0x18)) 63

/-- Physical address of a block's map word (R579). -/
def State.mapAddr (s : State) (b : Nat) : Nat := s.sto.mapBase + 8 * b

/-- Data Bus Error raised while a PREF is resolved (R449). -/
def prefErr (c : Nat) (p : Pay) : Exc := { Exc.dataBus c p with x0 := Word.rawN (prefBlock p) }

/-- Frame state by frame number. -/
def State.frame? (s : State) (f : Nat) : Option FrameSt := Tbl.look s.sto.frames f

/-- Count a park on the cluster of context x (R614). -/
def State.countPark (s : State) (x : Nat) : State :=
  let r := oCl (clusterOfTwin (twinOf x)) + 0x3000
  s.setRf r 31 0 (satInc 32 (s.rf r 31 0))

/-- Read slots of the Store Engine (R583). -/
abbrev readSlots : Nat := 4096

/-- Waiting reads take the free read slots in the round robin of their senders (R32, R33). -/
def State.fillSlots : Nat → State → State
  | 0, s => s
  | fuel + 1, s =>
    let rs := s.sto.reads
    if rs.countP (·.slot) ≥ readSlots then s
    else match roundRobin StoRead.src s.sto.lastRead (rs.filter (fun r => !r.slot)) with
      | none => s
      | some w =>
        State.fillSlots fuel { s with sto := { s.sto with
          lastRead := w.src, reads := rs.map (fun r => if r.block = w.block then { r with slot := true } else r) } }

/-- A read of a block is asked of the Store Engine by source `src`; requests for one block share one read (R583). While every read
slot is taken it waits for one (R32). -/
def State.askBlock (s : State) (src b : Nat) (xq : Option Nat) : State :=
  let q := xq.toList
  if s.sto.reads.any (fun r => r.block = b) then
    { s with sto := { s.sto with reads := s.sto.reads.map (fun r => if r.block = b then { r with xq := r.xq ++ q } else r) } }
  else State.fillSlots 1 { s with sto := { s.sto with reads := s.sto.reads ++ [⟨b, [], q, src, false⟩] } }

/-- The read of a block leaves its slot, which a waiting read takes. -/
def State.endRead (s : State) (b : Nat) : State :=
  State.fillSlots 1 { s with sto := { s.sto with reads := s.sto.reads.filter (fun r => r.block ≠ b) } }

/-- The command a context runs (R587). -/
def State.cmdOf (s : State) (x : Nat) : Option Nat := Tbl.look s.runs x

/-- R587: may context x access frame f; what opening does. -/
def State.ownCheck (s : State) (x : Nat) (p : Pay) (f : Nat) (store : Bool) : PrefRes :=
  let a := p64 (s.sto.frvBase + 0x10000 * f + 8 * prefWoff p)
  match s.frame? f with
  | none => .va a s
  | some fr =>
    match fr.own with
    | .clean =>
      if !store then .va a s
      else match s.cmdOf x with
        | none => .exc (prefErr 9 p)
        | some l => .va a { s with sto := { s.sto with frames := Tbl.insert s.sto.frames f { fr with own := .opened l } } }
    | .opened l =>
      if s.cmdOf x = some l then .va a s
      else if store ∧ s.cmdOf x = none then .exc (prefErr 9 p)
      else .park fr.block (s.countPark x)
    | .sealed l _ =>
      if s.cmdOf x = some l then (if store then .exc (prefErr 9 p) else .va a s)
      else if store ∧ s.cmdOf x = none then .exc (prefErr 9 p)
      else .park fr.block (s.countPark x)

/-- R581: through the ORC, then the map word. -/
def State.orcCheck (s : State) (x : Nat) (p : Pay) (store : Bool) : PrefRes :=
  let b := prefBlock p
  let n := clusterOfTwin (twinOf x)
  match Tbl.look (s.cluster n).orc b with
  | some f => s.ownCheck x p f store
  | none =>
    if s.sto.mapBad.contains b then .exc (prefErr 0x0B p)
    else
      let s1 := s.setRf (oCl n + 0x3000) 63 32 (satInc 32 (s.rf (oCl n + 0x3000) 63 32))
      let m := (s1.word (s1.mapAddr b)).pay
      if bit m 62 then
        let f := fld m 47 28
        let s2 := s1.updCluster n (fun c =>
          { c with orc := Tbl.insert (if c.orc.length < 4096 then c.orc else c.orc.drop 1) b f })
        s2.ownCheck x p f store
      else if bit (s.reg (oSto + 0x18)) 61 ∧ !bit m 63 then .exc (prefErr 0x0A p)
      else .park b ((s1.countPark x).askBlock (s.coreOf x) b none)

/-- Resolving the PREF reads its block's map word (R581). -/
def State.readsMap (s : State) (x : Nat) (p : Pay) : Bool :=
  s.sto.job ≠ .mount && s.mounted && prefVg p = s.rf (oSto + 0x20) 63 55 && decide (prefBlock p < s.nblocks)
    && (Tbl.look (s.cluster (clusterOfTwin (twinOf x))).orc (prefBlock p)).isNone && !s.sto.mapBad.contains (prefBlock p)

/-- The map word of a block is met with an uncorrectable error: MAPUE, and the block stays lost until the next MOUNT (R609). -/
def State.mapLost (s : State) (b : Nat) : State :=
  { s.setReg (oSto + 0x18) (setBit (s.reg (oSto + 0x18)) 54 true) with sto := { s.sto with mapBad := (s.sto.mapBad ++ [b]).eraseDups } }

/-- The ORC of context x's cluster holds no entry for a block any more (R586). -/
def State.orcForget (s : State) (x b : Nat) : State := s.updCluster (clusterOfTwin (twinOf x)) (fun c => { c with orc := Tbl.erase c.orc b })

/-- Step 4 of R159 for a PREF base, generation first (R66, R582); `unreadable` says that the woken context learns that
no drive could read the block (R603). -/
def State.resolvePref (s : State) (x : Nat) (p : Pay) (store unreadable : Bool) : PrefRes :=
  if unreadable then .exc (prefErr 0x0A p)
  else if s.sto.job = .mount then .park (prefBlock p) (s.countPark x)
  else if !s.mounted ∨ prefVg p ≠ s.rf (oSto + 0x20) 63 55 then .exc (prefErr 6 p)
  else if prefBlock p ≥ s.nblocks then .exc (prefErr 8 p)
  else s.orcCheck x p store

/-- Contexts parked on a block run again and resolve it again (R583, R588). -/
def State.wakeBlock (s : State) (b : Nat) (g : List Grant) : State :=
  (s.ctxs.filter (fun e => e.2.run = .pref b)).foldl
    (fun s e => s.updCtx e.1 (fun c => { c with run := .run, grants := c.grants ++ g })) s

end Sys2Proof.Machine
end

