-- ==== Sys2Proof/Machine/Status.lean ====
section
/-!
DEFINITION. What many blocks share of SYS and BGS: the device mode with its automatic changes (R649 to R654, R662),
the telemetry ring (R719, R720) and saturating counters.
-/
namespace Sys2Proof.Machine

/-- Add 1 to a saturating counter register field. -/
def State.bump (s : State) (off hi lo : Nat) : State := s.setRf off hi lo (satInc (hi + 1 - lo) (s.rf off hi lo))
/-- Add 1 to a 64-bit counter register. -/
def State.count (s : State) (off : Nat) : State := s.bump off 63 0

/-! ### Telemetry -/

/-- Write an event to the telemetry ring, or merge it into a record of the last millisecond (R720). -/
def State.telem (s : State) (src code : Nat) (addr : Pay) (extra : Pay := 0) : State :=
  let seq := s.rf (oBgs + 0x30) 31 0
  let near (r : TelRec) : Bool := r.src = src && r.code = code && decide ((s.time - r.time).toNat ≤ 1000000)
  if s.bgs.tel.any near then
    { s with bgs := { s.bgs with tel := s.bgs.tel.map (fun r => if near r then { r with count := satInc 16 r.count } else r) } }
  else
    let t := s.bgs.tel ++ [⟨seq, src, code, 1, s.time, addr, extra⟩]
    { (s.setRf (oBgs + 0x30) 31 0 (seq + 1)) with
      bgs := { s.bgs with tel := if t.length > 4096 then t.drop 1 else t } }

/-- A unit's read at pa meets what the command says: a correction is counted (R93). -/
def State.eccSeen (s : State) (src pa : Nat) (e : Ecc) : State := if e = .corrected then s.telem src 4 (p64 pa) else s

/-- Word w of a telemetry record (R720). -/
def TelRec.word (r : TelRec) (w : Nat) : Word :=
  if w = 0 then Word.raw (atFld 63 48 r.count ||| atFld 47 40 r.src ||| atFld 39 32 r.code ||| atFld 31 0 r.seq)
  else if w = 1 then ⟨Tag.tick, r.time⟩
  else if w = 2 then Word.raw r.addr
  else Word.raw r.extra

/-- Codes of R720. -/
abbrev telMeshCorr : Nat := 1
abbrev telFabTo : Nat := 2
abbrev telLate : Nat := 3
abbrev telDdrCorr : Nat := 4
abbrev telDdrUe : Nat := 5
abbrev telL1Par : Nat := 6
abbrev telL2Corr : Nat := 7
abbrev telL2Ue : Nat := 8
abbrev telKeepCorr : Nat := 9
abbrev telKeepUe : Nat := 10
abbrev telJnvRemap : Nat := 11
abbrev telJnvFail : Nat := 12
abbrev telSensor : Nat := 13
abbrev telPass : Nat := 14

/-! ### L2 errors (R403) -/

/-- Mark a line of cluster n's L2 poisoned (R402, R403). -/
def State.poison (s : State) (n line : Nat) : State :=
  match s.l2At n line with
  | some m => s.updCluster n (fun c => { c with l2 := Tbl.insert c.l2 line { m with poison := true } })
  | none => s

/-- The dirty data of a bad L1D line are lost (R402): its L2 copy becomes poisoned; a Keep SRAM line has none, and memory keeps
what it held. -/
def State.loseL1d (s : State) (k line : Nat) : State :=
  let s1 := s.updCore k (fun c => { c with l1d := Tbl.erase c.l1d line })
  if isKeepLine line then s1.discard line else s1.poison (clusterOfCore k) line

/-- FATAL log record (R515): a Machine Check that the twin fault path takes as fatal for the context. -/
def State.logFatal (s : State) (x pa : Nat) (pc : Pay) : State :=
  s.logRec 0x0A (twinOf x) 0 x s.time (p64 pa) pc

/-- A dirty L1D copy of a line is found bad by an eviction, a sweep or a coherence request (R402). -/
def State.l1dBad (s : State) (line : Nat) : State :=
  s.cores.foldl (fun s e =>
    match s.l1dAt e.1 line with
    | some l =>
      if !l.dirty then (s.updCore e.1 (fun c => { c with l1d := Tbl.erase c.l1d line })).telem e.1 telL1Par (p64 (64 * line))
      else
        ((s.loseL1d e.1 line).logFatal l.writer (64 * line) ((s.ctx l.writer).pc)).updCtx l.writer (fun c =>
          { c with mcs := c.mcs ++ [⟨3, p64 (64 * line)⟩] })
    | none => s) s

/-- The L2 meets an uncorrectable error, found by source `src`: it is recorded; a dirty line becomes poisoned and the
source of the cluster is raised, a clean one leaves (R403, R737). -/
def State.l2Uncorr (s : State) (src n line : Nat) (dirty : Bool) : State :=
  let s1 := (s.setReg (oCl n + 0x1028) (atFld 47 6 line)).telem src telL2Ue (p64 (64 * line))
  if dirty then
    ((s1.poison n line).setReg (oCl n + 0x1008) (setBit (s1.reg (oCl n + 0x1008)) 60 true)).assertSource (0x5A + n)
  else s1.l2Drop n line true

/-- The tag entry of a line of cluster n's L2 is uncorrectable, found by source `src` (R403): as for a dirty line, and every line
of the set that no other entry names is poisoned with it. -/
def State.l2TagUncorr (s : State) (src n line : Nat) : State :=
  match s.l2At n line with
  | some m => (s.updCluster n (fun c => { c with tagBad := (line % 4096, m.way) :: c.tagBad })).l2Uncorr src n line true
  | none => s

/-- The L2 corrects a single-bit error (R403). -/
def State.l2Corrected (s : State) (src n line : Nat) : State :=
  (s.bump (oCl n + 0x1008) 31 0).telem src telL2Corr (p64 (64 * line))

/-! ### The device mode -/

/-- The mode codes of R649. -/
abbrev mReset : Nat := 0
abbrev mBoot : Nat := 1
abbrev mRun : Nat := 2
abbrev mDegraded : Nat := 3
abbrev mSafe : Nat := 4
abbrev mReserve : Nat := 5
abbrev mService : Nat := 6
abbrev mQuiet : Nat := 7

def State.mode (s : State) : Nat := s.rf 0x10 2 0
def State.modeBusy (s : State) : Bool := bit (s.reg 0x10) 15
/-- Enter a mode: PREV takes the mode before (R676). -/
def State.setMode (s : State) (m : Nat) : State := (s.setRf 0x10 10 8 s.mode).setRf 0x10 2 0 m
def State.modeResult (s : State) (r : Nat) : State := s.setRf 0x10 14 11 r

/-- A bit of SYS_STAT. -/
def State.sysStat (s : State) (b : Nat) (v : Bool) : State := s.setReg 0x28 (setBit (s.reg 0x28) b v)

/-- The twin numbers. -/
def allTwins : List Nat := List.range 32

/-- The conditions of R652 other than CLPLL, which is sticky. -/
def State.twinF (s : State) : Bool := allTwins.any (fun t => (s.twin t).mode = .solo || (s.twin t).mode = .fenced)
def State.cmpL (s : State) : Bool := allTwins.any (fun t => (s.twin t).cmpLost)
def State.dlfAny (s : State) : Bool := allTwins.any (fun t => (s.twin t).dlf)
def State.driveBad (s : State) : Bool := bit (s.reg (oSto + 0x18)) 60 || bit (s.reg (oSto + 0x18)) 61

/-- A Keeper twin keeps: in tight, loose or solo mode, or in recovery or transition (R653). -/
def Twin.keeps (w : Twin) : Bool := w.moving || w.mode = .tight || w.mode = .loose || w.mode = .solo

/-- SYS_STAT shows the conditions of R652. -/
def State.showDegraded (s : State) : State :=
  (((s.sysStat 39 s.twinF).sysStat 38 s.cmpL).sysStat 37 s.dlfAny).sysStat 36 s.driveBad

/-- A condition of R652 holds. -/
def State.degraded (s : State) : Bool := s.rf 0x28 39 35 ≠ 0

/-- "Run or Degraded" (R650). -/
def State.runMode (s : State) : Nat := if s.degraded then mDegraded else mRun

/-- The fault bits of SYS_STAT (R662). -/
def State.faults (s : State) : Bool := s.rf 0x28 62 59 ≠ 0

/-- An automatic entry to Safe-Hold (R650, R651): after the running transition when one runs. -/
def State.autoSafeHold (s : State) : State :=
  if s.modeBusy then { s with sys := { s.sys with autoSafe := true } }
  else if s.mode = mBoot ∨ s.mode = mRun ∨ s.mode = mDegraded ∨ s.mode = mService ∨ s.mode = mQuiet then s.setMode mSafe
  else s

/-- R653: NOKEEP follows the Keeper twins. -/
def State.checkKeep (s : State) : State :=
  if (s.twin 0).keeps ∨ (s.twin 1).keeps ∨ bit (s.reg 0x28) 62 ∨ s.sys.inReset then s
  else (s.sysStat 62 true).autoSafeHold

/-- R662: SAFE_HB toggles. -/
def State.heartbeat (s : State) : Bool :=
  (s.mode = mRun || s.mode = mDegraded || s.mode = mQuiet) && s.sys.armed && !s.faults && !s.sys.autoSafe

/-- What follows by itself from a changed condition: SYS_STAT, NOKEEP, Run or Degraded, the heartbeat. -/
def State.refresh (s0 : State) : State :=
  let s := s0.showDegraded.checkKeep
  let s1 := if s.mode = mRun ∧ s.degraded then s.setMode mDegraded
    else if s.mode = mDegraded ∧ !s.degraded then s.setMode mRun else s
  s1.sysStat 63 s1.heartbeat

/-- The Pulse Unit drives its balls (R746). -/
def State.plsDriven (s : State) : Bool :=
  (s.mode = mRun || s.mode = mDegraded || s.mode = mService || s.mode = mQuiet) && !s.sys.autoSafe

/-- End a running transition (R651): BUSY clears with the result, and a waiting automatic Safe-Hold follows. -/
def State.endTransition (s : State) (r : Nat) : State :=
  let s1 := (s.setRf 0x10 15 15 0).modeResult r
  let s2 := if s1.sys.autoSafe then ({ s1 with sys := { s1.sys with autoSafe := false } } : State).autoSafeHold else s1
  s2.refresh

/-! ### Sources of single rules -/

/-- Fitted DRAM holds the byte range (R37). -/
def State.inDram (s : State) (pa len : Nat) : Bool := decide (pa + len ≤ s.dramSize)

/-- Payload bytes of memory as the IO Hub or an engine reads them (R89, R392). -/
def State.engBytes (s : State) (pa n : Nat) : List (BitVec 8) := s.bytes pa n

/-- Payload bytes written by the IO Hub or an engine: cached copies leave, and every touched word becomes RAW (R89,
R392). -/
def State.engPutBytes (s : State) (pa : Nat) (bs : List (BitVec 8)) : State :=
  let lines := (List.range ((pa % 64 + bs.length + 63) / 64)).map (fun i => pa / 64 + i)
  (lines.foldl (fun s l => (s.confirmLine l).cohWrite none none l) s).setBytesRaw pa bs

/-- The device time reaches or has passed a moment. -/
def State.reached? (s : State) (t : Pay) : Bool := decide (t.toNat ≤ s.time.toNat)

/-- Let device time pass to a moment, if it lies ahead. -/
def State.timeTo (s : State) (t : Pay) : State := if s.time.toNat < t.toNat then { s with time := t } else s

end Sys2Proof.Machine
end

