-- ==== Sys2Proof/Machine/Store.lean ====
section
/-!
DEFINITION. The Store Engine (R574 to R614): residency of blocks and frames, the transfer queue, sealing and the
release of store commits, the journal and its checkpoints, drives and their faults, format, mount and resync.
-/
namespace Sys2Proof.Machine

def State.stoStat (s : State) (b : Nat) : Bool := bit (s.reg (oSto + 0x18)) b
def State.setStoStat (s : State) (b : Nat) (v : Bool) : State := s.setReg (oSto + 0x18) (setBit (s.reg (oSto + 0x18)) b v)
def State.updSto (s : State) (f : Sto → Sto) : State := { s with sto := f s.sto }
def State.mountResult (s : State) (r : Nat) : State := s.setRf (oSto + 0x18) 51 48 r

/-- Journal records the store journal can hold (R594). -/
abbrev journalMax : Nat := 131072
def State.journal (s : State) : List JRec := s.ldg.live.journal
def State.setJournal (s : State) (j : List JRec) : State :=
  { s with ldg := { s.ldg with live := { s.ldg.live with journal := j } } }

/-- The registers that follow from the store's state: FREEFR and JFULL (R612). -/
def State.stoSync (s : State) : State :=
  let s1 := s.setRf (oSto + 0x18) 19 0 (if s.mounted then s.sto.nfr - s.sto.frames.length else 0)
  s1.setStoStat 55 (decide (s1.journal.length ≥ journalMax))

/-! ### Drives -/

/-- Drive n is configured, and not fenced (R600, R601). -/
def State.drvIn (s : State) (n : Nat) : Bool := decide (s.sto.drives / 2 ^ n % 2 = 1)
def State.drvFenced (s : State) (n : Nat) : Bool := s.stoStat (58 + n)
def State.drvOk (s : State) (n : Nat) : Bool := s.drvIn n && !s.drvFenced n
/-- Drives that a write goes to: with a new member being copied, that one too (R604). -/
def State.writable (s : State) : List Nat :=
  [0, 1].filter (fun n => s.drvOk n || (s.drvIn n && s.sto.job = .resync))

/-! ### What a drive holds (R575 to R578) -/

/-- The first LBA of slot n, of a checkpoint area and of a superblock copy (R575). -/
def slotLba (n : Nat) : Nat := 262656 + 19 * n
def ckptLba (b : Bool) : Nat := if b then 131344 else 256
abbrev sbLbaA : Nat := 0
abbrev sbLbaB : Nat := 8
/-- The LBAs that a drive must hold for a number of slots. -/
def minLbas (nslots : Nat) : Nat := 262656 + 19 * nslots

/-- Bytes filled with zeros up to a multiple of one LBA. -/
def lbaPad (bs : List (BitVec 8)) : List (BitVec 8) := bs ++ List.replicate ((4096 - bs.length % 4096) % 4096) 0

/-- The 19 LBAs of a slot: payload, tags, header with its digest (R576). -/
def slotImage (vg b lpos : Nat) (get : Nat → Word) : List (BitVec 8) :=
  let data := (List.range 8192).flatMap (fun i => leBytes 8 (get i).pay.toNat) ++ (List.range 8192).map (fun i => (get i).tag)
  let head := "HR7264SL".toList.map (fun c => BitVec.ofNat 8 c.toNat) ++ leBytes 2 vg ++ leBytes 2 0 ++ leBytes 4 b ++ leBytes 4 lpos
    ++ List.replicate 12 0
  data ++ lbaPad (head ++ Config.shake256 (data ++ head) 32)

/-- A superblock (R577). -/
def sbImage (vg nblocks nslots epoch : Nat) (cur : Bool) : List (BitVec 8) :=
  let head := "HR7264SB".toList.map (fun c => BitVec.ofNat 8 c.toNat) ++ leBytes 2 vg ++ leBytes 2 0 ++ leBytes 4 nblocks
    ++ leBytes 4 nslots ++ leBytes 4 0 ++ leBytes 8 epoch ++ leBytes 8 (b2n cur) ++ leBytes 8 0 ++ leBytes 8 0 ++ leBytes 8 0
  lbaPad (head ++ Config.shake256 head 32)

/-- A checkpoint area: header, stamp table and map image (R578). -/
def ckptImage (epoch pos nblocks : Nat) (stamp slot : Nat → Nat) : List (BitVec 8) :=
  let body := (List.range 4096).flatMap (fun n => leBytes 8 (stamp n)) ++ lbaPad ((List.range nblocks).flatMap (fun b => leBytes 8 (slot b)))
  lbaPad (leBytes 8 epoch ++ leBytes 8 pos ++ leBytes 8 0 ++ leBytes 8 0 ++ Config.shake256 body 32) ++ body

/-- A command goes to each of the drives given. -/
def State.sendDrives (s : State) (ns : List Nat) (c : Nat → DriveCmd) : State :=
  s.updSto (fun t => { t with drv := (ns.map c).reverse ++ t.drv })

/-- Both superblock copies, A and then B, with Force Unit Access (R577). -/
def State.writeSb (s : State) (ns : List Nat) : State :=
  let img := sbImage (s.rf (oSto + 0x20) 63 55) (s.rf (oSto + 0x20) 25 0 + 1) (s.rf (oSto + 0x20) 54 28 + 1) s.sto.epoch s.sto.cur
  (s.sendDrives ns (fun n => .write n sbLbaA true img)).sendDrives ns (fun n => .write n sbLbaB true img)

/-- The stamp-table entry of a stream: SEQ in [47:0], effect index in [55:48] (R578). -/
def Sto.stampEntry (t : Sto) (n : Nat) : Nat :=
  let v := Tbl.get (fun _ => 0) t.stamps n
  v / 256 + 2 ^ 48 * (v % 256)

/-- The drive that serves a read of a block: by its lowest bit, else the other (R600). -/
def State.readDrive (s : State) (r : StoRead) : Option Nat :=
  let p := r.block % 2
  if s.drvOk p && !r.failed.contains p then some p
  else if s.drvOk (1 - p) && !r.failed.contains (1 - p) then some (1 - p) else none

/-! ### The map and frames -/

/-- A map word as the Store Engine reads it; nothing of Keep SRAM reaches it (R39, assumption 99). -/
def State.mapWord (s : State) (b : Nat) : Pay := if s.region (s.mapAddr b) = .keep then 0 else (s.word (s.mapAddr b)).pay
def State.setMapWord (s : State) (b : Nat) (v : Pay) : State := s.engWrite (s.mapAddr b) (Word.raw v)
/-- The slot that holds a block, or none for a zero block (R579). -/
def State.mapSlot (s : State) (b : Nat) : Option Nat := if bit (s.mapWord b) 63 then none else some (fld (s.mapWord b) 27 0)
/-- The frame of a resident block. -/
def State.frameOf (s : State) (b : Nat) : Option Nat := if bit (s.mapWord b) 62 then some (fld (s.mapWord b) 47 28) else none

/-- The map word of a block in the image of a checkpoint: [62] Z, [27:0] SLOT (R578). -/
def State.imageEntry (s : State) (b : Nat) : Nat := if bit (s.mapWord b) 63 then 2 ^ 62 else fld (s.mapWord b) 27 0

/-- A block leaves every Object Residency Cache (R585). -/
def State.orcDrop (s : State) (b : Nat) : State :=
  s.clusterList.foldl (fun s n => s.updCluster n (fun c => { c with orc := Tbl.erase c.orc b })) s
def State.orcClear (s : State) : State := s.clusterList.foldl (fun s n => s.updCluster n (fun c => { c with orc := [] })) s

/-- Take a frame from its block: not resident any more (R585, R588). -/
def State.freeFrame (s : State) (f : Nat) : State :=
  match s.frame? f with
  | none => s
  | some fr =>
    let s1 := s.setMapWord fr.block (setBit (setFld (s.mapWord fr.block) 47 28 0) 62 false)
    (s1.orcDrop fr.block).updSto (fun t => { t with frames := Tbl.erase t.frames f })

/-- The next frame in clock order that may be evicted (R585). -/
def State.victimFrame (s : State) : Option Nat :=
  let ok (f : Nat) : Bool := match s.frame? f with | some fr => fr.own = .clean && fr.pins = 0 | none => false
  match firstN (s.sto.nfr - s.sto.hand) s.sto.hand ok with
  | some f => some f
  | none => firstN s.sto.hand 0 ok

/-- Evict one frame, in clock order; none can be (R585). -/
def State.evictOne (s : State) : Option State :=
  s.victimFrame.map (fun f => (s.freeFrame f).updSto (fun t => { t with hand := (f + 1) % t.nfr }))

/-- A free frame (the lowest: assumption 21), after an eviction when there is none. -/
def State.takeFrame (s : State) : Option (Nat × State) :=
  let free (s : State) := firstN s.sto.nfr 0 (fun f => (s.frame? f).isNone)
  match free s with
  | some f => some (f, s)
  | none =>
    match s.evictOne with
    | none => none
    | some s1 => (free s1).map (fun f => (f, s1))

/-- The words of a block written into frame f through the IO Hub (R583, R584). -/
def State.fillFrame (s : State) (f : Nat) (get : Nat → Word) : State :=
  forN 8192 0 (fun i s => s.engWrite (s.sto.frpBase + 0x10000 * f + 8 * i) (get i)) s

/-! ### The transfer queue -/

/-- Descriptors in the ring, and the address of descriptor i (R595, R610). -/
def State.xqSize (s : State) : Nat := 2 ^ s.rf (oSto + 0x48) 51 48
def State.xqAddr (s : State) (i : Nat) : Nat := (s.rf (oSto + 0x48) 47 5) * 32 + 32 * i
def State.xqWord (s : State) (i w : Nat) : Word := s.word (s.xqAddr i + 8 * w)
/-- Descriptor i lies between HEAD and TAIL (R598). -/
def State.xqQueued (s : State) (i : Nat) : Bool :=
  let n := s.xqSize
  let h := s.rf (oSto + 0x58) 11 0
  let t := s.rf (oSto + 0x50) 11 0
  decide (i < n ∧ (i + n - h % n) % n < (t + n - h % n) % n) && !s.sto.doneXq.contains i

/-- HEAD passes descriptors whose status is written (R598). -/
def advanceHead : Nat → State → State
  | 0, s => s
  | fuel + 1, s =>
    let h := s.rf (oSto + 0x58) 11 0
    if s.sto.doneXq.contains h then
      advanceHead fuel ((s.setRf (oSto + 0x58) 11 0 ((h + 1) % s.xqSize)).updSto (fun t => { t with doneXq := t.doneXq.filter (· ≠ h) }))
    else s

/-- Write the status of descriptor i (R597, R598). -/
def State.xqDone (s : State) (i code result : Nat) : State :=
  let w := atFld 63 63 1 ||| atFld 55 48 code ||| atFld 27 0 result
  let s1 := s.engWrite (s.xqAddr i + 24) (Word.raw w)
  let s2 := s1.updSto (fun t => { t with taken := t.taken.filter (· ≠ i), doneXq := t.doneXq ++ [i] })
  let s3 := advanceHead 4097 s2
  if bit (s.xqWord i 0).pay 58 then s3.assertSource 0x56 else s3

/-- The codes of R597. -/
abbrev xqOk : Nat := 0
abbrev xqLength : Nat := 1
abbrev xqRange : Nat := 2
abbrev xqOp : Nat := 3
abbrev xqAddrBad : Nat := 4
abbrev xqMedia : Nat := 5
abbrev xqOwner : Nat := 6
abbrev xqFull : Nat := 7
abbrev xqNotMounted : Nat := 8
abbrev xqDrive : Nat := 9
abbrev xqUe : Nat := 10

/-- Fields of a descriptor (R595). -/
def State.xqOpc (s : State) (i : Nat) : Nat := fld (s.xqWord i 0).pay 63 60
def State.xqBlock (s : State) (i : Nat) : Nat := fld (s.xqWord i 0).pay 25 0
def State.xqLpos (s : State) (i : Nat) : Nat := fld (s.xqWord i 1).pay 63 32

/-- A reserved OP, a word not tagged RAW, or a reserved or unused field not zero (R595, R597); or a ring that the engine cannot read
(R39, assumption 99). -/
def State.xqMalformed (s : State) (i : Nat) : Bool :=
  let op := s.xqOpc i
  let w0 := (s.xqWord i 0).pay
  let w1 := (s.xqWord i 1).pay
  let w2 := (s.xqWord i 2).pay
  let keep1 := if op = 1 then maskFld 29 16 ||| maskFld 12 0 else if op = 5 then maskFld 63 32 else 0
  op = 0 || 6 ≤ op || fld w0 57 26 ≠ 0 || (bit w0 59 && op ≠ 5) || (w1 &&& ~~~keep1) ≠ 0
    || (if op = 1 then fld w2 63 48 ≠ 0 || fld w2 2 0 ≠ 0 else w2 ≠ 0)
    || [0, 1, 2].any (fun w => (s.xqWord i w).tag ≠ Tag.raw) || s.region (s.xqAddr i) = .keep

/-- A slot that no block holds (the lowest: assumption 21). -/
def State.freeSlot (s : State) : Option Nat :=
  firstN (s.rf (oSto + 0x20) 54 28 + 1) 0 (fun n => (Tbl.look s.sto.slots n).isNone)

/-- A command runs (R587). -/
def State.lposRuns (s : State) (l : Nat) : Bool := s.runs.any (fun e => e.2 = l)

/-- Frame f sealed under command l with a slot, or as a zero block. -/
def State.sealFrame (s : State) (f l : Nat) (slot : Option Nat) : State :=
  match s.frame? f with
  | none => s
  | some fr => s.updSto (fun t => { t with frames := Tbl.insert t.frames f { fr with own := .sealed l slot } })

/-- Frames that hold a pin. -/
def State.pinned (s : State) : Nat := s.sto.frames.countP (fun e => e.2.pins > 0)

/-- The words of block b's frame f go to slot n of each drive given, as command l seals them (R576, R589). -/
def State.slotWrite (s : State) (ns : List Nat) (f b l n : Nat) : State :=
  let base := s.sto.frpBase + 0x10000 * f
  let img := slotImage (s.rf (oSto + 0x20) 63 55) b l (fun k => s.word (base + 8 * k))
  s.sendDrives ns (fun d => .write d (slotLba n) true img)

/-- READ of a resident, clean frame f (R596). -/
def State.xqRead (s : State) (i f : Nat) (e : Ecc) : State :=
  let w1 := (s.xqWord i 1).pay
  let n := fld w1 29 16
  let off := fld w1 12 0
  let dst := fld (s.xqWord i 2).pay 47 3 * 8
  if e = .bad then (s.freeFrame f).xqDone i xqUe 0
  else
    let base := s.sto.frpBase + 0x10000 * f + 8 * off
    let r := forN n 0 (fun k s => let p := s.engRead (base + 8 * k); p.2.engWrite (dst + 8 * k) p.1) (s.eccSeen 0x43 base e)
    r.xqDone i xqOk n

/-- SEAL of resident frame f of block b for command l (R589, R596, R597); a zero seal is journaled too (assumption 110). -/
def State.xqSeal (s : State) (i f b l : Nat) (fr : FrameSt) (e : Ecc) : State :=
  let zero := bit (s.xqWord i 0).pay 59
  let mine := fr.own = .clean || fr.own = .opened l
  match fr.own with
  | .sealed m slot => if m = l then s.xqDone i xqOk (slot.getD 0) else s.xqDone i xqOwner 0
  | _ =>
    if !mine then s.xqDone i xqOwner 0
    else if zero then
      (if s.journal.length ≥ journalMax then s
       else ((s.sealFrame f l none).setJournal (s.journal ++ [.sealed b none l])).xqDone i xqOk 0)
    else if fr.own = .clean then (s.sealFrame f l (s.mapSlot b)).xqDone i xqOk ((s.mapSlot b).getD 0)
    else if e = .bad then ((s.freeFrame f).xqDone i xqUe 0)
    else if s.writable.isEmpty then s.xqDone i xqDrive 0
    else if s.journal.length ≥ journalMax then s
    else match s.freeSlot with
      | none => s.xqDone i xqFull 0
      | some n => ((s.eccSeen 0x43 (s.sto.frpBase + 0x10000 * f) e).slotWrite s.writable f b l n).updSto (fun t =>
          { t with seals := t.seals ++ [⟨i, b, l, n, s.writable⟩], slots := Tbl.insert t.slots n b })

/-- Run descriptor i as far as it goes now (R595 to R597): it ends, or waits for its block or its owner. `e` is
what the frame's read meets, `m` what the read of the map word meets: an uncorrectable error there ends the descriptor with UE
(R609, assumption 100). -/
def State.xqRun (s0 : State) (i : Nat) (e m : Ecc) : State :=
  let s := s0.updSto (fun t => { t with taken := if t.taken.contains i then t.taken else t.taken ++ [i] })
  let op := s.xqOpc i
  let b := s.xqBlock i
  let w1 := (s.xqWord i 1).pay
  if s.sto.seals.any (fun e => e.xq = i) then s
  else if s.xqMalformed i then s.xqDone i xqOp 0
  else if !s.mounted then s.xqDone i xqNotMounted 0
  else if b ≥ s.nblocks then s.xqDone i xqRange 0
  else if op = 1 ∧ (fld w1 29 16 = 0 ∨ fld w1 12 0 + fld w1 29 16 > 8192) then s.xqDone i xqLength 0
  else if op = 1 ∧ !s.inDram (fld (s.xqWord i 2).pay 47 3 * 8) (8 * fld w1 29 16) then s.xqDone i xqAddrBad 0
  else if op = 5 ∧ !s.lposRuns (s.xqLpos i) then s.xqDone i xqOwner 0
  else if s.sto.mapBad.contains b then s.xqDone i xqUe 0
  else if m = .bad then (s.mapLost b).xqDone i xqUe 0
  else
    let s := s.eccSeen 0x43 (s.mapAddr b) m
    match s.frameOf b with
    | none => if op = 4 then s.xqDone i xqOk 0 else s.askBlock 0x43 b (some i)
    | some f =>
      match s.frame? f with
      | none => s
      | some fr =>
        if op = 1 then (if fr.own = .clean then s.xqRead i f e else s)
        else if op = 2 then s.xqDone i xqOk 0
        else if op = 3 then
          if fr.pins = 0 ∧ s.sto.nfr - s.pinned ≤ 256 then s.xqDone i xqFull 0
          else (s.updSto (fun t => { t with frames := Tbl.insert t.frames f { fr with pins := fr.pins + 1 } })).xqDone i xqOk 0
        else if op = 4 then
          (s.updSto (fun t => { t with frames := Tbl.insert t.frames f { fr with pins := fr.pins - 1 } })).xqDone i xqOk 0
        else s.xqSeal i f b (s.xqLpos i) fr e

/-- Descriptors that wait run again after a change of residency or ownership. -/
def State.xqRetry (s : State) : State := (s.sto.taken.foldl (fun s i => s.xqRun i .clean .clean) s).stoSync

/-! ### Residency -/

/-- A block becomes resident with the words given; waiting reads keep their slot while no frame is free (R583, R585). -/
def State.install (s : State) (b : Nat) (get : Nat → Word) : Option State :=
  s.takeFrame.map (fun p =>
    let f := p.1
    let s1 := (p.2.fillFrame f get).setMapWord b (setBit (setFld (p.2.mapWord b) 47 28 f) 62 true)
    let s2 := (s1.updSto (fun t => { t with frames := Tbl.insert t.frames f ⟨b, .clean, 0⟩ })).endRead b
    (s2.wakeBlock b []).xqRetry)

/-- No drive can read a block (R602, R603). -/
def State.unreadable (s : State) (b : Nat) : State :=
  let xs := (s.sto.reads.filter (fun r => r.block = b)).flatMap (·.xq)
  let s1 := s.endRead b
  (xs.foldl (fun s i => s.xqDone i xqMedia 0) s1).wakeBlock b [Grant.noBlock]

/-- Contexts parked on a block run again when its frame changes hands (R587, R588). -/
def State.freeParked (s : State) (b : Nat) : State := s.wakeBlock b []

/-- Drop the frames and slots of command l (R588). -/
def State.dropFrames (s : State) (l : Nat) : State :=
  let mine (e : Nat × FrameSt) : Bool := match e.2.own with | .opened m => m = l | .sealed m _ => m = l | .clean => false
  let fs := s.sto.frames.filter mine
  let slotsOf := fs.filterMap (fun e => match e.2.own with
    | .sealed _ (some n) => if s.mapSlot e.2.block = some n then none else some n
    | _ => none)
  let noted := s.journal.filterMap (fun r => match r with
    | .sealed b (some n) m => if m ≠ l ∨ s.mapSlot b = some n then none else some n
    | _ => none)
  let pend := s.sto.seals.filter (fun e => e.lpos = l)
  let s1 := fs.foldl (fun s e => s.freeFrame e.1) s
  let s2 := s1.updSto (fun t =>
    { t with slots := (slotsOf ++ noted ++ pend.map (·.slot)).foldl (fun m n => Tbl.erase m n) t.slots
             seals := t.seals.filter (fun e => e.lpos ≠ l) })
  let s3 := s2.setJournal (s2.journal.filter (fun r => match r with | .sealed _ _ m => m ≠ l | .commit _ _ _ _ => true))
  let s4 := pend.foldl (fun s e => s.xqDone e.xq xqOwner 0) s3
  (fs.foldl (fun s e => s.freeParked e.2.block) s4).xqRetry

/-- After DONE, frames still under l that its commits did not make clean are dropped in the same way (R588). -/
def State.retireFrames (s : State) (l : Nat) : State := s.dropFrames l

/-! ### Store commits (R590 to R593) -/

/-- R590: the payload of a store commit is acceptable for command l. -/
def State.commitOk (s : State) (ws : List Word) (len l : Nat) : Bool :=
  let bs := ws.map (fun w => w.pay.toNat)
  len % 8 = 0 && decide (1 ≤ ws.length ∧ ws.length ≤ 512) && ws.all (fun w => w.tag = Tag.raw) && bs.all (fun b => decide (b < s.nblocks)) && bs.Nodup
    && bs.all (fun b => match s.frameOf b with
      | some f => (match s.frame? f with
        | some fr => (match fr.own with | .sealed m _ => m = l | _ => false)
        | none => false)
      | none => false)

/-- One entry of a released store commit: journal, map, old slot, clean frame (R591). -/
def State.commitEntry (s : State) (stream stamp b : Nat) : State :=
  match s.frameOf b with
  | none => s
  | some f =>
    match s.frame? f with
    | none => s
    | some fr =>
      match fr.own with
      | .sealed _ slot =>
        let old := s.mapSlot b
        let m := match slot with
          | some n => setFld (setBit (s.mapWord b) 63 false) 27 0 n
          | none => setFld (setBit (s.mapWord b) 63 true) 27 0 0
        let s1 := (s.setJournal (s.journal ++ [.commit b slot stream stamp])).setMapWord b m
        let s2 := s1.updSto (fun t =>
          { t with slots := (match old with | some n => if slot = old then t.slots else Tbl.erase t.slots n | none => t.slots)
                   frames := Tbl.insert t.frames f { fr with own := .clean } })
        s2.freeParked b
      | _ => s

/-- A replayed commit finds its sealed blocks in the journal (R593): the block takes the slot that l sealed, or becomes a zero block. -/
def State.commitSealed (s : State) (stream stamp l b : Nat) : State :=
  match s.journal.findSome? (fun r => match r with | .sealed c n m => if c = b ∧ m = l then some n else none | .commit _ _ _ _ => none) with
  | none => s
  | some n =>
    let old := s.mapSlot b
    let m := setFld (setBit (s.mapWord b) 63 n.isNone) 27 0 (n.getD 0)
    let s1 := (s.setJournal (s.journal ++ [.commit b n stream stamp])).setMapWord b m
    s1.updSto (fun t => { t with slots := (match old with | some o => if n = some o then t.slots else Tbl.erase t.slots o | none => t.slots) })

/-- The stamp of an effect (R592): SEQ, then effect index. -/
def stampOf (seq idx : Nat) : Nat := seq * 256 + idx

/-- Release a store commit (R591, R592); it waits, answering none, while no store is mounted or the journal is full. -/
def State.storeRelease (s : State) (stream seq idx l : Nat) (blocks : List Nat) : Option State :=
  if !s.mounted then none
  else if s.journal.length + blocks.length > journalMax then none
  else if stampOf seq idx ≤ Tbl.get (fun _ => 0) s.sto.stamps stream then some s
  else
    let st := stampOf seq idx
    let s1 := blocks.foldl (fun s b => if (s.frameOf b).isSome then s.commitEntry stream st b else s.commitSealed stream st l b) s
    some ((s1.updSto (fun t => { t with stamps := Tbl.insert t.stamps stream st })).xqRetry)

/-! ### Journal and checkpoints (R594) -/

/-- Journal fill that starts a checkpoint. -/
def State.ckptLimit (s : State) : Nat := journalMax * min 90 (max 1 (s.rf (oSto + 0x10) 47 40)) / 100

def State.checkpoint (s : State) : State :=
  if !s.mounted ∨ s.stoStat 56 ∨ s.journal.length < s.ckptLimit then s
  else (s.setStoStat 56 true).updSto (fun t => { t with ckptAt := s.journal.length })

/-- The checkpoint is whole: the map image and the stamp table have gone to the area that CUR does not name, then the superblocks,
and the journal before the noted position is freed. The image is the map at the end (assumption 101). -/
def State.checkpointEnd (s : State) : State :=
  if !s.stoStat 56 then s
  else
    let live (r : JRec) : Bool := match r with
      | .sealed _ _ l => s.ldg.live.slots.any (fun e => e.2.gen * 0x20000 + e.1 = l)
      | .commit _ _ _ _ => false
    let j := s.journal
    let img := ckptImage (s.sto.epoch + 1) s.sto.ckptAt s.nblocks s.sto.stampEntry s.imageEntry
    let s1 := ((s.sendDrives s.writable (fun n => .write n (ckptLba (!s.sto.cur)) false img)).updSto
      (fun t => { t with ckptAt := 0, epoch := t.epoch + 1, cur := !t.cur })).writeSb s.writable
    ((s1.setStoStat 56 false).setJournal ((j.take s.sto.ckptAt).filter live ++ j.drop s.sto.ckptAt)).xqRetry

/-! ### Drives failing (R601, R602, R608) -/

/-- Fence drive n. -/
def State.fenceDrive (s : State) (n : Nat) : State :=
  if !s.drvIn n ∨ s.drvFenced n then s
  else
    let s1 := s.setStoStat (58 + n) true
    let mirrored := s.sto.drives = 3
    let s2 := if mirrored ∧ s1.drvOk (1 - n) then s1.setStoStat 60 true else s1.setStoStat 61 true
    let s3 := s2.updSto (fun t => { t with
      seals := t.seals.map (fun e => { e with drives := e.drives.filter (· ≠ n) })
      job := if t.job = .resync then .none else t.job
      awaiting := Tbl.erase t.awaiting n })
    let s4 := if s.sto.job = .resync then (s3.setStoStat 57 false).setStoStat 62 false else s3
    let lost := (s4.sto.reads.filter (fun r => (s4.readDrive r).isNone && !bit (s4.mapWord r.block) 63)).map (·.block)
    let s5 := lost.foldl (fun s b => s.unreadable b) s4
    let dead := s5.sto.seals.filter (fun e => e.drives.isEmpty)
    let s6 := s5.updSto (fun t => { t with
      seals := t.seals.filter (fun e => !e.drives.isEmpty)
      slots := dead.foldl (fun m e => Tbl.erase m e.slot) t.slots })
    ((dead.foldl (fun s e => s.xqDone e.xq xqDrive 0) s6).stoSync).refresh

/-! ### Mount, format, resync -/

/-- No store is mounted any more, and every frame is free (R607, R611). -/
def State.unmount (s : State) : State :=
  let s1 := ((s.setStoStat 63 false).orcClear).updSto (fun t => { t with frames := [], reads := [], seals := [], slots := [], hand := 0 })
  let xs := s1.sto.taken
  let s2 := xs.foldl (fun s i => s.xqDone i xqNotMounted 0) s1
  let parked := s2.ctxs.filterMap (fun e => match e.2.run with | .pref b => some b | _ => none)
  (parked.foldl (fun s b => s.wakeBlock b []) s2).stoSync

/-- A write of STO_CTL with EN at 0 unmounts once every read slot is empty (R611). -/
def State.tryDisable (s : State) : State :=
  if !bit (s.reg (oSto + 0x10)) 63 ∧ s.mounted ∧ s.sto.reads.isEmpty then s.unmount else s

def State.startMount (s : State) : State :=
  let d := s.rf (oSto + 0x10) 1 0
  if s.sto.job ≠ .none ∨ !bit (s.reg (oSto + 0x10)) 63 then s
  else if s.mounted then s.mountResult 8
  else if d = 0 then s.mountResult 2
  else if d = 3 ∧ s.rf (oSto + 0x10) 7 6 = s.rf (oSto + 0x10) 5 4 then s.mountResult 7
  else
    (((s.setStoStat 62 true).mountResult 0)).updSto (fun t =>
      { t with job := .mount, drives := d, mapBad := []
               mapBase := s.rf (oSto + 0x28) 47 16 * 0x10000
               frpBase := s.rf (oSto + 0x30) 47 16 * 0x10000
               frvBase := s.rf (oSto + 0x38) 47 16 * 0x10000
               nfr := max 256 (s.rf (oSto + 0x40) 19 0) })

def State.startFormat (s : State) : State :=
  let d := s.rf (oSto + 0x10) 1 0
  if s.sto.job ≠ .none ∨ !bit (s.reg (oSto + 0x10)) 63 then s
  else if s.mounted then s.mountResult 8
  else if d = 0 then s.mountResult 2
  else if (d = 3 ∧ s.rf (oSto + 0x10) 7 6 = s.rf (oSto + 0x10) 5 4) ∨ s.rf (oSto + 0x20) 54 28 < s.rf (oSto + 0x20) 25 0 + 4096 then s.mountResult 7
  else ((s.setStoStat 62 true).mountResult 0).updSto (fun t => { t with job := .format, drives := d })

def State.startResync (s : State) : State :=
  if s.sto.job ≠ .none ∨ !s.mounted ∨ !s.stoStat 60 then s
  else ((s.setStoStat 62 true).setStoStat 57 true).updSto (fun t => { t with job := .resync })

/-- A fatal end of a mount. -/
def State.mountFails (s : State) (r : Nat) : State :=
  let s1 := ((s.setStoStat 62 false).mountResult r).updSto (fun t => { t with job := .none })
  let parked := s1.ctxs.filterMap (fun e => match e.2.run with | .pref b => some b | _ => none)
  parked.foldl (fun s b => s.wakeBlock b []) s1

/-- Every context parked on some block runs again. -/
def State.wakeAllPref (s : State) : State :=
  (s.ctxs.filterMap (fun e => match e.2.run with | .pref b => some b | _ => none)).foldl (fun s b => s.wakeBlock b []) s

/-- Slots that a journal's commit records leave each block in, after a checkpoint's (R606 step 3). -/
def replayJournal (j : List JRec) (m : Tbl Nat) : Tbl Nat :=
  j.foldl (fun m r => match r with
    | .commit b (some n) _ _ => Tbl.insert m b n
    | .commit b none _ _ => Tbl.erase m b
    | .sealed _ _ _ => m) m

/-- Steps 2 to 5 of R606 with the governing superblock. -/
def State.mountWith (s : State) (vg : BitVec 9) (nb : BitVec 26) (ns : BitVec 27) (ep : BitVec 64) (cur : Bool) (ck : Option Ckpt) : State :=
  match ck with
  | none => s.mountFails 5
  | some c =>
    let j := s.journal
    let m := replayJournal j (c.slots.foldl (fun t e => Tbl.insert t e.1 e.2) [])
    let done (l : Nat) : Bool := s.ldg.live.slots.any (fun e => e.2.gen * 0x20000 + e.1 = l && e.2.st = .ended && e.2.status = 2)
    let kept := j.filterMap (fun r => match r with | .sealed b (some n) l => if done l then some (b, n) else none | _ => none)
    let stamps := j.foldl (fun t r => match r with | .commit _ _ st v => Tbl.insert t st v | .sealed _ _ _ => t)
      (c.stamps.foldl (fun t e => Tbl.insert t e.1 e.2) ([] : Tbl Nat))
    let j2 := j.filter (fun r => match r with | .sealed _ _ l => done l | .commit _ _ _ _ => true)
    let vol := atFld 63 55 vg.toNat ||| atFld 54 28 ns.toNat ||| atFld 25 0 nb.toNat
    let s1 := ((((s.setReg (oSto + 0x20) vol).setStoStat 62 false).setStoStat 63 true).mountResult 1).setStoStat 54 false
    let s2 := forN (nb.toNat + 1) 0 (fun b s => s.setMapWord b (match Tbl.look m b with | some n => atFld 27 0 n | none => atFld 63 63 1)) s1
    let s3 := (s2.setJournal j2).updSto (fun t =>
      { t with job := .none, frames := [], hand := 0, stamps := stamps, epoch := ep.toNat, cur := cur, reads := []
               slots := kept.foldl (fun u e => Tbl.insert u e.2 e.1) (m.foldl (fun u e => Tbl.insert u e.2 e.1) []) })
    (s3.orcClear.stoSync.refresh).wakeAllPref

/-- R606: the mount ends with what the drives hold. -/
def State.mountEnd (s : State) (d0 d1 : DriveFound) (ck : Option Ckpt) : State :=
  if s.sto.job ≠ .mount then s
  else
    let fs := (if s.drvIn 0 then [(0, d0)] else []) ++ (if s.drvIn 1 then [(1, d1)] else [])
    if fs.any (fun e => e.2 = .absent) then s.mountFails 2
    else if fs.any (fun e => match e.2 with
        | .sb l _ _ n _ _ => decide (l.toNat < minLbas (n.toNat + 1))
        | .unfit => true
        | _ => false) then s.mountFails 6
    else
      let sbs := fs.filterMap (fun e => match e.2 with | .sb _ v b n ep c => some (e.1, v, b, n, ep, c) | _ => none)
      match sbs with
      | [] => s.mountFails 3
      | (n0, v, b, n, ep, c) :: rest =>
        match rest with
        | [] =>
          let s1 := if fs.length = 2 then ((s.setStoStat (58 + (1 - n0)) true).setStoStat 60 true) else s
          s1.mountWith v b n ep c ck
        | (n1, v1, b1, m1, ep1, c1) :: _ =>
          if v ≠ v1 then s.mountFails 4
          else if ep = ep1 then s.mountWith v b n ep c ck
          else if ep1.toNat < ep.toNat then ((s.setStoStat (58 + n1) true).setStoStat 60 true).mountWith v b n ep c ck
          else ((s.setStoStat (58 + n0) true).setStoStat 60 true).mountWith v1 b1 m1 ep1 c1 ck

/-- A drive of the volume to be formatted, of which drive n has `l n` LBAs, is too small for it (R575). -/
def State.tooSmall (s : State) (l : Nat → Nat) : Bool :=
  [0, 1].any (fun n => s.drvIn n && decide (l n < minLbas (s.rf (oSto + 0x20) 54 28 + 1)))

/-- R605: the format ends on drives of which drive n has `l n` LBAs: empty checkpoints of epoch 1 in both areas, then the superblocks;
a drive too small ends it with SIZE. -/
def State.formatted (s : State) (l : Nat → Nat) : State :=
  let s0 := (s.setStoStat 62 false).updSto (fun t => { t with job := .none })
  if s.tooSmall l then s0.mountResult 6
  else
    let ns := [0, 1].filter s.drvIn
    let img := ckptImage 1 0 s.nblocks (fun _ => 0) (fun _ => 2 ^ 62)
    let s1 := ((s0.mountResult 1).setJournal []).updSto (fun t => { t with epoch := 1, cur := false, stamps := [], slots := [] })
    ((s1.sendDrives ns (fun n => .write n (ckptLba false) false img)).sendDrives ns (fun n => .write n (ckptLba true) false img)).writeSb ns

/-- The LBAs that drive n says it has: a free value (assumption 109). -/
def State.driveLbas (s : State) (n : Nat) : Nat := (Config.freeValue (s.freeCount + n)).toNat

/-- FORMAT_END (R605). -/
def State.formatEnd (s : State) : State :=
  if s.sto.job ≠ .format then s else State.formatted { s with freeCount := s.freeCount + 2 } s.driveLbas

/-- R604: the copy is whole: the superblocks, the current checkpoint and every mapped slot. -/
def State.resyncEnd (s0 : State) : State :=
  if s0.sto.job ≠ .resync then s0
  else
    let new := if s0.drvFenced 0 then 0 else 1
    let slots := (s0.sto.slots.filter (fun e => s0.mapSlot e.2 = some e.1)).map (fun e => (slotLba e.1, 19))
    let areas := [(sbLbaA, 1), (sbLbaB, 1), (ckptLba s0.sto.cur, 9 + (8 * s0.nblocks + 4095) / 4096)] ++ slots
    let s := areas.foldl (fun s a => s.sendDrives [new] (fun n => .copy n a.1 a.2)) s0
    let s1 := (((s.setStoStat 62 false).setStoStat 57 false).setStoStat 60 false).updSto (fun t => { t with job := .none })
    ((s1.setStoStat 58 false).setStoStat 59 false).refresh

/-! ### Register writes of the page -/

/-- STO_CTL (R611): the RW fields, then the commands its WO bits give. -/
def State.stoCtlWrite (s : State) (v : Pay) : State :=
  let was := bit (s.reg (oSto + 0x10)) 63
  let s1 := s.plainWrite (oSto + 0x10) v
  let s2 := if was ∧ !bit v 63 then s1.tryDisable else s1
  let s4 := if bit v 59 then s2.startMount else s2
  let s5 := if bit v 60 then s4.startFormat else s4
  if bit v 61 then s5.startResync else s5

/-- STO_XQTAIL (R598): descriptors with a reserved OP end at once; the rest are taken by their own steps. -/
def State.xqTailWrite (s : State) (v : Pay) : State :=
  let s1 := s.plainWrite (oSto + 0x50) v
  (List.range s1.xqSize).foldl (fun s i => if s.xqQueued i && (s.xqOpc i = 0 || 6 ≤ s.xqOpc i) then s.xqDone i xqOp 0 else s) s1

def State.stoStore (s : State) (o : Nat) (v : Pay) : State :=
  if o = 0x10 then s.stoCtlWrite v
  else if o = 0x20 then (if s.mounted then s else s.plainWrite (oSto + o) v)
  else if o = 0x50 then s.xqTailWrite v
  else s.plainWrite (oSto + o) v

/-! ### Commands of the Store Engine -/

/-- A drive completes the read of a block (R583, R600, R603). -/
def State.driveRead (s : State) (b drive : Nat) (d : DriveBlock) : State :=
  match s.sto.reads.find? (fun r => r.block = b && r.slot) with
  | none => s
  | some r =>
    if s.readDrive r ≠ some drive ∨ (Tbl.look s.sto.awaiting drive).isSome ∨ bit (s.mapWord b) 63 then s
    else
      let s1 := s.count (oSto + 0x100)
      let good := d.done && d.magic && decide (d.vg.toNat = s.rf (oSto + 0x20) 63 55) && decide (d.block.toNat = b) && d.digest
      if good then
        let s2 := if r.failed.isEmpty then s1
          else match s1.mapSlot b with
            | some n => (s1.count (oSto + 0x110)).sendDrives r.failed (fun d => .copy d (slotLba n) 19)
            | none => s1.count (oSto + 0x110)
        ((s2.install b (fun i => Tbl.get (fun _ => Word.fix 0) d.words i)).getD s1).tryDisable
      else
        let r1 := { r with failed := r.failed ++ [drive] }
        let s2 := s1.updSto (fun t => { t with reads := t.reads.map (fun e => if e.block = b then r1 else e) })
        if (s2.readDrive r1).isSome then s2
        else (((s2.setReg (oSto + 0x60) (p64 b)).count (oSto + 0x118)).unreadable b).tryDisable

/-- R584. -/
def State.zeroFill (s : State) (b : Nat) : State :=
  if s.sto.reads.any (fun r => r.block = b && r.slot) ∧ bit (s.mapWord b) 63 then ((s.install b (fun _ => Word.fix 0)).getD s).tryDisable else s

/-- R585: while fewer frames are free than LOWFR asks, or a read waits for a frame. -/
def State.frameEviction (s : State) : State :=
  let low := s.sto.nfr * min 50 (s.rf (oSto + 0x10) 39 32) / 100
  let free := s.sto.nfr - s.sto.frames.length
  if s.mounted ∧ (free < low ∨ (free = 0 ∧ !s.sto.reads.isEmpty)) then (s.evictOne.getD s).stoSync else s

/-- The transfer-queue step of operation `op` on descriptor i, once its reads find a Transaction Table entry (R23). -/
def State.xqStep (s : State) (op i : Nat) (e m : Ecc) : State :=
  if s.xqQueued i ∧ s.xqOpc i = op ∧ s.fabricFree 0x43 then (s.xqRun i e m).stoSync else s

/-- R589: every writable drive has written the slot. -/
def State.sealComplete (s : State) (i : Nat) : State :=
  match s.sto.seals.find? (fun e => e.xq = i) with
  | none => s
  | some e =>
    let s1 := (s.updSto (fun t => { t with seals := t.seals.filter (fun q => q.xq ≠ i) })).setJournal (s.journal ++ [.sealed e.block (some e.slot) e.lpos])
    match s1.frameOf e.block with
    | none => s1.xqDone i xqUe 0
    | some f => (((s1.sealFrame f e.lpos (some e.slot)).count (oSto + 0x108)).xqDone i xqOk e.slot).stoSync

/-- R608: a drive's controller reports ready, and its outstanding commands are issued again. -/
def State.driveReady (s : State) (n : Nat) : State :=
  let s1 := (s.sto.seals.filter (fun e => e.drives.contains n)).foldl (fun s e =>
    match s.frameOf e.block with | some f => s.slotWrite [n] f e.block e.lpos e.slot | none => s) s
  (if (Tbl.look s.sto.awaiting n).isSome then s1 else s).updSto (fun t => { t with awaiting := Tbl.erase t.awaiting n })

/-- R601, R608: a command stays uncompleted for 2 s after a controller reset, or a drive has not reported ready in
time. -/
def State.driveTimeout (s : State) (n : Nat) : State :=
  match Tbl.look s.sto.awaiting n with
  | some t => (s.timeTo t).fenceDrive n
  | none => if s.sto.reads.any (fun r => r.slot && s.readDrive r = some n) ∨ s.sto.seals.any (fun e => e.drives.contains n) then s.fenceDrive n else s

end Sys2Proof.Machine
end

