-- ==== Sys2Proof/Machine/SecBlk.lean ====
section
/-!
DEFINITION. The Security block (R615 to R648): fuses and their operations, measurements, the identity, the key store
with its pending keys, the attestation report and the Keccak engine.
-/
namespace Sys2Proof.Machine

def State.updSec (s : State) (f : Sec → Sec) : State := { s with sec := f s.sec }
def State.secStat (s : State) (b : Nat) : Bool := bit (s.reg (oSec + 0x20)) b
def State.setSecStat (s : State) (b : Nat) (v : Bool) : State := s.setReg (oSec + 0x20) (setBit (s.reg (oSec + 0x20)) b v)

/-- The bytes of an ASCII text. -/
def ascii (t : String) : List (BitVec 8) := t.toList.map (fun c => BitVec.ofNat 8 c.toNat)

/-! ### Fuses -/

def Sec.kslot (c : Sec) (n : Nat) : KSlot := Tbl.get (fun _ => KSlot.blank) c.kslots n
def Sec.setKslot (c : Sec) (n : Nat) (k : KSlot) : Sec := { c with kslots := Tbl.set (fun _ => KSlot.blank) c.kslots n k }

/-- LIFE as read: any other pattern reads as 0x07 (R619). -/
def lifeOf (v : Nat) : Nat := if v = 0 ∨ v = 1 ∨ v = 3 then v else 7

/-- SEC_LIFE (R646). -/
def State.secLife (s : State) : Pay :=
  let c := s.sec
  let f (g : KSlot → Bool) : Nat := (b2n (g (c.kslot 0))) + 2 * b2n (g (c.kslot 1)) + 4 * b2n (g (c.kslot 2)) + 8 * b2n (g (c.kslot 3))
  let uses := (c.kslot 0).uses + 8 * (c.kslot 1).uses + 64 * (c.kslot 2).uses + 512 * (c.kslot 3).uses
  atFld 63 56 (lifeOf c.life) ||| setBit 0 55 c.debuglock ||| atFld 54 48 c.rollback ||| atFld 47 44 (f (·.prog))
    ||| atFld 43 40 (f (·.revoke)) ||| atFld 39 28 uses

/-- A key slot that may verify an image or blob: programmed, not revoked, with USE bit b (R622, R635). -/
def Sec.usable (c : Sec) (n b : Nat) : Bool := (c.kslot n).prog && !(c.kslot n).revoke && decide ((c.kslot n).uses / 2 ^ b % 2 = 1)
/-- Revoking slot n would leave no usable Sentinel slot (R635, R648). -/
def Sec.lastSlot (c : Sec) (n : Nat) : Bool := [0, 1, 2, 3].all (fun i => i = n || !c.usable i 0)

/-- The slot whose digest is that of a public key, with USE bit b. -/
def Sec.slotFor (c : Sec) (pk : List (BitVec 8)) (b : Nat) : Option Nat :=
  let d := Config.shake256 pk 32
  [0, 1, 2, 3].find? (fun n => c.usable n b && decide ((c.kslot n).digest = d))

/-- The RESULT codes of SEC_FUSESTAT. -/
abbrev fDone : Nat := 1
abbrev fLast : Nat := 2
abbrev fBack : Nat := 3
abbrev fProg : Nat := 4
abbrev fReserve : Nat := 5
abbrev fVerify : Nat := 6

/-- Bytes of a number of payload words, little-endian. -/
def wordBytes (ws : List Pay) : List (BitVec 8) := ws.flatMap (fun w => leBytes 8 w.toNat)
def Sec.keyBytes (c : Sec) : List (BitVec 8) := wordBytes ((List.range 4).map (fun w => Tbl.get (fun _ => 0) c.keyW w))

/-- A write of SEC_FUSEPROG (R642, R648). -/
def State.fuseWrite (s : State) (v : Pay) : State :=
  let op := fld v 63 60
  let n := fld v 17 16
  let val := fld v 7 0
  let c := s.sec
  let refuse (r : Nat) : State := s.setRf (oSec + 0x38) 62 59 r
  if s.secStat 59 then s
  else if s.pwr.pfw then refuse fReserve
  else if op = 1 ∧ c.lastSlot n then refuse fLast
  else if op = 2 ∧ val < c.rollback then refuse fBack
  else if op = 4 ∧ val < lifeOf c.life then refuse fBack
  else if op = 5 ∧ (c.kslot n).prog then refuse fProg
  else
    let j : FuseJob := ⟨op, n, fld v 14 12, val, c.keyBytes⟩
    (((s.setSecStat 59 true).setRf (oSec + 0x38) 63 63 1).setRf (oSec + 0x38) 62 59 0).updSec (fun c => { c with fuse := some j })

/-- Blow the fuses of one operation: bits only rise (R617). -/
def Sec.blow (c : Sec) (j : FuseJob) : Sec :=
  let k := c.kslot j.slot
  if j.op = 1 then c.setKslot j.slot { k with revoke := true }
  else if j.op = 2 then { c with rollback := max c.rollback (min 64 j.value) }
  else if j.op = 3 then { c with debuglock := true }
  else if j.op = 4 then { c with life := c.life ||| j.value % 8 }
  else c.setKslot j.slot { k with digest := j.digest, uses := j.uses, prog := true }

/-- R642: the operation completes; `ok` says that the fuse read-back agrees. -/
def State.fuseComplete (s : State) (ok : Bool) : State :=
  match s.sec.fuse with
  | none => s
  | some j =>
    let s1 := ((s.setSecStat 59 false).setRf (oSec + 0x38) 63 63 0).setRf (oSec + 0x38) 62 59 (if ok then fDone else fVerify)
    s1.updSec (fun c => { (if ok then c.blow j else c) with fuse := none })

/-! ### Measurements (R626, R627) -/

def measOff (i : Nat) : Nat := oSec + 0x200 + 0x20 * i
def State.measBytes (s : State) (i : Nat) : List (BitVec 8) := wordBytes ((List.range 4).map (fun w => s.reg (measOff i + 8 * w)))
/-- A 32-byte value put into four registers from `off` up. -/
def State.putDigest (s : State) (off : Nat) (d : List (BitVec 8)) : State :=
  (List.range 4).foldl (fun s w => s.setReg (off + 8 * w) (p64 (leNat ((d.drop (8 * w)).take 8)))) s
/-- MEASi becomes SHAKE256(MEASi ‖ d). -/
def State.extend (s : State) (i : Nat) (d : List (BitVec 8)) : State :=
  s.putDigest (measOff i) (Config.shake256 (s.measBytes i ++ d) 32)

def Sec.digBytes (c : Sec) : List (BitVec 8) := wordBytes ((List.range 4).map (fun w => Tbl.get (fun _ => 0) c.dig w))

/-! ### Identity (R628 to R630) -/

/-- The identity label that the last device reset derived with (R619, R628). -/
def Sec.label (c : Sec) : List (BitVec 8) := ascii (if c.rma then "HR7264 RMA" else "HR7264 ID")

/-- The 96 derived bytes (R629). -/
def Sec.identity (c : Sec) : List (BitVec 8) :=
  Config.shake256 (c.label ++ Config.pufKey ++ Config.idSeed ++ leBytes 8 c.devuid.toNat) 96
/-- The device storage key (R630). -/
def Sec.dsk (c : Sec) : List (BitVec 8) := Config.shake256 (c.label ++ ascii "DSK" ++ Config.pufKey ++ Config.idSeed) 32

/-- The identity public key (R629). -/
def Sec.idPk (c : Sec) : List (BitVec 8) := Config.slhPublic c.identity

/-! ### Attestation (R631 to R633) -/

/-- TWIN_MODEt (R522). -/
def Twin.modeCode (w : Twin) : Nat :=
  if w.moving then 6
  else match w.mode with | .tight => 0 | .loose => 1 | .split => 2 | .solo => 3 | .fenced => 4 | .off => 5
def State.twinModeReg (s : State) (t : Nat) : Pay :=
  let w := s.twin t
  atFld 31 16 w.rcnt ||| setBit 0 8 w.dlf ||| atFld 7 5 w.modeCode ||| setBit 0 4 w.lf ||| setBit 0 3 w.sf ||| setBit 0 2 w.lb
    ||| setBit 0 1 w.sb ||| setBit 0 0 w.cmps

/-- The report without its signature (R631). -/
def State.reportBody (s : State) (nonce : List (BitVec 8)) : List (BitVec 8) :=
  let c := s.sec
  let flags := b2n (s.secStat 60) + 2 * b2n (bit (s.reg (oTwin + 0x28)) 63) + 4 * b2n (bit (s.reg (oPwr + 0x18)) 63) + 8 * b2n c.debuglock
  let slot (n : Nat) : BitVec 8 := BitVec.ofNat 8 (b2n (c.kslot n).prog + 2 * b2n (c.kslot n).revoke + 4 * (c.kslot n).uses)
  ascii "HR7264AR" ++ leBytes 1 1 ++ leBytes 1 s.mode ++ leBytes 1 flags ++ leBytes 1 (lifeOf c.life) ++ leBytes 4 c.rollback
    ++ leBytes 8 c.devuid.toNat ++ leBytes 8 s.time.toNat ++ nonce.take 32 ++ leBytes 8 (s.reg (oTwin + 0x28)).toNat
    ++ (List.range 32).map (fun t => BitVec.ofNat 8 (fld (s.twinModeReg t) 8 1)) ++ [slot 0, slot 1, slot 2, slot 3] ++ leBytes 4 0
    ++ (List.range 8).flatMap (fun i => s.measBytes i) ++ c.idPk

/-- The signed report (R631). -/
def Sec.signed (c : Sec) (body : List (BitVec 8)) : List (BitVec 8) := body ++ Config.slhSign c.identity (ascii "HR7264 ATTEST") body

/-- Length of a report. -/
abbrev reportLen : Nat := 50288

/-! ### Keys (R635 to R637) -/

def State.updLdg (s : State) (f : Ldg → Ldg) : State := { s with ldg := f s.ldg }
def State.updLive (s : State) (f : Led → Led) : State := s.updLdg (fun l => { l with live := f l.live })

/-- Key-store indices of the mirror key and the KEK. -/
abbrev kMirror : Nat := 0x1000
abbrev kKek : Nat := 0x1001
/-- The DSK under which a key is wrapped: that of its label (R619, R630). -/
def Sec.dskOf (c : Sec) (w : WKey) : Option (List (BitVec 8)) := w.under.map (fun r => ({ c with rma := r } : Sec).dsk)
/-- A current key. JNV holds it wrapped under the DSK of its installation: a part without that DSK cannot recover it (R619, R628,
R630, assumption 102). -/
def State.key? (s : State) (i : Nat) : Option (List (BitVec 8)) :=
  match Tbl.look s.ldg.live.keys i with
  | some ⟨none, k⟩ => some k
  | some ⟨some r, k⟩ => if r = s.sec.rma ∧ !s.secStat 62 then some k else none
  | none => none

/-- A key erased at once (R637). -/
def State.eraseKey (s : State) (i : Nat) : State := s.updLive (fun l => { l with keys := Tbl.erase l.keys i })

/-- A stream that JNV does not list: management streams are open, the others closed (R525). -/
def defaultStream (n : Nat) : Stream :=
  { st := if n < 5 then 1 else 0, transport := if n < 5 then n else 0, crc := decide (n = 4), credits := if n < 5 then 64 else 0
    strmOk := false, ctxA := 0, ctxB := 0, lastSeq := 0, window := [], peer := none }

/-- The pending keys of command l become current (R636). -/
def State.keysCurrent (s : State) (l : Nat) : State :=
  let mine := s.sec.pend.filter (fun p => p.lpos = l)
  let s1 := mine.foldl (fun s p => s.updLive (fun d => { d with
    keys := Tbl.insert d.keys p.idx ⟨if s.secStat 62 then none else some s.sec.rma, p.key⟩, kctr := p.ctr
    streams := if p.idx = 4 then Tbl.set defaultStream d.streams 4 { Tbl.get defaultStream d.streams 4 with crc := false }
             else d.streams })) s
  s1.updSec (fun c => { c with pend := c.pend.filter (fun p => p.lpos ≠ l) })

/-- The pending keys of command l are discarded (R636). -/
def State.keysDropped (s : State) (l : Nat) : State := s.updSec (fun c => { c with pend := c.pend.filter (fun p => p.lpos ≠ l) })

/-- SEC_KEYCMD (R636, R637, R644). -/
def State.keyCmd (s : State) (v : Pay) : State :=
  let idx := fld v 12 0
  let l := fld v 47 16
  if idx > kKek then s
  else if fld v 63 60 = 2 then s.eraseKey idx
  else
    let s1 := s.updSec (fun c => { c with pend := c.pend ++ [⟨idx, l, c.keyBytes, c.keyCtr⟩] })
    match Tbl.look s.ldg.live.slots (l % 0x20000) with
    | some sl => if sl.gen = l / 0x20000 ∧ sl.st = .ended ∧ sl.status = 2 then s1.keysCurrent l else s1
    | none => s1

/-! ### Debug use (R643) -/

/-- Debug access may attach (R619). -/
def State.debugAllowed (s : State) : Bool :=
  let c := s.sec
  let l := lifeOf c.life
  !c.debuglock && (l = 1 || l = 7 || (l = 3 && bit (s.reg (oSec + 0x40)) 0))

/-- The first use after a device reset sets DBGUSED and extends MEAS7. -/
def State.debugUsed (s : State) : State :=
  if s.secStat 60 then s else (s.setSecStat 60 true).extend 7 (Config.shake256 (ascii "HR7264 DEBUG") 32)

/-! ### The Keccak engine (R638 to R641) -/

/-- The base register of a queue: Sentinel's or the Executive's (R639). -/
def kqReg (sk : Bool) : Nat := oSec + (if sk then 0x50 else 0x48)
def State.kqBase (s : State) (sk : Bool) : Nat := s.rf (kqReg sk) 47 6 * 64
def State.kqSize (s : State) (sk : Bool) : Nat := 2 ^ s.rf (kqReg sk) 51 48
/-- The queue is in use; a ring in Keep SRAM, where the engine never writes, never runs (R39, assumption 99). -/
def State.kqOn (s : State) (sk : Bool) : Bool := bit (s.reg (kqReg sk)) 0 && s.region (s.kqBase sk) ≠ .keep
def State.kqTail (s : State) (sk : Bool) : Nat := (s.word (s.kqBase sk)).pay.toNat % s.kqSize sk
def State.kqHead (s : State) (sk : Bool) : Nat := (s.word (s.kqBase sk + 8)).pay.toNat % s.kqSize sk
def State.kqDesc (s : State) (sk : Bool) (w : Nat) : Word := s.word (s.kqBase sk + 64 * (1 + s.kqHead sk) + 8 * w)

/-- End the descriptor at HEAD with a code and, for a verify, its result (R640). -/
def State.kqDone (s : State) (sk : Bool) (code : Nat) (valid : Bool) : State :=
  let h := s.kqHead sk
  let evt := bit (s.kqDesc sk 0).pay 59
  let s1 := s.engWrite (s.kqBase sk + 64 * (1 + h) + 56) (Word.raw (atFld 63 63 1 ||| atFld 55 48 code ||| setBit 0 0 valid))
  let s2 := s1.engWrite (s1.kqBase sk + 8) (Word.rawN ((h + 1) % s.kqSize sk))
  let s3 := if code ≠ 0 then s2.setSecStat 58 true else s2
  if evt then s3.assertSource 0x57 else s3

/-- A reserved operation or a field that must be zero (R640). -/
def State.kqMalformed (s : State) (sk : Bool) : Bool :=
  let w (i : Nat) : Pay := (s.kqDesc sk i).pay
  let op := fld (w 0) 63 60
  let out := (w 4).toNat
  op = 0 || 5 ≤ op || fld (w 0) 58 57 ≠ 0 || (bit (w 0) 56 && !sk) || fld (w 0) 55 52 ≠ 0 || 8 < fld (w 0) 51 48 || fld (w 0) 47 0 ≠ 0
    || fld (w 1) 63 48 ≠ 0 || fld (w 2) 63 32 ≠ 0 || fld (w 3) 63 48 ≠ 0 || fld (w 5) 63 48 ≠ 0
    || (if op = 1 then out = 0 || 4096 < out else if op = 2 then out < 16 || 64 < out else out ≠ 0)
    || [0, 1, 2, 3, 4, 5, 6].any (fun i => (s.kqDesc sk i).tag ≠ Tag.raw)

/-- The engine may reach the bytes (R640): memory, within the PRT ceiling of the queue's ring; Keep SRAM only to read
by Sentinel's queue. -/
def State.kqReach (s : State) (sk write : Bool) (pa n : Nat) : Bool :=
  n = 0 || (List.range ((pa % 4096 + n + 4095) / 4096)).all (fun i =>
    let a := (pa / 4096 + i) * 4096
    let at' := if i = 0 then pa else a
    s.prtOk (if sk then 0 else 1) at' &&
    (match s.region at' with
    | .dram | .staging | .jnv => true
    | .rom => !write
    | .keep => sk && !write
    | _ => false)) && (match s.region (pa + n - 1) with | .unmapped => false | _ => true)

/-- Bytes as the engine reads them: Keep SRAM from the copy KCOPY names. -/
def State.kqBytes (s : State) (copy : Bool) (pa n : Nat) : List (BitVec 8) :=
  s.bytes (if s.region pa = .keep ∧ copy then pa + copyB else pa) n

/-- Run the descriptor at HEAD (R640, R641); `e` is what its reads meet. -/
def State.kqRun (s0 : State) (sk : Bool) (e : Ecc) : State :=
  let s := s0.eccSeen 0x44 (s0.kqDesc sk 1).pay.toNat e
  let w (i : Nat) : Pay := (s.kqDesc sk i).pay
  let op := fld (w 0) 63 60
  let copy := bit (w 0) 56
  let inp := (w 1).toNat
  let len := (w 2).toNat
  let out := (w 3).toNat
  let n := (w 4).toNat
  let key := (w 5).toNat
  let sigLen := if op = 3 then 29792 else 49856
  if s.kqMalformed sk then s.kqDone sk 2 false
  else if !s.kqReach sk false inp len ∨ (op = 2 ∧ !s.kqReach sk false key 32) ∨ (3 ≤ op ∧ (!s.kqReach sk false key 64 ∨ !s.kqReach sk false out sigLen))
      ∨ (op ≤ 2 ∧ !s.kqReach sk true out n) then s.kqDone sk 3 false
  else if e = .bad then s.kqDone sk 4 false
  else
    let m := s.kqBytes copy inp len
    if op = 1 then (s.engPutBytes out (Config.shake256 m n)).kqDone sk 0 false
    else if op = 2 then
      (s.engPutBytes out (Config.kmac256 (s.kqBytes copy key 32) m n ((leBytes 8 (w 6).toNat).take (fld (w 0) 51 48)))).kqDone sk 0 false
    else s.kqDone sk 0 (Config.slhVerify (op = 3) (s.kqBytes copy key 64) m (s.kqBytes copy out sigLen))

/-- The engine takes the descriptor at HEAD when it is of operation `op`, once its reads find a Transaction Table entry (R23). -/
def State.kqStep (s : State) (sk : Bool) (op : Nat) (e : Ecc) : State :=
  if s.kqOn sk ∧ s.kqHead sk ≠ s.kqTail sk ∧ fld (s.kqDesc sk 0).pay 63 60 = op ∧ s.fabricFree 0x44 then s.kqRun sk e else s

/-- Descriptors at HEAD with a reserved operation end with FORM. -/
def kqSkip (sk : Bool) : Nat → State → State
  | 0, s => s
  | fuel + 1, s =>
    let op := fld (s.kqDesc sk 0).pay 63 60
    if s.kqOn sk ∧ s.kqHead sk ≠ s.kqTail sk ∧ (op = 0 ∨ 5 ≤ op) then kqSkip sk fuel (s.kqDone sk 2 false) else s

/-- A store of TAIL to the first line of a queue (R639). -/
def State.keccakTail (s : State) (sk : Bool) (tail : Pay) : State :=
  kqSkip sk 256 (s.engWrite (s.kqBase sk) (Word.raw tail))

/-! ### The Boot ROM (R622, R624, R645) -/

/-- A little-endian field of a list of bytes. -/
def leAt (bs : List (BitVec 8)) (off n : Nat) : Nat := leNat ((bs.drop off).take n)

/-- The failure reasons of R645. -/
abbrev bfFormat : Nat := 1
abbrev bfKey : Nat := 2
abbrev bfSvn : Nat := 3
abbrev bfSig : Nat := 4
abbrev bfBody : Nat := 5
abbrev bfRead : Nat := 6

/-- Check 1 of R622 on the header. -/
def imageForm (m : Image) : Bool :=
  let h := m.hdr
  let load := leAt h 16 8
  let len := leAt h 24 4
  let entry := leAt h 28 4
  h.take 8 = ascii "HR7264IM" && leAt h 8 1 = 1 && leAt h 9 1 = 1 && leAt h 10 2 = 0 && leAt h 128 32 = 0
    && decide (1 ≤ len ∧ len ≤ 65536) && load % 8 = 0 && decide (keepBase ≤ load ∧ load + 8 * len ≤ keepBase + 0x400000)
    && entry % 4 = 0 && decide (entry < 8 * len)

/-- Word i of the body: eight payload bytes and a tag (R621). -/
def imageWord (m : Image) (i : Nat) : Word :=
  let r := (m.body.drop (9 * i)).take 9
  ⟨r.getD 8 0, p64 (leNat (r.take 8))⟩

/-- Step 5 of R622: the body in both copies of Keep SRAM. -/
def State.loadBody (s : State) (m : Image) : State :=
  let load := leAt m.hdr 16 8
  forN (leAt m.hdr 24 4) 0 (fun i s => (s.setWord (load + 8 * i) (imageWord m i)).setWord (load + copyB + 8 * i) (imageWord m i)) s

/-- The checks of R622 on one copy: the reason of the first that fails, and the machine with what was loaded. -/
def State.checkImage (s : State) (m : Image) (enrol : Bool) : Nat × State :=
  let pk := (m.hdr.drop 64).take 64
  if !imageForm m then (bfFormat, s)
  else if !enrol ∧ (s.sec.slotFor pk 0).isNone then (bfKey, s)
  else if leAt m.hdr 12 4 < s.sec.rollback then (bfSvn, s)
  else if !Config.slhVerify true pk (m.hdr.take 160) m.sig then (bfSig, s)
  else if m.readErr then (bfRead, s)
  else
    let s1 := s.loadBody m
    if Config.shake256 (m.body.take (9 * leAt m.hdr 24 4)) 32 ≠ (m.hdr.drop 32).take 32 then (bfBody, s1) else (0, s1)

/-- Write SEC_BOOTSTAT (R645). -/
def State.bootStat (s : State) (code fa fb slot svn : Nat) : State :=
  s.setReg (oSec + 0x10) (atFld 63 56 code ||| atFld 55 48 fa ||| atFld 47 40 fb ||| atFld 33 32 slot ||| atFld 31 0 svn)

/-- The ROM ends in WFE (R622). -/
def State.romStops (s : State) : State := s.updCtx 0 (fun c => { c with run := .wfe, latch := false })

/-- The ROM starts an image that passed: measurements, SEC_BOOTSTAT, the jump (R622, R626). -/
def State.romStarts (s : State) (m : Image) (code fa : Nat) : State :=
  let s1 := (s.extend 0 Config.romDigest).extend 1 (Config.shake256 (m.hdr.take 160) 32)
  let slot := if code = 3 then 0 else (s.sec.slotFor ((m.hdr.drop 64).take 64) 0).getD 0
  (s1.bootStat code fa 0 slot (leAt m.hdr 12 4)).updCtx 0 (fun c => c.setPc (p64 (leAt m.hdr 16 8 + leAt m.hdr 28 4)))

/-- The Boot ROM (R618, R622, R624). `fuseBad` says that a fuse field is uncorrectable, `flash` that a flash answers,
`blown` that the read-back of an enrolment agrees. -/
def State.bootRom (s : State) (fuseBad flash blown : Bool) (a b : Image) : State :=
  if s.mode ≠ mBoot ∨ s.rf (oSec + 0x10) 63 56 ≠ 0 ∨ (s.ctx 0).pc ≠ 0x7FFFFFF00000 ∨ !s.powered 0 then s
  else if fuseBad then (s.bootStat 0x11 0 0 0 0).romStops
  else if lifeOf s.sec.life = 0 then (s.bootStat 0x13 0 0 0 0).romStops
  else if !flash then (s.bootStat 0x10 0 0 0 0).romStops
  else if [0, 1, 2, 3].all (fun n => !(s.sec.kslot n).prog) ∧ lifeOf s.sec.life = 1 then
    let r := s.checkImage a true
    if r.1 ≠ 0 then (r.2.bootStat 0x12 r.1 0 0 0).romStops
    else if s.pwr.pfw then s
    else if !blown then (r.2.bootStat 0x12 0 0 0 0).romStops
    else
      let s1 := r.2.updSec (fun c => c.setKslot 0 ⟨Config.shake256 ((a.hdr.drop 64).take 64) 32, 7, true, false⟩)
      (s1.extend 7 (Config.shake256 (ascii "HR7264 ENROL") 32)).romStarts a 3 0
  else
    let ra := s.checkImage a false
    if ra.1 = 0 then ra.2.romStarts a 1 0
    else
      let rb := ra.2.checkImage b false
      if rb.1 = 0 then rb.2.romStarts b 2 ra.1
      else (rb.2.bootStat 0x12 ra.1 rb.1 0 0).romStops

/-! ### Register accesses of the page -/

/-- Loads of computed registers (R644, R646). -/
def State.secLoad (s : State) (o : Nat) : Pay :=
  if o = 0x18 then s.secLife
  else if o = 0x28 then s.sec.devuid
  else if 0x100 ≤ o ∧ o < 0x180 then p64 (leAt (s.sec.kslot ((o - 0x100) / 0x20)).digest ((o - 0x100) % 0x20) 8)
  else s.reg (oSec + o)

/-- A reload of the ring 0 part of the vector latch on every powered core (R443). -/
def State.reloadLatch0 (s : State) : State :=
  (List.range 64).foldl (fun s k => if s.clOn (clusterOfCore k)
    then s.updCore k (fun c => { c with latch0 := s.latchOf k (s.rf (oSec + 0xE00) 47 11 * 2048) true }) else s) s

def State.secStore (s : State) (o : Nat) (v : Pay) : State :=
  if o = 0x30 then s.fuseWrite v
  else if o = 0x58 then s.keyCmd v
  else if 0x60 ≤ o ∧ o ≤ 0x78 then s.updSec (fun c => { c with keyW := Tbl.set (fun _ => 0) c.keyW ((o - 0x60) / 8) v })
  else if o = 0x80 then s.updSec (fun c => { c with keyCtr := v })
  else if 0x300 ≤ o ∧ o ≤ 0x318 then s.updSec (fun c => { c with dig := Tbl.set (fun _ => 0) c.dig ((o - 0x300) / 8) v })
  else if o = 0x320 then s.extend (fld v 2 0) s.sec.digBytes
  else if 0x1000 ≤ o then (if bit (s.reg (oSec + 0xF00)) 0 then s else s.plainWrite (oSec + o) v)
  else if o = 0xE00 then (s.plainWrite (oSec + o) v).reloadLatch0
  else s.plainWrite (oSec + o) v

end Sys2Proof.Machine
end

