-- ==== Sys2Proof/Machine/Ledger.lean ====
section
/-!
DEFINITION. The Command Engine and the Ledger (R525 to R573): packets and their arrival checks, replies over the three
transports, acceptance, dispatch, effects, commits and ends of commands, retirement, restart, replay and the mirror.
-/
namespace Sys2Proof.Machine

/-! ### Streams and slots -/

def State.stream (s : State) (n : Nat) : Stream := Tbl.get defaultStream s.ldg.live.streams n
def State.setStream (s : State) (n : Nat) (v : Stream) : State :=
  s.updLive (fun l => { l with streams := Tbl.set defaultStream l.streams n v })
def State.slot? (s : State) (n : Nat) : Option Slot := Tbl.look s.ldg.live.slots n
def State.putSlot (s : State) (n : Nat) (v : Slot) : State := s.updLive (fun l => { l with slots := Tbl.insert l.slots n v })

/-- The fields of a request header (R528). -/
def hdrVer (h : List (BitVec 8)) : Nat := leAt h 2 1
def hdrFlags (h : List (BitVec 8)) : Nat := leAt h 3 1
def hdrStream (h : List (BitVec 8)) : Nat := leAt h 4 2
def hdrOpcode (h : List (BitVec 8)) : Nat := leAt h 6 2
def hdrSeq (h : List (BitVec 8)) : Nat := leAt h 8 6
def pktLen (h : List (BitVec 8)) : Nat := leAt h 14 2
def hdrDeadline (h : List (BitVec 8)) : Nat := leAt h 16 4
def flagStrm (h : List (BitVec 8)) : Bool := decide (hdrFlags h / 2 % 2 = 1)
def flagQry (h : List (BitVec 8)) : Bool := decide (hdrFlags h / 4 % 2 = 1)

/-- The Ledger position of slot n (R531). -/
def lposOf (n : Nat) (v : Slot) : Nat := v.gen * 0x20000 + n

/-- The slot an LPOS names now, if it still does. -/
def State.byLpos (s : State) (l : Nat) : Option (Nat × Slot) :=
  match s.slot? (l % 0x20000) with
  | some v => if v.gen = l / 0x20000 then some (l % 0x20000, v) else none
  | none => none

/-- The unretired commands of a stream, by slot. -/
def State.inStream (s : State) (n : Nat) : List (Nat × Slot) := s.ldg.live.slots.filter (fun e => e.2.stream = n)

/-- The credits of a stream that are free (R530, R548). -/
def State.freeCredits (s : State) (n : Nat) : Nat := (s.stream n).credits - (s.inStream n).length

/-- Bytes of the effect area in use: released effects that are not complete (R562). -/
def State.effUse (s : State) : Nat :=
  s.ldg.live.slots.foldl (fun a e => e.2.effs.foldl (fun b f => if f.st = .ready ∨ f.st = .released then b + f.len else b) a) 0
abbrev effArea : Nat := 0x100000

/-- The registers that follow from the Ledger's state (R571). -/
def State.ldgSync (s : State) : State :=
  let n := s.ldg.live.slots.length
  let pages := s.ldg.live.slots.countP (fun e => e.2.page)
  let r := oLdg + 0x18
  let v := setFld (setFld (s.reg r) 17 0 (131072 - n)) 44 32 (5120 - pages)
  let full := s.ldg.mail.any (fun e => e.2.wait.isSome)
  s.setReg r (setBit (setBit v 61 full) 60 (decide (s.ldg.front + 4352 > 0x100000)))

def State.ldgStat (s : State) (b : Nat) : Bool := bit (s.reg (oLdg + 0x18)) b
def State.setLdgStat (s : State) (b : Nat) (v : Bool) : State := s.setReg (oLdg + 0x18) (setBit (s.reg (oLdg + 0x18)) b v)

/-- Bytes written into the journal front (R546, R550). -/
def State.front (s : State) (n : Nat) : State := s.updLdg (fun l => { l with front := l.front + n })

/-! ### Trailers (R532) -/

/-- One step of the reflected CRC-32C. -/
def crcBits : Nat → Nat → Nat
  | 0, c => c
  | n + 1, c => crcBits n (if c % 2 = 1 then (c / 2) ^^^ 0x82F63B78 else c / 2)
/-- CRC-32C of a list of bytes. -/
def crc32c (bs : List (BitVec 8)) : Nat := (bs.foldl (fun c b => crcBits 8 (c ^^^ b.toNat)) 0xFFFFFFFF) ^^^ 0xFFFFFFFF

/-- The trailer of a stream over bytes, with the customisation text; none while the stream has no key. -/
def State.trailer (s : State) (n : Nat) (text : String) (bs : List (BitVec 8)) : Option (List (BitVec 8)) :=
  if (s.stream n).crc then some (leBytes 4 (crc32c bs))
  else (s.key? n).map (fun k => Config.kmac256 k bs 16 (ascii text))

/-- Trailer length T. -/
def State.trailerLen (s : State) (n : Nat) : Nat := if (s.stream n).crc then 4 else 16

/-! ### Replies (R530, R533 to R535) -/

/-- The bytes of a reply with its trailer. -/
def State.replyBytes (s : State) (r : Reply) : List (BitVec 8) :=
  let b := leBytes 2 0xC7A5 ++ leBytes 1 1 ++ leBytes 1 r.flags ++ leBytes 2 r.stream ++ leBytes 2 r.opcode ++ leBytes 6 r.seq
    ++ leBytes 2 r.result.length ++ leBytes 2 r.status ++ leBytes 2 r.credit ++ leBytes 4 r.lpos ++ leBytes 4 r.appcode ++ leBytes 4 0 ++ r.result
  b ++ (s.trailer (r.stream % 0x1000) "HR7264 RPL" b).getD []

def pairKey (c : BitVec 2) (q : BitVec 4) : Nat := c.toNat * 16 + q.toNat
def State.qpair (s : State) (k : Nat) : QPair := Tbl.get (fun _ => QPair.empty) s.ldg.pairs k
def State.setQpair (s : State) (k : Nat) (p : QPair) : State :=
  s.updLdg (fun l => { l with pairs := Tbl.set (fun _ => QPair.empty) l.pairs k p })

/-- Free entries of a completion queue (R534). -/
def QPair.cqRoom (p : QPair) : Nat := 2 ^ p.cqLog - 1 - (p.cqTail + 2 ^ p.cqLog - p.cqHead) % 2 ^ p.cqLog

/-- A reply as its transport carries it: a result longer than a PCIe result buffer is cut (R534). -/
def cutReply (o : ReplyOut) : ReplyOut :=
  match o.via with
  | .pcie _ _ _ _ size =>
    if o.r.result.length > size.toNat then { o with r := { o.r with result := o.r.result.take size.toNat, flags := o.r.flags ||| 8 } } else o
  | _ => o

/-- Completion entries are written while the queue has room (R534). -/
def pumpPair (k : Nat) : Nat → State → State
  | 0, s => s
  | fuel + 1, s =>
    let p := s.qpair k
    match p.wait with
    | [] => s
    | o :: os =>
      if !p.en ∨ p.cqRoom = 0 then s
      else
        let t := (p.cqTail + 1) % 2 ^ p.cqLog
        let p1 := { p with wait := os, cqTail := t, phase := if t = 0 then !p.phase else p.phase }
        pumpPair k fuel ((s.setQpair k p1).updLdg (fun l => { l with sent := cutReply o :: l.sent }))

/-- Replies enter the Service Port's queue of 32 (R535). -/
def State.pumpSp (s : State) : State :=
  let n := 32 - s.ldg.spQ.length
  s.updLdg (fun l => { l with spQ := l.spQ ++ l.spWait.take n, spWait := l.spWait.drop n })

/-- Send a reply by the way of its request; over UDP it goes to the stream's last authenticated peer (R533). -/
def State.sendReply (s : State) (via : Via) (r : Reply) : State :=
  match via with
  | .udp _ =>
    match (s.stream (r.stream % 0x1000)).peer with
    | some p => s.updLdg (fun l => { l with sent := ⟨.udp p, r⟩ :: l.sent })
    | none => s
  | .sp => (s.updLdg (fun l => { l with spWait := l.spWait ++ [⟨.sp, r⟩] })).pumpSp
  | .pcie c q _ _ _ =>
    let k := pairKey c q
    let p := s.qpair k
    pumpPair k 1 (s.setQpair k { p with wait := p.wait ++ [⟨via, r⟩] })

/-- The reply to a request header with a status. -/
def State.mkReply (s : State) (h : List (BitVec 8)) (status app lpos : Nat) (trunc : Bool) (res : List (BitVec 8)) : Reply :=
  { stream := hdrStream h % 0x8000, opcode := hdrOpcode h, seq := hdrSeq h
    flags := 1 + 2 * b2n (flagStrm h) + 4 * b2n (flagQry h) + 8 * b2n trunc, status := status
    credit := s.freeCredits (hdrStream h % 0x1000), lpos := lpos, appcode := app, result := res }

/-- CE counter i (R568). -/
def State.ceCount (s : State) (i : Nat) : State := s.count (oCe + 0x100 + 8 * i)

/-- The status codes of R540. -/
abbrev stAccepted : Nat := 1
abbrev stDone : Nat := 2
abbrev stFailed : Nat := 3
abbrev stDeadline : Nat := 4
abbrev stGap : Nat := 0x10
abbrev stConflict : Nat := 0x11
abbrev stStale : Nat := 0x12
abbrev stLength : Nat := 0x13
abbrev stFormat : Nat := 0x14
abbrev stOpcode : Nat := 0x15
abbrev stAuth : Nat := 0x16
abbrev stStream : Nat := 0x17
abbrev stMode : Nat := 0x18
abbrev stReserve : Nat := 0x19
abbrev stMirror : Nat := 0x1A
abbrev stCredit : Nat := 0x1B
abbrev stBusy : Nat := 0x1C

/-- The application codes of management commands (R543). -/
abbrev apBadParam : Nat := 1
abbrev apIsOpen : Nat := 2
abbrev apNoKey : Nat := 3
abbrev apBadSig : Nat := 4
abbrev apNotAllowed : Nat := 5

/-- A refusal reply, counted (R568). -/
def State.refuse (s : State) (via : Via) (h : List (BitVec 8)) (status app : Nat) : State :=
  let s1 := s.ceCount 6
  s1.sendReply via (s1.mkReply h status app 0 false [])

/-! ### Release of effects, final replies, retirement (R548, R557 to R562) -/

/-- The transmit queues of an Ethernet port, and a CAN channel. -/
def State.ethPort (s : State) (p : Nat) : EthPort := Tbl.get (fun _ => EthPort.reset) s.eth p
def State.setEth (s : State) (p : Nat) (v : EthPort) : State := { s with eth := Tbl.set (fun _ => EthPort.reset) s.eth p v }
def State.canCh (s : State) (h : Nat) : CanCh := Tbl.get (fun _ => CanCh.reset) s.can h
def State.setCan (s : State) (h : Nat) (v : CanCh) : State := { s with can := Tbl.set (fun _ => CanCh.reset) s.can h v }
def EthPort.push (e : EthPort) (q : Nat) (f : TxFrame) : EthPort :=
  { e with queues := Tbl.insert e.queues q ((Tbl.look e.queues q).getD [] ++ [f]) }

/-- Hand effect e of slot n to its target (R561): none while the target cannot take it. -/
def State.handOver (s : State) (n : Nat) (v : Slot) (e : Eff) : Option (State × EffSt) :=
  if e.kind = 1 then
    let p := fld e.target 1 0
    some (s.setEth p ((s.ethPort p).push (fld e.target 4 2) ⟨.eff n v.gen e.idx, e.data⟩), .released)
  else if e.kind = 2 then
    let c := fld e.target 1 0
    some (s.setCan c { s.canCh c with txq := (s.canCh c).txq ++ [(n, v.gen, e.idx)] }, .released)
  else if e.kind = 3 then
    let o := oPls + fld e.target 15 3 * 8
    some ({ s with outbox := s.outbox ++ [.store 0 0x42 (0x7F0000000000 + o) 8 (Word.rawN (leNat e.data)) 0] }, .complete)
  else
    let bs := (List.range (e.len / 8)).map (fun i => leAt e.data (8 * i) 8)
    (s.storeRelease v.stream v.seq e.idx (lposOf n v) bs).map (fun t => (t, .complete))

/-- Replace one effect of a slot. -/
def setEff (v : Slot) (e : Eff) : Slot := { v with effs := v.effs.map (fun f => if f.idx = e.idx then e else f) }

/-- Release the ready effects of slot n in index order; false when one has to wait. -/
def pumpEffs (n : Nat) : Nat → State → State × Bool
  | 0, s => (s, true)
  | fuel + 1, s =>
    match s.slot? n with
    | none => (s, true)
    | some v =>
      match v.effs.find? (fun e => e.st = .ready) with
      | none => (s, true)
      | some e =>
        match s.handOver n v e with
        | none => (s, false)
        | some (s1, st) =>
          match s1.slot? n with
          | none => (s1, true)
          | some v1 => pumpEffs n fuel ((s1.putSlot n (setEff v1 { e with st := st })).front 16)

/-- Send the final reply of slot n once, after its effects (R557). -/
def State.finalReply (s : State) (n : Nat) : State :=
  match s.slot? n with
  | none => s
  | some v =>
    if v.st ≠ .ended ∨ v.replied then s
    else
      let s1 := s.putSlot n { v with replied := true }
      s1.sendReply v.via (s1.mkReply v.hdr v.status v.appcode (lposOf n v) false v.result)

/-- A stream that closes and holds no unretired command is closed, its key erased, and its STREAM_CLOSE commits (R543,
R637): the slot of that command, if one waits. -/
def State.closable (s : State) (n : Nat) : Bool := (s.stream n).st = 2 && (s.inStream n).isEmpty

/-- Retire slot n when it has ended, its reply is taken and every released effect is complete (R548). -/
def State.retire? (s : State) (n : Nat) : State :=
  match s.slot? n with
  | none => s
  | some v =>
    if v.st ≠ .ended ∨ !v.replied ∨ v.effs.any (fun e => e.st = .ready || e.st = .released) then s
    else
      let st := s.stream v.stream
      let win := st.window ++ [⟨v.seq, v.status, v.appcode, v.trailer⟩]
      let s1 := s.setStream v.stream { st with window := win.drop (win.length - 64) }
      let s2 := s1.updLive (fun l => { l with
        slots := Tbl.erase l.slots n
        gens := Tbl.set (fun _ => 0) l.gens n ((v.gen + 1) % 32768) })
      let s3 := (s2.front 256).ldgSync
      if v.status = stDone then s3.retireFrames (lposOf n v) else s3

/-- The slots of a stream in SEQ order. -/
def seqOrder (xs : List (Nat × Slot)) : List (Nat × Slot) := xs.insertionSort (fun a b => a.2.seq ≤ b.2.seq)

/-- Release what may be released on a stream, in SEQ order (R527, R559). -/
def pumpList : List (Nat × Slot) → State → State
  | [], s => s
  | (n, _) :: rest, s =>
    let r := pumpEffs n 256 s
    if !r.2 then r.1
    else
      match r.1.slot? n with
      | none => pumpList rest r.1
      | some v => if v.st = .ended then pumpList rest ((r.1.finalReply n).retire? n) else r.1

/-- End slot n with a final status (R554, R556): what its command held goes. -/
def State.endSlot (s : State) (n status app : Nat) (res : List (BitVec 8)) : State :=
  match s.slot? n with
  | none => s
  | some v =>
    let l := lposOf n v
    let keep := v.effs.filter (fun e => e.st ≠ .held)
    let s1 := s.putSlot n { v with st := .ended, status := status, appcode := app, result := res, effs := keep }
    let s2 := { s1 with runs := s1.runs.filter (fun e => e.2 ≠ l) }
    let s3 := s2.updLdg (fun g => { g with
      mail := g.mail.map (fun e => (e.1, if e.2.next = some l then { e.2 with next := none } else e.2)), held := g.held.filter (· ≠ n) })
    let s4 := (s3.front (256 + res.length))
    if status = stDone then s4.keysCurrent l else (s4.keysDropped l).dropFrames l

/-- A pending STREAM_CLOSE of stream n commits when the stream is empty (R543, R637). -/
def State.tryClose (s : State) (n : Nat) : State :=
  if !s.closable n then s
  else
    let s1 := (s.setStream n (defaultStream n)).eraseKey n
    let waits (e : Nat × Slot) : Bool := e.2.st = .inMode && hdrOpcode e.2.hdr = 0x11 && leAt e.2.params 0 2 = n
    (s1.ldg.live.slots.filter waits).foldl (fun s e => s.endSlot e.1 stDone 0 []) s1

/-- Everything of a stream that can move on does. -/
def State.pumpStream (s : State) (n : Nat) : State :=
  let s1 := pumpList (seqOrder (s.inStream n)) s
  s1.tryClose n

/-- The streams that have unretired commands or close. -/
def State.busyStreams (s : State) : List Nat :=
  ((s.ldg.live.slots.map (fun e => e.2.stream)) ++ (s.ldg.live.streams.filter (fun e => e.2.st = 2)).map (·.1)).eraseDups

/-- All streams move on, twice, so that a STREAM_CLOSE that commits is answered and retired too. -/
def State.pump (s : State) : State :=
  let go (s : State) : State := s.busyStreams.foldl (fun s n => s.pumpStream n) s
  (go (go s)).ldgSync

/-- Store commits that waited for the mount or for room in the store journal are released (R593, R594). -/
def State.releaseMore (s : State) : State :=
  if s.ldg.live.slots.any (fun e => e.2.effs.any (fun f => f.st = .ready)) then s.pump else s

/-- End slot n and let its stream move on. -/
def State.endCmd (s : State) (n status app : Nat) (res : List (BitVec 8)) : State := (s.endSlot n status app res).pump

/-! ### Queries (R542, R543, R632, R633, R721) -/

/-- FAILED with an APPCODE, or DONE with a result. -/
def State.answerQuery (s : State) (via : Via) (h : List (BitVec 8)) (app : Nat) (res : List (BitVec 8)) : State :=
  s.sendReply via (s.mkReply h (if app = 0 then stDone else stFailed) app 0 false res)

/-- The STREAM_INFO result (R543; widths: assumption 31). -/
def State.streamInfo (s : State) (n : Nat) : List (BitVec 8) :=
  let t := s.stream n
  leBytes 1 t.st ++ leBytes 1 t.transport ++ leBytes 1 (b2n t.crc) ++ leBytes 2 t.credits ++ leBytes 2 (s.freeCredits n)
    ++ leBytes 1 (b2n t.strmOk) ++ leBytes 1 t.ctxA ++ leBytes 1 t.ctxB ++ leBytes 6 t.lastSeq

/-- The STATUS result: eight words (R543). -/
def State.statusWords (s : State) : List (BitVec 8) :=
  wordBytes [p64 s.mode, s.reg (oLdg + 0x18), s.reg (oTwin + 0x28), p64 (b2n (bit (s.reg (oPwr + 0x18)) 63)), s.reg (oCe + 0x138),
    s.reg (oCe + 0x130), s.time, feat3]

/-- TELEM_READ (R721). -/
def State.telemRead (s : State) (first n : Nat) : List (BitVec 8) :=
  ((s.bgs.tel.filter (fun r => decide (first ≤ r.seq))).take (min n 128)).flatMap
    (fun r => wordBytes [(r.word 0).pay, (r.word 1).pay, (r.word 2).pay, (r.word 3).pay])

/-- Take an ATTEST query (R631, R632): signing starts once the identity stands. -/
def State.attest (s : State) (via : Via) (h : List (BitVec 8)) (nonce : List (BitVec 8)) : State :=
  if s.sec.att.isSome then s.refuse via h stBusy 0
  else if s.secStat 62 then s.answerQuery via h apNoKey []
  else
    let a : AttReq := ⟨via, hdrStream h, hdrFlags h, nonce, s.reportBody nonce⟩
    let s1 := s.updSec (fun c => { c with att := some a })
    if s.secStat 63 then s1.setSecStat 61 true else s1

/-- Answer a query (R542). -/
def State.query (s0 : State) (via : Via) (h params : List (BitVec 8)) : State :=
  let s := s0.ceCount 9
  let op := hdrOpcode h
  if op = 0 then (if params.isEmpty then s.answerQuery via h 0 s.statusWords else s.answerQuery via h apBadParam [])
  else if op = 1 then
    if params.length = 2 ∧ leAt params 0 2 < 0x1000 then s.answerQuery via h 0 (s.streamInfo (leAt params 0 2)) else s.answerQuery via h apBadParam []
  else if op = 2 then
    if params.length = 6 ∧ leAt params 4 2 ≠ 0 then s.answerQuery via h 0 (s.telemRead (leAt params 0 4) (leAt params 4 2))
    else s.answerQuery via h apBadParam []
  else if op = 3 then (if params.length = 32 then s.attest via h params else s.answerQuery via h apBadParam [])
  else if op = 4 then
    if params.length = 4 ∧ !s.sec.report.isEmpty ∧ leAt params 0 4 < reportLen then
      s.answerQuery via h 0 ((s.sec.report.drop (leAt params 0 4)).take 4096)
    else s.answerQuery via h apBadParam []
  else s0.refuse via h stOpcode 0

/-- The header of an ATTEST reply is built again from what the query left (R530). -/
def AttReq.hdr (a : AttReq) : List (BitVec 8) :=
  leBytes 2 0xC7A5 ++ leBytes 1 1 ++ leBytes 1 a.flags ++ leBytes 2 a.stream ++ leBytes 2 3 ++ leBytes 6 0 ++ leBytes 2 32 ++ leBytes 16 0

/-- The report is signed (R632). -/
def State.attestSigned (s : State) : State :=
  match s.sec.att with
  | none => s
  | some a =>
    if !s.secStat 63 then s
    else
      let s1 := (s.updSec (fun c => { c with att := none, report := c.signed a.body })).setSecStat 61 false
      s1.answerQuery a.via a.hdr 0 (leBytes 4 reportLen)

/-- The identity is derived, or not (R628, R632). -/
def State.identity (s : State) (ok : Bool) : State :=
  if s.secStat 63 ∨ s.secStat 62 then s
  else if ok then (let s1 := s.setSecStat 63 true; if s1.sec.att.isSome then s1.setSecStat 61 true else s1)
  else
    let s1 := s.setSecStat 62 true
    match s1.sec.att with
    | none => s1
    | some a => (s1.updSec (fun c => { c with att := none })).answerQuery a.via a.hdr apNoKey []

/-! ### Arrival (R537 to R546) -/

/-- An opcode that R543 refuses on stream n in a packet with QRY = 0. -/
def opRefused (op n : Nat) : Bool :=
  let ledgered := op = 0x10 || op = 0x11 || op = 0x20 || op = 0x21 || op = 0x30
  if op < 0x1000 then !ledgered || 5 ≤ n else n < 5

/-- R544: the command may not come on a CRC stream. -/
def State.crcBars (s : State) (op : Nat) (ps : List (BitVec 8)) : Bool :=
  if op < 0x1000 then
    if op = 0x20 ∨ op = 0x21 then false
    else if op = 0x30 then leAt ps 0 1 ≠ 4
    else if op = 0x10 then
      (if leAt ps 3 1 = 1 then leAt ps 2 1 ≠ 4 else (s.key? (leAt ps 0 2)).isNone)
    else true
  else false

/-- The transport a packet came by, as STREAM_OPEN codes it, and whether it is on (R569). -/
def viaCode (v : Via) : Nat := match v with | .udp _ => 0 | .pcie c _ _ _ _ => 1 + c.toNat | .sp => 4
def State.viaOn (s : State) (v : Via) : Bool :=
  match v with
  | .udp _ => bit (s.reg (oCe + 0x10)) 0
  | .pcie c _ _ _ _ => bit (s.reg (oCe + 0x10)) (1 + c.toNat)
  | .sp => bit (s.reg (oCe + 0x10)) 4

/-- The lowest free slot (assumption 21). -/
def State.freeLedgerSlot (s : State) : Option Nat := firstN 131072 0 (fun n => (s.slot? n).isNone)

/-- Acceptance (R546): slot, parameters and LASTSEQ enter the journal front, and ACCEPTED is sent, after the mirror
peer's acknowledgement where that is asked for (R566). -/
def State.accept (s : State) (via : Via) (h params trailer : List (BitVec 8)) (slot : Nat) : State :=
  let n := hdrStream h % 0x1000
  let page := decide (params.length > 160)
  let mir := s.reg (oLdg + 0x28)
  let wait := bit mir 63 && bit mir 62 && !s.ldgStat 62
  let v : Slot :=
    { stream := n, seq := hdrSeq h, hdr := h, params := params, trailer := trailer, gen := Tbl.get (fun _ => 0) s.ldg.live.gens slot
      page := page, accepted := s.time, attempt := 0, emit := 0, replay := false, st := .waiting, status := 0, appcode := 0
      result := [], effs := [], next := 0, bytes := 0, replied := false, mirrorWait := wait, via := via }
  let s1 := (s.putSlot slot v).setStream n { s.stream n with lastSeq := hdrSeq h }
  let s2 := ((s1.front (256 + if page then 4096 else 0)).ceCount 7).ldgSync
  let s3 := if bit mir 63 ∧ !s.ldgStat 62 then s2.updLdg (fun l => { l with mirQ := l.mirQ ++ [(slot, s.time)] }) else s2
  if wait then s3 else s3.sendReply via (s3.mkReply h stAccepted 0 (lposOf slot v) false [])

/-- A SEQ that is not above LASTSEQ (R541). -/
def State.duplicate (s : State) (via : Via) (h trailer : List (BitVec 8)) : State :=
  let n := hdrStream h % 0x1000
  let st := s.stream n
  let seq := hdrSeq h
  let stale := s.refuse via h stStale ((st.lastSeq + 1) % 2 ^ 32)
  if seq + 63 < st.lastSeq then stale
  else
    match (s.inStream n).find? (fun e => e.2.seq = seq) with
    | some (k, v) =>
      if v.trailer ≠ trailer then s.refuse via h stConflict 0
      else if v.st = .ended then s.sendReply via (s.mkReply h v.status v.appcode (lposOf k v) false v.result)
      else s.sendReply via (s.mkReply h stAccepted 0 (lposOf k v) false [])
    | none =>
      match st.window.find? (fun w => w.seq = seq) with
      | some w => if w.trailer ≠ trailer then s.refuse via h stConflict 0 else s.sendReply via (s.mkReply h w.status w.appcode 0 true [])
      | none => stale

/-- Steps 9 to 16 of R537. -/
def State.arriveCmd (s : State) (via : Via) (h params trailer : List (BitVec 8)) : State :=
  let n := hdrStream h % 0x1000
  let st := s.stream n
  let op := hdrOpcode h
  let mir := s.reg (oLdg + 0x28)
  if hdrSeq h ≤ st.lastSeq then (s.ceCount 8).duplicate via h trailer
  else if hdrSeq h > st.lastSeq + 1 then s.refuse via h stGap ((st.lastSeq + 1) % 2 ^ 32)
  else if st.st = 2 then s.refuse via h stStream 0
  else if opRefused op n then s.refuse via h stOpcode 0
  else if st.crc ∧ s.crcBars op params then s.refuse via h stAuth 0
  else if s.mode = mReserve ∨ s.pwr.pfw then s.refuse via h stReserve 0
  else if s.mode = mBoot ∨ s.mode = mReset then s.refuse via h stMode 0
  else if s.mode = mSafe ∧ 0x1000 ≤ op then s.refuse via h stMode 0
  else if !bit (s.reg (oPwr + 0x18)) 63 then s.refuse via h stReserve 0
  else if bit mir 63 ∧ bit mir 61 ∧ s.ldgStat 62 then s.refuse via h stMirror 0
  else
    match s.freeLedgerSlot with
    | none => s.refuse via h stCredit 0
    | some k =>
      if s.freeCredits n = 0 ∨ (params.length > 160 ∧ s.rf (oLdg + 0x18) 44 32 = 0) then s.refuse via h stCredit 0
      else s.accept via h params trailer k

/-- A packet of `got` received bytes goes through the checks of R537. -/
def State.arrive (s : State) (via : Via) (bs : List (BitVec 8)) : State :=
  let got := bs.length
  let h := bs.take 32
  let id := hdrStream h
  let n := id % 0x1000
  let st := s.stream n
  let t := s.trailerLen n
  let len := pktLen h
  if !s.viaOn via ∨ (s.mode = mReset ∧ !s.pwr.pfw) then s
  else if got < 32 then s.ceCount 0
  else if leAt h 0 2 ≠ 0xC7A5 then s.ceCount 1
  else if id / 0x1000 % 8 ≠ s.dnum.toNat then s.ceCount 2
  else if st.st = 0 ∨ st.transport ≠ viaCode via then s.ceCount 3
  else if len > 4096 ∨ 32 + len + t > got then (s.ceCount 4).refuse via h stLength 0
  else
    let params := (bs.drop 32).take len
    let tr := (bs.drop (32 + len)).take t
    if s.trailer n "HR7264 CMD" (bs.take (32 + len)) ≠ some tr then s.ceCount 5
    else
      let s1 := match via with | .udp p => s.setStream n { st with peer := some p } | _ => s
      let f := hdrFlags h
      let bad := hdrVer h ≠ 1 || 0x8000 ≤ id || leAt h 20 12 ≠ 0 || f % 2 = 1 || 8 ≤ f || (!flagQry h && hdrSeq h = 0)
        || (flagQry h && hdrSeq h ≠ 0) || (flagStrm h && !st.strmOk)
      if bad then s1.refuse via h stFormat 0
      else if flagQry h then s1.query via h params
      else s1.arriveCmd via h params tr

/-- A datagram that the CE cannot take while the journal front is full is dropped at its port (R35, R550). -/
def State.udpPacket (s : State) (p : Peer) (bs : List (BitVec 8)) : State :=
  if s.ldgStat 60 then s.count (oEth + 0x100 * (p.port.toNat + 1) + 0x50) else s.arrive (.udp p) bs

/-- The Service Port can take a packet (R535). -/
def State.spReady (s : State) : Bool := decide (s.ldg.spQ.length < 32) && !s.ldgStat 60

/-- R535: command 0x5A; a packet that finds no room is discarded and counted (R35; assumption 103). -/
def State.spWrite (s : State) (bs : List (BitVec 8)) : State :=
  if s.spReady then s.arrive .sp bs else s.updLdg (fun l => { l with spDrops := l.spDrops + 1 })

/-- R535: command 0xA5 takes the oldest reply; the bytes read go to `answer` as their count. -/
def State.spRead (s : State) : State :=
  match s.ldg.spQ with
  | [] => { s with answer := some (Word.rawN 0) }
  | o :: os =>
    let s1 := (s.updLdg (fun l => { l with spQ := os, sent := o :: l.sent })).pumpSp
    { s1 with answer := some (Word.rawN (s.replyBytes o.r).length) }

/-- R535: command 0xC3. -/
def State.spStatus (s : State) : State := { s with answer := some (Word.rawN (b2n !s.ldg.spQ.isEmpty + 2 * b2n s.spReady)) }

/-! ### PCIe queue pairs (R534) -/

/-- Fetch request packets that the host memory holds from the SQ head up, while a CQ entry is free for each. -/
def fetchSq (c : BitVec 2) (q : BitVec 4) : List SqEntry → State → State
  | [], s => s
  | e :: es, s =>
    let k := pairKey c q
    let p := s.qpair k
    if !p.en ∨ p.sqHead = p.sqTail ∨ p.cqRoom = 0 ∨ !p.wait.isEmpty ∨ s.ldgStat 60 then s
    else
      let s1 := s.setQpair k { p with sqHead := (p.sqHead + 1) % 2 ^ p.sqLog }
      fetchSq c q es (s1.arrive (.pcie c q e.cookie e.buf e.size) (e.bytes.take e.len.toNat))

/-- The pair belongs to a controller in endpoint mode. -/
def State.endpoint (s : State) (c : Nat) : Bool :=
  let r := s.reg (oPcie + 0x100 * (c + 1))
  decide (c < 3) && bit r 63 && !bit r 8

def State.sqDoorbell (s : State) (c : BitVec 2) (q : BitVec 4) (tail : Nat) (es : List SqEntry) : State :=
  if !s.endpoint c.toNat then s
  else
    let k := pairKey c q
    let p := s.qpair k
    fetchSq c q es (s.setQpair k { p with sqTail := tail % 2 ^ p.sqLog })

def State.cqDoorbell (s : State) (c : BitVec 2) (q : BitVec 4) (head : Nat) (es : List SqEntry) : State :=
  if !s.endpoint c.toNat then s
  else
    let k := pairKey c q
    let p := s.qpair k
    let s1 := pumpPair k p.wait.length (s.setQpair k { p with cqHead := head % 2 ^ p.cqLog })
    fetchSq c q es s1

/-! ### Dispatch (R551, R552) -/

/-- Context x may be dispatched to: its twin runs and presents it; in Quiet an Off twin counts as tight (R551,
R673). -/
def State.bindable (s : State) (x : Nat) : Bool :=
  let w := s.twin (twinOf x)
  (!w.moving && (w.mode = .tight || w.mode = .loose || w.mode = .solo || w.mode = .split) && (s.presentedOf (twinOf x)).contains x)
    || (w.mode = .off && s.mode = mQuiet && x % 8 < 4)

/-- The words of an image (R552). -/
def imageWords (n : Nat) (v : Slot) : List Word :=
  let w0 := setBit (setBit (atFld 55 48 v.emit ||| atFld 47 32 v.attempt ||| atFld 31 0 (lposOf n v)) 57 v.replay) 56 (flagStrm v.hdr)
  let pad (bs : List (BitVec 8)) : List Word := (List.range ((bs.length + 7) / 8)).map (fun i => Word.rawN (leAt bs (8 * i) 8))
  [Word.raw w0, Word.raw v.accepted] ++ pad v.hdr ++ pad v.params

/-- The stream's earlier commands have all committed (R527). -/
def State.turn (s : State) (n : Nat) (v : Slot) : Bool :=
  (s.inStream v.stream).all (fun e => e.1 = n || v.seq < e.2.seq || e.2.st = .ended)

/-- A dispatch that cannot be made holds its stream (R551). -/
def State.holdStream (s : State) (n : Nat) (img : Bool) : State :=
  let s1 := s.setLdgStat 59 true
  let s2 := if img then s1.setLdgStat 58 true else s1
  let s3 := s2.updLdg (fun l => { l with held := if l.held.contains n then l.held else l.held ++ [n] })
  if s.ldg.held.contains n then s3 else s3.assertSource 0x59

/-- Dispatch the command in slot n (R551); a halted context gets it once SYS_START has started it (R694; assumption 111). -/
def State.dispatch (s : State) (n : Nat) : State :=
  match s.slot? n with
  | none => s
  | some v =>
    let st := s.stream v.stream
    if v.st ≠ .waiting ∨ v.stream < 5 ∨ !s.turn n v ∨ !bit (s.reg (oLdg + 0x10)) 0 ∨ bit (s.reg (oLdg + 0x10)) 1
        ∨ s.ldgStat 63 ∨ v.mirrorWait ∨ s.mode = mSafe ∨ s.mode = mReserve ∨ s.mode = mReset then s
    else
      match (if s.bindable st.ctxA then some st.ctxA else if s.bindable st.ctxB then some st.ctxB else none) with
      | none => s.holdStream n false
      | some x =>
        let m := Tbl.get (fun _ => Mail.empty) s.ldg.mail x
        if s.sys.quiet ≠ .none ∧ 8 ≤ twinOf x / 4 * 8 then s
        else if m.next.isSome then s
        else if !(s.ctx x).started ∧ s.mode ≠ mQuiet then s
        else
          let a := s.rf (oLdg + 0x20) 47 13 * 0x2000 + 0x2000 * x
          if !s.inDram a 0x2000 then s.holdStream n true
          else
            let s1 := s.engWords a (imageWords n v)
            let s2 := s1.putSlot n { v with st := .sent x }
            let s3 := s2.updLdg (fun l => { l with
              mail := Tbl.set (fun _ => Mail.empty) l.mail x { m with next := some (lposOf n v) }, held := l.held.filter (· ≠ n) })
            s3.setLatch x

/-- A write of LDG_IMGBASE tries held dispatches again (R551). -/
def State.retryHeld (s : State) : State := s.ldg.held.foldl (fun s n => s.dispatch n) s

/-! ### The mailbox (R553 to R562) -/

def State.mail (s : State) (x : Nat) : Mail := Tbl.get (fun _ => Mail.empty) s.ldg.mail x
def State.setMail (s : State) (x : Nat) (m : Mail) : State := s.updLdg (fun l => { l with mail := Tbl.set (fun _ => Mail.empty) l.mail x m })

/-- A load of LDG_NEXTx takes the dispatch (R553). -/
def State.takeNext (s : State) (x : Nat) : Pay × State :=
  match (s.mail x).next with
  | none => (0, s)
  | some l =>
    let s1 := { (s.setMail x { s.mail x with next := none }) with runs := Tbl.insert s.runs x l }
    match s.byLpos l with
    | some (n, v) => (setBit (p64 l) 63 true, s1.putSlot n { v with st := .running x })
    | none => (setBit (p64 l) 63 true, s1)

/-- The acknowledgement codes of R555. -/
abbrev ackOk : Nat := 0
abbrev ackStale : Nat := 1
abbrev ackForm : Nat := 2
abbrev ackLimit : Nat := 3
abbrev ackAddr : Nat := 4
abbrev ackSuppressed : Nat := 5
abbrev ackNotStrm : Nat := 6

/-- Contexts that wait for an answer from a register run again. -/
def State.wakeReg (s : State) (off : Nat) : State :=
  (s.ctxs.filter (fun e => e.2.run = .reg off)).foldl (fun s e => s.updCtx e.1 (fun c => { c with run := .run })) s

/-- A request of context x is processed (R555). -/
def State.ack (s : State) (x : Nat) (commit : Bool) (idx code : Nat) : State :=
  let w := setBit (atFld 57 56 (if commit then 1 else 2) ||| atFld 47 40 idx ||| atFld 7 0 code) 63 true
  (s.setMail x { s.mail x with ack := some w, wait := none }).wakeReg (oLdg + 0x8018 + 0x20 * x)

/-- The command that runs on x under LPOS l (R555 STALE). -/
def State.runsOn (s : State) (x l : Nat) : Option (Nat × Slot) :=
  match s.byLpos l with
  | some (n, v) => if v.st = .running x then some (n, v) else none
  | none => none

/-- R732: the payload of a CAN effect. -/
def State.canPayloadOk (s : State) (ch : Nat) (bs : List (BitVec 8)) : Bool :=
  let w := p64 (leAt bs 0 8)
  let dlc := fld w 35 32
  let fdf := bit w 30
  let big := if dlc ≤ 8 then dlc else if dlc = 9 then 12 else if dlc = 10 then 16 else if dlc = 11 then 20 else if dlc = 12 then 24
    else if dlc = 13 then 32 else if dlc = 14 then 48 else 64
  let n := if fdf then big else min dlc 8
  decide (8 ≤ bs.length) && fld w 63 36 = 0 && decide (bs.length = 8 + n) && !(bit w 31 && !fdf) && (!fdf || bit (s.reg (oCan + 0x400 * (ch + 1))) 62)

/-- The largest frame of port p (R726, R751). -/
def State.maxLen (s : State) (p : Nat) : Nat := min 9018 (max 1514 (s.rf (oEth + 0x100 * (p + 1)) 13 0))

/-- FORM for an effect descriptor's fields (R555, R557). -/
def effFormBad (w0 w1 w2 w3 : Word) : Bool :=
  let k := fld w0.pay 63 60
  let t := w1.pay
  [w0, w1, w2, w3].any (fun w => w.tag ≠ Tag.raw) || k = 0 || 5 ≤ k || fld w0.pay 58 32 ≠ 0 || fld w2.pay 63 48 ≠ 0 || fld w3.pay 63 13 ≠ 0
    || (if k = 1 then fld t 63 5 ≠ 0 else if k = 2 then fld t 63 2 ≠ 0 else if k = 3 then fld t 63 16 ≠ 0 || fld t 2 0 ≠ 0 else t ≠ 0)

/-- FORM for a payload's content and length (R557, R590, R732). -/
def State.payloadBad (s : State) (k l : Nat) (t : Pay) (pa len : Nat) : Bool :=
  if k = 1 then len < 60 || s.maxLen (fld t 1 0) < len
  else if k = 2 then !s.canPayloadOk (fld t 1 0) (s.engBytes pa len)
  else if k = 3 then len ≠ 8
  else !s.commitOk (s.words pa ((len + 7) / 8)) len l

/-- R562: earlier commands of the stream have released everything, so that an effect of slot n may leave at once. -/
def State.mayRelease (s : State) (n : Nat) (v : Slot) : Bool :=
  (s.inStream v.stream).all (fun e => e.1 = n || v.seq < e.2.seq || e.2.effs.all (fun f => f.st ≠ .ready))

/-- An EFFPUT of context x with its descriptor at pa (R555, R557 to R562). -/
def State.effput (s : State) (x pa : Nat) : State :=
  if !s.inDram pa 32 then s.ack x false 0 ackAddr
  else
    let w0 := s.word pa
    let w1 := s.word (pa + 8)
    let w2 := s.word (pa + 16)
    let w3 := s.word (pa + 24)
    let l := fld w0.pay 31 0
    let k := fld w0.pay 63 60
    let now := bit w0.pay 59
    let a := fld w2.pay 47 0
    let len := fld w3.pay 12 0
    match s.runsOn x l with
    | none => s.ack x false 0 ackStale
    | some (n, v) =>
      if effFormBad w0 w1 w2 w3 then s.ack x false 0 ackForm
      else if now ∧ !flagStrm v.hdr then s.ack x false 0 ackNotStrm
      else if !s.inDram a len then s.ack x false 0 ackAddr
      else if s.payloadBad k l w1.pay a len then s.ack x false 0 ackForm
      else if v.next ≥ 255 ∨ v.bytes + len > 0x10000 then s.ack x false 0 ackLimit
      else
        let i := v.next
        let v1 := { v with next := i + 1, bytes := v.bytes + len }
        if now ∧ i < v.emit then (s.putSlot n v1).ack x false i ackSuppressed
        else if !now then
          (s.putSlot n { v1 with effs := v1.effs ++ [⟨i, k, w1.pay, false, a, len, [], .held⟩] }).ack x false i ackOk
        else if s.effUse + len > effArea ∨ !s.mayRelease n v then (s.setMail x { s.mail x with wait := some (false, pa) }).ldgSync
        else
          let e : Eff := ⟨i, k, w1.pay, true, a, len, s.engBytes a len, .ready⟩
          let s1 := (s.putSlot n { v1 with effs := v1.effs ++ [e], emit := i + 1 }).front (16 + len)
          ((pumpEffs n 256 s1).1.ack x false i ackOk).ldgSync

/-- A COMMIT of context x with its descriptor at pa (R554, R555, R559). -/
def State.commitReq (s : State) (x pa : Nat) : State :=
  if !s.inDram pa 32 then s.ack x true 0 ackAddr
  else
    let w0 := s.word pa
    let w1 := s.word (pa + 8)
    let w2 := s.word (pa + 16)
    let w3 := s.word (pa + 24)
    let l := fld w0.pay 31 0
    let kind := fld w0.pay 63 62
    let a := fld w2.pay 47 0
    let len := fld w3.pay 12 0
    match s.runsOn x l with
    | none => s.ack x true 0 ackStale
    | some (n, v) =>
      if [w0, w1, w2, w3].any (fun w => w.tag ≠ Tag.raw) ∨ kind = 0 ∨ kind = 3 ∨ fld w0.pay 61 32 ≠ 0 ∨ fld w1.pay 63 32 ≠ 0
          ∨ fld w2.pay 63 48 ≠ 0 ∨ fld w3.pay 63 13 ≠ 0 ∨ len > 4096 then s.ack x true 0 ackForm
      else if !s.inDram a len then s.ack x true 0 ackAddr
      else
        let need := (v.effs.filter (fun e => e.st = .held)).foldl (fun t e => t + e.len) 0
        if kind = 1 ∧ s.effUse + need > effArea then (s.setMail x { s.mail x with wait := some (true, pa) }).ldgSync
        else
          let effs := if kind = 1 then v.effs.map (fun e => if e.st = .held then { e with data := s.engBytes e.addr e.len, st := .ready } else e)
            else v.effs.filter (fun e => e.st ≠ .held)
          let s1 := (s.putSlot n { v with effs := effs }).front need
          let s2 := s1.endSlot n (if kind = 1 then stDone else stFailed) (fld w1.pay 31 0) (s.engBytes a len)
          (s2.ack x true 0 ackOk).pump

/-- Requests that wait for room are processed again when effects complete (R562). -/
def State.retryWaits (s : State) : State :=
  (s.ldg.mail.filter (fun e => e.2.wait.isSome)).foldl (fun s e =>
    match e.2.wait with
    | some (true, pa) => s.commitReq e.1 pa
    | some (false, pa) => s.effput e.1 pa
    | none => s) s

/-- A target reports effect idx of the slot complete (R561). -/
def State.effectDone (s : State) (n gen idx : Nat) : State :=
  match s.slot? n with
  | none => s
  | some v =>
    if v.gen ≠ gen then s
    else
      let s1 := (s.putSlot n { v with effs := v.effs.map (fun e => if e.idx = idx ∧ e.st = .released then { e with st := .complete } else e) }).front 16
      ((s1.retire? n).pump.retryWaits).pump

/-! ### Ends and restarts (R556, R563) -/

/-- Commands of a context wait in its mailbox no more; a request that waits is void. -/
def State.clearWait (s : State) (x : Nat) : State := s.setMail x { s.mail x with wait := none }

/-- A command ended or restarted under a waiting request: the request is processed as STALE (R555). -/
def State.staleWait (s : State) (x : Nat) : State :=
  match (s.mail x).wait with
  | some (c, _) => s.ack x c 0 ackStale
  | none => s

/-- When a command expires (R556). -/
def expiryOf (v : Slot) : Pay := v.accepted + p64 (hdrDeadline v.hdr * 1000)

/-- R556: the command's deadline expires. -/
def State.deadline (s : State) (n : Nat) : State :=
  match s.slot? n with
  | none => s
  | some v =>
    if hdrDeadline v.hdr = 0 ∨ v.st = .ended then s
    else
      let s1 := (s.timeTo (expiryOf v)).endSlot n stDeadline 0 []
      (match v.st with | .running x => s1.staleWait x | _ => s1).pump

/-- Restart the command in slot n from its start (R563). -/
def State.restartSlot (s : State) (n : Nat) (replay : Bool) : State :=
  match s.slot? n with
  | none => s
  | some v =>
    let l := lposOf n v
    let v1 := { v with
      st := .waiting, attempt := v.attempt + 1, next := 0, bytes := 0, effs := v.effs.filter (fun e => e.st ≠ .held)
      replay := v.replay || replay, accepted := if replay then s.time else v.accepted }
    let s1 := s.putSlot n v1
    let s2 := { s1 with runs := s1.runs.filter (fun e => e.2 ≠ l) }
    let s3 := s2.updLdg (fun g => { g with mail := g.mail.map (fun e => (e.1, if e.2.next = some l then { e.2 with next := none } else e.2)) })
    let s4 := match v.st with | .running x => s3.clearWait x | _ => s3
    (s4.keysDropped l).dropFrames l

/-- Restart the uncommitted commands that are bound to the contexts (R505, R563). -/
def State.restartCmds (s : State) (xs : List Nat) : State :=
  let mine (e : Nat × Slot) : Bool := match e.2.st with | .sent x => xs.contains x | .running x => xs.contains x | _ => false
  (s.ldg.live.slots.filter mine).foldl (fun s e => s.restartSlot e.1 false) s

/-! ### Rebuild and mirror (R564 to R567) -/

def State.rebuild (s : State) : State :=
  if s.mode ≠ mBoot ∨ !s.ldg.trained ∨ s.ldgStat 63 then s else s.setLdgStat 63 true

def State.rebuildEnd (s : State) : State :=
  if !s.ldgStat 63 then s
  else
    let s1 := (s.setLdgStat 63 false).setRf (oPwr + 0x30) 63 63 0
    let s2 := (s1.ldg.live.slots).foldl (fun s e =>
      if e.2.st = .ended then
        s.putSlot e.1 { e.2 with replied := false, effs := e.2.effs.map (fun f => if f.st = .released then { f with st := .ready } else f) }
      else if hdrDeadline e.2.hdr ≠ 0 then s.endSlot e.1 stDeadline 0 []
      else if e.2.stream < 5 then s.putSlot e.1 { e.2 with st := .waiting }
      else s.restartSlot e.1 true) s1
    (s2.updLdg (fun l => { l with front := 0, drained := l.live })).pump

/-- The peer acknowledges a slot (R566). -/
def State.mirrorAck (s : State) (n : Nat) : State :=
  if !s.ldg.mirQ.any (fun e => e.1 = n) then s
  else
    let s1 := s.updLdg (fun l => { l with mirQ := l.mirQ.filter (fun e => e.1 ≠ n) })
    match s1.slot? n with
    | some v => if v.mirrorWait then
        (let s2 := s1.putSlot n { v with mirrorWait := false }
         s2.sendReply v.via (s2.mkReply v.hdr stAccepted 0 (lposOf n v) false [])) else s1
    | none => s1

/-- An acknowledgement is missing for 5 ms (R566, R573). -/
def State.mirrorTimeout (s : State) (n : Nat) : State :=
  match s.ldg.mirQ.find? (fun e => e.1 = n) with
  | none => s
  | some e =>
    let waits := s.ldg.mirQ.map (·.1)
    let s1 := waits.foldl (fun s k => s.mirrorAck k) (s.timeTo (e.2 + 5000000))
    (s1.setLdgStat 62 true).updLdg (fun l => { l with resync := true, mirQ := [] })

def State.mirrorDone (s : State) : State :=
  if s.ldg.resync then (s.setLdgStat 62 false).updLdg (fun l => { l with resync := false }) else s

/-- A peer's mirrored write arrives, authenticated or not (R565). -/
def State.mirrorWrite (s : State) (auth : Bool) (off : Nat) (ws : List Word) : State :=
  if bit (s.reg (oLdg + 0x28)) 0 ∧ auth ∧ (s.key? kMirror).isSome ∧ off + 8 * ws.length ≤ 0x3800000 then
    s.engWords (s.rf (oLdg + 0x30) 47 26 * 0x4000000 + off) ws
  else s

/-- LDG_MIRCTL.RESTORE in Boot, before replay, with the peer's copy (R567). -/
def State.restoreCopy (s : State) (copy : Option Led) : State :=
  if s.mode = mBoot ∧ !s.ldgStat 63 ∧ s.reg 0x10 ≠ 0 then
    match copy with
    | some c => ((s.updLdg (fun l => { l with live := { c with journal := l.live.journal }, drained := { c with journal := l.live.journal } })).setLdgStat 63 true)
    | none => s
  else s

/-! ### The journal front (R550) -/

def State.journalDrain (s : State) : State :=
  (s.updLdg (fun l => { l with front := 0, drained := l.live })).ldgSync

/-! ### Management commands (R543) -/

/-- The management command with opcode `op` in slot n, when it is its turn. -/
def State.mgmt (s : State) (n op : Nat) : Option Slot :=
  match s.slot? n with
  | some v => if v.stream < 5 && hdrOpcode v.hdr = op && v.st = .waiting && s.turn n v && !v.mirrorWait && !s.ldgStat 63 then some v else none
  | none => none

/-- End a management command. -/
def State.endMgmt (s : State) (n app : Nat) : State := s.endCmd n (if app = 0 then stDone else stFailed) app []

def State.streamOpen (s : State) (n : Nat) : State :=
  match s.mgmt n 0x10 with
  | none => s
  | some v =>
    let p := v.params
    let k := leAt p 0 2
    let tr := leAt p 2 1
    let au := leAt p 3 1
    let cr := leAt p 4 2
    if p.length ≠ 16 ∨ 0xFFF < k ∨ 4 < tr ∨ 1 < au ∨ (au = 1 ∧ tr ≠ 4) ∨ cr = 0 ∨ 4096 < cr ∨ 1 < leAt p 8 1 ∨ leAt p 9 7 ≠ 0 then s.endMgmt n apBadParam
    else if (s.stream k).st ≠ 0 then s.endMgmt n apIsOpen
    else if au = 0 ∧ (s.key? k).isNone then s.endMgmt n apNoKey
    else (s.setStream k { st := 1, transport := tr, crc := decide (au = 1), credits := cr, strmOk := decide (leAt p 8 1 = 1), ctxA := leAt p 6 1,
                          ctxB := leAt p 7 1, lastSeq := 0, window := [], peer := none }).endMgmt n 0

def State.streamClose (s : State) (n : Nat) : State :=
  match s.mgmt n 0x11 with
  | none => s
  | some v =>
    let k := leAt v.params 0 2
    if v.params.length ≠ 2 ∨ 0xFFF < k then s.endMgmt n apBadParam
    else if k < 5 then s.endMgmt n apNotAllowed
    else if (s.stream k).st = 0 then s.endMgmt n 0
    else ((s.setStream k { s.stream k with st := 2 }).putSlot n { v with st := .inMode }).pump

def State.blobPut (s : State) (n : Nat) : State :=
  match s.mgmt n 0x20 with
  | none => s
  | some v =>
    let o := leAt v.params 0 4
    let d := v.params.drop 4
    if v.params.length < 4 ∨ o + d.length > 0x10000 then s.endMgmt n apBadParam
    else
      let b := (List.range d.length).foldl (fun t i => Tbl.set (fun _ => 0) t (o + i) (d.getD i 0)) s.ldg.blob
      (s.updLdg (fun l => { l with blob := b, blobLen := max l.blobLen (o + d.length) })).endMgmt n 0

/-- R635 on the key blob in the buffer: an APPCODE, or the key to install at an index, or the slot to revoke. -/
def State.keyBlob (s : State) (stream : Nat) : Nat × Option (Nat × List (BitVec 8)) × Option Nat :=
  let b := (List.range 29952).map (fun i => Tbl.get (fun _ => 0) s.ldg.blob i)
  let kind := leAt b 9 1
  let target := leAt b 10 2
  let pk := (b.drop 96).take 64
  let wkey := (b.drop 64).take 32
  let nonce := (b.drop 32).take 32
  let zeroOk := leAt b 12 4 = 0 && (kind = 1 || kind = 4 || target = 0) && (kind ≠ 4 || leAt b 64 32 = 0)
  let slot := s.sec.slotFor pk 2
  let unwrap (kek : List (BitVec 8)) : List (BitVec 8) :=
    (List.range 32).map (fun i => wkey.getD i 0 ^^^ (Config.kmac256 kek nonce 32 (ascii "HR7264 WRAP")).getD i 0)
  let kek := s.key? kKek
  if s.ldg.blobLen < 29952 ∨ b.take 8 ≠ ascii "HR7264KB" ∨ leAt b 8 1 ≠ 1 ∨ kind = 0 ∨ 4 < kind ∨ !zeroOk
      ∨ (kind = 1 ∧ 0xFFF < target) ∨ (kind = 4 ∧ 3 < target) then (apBadParam, none, none)
  else if slot.isNone ∨ !Config.slhVerify true pk (b.take 160) ((b.drop 160).take 29792) ∨ p64 (leAt b 16 8) ≠ s.sec.devuid
      ∨ leAt b 24 8 ≤ s.ldg.live.kctr.toNat then (apBadSig, none, none)
  else
    match kind with
    | 4 => if s.sec.lastSlot target then (apNotAllowed, none, none) else (0, none, some target)
    | 3 =>
      match kek with
      | none => if stream = 4 ∧ lifeOf s.sec.life = 1 then (0, some (kKek, wkey), none) else (apNotAllowed, none, none)
      | some k => (0, some (kKek, unwrap k), none)
    | _ =>
      match kek with
      | none => (apNoKey, none, none)
      | some k => (0, some (if kind = 1 then target else kMirror, unwrap k), none)

def State.keySet (s : State) (n : Nat) : State :=
  match s.mgmt n 0x21 with
  | none => s
  | some v =>
    let r := s.keyBlob v.stream
    let ctr := p64 (leNat ((List.range 8).map (fun i => Tbl.get (fun _ => 0) s.ldg.blob (24 + i))))
    let s1 := s.updLdg (fun l => { l with blob := [], blobLen := 0 })
    if !v.params.isEmpty then s1.endMgmt n apBadParam
    else if r.1 ≠ 0 then s1.endMgmt n r.1
    else
      let s2 := match r.2.1 with
        | some (i, k) => s1.updSec (fun c => { c with pend := c.pend ++ [(⟨i, lposOf n v, k, ctr⟩ : PendKey)] })
        | none => s1.updLive (fun l => { l with kctr := ctr })
      let s3 := match r.2.2 with
        | some k => s2.updSec (fun c => c.setKslot k { c.kslot k with revoke := true })
        | none => s2
      s3.endMgmt n 0

/-! ### Register accesses of the pages -/

/-- A load from the LDG page: an answer, or none while the request of LDG_ACKx is unprocessed (R553, R555). -/
def State.ldgLoad (s : State) (o : Nat) : Option (Pay × State) :=
  if 0x8000 ≤ o then
    let x := (o - 0x8000) / 0x20
    if o % 0x20 = 0 then some (s.takeNext x)
    else if o % 0x20 = 0x18 then
      (let m := s.mail x
       if m.wait.isSome then none else some (m.ack.getD 0, s.setMail x { m with ack := none }))
    else some (0, s)
  else some (s.reg (oLdg + o), s)

def State.ldgStore (s : State) (o : Nat) (v : Pay) : State :=
  if 0x8000 ≤ o then
    let x := (o - 0x8000) / 0x20
    if o % 0x20 = 8 then s.commitReq x (fld v 47 3 * 8) else if o % 0x20 = 0x10 then s.effput x (fld v 47 3 * 8) else s
  else
    let s1 := s.plainWrite (oLdg + o) v
    if o = 0x20 then s1.retryHeld else s1

end Sys2Proof.Machine
end

