-- ==== Sys2Proof/Machine/Twins.lean ====
section
/-!
DEFINITION. The TWIN block (R475 to R523): transitions between the modes of a twin, recovery from a fault, the
Sentinel role, comparators and delay lines, and the debug halt. What a context does at the comparator stands in
Loose.lean.
-/
namespace Sys2Proof.Machine

/-! ### The Sentinel role (R478, R483, R506) -/

/-- The twin holds the Sentinel role. -/
def State.hasRole (s : State) (t : Nat) : Bool := decide (t < 2) && s.rf (oTwin + 0x28) 62 62 = t
/-- The other Keeper twin can take the role: it is in tight or loose mode, in no transition and no recovery. -/
def State.standby (s : State) (t : Nat) : Bool :=
  let w := s.twin (1 - t)
  (w.mode = .tight || w.mode = .loose) && !w.moving
def State.passRole (s : State) (t : Nat) : State :=
  if s.hasRole t && s.standby t then s.setRf (oTwin + 0x28) 62 62 (1 - t) else s

/-! ### TWIN_CMDSTAT (R519) -/

abbrev twDone : Nat := 1
abbrev twIllegal : Nat := 2
abbrev twBusy : Nat := 3
abbrev twNoKeep : Nat := 4
abbrev twSentinel : Nat := 5
abbrev twBistFail : Nat := 6
abbrev twPower : Nat := 7
abbrev twDelay : Nat := 8

/-- A command ends, or is refused, with RESULT r. -/
def State.cmdResult (s : State) (t r : Nat) : State := s.setReg (oTwin + 0x18) (atFld 62 59 r ||| atFld 4 0 t)

/-! ### Cores and contexts that stop, start and are copied -/

/-- The L1D of core k is written back and invalidated, Keep SRAM lines only when `keep` (R417, R481). -/
def State.emptyL1d (s : State) (k : Nat) (keep : Bool) : State :=
  (((s.core k).l1d.map (·.1)).filter (fun l => keep || !isKeepLine l)).foldl (fun s l => s.l1dDrop k l) s
def State.emptyL1i (s : State) (k : Nat) : State := s.updCore k (fun c => { c with l1i := [], l1iLk := [] })

/-- R503 step 6: L1s and TLB empty, per-core special registers at reset; slots survive (R280), and the ring 0 part of
the vector latch is read again. -/
def State.freshCore (s : State) (k : Nat) : State :=
  let s1 := (s.emptyL1d k true).emptyL1i k
  let base := fld (s1.reg (oSec + 0xE00)) 47 11 * 2048
  let l0 := if (s1.core k).latch0 = [] then [] else s1.latchOf k base true
  s1.updCore k (fun c => { c with sr := [], tlb := [], victim := 0, latch1 := [], latch0 := l0 })

/-- R482 step 4, per core: special registers, CYC, every TLB entry, the vector latch. -/
def State.mirrorCore (s : State) (src dst : Nat) : State :=
  let c := s.core src
  let s1 := (s.emptyL1d dst true).emptyL1i dst
  s1.updCore dst (fun d => { d with sr := c.sr, tlb := c.tlb, victim := c.victim, latch1 := c.latch1, latch0 := c.latch0, satb := c.satb })

/-- A context that no core runs any more: what the Event Router holds for it stays (R204, R741). -/
def State.dropCtx (s : State) (x : Nat) : State :=
  s.updCtx x (fun c => { Ctx.reset with evHeld := c.evHeld, linesHeld := c.linesHeld })

/-- The shadow's context numbers present nothing: what is held for them goes to the leader's (R477). -/
def State.dropUpper (s : State) (t : Nat) : State :=
  forN 4 (8 * t) (fun x s =>
    let u := s.ctx (x + 4)
    let s1 := s.setCtx (x + 4) Ctx.reset
    let s2 := s1.updCtx x (fun c => { c with linesHeld := u.linesHeld.foldl (fun ls l => insertLine l ls) c.linesHeld })
    if u.evHeld then s2.updCtx x (fun c => { c with evHeld := true }) else s2) s

/-- Context `src` goes on under number `dst`. -/
def State.moveCtx (s : State) (src dst : Nat) : State :=
  let d := s.ctx dst
  (s.updCtx dst (fun _ => { s.ctx src with evHeld := d.evHeld, linesHeld := d.linesHeld })).dropCtx src

/-- Held events reach contexts of a twin that run again (R204, R507, R741). -/
def State.deliverTwin (s : State) (t : Nat) : State := forN 8 (8 * t) (fun x s => s.deliverHeld x) s

/-- Context resets of a range of contexts (R462). -/
def State.resetCtxs (s : State) (x n : Nat) : State := forN n x (fun y s => s.ctxReset y) s

/-! ### Recovery (R503 to R507) -/

/-- Transactions of twin t still outstanding when it stops keep their entries; what was released goes on to its target, and
their responses concern no context any more (R493, R503). -/
def State.orphanTxns (s : State) (t : Nat) : State :=
  { s with txns := s.txns.map (fun u => if u.src / 2 = t then { u with x := noCtx, out := u.out.map Out.orphan } else u) }

/-- Detection of a fault on a twin (R503 steps 1 to 4): unconfirmed outputs and provisional lines are dropped, SATB
entries are submitted, both cores stop, the role passes (R506), and BIST runs. -/
def State.startRecovery (s : State) (t cause aux : Nat) (d2 d3 : Pay) (next : Bool := false) : State :=
  let w := s.twin t
  if w.recov.isSome ∨ !(w.mode = .tight ∨ w.mode = .loose ∨ w.trans.isSome) then s
  else
    let s0 := match w.trans with
      | some tr => if tr.byCmd then s.cmdResult t (if cause = 8 then twDelay else twBusy) else s
      | none => s
    let s0 := (s0.presentedOf t).foldl (fun s x => s.submitSatb x) ((s0.rollback t).orphanTxns t)
    let s1 := (s0.heldOf t).foldl (fun s x => s.updCtx x (fun c => c.setSp Sr.sqt (c.sp Sr.sqb))) s0
    let s2 := s1.updTwin t (fun v =>
      { v with recov := some ⟨cause, aux, Word.raw d2, Word.raw d3, s.time, w.mode, next⟩, trans := none, outL := [], outS := [] })
    let s3 := s2.setReg (oTwin + 0x28) (setBit (s2.reg (oTwin + 0x28)) 61 true)
    (s3.freeze (s.heldOf t)).passRole t

/-- The mode and OUTCOME code that BIST results lead to (R504, R510). -/
def bistOutcome (t : Nat) (rc : Recov) (lost lo so : Bool) : TwinMode × Nat :=
  match lo, so with
  | true, true =>
    if lost then (.split, 5)
    else if rc.cause = 8 then (if t < 2 then (.loose, 6) else (.split, 5))
    else (rc.before, 1)
  | true, false => (.solo, 2)
  | false, true => (.solo, 3)
  | false, false => (.fenced, 4)

/-- The contexts a mode presents are reset and start; the others are gone. -/
def State.startAs (s : State) (t : Nat) : State :=
  let w := s.twin t
  match w.mode with
  | .tight | .solo => (s.dropUpper t).resetCtxs (8 * t) 4
  | .split | .loose => s.resetCtxs (8 * t) 8
  | .fenced | .off => forN 8 (8 * t) (fun x s => s.dropCtx x) s

/-- Some twin recovers (R521). -/
def State.anyRecov (s : State) : Bool := s.twins.any (fun e => e.2.recov.isSome)

/-- A transition starts (R481, R482 step 1): a tight twin's window is confirmed and its outputs leave; a loose twin's
presented outputs are matched, and those of its leader that have no partner leave with them. -/
def State.startTrans (s : State) (t : Nat) (op : TwinOp) (keepShadow ksync byCmd : Bool) (haltCore : Option Nat) : State :=
  let w := s.twin t
  let s1 := if w.mode = .tight then s.confirm t
    else if w.mode = .loose then
      let outs := w.outL.filterMap (fun e => match e.req with
        | .store pa width v pc => some (Out.store e.x (2 * t) pa width v pc)
        | .sev target => some (Out.sev e.x target)
        | _ => none)
      let s0 := { (s.updTwin t (fun w => { w with outL := [], outS := [] })) with outbox := s.outbox ++ outs }
      (s.heldOf t).foldl (fun s x => if (s.ctx x).run = .partner then s.updCtx x (fun c => { c with run := .run }) else s) s0
    else s
  s1.updTwin t (fun v => { v with trans := some ⟨op, keepShadow, ksync, byCmd, w.mode, haltCore⟩ })

/-- R504, R503 step 6: BIST has ended on both cores. A debug halt that waited follows (R524). -/
def State.bistEnd (s : State) (t : Nat) (lo so : Bool) : State :=
  let w := s.twin t
  match w.recov with
  | none => s
  | some rc =>
    let was := s.presentedOf t
    let r := bistOutcome t rc w.cmpLost lo so
    let s1 := (s.freshCore (2 * t)).freshCore (2 * t + 1)
    let s2 := s1.setTwin t { w with
      mode := r.1, recov := none, trans := none, lf := !lo, sf := !so, lb := !lo, sb := !so, rcnt := satInc 16 w.rcnt,
      groups := 0, misr := misrSeed }
    let s3 := (s2.startAs t).unfreeze (List.range' (8 * t) 8)
    let s4 := s3.setReg (oTwin + 0x28) (setBit (s3.reg (oTwin + 0x28)) 61 s3.anyRecov)
    let s5 := (s4.logRec rc.cause t r.2 rc.aux rc.time rc.d2.pay rc.d3.pay).deliverTwin t
    let s6 := (s5.restartCmds was).retryHeld
    let s7 := match w.trans with
      | some tr => s6.startTrans t tr.op false false false tr.haltCore
      | none => s6
    (if rc.next then s7.startRecovery (1 - t) rc.cause 0 rc.d2.pay rc.d3.pay else s7).refresh

/-! ### Transitions (R481, R482) -/

/-- The modes a command may start from (R481). -/
def transFrom (op : TwinOp) (m : TwinMode) : Bool :=
  match op with
  | .split => m = .tight || m = .loose
  | .join => m = .split || m = .loose || m = .solo
  | .loose => m = .tight
  | .solo => m = .tight || m = .loose || m = .split
  | .fence => m ≠ .off
  | .unfence => m = .fenced

/-- RESULT of a refused command, or none (R483, R507, R509, R510, R519, R814). -/
def State.twinRefusal (s : State) (t : Nat) (op : TwinOp) : Option Nat :=
  let w := s.twin t
  if w.moving then some twBusy
  else if w.mode = .off then some twPower
  else if op = .loose ∧ 2 ≤ t then some twNoKeep
  else if !transFrom op w.mode then some twIllegal
  else if op = .join ∧ w.cmpLost then some twIllegal
  else if op = .unfence ∧ !bit (s.reg (0x100 + 8 * clusterOfTwin t)) 17 then some twIllegal
  else if op = .join ∧ w.dlf then some twDelay
  else if (op = .split ∨ op = .solo ∨ op = .fence) ∧ s.hasRole t ∧ !s.standby t then some twSentinel
  else none

/-- A command for twin t that TWIN_CMD takes (R483, R518). -/
def State.twinCommand (s : State) (t : Nat) (op : TwinOp) (keepShadow ksync : Bool) : State :=
  match s.twinRefusal t op with
  | some r => s.cmdResult t r
  | none =>
    let s1 := if op = .split ∨ op = .solo ∨ op = .fence then s.passRole t else s
    let s2 := s1.setReg (oTwin + 0x18) (atFld 63 63 1 ||| atFld 4 0 t)
    s2.startTrans t op keepShadow ksync true none

/-- OP of TWIN_CMD (R518). -/
def twinOpOf (n : Nat) : Option TwinOp :=
  if n = 1 then some .split else if n = 2 then some .join else if n = 3 then some .loose else if n = 4 then some .solo
  else if n = 5 then some .fence else if n = 6 then some .unfence else none

/-- A write of TWIN_CMD (R518). -/
def State.twinCmd (s : State) (v : Pay) : State :=
  if bit (s.reg (oTwin + 0x18)) 63 then s.setRf (oTwin + 0x18) 62 59 twBusy
  else match twinOpOf (fld v 63 60) with
    | none => s
    | some op => s.twinCommand (fld v 4 0) op (bit v 11) (bit v 12)

def State.toSplit (s : State) (t : Nat) (before : TwinMode) : State :=
  let s1 := if before = .tight then s.mirrorCore (2 * t) (2 * t + 1) else s
  let s2 := s1.updTwin t (fun w => { w with mode := .split, lf := false, sf := false })
  s2.resetCtxs (8 * t + 4) 4

def State.toLoose (s : State) (t : Nat) : State :=
  let s1 := (s.emptyL1d (2 * t) false).mirrorCore (2 * t) (2 * t + 1)
  let s2 := s1.updTwin t (fun w => { w with mode := .loose })
  forN 4 (8 * t) (fun x s => s.setCtx (x + 4) { s.ctx x with evHeld := false, linesHeld := [] }) s2

/-- Contexts whose core stops for good hand their SATB entries on, as a context reset does (R314; assumption 96). -/
def State.submitAll (s : State) (xs : List Nat) : State := xs.foldl (fun s x => (s.confirmedSqt x).submitSatb x) s

def State.toSolo (s0 : State) (t : Nat) (before : TwinMode) (keepShadow : Bool) : State :=
  let s := if before = .split then s0.submitAll (List.range' (if keepShadow then 8 * t else 8 * t + 4) 4) else s0
  let gone := if keepShadow then 2 * t else 2 * t + 1
  let s1 := if keepShadow ∧ before = .tight then s.mirrorCore (2 * t) (2 * t + 1) else s
  let s2 := if keepShadow ∧ before ≠ .tight then forN 4 (8 * t) (fun x s => s.moveCtx (x + 4) x) s1 else s1
  let s3 := ((s2.dropUpper t).emptyL1d gone true).emptyL1i gone
  s3.updTwin t (fun w => { w with mode := .solo, lf := keepShadow, sf := !keepShadow })

def State.toFenced (s : State) (t : Nat) : State :=
  let s1 := ((s.submitAll (s.presentedOf t)).emptyL1d (2 * t) true).emptyL1d (2 * t + 1) true
  let s2 := (s1.emptyL1i (2 * t)).emptyL1i (2 * t + 1)
  let s3 := s2.updTwin t (fun w => { w with mode := .fenced, lf := true, sf := true, trans := none })
  forN 8 (8 * t) (fun x s => s.dropCtx x) s3

/-- UNFENCE: each core that passes starts with its contexts reset; its TLB stays (R384). -/
def State.toUnfenced (s : State) (t : Nat) (lo so : Bool) : State :=
  let m : TwinMode := if lo ∧ so then .split else if lo ∨ so then .solo else .fenced
  (s.updTwin t (fun w => { w with mode := m, lf := !lo, sf := !so, lb := !lo, sb := !so })).startAs t

/-- A copy of a range of a table to another place. -/
def copyRange {α : Type} (t : Tbl α) (src dst len : Nat) : Tbl α :=
  let keep := t.filter (fun e => !(dst ≤ e.1 ∧ e.1 < dst + len))
  (t.filter (fun e => src ≤ e.1 && e.1 < src + len)).foldl (fun u e => Tbl.insert u (e.1 - src + dst) e.2) keep

/-- R482 step 3: one Keep SRAM copy onto the other. -/
def State.copyKeep (s : State) (fromB : Bool) : State :=
  let a := keepBase
  let b := keepBase + copyB
  let src := if fromB then b else a
  let dst := if fromB then a else b
  { s with mem := copyRange s.mem src dst 0x400000, tags := copyRange s.tags (src / 8) (dst / 8) (0x400000 / 8) }

/-- R482: steps 2 to 5 of a JOIN whose fenced core, if any, has passed BIST; the contexts that end hand their SATB entries on (assumption 96). -/
def State.toJoined (s : State) (t : Nat) (before : TwinMode) (ksync : Bool) : State :=
  let s := if before = .split then s.submitAll (List.range' (8 * t + 4) 4) else s
  let w := s.twin t
  let shadow := before = .solo && w.lf
  let src := if shadow then 2 * t + 1 else 2 * t
  let dst := if shadow then 2 * t else 2 * t + 1
  let s1 := if t < 2 then (s.emptyL1d src true).emptyL1i src else s
  let s2 := s1.mirrorCore src dst
  let s3 := if t < 2 then s2.updCore dst (fun c => { c with lfsrD := (s2.core src).lfsrD, lfsrI := (s2.core src).lfsrI }) else s2
  let s4 := if t < 2 ∧ (ksync ∨ before = .solo) then s3.copyKeep shadow else s3
  (s4.dropUpper t).updTwin t (fun w =>
    { w with mode := .tight, lf := false, sf := false, lb := false, sb := false, groups := 0, misr := misrSeed })

/-- The contexts that core k runs (R476). -/
def State.ctxsOn (s : State) (k : Nat) : List Nat := (s.heldOf (k / 2)).filter (fun x => s.coreOf x = k)

/-- A debug halt of core k (R511): its contexts halt, DBG_BROKE and a DEBUG record are set; `broke` says that the twin
left tight or loose mode for it. -/
def State.haltCore (s : State) (k : Nat) (broke : Bool) : State :=
  let s1 := (s.ctxsOn k).foldl (fun s x => s.updCtx x (fun c => { c with halted := true })) s
  let s2 := s1.setReg (oTwin + 0x28) (setBit (s1.reg (oTwin + 0x28)) 63 true)
  let s3 := s2.logRec 0x0C (k / 2) (if broke then 5 else 0) k s.time 0 0
  if s3.mode = mRun ∨ s3.mode = mDegraded then s3.setMode mService else s3

/-- What the steps of a transition wait for has happened: the released stores of the twin are acknowledged before it splits, goes
solo or is fenced (R481), and before a JOIN each presented context has stopped at its boundary (R482 step 1). -/
def State.transReady (s : State) (t : Nat) (op : TwinOp) : Bool :=
  match op with
  | .split | .solo | .fence => !s.txns.any (fun u => u.kind = .store && u.src / 2 = t)
  | .join => (s.heldOf t).all (fun x => (s.ctx x).joinStop)
  | .loose | .unfence => true

/-- The running transition of twin t completes (R481, R482); `lo` and `so` are the BIST results of the leader and the
shadow, where the transition runs BIST. -/
def State.endTrans (s : State) (t : Nat) (lo so : Bool) : State :=
  let w := s.twin t
  match w.trans with
  | none => s
  | some tr =>
    if w.recov.isSome ∨ !s.transReady t tr.op then s
    else
      let s0 := s.updTwin t (fun v => { v with trans := none })
      let bistOk := tr.before ≠ .solo || (if w.lf then lo else so)
      let p : State × Nat :=
        match tr.op with
        | .split => (s0.toSplit t tr.before, twDone)
        | .loose => (s0.toLoose t, twDone)
        | .solo => (s0.toSolo t tr.before tr.keepShadow, twDone)
        | .fence => (s0.toFenced t, twDone)
        | .unfence => (s0.toUnfenced t lo so, if lo ∨ so then twDone else twBistFail)
        | .join =>
          if w.cmpLost then (s0, twIllegal)
          else if bistOk then (s0.toJoined t tr.before tr.ksync, twDone)
          else (s0.updTwin t (fun v => if v.lf then { v with lb := true } else { v with sb := true }), twBistFail)
      let s1 := if tr.byCmd then p.1.cmdResult t p.2 else p.1
      let s2 := match tr.haltCore with
        | some k => s1.haltCore k true
        | none => s1
      ((s2.deliverTwin t).retryHeld).refresh

/-! ### Comparators, delay lines, clusters (R508 to R510, R814) -/

/-- R508, R509: the test token finds the comparator of twin t at fault. -/
def State.comparatorFault (s : State) (t : Nat) : State :=
  let n := clusterOfTwin t
  let r := s.reg (oTwin + 0x28)
  let w := s.twin t
  if !bit r (32 + n) then
    let s1 := (s.setReg (oTwin + 0x28) (setBit r (32 + n) true)).updTwin t (fun w => { w with cmps := true })
    s1.logRec 0x06 t 7 (t % 4) s.time 0 0
  else
    let s1 := (s.setReg (oTwin + 0x28) (setBit r (24 + n) true)).updTwin t (fun w => { w with cmpLost := true })
    let goes := (w.mode = .tight || w.mode = .loose) && !w.moving
    let s2 := s1.logRec 0x07 t (if w.mode = .tight ∨ w.mode = .loose then 5 else 0) (t % 4) s.time 0 0
    (if goes then s2.startTrans t .split false false false none else s2).refresh

/-- R510: a parity error in delay stage `stage` of twin t, which runs in tight mode or is being joined. -/
def State.delayFault (s : State) (t stage : Nat) : State :=
  let w := s.twin t
  if w.recov.isSome ∨ !((w.mode = .tight && w.trans.isNone) || w.joining) then s
  else ((s.updTwin t (fun w => { w with dlf := true })).startRecovery t 8 stage 0 0).refresh

/-- R814: the PLL of cluster n loses lock and twin t, if it runs, goes to fenced mode. -/
def State.pllFence (s : State) (t : Nat) : State :=
  let w := s.twin t
  if w.mode = .off ∨ (w.mode = .fenced ∧ !w.moving) then s
  else
    let was := s.presentedOf t
    let s1 := ((s.rollback t).orphanTxns t).passRole t
    let s2 := match w.trans with
      | some tr => if tr.byCmd then s1.cmdResult t twIllegal else s1
      | none => s1
    let s3 := (s2.updTwin t (fun w => { w with trans := none, recov := none, outL := [], outS := [] })).toFenced t
    let s4 := s3.setReg (oTwin + 0x28) (setBit (s3.reg (oTwin + 0x28)) 61 s3.anyRecov)
    (s4.restartCmds was).retryHeld

/-- R511: a debug halt request for core k. -/
def State.debugHalt (s : State) (k : Nat) : State :=
  let t := k / 2
  let w := s.twin t
  let tr : TwinTrans := ⟨.split, false, false, false, w.mode, some k⟩
  if w.mode = .off then { s with sys := { s.sys with haltReq := some k, wakeReq := true } }
  else if w.recov.isSome then s.updTwin t (fun w => { w with trans := some tr })
  else if w.trans.isSome then s.updTwin t (fun w => { w with trans := w.trans.map (fun tr => { tr with haltCore := some k }) })
  else if w.mode = .tight ∨ w.mode = .loose then s.startTrans t .split false false false (some k)
  else if (s.ctxsOn k).isEmpty then s
  else s.haltCore k false

/-- TWIN_LOGACK (R523): a value above SEQ acts as SEQ. -/
def State.logAck (s : State) (v : Pay) : State := s.setRf (oTwin + 0x38) 31 0 (min (fld v 31 0) (s.rf (oTwin + 0x30) 31 0))

/-- An accepted write to the TWIN page (R517 to R523). -/
def State.twinStore (s : State) (o : Nat) (v : Pay) : State :=
  if o = 0x10 then s.twinCmd v else if o = 0x38 then s.logAck v else s.plainWrite (oTwin + o) v

/-- A load from the TWIN page. -/
def State.twinLoad (s : State) (o : Nat) : Pay :=
  if 0x100 ≤ o ∧ o < 0x200 ∧ o % 8 = 0 then s.twinModeReg ((o - 0x100) / 8) else s.reg (oTwin + o)

end Sys2Proof.Machine
end

