-- ==== Sys2Proof/Machine/Modes.lean ====
section
/-!
DEFINITION. The SYS block (R649 to R680): mode transitions, device reset and boot, the watch, clocks and temperature,
device time, Quiet mode, and the management command MODE_REQ.
-/
namespace Sys2Proof.Machine

def State.updSys (s : State) (f : Sys → Sys) : State := { s with sys := f s.sys }
def State.updPwr (s : State) (f : Pwr → Pwr) : State := { s with pwr := f s.pwr }

/-- RESULT codes of SYS_MODE (R676). -/
abbrev mrDone : Nat := 1
abbrev mrIllegal : Nat := 2
abbrev mrBusy : Nat := 3
abbrev mrDrain : Nat := 4
abbrev mrGcBusy : Nat := 5
abbrev mrFault : Nat := 6
abbrev mrReplay : Nat := 7

/-! ### Device reset (R656 to R660) -/

/-- Staging SRAM and JNV by memory key. -/
def inStaging (k : Nat) : Bool := 0x7E0000400000 ≤ k && k < 0x7E0000600000
def inJnv (k : Nat) : Bool := 0x7E0010000000 ≤ k && k < 0x7E0014000000

/-- Start a device reset of the given cause (R656, R657): what is kept stays, all else is at reset, and nothing runs.
After a power-on the Staging SRAM, device time and the reset count are lost too, and PWR_SAVE comes from the header
of the save (R691, R704). -/
def State.deviceReset (s0 : State) (cause : Nat) : State :=
  let on := cause = 1
  let s := (s0.backing.filter (fun e => inStaging (e.1 * 64))).foldl (fun s e => s.discard e.1) s0
  let keep (k : Nat) : Bool := inJnv k || (!on && inStaging k)
  let count := if on then 0 else satInc 32 (s.rf 0x38 31 0)
  let p := s.pwr
  let save : Pay := if on then
      setFld (setBit (setBit (setBit (setBit 0#64 63 p.complete) 62 (p.complete && p.keepLen ≠ 0)) 61 (p.complete && p.keepDiff))
        60 (!p.complete && p.seq ≠ 0)) 31 0 p.seq
    else s.reg (oPwr + 0x30)
  let live0 := if on then s.ldg.drained else s.ldg.live
  let live := { live0 with keys := live0.keys.filter (fun e => e.2.under.isSome) }
  let r : State :=
    { State.reset with
      pending := s.pending, freeCount := s.freeCount, answer := s.answer, nextTxn := s.nextTxn
      mem := s.mem.filter (fun e => keep e.1)
      tags := s.tags.filter (fun e => keep (8 * e.1))
      dev := bootRegs (p64 cause) (p64 count)
      ctxs := []
      ldg := { Ldg.reset with live := live, drained := s.ldg.drained, front := if on then 0 else s.ldg.front, sent := s.ldg.sent }
      sec := { Sec.reset with
        devuid := s.sec.devuid, kslots := s.sec.kslots, rollback := s.sec.rollback, life := s.sec.life, debuglock := s.sec.debuglock
        rma := decide (lifeOf s.sec.life = 7) }
      sto := { Sto.reset with drv := s.sto.drv }
      sys := { Sys.reset with inReset := true, rstLow := s.sys.rstLow, hot := s.sys.hot }
      pwr := { Pwr.reset with
        pfw := p.pfw, pfwHigh := p.pfwHigh, complete := p.complete, seq := p.seq, saved := p.saved, pages := p.pages, keepOff := p.keepOff
        keepLen := p.keepLen, keepDiff := p.keepDiff }
      bgs := { Bgs.reset with remap := s.bgs.remap, spares := s.bgs.spares, remaps := s.bgs.remaps }
      evt := s.evt
      time := if on then 0 else s.time
      timeFrac := if on then 0 else s.timeFrac
      dnum := s.dnum, dcfg := s.dcfg, dspd := s.dspd }
  (((r.setReg (oPwr + 0x30) save).setRf 0x10 2 0 mReset).setRf (oPwr + 0x18) 57 57 (b2n p.pfw)).ldgSync

/-- Power-on (R656): as RST_N is, low or high. -/
def State.powerOn (s : State) (rstLow : Bool) : State := (s.deviceReset 1).updSys (fun y => { y with rstLow := rstLow, hot := false })

/-- RST_N low (R656, R696): in Reserve the reset waits for the flush. -/
def State.rstFalls (s : State) : State :=
  let s1 := s.updSys (fun y => { y with rstLow := true })
  if s.sys.inReset then s1
  else if s.pwr.glaze.isSome then s1.updSys (fun y => { y with rstWait := true })
  else s1.deviceReset 2

/-- RST_N rises: the straps are sampled and the PLLs start (R13, R660, R790). -/
def State.rstRises (s : State) (dnum : BitVec 3) (dcfg : BitVec 2) (dspd : Bool) : State :=
  if !s.sys.rstLow then s
  else
    let s1 := s.updSys (fun y => { y with rstLow := false })
    if s.sys.inReset then { s1 with dnum := dnum, dcfg := dcfg, dspd := dspd } else s1

/-- VHOLD has been at least VOK for `ns` nanoseconds. -/
def State.vokFor (s : State) (ns : Nat) : Bool :=
  match s.pwr.okSince with
  | some t => decide (t.toNat + ns ≤ s.time.toNat)
  | none => false

/-- The internal reset ends and Boot is entered (R656, R659, R660), unless RST_N, the temperature, a flush or a
cut-off still holds it (R687, R695). -/
def State.resetEnds (s : State) : State :=
  if !s.sys.inReset ∨ s.sys.rstLow ∨ s.sys.hot ∨ s.pwr.glaze.isSome ∨ (s.pwr.cut && !s.vokFor 10000000) then s
  else
    let s1 := (s.updSys (fun y => { y with inReset := false })).updPwr (fun p => { p with cut := false })
    (({ s1 with ctxs := [(0, Ctx.boot)] } : State).setRf 0x10 2 0 mBoot).refresh

/-- DDR training has ended on both channels (R660, R808). -/
def State.trained (s : State) : State := if s.sys.inReset then s else s.updLdg (fun l => { l with trained := true })

/-! ### Quiet mode (R672 to R674) -/

/-- The contexts and clusters that Quiet gates. -/
def gatedCtx (x : Nat) : Bool := decide (32 ≤ x)
abbrev gatedClusters : List Nat := [1, 2, 3, 4, 5, 6, 7]

/-- Some heap is in a phase other than IDLE. -/
def State.gcBusy (s : State) : Bool := [0, 1, 2, 3].any (fun h => s.rf (oHeap h + 0x20) 2 0 ≠ 0)

/-- A command stands dispatched to a gated context. -/
def State.quietDraining (s : State) : Bool :=
  s.ldg.live.slots.any (fun e => match e.2.st with | .sent x => gatedCtx x | .running x => gatedCtx x | _ => false)

/-- Step 1 of R672. -/
def State.enterQuiet (s : State) : State :=
  (s.setRf 0x10 15 15 1).updSys (fun y => { y with quiet := .drain, quietEnd := s.time + 100000000 })

/-- The MODE_REQ that waits for a transition ends (R655). -/
def State.endModeReq (s : State) (app : Nat) : State :=
  match s.sys.modeReq with
  | none => s
  | some n => (s.updSys (fun y => { y with modeReq := none })).endMgmt n app

/-- Step 2 of R672: every such command has ended; the contexts stop. -/
def State.quietDrained (s : State) : State :=
  if s.sys.quiet ≠ .drain ∨ s.quietDraining then s
  else
    let xs := (s.ctxs.map (·.1)).filter gatedCtx
    let s1 := (List.range 32).foldl (fun s t => if 4 ≤ t then s.confirm t else s) s
    (s1.freeze xs).updSys (fun y => { y with quiet := .sweep })

/-- Step 2 of R672: the entry is abandoned. -/
def State.quietTimeout (s : State) : State :=
  if s.sys.quiet ≠ .drain then s
  else
    let s1 := (s.timeTo s.sys.quietEnd).updSys (fun y => { y with quiet := .none })
    ((s1.endTransition mrDrain).endModeReq apNotAllowed).retryHeld

/-- Cluster n is swept and loses its power: its twins are Off, and nothing of it is left (R481, R672). -/
def State.gateCluster (s : State) (n : Nat) : State :=
  let s1 := (s.cluster n).l2.foldl (fun s e => if e.2.poison then s.discard e.1 else s.l2Drop n e.1 true) s
  let s2 := forN 8 (8 * n) (fun k s => (s.emptyL1d k true).setCore k Core.reset) s1
  let s3 := forN 32 (32 * n) (fun x s => s.dropCtx x) s2
  let s4 := forN 4 (4 * n) (fun t s => s.setTwin t { Twin.reset with
    mode := .off, rcnt := (s.twin t).rcnt, dlf := (s.twin t).dlf, cmps := (s.twin t).cmps, cmpLost := (s.twin t).cmpLost }) s3
  let s5 := (s4.setCluster n Cluster.reset).setReg (0x100 + 8 * n) (setBit (setBit (s4.reg (0x100 + 8 * n)) 16 true) 17 false)
  { s5 with dev := s5.dev.filter (fun e => pageOf e.1 ≠ 0x20 + n), bgs := { s5.bgs with l2Pos := Tbl.erase s5.bgs.l2Pos n } }

/-- Step 1 of R674: clusters 1 to 7 get their power, with everything at reset; the ring 0 part of each vector latch is
loaded. -/
def State.startWake (s : State) : State :=
  let s1 := gatedClusters.foldl (fun s n => s.setReg (0x100 + 8 * n) (setBit (s.reg (0x100 + 8 * n)) 16 false)) s
  (s1.setRf 0x10 15 15 1).updSys (fun y => { y with quiet := .waking, wakeReq := false })

/-- A wake request starts the wake in Quiet (R673). -/
def State.checkWake (s : State) : State :=
  if s.mode = mQuiet ∧ s.sys.quiet = .none ∧ s.sys.wakeReq then s.startWake else s

/-- Step 5 of R672. -/
def State.quietGated (s : State) : State :=
  if s.sys.quiet ≠ .sweep then s
  else
    let s1 := (gatedClusters.foldl (fun s n => s.gateCluster n) s).updSys (fun y => { y with quiet := .none })
    (((s1.setMode mQuiet).endTransition mrDone).endModeReq 0).checkWake

/-- Step 2 of R674: PLLs locked at their points, twins tight with every context halted, the phase of every heap taken,
Run or Degraded entered, source 0x62 raised. A debug halt that woke the device follows. -/
def State.wakeDone (s : State) : State :=
  if s.sys.quiet ≠ .waking then s
  else
    let s1 := forN 28 4 (fun t s => (s.updTwin t (fun w => { w with mode := .tight })).dropUpper t) s
    let s2 := gatedClusters.foldl (fun s n =>
      let r := s.reg (0x100 + 8 * n)
      let cur := if bit r 18 then max 2 (fld r 2 0) else fld r 2 0
      s.setReg (0x100 + 8 * n) (setFld (setBit r 17 true) 10 8 cur)) s1
    let phases : Tbl Bool := [0, 1, 2, 3].foldl (fun t h =>
      Tbl.set (fun _ => false) t h (s2.rf (oHeap h + 0x20) 2 0 = 1 || s2.rf (oHeap h + 0x20) 2 0 = 2)) []
    let s3 := forN 56 8 (fun k s => s.updCore k (fun c => { c with
      satb := phases, latch0 := s.latchOf k (s.rf (oSec + 0xE00) 47 11 * 2048) true })) s2
    let s4 := (s3.updSys (fun y => { y with quiet := .none, haltReq := none })).setMode s3.runMode
    let s5 := ((s4.endTransition mrDone).assertSource 0x62).endModeReq 0
    match s.sys.haltReq with
    | some k => s5.debugHalt k
    | none => s5

/-! ### SYS_MODECMD (R650, R651, R661) -/

/-- What SYS answers to a mode asked for: a RESULT code; for a transition taken, the machine in it. -/
def State.askRun (s : State) : State × Nat :=
  let m := s.mode
  if m = mRun ∨ m = mDegraded then (s, mrDone)
  else if m = mBoot ∨ m = mSafe ∨ m = mService then
    (if s.faults then (s, mrFault)
     else if m = mBoot ∧ s.ldgStat 63 then (s, mrReplay)
     else if !s.clOn 1 then (s.startWake, 0)
     else ((s.setMode s.runMode).refresh, mrDone))
  else if m = mQuiet then (s.startWake, 0)
  else (s, mrIllegal)

def State.askSafe (s : State) : State × Nat :=
  let m := s.mode
  if m = mSafe then (s, mrDone)
  else if m = mReserve ∨ m = mReset then (s, mrIllegal)
  else ((s.setMode mSafe).refresh, mrDone)

def State.askService (s : State) : State × Nat :=
  let m := s.mode
  if m = mService then (s, mrDone)
  else if m = mRun ∨ m = mDegraded then ((s.setMode mService).refresh, mrDone)
  else (s, mrIllegal)

def State.askQuiet (s : State) : State × Nat :=
  let m := s.mode
  if m = mQuiet then (s, mrDone)
  else if m ≠ mRun then (s, mrIllegal)
  else if s.gcBusy then (s, mrGcBusy)
  else (s.enterQuiet, 0)

/-- RESULT is written with the answer; 0 stands for a transition that still runs. -/
def State.answerMode (p : State × Nat) : State := if p.2 = 0 then p.1 else (p.1.modeResult p.2)

/-- A write of SYS_MODECMD. -/
def State.modeCmd (s : State) (op : Nat) : State :=
  if s.modeBusy then s.modeResult mrBusy
  else if op = 1 then (State.answerMode s.askRun).retryHeld
  else if op = 2 then State.answerMode s.askSafe
  else if op = 3 then State.answerMode s.askService
  else if op = 4 then State.answerMode s.askQuiet
  else if op = 5 then s.deviceReset 3
  else s

/-- The MODE_REQ in slot n (R655). -/
def State.modeReqCmd (s : State) (n : Nat) : State :=
  match s.mgmt n 0x30 with
  | none => s
  | some v =>
    let m := leAt v.params 0 1
    let pol := s.reg 0x20
    let allowed := m = mSafe || (m = mReset && (bit (s.reg 0x28) 62 || bit pol 0)) || (m = mRun && bit pol 1)
      || (m = mService && bit pol 2) || (m = mQuiet && bit pol 3)
    if v.params.length ≠ 1 ∨ !(m = mReset || m = mRun || m = mSafe || m = mService || m = mQuiet) then s.endMgmt n apBadParam
    else if !allowed then s.endMgmt n apNotAllowed
    else if m = mReset then (s.endMgmt n 0).updSys (fun y => { y with resetAt := some (s.time + 1000000) })
    else if s.modeBusy then s.endMgmt n apNotAllowed
    else
      let p := if m = mRun then s.askRun else if m = mSafe then s.askSafe else if m = mService then s.askService else s.askQuiet
      if p.2 = mrDone then ((p.1.modeResult mrDone).endMgmt n 0).retryHeld
      else if p.2 = 0 then (p.1.putSlot n { v with st := .inMode }).updSys (fun y => { y with modeReq := some n })
      else (p.1.modeResult p.2).endMgmt n apNotAllowed

/-- The device reset of a committed MODE_REQ Reset (R655). -/
def State.modeReqReset (s : State) : State :=
  match s.sys.resetAt with
  | some t => (s.timeTo t).deviceReset 4
  | none => s

/-! ### The watch (R665) -/

/-- A write of SYS_WATCH: a FEED arms or restarts the watch while PERIOD is not 0, a new PERIOD restarts an armed
one, and PERIOD 0 disarms it. -/
def State.watchWrite (s : State) (v : Pay) : State :=
  let p := fld v 9 0
  let s1 := s.setRf 0x30 9 0 p
  (if p = 0 then s1.updSys (fun y => { y with armed := false })
   else if bit v 63 ∨ s.sys.armed then
     s1.updSys (fun y => { y with armed := true, expiry := s.time + p64 (min p 1000 * 1000000) })
   else s1).refresh

/-- The watch expires: WDOG, Safe-Hold. -/
def State.watchExpires (s : State) : State :=
  if !s.sys.armed then s
  else (((s.timeTo s.sys.expiry).updSys (fun y => { y with armed := false })).sysStat 61 true).autoSafeHold.refresh

/-! ### Contexts, time, clocks, temperature -/

/-- A write of SYS_START (R659, R677). -/
def State.startCtx (s : State) (x : Nat) : State :=
  let c := s.ctx x
  if !(s.presentedOf (twinOf x)).contains x ∨ c.started ∨ c.dead then s
  else ((s.reached x).foldl (fun s y => (s.ctxReset y).deliverHeld y) s).retryHeld

/-- A write of SYS_TIME (R671). -/
def State.timeWrite (s : State) (v : Pay) : State :=
  if v.toNat < s.time.toNat then s.sysStat 58 true else { s with time := v }

def clkReg (n : Nat) : Nat := 0x100 + 8 * n

/-- The point in force for a requested one: 0x2 or slower while derated (R669). -/
def State.pointFor (s : State) (n pt : Nat) : Nat := if bit (s.reg (clkReg n)) 18 then max 2 pt else pt

/-- A write of SYS_CLKn.PT (R668): a change starts, unless one runs. -/
def State.pointWrite (s : State) (n : Nat) (v : Pay) : State :=
  let s1 := s.setRf (clkReg n) 2 0 (fld v 2 0)
  match Tbl.look s.sys.dvfs n with
  | some _ => s1
  | none => s1.updSys (fun y => { y with dvfs := Tbl.insert y.dvfs n (fld v 2 0) })

/-- A change of point ends (R668): CUR takes it, and a write made meanwhile takes effect. -/
def State.pointEnds (s : State) (n : Nat) : State :=
  match Tbl.look s.sys.dvfs n with
  | none => s
  | some pt =>
    let s1 := (s.setRf (clkReg n) 10 8 (s.pointFor n pt)).updSys (fun y => { y with dvfs := Tbl.erase y.dvfs n })
    if s.rf (clkReg n) 2 0 ≠ pt then s1.updSys (fun y => { y with dvfs := Tbl.insert y.dvfs n (s.rf (clkReg n) 2 0) }) else s1

/-- The hottest sensor of cluster n reads `tj` °C plus 64 (R679). -/
def State.setTj (s : State) (n tj : Nat) : State := s.setRf (clkReg n) 63 56 tj

/-- R669: a sensor above 125 °C. -/
def State.derate (s : State) (n tj : Nat) : State :=
  let s1 := s.setTj n tj
  if tj ≤ 189 ∨ s.sys.inReset then s1
  else
    let s2 := s1.setReg (clkReg n) (setBit (s1.reg (clkReg n)) 18 true)
    s2.setRf (clkReg n) 10 8 (max 2 (s2.rf (clkReg n) 10 8))

/-- R669: 120 °C or less for 10 ms. -/
def State.derateClears (s : State) (n tj : Nat) : State :=
  let s1 := s.setTj n tj
  if 184 < tj ∨ !bit (s1.reg (clkReg n)) 18 then s1
  else
    let s2 := s1.setReg (clkReg n) (setBit (s1.reg (clkReg n)) 18 false)
    s2.setRf (clkReg n) 10 8 (s2.rf (clkReg n) 2 0)

/-- R670: 155 °C or more. -/
def State.tempHigh (s : State) (n tj : Nat) : State :=
  let s1 := s.setTj n tj
  if tj < 219 ∨ s.sys.inReset then s1 else ((s1.sysStat 60 true).autoSafeHold).refresh

/-- R670: every sensor at 150 °C or less; a reset of cause 0x06 may end too (R656). -/
def State.tempClears (s : State) (n tj : Nat) : State :=
  let s1 := s.setTj n tj
  if (List.range 8).any (fun m => 214 < s1.rf (clkReg m) 63 56) then s1
  else ((s1.sysStat 60 false).updSys (fun y => { y with hot := false })).refresh

/-- R656: 165 °C or more. -/
def State.overheat (s : State) (n tj : Nat) : State :=
  if tj < 229 then s.setTj n tj else ((s.deviceReset 6).setTj n tj).updSys (fun y => { y with hot := true })

/-- The PLL of cluster n loses lock (R666, R814). -/
def State.pllLost (s : State) (n : Nat) : State :=
  let r := s.reg (clkReg n)
  if s.sys.inReset ∨ bit r 16 ∨ !bit r 17 then s
  else
    let s1 := (s.setReg (clkReg n) (setBit r 17 false)).updSys (fun y => { y with unlocked := y.unlocked ++ [n] })
    (forN 4 (4 * n) (fun t s => s.pllFence t) (s1.sysStat 35 true)).refresh

/-- The PLL of cluster n locks again (R666). -/
def State.pllRelocks (s : State) (n : Nat) : State :=
  if s.sys.unlocked.contains n then
    (s.setReg (clkReg n) (setBit (s.reg (clkReg n)) 17 true)).updSys (fun y => { y with unlocked := y.unlocked.filter (· ≠ n) })
  else s

/-- The event and pulse PLL loses lock (R666). -/
def State.evclk (s : State) : State := if s.sys.inReset then s else ((s.sysStat 59 true).autoSafeHold).refresh

/-- A write of SYS_STAT: CLPLL clears only once every cluster PLL is locked (R678). -/
def State.sysStatWrite (s : State) (v : Pay) : State :=
  (s.plainWrite 0x28 (if s.sys.unlocked.isEmpty then v else setBit v 35 false)).refresh

/-- An accepted write to the SYS page by source `src` (R675). -/
def State.sysStore (s : State) (src o : Nat) (v : Pay) : State :=
  if o = 0x28 then s.sysStatWrite v
  else if 0x100 ≤ o then s.pointWrite ((o - 0x100) / 8) v
  else if o = 0 ∨ o = 8 then s.plainWrite o v
  else if 4 ≤ src then s
  else if o = 0x18 then s.modeCmd (fld v 63 60)
  else if o = 0x30 then s.watchWrite v
  else if o = 0x40 then (if bit v 63 then s.startCtx (fld v 7 0) else s)
  else if o = 0x48 then s.timeWrite v
  else s.plainWrite o v

/-- A load from the SYS page. -/
def State.sysLoad (s : State) (o : Nat) : Pay := if o = 0x48 then s.time else s.reg o

/-! ### The passing of device time (R671) -/

/-- SYS_TIMEINC as it acts: INT outside 36 to 44 acts as the nearer bound. -/
def State.timeInc (s : State) : Nat × Nat := (max 36 (min 44 (s.rf 0x50 39 32)), s.rf 0x50 31 0)

/-- One REFCLK cycle: device time takes SYS_TIMEINC. -/
def State.refclk (s : State) : State :=
  let i := s.timeInc
  let f := s.timeFrac + i.2
  { s with time := s.time + p64 (i.1 + f / 2 ^ 32), timeFrac := f % 2 ^ 32 }

/-- Cycles of cluster n's clock in one REFCLK cycle: by its operating point, or one while its PLL is out of lock (R667,
R814). -/
def State.cyclesPerRef (s : State) (n : Nat) : Nat :=
  if s.sys.unlocked.contains n then 1
  else
    match s.rf (0x100 + 8 * n) 10 8 with
    | 0 => 64 | 1 => 56 | 2 => 48 | 3 => 32 | _ => 16

/-- CYC of a core moves on by n cycles (R207). -/
def Core.count (c : Core) (n : Nat) : Core := c.setSp Sr.cyc (c.sp Sr.cyc + p64 n)

/-- One REFCLK cycle of the clocks: device time passes, and CYC counts in every core that has power (R207, R671). -/
def State.refTick (s : State) : State :=
  let s1 := s.refclk
  if s.sys.inReset then s1
  else forN 64 0 (fun k s => if s.clOn (clusterOfCore k) then s.updCore k (fun c => c.count (s.cyclesPerRef (clusterOfCore k))) else s) s1

end Sys2Proof.Machine
end

