-- ==== Sys2Proof/Machine/Panel.lean ====
section
/-!
DEFINITION. The Panel Sense Unit (R763 to R782): its frame from raw counts to touch records and the frame ring,
baselines, noise and hops, and its starting and stopping.
-/
namespace Sys2Proof.Machine

def State.updPnl (s : State) (f : Pnl → Pnl) : State := { s with pnl := f s.pnl }
def State.pnlBit (s : State) (b : Nat) : Bool := bit (s.reg (oPnl + 0x18)) b
def State.setPnlBit (s : State) (b : Nat) (v : Bool) : State := s.setReg (oPnl + 0x18) (setBit (s.reg (oPnl + 0x18)) b v)
/-- The hop entry in force. -/
def State.pnlFidx (s : State) : Nat := s.rf (oPnl + 0x18) 58 56

def scanAt (c : Scan) (i : Nat) : Nat := ((Tbl.look c.raw i).getD 0).toNat

/-! ### Hop entries (R771, R778, R781) -/

/-- The enabled entries as the last EN write found them; entry 0 when none is. -/
def Pnl.entries (p : Pnl) : List Nat :=
  let e := (List.range 8).filter (fun i => bit (Tbl.get (fun _ => 0) p.freqs i) 63)
  if e.isEmpty then [0] else e
/-- The entry after `i` in ascending round-robin order. -/
def Pnl.after (p : Pnl) (i : Nat) : Nat := ((p.entries.find? (fun e => i < e)).orElse (fun _ => p.entries[0]?)).getD 0
/-- Last noise measure of an entry; one never measured counts as the largest. -/
def Pnl.noiseOf (p : Pnl) (i : Nat) : Nat := Tbl.get (fun _ => 0xFFFF) p.noise i

/-! ### Deltas and peaks (R766, R767) -/

/-- Delta of an index on hop entry f. -/
def Pnl.delta (p : Pnl) (c : Scan) (f i : Nat) : Int :=
  let b := Tbl.get (fun _ => 0) p.base (1024 * f + i)
  if i < 960 then (b : Int) - scanAt c i else (scanAt c i : Int) - b

/-- The nodes of the 3×3 area of a node that lie on the panel. -/
def area (i : Nat) : List Nat :=
  let d := i / 40
  let s := i % 40
  (List.range 3).flatMap (fun a => (List.range 3).filterMap (fun b =>
    if 1 ≤ d + a ∧ d + a ≤ 24 ∧ 1 ≤ s + b ∧ s + b ≤ 40 then some (40 * (d + a - 1) + (s + b - 1)) else none))

def isPeak (dl : Nat → Int) (i : Nat) : Bool := (area i).all (fun j => j = i || dl j < dl i || (dl j = dl i && i < j))

/-- A quotient rounded to the nearest unit; a tie rounds as Config says (assumption 40). -/
def nearest (num : Int) (den : Nat) : Nat :=
  let q := num.toNat / den
  let r := num.toNat % den
  if 2 * r < den then q else if den < 2 * r then q + 1 else if Config.panelRoundUp num den then q + 1 else q

/-- A candidate of the frame: node, position, strength, and whether it is a glove candidate. -/
structure Peak where
  node : Nat
  x : Nat
  y : Nat
  str : Nat
  glove : Bool
  deriving DecidableEq, Repr

/-- R767, R769: the candidate at a node, if it is one. -/
def State.candidate (s : State) (dl : Nat → Int) (i : Nat) : Option Peak :=
  let th := s.reg (oPnl + 0x28)
  let self := min (dl (960 + i / 40)) (dl (984 + i % 40))
  let full := (fld th 63 52 : Int) ≤ dl i && (fld th 51 40 : Int) ≤ self
  let glove := !full && (fld th 39 28 : Int) ≤ dl i && (fld th 27 16 : Int) ≤ self
  if !(full || glove) || !isPeak dl i || (glove && s.rf (oPnl + 0x10) 3 2 = 0) then none
  else
    let ns := (area i).filter (fun j => 0 < dl j)
    let sum := ns.foldl (fun n j => n + (dl j).toNat) 0
    let sx := ns.foldl (fun n j => n + (j % 40) * (dl j).toNat) 0
    let sy := ns.foldl (fun n j => n + (j / 40) * (dl j).toNat) 0
    if sum = 0 then some ⟨i, 64 * (i % 40), 64 * (i / 40), 0, glove⟩
    else some ⟨i, nearest (64 * sx) sum, nearest (64 * sy) sum, min 4095 (dl i).toNat, glove⟩

/-! ### Tracking (R767, R769) -/

/-- Square of the distance of two positions (Euclidean: assumption 41). -/
def dist2 (x y u v : Nat) : Nat :=
  let a := if x ≤ u then u - x else x - u
  let b := if y ≤ v then v - y else y - v
  a * a + b * b

/-- The nearest of some touches within 192 units. -/
def nearestTouch (ts : List Touch) (k : Peak) : Option Touch :=
  (ts.filter (fun t => dist2 t.x t.y k.x k.y ≤ 36864)).foldl (fun b t =>
    match b with
    | none => some t
    | some u => if dist2 t.x t.y k.x k.y < dist2 u.x u.y k.x k.y then some t else some u) none

/-- Candidates that match tracked touches: the touches moved, the candidates left over, the touches left over. -/
def matchTouches : List Peak → List Touch → List Touch × List Peak × List Touch
  | [], ts => ([], [], ts)
  | k :: ks, ts =>
    match nearestTouch ts k with
    | some t =>
      let r := matchTouches ks (ts.filter (fun u => u.id ≠ t.id))
      ({ t with x := k.x, y := k.y, str := k.str, glove := k.glove, node := k.node } :: r.1, r.2.1, r.2.2)
    | none => let r := matchTouches ks ts; (r.1, k :: r.2.1, r.2.2)

/-- GDEB as it acts. -/
def State.gdeb (s : State) : Nat := max 1 (s.rf (oPnl + 0x20) 39 32)

/-- Frames in a row in which an unmatched candidate has now stood (R767). -/
def Pnl.stood (p : Pnl) (k : Peak) : Nat :=
  1 + ((p.cands.filter (fun c => dist2 c.x c.y k.x k.y ≤ 36864)).map (·.frames)).foldl max 0

/-- The candidate is a touch once it has stood long enough. -/
def State.ripe (s : State) (k : Peak) : Bool :=
  if s.rf (oPnl + 0x10) 3 2 = 1 ∨ k.glove then decide (s.gdeb ≤ s.pnl.stood k) else true

/-- New touches take the lowest free IDs, strongest first, up to ten in all. -/
def giveIds (t0 : Pay) : List Peak → List Nat → Nat → List Touch
  | [], _, _ => []
  | _, _, 0 => []
  | k :: ks, used, room + 1 =>
    match firstN 10 0 (fun i => !used.contains i) with
    | none => []
    | some i => ⟨i, k.x, k.y, k.x, k.y, k.str, k.glove, t0, k.node⟩ :: giveIds t0 ks (i :: used) room

/-- A touch record (R775): STATE 1 down, 2 held, 3 up. -/
def Touch.record (t : Touch) (state : Nat) : Pay :=
  atFld 63 60 t.id ||| atFld 59 58 state ||| atFld 57 57 (b2n t.glove) ||| atFld 47 36 t.str ||| atFld 35 24 t.x ||| atFld 23 12 t.y

/-! ### The frame ring (R770, R774, R776) -/

/-- Slots of the ring, from PNL_RING as the last EN write found it. -/
def Pnl.slots (p : Pnl) : Nat := 2 ^ fld p.ring 51 48
def State.pnlFull (s : State) : Bool := (s.rf (oPnl + 0x38) 11 0 + 1) % s.pnl.slots = s.rf (oPnl + 0x38) 43 32 % s.pnl.slots
def State.pnlSync (s : State) : State := s.setPnlBit 59 s.pnlFull

/-- Write a frame's record and its registers; a full ring drops it (R776). `e50` says that it asserts source 0x50. -/
def State.pnlRecord (s : State) (w0 w2 w3 : Pay) (recs : List Pay) (deltas : Option (List Pay)) (e50 : Bool) : State :=
  let seq := s.rf (oPnl + 0x18) 31 0
  let head := s.rf (oPnl + 0x38) 11 0
  let s1 := (List.range 10).foldl (fun s i => s.setReg (oPnl + 0x300 + 8 * i) (recs.getD i 0)) (s.setRf (oPnl + 0x18) 31 0 (seq + 1))
  if s.pnlFull then
    let s2 := s1.count (oPnl + 0x208)
    (if e50 then s2.assertSource 0x50 else s2).pnlSync
  else
    let a := fld s.pnl.ring 47 12 * 4096 + 4096 * head
    let zero (n : Nat) : List Pay := List.replicate n 0
    let ws := [w0 ||| atFld 35 32 recs.length ||| atFld 31 0 seq, s.time, w2, w3] ++ zero 4 ++ recs ++ zero (10 - recs.length)
      ++ zero 14 ++ deltas.getD []
    let s2 := if s.inDram a 4096 then s1.engWords a (ws.map Word.raw) else s1
    ((s2.setRf (oPnl + 0x38) 11 0 ((head + 1) % s.pnl.slots)).updPnl (fun p => { p with unacked := p.unacked ++ [e50] })).pnlSync

/-- The oldest written record is acknowledged (R770). -/
def State.pnlAck (s : State) : State :=
  match s.pnl.unacked with
  | [] => s
  | e :: es =>
    let s1 := s.updPnl (fun p => { p with unacked := es })
    let s2 := if bit (s.reg (oPnl + 0x10)) 8 then s1.assertSource 0x51 else s1
    if e then s2.assertSource 0x50 else s2

/-! ### The frame (R764 to R773) -/

/-- Four deltas as one word, lowest index lowest. -/
def deltaWord (dl : Nat → Int) (k : Nat) : Pay :=
  p64 (leNat ((List.range 4).flatMap (fun j => leBytes 2 (BitVec.ofInt 16 (dl (4 * k + j))).toNat)))

/-- A baseline moved toward a count by 1/2^BSHIFT of the difference; an inexact step rounds as Config says. -/
def moveBase (b raw shift : Nat) : Nat :=
  let d : Int := (raw : Int) - b
  let q := d.fdiv (2 ^ shift)
  let q1 := if d.fmod (2 ^ shift) ≠ 0 && Config.panelRoundUp d (2 ^ shift) then q + 1 else q
  ((b : Int) + q1).toNat

/-- An index that no tracked touch's 3×3 area reaches: electrodes lie in it with their lines. -/
def outside (ts : List Touch) (i : Nat) : Bool :=
  ts.all (fun t =>
    if i < 960 then !(area t.node).contains i
    else if i < 984 then (area t.node).all (fun j => j / 40 ≠ i - 960)
    else (area t.node).all (fun j => j % 40 ≠ i - 984))

/-- One learning frame (R766): counts gather, and after eight the baselines of the entry are learned. -/
def State.learnFrame (s : State) (c : Scan) (e n : Nat) (rest : List (Nat × Nat)) : State :=
  let acc := forN 1024 0 (fun i t => Tbl.insert t i (scanAt c i :: (Tbl.look t i).getD [])) s.pnl.learnt
  if 1 < n then s.updPnl (fun p => { p with learn := (e, n - 1) :: rest, learnt := acc })
  else
    let base := forN 1024 0 (fun i t => Tbl.set (fun _ => 0) t (1024 * e + i) (Config.panelLearn ((Tbl.look acc i).getD []) % 65536)) s.pnl.base
    let s1 := s.updPnl (fun p => { p with learn := rest, learnt := [], base := base })
    match rest with
    | r :: _ => s1.setRf (oPnl + 0x18) 58 56 r.1
    | [] => (s1.setPnlBit 62 false).setRf (oPnl + 0x18) 58 56 (s1.pnl.entries.getD 0 0)

/-- The noise measures of the frame, and the hop they ask for (R771). -/
def State.noiseFrame (s : State) (c : Scan) (f : Nat) (mayHop : Bool) : State :=
  let p := s.pnl
  let noise := Tbl.insert (Tbl.insert p.noise p.listen c.cand.toNat) f c.noise.toNat
  let s1 := (s.updPnl (fun p => { p with noise := noise, listen := p.after p.listen, hopped := false })).setRf (oPnl + 0x18) 47 32 c.noise.toNat
  let thr := s.rf (oPnl + 0x20) 23 12
  let best := s1.pnl.entries.foldl (fun b e => if s1.pnl.noiseOf e < s1.pnl.noiseOf b then e else b) (s1.pnl.entries.getD 0 0)
  if mayHop ∧ bit (s.reg (oPnl + 0x10)) 4 ∧ thr ≤ c.noise.toNat ∧ 2 * s1.pnl.noiseOf best < thr then
    ((s1.setRf (oPnl + 0x18) 58 56 best).updPnl (fun p => { p with hopped := true })).count (oPnl + 0x210)
  else s1

/-- One panel frame (R764). -/
def State.panelFrame (s : State) (c : Scan) : State :=
  if !s.pnlBit 63 then s
  else
    let p := s.pnl
    let f := s.pnlFidx
    let s0 := s.count (oPnl + 0x200)
    let w2 := atFld 34 32 p.listen ||| atFld 31 16 c.cand.toNat ||| atFld 15 0 c.noise.toNat
    let dl := p.delta c f
    let deltas := if bit (s.reg (oPnl + 0x10)) 7 then some ((List.range 256).map (deltaWord dl)) else none
    let flags := atFld 50 48 f ||| atFld 45 45 (b2n deltas.isSome) ||| atFld 41 41 (b2n p.hopped)
    match p.learn with
    | (e, n) :: rest =>
      let s1 := s0.pnlRecord (flags ||| atFld 44 44 1) w2 0 [] deltas false
      (s1.noiseFrame c f false).learnFrame c e n rest
    | [] =>
      let wthr : Int := s.rf (oPnl + 0x28) 15 4
      let wetN := countN 960 0 (fun i => dl i ≤ -wthr)
      let wet := decide (s.rf (oPnl + 0x20) 55 48 ≤ wetN)
      let cands := (List.range 960).filterMap (fun i => s.candidate dl i)
      let m := matchTouches cands p.touches
      let fresh := (m.2.1.filter s.ripe).insertionSort (fun a b => b.str ≤ a.str)
      let downs := giveIds s.time fresh (p.touches.map (·.id)) (10 - p.touches.length)
      let limit := s.rf (oPnl + 0x20) 11 8
      let stuck := m.1.filter (fun t => limit ≠ 0 && decide (t.start.toNat + limit * 1000000000 ≤ s.time.toNat))
      let held := m.1.filter (fun t => !stuck.any (fun u => u.id = t.id))
      let ups := p.upNext ++ m.2.2 ++ stuck
      let recs := ((downs.map (fun t => (t.id, t.record 1))) ++ (held.map (fun t => (t.id, t.record 2)))
        ++ (ups.map (fun t => (t.id, t.record 3)))).insertionSort (fun a b => a.1 ≤ b.1)
      let mv := s.rf (oPnl + 0x20) 47 40
      let moved (t : Touch) : Bool := decide (mv * mv ≤ dist2 t.x t.y t.rx t.ry)
      let e50 := !downs.isEmpty || !ups.isEmpty || held.any moved
      let now := (held.map (fun t => if moved t then { t with rx := t.x, ry := t.y } else t)) ++ downs
      let wait := (m.2.1.filter (fun k => !s.ripe k)).map (fun k => (⟨k.x, k.y, p.stood k⟩ : Cand))
      let w0 := flags ||| atFld 42 42 (b2n (now.any (·.glove))) ||| atFld 40 40 (b2n wet)
      let s1 := s0.pnlRecord w0 w2 (atFld 9 0 wetN) (recs.map (·.2) |>.take 10) deltas e50
      let shift := s.rf (oPnl + 0x20) 31 28
      let tracked := now ++ stuck
      let base := if wet then p.base else
        forN 1024 0 (fun i t =>
          let b := Tbl.get (fun _ => 0) p.base (1024 * f + i)
          let v := if stuck.any (fun u => (area u.node).contains i) then scanAt c i
            else if outside tracked i then moveBase b (scanAt c i) shift else b
          Tbl.set (fun _ => 0) t (1024 * f + i) v) p.base
      let s2 := s1.updPnl (fun q => { q with touches := now, cands := wait, base := base, upNext := [] })
      let s3 := (if wet then s2.count (oPnl + 0x218) else s2).setPnlBit 61 wet
      s3.noiseFrame c f true

/-- The frame at which the longest-held touch reaches STUCK (R773). -/
def State.stuckRelease (s : State) (c : Scan) : State :=
  let limit := s.rf (oPnl + 0x20) 11 8
  match s.pnl.touches.foldl (fun (b : Option Pay) t => match b with
      | none => some t.start
      | some u => some (if t.start.toNat < u.toNat then t.start else u)) none with
  | some t0 => if limit = 0 then s.panelFrame c else (s.timeTo (t0 + p64 (limit * 1000000000))).panelFrame c
  | none => s.panelFrame c

/-! ### Starting and stopping (R766, R777, R782) -/

/-- The unit may run: EN, a mode other than Reset and Reserve, and a locked panel PLL. -/
def State.pnlMay (s : State) : Bool :=
  bit (s.reg (oPnl + 0x10)) 0 && s.sys.pnlLock && !s.sys.inReset && s.mode ≠ mReserve

/-- Learn every enabled entry again, eight frames each. -/
def State.pnlLearn (s : State) : State :=
  let es := s.pnl.entries
  ((s.updPnl (fun p => { p with learn := es.map (fun e => (e, 8)), learnt := [] })).setPnlBit 62 true).setRf (oPnl + 0x18) 58 56 (es.getD 0 0)

/-- Frames run from now on, after learning. -/
def State.pnlStart (s : State) : State := if s.pnlMay then (s.setPnlBit 63 true).pnlLearn else s

/-- Stop with a STOP record and up records (R777, R782). -/
def State.pnlStop (s : State) (e50 : Bool) : State :=
  if !s.pnlBit 63 then s
  else
    let ts := s.pnl.touches ++ s.pnl.upNext
    let s1 := (s.setPnlBit 63 false).setPnlBit 62 false
    let w0 := atFld 50 48 s.pnlFidx ||| atFld 43 43 1
    let s2 := s1.pnlRecord w0 0 0 ((ts.map (fun t => t.record 3)).take 10) none (e50 || !ts.isEmpty)
    s2.updPnl (fun p => { p with touches := [], cands := [], learn := [], learnt := [], upNext := [] })

/-- R777: the stop at step 3 of the Reserve sequence writes nothing; tracked touches are remembered. -/
def State.pnlFreeze (s : State) : State :=
  if !s.pnlBit 63 then s
  else
    let s1 := (s.setPnlBit 63 false).setPnlBit 62 false
    s1.updPnl (fun p => { p with upNext := p.upNext ++ p.touches, touches := [], cands := [], learn := [], learnt := [] })

/-- A write of PNL_CTL (R779): EN from 0 to 1 takes PNL_RING and PNL_FREQi and learns; EN to 0 stops. -/
def State.pnlCtl (s : State) (v : Pay) : State :=
  let was := bit (s.reg (oPnl + 0x10)) 0
  let s1 := s.plainWrite (oPnl + 0x10) v
  if !was ∧ bit v 0 then
    let fs := (List.range 8).map (fun i => (i, s.reg (oPnl + 0x100 + 8 * i)))
    (s1.updPnl (fun p => { p with ring := s.reg (oPnl + 0x30), freqs := fs })).pnlStart.pnlSync
  else if was ∧ !bit v 0 then s1.pnlStop false
  else if bit v 63 ∧ s1.pnlBit 63 then s1.pnlLearn
  else s1

/-- The panel PLL loses lock, and relocks (R777). -/
def State.pnlPllLost (s : State) : State :=
  if s.sys.inReset ∨ !s.sys.pnlLock then s
  else (({ s with sys := { s.sys with pnlLock := false } } : State).setPnlBit 60 true).pnlStop true
def State.pnlPllBack (s : State) : State :=
  if s.sys.pnlLock then s else ({ s with sys := { s.sys with pnlLock := true } } : State).pnlStart

/-- An accepted write to the PNL page. -/
def State.pnlStore (s : State) (o : Nat) (v : Pay) : State :=
  if o = 0x10 then s.pnlCtl v else if o = 0x38 then (s.plainWrite (oPnl + o) v).pnlSync else s.plainWrite (oPnl + o) v

end Sys2Proof.Machine
end

