-- ==== Sys2Proof/Machine/Reserve.lean ====
section
/-!
DEFINITION. The power-fail reserve (R681 to R704): the Glaze sequence and its save, ride-through and cut-off, the
hold-up node and its certification tests, and the PWR page.
-/
namespace Sys2Proof.Machine

def State.pwrStat (s : State) (b : Nat) : Bool := bit (s.reg (oPwr + 0x18)) b
def State.setPwrStat (s : State) (b : Nat) (v : Bool) : State := s.setReg (oPwr + 0x18) (setBit (s.reg (oPwr + 0x18)) b v)
def State.vhold (s : State) : Nat := s.rf (oPwr + 0x18) 47 32

/-- The settings as they act (R700 to R703). -/
def State.vcut (s : State) : Nat := max 650 (s.rf (oPwr + 0x28) 63 48)
def State.vok (s : State) : Nat := max 1100 (s.rf (oPwr + 0x28) 47 32)
def State.vtest (s : State) : Nat := max 1100 (s.rf (oPwr + 0x28) 31 16)
def State.need (s : State) : Nat := max 149000 (s.rf (oPwr + 0x20) 31 0)
/-- Hours between tests. -/
def State.testPeriod (s : State) : Nat := min 168 (s.rf (oPwr + 0x10) 55 48)
/-- PFW_N high time before a resume, in ns. -/
def State.debounce (s : State) : Nat := max 1 (s.rf (oPwr + 0x10) 39 32) * 100000

/-- PWR_STAT.CERT (R697); while a test runs it keeps its value (R698). -/
def State.certSync (s : State) : State :=
  if s.pwr.test.isSome then s
  else s.setPwrStat 63 (s.pwrStat 62 && decide (s.need ≤ s.rf (oPwr + 0x18) 31 0) && !s.pwr.pfw && decide (s.vok ≤ s.vhold))

/-! ### Certification tests (R698) -/

/-- A test that PFW_N or its own figures end as aborted runs again after 60 s. -/
def State.testAborts (s : State) : State :=
  ((s.setPwrStat 58 true).setPwrStat 61 false).updPwr (fun p => { p with test := none, retryAt := some (s.time + 60000000000) })

/-- A test starts: V1 is recorded and HUTEST_N goes low. -/
def State.testStarts (s : State) : State :=
  if s.pwr.test.isSome ∨ s.sys.inReset then s
  else if s.pwr.pfw ∨ s.pwr.glaze.isSome then s.updPwr (fun p => { p with due := true })
  else (s.setPwrStat 61 true).updPwr (fun p => { p with test := some ⟨s.vhold, s.time⟩, due := false, retryAt := none })

/-- A test falls due: at Boot entry, after a wait for PFW_N, or PERIOD hours after the last one began. It runs once
VHOLD has been at least VOK for 100 ms. -/
def State.testDue (s : State) : State :=
  if s.sys.inReset ∨ s.pwr.test.isSome then s
  else
    let periodic : Option Pay := if s.testPeriod = 0 then none else s.pwr.lastTest.map (fun t => t + p64 (s.testPeriod * 3600000000000))
    let s1 : Option State := if s.pwr.due then some s else periodic.map (fun t => s.timeTo t)
    match s1 with
    | none => s
    | some u =>
      if u.pwr.pfw ∨ u.pwr.glaze.isSome then u.updPwr (fun p => { p with due := true })
      else match u.pwr.okSince with
        | none => u.updPwr (fun p => { p with due := true })
        | some t => if s.pwr.due then (u.timeTo (t + 100000000)).testStarts else u.testStarts

/-- A test ends with the energy drawn, in µJ, and the node voltage at its end (R698). -/
def State.testEnds (s0 : State) (eout v2 : Nat) : State :=
  match s0.pwr.test with
  | none => s0
  | some t =>
    let s := s0.setRf (oPwr + 0x18) 47 32 v2
    if t.v1 < v2 + 20 ∨ t.v1 < s.vtest + 20 then s.testAborts.certSync
    else
      let e := min (2 ^ 32 - 1) (eout * 743900 / (t.v1 * t.v1 - v2 * v2))
      let s1 := (s.setRf (oPwr + 0x18) 31 0 e).setPwrStat 62 (decide (s.need ≤ e))
      ((s1.setPwrStat 61 false).updPwr (fun p => { p with test := none, lastTest := some t.start })).certSync

/-- The aborted test runs again (R698). -/
def State.testRetries (s : State) : State :=
  match s.pwr.retryAt with
  | some t => (s.timeTo t).testStarts
  | none => s

/-! ### The Glaze sequence (R685 to R690) -/

/-- A PFW_N assertion that R685 accepts: the refusals of R688 begin; a test ends as aborted; outside Reset every twin
stops with its unconfirmed windows dropped, the watch is disarmed, and the mode becomes Reserve; the header's COMPLETE
word is cleared unless a restore still runs (R689, R690). -/
def State.pfwFalls (s0 : State) : State :=
  if s0.pwr.pfw then s0
  else
    let s := (s0.updPwr (fun p => { p with pfw := true })).setPwrStat 57 true
    let s1 := if s.pwr.test.isSome then s.testAborts else s
    let s2 := s1.setPwrStat 63 (if s.pwr.test.isSome then s0.pwrStat 63 else false)
    if s2.pwr.glaze.isSome then s2
    else
      let s3 := s2.setPwrStat 60 false
      let sv := bit (s3.reg (oPwr + 0x30)) 63
      let s4 := s3.updPwr (fun p => { p with
        glaze := some (if s.sys.inReset then mReset else s.mode), complete := if sv then p.complete else false
        seq := if sv then p.seq else satInc 32 p.seq })
      if s.sys.inReset then s4
      else
        let s5 := (List.range 32).foldl (fun s t => if (s.twin t).recov.isSome then s else (s.rollback t).updTwin t (fun w => { w with outL := [], outS := [] })) s4
        let s6 := (s5.freeze (s5.ctxs.map (·.1))).updSys (fun y =>
          { y with armed := false, wakeReq := y.wakeReq || y.quiet = .waking, quiet := .none })
        let s7 := if s6.modeBusy then (s6.setRf 0x10 15 15 0).endModeReq apNotAllowed else s6
        let late := match s7.bgs.move with | some m => m.waiting | none => []
        (({ s7.pnlFreeze with bgs := { s7.bgs with move := none }, outbox := s7.outbox ++ late } : State).setMode mReserve).refresh

/-- PFW_N rises. -/
def State.pfwRises (s : State) : State :=
  if !s.pwr.pfw then s else ((s.updPwr (fun p => { p with pfw := false, pfwHigh := s.time })).setPwrStat 57 false).certSync

/-- JNV byte offset `o` as a memory address (R36, R547). -/
def jnvAt (o : Nat) : Nat := 0x7E0010000000 + o

/-- The pages of Staging SRAM that hold anything. -/
def State.stagingPages (s : State) : List Nat :=
  (List.range 512).filter (fun p =>
    let a := 0x7E0000400000 + 0x1000 * p
    s.mem.any (fun e => a ≤ e.1 && e.1 < a + 0x1000) || s.tags.any (fun e => a ≤ 8 * e.1 && 8 * e.1 < a + 0x1000))

/-- Copy bytes and tags of memory from one address to another. -/
def State.copyMem (s : State) (src dst len : Nat) : State :=
  { s with mem := copyRange s.mem src dst len, tags := copyRange s.tags (src / 8) (dst / 8) (len / 8) }

/-- The Keep area (R700): first byte and length, cut at the end of Keep SRAM. -/
def State.keepArea (s : State) : Nat × Nat :=
  let off := s.rf (oPwr + 0x10) 13 8 * 0x10000
  (off, min (min 16 (s.rf (oPwr + 0x10) 20 16) * 0x10000) (0x400000 - off))

/-- Copy A and copy B of Keep SRAM differ somewhere in an area (R690). -/
def State.keepDiffers (s : State) (off len : Nat) : Bool :=
  let pick {α : Type} (t : Tbl α) (a n : Nat) : List (Nat × α) :=
    (t.filter (fun e => a ≤ e.1 && e.1 < a + n)).map (fun e => (e.1 - a, e.2))
  pick s.mem (keepBase + off) len ≠ pick s.mem (keepBase + copyB + off) len
    || pick s.tags ((keepBase + off) / 8) (len / 8) ≠ pick s.tags ((keepBase + copyB + off) / 8) (len / 8)

/-- The fault records of the save area (R689): the log, then five registers. -/
def State.faultWords (s : State) : List Word :=
  ((List.range 256).map (fun i => Word.raw (s.reg (oTwin + 0x1000 + 8 * i))))
    ++ [s.reg (oTwin + 0x28), s.reg (oTwin + 0x30), s.reg 0x28, s.reg 0x38, s.reg (oPwr + 0x18)].map Word.raw

/-- The flush is complete (R686 steps 5 and 6, R689, R690): Staging pages, Keep area, fault records, header. -/
def State.flushed (s : State) : State :=
  if s.pwr.glaze.isNone ∨ s.pwrStat 60 ∨ s.sec.fuse.isSome then s
  else
    let sv := bit (s.reg (oPwr + 0x30)) 63
    let kv := bit (s.reg (oPwr + 0x30)) 62
    let s1 := if sv then s else s.stagingPages.foldl (fun s p => s.copyMem (0x7E0000400000 + 0x1000 * p) (jnvAt (0x3801000 + 0x1000 * p)) 0x1000) s
    let ka := s.keepArea
    let s2 := if sv ∨ kv then s1 else
      (s1.copyMem (keepBase + ka.1) (jnvAt 0x3A01000) ka.2).updPwr (fun p =>
        { p with keepOff := ka.1 / 0x10000, keepLen := ka.2 / 0x10000, keepDiff := s.keepDiffers ka.1 ka.2 })
    let s3 := (s2.setPwrStat 60 true)
    let s4 := s3.setWords (jnvAt 0x3B01000) s3.faultWords
    let s5 := if sv then s4 else
      let s6 := s4.updPwr (fun p => { p with complete := true, saved := some s4.ldg.live, pages := s.stagingPages })
      let s7 := s6.setRf (oPwr + 0x30) 31 0 (satInc 32 (s6.rf (oPwr + 0x30) 31 0))
      s7.setRf (oPwr + 0x30) 61 61 (b2n s7.pwr.keepDiff)
    if s5.sys.rstWait then s5.deviceReset 2 else s5

/-- Drives with an outstanding command must report ready within 2 s of the resume (R608). -/
def State.awaitDrives (s : State) : State :=
  let busy (n : Nat) : Bool := s.drvIn n && (s.sto.seals.any (fun e => e.drives.contains n) || s.sto.reads.any (fun r => r.slot && s.readDrive r = some n))
  { s with sto := { s.sto with awaiting := ([0, 1].filter busy).map (fun n => (n, s.time + 2000000000)) } }

/-- Resume (R692 to R694): every context is reset, its SATB entries handed on (R314), once FLUSHED is 1, PFW_N has been high for the debounce time and VHOLD is at least VOK. -/
def State.resume (s0 : State) : State :=
  match s0.pwr.glaze with
  | none => s0
  | some m =>
    if !s0.pwrStat 60 ∨ s0.pwr.pfw ∨ s0.vhold < s0.vok then s0
    else
      let s := s0.timeTo (s0.pwr.pfwHigh + p64 s0.debounce)
      if m = mBoot then s.deviceReset 7
      else
        let s1 := (s.updPwr (fun p => { p with glaze := none })).setPwrStat 60 false
        if s.sys.inReset then s1
        else
          let u := forN 32 0 (fun t s => (s.submitAll (s.presentedOf t)).orphanTxns t) (s1.setPwrStat 59 true)
          let s2 := forN 256 0 (fun x s => s.dropCtx x) u
          let s3 := ({ s2 with runs := [] } : State).setMode (if m = mRun ∨ m = mDegraded then s2.runMode else m)
          let s4 := (s3.reached s3.sentinelCtx).foldl (fun s x => (s.ctxReset x).deliverHeld x) s3
          ((((s4.restartCmds (List.range 256)).awaitDrives).pnlStart).retryHeld.certSync).refresh

/-- VHOLD falls below VCUT after a Reserve sequence has started (R695). -/
def State.cutOff (s : State) : State :=
  if s.pwr.glaze.isNone then s else (s.deviceReset 7).updPwr (fun p => { p with cut := true })

/-- A sample of the hold-up node, in units of 10 mV (R685). -/
def State.vholdSample (s : State) (v : Nat) : State :=
  let s1 := s.setRf (oPwr + 0x18) 47 32 v
  let s2 := s1.updPwr (fun p => { p with okSince := if s.vok ≤ v then (match p.okSince with | some t => some t | none => some s.time) else none })
  let s3 := s2.certSync
  if v < s.vcut then s3.cutOff.setRf (oPwr + 0x18) 47 32 v else s3

/-! ### The restore at power-on (R691) -/

/-- The Ledger loads the saved Staging pages back before its rebuild, while PWR_SAVE.SVALID is 1. -/
def State.restoreStaging (s : State) : State :=
  if !bit (s.reg (oPwr + 0x30)) 63 then s
  else
    let s1 := s.pwr.pages.foldl
      (fun s p => s.copyMem (jnvAt (0x3801000 + 0x1000 * p)) (0x7E0000400000 + 0x1000 * p) 0x1000) s
    match s.pwr.saved with
    | some l => s1.updLdg (fun g => { g with live := l })
    | none => s1

/-- LEDGER_REBUILD (R564, R691). -/
def State.rebuildStarts (s : State) : State :=
  if s.mode ≠ mBoot ∨ !s.ldg.trained ∨ s.ldgStat 63 then s else s.restoreStaging.rebuild

/-! ### The PWR page (R699 to R704) -/

/-- An accepted write to the PWR page by source `src`. -/
def State.pwrStore (s : State) (src o : Nat) (v : Pay) : State :=
  if o = 0 ∨ o = 8 then s.plainWrite (oPwr + o) v
  else if 4 ≤ src then s
  else if o = 0x10 then
    let s1 := s.plainWrite (oPwr + o) v
    if bit v 63 then s1.testStarts else s1
  else (s.plainWrite (oPwr + o) v).certSync

end Sys2Proof.Machine
end

