-- ==== Sys2Proof/Machine/Bgs.lean ====
section
/-!
DEFINITION. The background services (R705 to R724): patrol, L2 scrub, Keep SRAM compare, JNV wear rotation and
remapping, DRAM and sensor calibration, and the BGS page.
-/
namespace Sys2Proof.Machine

def State.updBgs (s : State) (f : Bgs → Bgs) : State := { s with bgs := f s.bgs }

/-- The services run: in every mode except Reset and Reserve (R705). -/
def State.bgsRuns (s : State) : Bool := !s.sys.inReset && s.mode ≠ mReserve && s.mode ≠ mReset

/-- BGS_ERRADDR records an uncorrectable error, and the BGS source is raised (R708, R712). -/
def State.bgsError (s : State) (v : Pay) : State :=
  ((s.setReg (oBgs + 0x28) v).setReg (oBgs + 0x18) (setBit (s.reg (oBgs + 0x18)) 62 true)).assertSource 0x58

/-- The patrol reads its next line (R707, R708), once the read finds a Transaction Table entry (R23). -/
def State.patrol (s : State) (e : Ecc) : State :=
  if !s.bgsRuns ∨ !bit (s.reg (oBgs + 0x10)) 0 ∨ !s.fabricFree 0x46 then s
  else
    let a := s.rf (oBgs + 0x20) 47 6 * 64
    let s1 := match e with
      | .clean => s
      | .corrected => s.telem 0x46 telDdrCorr (p64 a)
      | .bad => (s.telem 0x46 telDdrUe (p64 a)).bgsError (atFld 63 62 1 ||| atFld 48 0 a)
    if a + 64 < s.dramSize then s1.setRf (oBgs + 0x20) 47 6 (a / 64 + 1)
    else
      let s2 := (s1.setRf (oBgs + 0x20) 47 6 0).bump (oBgs + 0x20) 63 48
      s2.telem 0x46 telPass (p64 (s2.rf (oBgs + 0x20) 63 48))

/-- The scrub of cluster n's L2 reads its next line (R709). -/
def State.l2Scrub (s : State) (n : Nat) (e : Ecc) : State :=
  if !s.bgsRuns ∨ !bit (s.reg (oBgs + 0x10)) 1 ∨ !s.clOn n ∨ bit (s.reg (oCl n + 0x1008)) 63 then s
  else
    let p := Tbl.get (fun _ => 0) s.bgs.l2Pos n
    let s0 := s.updBgs (fun b => { b with l2Pos := Tbl.set (fun _ => 0) b.l2Pos n ((p + 1) % 65536) })
    match occupant 4096 (p / 16) (p % 16) (s.cluster n).lineWays with
    | none => s0
    | some line =>
      match e with
      | .clean => s0
      | .corrected => s0.l2Corrected 0x46 n line
      | .bad =>
        let dirty := match s0.l2At n line with | some m => m.dirty || s0.lineDirty line | none => false
        s0.l2Uncorr 0x46 n line dirty

/-- The Keep compare may run (R501, R710, R718). -/
def State.keepRuns (s : State) : Bool :=
  let ok (t : Nat) : Bool := let w := s.twin t; (w.mode = .tight || w.mode = .loose) && w.recov.isNone
  s.bgsRuns && bit (s.reg (oBgs + 0x10)) 2 && ok 0 && ok 1

/-- One ECC result of a copy: a correction is counted, an uncorrectable error recorded (R710, R712). -/
def State.keepEcc (s : State) (off copy : Nat) (e : Ecc) : State :=
  match e with
  | .clean => s
  | .corrected => s.telem 0x46 telKeepCorr (p64 off)
  | .bad => (s.telem 0x46 telKeepUe (p64 off)).bgsError (atFld 63 62 2 ||| atFld 48 48 copy ||| atFld 47 0 off)

/-- The compare reads its next word in both copies (R710 to R712). -/
def State.keepCompare (s : State) (ea eb : Ecc) : State :=
  if !s.keepRuns ∨ s.bgs.keepDiff.isSome then s
  else
    let off := s.bgs.keepPos
    let a := s.word (keepBase + off)
    let b := s.word (keepBase + copyB + off)
    let s1 := (s.keepEcc off 0 ea).keepEcc off 1 eb
    s1.updBgs (fun g => { g with
      keepPos := (off + 8) % 0x400000
      keepDiff := if a ≠ b ∧ ea ≠ .bad ∧ eb ≠ .bad then some (off, a, b) else none })

/-- A word that differed is read again (R711): recovery with cause KEEP starts on the standby Keeper twin, and follows
on the other (R501). -/
def State.keepRecheck (s : State) : State :=
  match s.bgs.keepDiff with
  | none => s
  | some (off, a, b) =>
    let s1 := s.updBgs (fun g => { g with keepDiff := none })
    if !s.keepRuns ∨ s.word (keepBase + off) ≠ a ∨ s.word (keepBase + copyB + off) ≠ b then s1
    else (s1.startRecovery (1 - s.rf (oTwin + 0x28) 62 62) 9 0 (p64 off) 0 true).refresh

/-! ### JNV (R713 to R715) -/

/-- A wear rotation starts to move a logical block. -/
def State.jnvMove (s : State) (block : Nat) : State :=
  if !s.bgsRuns ∨ s.bgs.move.isSome ∨ 0x4000 ≤ block then s else s.updBgs (fun g => { g with move := some ⟨block, []⟩ })

/-- The mappings switch in one step, and writes that waited go on. -/
def State.jnvSwitch (s : State) : State :=
  match s.bgs.move with
  | none => s
  | some m => { (s.updBgs (fun g => { g with move := none })) with outbox := s.outbox ++ m.waiting }

/-- A JNV write fails its verification twice: the block moves to a spare, or there is none (R714). -/
def State.jnvRemap (s : State) (block : Nat) : State :=
  if s.bgs.spares = 0 then
    ((s.setReg (oBgs + 0x18) (setBit (s.reg (oBgs + 0x18)) 63 true)).telem 0x46 telJnvFail (p64 (jnvAt (0x1000 * block)))).assertSource 0x58
  else
    (s.updBgs (fun g => { g with
      remap := Tbl.insert g.remap block (512 - g.spares), spares := g.spares - 1, remaps := satInc 32 g.remaps })).telem
        0x46 telJnvRemap (p64 (jnvAt (0x1000 * block)))

/-- The journal front drains, with the blocks whose writes failed twice (R550, R714). -/
def State.drain (s : State) (bad : List Nat) : State := bad.foldl (fun s b => s.jnvRemap b) s.journalDrain

/-! ### Calibration (R716, R717) -/

/-- A hold of a DRAM channel begins, 10 ms or more after its last one (R716); table keys 2 and 3 keep the last holds. -/
def State.startHold (s : State) (ch : Nat) (ns : Nat) : State :=
  let free := match Tbl.look s.bgs.holds (2 + ch) with
    | some t => decide (t.toNat + 10000000 ≤ s.time.toNat)
    | none => true
  if !s.bgsRuns ∨ !free ∨ (Tbl.look s.bgs.holds ch).isSome then s
  else s.updBgs (fun g => { g with holds := Tbl.insert g.holds ch (s.time + p64 ns) })

def State.zqCal (s : State) (ch : Nat) : State := s.startHold ch 1000
def State.dqsTrain (s : State) (ch : Nat) (drifted : Bool) : State := if drifted then s.startHold ch 2000 else s
/-- The hold of a channel ends. -/
def State.holdEnds (s : State) (ch : Nat) : State :=
  match Tbl.look s.bgs.holds ch with
  | none => s
  | some t =>
    let s1 := s.timeTo t
    s1.updBgs (fun g => { g with holds := Tbl.insert (Tbl.erase g.holds ch) (2 + ch) s1.time })
/-- The refresh rate that MR4 reports. -/
def State.mr4 (s : State) (ch rate : Nat) : State :=
  if s.bgsRuns then s.updBgs (fun g => { g with refresh := Tbl.set (fun _ => 0) g.refresh ch rate }) else s

/-- The check of the thermal sensors: those that differ from their cluster's reference (R717). -/
def State.sensorCheck (s : State) (out : List (BitVec 3 × BitVec 8)) : State :=
  if !s.bgsRuns then s
  else
    out.foldl (fun s e => s.telem 0x51 telSensor 0 (p64 e.2.toNat))
      (s.updBgs (fun g => { g with excluded := out.map (fun e => e.1.toNat * 256 + e.2.toNat) }))

/-! ### The BGS page (R722 to R724) -/

/-- A load from the BGS page. -/
def State.bgsLoad (s : State) (o : Nat) : Pay :=
  if o = 0x18 then setFld (setFld (s.reg (oBgs + o)) 41 32 s.bgs.spares) 31 0 s.bgs.remaps
  else if 0x40 ≤ o ∧ o ≤ 0x58 then
    match s.bgs.tel.find? (fun r => r.seq = s.rf (oBgs + 0x38) 31 0) with
    | some r => (r.word ((o - 0x40) / 8)).pay
    | none => 0
  else s.reg (oBgs + o)

/-- An accepted write to the BGS page by source `src`. -/
def State.bgsStore (s : State) (src o : Nat) (v : Pay) : State := if 4 ≤ src then s else s.plainWrite (oBgs + o) v

end Sys2Proof.Machine
end

