-- ==== Sys2Proof/Machine/Heap.lean ====
section
/-!
DEFINITION. What cores and Scavenge Engines share of objects: headers (R70, R71), and the hand-over of a copy request (R328,
R332).
-/
namespace Sys2Proof.Machine

/-! ### Headers -/

/-- Fields of a header (R70). -/
def hdrOtag (p : Pay) : BitVec 8 := BitVec.ofNat 8 (fld p 63 56)
def hdrFmt (p : Pay) : Nat := fld p 55 54
def hdrPad (p : Pay) : Nat := fld p 34 32
def hdrLen (p : Pay) : Nat := fld p 31 0
abbrev fmtScan : Nat := 0
abbrev fmtBytes : Nat := 1
abbrev fmtCode : Nat := 2
/-- Byte length of a BYTES object (R79). -/
def hdrBytes (p : Pay) : Nat := 8 * hdrLen p - hdrPad p

/-- R71: a header word in its form. -/
def hdrOk (p : Pay) : Bool :=
  let o := hdrOtag p
  hdrFmt p ≠ 3 && fld p 53 48 = 0 && ((0x41 ≤ o.toNat && o.toNat ≤ 0x47) || o = Tag.code || isUserPtr o)

/-- Put a copy request to the owner engine (R328, R332); a request for an object already asked for by this context is
kept once. -/
def State.askCopy (s : State) (owner obj x : Nat) : State :=
  s.updCluster owner (fun c => if c.copyQ.any (fun q => q.obj = obj && q.x = x && q.ev.isNone) then c else { c with copyQ := c.copyQ ++ [⟨obj, x, none⟩] })

end Sys2Proof.Machine
end

