-- ==== Sys2Proof/Machine/GcBlk.lean ====
section
/-!
DEFINITION. The GC block and the Scavenge Engines (R296 to R299, R313, R316, R318 to R352): the Region Table, the phases
of a cycle, marking, card scanning, weak slots, evacuation, and the registers of the GC page and of the engines.
-/
namespace Sys2Proof.Machine

/-! ### The Region Table (R293, R294, R296) -/

/-- The entry of region i in memory. -/
def State.rtAddr (s : State) (i : Nat) : Nat := s.rf (oGc + 0x10) 35 16 * 0x10000 + 16 * i
def State.rt0 (s : State) (i : Nat) : Pay := (s.word (s.rtAddr i)).pay
def State.rt1 (s : State) (i : Nat) : Pay := (s.word (s.rtAddr i + 8)).pay
/-- A word of DRAM written by the GC block or an engine; nothing is written outside fitted DRAM. -/
def State.gcWrite (s : State) (pa : Nat) (w : Word) : State := if s.inDram pa 8 then s.engWrite pa w else s
def State.setRt0 (s : State) (i : Nat) (w : Pay) : State := s.gcWrite (s.rtAddr i) (Word.raw w)
def State.setRt1 (s : State) (i : Nat) (w : Pay) : State := s.gcWrite (s.rtAddr i + 8) (Word.raw w)

/-- Fields of word 1. -/
def rtLive (w : Pay) : Nat := fld w 63 40
def rtTams (w : Pay) : Nat := fld w 39 16
def rtBig (w : Pay) : Bool := bit w 3
def rtUe (w : Pay) : Bool := bit w 2
def rtMcyc (w : Pay) : Nat := fld w 1 0

/-- The enabled heap whose indices hold i (R291). -/
def State.heapOfIdx (s : State) (i : Nat) : Option Nat :=
  firstN 4 0 (fun h => s.heapEn h && decide (s.heapRidx h ≤ i) && decide (i < s.heapRidx h + s.heapRegions h))

/-- Words of a region of heap h. -/
def State.regionWords (s : State) (h : Nat) : Nat := s.heapS h / 8
/-- First virtual address of region i of heap h. -/
def State.regionBase (s : State) (h i : Nat) : Nat := s.heapVbase h + (i - s.heapRidx h) * s.heapS h
/-- The global indices of heap h's regions. -/
def State.regionsOf (s : State) (h : Nat) : List Nat := List.range' (s.heapRidx h) (s.heapRegions h)

def State.heapSt (s : State) (h : Nat) : HeapSt := Tbl.get (fun _ => HeapSt.reset) s.heaps h
def State.setHeapSt (s : State) (h : Nat) (v : HeapSt) : State := { s with heaps := Tbl.set (fun _ => HeapSt.reset) s.heaps h v }

/-- GC_HEAPh_CTL, POLICY and STAT. -/
def State.heapCtl (s : State) (h : Nat) : Pay := s.reg (oHeap h + 0x20)
def State.heapPol (s : State) (h : Nat) : Pay := s.reg (oHeap h + 0x28)
def State.heapStat (s : State) (h b : Nat) : Bool := bit (s.reg (oHeap h + 0x30)) b
def State.setHeapStat (s : State) (h b : Nat) (v : Bool) : State := s.setReg (oHeap h + 0x30) (setBit (s.reg (oHeap h + 0x30)) b v)
def State.heapAuto (s : State) (h : Nat) : Bool := bit (s.heapCtl h) 8

/-- The event of heap h (R348, R737). -/
def State.gcEvent (s : State) (h : Nat) : State := s.assertSource (0x52 + h)
/-- A STAT bit of heap h becomes 1, with the event when it was 0. -/
def State.raiseHeap (s : State) (h b : Nat) : State := if s.heapStat h b then s else (s.setHeapStat h b true).gcEvent h

/-- Free regions of heap h. -/
def State.freeRegions (s : State) (h : Nat) : Nat := (s.regionsOf h).countP (fun i => rtState (s.rt0 i) = rgFree)

/-- STAT.FREE follows the table, and WANT is raised when TRIGGER is crossed (R347, R348). -/
def State.syncHeap (s : State) (h : Nat) : State :=
  let old := s.rf (oHeap h + 0x30) 48 32
  let n := s.freeRegions h
  let pct := min 100 (fld (s.heapPol h) 63 56)
  let low (k : Nat) : Bool := decide (k * 100 < pct * s.heapRegions h)
  let s1 := s.setRf (oHeap h + 0x30) 48 32 n
  if low n ∧ !low old then s1.raiseHeap h 58 else s1

/-- A range of DRAM becomes RAW : 0 (R299); copies of its lines leave the caches. -/
def State.clearRange (s : State) (pa len : Nat) : State :=
  let within (a : Nat) : Bool := decide (pa ≤ a) && decide (a < pa + len)
  let cached := s.backing.map (·.1) ++ s.cores.flatMap (fun e => e.2.l1d.map (·.1)) ++ s.clusters.flatMap (fun e => e.2.l2.map (·.1))
  let lines := (cached.filter (fun l => within (64 * l) || within (64 * l + 63))).eraseDups
  let s1 := lines.foldl (fun s l => (s.confirmLine l).cohWrite none none l) s
  { s1 with mem := s1.mem.filter (fun e => !within e.1), tags := s1.tags.filter (fun e => !within (8 * e.1)) }

/-- Bytes of a side area, and the stride of a heap's side areas (R298). -/
def State.sideLen (s : State) (h : Nat) : Nat := s.heapS h / 64 + s.heapS h / 512
def State.sideStride (s : State) (h : Nat) : Nat := (s.sideLen h + 4095) / 4096 * 4096

/-- The generations whose to-region of engine n is region i. -/
def Cluster.toGens (c : Cluster) (i : Nat) : List Nat := (c.toReg.filter (fun e => e.2.ridx = i)).map (·.1)

/-- Engine n leaves its to-region of generation g; its tail becomes a FREE run (R74, R329). -/
def State.leaveTo (s : State) (n g : Nat) : State :=
  match Tbl.look (s.cluster n).toReg g with
  | none => s
  | some t =>
    let s1 := match s.heapOfIdx t.ridx with
      | some h =>
        if t.off < s.regionWords h then
          s.gcWrite (s.heapPhys h (s.regionBase h t.ridx) + 8 * t.off) ⟨Tag.free, p64 (s.regionWords h - t.off)⟩
        else s
      | none => s
    s1.updCluster n (fun c => { c with toReg := Tbl.erase c.toReg g })

/-- Every engine leaves region i as its to-region. -/
def State.leaveRegion (s : State) (i : Nat) : State :=
  (s.clusters.flatMap (fun e => (e.2.toGens i).map (fun g => (e.1, g)))).foldl (fun s p => s.leaveTo p.1 p.2) s

/-- Stores that wait in windows or store buffers land before a change to evacuating propagates (R333). -/
def State.landStores (s : State) : State :=
  let s1 := (s.twins.filter (fun e => !e.2.hold.isEmpty)).foldl (fun s e => s.confirm e.1) s
  let open_ (t : Txn) : Bool := t.kind = .store && !t.arrived
  { s1 with
    outbox := s1.outbox ++ (s1.txns.filter open_).filterMap (·.out)
    txns := s1.txns.map (fun t => if open_ t then { t with arrived := true } else t) }

/-- Region i of heap h gets word 0 `w`; when it leaves the free state its side area is cleared first (R299), and word 1
starts at zero (assumption 43). Engines allocate in normal regions only (R295); an evacuating region whose DONE falls has to wait for
another MARK (R297). -/
def State.setRegion (s0 : State) (h i : Nat) (w : Pay) : State :=
  let s := if rtState w = rgNormal then s0 else s0.leaveRegion i
  let old := s.rt0 i
  let s1 := if rtState old = rgFree ∧ rtState w ≠ rgFree then (s.clearRange (rtSide old) (s.sideLen h)).setRt1 i 0 else s
  let s2 := if rtState w = rgEvac ∧ rtDone w then s1
    else s1.setHeapSt h { s1.heapSt h with
      passed := (s1.heapSt h).passed.filter (· ≠ i), atMark := (s1.heapSt h).atMark.filter (· ≠ i) }
  (s2.setRt0 i w).syncHeap h

/-- Word 0 with STATE and GEN changed and the evacuation fields cleared. -/
def plainRegion (old : Pay) (st gen : Nat) : Pay := atFld 63 62 st ||| atFld 61 60 gen ||| (old &&& maskFld 47 12)

/-- Every evacuating region of heap h has DONE = 1 (R318). -/
def State.evacDone (s : State) (h : Nat) : Bool :=
  (s.regionsOf h).all (fun i => rtState (s.rt0 i) ≠ rgEvac || rtDone (s.rt0 i))

/-- Every core's SATB recording for heap h is switched (R319). -/
def State.setSatb (s : State) (h : Nat) (v : Bool) : State :=
  ((List.range 64).filter (fun k => s.clOn (clusterOfCore k))).foldl (fun s k =>
    s.updCore k (fun c => { c with satb := Tbl.set (fun _ => false) c.satb h v })) s

def State.setPhase (s : State) (h p : Nat) : State := s.setRf (oHeap h + 0x20) 2 0 p

/-- A cycle completes (R318, R348). -/
def State.cycleEnds (s : State) (h : Nat) : State :=
  let s1 := ((s.setPhase h 0).setHeapStat h 63 false).setRf (oHeap h + 0x30) 31 0 (s.rf (oHeap h + 0x30) 31 0 + 1)
  s1.gcEvent h

/-- EVAC's work is done: the cycle ends, or READY is set (R318). -/
def State.checkEvac (s : State) (h : Nat) : State :=
  if s.heapPhase h ≠ 3 then s
  else if s.evacDone h then (if s.heapAuto h then s.cycleEnds h else s.setHeapStat h 63 true)
  else s.setHeapStat h 63 false

/-- EVAC begins: SATB recording ends. -/
def State.startEvac (s : State) (h : Nat) : State := (((s.setPhase h 3).setHeapStat h 63 false).setSatb h false).checkEvac h

/-- A write of MARK (R319): CYCLE, ROOTS and UNSOUND, and the regions that R330 will free. -/
def State.startMark (s : State) (h : Nat) : State :=
  let c := s.heapCtl h
  let c1 := setFld (setFld (setFld (setFld c 31 31 0) 30 30 0) 13 12 (fld c 13 12 + 1)) 2 0 1
  let done := (s.regionsOf h).filter (fun i => rtState (s.rt0 i) = rgEvac ∧ rtDone (s.rt0 i))
  let s1 := (s.setReg (oHeap h + 0x20) c1).setHeapSt h { s.heapSt h with atMark := done, young := [] }
  (s1.setHeapStat h 62 false).setHeapStat h 63 false

/-- Setting EN makes every region of the heap free (R346). -/
def State.enableHeap (s0 : State) (h : Nat) : State :=
  let s := s0.clusterList.foldl (fun s n => s.updCluster n (fun c =>
    { c with toReg := c.toReg.filter (fun e => !(s0.regionsOf h).contains e.2.ridx) })) s0
  let base := s.rf (oHeap h + 0x18) 35 12 * 4096
  let s1 := s.setRf (oHeap h + 0x20) 3 3 1
  let s2 := (List.range (s1.heapRegions h)).foldl (fun s j =>
    (s.setRt0 (s.heapRidx h + j) (atFld 63 62 rgFree ||| atFld 47 12 ((base + j * s.sideStride h) / 4096))).setRt1 (s.heapRidx h + j) 0) s1
  ((s2.setRf (oHeap h + 0x30) 48 32 (s2.heapRegions h)).setHeapSt h HeapSt.reset).syncHeap h

/-- A phase written by software (R318, R333): MARK from IDLE, or the next phase once READY with AUTO = 0. Any other
change is ignored with SEQERR. -/
def State.writePhase (s : State) (h p : Nat) : State :=
  let c := s.heapPhase h
  if p = c then s
  else if c = 0 ∧ p = 1 ∧ s.heapEn h then s.startMark h
  else if !s.heapAuto h ∧ s.heapStat h 63 ∧ c ≠ 0 ∧ p = (c + 1) % 4 then
    (if p = 2 then (s.setPhase h 2).setHeapStat h 63 false else if p = 3 then s.startEvac h else s.cycleEnds h)
  else s.setHeapStat h 61 true

/-- Two half-open ranges meet. -/
def rangesMeet (a n b m : Nat) : Bool := decide (a < b + m) && decide (b < a + n)

/-- A write of a heap's VBASE, PBASE, GEOM or SIDE (R345): what the register sets may not overlap another enabled heap, its virtual
addresses for VBASE, its physical ones for PBASE, both and its indices for GEOM (assumption 97). -/
def State.heapCfgWrite (s : State) (h r : Nat) (v : Pay) : State :=
  let s1 := s.plainWrite (oHeap h + r) v
  let meets (g : Nat) : Bool := g ≠ h && s.heapEn g &&
    (((r = 0 || r = 0x10) &&
        rangesMeet (s1.heapVbase h) (s1.heapRegions h * s1.heapS h) (s1.heapVbase g) (s1.heapRegions g * s1.heapS g))
      || ((r = 8 || r = 0x10) &&
        rangesMeet (s1.heapPbase h) (s1.heapRegions h * s1.heapS h) (s1.heapPbase g) (s1.heapRegions g * s1.heapS g))
      || (r = 0x10 && rangesMeet (s1.heapRidx h) (s1.heapRegions h) (s1.heapRidx g) (s1.heapRegions g)))
  if s.heapEn h ∨ [0, 1, 2, 3].any meets then s.setHeapStat h 60 true else s1

/-- A transition that R297 allows. -/
def State.rsetOk (s : State) (h i : Nat) (v : Pay) : Bool :=
  let c := rtState (s.rt0 i)
  let n := fld v 63 62
  let p := s.heapPhase h
  if c = rgFree then n = rgNormal || n = rgPinned
  else if c = rgNormal then
    n = rgPinned || (n = rgEvac && (p = 0 || p = 3) && rtTams (s.rt1 i) = s.regionWords h) || (n = rgFree && p = 0)
  else if c = rgPinned then n = rgNormal
  else (n = rgFree && rtDone (s.rt0 i) && (s.heapSt h).passed.contains i)
    || (n = rgEvac && rtOwner (s.rt0 i) = 15 && fld v 57 54 = 15)

/-- A write of GC_RSET (R297, R343, R344). An index that no enabled heap holds is refused (assumption 44). -/
def State.rset (s : State) (v : Pay) : State :=
  let i := fld v 15 0
  let refuse := s.setReg (oGc + 0x20) (setBit (setFld (s.reg (oGc + 0x20)) 15 0 i) 63 true)
  match s.heapOfIdx i with
  | none => refuse
  | some h =>
    if !s.rsetOk h i v then refuse
    else
      let old := s.rt0 i
      let st := fld v 63 62
      let p := plainRegion old st (fld v 61 60)
      let own := fld v 57 54
      let w := if st = rgEvac then p ||| atFld 59 59 (fld v 59 59) ||| atFld 57 54 own ||| (if own = 15 then atFld 58 58 (fld v 58 58) else 0) else p
      let s1 := (if st = rgEvac then s.landStores else s).setRegion h i w
      let s2 := if own < 8 then s1.updCluster own (fun c => { c with walk := Tbl.erase c.walk i }) else s1
      s2.checkEvac h

/-- Take the lowest free region of heap h for allocation (R322, R349). -/
def State.takeRegion (s : State) (h gen : Nat) : Option (Nat × State) :=
  match (s.regionsOf h).find? (fun i => rtState (s.rt0 i) = rgFree) with
  | none => none
  | some i =>
    let s1 := s.setRegion h i (plainRegion (s.rt0 i) rgNormal gen)
    some (i, if s.heapPhase h = 1 then s1.setHeapSt h { s1.heapSt h with young := (s1.heapSt h).young ++ [i] } else s1)

/-- A load of GC_HEAPh_ALLOC (R349). -/
def State.allocLoad (s : State) (h : Nat) : Pay × State :=
  match (if s.heapEn h then s.takeRegion h 0 else none) with
  | some (i, s1) => (setBit (p64 i) 63 true, s1)
  | none => (0, s.raiseHeap h 59)

/-! ### Intake, spill and weak lists (R313, R334, R335) -/

abbrev oSe (n : Nat) : Nat := oCl n + 0x4000
def State.seOn (s : State) (n : Nat) : Bool := s.clOn n && bit (s.reg (oSe n)) 0
/-- The engine runs, and its next request finds a Transaction Table entry of its cluster (R22, R23). -/
def State.seActs (s : State) (n : Nat) : Bool := s.seOn n && s.fabricFree (0x48 + n)
def State.seStat (s : State) (n b : Nat) : Bool := bit (s.reg (oSe n + 8)) b
def State.setSeStat (s : State) (n b : Nat) (v : Bool) : State := s.setReg (oSe n + 8) (setBit (s.reg (oSe n + 8)) b v)

/-- Spill entries in use and the room for them. -/
def Cluster.spill (c : Cluster) : Nat := (c.markQ.length - 1024) + c.weakL.length
def State.spillRoom (s : State) (n : Nat) : Nat := (s.rf (oSe n + 0x18) 35 12 - s.rf (oSe n + 0x10) 35 12) * 512

/-- The heaps in MARK, as their events name them. -/
def State.markingHeap (s : State) : Option Nat := firstN 4 0 (fun h => s.heapPhase h = 1)

/-- The spill area is full: SPFULL, and the GC event (R335). -/
def State.spCheck (s : State) (n : Nat) : State :=
  if s.seStat n 62 ∨ (s.cluster n).spill ≤ s.spillRoom n then s
  else
    let s1 := s.setSeStat n 62 true
    match s.markingHeap with
    | some h => s1.gcEvent h
    | none => s1

/-- A word that an engine must look at later: an entry for a heap in MARK, or a weak slot while some heap marks (R314,
R323). -/
def State.worthMarking (s : State) (w : Word) : Bool :=
  if w.tag = Tag.raw then s.markingHeap.isSome
  else match s.heapPtr (fun _ => true) w with
    | some h => s.heapPhase h = 1
    | none => false

/-- An entry of engine n's queues that does not fit on chip goes to the spill area, while it has room (R334; assumption 98): mark
entries upward from SPBASE, weak slots downward from SPLIM. -/
def State.spillMark (s : State) (n : Nat) (w : Word) : State :=
  let c := s.cluster n
  if 1024 ≤ c.markQ.length ∧ c.spill < s.spillRoom n then
    s.gcWrite (s.rf (oSe n + 0x10) 35 12 * 4096 + 8 * (c.markQ.length - 1024)) w
  else s
def State.spillWeak (s : State) (n pa : Nat) : State :=
  let c := s.cluster n
  if c.spill < s.spillRoom n then s.gcWrite (s.rf (oSe n + 0x18) 35 12 * 4096 - 8 * (c.weakL.length + 1)) (Word.rawN pa) else s

/-- Entries join the mark queue of cluster n's engine, and a slot its weak list. -/
def State.pushMark (s : State) (n : Nat) (ws : List Word) : State :=
  ((ws.filter s.worthMarking).foldl (fun s w =>
    (s.spillMark n w).updCluster n (fun c => { c with markQ := c.markQ ++ [w] })) s).spCheck n
def State.pushWeak (s : State) (n pa : Nat) : State :=
  ((s.spillWeak n pa).updCluster n (fun c => { c with weakL := c.weakL ++ [pa] })).spCheck n

/-- An engine's entry in CLn_SE_ERRADDR and STAT for an uncorrectable error at pa, and the cycle of heap h unsound, with the GC
event (R336). -/
def State.seUnsound (s : State) (n h pa : Nat) : State :=
  (((s.setReg (oSe n + 0x48) (p64 pa)).setSeStat n 61 true).setHeapStat h 62 true).gcEvent h
/-- An uncorrectable error outside every region: each heap that the engine works for, or the engine's record alone. -/
def State.seLost (s : State) (n phase pa : Nat) : State :=
  match ([0, 1, 2, 3].filter (fun h => s.heapPhase h = phase)) with
  | [] => (s.setReg (oSe n + 0x48) (p64 pa)).setSeStat n 61 true
  | hs => hs.foldl (fun s h => s.seUnsound n h pa) s

/-- The engine absorbs submissions while it may (R313, R335). -/
def absorbN (n : Nat) : Nat → State → State
  | 0, s => s
  | fuel + 1, s =>
    match (s.cluster n).intake with
    | [] => s
    | i :: is =>
      if !s.seOn n ∨ s.seStat n 62 then s
      else
        let s1 := s.updCluster n (fun c => { c with intake := is, absorbed := c.absorbed + i.words.length })
        let s2 := match i.bad with | some pa => s1.seLost n 1 pa | none => s1
        absorbN n fuel (s2.pushMark n i.words)

/-- Every engine absorbs what it may; loads of SATBDONE that waited are asked again. -/
def State.absorbAll (s : State) : State :=
  (s.clusters.filter (fun e => !e.2.intake.isEmpty)).foldl (fun s e =>
    let s1 := absorbN e.1 e.2.intake.length s
    (List.range 8).foldl (fun s n => s.wakeReg (oSe n + 0x30)) s1) s

/-! ### Marking (R323, R331, R336) -/

/-- An uncorrectable error met by engine n at pa in region i of heap h (R336). -/
def State.seError (s : State) (n h i pa : Nat) : State := (s.setRt1 i (setBit (s.rt1 i) 2 true)).seUnsound n h pa

/-- What an engine of cluster n reads is the confirmed contents (R338, R489, R494), supplied by the cache that holds them dirty
(R392). -/
def State.engSees (s : State) (n pa len : Nat) : State :=
  let within (l : Nat) : Bool := decide (64 * l < pa + len) && decide (pa < 64 * l + 64)
  let s1 := (s.twins.filter (fun e => e.2.undo.any (fun u => within (u.1 / 64)))).foldl (fun s e => s.confirm e.1) s
  ((s1.backing.map (·.1)).filter within).foldl (fun s l => s.cohRead (some n) l) s1

/-- The word offset of an address in its region. -/
def State.wordOff (s : State) (h va : Nat) : Nat := (va - s.heapVbase h) % s.heapS h / 8

/-- The object is marked in the current cycle (R294, R298). -/
def State.marked (s : State) (h va : Nat) : Bool :=
  let i := s.regionIdx h va
  let off := s.wordOff h va
  rtMcyc (s.rt1 i) = s.heapCycle h && (s.byte (rtSide (s.rt0 i) + off / 8)).getLsbD (off % 8)

/-- The object collected by this cycle: its region is of generation 0 to GENMAX and it lies below TAMS (R323, R326). -/
def State.collected (s : State) (h va : Nat) : Bool :=
  let i := s.regionIdx h va
  decide (rtGen (s.rt0 i) ≤ s.heapGenmax h) && decide (s.wordOff h va < rtTams (s.rt1 i))

/-- The heap address that a word of an object stands for now: FWD words are followed (R323, R331). -/
def State.follow (s : State) : Nat → Nat → Nat
  | 0, va => va
  | fuel + 1, va =>
    match s.heapAt (fun _ => true) va with
    | none => va
    | some h =>
      let w := s.word (s.heapPhys h va)
      if rtState (s.rt0 (s.regionIdx h va)) = rgEvac ∧ w.tag = Tag.fwd then s.follow fuel w.pay.toNat else va

/-- Words of the object at physical address pa: 1 + LEN, or 2 for a cons (R81). -/
def State.objSize (s : State) (pa : Nat) : Nat :=
  let w := s.word pa
  if w.tag = Tag.hdr then 1 + hdrLen w.pay else 2

/-- Word indices that scanning visits (R78, R323): a cons, a SCAN body, the literals of a CODE object. -/
def State.scanSlots (s : State) (pa : Nat) : List Nat :=
  let w := s.word pa
  if w.tag ≠ Tag.hdr then [0, 1]
  else if hdrFmt w.pay = fmtScan then List.range' 1 (hdrLen w.pay)
  else if hdrFmt w.pay = fmtCode then
    let k := (s.word (pa + 8)).pay.toNat
    List.range' (k + 2) (hdrLen w.pay - (k + 1))
  else []

/-- Engine n meets the slot at physical address pa while it scans (R323, R331). -/
def State.scanSlot (s : State) (n pa : Nat) : State :=
  let w := s.word pa
  match s.heapPtr (fun _ => true) w with
  | none => s
  | some _ =>
    let q := s.follow 64 w.pay.toNat
    let w1 : Word := ⟨w.tag, p64 q⟩
    let s1 := if q = w.pay.toNat then s else s.gcWrite pa w1
    if w.tag = Tag.weak then s1.pushWeak n pa else s1.pushMark n [w1]

/-- A stale bitmap is cleared at the first mark in its region (R323). -/
def State.freshBitmap (s : State) (h i : Nat) : State :=
  let w := s.rt1 i
  if rtMcyc w = s.heapCycle h then s
  else
    let s1 := s.clearRange (rtSide (s.rt0 i)) (s.heapS h / 64)
    s1.setRt1 i (setFld (setFld (setFld w 63 40 0) 3 3 0) 1 0 (s.heapCycle h))

/-- A byte written by an engine: its word becomes RAW (R89); nothing is written to a line it cannot have (R404). -/
def State.gcByte (s : State) (pa : Nat) (b : BitVec 8) : State :=
  if s.inDram pa 1 && !s.unitBarred (pa / 64) then s.engPutBytes pa [b] else s

/-- Engine n marks and scans the object at va of heap h (R323). -/
def State.markObject (s : State) (n h va : Nat) : State :=
  let i := s.regionIdx h va
  let off := s.wordOff h va
  let pa := s.heapPhys h va
  let size := s.objSize pa
  let s1 := s.freshBitmap h i
  let bp := rtSide (s1.rt0 i) + off / 8
  let s2 := s1.gcByte bp (s1.byte bp ||| BitVec.ofNat 8 (2 ^ (off % 8)))
  let w := s2.rt1 i
  let w1 := setFld w 63 40 (rtLive w + size)
  let s3 := s2.setRt1 i (if size > fld (s.heapPol h) 19 10 then setBit w1 3 true else w1)
  let s4 := (s3.scanSlots pa).foldl (fun s j => s.scanSlot n (pa + 8 * j)) s3
  s4.count (oSe n + 0x50)

/-- The engine takes entries and cards: in service, its spill area not full; PAUSE stops the copying walk only (R335, R351). -/
def State.seWalks (s : State) (n : Nat) : Bool := s.seActs n && !s.seStat n 62

/-- Engine n takes the oldest entry of its mark queue (R323); `e` is what its reads of the target meet (R93, R336, R404). -/
def State.markEntry (s : State) (n : Nat) (e : Ecc) : State :=
  if !s.seWalks n then s
  else match (s.cluster n).markQ with
  | [] => s
  | x :: xs =>
    let s1 := s.updCluster n (fun c => { c with markQ := xs })
    if x.tag = Tag.raw then (if s.markingHeap.isSome then s1.pushWeak n (8 * fld x.pay 35 3) else s1)
    else
      let va := s1.follow 64 x.pay.toNat
      match s1.heapAt (fun _ => true) va with
      | none => s1
      | some h =>
        let pa := s1.heapPhys h va
        let size := s1.objSize pa
        if s1.heapPhase h ≠ 1 ∨ !s1.collected h va then s1
        else if e = .bad then s1.seError n h (s1.regionIdx h va) pa
        else match s1.badIn pa (8 * size) with
          | some a => s1.seError n h (s1.regionIdx h va) a
          | none =>
            if s1.marked h va then s1 else (((s1.engSees n pa (8 * size)).eccSeen (0x48 + n) pa e).markObject n h va)

/-- The word that a scanned slot holds once a forwarded target is replaced (R331). -/
def State.forwardedWord (s : State) (w : Word) : Word :=
  if (s.heapPtr (fun _ => true) w).isSome then ⟨w.tag, p64 (s.follow 64 w.pay.toNat)⟩ else w

/-- The GC block gives engine n the next card that has not been given out (R324, R334). -/
def State.nextCard (s : State) (n h : Nat) : State :=
  match (s.heapSt h).cards with
  | [] => s
  | c :: cs => (s.setHeapSt h { s.heapSt h with cards := cs }).updCluster n (fun k => { k with cardQ := k.cardQ ++ [c] })

/-- Engine n cleans its next dirty card and scans its words, replacing those that point to forwarded objects (R324, R331); an
uncorrectable error leaves the card dirty (R336). -/
def State.cardScan (s : State) (n : Nat) (e : Ecc) : State :=
  if !s.seWalks n then s
  else match (s.cluster n).cardQ with
  | [] => s
  | (i, card) :: cs =>
    let s0 := s.updCluster n (fun c => { c with cardQ := cs })
    match s0.heapOfIdx i with
    | none => s0
    | some h =>
      let s1 := s0.nextCard n h
      let cp := rtSide (s1.rt0 i) + s1.heapS h / 64 + card
      let base := s1.heapPhys h (s1.regionBase h i) + 512 * card
      if e = .bad then s1.seError n h i base
      else match s1.badIn base 512 with
      | some a => s1.seError n h i a
      | none =>
        let s2 := ((s1.engSees n base 512).eccSeen (0x48 + n) base e).gcByte cp 0
        let ws := (s2.words base 64).map s2.forwardedWord
        let s3 := (List.range 64).foldl (fun s j =>
          if ws.getD j Word.nil = s.word (base + 8 * j) then s else s.gcWrite (base + 8 * j) (ws.getD j Word.nil)) s2
        let ptrs := ws.filter (fun w => (s1.heapPtr (fun _ => true) w).isSome)
        let genOf (w : Word) : Nat := match s1.heapPtr (fun _ => true) w with
          | some g => rtGen (s1.rt0 (s1.regionIdx g w.pay.toNat))
          | none => 3
        let s4 := s3.pushMark n (ptrs.filter (fun w => decide (genOf w ≤ s1.heapGenmax h)))
        if ptrs.any (fun w => decide (genOf w < rtGen (s1.rt0 i))) then s4.gcByte cp 1 else s4

/-! ### The end of MARK, and WEAK (R319, R325 to R327, R330) -/

/-- Every powered core has switched (R319): TAMS is recorded, the dirty cards of a minor cycle are given out (R324), and
ACTIVE is set. -/
def State.recordTams (s : State) (h i : Nat) : State :=
  let st := rtState (s.rt0 i)
  if (st ≠ rgNormal ∧ st ≠ rgPinned) ∨ (s.heapSt h).young.contains i then s
  else
    let base := s.regionBase h i
    let live := (allTwins.flatMap (fun t => s.heldOf t)).filter (fun x => (s.ctx x).started)
    let offs := (live.map (fun x => ((s.ctx x).sp Sr.cbase).toNat)).filter (fun a => decide (base ≤ a) && decide (a < base + s.heapS h))
    let tams := if st = rgPinned then s.regionWords h else offs.foldl (fun m a => min m ((a - base) / 8)) (s.regionWords h)
    s.setRt1 i (setFld (s.rt1 i) 39 16 tams)

def State.dirtyCards (s : State) (h i : Nat) : List (Nat × Nat) :=
  let base := rtSide (s.rt0 i) + s.heapS h / 64
  if rtState (s.rt0 i) = rgFree ∨ rtGen (s.rt0 i) ≤ s.heapGenmax h then []
  else (s.mem.filter (fun e => decide (base ≤ e.1) && decide (e.1 < base + s.heapS h / 512))).map (fun e => (i, e.1 - base))

def State.poweredClusters (s : State) : List Nat := (List.range 8).filter s.clOn

def State.markActive (s : State) (h : Nat) : State :=
  if s.heapPhase h ≠ 1 ∨ bit (s.heapCtl h) 31 then s
  else
    let s1 := (s.regionsOf h).foldl (fun s i => s.recordTams h i) (s.setSatb h true)
    let cards := (s1.regionsOf h).flatMap (fun i => s1.dirtyCards h i)
    let cls := s1.poweredClusters
    let now := min cards.length (256 * cls.length)
    let s2 := (List.range now).foldl (fun s j =>
      s.updCluster (cls.getD (j % cls.length) 0) (fun c => { c with cardQ := c.cardQ ++ [cards.getD j (0, 0)] }))
      (s1.setHeapSt h { s1.heapSt h with cards := cards.drop now })
    s2.setRf (oHeap h + 0x20) 31 31 1

/-- MARK ends (R325): regions evacuated before it become free unless the cycle is unsound (R330), and WEAK follows. -/
def State.markEnds (s : State) (h : Nat) : State :=
  let hs := s.heapSt h
  let still := hs.atMark.filter (fun i => rtState (s.rt0 i) = rgEvac)
  let s1 := s.setHeapSt h { hs with passed := (hs.passed ++ still).eraseDups, atMark := [], young := [] }
  let s2 := if s.heapStat h 62 then s1 else still.foldl (fun s i => s.setRegion h i (plainRegion (s.rt0 i) rgFree (rtGen (s.rt0 i)))) s1
  if s2.heapAuto h then s2.setPhase h 2 else s2.setHeapStat h 63 true

/-- The lowest region that engine n still walks. -/
def State.walking (s : State) (n : Nat) : Option (Nat × Nat) :=
  ([0, 1, 2, 3].flatMap (fun h => if s.heapEn h then (s.regionsOf h).map (fun i => (h, i)) else [])).find? (fun e =>
    let w := s.rt0 e.2
    rtState w = rgEvac && rtOwner w = n && !rtDone w)

/-- Engine n has a walk to go on with; PAUSE holds it (R328, R351). -/
def State.seWalking (s : State) (n : Nat) : Bool := (s.walking n).isSome

/-- Every queue is empty and every engine idle (R325, R335): no copying in progress, no spill area full. -/
def State.enginesIdle (s : State) : Bool :=
  s.clusters.all (fun e => !s.clOn e.1 ||
    (e.2.markQ.isEmpty && e.2.intake.isEmpty && e.2.cardQ.isEmpty && e.2.copyQ.isEmpty && !s.seStat e.1 62 && !s.seWalking e.1))

/-- A context may submit its SATB entries now (R325, R333). -/
def Ctx.submits (c : Ctx) : Bool := !c.tb && (c.loads.isEmpty || c.run ≠ .run)

/-- A termination round for heap h (R325): every context that can submits; MARK ends when everything was empty. -/
def State.termRound (s : State) (h : Nat) : State :=
  let c := s.heapCtl h
  if s.heapPhase h ≠ 1 ∨ !bit c 31 ∨ !bit c 30 ∨ s.heapStat h 63 then s
  else
    let xs := (allTwins.flatMap (fun t => s.heldOf t)).filter (fun x => (s.ctx x).started)
    let idle := s.enginesIdle
    let quiet (x : Nat) : Bool := (s.ctx x).submits && decide ((s.ctx x).sp Sr.sqt = (s.ctx x).sp Sr.sqb)
    if idle ∧ xs.all quiet then s.markEnds h
    else
      (xs.filter (fun x => (s.ctx x).submits && decide ((s.ctx x).sp Sr.sqt ≠ (s.ctx x).sp Sr.sqb))).foldl (fun s x =>
        let s1 := if s.isTight x then s.confirm (twinOf x) else s
        (s1.submitSatb x).updCtx x (fun c => c.setSp Sr.sqt (c.sp Sr.sqb))) s

/-- The heap a recorded slot still points into weakly. -/
def State.weakSlotHeap (s : State) (pa : Nat) : Option Nat :=
  let w := s.word pa
  if w.tag = Tag.weak then s.heapPtr (fun _ => true) w else none

/-- The heap and region whose memory holds a physical address. -/
def State.regionOfPhys (s : State) (pa : Nat) : Option (Nat × Nat) :=
  (firstN 4 0 (fun h => s.heapEn h && decide (s.heapPbase h ≤ pa) && decide (pa < s.heapPbase h + s.heapRegions h * s.heapS h))).map
    (fun h => (h, s.heapRidx h + (pa - s.heapPbase h) / s.heapS h))

/-- Engine n takes the next slot of its weak list whose heap does not mark (R326); a slot it cannot read stays as it is (R336,
R404). -/
def State.weakClear (s : State) (n : Nat) (e : Ecc) : State :=
  if !s.seActs n then s
  else
    let ready (pa : Nat) : Bool := match s.weakSlotHeap pa with | some h => s.heapPhase h ≠ 1 | none => true
    match (s.cluster n).weakL.find? ready with
    | none => s
    | some pa =>
      let s0 := s.updCluster n (fun c => { c with weakL := c.weakL.erase pa })
      if e = .bad ∨ (s0.badIn pa 8).isSome then
        (match s0.regionOfPhys pa with
        | some (h, i) => s0.seError n h i pa
        | none => s0.seLost n 2 pa)
      else
        let s1 := (s0.engSees n pa 8).eccSeen (0x48 + n) pa e
        match s1.weakSlotHeap pa with
        | none => s1
        | some h =>
          let va := (s1.word pa).pay.toNat
          if s1.heapPhase h = 2 ∧ s1.collected h va ∧ !s1.marked h va then s1.gcWrite pa Word.nil else s1

/-- Regions that R327 selects, in order. -/
def State.selected (s : State) (h : Nat) : List Nat :=
  let pol := s.heapPol h
  let ok (i : Nat) : Bool :=
    let w1 := s.rt1 i
    rtState (s.rt0 i) = rgNormal && decide (rtGen (s.rt0 i) ≤ s.heapGenmax h) && rtTams w1 = s.regionWords h
      && rtMcyc w1 = s.heapCycle h && !rtBig w1 && !rtUe w1
      && decide (rtLive w1 * 100 < min 100 (fld pol 55 48) * s.regionWords h)
  if s.heapStat h 62 then []
  else (((s.regionsOf h).filter ok).insertionSort (fun a b => rtLive (s.rt1 a) ≤ rtLive (s.rt1 b))).take (fld pol 47 32)

/-- The end of WEAK with AUTO = 1 (R327): regions are selected, with ECOPY from the policy and owners in rotation, and EVAC
begins. -/
def State.evacSelected (s0 : State) (h : Nat) : State :=
  let s := s0.landStores
  let sel := s.selected h
  let cls := s.poweredClusters
  let s1 := (List.range sel.length).foldl (fun s j =>
    let i := sel.getD j 0
    let own := cls.getD (j % cls.length) 0
    let w := plainRegion (s.rt0 i) rgEvac (rtGen (s.rt0 i)) ||| atFld 59 59 (fld (s.heapPol h) 0 0) ||| atFld 57 54 own
    (s.setRegion h i w).updCluster own (fun c => { c with walk := Tbl.erase c.walk i })) s
  s1.startEvac h

/-- WEAK ends when no weak list holds a slot of the heap (R318, R327). -/
def State.weakEnd (s : State) (h : Nat) : State :=
  let open_ := s.clusters.any (fun e => s.clOn e.1 && e.2.weakL.any (fun pa => s.weakSlotHeap pa = some h))
  if s.heapPhase h ≠ 2 ∨ open_ ∨ s.heapStat h 63 then s
  else if s.heapAuto h then s.evacSelected h
  else s.setHeapStat h 63 true

/-- A phase whose work is done when AUTO becomes 1 gives way to the next by itself (R318). -/
def State.autoAdvance (s : State) (h : Nat) : State :=
  if !s.heapAuto h ∨ !s.heapStat h 63 then s
  else
    let p := s.heapPhase h
    if p = 1 then (s.setPhase h 2).setHeapStat h 63 false
    else if p = 2 then s.evacSelected h
    else if p = 3 then s.cycleEnds h
    else s

/-- A write of GC_HEAPh_CTL (R346). -/
def State.heapCtlWrite (s : State) (h : Nat) (v : Pay) : State :=
  let was := s.heapEn h
  let c := s.heapCtl h
  let c1 := setFld (setFld (setFld c 30 30 (fld v 30 30)) 15 14 (fld v 15 14)) 8 8 (fld v 8 8)
  let s1 := s.setReg (oHeap h + 0x20) c1
  let s2 := if bit v 3 ∧ !was then s1.enableHeap h else s1.setRf (oHeap h + 0x20) 3 3 (fld v 3 3)
  (s2.writePhase h (fld v 2 0)).autoAdvance h

/-! ### Copying (R328, R329, R332) -/

/-- The copy requests for an object are answered: with the copy's address, or with failure. -/
def State.answerCopies (s : State) (n obj : Nat) (copy : Option Nat) : State :=
  let qs := (s.cluster n).copyQ.filter (fun q => q.obj = obj)
  let s1 := s.updCluster n (fun c => { c with copyQ := c.copyQ.filter (fun q => q.obj ≠ obj) })
  qs.foldl (fun s q =>
    match q.ev with
    | some m =>
      let ans : Pay := match copy with | some a => setBit (p64 a) 63 true | none => 0
      let s2 := s.updCluster m (fun c =>
        if Tbl.look c.evreq q.x = some (.running obj) then { c with evreq := Tbl.insert c.evreq q.x (.ended ans) } else c)
      s2.wakeReg (oSe m + 0x40)
    | none =>
      if (s.ctx q.x).run = .copy obj then
        s.updCtx q.x (fun c => { c with run := .run, grants := if copy.isSome then c.grants else c.grants ++ [.noCopy] })
      else s) s1

/-- Room for `size` words of generation g in engine n's to-region of that generation (R329). One of another heap, or with too
little room, is left first. -/
def State.reserve (s : State) (n h g size : Nat) : Option (Nat × Nat × State) :=
  let words := s.regionWords h
  let take (s : State) : Option (Nat × Nat × State) :=
    (s.takeRegion h g).map (fun r => (r.1, 0, r.2.updCluster n (fun c => { c with toReg := Tbl.insert c.toReg g ⟨r.1, size⟩ })))
  if size > words then none
  else
    match Tbl.look (s.cluster n).toReg g with
    | none => take s
    | some t =>
      if s.heapOfIdx t.ridx = some h ∧ t.off + size ≤ words then
        some (t.ridx, t.off, s.updCluster n (fun c => { c with toReg := Tbl.insert c.toReg g ⟨t.ridx, t.off + size⟩ }))
      else take (s.leaveTo n g)

/-- R308's card for a slot of generation gs at heap address va that holds w. -/
def State.cardFor (s : State) (h va : Nat) (w : Word) : State :=
  let rt := s.rt0 (s.regionIdx h va)
  match s.heapPtr (fun _ => true) w with
  | some g => if rtGen (s.rt0 (s.regionIdx g w.pay.toNat)) < rtGen rt then s.gcByte (s.cardAddr h va rt) 1 else s
  | none => s

/-- Copy the object at va of heap h out of its region (R328 steps 2 to 5): the copy's address, or none. -/
def State.copyObject (s : State) (n h va : Nat) : Option (Nat × State) :=
  let pa := s.heapPhys h va
  let first := s.word pa
  let size := s.objSize pa
  let g := rtGen (s.rt0 (s.regionIdx h va))
  let age := min 3 (fld first.pay 41 40 + 1)
  let promote := g < 3 && (first.tag ≠ Tag.hdr || fld (s.heapPol h) 9 8 ≤ age)
  let first1 : Word := if first.tag = Tag.hdr then ⟨first.tag, setFld first.pay 41 40 (if promote then 0 else age)⟩ else first
  match s.reserve n h (if promote then g + 1 else g) size with
  | none => none
  | some (i, off, s1) =>
    let dst := s1.regionBase h i + 8 * off
    let tp := s1.heapPhys h dst
    let s2 := (List.range size).foldl (fun s j =>
      let w := if j = 0 then first1 else s.word (pa + 8 * j)
      (s.gcWrite (tp + 8 * j) w).cardFor h (dst + 8 * j) w) s1
    let s3 := s2.gcWrite pa ⟨Tag.fwd, p64 dst⟩
    some (dst, s3.setReg (oSe n + 0x58) (s3.reg (oSe n + 0x58) + p64 size))

/-- The offsets of marked objects of region i from word `pos` up that are not forwarded (R328). -/
def State.toCopy (s : State) (h i pos : Nat) : List Nat :=
  let side := rtSide (s.rt0 i)
  if rtMcyc (s.rt1 i) ≠ s.heapCycle h then []
  else
    let bytes := s.mem.filter (fun e => decide (side ≤ e.1) && decide (e.1 < side + s.heapS h / 64))
    let offs := bytes.flatMap (fun e => ((List.range 8).filter (fun b => e.2.getLsbD b)).map (fun b => 8 * (e.1 - side) + b))
    offs.filter (fun o => decide (pos ≤ o) && (s.word (s.heapPhys h (s.regionBase h i) + 8 * o)).tag ≠ Tag.fwd)

/-- The walk of region i has passed every marked object: DONE (R328). -/
def State.walkDone (s : State) (n h i : Nat) : State :=
  if (s.toCopy h i (Tbl.get (fun _ => 0) (s.cluster n).walk i)).isEmpty then
    ((s.setRt0 i (setBit (s.rt0 i) 58 true)).updCluster n (fun c => { c with walk := Tbl.erase c.walk i })).checkEvac h
  else s

/-- A requested object that engine n owns and may copy: it lies in an evacuating region of its own, marked (R315, R328). -/
def State.ownedLive (s : State) (n h va : Nat) : Bool :=
  let w := s.rt0 (s.regionIdx h va)
  rtState w = rgEvac && rtOwner w = n && s.marked h va

/-- Engine n serves its oldest copy request (R328, R332). -/
def State.serveCopy (s : State) (n obj : Nat) (e : Ecc) : State :=
  match s.heapAt (fun _ => true) obj with
  | none => s.answerCopies n obj none
  | some h =>
    let pa := s.heapPhys h obj
    let i := s.regionIdx h obj
    let w := s.word pa
    if rtState (s.rt0 i) = rgEvac ∧ w.tag = Tag.fwd then s.answerCopies n obj (some w.pay.toNat)
    else if !s.ownedLive n h obj then s.answerCopies n obj none
    else if e = .bad ∨ (s.badIn pa (8 * s.objSize pa)).isSome then (s.seError n h i pa).answerCopies n obj none
    else match ((s.engSees n pa (8 * s.objSize pa)).eccSeen (0x48 + n) pa e).copyObject n h obj with
      | none => (s.raiseHeap h 59).answerCopies n obj none
      | some (dst, s1) => s1.answerCopies n obj (some dst)

/-- One object of the walk (R328); with no to-region it stays (R348 NOFREE), with an uncorrectable error it is
abandoned (R336). -/
def State.walkStep (s : State) (n h i : Nat) (e : Ecc) : State :=
  match s.toCopy h i (Tbl.get (fun _ => 0) (s.cluster n).walk i) with
  | [] => s.walkDone n h i
  | o :: _ =>
    let va := s.regionBase h i + 8 * o
    let pass (s : State) : State := s.updCluster n (fun c => { c with walk := Tbl.insert c.walk i (o + 1) })
    let pa := s.heapPhys h va
    if e = .bad ∨ (s.badIn pa (8 * s.objSize pa)).isSome then ((pass (s.seError n h i pa)).answerCopies n va none).walkDone n h i
    else match ((s.engSees n pa (8 * s.objSize pa)).eccSeen (0x48 + n) pa e).copyObject n h va with
      | none => s.raiseHeap h 59
      | some (dst, s1) => ((pass s1).answerCopies n va (some dst)).walkDone n h i

/-- A change to evacuating has not propagated while an access that read the Region Table before it is in flight (R328, R333). -/
def State.inFlight (s : State) : Bool :=
  s.ctxs.any (fun e => e.2.inflight && e.2.obs.any (fun o => match o with | .word _ => true | _ => false))

/-- Engine n copies one object: a copy request goes before the walk; PAUSE stops the walk only (R328, R351). -/
def State.engineCopy (s : State) (n : Nat) (e : Ecc) : State :=
  if !s.seActs n ∨ s.inFlight then s
  else match (s.cluster n).copyQ with
  | q :: _ => s.serveCopy n q.obj e
  | [] =>
    if bit (s.reg (oSe n)) 1 then s
    else match s.walking n with
      | some (h, i) => s.walkStep n h i e
      | none => s

/-! ### Registers (R341 to R352) -/

/-- A load from the GC page. -/
def State.gcLoad (s : State) (o : Nat) : Pay × State :=
  if 0x100 ≤ o ∧ o % 0x40 = 0x38 then s.allocLoad ((o - 0x100) / 0x40) else (s.reg (oGc + o), s)

/-- An accepted write to the GC page. -/
def State.gcStore (s : State) (o : Nat) (v : Pay) : State :=
  if o = 0x18 then s.rset v
  else if 0x100 ≤ o then
    let h := (o - 0x100) / 0x40
    let r := (o - 0x100) % 0x40
    if r < 0x20 then s.heapCfgWrite h r v
    else if r = 0x20 then s.heapCtlWrite h v
    else s.plainWrite (oGc + o) v
  else s.plainWrite (oGc + o) v

/-- CLn_SE_EVREQ (R316, R350): the request goes to the owner engine; with no engine owner it ends without a copy. -/
def State.evreq (s : State) (n x obj : Nat) : State :=
  let owner : Option Nat := match s.heapAt (fun _ => true) obj with
    | some h =>
      let w := s.rt0 (s.regionIdx h obj)
      if rtState w = rgEvac ∧ rtOwner w < 8 then some (rtOwner w) else none
    | none => none
  match owner with
  | none => (s.updCluster n (fun c => { c with evreq := Tbl.insert c.evreq x (.ended 0) })).wakeReg (oSe n + 0x40)
  | some m =>
    (s.updCluster n (fun c => { c with evreq := Tbl.insert c.evreq x (.running obj) })).updCluster m (fun c =>
      { c with copyQ := c.copyQ ++ [⟨obj, x, some n⟩] })

/-- A write of CLn_SE_SPLIM (R335, R350): only raising it while EN = 1. -/
def State.splimWrite (s : State) (n : Nat) (v : Pay) : State :=
  if s.rf (oSe n) 0 0 = 1 ∧ fld v 35 12 ≤ s.rf (oSe n + 0x18) 35 12 then s.setSeStat n 60 true
  else
    let s1 := s.plainWrite (oSe n + 0x18) v
    if (s1.cluster n).spill ≤ s1.spillRoom n then (s1.setSeStat n 62 false).absorbAll else s1

/-- An accepted write to an engine register by context x. -/
def State.seStore (s : State) (n x o : Nat) (v : Pay) : State :=
  if o = 0x4018 then s.splimWrite n v
  else if o = 0x4020 then
    (s.updCluster n (fun c => { c with intake := c.intake ++ [⟨x, [⟨Tag.vec, v &&& maskFld 47 3⟩], none⟩] })).absorbAll
  else if o = 0x4028 then
    let base := fld v 35 3 * 8
    let k := fld v 63 40
    (if s.inDram base (8 * k) then s.intake n x base k else s).absorbAll
  else if o = 0x4038 then s.evreq n x (fld v 47 3 * 8)
  else if o = 0x4000 then (s.plainWrite (oCl n + o) v).absorbAll
  else s.plainWrite (oCl n + o) v

/-- CLn_SE_STAT as it reads (R352). -/
def State.seStatReg (s : State) (n : Nat) : Pay :=
  let c := s.cluster n
  let busy := !c.markQ.isEmpty || !c.weakL.isEmpty || !c.copyQ.isEmpty || !c.cardQ.isEmpty || !c.intake.isEmpty || (s.walking n).isSome
  setFld (setFld (setBit (s.reg (oSe n + 8)) 63 busy) 47 32 (min 64 c.copyQ.length)) 31 0 c.spill

/-- A submission of context x has not been absorbed by its engine, whichever that is, or is still on its way there (R313). -/
def State.submitting (s : State) (x : Nat) : Bool :=
  s.clusters.any (fun e => e.2.intake.any (fun i => i.x = x))
    || s.txns.any (fun t => t.kind = .store && t.x = x && !t.arrived
      && (List.range 8).any (fun n => t.pa = devBase + oSe n + 0x20 || t.pa = devBase + oSe n + 0x28))

/-- A load of an engine register by context x: none while SATBDONE or EVDONE waits (R313, R316). -/
def State.seLoad (s : State) (n x o : Nat) : Option Pay :=
  if o = 0x4008 then some (s.seStatReg n)
  else if o = 0x4030 then
    (if s.submitting x then none else some (p64 (s.cluster n).absorbed))
  else if o = 0x4040 then
    match Tbl.get (fun _ => .idle) (s.cluster n).evreq x with
    | .running _ => none
    | .ended a => some a
    | .idle => some 0
  else some (s.reg (oCl n + o))

end Sys2Proof.Machine
end

