-- ==== Sys2Proof/Machine/L2Blk.lean ====
section
/-!
DEFINITION. The L2 registers of a CLn page (R415, R416, R420, R421, R430 to R433): locking, lock loads, and the sweep
that disables an L2.
-/
namespace Sys2Proof.Machine

/-- Contexts that waited for a sweep or a slot load try again. -/
def State.wakeHold (s : State) : State :=
  (s.ctxs.filter (fun e => e.2.run = .hold)).foldl (fun s e => s.updCtx e.1 (fun c => { c with run := .run })) s

/-- Every L1I line of core k invalidated; those in locked ways stay invalid-locked (R419). -/
def State.dropL1i (s : State) (k : Nat) : State :=
  s.updCore k (fun c => (c.l1i.map (·.1)).foldl (fun c l => c.l1iDrop l) c)

def State.l2Stat (s : State) (n b : Nat) : Bool := bit (s.reg (oCl n + 0x1008)) b
def State.setL2Stat (s : State) (n b : Nat) (v : Bool) : State := s.setReg (oCl n + 0x1008) (setBit (s.reg (oCl n + 0x1008)) b v)

/-- A write of CLn_L2_CTL (R420, R431): EN from 1 to 0 starts the sweep, which closes the windows of the cluster's twins (R488). -/
def State.l2CtlWrite (s : State) (n : Nat) (v : Pay) : State :=
  let was := s.l2En n
  let s1 := s.plainWrite (oCl n + 0x1000) v
  if was ∧ !bit v 0 then (forN 4 (4 * n) (fun t s => if (s.twin t).mode = .tight then s.confirm t else s) s1).setL2Stat n 63 true else s1

/-- The sweep ends (R420): every L1 of the cluster is empty, every line but poisoned ones has left the L2, and what waited
goes on, uncached. -/
def State.l2SweepEnd (s : State) (n : Nat) : State :=
  if !s.l2Stat n 63 then s
  else
    let ks := (s.coresOf n)
    let s1 := ks.foldl (fun s k => (s.emptyL1d k true).dropL1i k) s
    let lines := ((s1.cluster n).l2.filter (fun e => !e.2.poison)).map (·.1)
    let s2 := lines.foldl (fun s l => s.l2Drop n l true) s1
    ((s2.setL2Stat n 63 false).wakeHold).wakeReg (oCl n + 0x1000)

/-- A write of CLn_L2_LOCK (R415): invalid-locked lines of a released way are free again. -/
def State.l2LockWrite (s : State) (n : Nat) (v : Pay) : State :=
  (s.plainWrite (oCl n + 0x1010) v).updCluster n (fun c => { c with l2Lk := c.l2Lk.filter (fun e => bit v e.2) })

/-- The range of a lock load is mapped and normal (R416 step 1). -/
def State.lockable (s : State) (line k : Nat) : Bool :=
  (List.range (k / 64 + 2)).all (fun i =>
    let pa := if i = k / 64 + 1 then 64 * (line + k - 1) else 64 * (line + min (64 * i) (k - 1))
    s.region pa ≠ .unmapped && !(s.prt pa).se)

/-- A write of CLn_L2_LKCTL (R416, R433). -/
def State.lockCtlWrite (s : State) (n : Nat) (v : Pay) : State :=
  let s1 := s.plainWrite (oCl n + 0x1020) v
  if !bit v 63 then s1
  else
    let line := s.rf (oCl n + 0x1018) 47 6
    let k := fld v 11 0 + 1
    let w := fld v 51 48
    if s.l2Stat n 62 ∨ !s.lockable line k then s1.setL2Stat n 61 true
    else
      let s2 := s1.setReg (oCl n + 0x1010) (setBit (s1.reg (oCl n + 0x1010)) w true)
      (s2.setL2Stat n 62 true).updCluster n (fun c => { c with lkJob := some (line, k, w) })

/-- One line of a lock load (R416 step 3): nothing is loaded while the L2 is off, or for a Keep SRAM line. A poisoned line, here
or elsewhere, stays where it is, and so does a poisoned occupant of the way (R404; assumption 93). A line that comes from memory
is a fill (R398). -/
def State.lockLine (s : State) (n w line : Nat) : State :=
  if isKeepLine line ∨ !s.l2En n ∨ s.poisoned line ∨ (s.cluster n).badWay (line % 4096) w then s
  else
    let s1 := s.cohRead (some n) line
    let moved := s1.l2At n line
    let s2 :=
      match occupant 4096 (line % 4096) w (s1.cluster n).lineWays with
      | some old => if old = line then s1 else s1.l2Drop n old true
      | none => s1
    let m : L2Line := match moved with | some m => { m with way := w } | none => ⟨w, false, false⟩
    s2.updCluster n (fun c =>
      { c with
        l2 := Tbl.insert c.l2 line m
        l2Lk := c.l2Lk.filter (fun e => e.1 ≠ line && !(e.1 % 4096 = line % 4096 && e.2 = w))
        lfsr := if moved.isSome then c.lfsr else lfsr16 c.lfsr })

/-- The lock load completes (R416). -/
def State.lockLoadEnd (s : State) (n : Nat) : State :=
  match (s.cluster n).lkJob with
  | none => s
  | some (line, k, w) =>
    let s1 := forN k line (fun l s => (s.confirmLine l).lockLine n w l) s
    (s1.updCluster n (fun c => { c with lkJob := none })).setL2Stat n 62 false

/-- An accepted write to an L2 register. -/
def State.l2Store (s : State) (n o : Nat) (v : Pay) : State :=
  if o = 0x1000 then s.l2CtlWrite n v
  else if o = 0x1010 then s.l2LockWrite n v
  else if o = 0x1020 then s.lockCtlWrite n v
  else s.plainWrite (oCl n + o) v

/-- A load of an L2 register: none while a load of CLn_L2_CTL waits for the sweep (R420). -/
def State.l2Load (s : State) (n o : Nat) : Option Pay :=
  if o = 0x1000 then (if s.l2Stat n 63 then none else some (s.reg (oCl n + o)))
  else if o = 0x1008 then some (setBit (s.reg (oCl n + o)) 59 ((s.cluster n).l2.any (fun e => e.2.poison)))
  else some (s.reg (oCl n + o))

end Sys2Proof.Machine
end

