-- ==== Sys2Proof/Machine/Plant.lean ====
section
/-!
DEFINITION. The plant interfaces (R725 to R762): Ethernet ports, PCIe controllers, CAN channels, UARTs, I²C, QSPI, the
EVT pins at the Event Router, and the Pulse Unit.
-/
namespace Sys2Proof.Machine

/-! ### Ethernet (R726 to R728, R731, R751 to R755) -/

/-- Big-endian number of n bytes at an offset. -/
def beAt (bs : List (BitVec 8)) (off n : Nat) : Nat := leNat ((bs.drop off).take n).reverse

def oPort (p : Nat) : Nat := oEth + 0x100 * (p + 1)

/-- A UDP datagram in a frame (R727): whether it is fragmented, its ports, addresses and payload. -/
structure Datagram where
  frag : Bool
  sport : Nat
  dport : Nat
  src : List (BitVec 8)
  dst : List (BitVec 8)
  data : List (BitVec 8)
  deriving DecidableEq, Repr

/-- The frame carries an IEEE 802.1Q tag. -/
def vlanTagged (bs : List (BitVec 8)) : Bool := beAt bs 12 2 = 0x8100

/-- The UDP part of a frame at a byte offset. -/
def udpPart (bs : List (BitVec 8)) (o : Nat) (frag : Bool) (src dst : List (BitVec 8)) : Datagram :=
  ⟨frag, beAt bs o 2, beAt bs (o + 2) 2, src, dst, (bs.drop (o + 8)).take (beAt bs (o + 4) 2 - 8)⟩

/-- The UDP datagram of a frame, or its first fragment. -/
def datagram (bs : List (BitVec 8)) : Option Datagram :=
  let o := if vlanTagged bs then 18 else 14
  let et := beAt bs (o - 2) 2
  if et = 0x0800 then
    let f := beAt bs (o + 6) 2 % 0x4000
    if beAt bs (o + 9) 1 = 17 ∧ f % 0x2000 = 0 then
      some (udpPart bs (o + 4 * (beAt bs o 1 % 16)) (f ≠ 0) ((bs.drop (o + 12)).take 4) ((bs.drop (o + 16)).take 4))
    else none
  else if et = 0x86DD then
    let src := (bs.drop (o + 8)).take 16
    let dst := (bs.drop (o + 24)).take 16
    if beAt bs (o + 6) 1 = 17 then some (udpPart bs (o + 40) false src dst)
    else if beAt bs (o + 6) 1 = 44 ∧ beAt bs (o + 40) 1 = 17 ∧ beAt bs (o + 42) 2 / 8 = 0 then some (udpPart bs (o + 48) true src dst)
    else none
  else none

/-- The address is one of port p's (R727, R751). -/
def State.isOwnAddr (s : State) (p : Nat) (a : List (BitVec 8)) : Bool :=
  let e := oPort p
  (a.length = 4 && bit (s.reg (e + 0x10)) 63 && beAt a 0 4 = s.rf (e + 0x10) 31 0)
    || (a.length = 16 && bit (s.reg (e + 0x18)) 63 && beAt a 0 8 = (s.reg (e + 0x80)).toNat && beAt a 8 8 = (s.reg (e + 0x88)).toNat)

/-- Bytes written by the IO Hub, where fitted DRAM holds them (R89). -/
def State.ioWrite (s : State) (pa : Nat) (bs : List (BitVec 8)) : State := if s.inDram pa bs.length then s.engPutBytes pa bs else s

/-- A frame enters port p's receive ring (R752, R753); a ring that is off or full drops it before its length counts. -/
def State.ringFrame (s : State) (p : Nat) (bs : List (BitVec 8)) (ts : Option Pay) : State :=
  let e := oPort p
  let r := s.reg (e + 0x20)
  let size := 2 ^ fld r 51 48
  let slot := 2 ^ fld r 59 56
  let head := s.rf (e + 0x68) 11 0
  if !bit r 63 ∨ (head + 1) % size = s.rf (e + 0x68) 43 32 then s.count (e + 0x50)
  else if bs.length + 32 > slot then s.count (e + 0x40)
  else
    let a := fld r 47 11 * 2048 + head * slot
    let w0 := setBit (setBit (p64 bs.length) 62 (vlanTagged bs)) 63 ts.isSome
    let w2 := if vlanTagged bs then p64 (beAt bs 14 2) else 0
    let s1 := (s.ioWrite (a + 32) bs).ioWrite a (wordBytes [w0, ts.getD 0, w2, 0])
    let s2 := s1.setRf (e + 0x68) 11 0 ((head + 1) % size)
    if bit (s.reg e) 62 then s2.assertSource (0x63 + p) else s2

/-- Port p receives a frame (R726, R727): its bytes without the FCS, its timestamp as an IEEE 802.1AS event message, and
whether it finds the receive buffer full. -/
def State.ethFrame (s : State) (p : Nat) (bs : List (BitVec 8)) (ts : Option Pay) (full : Bool) : State :=
  let e := oPort p
  if !bit (s.reg e) 63 ∨ s.sys.inReset ∨ bs.length < 60 then s
  else if bs.length > s.maxLen p then s.count (e + 0x40)
  else if full then s.count (e + 0x50)
  else
    let port := s.rf (oCe + 0x10) 47 32
    match datagram bs with
    | none => s.ringFrame p bs ts
    | some d =>
      if !s.isOwnAddr p d.dst ∨ (d.dport ≠ port ∧ d.dport ≠ (port + 1) % 65536) then s.ringFrame p bs ts
      else if d.frag then s.count (e + 0x48)
      else if d.dport = port then s.udpPacket ⟨BitVec.ofNat 2 p, d.src, BitVec.ofNat 16 d.sport, d.dst⟩ d.data
      else s

/-- A transmit descriptor of port p (R754). -/
def State.txDesc (s : State) (p i : Nat) : Nat := s.rf (oPort p + 0x28) 47 5 * 32 + 32 * i
/-- A descriptor that cannot be sent (R754), one that the IO Hub cannot read among them (R39, assumption 99). -/
def State.txBad (s : State) (p i : Nat) : Bool :=
  let a := s.txDesc p i
  let w0 := (s.word a).pay
  let w1 := (s.word (a + 8)).pay
  let len := fld w1 13 0
  fld w0 63 48 ≠ 0 || fld w1 55 14 ≠ 0 || (s.word (a + 24)).pay ≠ 0 || len < 60
    || s.maxLen p < len || !s.inDram (fld w0 47 0) len || s.region a = .keep

def State.txSize (s : State) (p : Nat) : Nat := 2 ^ s.rf (oPort p + 0x28) 51 48
def State.txHead (s : State) (p : Nat) : Nat := s.rf (oPort p + 0x70) 11 0

/-- The descriptor at HEAD completes: word 2 takes the timestamp when asked for, word 1 its outcome bits, HEAD goes on,
and the source asserts (R751, R754). -/
def State.txDone (s : State) (p : Nat) (err ue : Bool) : State :=
  let h := s.txHead p
  let a := s.txDesc p h
  let w1 := (s.word (a + 8)).pay
  let s1 := if bit w1 62 ∧ !err ∧ !ue then s.ioWrite (a + 16) (leBytes 8 s.time.toNat) else s
  let s2 := s1.ioWrite (a + 8) (leBytes 8 (setBit (setBit (setBit w1 63 true) 61 err) 60 ue).toNat)
  let s3 := s2.setRf (oPort p + 0x70) 11 0 ((h + 1) % s.txSize p)
  if bit (s.reg (oPort p)) 61 then s3.assertSource (0x63 + p) else s3

/-- Bad descriptors at HEAD complete with ERR (R754). -/
def txSkip (p : Nat) : Nat → State → State
  | 0, s => s
  | fuel + 1, s =>
    if s.txHead p ≠ s.rf (oPort p + 0x70) 43 32 ∧ s.txBad p (s.txHead p) then txSkip p fuel (s.txDone p true false) else s

/-- A write of ETH_PpTXIDX (R752, R754): the descriptors up to the new TAIL join their queues. -/
def State.txTail (s : State) (p : Nat) (v : Pay) : State :=
  let n := s.txSize p
  let old := s.rf (oPort p + 0x70) 43 32
  let new := fld v 43 32 % n
  let s1 := s.setRf (oPort p + 0x70) 43 32 new
  if !bit (s.reg (oPort p + 0x28)) 63 then s1
  else
    let s2 := (List.range ((new + n - old) % n)).foldl (fun s j =>
      let i := (old + j) % n
      if s.txBad p i then s
      else s.setEth p ((s.ethPort p).push (fld (s.word (s.txDesc p i + 8)).pay 58 56) ⟨.ring i, []⟩)) s1
    txSkip p n s2

/-- Queue q of port p is open (R728, R755). -/
def State.gateOpen (s : State) (p q : Nat) : Bool :=
  match (s.ethPort p).active with
  | some g => !bit (s.reg (oPort p + 0x30)) 63 || (((g.entries.getD (s.ethPort p).entry (0, 64)).1) / 2 ^ q % 2 = 1)
  | none => true

/-- Port p sends the oldest frame of queue q, or drops it when its read meets an uncorrectable error or a poisoned line
(R404, R728, R731, R754). A descriptor's frame goes only when its descriptor stands at HEAD. -/
def State.txComplete (s : State) (p q : Nat) (ecc : Ecc) : State :=
  let e := s.ethPort p
  if !bit (s.reg (oPort p)) 63 ∨ s.sys.inReset ∨ !s.gateOpen p q ∨ !s.fabricFree 0x40 then s
  else match (Tbl.look e.queues q).getD [] with
  | [] => s
  | f :: fs =>
    let bytes := match f.src with
      | .ring i => s.engBytes (fld (s.word (s.txDesc p i)).pay 47 0) (fld (s.word (s.txDesc p i + 8)).pay 13 0)
      | .eff _ _ _ => f.bytes
    let ue := decide (ecc = .bad) || (match f.src with
      | .ring i => (s.badIn (fld (s.word (s.txDesc p i)).pay 47 0) (fld (s.word (s.txDesc p i + 8)).pay 13 0)).isSome
      | .eff _ _ _ => false)
    let e1 := { e with queues := if fs.isEmpty then Tbl.erase e.queues q else Tbl.insert e.queues q fs, sent := if ue then e.sent else bytes :: e.sent }
    let at' := match f.src with | .ring i => fld (s.word (s.txDesc p i)).pay 47 0 | .eff _ _ _ => 0
    let s1 := ((s.setEth p e1).count (oPort p + (if ue then 0x58 else 0x60))).eccSeen 0x40 at' ecc
    match f.src with
    | .ring i => if i ≠ s.txHead p then s else txSkip p (s.txSize p) (s1.txDone p false ue)
    | .eff n g k => s1.effectDone n g k

/-- Gate lists (R755). -/
def GateList.cycle (g : GateList) : Nat := g.entries.foldl (fun a e => a + e.2) 0

/-- The entry in force `pos` ns into the cycle, and the time left in it. -/
def gateAt : List (Nat × Nat) → Nat → Nat → Nat × Nat
  | [], _, k => (k, 64)
  | e :: es, pos, k => if pos < e.2 then (k, e.2 - pos) else gateAt es (pos - e.2) (k + 1)

/-- Port p switches to its standby list at the present time. -/
def State.switchGates (s : State) (p : Nat) : State :=
  match (s.ethPort p).standby with
  | none => s
  | some g =>
    let at0 := gateAt g.entries ((s.time.toNat - g.base.toNat) % max 1 g.cycle) 0
    let s1 := s.setEth p { s.ethPort p with standby := none, active := some g, entry := at0.1, entryEnd := s.time + p64 at0.2 }
    if bit (s.reg (oPort p)) 60 then s1.assertSource (0x63 + p) else s1

/-- A write of ETH_PpGBASE by source `src`: the list is copied and armed, or refused with ERR, as one that the IO Hub cannot read is
(R39, assumption 99). -/
def State.gbaseWrite (s : State) (src p : Nat) (v : Pay) : State :=
  let s1 := s.plainWrite (oPort p + 0x38) v
  let r := s.reg (oPort p + 0x30)
  let ws := (s.words (fld r 47 3 * 8) (fld r 62 56 + 1)).map (·.pay)
  if s.region (fld r 47 3 * 8) = .keep ∨ ws.any (fun w => fld w 55 32 ≠ 0) then s1.recErr (oPort p + 0x38) src errReject
  else
    let g : GateList := ⟨ws.map (fun w => (fld w 63 56, max 64 (fld w 31 0))), v⟩
    let s2 := s1.setEth p { s.ethPort p with standby := some g }
    if s2.reached? v ∧ (s.ethPort p).active.isNone then s2.switchGates p else s2

/-- The end of the running cycle of port p. -/
def State.cycleEnd (s : State) (p : Nat) : Pay :=
  match (s.ethPort p).active with
  | none => s.time
  | some g => (s.ethPort p).entryEnd + p64 ((g.entries.drop ((s.ethPort p).entry + 1)).foldl (fun a e => a + e.2) 0)

/-- The base time comes, or, when it had passed, the next cycle boundary of the running list (R755). -/
def State.gateSwitch (s : State) (p : Nat) : State :=
  match (s.ethPort p).standby with
  | none => s
  | some g => (if s.reached? g.base then s.timeTo (s.cycleEnd p) else s.timeTo g.base).switchGates p

/-- The interval of the entry in force ends (R755). -/
def State.gateExpiry (s : State) (p : Nat) : State :=
  let e := s.ethPort p
  match e.active with
  | none => s
  | some g =>
    let n := if e.entry + 1 < g.entries.length then e.entry + 1 else 0
    (s.timeTo e.entryEnd).setEth p { e with entry := n, entryEnd := e.entryEnd + p64 ((g.entries.getD n (0, 64)).2) }

/-- A write of a ring register (R752): while EN is 1 only EN is taken; setting EN clears the indices; clearing the transmit
ring's EN takes its frames out of the queues. -/
def State.ethRing (s : State) (p r idx : Nat) (v : Pay) : State :=
  let old := s.reg (oPort p + r)
  let s1 := if bit old 63 then s.setReg (oPort p + r) (setBit old 63 (bit v 63)) else s.plainWrite (oPort p + r) v
  if !bit old 63 ∧ bit v 63 then s1.setReg (oPort p + idx) 0
  else if r = 0x28 ∧ bit old 63 ∧ !bit v 63 then
    let e := s.ethPort p
    let isEff (f : TxFrame) : Bool := match f.src with | .eff _ _ _ => true | .ring _ => false
    s1.setEth p { e with queues := (e.queues.map (fun q => (q.1, q.2.filter isEff))).filter (fun q => !q.2.isEmpty) }
  else s1

/-- An accepted write to the ETH page. -/
def State.ethStore (s : State) (src o : Nat) (v : Pay) : State :=
  if o < 0x100 then s.plainWrite (oEth + o) v
  else
    let p := (o - 0x100) / 0x100
    let r := o % 0x100
    if r = 0x20 then s.ethRing p r 0x68 v
    else if r = 0x28 then s.ethRing p r 0x70 v
    else if r = 0x38 then s.gbaseWrite src p v
    else if r = 0x68 then s.setRf (oPort p + r) 43 32 (fld v 43 32 % 2 ^ s.rf (oPort p + 0x20) 51 48)
    else if r = 0x70 then s.txTail p v
    else s.plainWrite (oEth + o) v

/-! ### PCIe (R729, R730, R534, R737) -/

def oPcieC (c : Nat) : Nat := oPcie + 0x100 * (c + 1)

/-- A host write of a queue pair's configuration in BAR0 (R534): fields other than EN while EN is 0 only. -/
def State.bar0Write (s : State) (c q off : Nat) (v : Pay) : State :=
  let k := c * 16 + q
  let p := s.qpair k
  if off = 0 then (if p.en then s else s.setQpair k { p with sq := v })
  else if off = 8 then (if p.en then s else s.setQpair k { p with cq := v })
  else if off = 16 then
    let p1 := if p.en then p else { p with sqLog := min 12 (max 1 (fld v 7 0)), cqLog := min 12 (max 1 (fld v 15 8)) }
    s.setQpair k { p1 with en := bit v 16 }
  else s

/-- A completion goes to the device. -/
def State.pcieReply (s : State) (p : PcieCpl) : State := { s with pcieCpl := p :: s.pcieCpl }

/-- A request of a root port's device, or of an endpoint's host (R529 does not ask for it; R729, R730): within the window
a write puts its bytes into DRAM and a read is completed with them, poisoned when it meets an uncorrectable error or a poisoned
line (R404, R731); any other is answered Unsupported Request and counted. `e` is what the read meets. -/
def State.pcieInbound (s : State) (c pa : Nat) (write : Bool) (data : List (BitVec 8)) (len : Nat) (e : Ecc) : State :=
  let r := s.reg (oPcieC c)
  if !bit r 63 ∨ s.sys.inReset then s
  else if bit r 8 then
    let n := if write then data.length else len
    if s.rf (oPcieC c + 0x08) 47 12 * 4096 ≤ pa ∧ pa + n ≤ s.rf (oPcieC c + 0x10) 47 12 * 4096 ∧ s.inDram pa n then
      (if write then s.engPutBytes pa data else (s.pcieReply ⟨c, false, decide (e = .bad) || (s.badIn pa n).isSome, s.engBytes pa n⟩).eccSeen 0x40 pa e)
    else (s.count (oPcieC c + 0x18)).pcieReply ⟨c, true, false, []⟩
  else if write ∧ pa < 0x200 ∧ data.length = 8 ∧ pa % 8 = 0 then s.bar0Write c (pa / 32) (pa % 32) (p64 (leNat data))
  else s

/-- An AER or link event of controller c (R737). -/
def State.pcieEvent (s : State) (c : Nat) : State := if bit (s.reg (oPcieC c)) 63 ∧ !s.sys.inReset then s.assertSource (0x67 + c) else s

/-! ### CAN (R732, R733, R756 to R758) -/

def oChan (h : Nat) : Nat := oCan + 0x400 * (h + 1)

/-- The identifier bits that take part (R758). -/
def canId (w : Pay) : Nat := if bit w 29 then fld w 28 0 else fld w 10 0

/-- Filter f of channel h accepts the frame. -/
def State.canAccepts (s : State) (h : Nat) (w : Pay) (f : Nat) : Bool :=
  let r := s.reg (oChan h + 0x200 + 8 * f)
  let m := if bit w 29 then fld r 60 32 else fld r 42 32
  bit r 63 && bit r 62 = bit w 29 && canId w &&& m = fld r 28 0 &&& m

/-- Bytes that DLC gives (R732). -/
def canLen (w : Pay) : Nat :=
  let d := fld w 35 32
  if d ≤ 8 then d
  else if !bit w 30 then 8
  else if d = 9 then 12 else if d = 10 then 16 else if d = 11 then 20 else if d = 12 then 24 else if d = 13 then 32
  else if d = 14 then 48 else 64

/-- The 128 bytes of a receive entry (R757). -/
def canEntry (f : CanFrame) (flt : Option Nat) : List (BitVec 8) :=
  let w0 := (f.word &&& maskFld 35 0) ||| atFld 37 37 (b2n f.esi) ||| atFld 38 38 (b2n f.rtr)
    ||| (match flt with | some n => atFld 45 40 n | none => atFld 46 46 1)
  let d := f.data.take (if f.rtr then 0 else canLen f.word)
  wordBytes [w0, f.time] ++ d ++ List.replicate (112 - d.length) 0

/-- The FIFO of channel h drains to its ring while it has room (R733, R757). -/
def canDrain (h : Nat) : Nat → State → State
  | 0, s => s
  | fuel + 1, s =>
    let r := s.reg (oChan h + 0x18)
    let size := 2 ^ fld r 51 48
    let head := s.rf (oChan h + 0x20) 9 0
    match (s.canCh h).fifo with
    | [] => s
    | (f, flt) :: fs =>
      if !bit r 63 ∨ (head + 1) % size = s.rf (oChan h + 0x20) 41 32 then s
      else
        let s1 := (s.ioWrite (fld r 47 7 * 128 + 128 * head) (canEntry f flt)).setRf (oChan h + 0x20) 9 0 ((head + 1) % size)
        let s2 := s1.setCan h { s1.canCh h with fifo := fs }
        canDrain h fuel (if bit (s.reg (oChan h)) 61 then s2.assertSource (0x6A + h) else s2)

/-- Channel h receives a frame: word 0 of R732 with its ESI and RTR and data (R733, R756 to R758). -/
def State.canFrame (s : State) (h : Nat) (word : Pay) (esi rtr : Bool) (data : List (BitVec 8)) : State :=
  let c := s.reg (oChan h)
  let any := (List.range 64).any (fun f => bit (s.reg (oChan h + 0x200 + 8 * f)) 63)
  let flt := firstN 64 0 (fun f => s.canAccepts h word f)
  if !bit c 63 ∨ bit (s.reg (oChan h + 0x28)) 63 ∨ s.sys.inReset ∨ (bit word 30 ∧ !bit c 62) ∨ (any ∧ flt.isNone) then s
  else
    let s1 := canDrain h 64 s
    let ch := s1.canCh h
    if ch.fifo.length ≥ 64 then s1.count (oChan h + 0x30)
    else canDrain h 64 (s1.setCan h { ch with fifo := ch.fifo ++ [(⟨word, esi, rtr, s.time, data⟩, flt)] })

/-- The oldest waiting effect frame of channel h is sent and acknowledged on the bus (R732). -/
def State.canSent (s : State) (h : Nat) : State :=
  if !bit (s.reg (oChan h)) 63 ∨ bit (s.reg (oChan h + 0x28)) 63 ∨ s.sys.inReset then s
  else match (s.canCh h).txq with
  | [] => s
  | (n, g, k) :: q =>
    let data := match s.slot? n with
      | some v => if v.gen = g then ((v.effs.find? (fun e => e.idx = k)).map (·.data)).getD [] else []
      | none => []
    (s.setCan h { s.canCh h with txq := q, sent := data :: (s.canCh h).sent }).effectDone n g k

def State.canEvent (s : State) (h : Nat) : State := if bit (s.reg (oChan h)) 60 then s.assertSource (0x6A + h) else s

/-- Channel h goes bus-off (R756, R757). -/
def State.canBusOff (s : State) (h : Nat) : State :=
  let st := s.reg (oChan h + 0x28)
  if !bit (s.reg (oChan h)) 63 ∨ bit st 63 ∨ s.sys.inReset then s
  else ((s.setReg (oChan h + 0x28) (setFld (setBit (setBit (setBit st 63 true) 62 true) 61 true) 15 8 255)).setCan h
    { s.canCh h with recovering := false }).canEvent h

/-- Channel h recovers (R756): by itself with ABO = 1, else after a write of EN from 0 to 1. -/
def State.canRecovers (s : State) (h : Nat) : State :=
  if !bit (s.reg (oChan h)) 63 ∨ !bit (s.reg (oChan h + 0x28)) 63 ∨ (!bit (s.reg (oChan h)) 59 ∧ !(s.canCh h).recovering) then s
  else ((s.setReg (oChan h + 0x28) 0).setCan h { s.canCh h with recovering := false }).canEvent h

/-- The error counters of channel h reach new values (R757): the source asserts as the channel becomes error passive. -/
def State.canErrors (s : State) (h tec rec_ : Nat) : State :=
  let st := s.reg (oChan h + 0x28)
  if !bit (s.reg (oChan h)) 63 ∨ bit st 63 ∨ s.sys.inReset then s
  else
    let pas := decide (128 ≤ tec) || decide (128 ≤ rec_)
    let warn := decide (96 ≤ tec) || decide (96 ≤ rec_)
    let s1 := s.setReg (oChan h + 0x28) (setFld (setFld (setBit (setBit st 62 pas) 61 warn) 15 8 (min 255 tec)) 7 0 (min 255 rec_))
    if pas ∧ !bit st 62 then s1.canEvent h else s1

/-- An accepted write to the CAN page. -/
def State.canStore (s : State) (o : Nat) (v : Pay) : State :=
  let pl := s.plainWrite (oCan + o) v
  if o < 0x400 then pl
  else
    let h := (o - 0x400) / 0x400
    let r := o % 0x400
    let en := bit (s.reg (oChan h)) 63
    if (r = 0x08 ∨ r = 0x10) ∧ en then s
    else if r = 0x00 then
      (if !en ∧ bit v 63 ∧ bit (s.reg (oChan h + 0x28)) 63 then pl.setCan h { s.canCh h with recovering := true } else pl)
    else if r = 0x18 then canDrain h 64 (if bit v 63 then pl.setReg (oChan h + 0x20) 0 else pl)
    else if r = 0x20 then canDrain h 64 (s.setRf (oChan h + r) 41 32 (fld v 41 32 % 2 ^ s.rf (oChan h + 0x18) 51 48))
    else pl

/-! ### UART (R733, R759) -/

def oUart (u : Nat) : Nat := oSio + 0x100 * (u + 1)
def State.updSio (s : State) (f : Sio → Sio) : State := { s with sio := f s.sio }
def State.uart (s : State) (u : Nat) : Uart := Tbl.get (fun _ => Uart.reset) s.sio.uarts u
def State.setUart (s : State) (u : Nat) (v : Uart) : State :=
  s.updSio (fun i => { i with uarts := Tbl.set (fun _ => Uart.reset) i.uarts u v })
def State.uartBit (s : State) (u b : Nat) : Bool := bit (s.reg (oUart u)) b

/-- UART u may start a byte: CTS holds it back under flow control. -/
def State.mayShift (s : State) (u : Nat) : Bool := s.uartBit u 63 && (!s.uartBit u 61 || s.uartBit u 62 || (s.uart u).cts)

/-- The shifter takes the next byte when it is empty. -/
def State.uartNext (s : State) (u : Nat) : State :=
  let a := s.uart u
  match a.shift, a.tx with
  | none, b :: bs => if s.mayShift u then s.setUart u { a with tx := bs, shift := some b } else s
  | _, _ => s

/-- A byte is received (R733): with its parity and framing errors, or a break. -/
def State.uartRx (s : State) (u : Nat) (b : BitVec 8) (perr ferr brk : Bool) : State :=
  let a := s.uart u
  if !s.uartBit u 63 ∨ s.sys.inReset then s
  else if a.rx.length ≥ 64 then s.count (oUart u + 0x20)
  else
    let n := b.toNat % 2 ^ (5 + s.rf (oUart u) 1 0)
    let w := setBit (setBit (setBit (setBit (p64 n) 63 true) 62 perr) 61 ferr) 60 brk
    let s1 := s.setUart u { a with rx := a.rx ++ [w] }
    if s.uartBit u 60 then s1.assertSource (0x6E + u) else s1

/-- A write of SIO_UuDATA. -/
def State.uartWrite (s : State) (u : Nat) (b : BitVec 8) : State :=
  let a := s.uart u
  if a.tx.length ≥ 64 then s.count (oUart u + 0x28) else (s.setUart u { a with tx := a.tx ++ [b] }).uartNext u

/-- A read of SIO_UuDATA removes the oldest received byte. -/
def State.uartRead (s : State) (u : Nat) : Pay × State :=
  let a := s.uart u
  match a.rx with
  | [] => (0, s)
  | w :: ws => (w, s.setUart u { a with rx := ws })

/-- The shifter has finished its byte; an empty transmitter raises the source. -/
def State.uartSent (s : State) (u : Nat) : State :=
  let a := s.uart u
  match a.shift with
  | none => s
  | some b =>
    if s.sys.inReset then s
    else
      let s1 := (s.setUart u { a with shift := none, sent := b :: a.sent }).uartNext u
      if a.tx.isEmpty ∧ s.uartBit u 59 then s1.assertSource (0x6E + u) else s1

/-- The last byte leaves the shifter with the transmit FIFO empty. -/
def State.uartEmpty (s : State) (u : Nat) : State := if (s.uart u).tx.isEmpty then s.uartSent u else s

/-- The CTS input changes. -/
def State.uartCts (s : State) (u : Nat) (level : Bool) : State := (s.setUart u { s.uart u with cts := level }).uartNext u

/-- SIO_UuSTAT as it reads. -/
def State.uartStat (s : State) (u : Nat) : Pay :=
  let a := s.uart u
  atFld 63 63 (b2n (a.tx.isEmpty && a.shift.isNone)) ||| atFld 38 32 a.rx.length ||| atFld 6 0 a.tx.length

/-! ### I²C (R760) -/

def oI2c (i : Nat) : Nat := oSio + 0x800 + 0x100 * i

/-- Bytes put into the buffer from byte 0. -/
def State.i2cFill (s : State) (i : Nat) (bs : List (BitVec 8)) : State :=
  (List.range (min 64 bs.length)).foldl (fun s k =>
    let r := oI2c i + 0x20 + 8 * (k / 8)
    s.setReg r (putBytes (s.reg r) (k % 8) 1 ((bs.getD k 0).setWidth 64))) s

/-- A write of SIO_IiCMD: GO starts a controller transfer. -/
def State.i2cCmd (s : State) (i : Nat) (v : Pay) : State :=
  let c := s.reg (oI2c i)
  if !bit v 63 ∨ bit (s.reg (oI2c i + 0x10)) 63 ∨ !bit c 63 ∨ bit c 62 then s
  else (s.setReg (oI2c i + 0x10) (setBit (s.reg (oI2c i + 0x10)) 63 true)).updSio (fun o => { o with i2c := Tbl.insert o.i2c i v })

def State.i2cEvent (s : State) (i : Nat) : State := if bit (s.reg (oI2c i)) 61 then s.assertSource (0x72 + i) else s

/-- A controller transfer ends: whether it met no acknowledgement or lost arbitration, the bytes moved, and those read. -/
def State.i2cDone (s : State) (i : Nat) (nack arb : Bool) (count : Nat) (data : List (BitVec 8)) : State :=
  match Tbl.look s.sio.i2c i with
  | none => s
  | some v =>
    let n := min (min 64 (fld v 6 0)) count
    let st := s.reg (oI2c i + 0x10)
    let st1 := setFld (setBit (setBit (setBit (setBit st 63 false) 62 true) 61 (bit st 61 || nack)) 60 (bit st 60 || arb)) 6 0 n
    let s1 := s.setReg (oI2c i + 0x10) st1
    let s2 := if bit v 62 then s1.i2cFill i (data.take n) else s1
    (s2.updSio (fun o => { o with
      i2c := Tbl.erase o.i2c i, held := if bit v 61 ∨ arb then o.held.filter (· ≠ i) else (o.held ++ [i]).eraseDups })).i2cEvent i

/-- A controller addresses channel i in target mode: a write with its bytes, or a read of `count`. While DONE is 1 the
transaction waits (its clock is stretched). -/
def State.i2cTarget (s : State) (i : Nat) (write : Bool) (data : List (BitVec 8)) (count : Nat) : State :=
  let c := s.reg (oI2c i)
  let st := s.reg (oI2c i + 0x10)
  if !bit c 63 ∨ !bit c 62 ∨ bit st 62 ∨ s.sys.inReset then s
  else
    let tooMany := write && decide (64 < data.length)
    let n := if write then min 64 data.length else min 127 count
    let s1 := if write then s.i2cFill i data else s
    (s1.setReg (oI2c i + 0x10) (setFld (setBit (setBit (setBit st 62 true) 61 (bit st 61 || tooMany)) 59 write) 6 0 n)).i2cEvent i

/-! ### QSPI (R734, R761) -/

/-- A write of SIO_QCMD. -/
def State.qspiCmd (s : State) (v : Pay) : State :=
  if !bit v 63 ∨ bit (s.reg (oSio + 0x8018)) 63 then s
  else (s.setReg (oSio + 0x8018) (setBit (s.reg (oSio + 0x8018)) 63 true)).updSio (fun o => { o with qspi := some v })

/-- The operation ends, with the bytes that the flash gave. -/
def State.qspiDone (s : State) (data : List (BitVec 8)) : State :=
  match s.sio.qspi with
  | none => s
  | some v =>
    let n := min 4096 (fld v 12 0)
    let a := s.rf (oSio + 0x8010) 47 0
    let bad := n ≠ 0 && !s.inDram a n
    let st := s.reg (oSio + 0x8018)
    let s1 := s.setReg (oSio + 0x8018) (setBit (setBit (setBit st 63 false) 62 true) 61 (bit st 61 || bad))
    let s2 := s1.updSio (fun o => { o with qspi := none })
    if bad ∨ bit v 62 ∨ n = 0 then s2 else s2.engPutBytes a ((data ++ List.replicate n 0).take n)

/-! ### The SIO page -/

def State.sioStore (s : State) (o : Nat) (v : Pay) : State :=
  if 0x100 ≤ o ∧ o < 0x500 then
    let u := (o - 0x100) / 0x100
    if o % 0x100 = 0x10 then s.uartWrite u (BitVec.ofNat 8 (fld v 7 0))
    else if o % 0x100 = 0 then (s.plainWrite (oSio + o) v).uartNext u
    else s.plainWrite (oSio + o) v
  else if o = 0x808 ∨ o = 0x908 then s.i2cCmd ((o - 0x800) / 0x100) v
  else if o = 0x8000 then s.qspiCmd v
  else s.plainWrite (oSio + o) v

def State.sioLoad (s : State) (o : Nat) : Pay × State :=
  if 0x100 ≤ o ∧ o < 0x500 then
    let u := (o - 0x100) / 0x100
    if o % 0x100 = 0x10 then s.uartRead u
    else if o % 0x100 = 0x18 then (s.uartStat u, s)
    else (s.reg (oSio + o), s)
  else (s.reg (oSio + o), s)

/-! ### EVT pins and the Pulse Unit (R738, R743 to R749) -/

/-- An edge selector takes a rising or a falling edge: 0b01 rising, 0b10 falling, 0b11 both. -/
def edgeTaken (sel : Nat) (rising : Bool) : Bool := if rising then sel % 2 = 1 else sel / 2 = 1

/-- The level at EVT pin i, held for its filter time, becomes `level` (R738). -/
def State.evtEdge (s : State) (i : Nat) (level : Bool) : State :=
  let old := s.evt.getLsbD i
  let s1 := { s with evt := if level then s.evt ||| BitVec.ofNat 16 (2 ^ i) else s.evt &&& ~~~ BitVec.ofNat 16 (2 ^ i) }
  if old = level ∨ s.sys.inReset then s1
  else if edgeTaken (s.rf (oEvr + 0x1000 + 8 * i) 9 8) level then s1.assertSource i else s1

def oCh (n : Nat) : Nat := oPls + 0x1000 + 0x20 * n
def State.plsCh (s : State) (n : Nat) : PlsCh := Tbl.get (fun _ => PlsCh.reset) s.pls n
def State.setPls (s : State) (n : Nat) (c : PlsCh) : State := { s with pls := Tbl.set (fun _ => PlsCh.reset) s.pls n c }
def State.plsMode (s : State) (n : Nat) : Nat := s.rf (oCh n) 2 0
def State.plsReg (s : State) (n r : Nat) : Nat := s.rf (oCh n + r) 31 0
def State.plsEvent (s : State) (n : Nat) : State := if bit (s.reg (oCh n)) 63 then s.assertSource (0x10 + n) else s

/-- A period boundary of PWM or STEP: PER and CMP as last written take effect (R745). -/
def State.plsBoundary (s : State) (n : Nat) : State :=
  if s.plsMode n = 1 ∨ s.plsMode n = 4 then s.setPls n { s.plsCh n with per := s.plsReg n 8, cmp := s.plsReg n 0x10 } else s

/-- The level at the ball of channel n. -/
def State.setLvl (s : State) (n : Nat) (level : Bool) : State := s.setReg (oCh n) (setBit (s.reg (oCh n)) 61 level)

/-- An edge in CAPTURE mode (R744, R747). -/
def State.plsCapture (s : State) (n : Nat) (rising : Bool) : State :=
  let s1 := s.setLvl n rising
  if s.sys.inReset ∨ s.plsMode n ≠ 2 ∨ !edgeTaken (s.rf (oCh n) 9 8) rising then s1
  else (s1.setRf (oCh n + 0x10) 31 0 (fld s.time 31 0)).plsEvent n

/-- An edge in COUNT mode (R744, R747, R762). -/
def State.plsCount (s : State) (n : Nat) (rising : Bool) : State :=
  let s1 := s.setLvl n rising
  if s.sys.inReset ∨ s.plsMode n ≠ 3 ∨ !edgeTaken (s.rf (oCh n) 9 8) rising then s1
  else
    let c := (s.plsReg n 0x18 + 1) % 2 ^ 32
    let s2 := s1.setRf (oCh n + 0x18) 31 0 c
    let s3 := if c = 0 then s2.setReg (oCh n) (setBit (s2.reg (oCh n)) 62 true) else s2
    if c = 0 ∨ c = s.plsReg n 0x10 then s3.plsEvent n else s3

/-- A STEP pulse ends (R744, R745). -/
def State.plsStep (s : State) (n : Nat) : State :=
  if s.sys.inReset ∨ s.plsMode n ≠ 4 ∨ !(s.plsCh n).stepping then s
  else
    let c := s.plsReg n 0x18 - 1
    let s1 := (s.setRf (oCh n + 0x18) 31 0 c).plsBoundary n
    if c = 0 then (s1.setPls n { s1.plsCh n with stepping := false }).plsEvent n else s1

/-- A write of CNT (R744): in STEP mode it starts, extends or ends the train. -/
def State.plsCntWrite (s : State) (n : Nat) (v : Pay) : State :=
  let s1 := s.plainWrite (oCh n + 0x18) v
  let c := s.plsCh n
  if s.plsMode n ≠ 4 then s1
  else if fld v 31 0 = 0 then (if c.stepping then (s1.setPls n { c with stepping := false }).plsEvent n else s1)
  else if c.stepping then s1
  else s1.setPls n { per := s.plsReg n 8, cmp := s.plsReg n 0x10, stepping := true }

/-- A write of CTL: a mode that is entered starts with PER and CMP as they stand; leaving STEP ends its train. -/
def State.plsCtlWrite (s : State) (n : Nat) (v : Pay) : State :=
  let old := s.plsMode n
  let s1 := s.plainWrite (oCh n) v
  if fld v 2 0 = old then s1 else s1.setPls n { per := s.plsReg n 8, cmp := s.plsReg n 0x10, stepping := false }

/-- An accepted write to the PLS page. -/
def State.plsStore (s : State) (o : Nat) (v : Pay) : State :=
  if o < 0x1000 then s.plainWrite (oPls + o) v
  else
    let n := (o - 0x1000) / 0x20
    if o % 0x20 = 0 then s.plsCtlWrite n v
    else if o % 0x20 = 0x18 then s.plsCntWrite n v
    else s.plainWrite (oPls + o) v

end Sys2Proof.Machine
end

