-- ==== Sys2Proof/Machine/Dev.lean ====
section
/-!
DEFINITION. Device registers as a source reaches them (R41 to R47): the checks of R8, R43 and R44 with their ERR
records, the dispatch of an accepted write or load to the block of its page, and the carrying out of outputs.
-/
namespace Sys2Proof.Machine

/-- What a load from a device register answers: a value, or nothing yet (the load waits). -/
inductive RdRes where
  | val (v : Pay) (s : State)
  | wait (s : State)

/-- A block that answers at once, or not yet. -/
def RdRes.ofOpt (s : State) : Option Pay → RdRes
  | some v => .val v s
  | none => .wait s

/-- An accepted load at `off` by source `src` (context `x` when a core), at the block of its page (R40). -/
def State.blockLoad (s : State) (_src x off : Nat) : RdRes :=
  let p := pageOf off
  let o := inPage off
  if o < 0x10 then .val (s.reg off) s
  else if 0x20 ≤ p then
    if o < 0x3000 then .ofOpt s (s.l2Load (p - 0x20) o)
    else if 0x4000 ≤ o then .ofOpt s (s.seLoad (p - 0x20) x o)
    else .val (s.reg off) s
  else
    match p with
    | 0x00 => .val (s.sysLoad o) s
    | 0x02 => .val (s.twinLoad o) s
    | 0x04 => match s.ldgLoad o with | some r => .val r.1 r.2 | none => .wait s
    | 0x06 => .val (s.gcLoad o).1 (s.gcLoad o).2
    | 0x07 => .val (s.secLoad o) s
    | 0x0C => .val (s.sioLoad o).1 (s.sioLoad o).2
    | 0x10 => .val (s.bgsLoad o) s
    | _ => .val (s.reg off) s

/-- An accepted write at `off`, at the block of its page. -/
def State.blockStore (s : State) (src x off : Nat) (v : Pay) : State :=
  let p := pageOf off
  let o := inPage off
  if o < 0x10 then s.plainWrite off v
  else if 0x20 ≤ p then
    if o < 0x3000 then s.l2Store (p - 0x20) o v
    else if 0x4000 ≤ o then s.seStore (p - 0x20) x o v
    else s.plainWrite off v
  else
    match p with
    | 0x00 => s.sysStore src o v
    | 0x01 => s.pwrStore src o v
    | 0x02 => s.twinStore o v
    | 0x04 => s.ldgStore o v
    | 0x05 => s.stoStore o v
    | 0x06 => s.gcStore o v
    | 0x07 => s.secStore o v
    | 0x0A => s.ethStore src o v
    | 0x0B => s.canStore o v
    | 0x0C => s.sioStore o v
    | 0x0E => s.plsStore o v
    | 0x0F => s.pnlStore o v
    | 0x10 => s.bgsStore src o v
    | _ => s.plainWrite off v

/-- A 64-bit load from a mapped page (R43, R44). -/
def State.devLoad (s : State) (src x off : Nat) : RdRes :=
  match regDesc off with
  | none => .val 0 (s.recErr off src errUndef)
  | some _ => s.blockLoad src x off

/-- A 64-bit store to a mapped page (R8, R43, R44). DESIGN CHOICE (assumption 104): a reserved code is rejected with its ERR record
before a block ignores the source, as SYS does for SYS_MODECMD (R675); the spec does not say which comes first. -/
def State.devStore (s : State) (src x off : Nat) (v : Pay) : State :=
  match regDesc off with
  | none => s.recErr off src errUndef
  | some d => if d.rejects v then s.recErr off src errReject else s.blockStore src x off v

/-- Carry out one output at its target; errors become Store Bus Errors at the context (R37, R41, R43, R46, R86). -/
def State.perform (s : State) (o : Out) : State :=
  match o with
  | .sev _ target => s.setLatch target
  | .heal _ src pa old new _ => if (s.region pa).isRam then s.memHeal (s.key src pa) old new else s
  | .store x src pa width v pc =>
    match s.region pa with
    | .unmapped => s.recSbe x 1 pa pc
    | .rom => s.recSbe x 6 pa pc
    | .pcie _ => s
    | .keep => if keepSource src then s.keepStore x src pa width v else s.recSbe x 7 pa pc
    | .dram | .staging => s.memStore src pa width v
    | .jnv =>
      match s.bgs.move with
      | some m => if pa / 0x1000 = jnvAt (0x1000 * m.block) / 0x1000 then s.updBgs (fun g => { g with move := some { m with waiting := m.waiting ++ [o] } })
        else s.memStore src pa width v
      | none => s.memStore src pa width v
    | .dev off =>
      if 0x20 ≤ pageOf off ∧ !s.clOn (pageOf off - 0x20) then s.recSbe x 4 pa pc
      else if width = 9 then (s.recErr off src errStt).recSbe x 3 pa pc
      else if width ≠ 8 then (s.recErr off src errWidth).recSbe x 2 pa pc
      else s.devStore src x off v.pay

/-- Carry out the outputs in the outbox, and those they give rise to, at most `fuel` of them. -/
def settleN : Nat → State → State
  | 0, s => s
  | fuel + 1, s =>
    match s.outbox with
    | [] => s
    | o :: os => settleN fuel (({ s with outbox := os }).perform o)

/-- Contexts that were reset give their commands back to the Ledger (R563), and commands it holds are dispatched
again. -/
def State.restartDue (s : State) : State :=
  if s.ldg.restart.isEmpty then s
  else ({ s with ldg := { s.ldg with restart := [] } }.restartCmds s.ldg.restart).retryHeld

/-- All outputs on their way reach their targets (R427: each source's in order), the Scavenge Engines absorb what they
were sent (R350), restarted commands are back at the Ledger, and a wake request in Quiet starts the wake (R673). -/
def State.settle (s : State) : State := (((settleN 4096 s).absorbAll).restartDue).checkWake

end Sys2Proof.Machine
end

