-- ==== Sys2Proof/Machine/Exec.lean ====
section
/-!
DEFINITION. The running of one instruction: the checks before it (R109, R458), what its accesses do in order (R159),
exceptions that leave its state as it was (R454).
-/
namespace Sys2Proof.Machine

/-- The state of one instruction's run: the machine, the context, what the command says it meets, how many data accesses it
has made, what its accesses have found and been answered, whether it has been fetched, and for a customer slot instruction
the stores it holds (R268), how many micro-words it has read, and where its micro-op in execution began, with how many findings
before it. -/
structure Run where
  s : State
  x : Nat
  at_ : At
  acc : Nat := 0
  seen : List Obs := []
  fetched : Bool := false
  held : Option (List HeldStore) := none
  micro : Nat := 0
  slotAt : Option SlotRun := none
  base : Nat := 0

/-- Why an instruction ends before it retires. `side` is what stays changed in the machine although the instruction
has no effect: error records, poisoned lines, telemetry. -/
inductive Stop where
  /-- an exception at the instruction; `keep` says that the machine at the throw is what stays (progress of R194, R218) -/
  | exc (e : Exc) (side : State → State) (keep : Bool)
  /-- the context waits, and the instruction runs again -/
  | park (r : RunState)
  /-- the window it closes does not match: leader's and shadow's signatures -/
  | mismatch (shadow : Pay)

/-- An instruction's computation. A thrown stop carries the machine as it is at the throw. -/
abbrev X := EStateM Stop Run

namespace X

def st : X State := fun r => .ok r.s r
def ctxNo : X Nat := fun r => .ok r.x r
def put (s : State) : X Unit := fun r => .ok () { r with s := s }
def upd (f : State → State) : X Unit := fun r => .ok () { r with s := f r.s }
def raise {α : Type} (e : Exc) : X α := throw (.exc e id false)
def raiseSide {α : Type} (e : Exc) (side : State → State) : X α := throw (.exc e side false)
def park {α : Type} (p : RunState) : X α := throw (.park p)
def ctx : X Ctx := fun r => .ok (r.s.ctx r.x) r
def ring : X Nat := fun r => .ok (r.s.ctx r.x).ring r
/-- The core that executes. -/
def core : X Nat := fun r => .ok (r.s.coreOf r.x) r
/-- A register read by its field. -/
def rd (f : BitVec 5) : X Word := fun r => .ok ((r.s.ctx r.x).rd f) r
/-- A register written by its field. -/
def wr (f : BitVec 5) (w : Word) : X Unit := fun r => .ok () { r with s := r.s.wrReg r.x f w }
def updCtx (f : Ctx → Ctx) : X Unit := fun r => .ok () { r with s := r.s.updCtx r.x f }
/-- The metal part of the next data access: what it meets. -/
def met : X Met := fun r => .ok (if r.acc = r.at_.nth then r.at_.met else .clean) { r with acc := r.acc + 1 }
/-- The next answer: one that the instruction used before it waited, or else the oldest it has received since. -/
def grant : X (Option Grant) := fun r =>
  match (r.s.ctx r.x).obs[r.seen.length]?, (r.s.ctx r.x).grants with
  | some (.grant g), _ => .ok (some g) { r with seen := r.seen ++ [.grant g] }
  | none, g :: gs =>
    .ok (some g) { r with s := r.s.updCtx r.x (fun c => { c with grants := gs }), seen := r.seen ++ [.grant g] }
  | _, _ => .ok none r
/-- Whether the next answer is g; any other stays. -/
def grantIs (g : Grant) : X Bool := fun r =>
  match (r.s.ctx r.x).obs[r.seen.length]?, (r.s.ctx r.x).grants with
  | some (.grant h), _ => if h = g then .ok true { r with seen := r.seen ++ [.grant g] } else .ok false r
  | none, h :: gs =>
    if h = g then .ok true { r with s := r.s.updCtx r.x (fun c => { c with grants := gs }), seen := r.seen ++ [.grant g] }
    else .ok false r
  | _, _ => .ok false r
/-- A finding made once: the instruction that goes on after a wait finds what it found before (R360, R382). -/
def once (f : X Obs) : X Obs := fun r =>
  match (r.s.ctx r.x).obs[r.seen.length]? with
  | some o => .ok o { r with seen := r.seen ++ [o] }
  | none =>
    match f r with
    | .ok o r1 => .ok o { r1 with seen := r.seen ++ [o] }
    | out => out
/-- A fresh free value. -/
def free : X Pay := fun r => let v := r.s.free; .ok v.1 { r with s := v.2 }

end X

/-! ### Windows and outputs during an instruction -/

/-- Close and confirm the window of the executing twin, in tight mode (R488); a shadow signature that the command
brings and that differs is a mismatch (R487). Released outputs reach their targets. -/
def X.closeWindow : X Unit := fun r =>
  if r.s.isTight r.x then
    let t := twinOf r.x
    match r.at_.shadowSig with
    | some sig => if sig = (r.s.twin t).misr then .ok () { r with s := (r.s.confirm t).settle } else .error (.mismatch sig) r
    | none => .ok () { r with s := (r.s.confirm t).settle }
  else .ok () { r with s := r.s.settle }

/-! ### Loads (R159 steps 5 to 7) -/

/-- Translate one access, with the parity error of R369 when the command brings it. A data access waits while the L1D of its
core is swept, and a cacheable access while the L2 of its cluster is (R417, R420). -/
def X.lookup (ring : Nat) (k : AccKind) (va : Pay) (m : Met) : X Tr := fun r =>
  let parity (i : Nat) : EStateM.Result Stop Run Tr :=
    let core := r.s.core (r.s.coreOf r.x)
    if (core.ent i).l then .error (.exc (Exc.mcheck 5 0) id false) r
    else .error (.exc (Exc.miss k (fld ((r.s.ctx r.x).sp Sr.asid) 11 0) va)
      (fun s => s.updCore (s.coreOf r.x) (fun c => c.setEnt i (c.ent i).inval)) false) r
  let c := r.s.ctx r.x
  let hit := if ring ≤ 1 ∧ !c.te then none else (r.s.core (r.s.coreOf r.x)).tlbFind va.toNat (fld (c.sp Sr.asid) 11 0)
  let j := r.s.coreOf r.x
  if bit ((r.s.core j).sp Sr.cctl) 15 ∧ k ≠ .fetch then .error (.park .hold) r
  else match m, hit with
  | .tlbParity, some i => parity i
  | _, _ =>
    match r.s.translate r.x ring k va with
    | .ok tr => if r.s.l2Sweeping (clusterOfCore j) ∧ tr.cache then .error (.park .hold) r else .ok tr r
    | .error e => .error (.exc e id false) r

/-- The translation of a data access, found once (R360, R382). -/
def X.translate (ring : Nat) (k : AccKind) (va : Pay) (m : Met) : X Tr := do
  match (← X.once (do let t ← X.lookup ring k va m; pure (.tr t.pa t.cache))) with
  | .tr pa c => pure ⟨pa, c⟩
  | _ => X.lookup ring k va m

/-- A load's response as the command brings it. -/
def X.respond (m : Met) (pa : Nat) (va : Pay) : X Unit :=
  match m with
  | .errResp => X.raise (Exc.dataBus 4 va)
  | .meshDouble => X.raise (Exc.mcheck 2 pa)
  | .dramUe => X.raise (Exc.mcheck 1 pa)
  | .meshCorr => do let k ← X.core; X.upd (fun s => s.telem k telMeshCorr (p64 pa))
  | .ddrCorr => do let k ← X.core; X.upd (fun s => s.telem k telDdrCorr (p64 pa))
  | _ => pure ()

/-- The context waits for the response of a request it sends now (R21, R25). -/
def X.awaitFabric {α : Type} (kind : TxnKind) (pa width : Nat) : X α := fun r =>
  let t := r.s.sendReq (r.s.coreOf r.x) r.x pa width kind none
  .error (.park (.fabric t.1)) { r with s := t.2 }

/-- The word at physical address pa as the held stores of the instruction leave it (R268). -/
def overlay (hs : List HeldStore) (pa : Nat) (w : Word) : Word :=
  hs.foldl (fun w h => if h.pa / 8 = pa / 8 then merged w h.pa h.width h.val else w) w

/-- The word at pa as the stores of context x that stand in the store buffer leave it (R397). -/
def State.forwarded (s : State) (x pa : Nat) (w : Word) : Word :=
  s.txns.foldl (fun w t => match t.out with
    | some (.store y _ p width v _) => if y = x ∧ p / 8 = pa / 8 ∧ !t.arrived then merged w p width v else w
    | _ => w) w

/-- `w` with the context's buffered stores laid over it, and then those the instruction holds. -/
def X.overlaid (pa : Nat) (w : Word) : X Word := fun r => .ok (overlay (r.held.getD []) pa (r.s.forwarded r.x pa w)) r

/-- The outcome of a load that has received answer g (R20, R25, R94); `.done` lets the access be made now. -/
def X.granted (g : Grant) (pa : Nat) (va : Pay) (go : X Word) : X Word :=
  match g with
  | .word w => X.overlaid pa w
  | .done => go
  | .error => X.raise (Exc.dataBus 4 va)
  | .doubleBit => X.raise (Exc.mcheck 2 pa)
  | .dramUe => X.raise (Exc.mcheck 1 pa)
  | .poison => X.raise (Exc.mcheck 4 pa)
  | .noBlock | .noCopy => go

/-- Core k has earlier posted stores to the target of pa that have not reached it: a later message to that target follows them
(R18, R47). -/
def State.behindStores (s : State) (k pa : Nat) : Bool :=
  s.txns.any (fun t => t.src = k && t.kind = .store && !t.arrived && t.tgt = s.targetOf pa)

/-- A load that leaves the core (device register, PCIe window, uncached access) uses its answer when it has one; it goes out
and waits when the command says so, when its request finds no room (R16, R17, R23), or when posted stores stand before it
(R18). -/
def X.answered (pa width : Nat) (va : Pay) (go : X Word) (m : Met) : X Word := do
  match (← X.grant) with
  | some g => X.granted g pa va go
  | none => do
    let s ← X.st
    let k ← X.core
    if m = .outstanding || !s.canSend k pa .load width || s.behindStores k pa then X.awaitFabric .load pa width else go

/-- An access at pa by context x of a loose core goes outside its own Keep SRAM, and so to the comparator (R496). -/
def State.loosened (s : State) (x pa : Nat) : Bool := s.isLoose x && s.region pa ≠ .keep

/-- A loose core presents an access to the comparator and waits for its partner's (R496). -/
def X.present {α : Type} (req : LooseReq) : X α := fun r =>
  let e : LooseEntry := ⟨r.x, req⟩
  let s1 := r.s.updTwin (twinOf r.x) (fun w => if r.x % 8 < 4 then { w with outL := w.outL ++ [e] } else { w with outS := w.outS ++ [e] })
  .error (.park .partner) { r with s := s1 }

/-- A loose core's access outside its own Keep SRAM goes on with the answer that the comparator gives it (R496). -/
def X.loosePair {α : Type} (req : LooseReq) (go : Grant → X α) : X α := fun r0 =>
  match X.grant r0 with
  | .error e r => .error e r
  | .ok (some g) r => go g r
  | .ok none r => X.present req r

/-- The push of an exception frame waits as the accesses of its context do: while the L1D of its core or the L2 of its cluster is
swept (R417, R420, R434). -/
def State.pushWaits (s : State) (x : Nat) : Bool :=
  let k := s.coreOf x
  bit ((s.core k).sp Sr.cctl) 15 || s.l2Sweeping (clusterOfCore k)

/-- The last posted store of context x that has no acknowledgement yet. -/
def State.lastPosted (s : State) (x : Nat) : Option Nat :=
  (s.txns.filter (fun t => t.x = x && t.kind = .store)).getLast?.map (·.id)

/-- Wait until every earlier store of the context is acknowledged; a loose core's stores wait for their partners. -/
def X.storesDone : X Unit := do
  let s ← X.st
  let x ← X.ctxNo
  let t := s.twin (twinOf x)
  if s.isLoose x && (if x % 8 < 4 then t.outL else t.outS).any (fun e => e.x = x) then X.park .partner
  else
    match s.lastPosted x with
    | some id => X.park (.fabric id)
    | none => pure ()

/-- The L1D and L2 errors that the command brings for a cached access (R401 to R404); bad L1D parity met by a miss is that of the
line which the fill drives out. -/
def X.cacheErrors (m : Met) (k key pa : Nat) : X Unit := fun r =>
  let line := key / 64
  let n := clusterOfCore k
  let pc := (r.s.ctx r.x).pc
  let mc (c : Nat) (side : State → State) : EStateM.Result Stop Run Unit := .error (.exc (Exc.mcheck c pa) side false) r
  if r.s.poisoned line then mc 4 id
  else
    match m with
    | .l1Parity =>
      match r.s.l1dAt k line with
      | some l =>
        if l.dirty then mc 3 (fun s => (s.loseL1d k line).logFatal r.x pa pc)
        else .ok () { r with s := (r.s.updCore k (fun c => { c with l1d := Tbl.erase c.l1d line })).telem k telL1Par (p64 pa) }
      | none =>
        match r.s.l1dVictim k line with
        | some v => .ok () { r with s := r.s.l1dBad v }
        | none => .ok () r
    | .l2Ue =>
      match r.s.l2At n line with
      | some l => if l.dirty || (match r.s.l1dAt k line with | some d => d.dirty | none => false)
          then mc 4 (fun s => s.l2Uncorr k n line true) else .ok () { r with s := r.s.l2Uncorr k n line false }
      | none => .ok () r
    | .l2Corr => .ok () { r with s := r.s.l2Corrected k n line }
    | .l2TagUe => if (r.s.l2At n line).isSome then mc 4 (fun s => s.l2TagUncorr k n line) else .ok () r
    | _ => .ok () r

/-- Close the window when a fill or an eviction for `line` needs a provisional line (R488). -/
def X.freeVictims (k line : Nat) : X Unit := do
  let s ← X.st
  let n := clusterOfCore k
  let prov (o : Option Nat) : Bool := match o with | some l => (s.twin (k / 2)).provisional l | none => false
  if prov (s.l1dVictim k line) || prov (s.l2Victim n line) then X.closeWindow else pure ()

/-- A fill that must drive a dirty line out waits while the L2's eviction buffer is full (R396). -/
def X.evictRoom (k line : Nat) : X Unit := do
  let s ← X.st
  let n := clusterOfCore k
  match s.l2Victim n line with
  | some v =>
    if (match s.l2At n v with | some m => m.dirty | none => false) && !s.evictRoom n && !s.canSend (8 * n) (64 * v) .evict 64
    then X.park .hold else pure ()
  | none => pure ()

/-- The prefetches that follow a demand miss of line `line` by core k, while their prefetchers are on (R400, R429, R431). A
prefetch that would drive an L2 line out is not made (assumption 80). -/
def X.prefetch (k line : Nat) (fetch : Bool) : X Unit := do
  let n := clusterOfCore k
  let cctl := ((← X.st).core k).sp Sr.cctl
  let one (fill : State → Nat → State) (q : Nat) : X Unit := do
    let s ← X.st
    if s.prefetchable line q && s.prefetchRoom k && (s.evicting q).isNone && (s.l2Victim n q).isNone then do
      X.freeVictims k q
      X.upd (fun s => fill ((s.confirmLine q).cohRead (some n) q) q)
    else pure ()
  if fetch && !bit cctl 2 then do
    one (fun s q => s.l1iFill k q) (line + 1)
    one (fun s q => s.l1iFill k q) (line + 2)
  else if !fetch && !bit cctl 3 then one (fun s q => s.l1dFill k q) (line + 1)
  else pure ()
  let s ← X.st
  match (s.cluster n).stride line with
  | some q => if bit (s.reg (oCl n + 0x1000)) 1 then pure () else one (fun s q => s.l2Fill n q) q
  | none => pure ()
  X.upd (fun s => s.noteMiss n line)

/-- A demand access of core k to a cached line: on a miss the eviction buffer is looked at first, a free way is made, the line
is filled, and the prefetchers follow (R394, R396, R400). -/
def X.demand (k key : Nat) (fill : State → State) : X Unit := do
  let s ← X.st
  let line := key / 64
  if (s.l1dAt k line).isSome then X.upd fill
  else do
    match s.evicting line with
    | some t => if t.inTable && holderOf t.src = clusterOfCore k then X.park (.fabric t.id) else pure ()
    | none => pure ()
    X.evictRoom k line
    X.freeVictims k line
    X.upd fill
    if ((← X.st).l1dAt k line).isSome then X.prefetch k line false else pure ()

/-- A load of a cached line. A hit is answered at once. A miss whose response is outstanding takes a miss register and a table
entry and waits, or merges into the miss of its core to that line; with no register free it stalls (R394, R395). -/
def X.missed (k pa width : Nat) (va : Pay) (hit : Bool) (go : X Word) (m : Met) : X Word := do
  match (← X.grant) with
  | some g => X.granted g pa va go
  | none => do
    let s ← X.st
    if hit && m ≠ .outstanding then go
    else
      match s.missOf k pa with
      | some id => X.park (.fabric id)
      | none =>
        if !s.missRoom k false then X.park .hold
        else if m = .outstanding || !s.canSend k pa .line 64 then X.awaitFabric .line pa width
        else go

/-- Step 6 of R159 for a load of `width` bytes at physical address tr.pa (R37, R39, R41, R46, R94, R404): the word
of memory that holds it, or what a device register answers. -/
def X.loadPhys (tr : Tr) (width : Nat) (va : Pay) (m : Met) : X Word := do
  let s ← X.st
  let x ← X.ctxNo
  let k ← X.core
  let pa := tr.pa
  let loose := s.isLoose x
  if s.isTight x then X.upd (fun s => s.sign (twinOf x) (signLoad pa width))
  let memWord : X Word := do
    X.respond m pa va
    let s ← X.st
    let key := s.key k pa
    X.cacheErrors m k key pa
    let s ← X.st
    X.put ((s.twins.filter (fun e => e.1 ≠ twinOf x && e.2.provisional (key / 64))).foldl (fun s e => s.confirm e.1) s)
    let s ← X.st
    if s.bypassL2 k key tr.cache then X.put (s.cohRead none (key / 64)) else X.demand k key (fun s => s.cacheRead k key)
    let s ← X.st
    X.overlaid pa (s.word key)
  match s.region pa with
  | .unmapped => X.raise (Exc.dataBus 1 va)
  | .keep =>
    if !keepSource k then X.raise (Exc.dataBus 5 va)
    else do
      if s.uncached k (s.key k pa) tr.cache then X.closeWindow
      memWord
  | .dev off =>
    if 0x20 ≤ pageOf off ∧ !s.clOn (pageOf off - 0x20) then X.raise (Exc.dataBus 3 va)
    else if width ≠ 8 then X.raiseSide (Exc.dataBus 2 va) (fun s => s.recErr off k errWidth)
    else do
      X.closeWindow
      let go : X Word := do
        X.respond m pa va
        let s ← X.st
        match s.devLoad k x off with
        | .val v s1 => do X.put s1; X.overlaid pa (Word.raw v)
        | .wait s1 => do X.put s1; X.park (.reg off)
      if loose then
        X.loosePair (.load pa width) (fun g => X.granted g pa va go)
      else X.answered pa width va go m
  | .pcie _ => do
    X.closeWindow
    let go : X Word := do
      X.respond m pa va
      let v ← X.free
      X.overlaid pa (Word.raw v)
    if loose then
      X.loosePair (.load pa width) (fun g => X.granted g pa va go)
    else X.answered pa width va go m
  | _ =>
    let key := s.key k pa
    if loose then
      X.loosePair (.load pa width) (fun g => X.granted g pa va memWord)
    else if s.uncached k key tr.cache then do
      X.closeWindow
      X.answered pa width va memWord m
    else do
      if (s.twin (twinOf x)).hold.any (fun o => match o with
          | .store _ _ p _ _ _ | .heal _ _ p _ _ _ => p / 64 = pa / 64
          | .sev _ _ => false) then X.closeWindow
      X.missed k pa width va (s.l1dAt k (key / 64)).isSome memWord m

/-- A word of memory read by a barrier or a table access by physical address, checked as ring 1 where a PRT check
applies (R361): TLB Protection PRTRING at the instruction otherwise, with the physical address as its fault address, also
inside an element of a long instruction. DESIGN CHOICE (assumption 83): R218 names the element's address e, R361 and R374
the address refused. -/
def X.physRead (pa : Nat) : X Word := do
  let m ← X.met
  let read : X Word := do
    let s ← X.st
    if !s.prtOk 1 pa then X.raise (Exc.prot .load 6 (p64 pa) (Word.rawN pa))
    else X.loadPhys ⟨pa, !(s.prt pa).se⟩ 8 (p64 pa) m
  match (← X.once (do return .word (← read))) with
  | .word w => pure w
  | _ => read

/-! ### The checks before an instruction -/

/-- Static facts of an instruction: its major and minor, its format's fields in use, its ring limit and whether it
breaks a load shadow (R100, R107, R110, R132). -/
structure Meta where
  major : Nat
  minor : Nat := 0
  useD : Bool := true
  useA : Bool := true
  useB : Bool := true
  ringMax : Nat := 3
  ringCause : Nat := 1
  breaker : Bool := false
  deriving DecidableEq, Repr

/-- Step 6 of R109 for format R. -/
def Meta.rsvR (m : Meta) (f : RF) : Bool :=
  f.rsv = 0 && (m.useD || f.d = 0) && (m.useA || f.a = 0) && (m.useB || f.b = 0)

/-- Step 6 of R109 for formats I and M; reserved immediate bits are the instruction's own. -/
def Meta.rsvI (m : Meta) (f : IF) : Bool := (m.useD || f.d = 0) && (m.useA || f.a = 0)

/-- Steps 6 to 8 of R109 in order. -/
def X.decodeChecks (m : Meta) (rsvOk : Bool) : X Unit := do
  let c ← X.ctx
  if !rsvOk then X.raise (Exc.reserved 1)
  else if c.ring > m.ringMax then X.raise (Exc.privilege m.ringCause)
  else if m.breaker && !c.loads.isEmpty then X.raise (Exc.illegal 0x0A)
  else pure ()

/-- The fetch's response: an error, or a correction that is counted (R20, R25, R93, R94). -/
def X.fetchRespond (m : Met) (pa : Nat) (pc : Pay) : X Unit :=
  match m with
  | .errResp => X.raise (Exc.insnBus 4 pc)
  | .meshDouble => X.raise (Exc.mcheck 2 pa)
  | .dramUe => X.raise (Exc.mcheck 1 pa)
  | .meshCorr => do let k ← X.core; X.upd (fun s => s.telem k telMeshCorr (p64 pa))
  | .ddrCorr => do let k ← X.core; X.upd (fun s => s.telem k telDdrCorr (p64 pa))
  | _ => pure ()

/-- The errors of the caches that a fetch meets (R401, R403, R404): a bad L1I line leaves and is fetched again. -/
def X.fetchErrors (m : Met) (k pa : Nat) : X Unit := do
  let s ← X.st
  let line := s.key k pa / 64
  match m with
  | .l1Parity =>
    if (Tbl.look (s.core k).l1i line).isSome then
      X.put ((s.updCore k (fun c => c.l1iDrop line)).telem k telL1Par (p64 pa))
    else pure ()
  | m => X.cacheErrors m k (s.key k pa) pa

/-- What a fetch waits for: its response when it is outstanding, a miss register (R394, R395), or the partner of a loose core
(R496). -/
def X.fetchWait (m : Met) (k pa : Nat) (pc : Pay) : X Unit := do
  match (← X.grant) with
  | some .error => X.raise (Exc.insnBus 4 pc)
  | some .doubleBit => X.raise (Exc.mcheck 2 pa)
  | some .dramUe => X.raise (Exc.mcheck 1 pa)
  | some .poison => X.raise (Exc.mcheck 4 pa)
  | some _ => pure ()
  | none => do
    let s ← X.st
    let x ← X.ctxNo
    let hit := (Tbl.look (s.core k).l1i (s.key k pa / 64)).isSome
    if hit && m ≠ .outstanding then pure ()
    else if s.loosened x pa then X.present (.fetch pa)
    else
      match s.missOf k pa with
      | some id => X.park (.fabric id)
      | none =>
        if !s.missRoom k true then X.park .hold
        else if m = .outstanding || !s.canSend k pa .fetch 64 then X.awaitFabric .fetch pa 64
        else pure ()

/-- The range a fetch reaches: no memory, another cluster's or a dark page, or Keep SRAM of other cores (R37, R39, R46). -/
def X.fetchRegion (k pa : Nat) (pc : Pay) : X Unit := do
  let s ← X.st
  match s.region pa with
  | .unmapped => X.raise (Exc.insnBus 1 pc)
  | .keep => if !keepSource k then X.raise (Exc.insnBus 5 pc) else pure ()
  | .dev off =>
    if 0x20 ≤ pageOf off ∧ !s.clOn (pageOf off - 0x20) then X.raise (Exc.insnBus 3 pc) else pure ()
  | _ => pure ()

/-- A cached fetch takes its line into the L1I; after a miss the lines behind it are prefetched (R391, R400). -/
def X.fetchFill (k line : Nat) : X Unit := do
  if (Tbl.look ((← X.st).core k).l1i line).isSome then X.upd (fun s => s.l1iFill k line)
  else do
    X.evictRoom k line
    X.freeVictims k line
    X.upd (fun s => ((s.confirmLine line).cohRead (some (clusterOfCore k)) line).l1iFill k line)
    if (Tbl.look ((← X.st).core k).l1i line).isSome then X.prefetch k line true else pure ()

/-- The fetch at PC (R37, R39, R87, R97, R371): exceptions of the instruction's own address, what its response meets, and the
L1I fill. -/
def X.fetch (pc : Pay) : X Unit := do
  let c ← X.ctx
  let k ← X.core
  let m := (← get).at_.fetch
  let tr ← X.lookup c.ring .fetch pc (if m = .tlbParity then .tlbParity else .clean)
  X.fetchRegion k tr.pa pc
  X.fetchWait m k tr.pa pc
  X.fetchRespond m tr.pa pc
  match (← X.st).region tr.pa with
  | .dev _ | .pcie _ => X.raise (Exc.illegal 1)
  | _ => X.fetchErrors m k tr.pa
  let s ← X.st
  if tr.cache && !s.loosened (← X.ctxNo) tr.pa then X.fetchFill k (s.key k tr.pa / 64) else pure ()

/-! ### Exceptions of an instruction -/

/-- The entry that the first store of a frame push finds has bad parity (R369): an unlocked one is invalid afterwards, so that
the push misses; a locked one fails the push. -/
def State.pushParity (s : State) (x : Nat) (pc : Pay) (e : Exc) : State :=
  let c := s.ctx x
  let t := (s.target x e.vec c.ring).ring
  let sp := c.sp (spNo t (if t = c.ring then c.em else false))
  let core := s.core (s.coreOf x)
  match (if t ≤ 1 ∧ !c.te then none else core.tlbFind (sp - 64).toNat (fld (c.sp Sr.asid) 11 0)) with
  | none => s.takeExc x pc e
  | some i =>
    if (core.ent i).l then s.doubleFault x t pc e 1 (sp - 64)
    else (s.updCore (s.coreOf x) (fun c => c.setEnt i (c.ent i).inval)).takeExc x pc e

/-- The read of an exception's vector entry fails: Double Fault, VECTOR, at the ring that R441 gives. -/
def State.vectorUnread (s : State) (x : Nat) (pc : Pay) (e : Exc) : State :=
  let r := (s.ctx x).ring
  s.doubleFault x (min r 1) pc e 3 (p64 (s.entryAddr x (r = 0) e.vec))

/-- Entry for an exception that an instruction issued as `at_` says raises. -/
def State.enterExc (s : State) (x : Nat) (pc : Pay) (e : Exc) (at_ : At) : State :=
  if at_.vecBad ∧ !(s.ctx x).tb then s.vectorUnread x pc e
  else if at_.pushPar then s.pushParity x pc e else s.takeExc x pc e

/-- What an instruction does beyond its registers: go on in sequence, with a load pending, or transfer. -/
inductive Flow where
  /-- the next instruction in sequence -/
  | seq
  /-- a load-class instruction: its destination and value become pending (R127) -/
  | load (d : BitVec 5) (w : Word)
  /-- control transferred to an address (R182) -/
  | jump (t : Pay)
  /-- the instruction has set every context field itself -/
  | stay

/-- The addresses that an instruction of `size` bytes at pc occupies (R180). -/
def slotsOf (pc : Pay) (size : Nat) : List Pay := if size = 8 then [pc, pc + 4] else [pc]

end Sys2Proof.Machine
end

