-- ==== Sys2Proof/Machine/Operands.lean ====
section
/-!
DEFINITION. Operand forms: the Tag Trap of an instruction (R145, R813), stored values (R57, R63, R84), and the effective address (R157, R158,
R159 steps 1, 3 and 4).
-/
namespace Sys2Proof.Machine

/-! ### Tag Traps -/

/-- Raise a Tag Trap; the tag of an operand that the instruction does not have is a free value (assumption 3). -/
def X.tagTrap {α : Type} (op reason mask : Nat) (ta tb : Option (BitVec 8)) (fa : Pay := 0) : X α := fun r =>
  let v := r.s.free
  let f (o : Option (BitVec 8)) (k : Nat) : BitVec 8 := o.getD (BitVec.ofNat 8 (v.1.toNat / 2 ^ k))
  let side : State → State := if ta.isSome ∧ tb.isSome then id else fun s => s.free.2
  .error (.exc (Exc.tagTrap op reason mask (f ta 0) (f tb 8) fa) side false) r

/-- TYPE, or CLASS10 when some operand is class 10, with the mask of the operands not accepted (R140, R813). `bits`
lists mask bit, tag and whether it is accepted. -/
def tagCheck (bits : List (Nat × BitVec 8 × Bool)) : Option (Nat × Nat) :=
  let c10 := (bits.filter (fun b => isClass10 b.2.1 && !b.2.2)).foldl (fun m b => m + b.1) 0
  let bad := (bits.filter (fun b => !b.2.2)).foldl (fun m b => m + b.1) 0
  if c10 ≠ 0 then some (rClass10, c10) else if bad ≠ 0 then some (rType, bad) else none

/-- The tag check of a two-operand instruction. -/
def X.check2 (op : Nat) (a b : Word) (okA okB : BitVec 8 → Bool) : X Unit :=
  match tagCheck [(1, a.tag, okA a.tag), (2, b.tag, okB b.tag)] with
  | some (rs, m) => X.tagTrap op rs m (some a.tag) (some b.tag)
  | none => pure ()

/-- The tag check of a one-operand instruction. -/
def X.check1 (op : Nat) (a : Word) (okA : BitVec 8 → Bool) : X Unit :=
  match tagCheck [(1, a.tag, okA a.tag)] with
  | some (rs, m) => X.tagTrap op rs m (some a.tag) none
  | none => pure ()

/-! ### Payloads used -/

/-- R57: a word about to be written to a register must not carry a reserved tag. -/
def X.writable (w : Word) : X Unit := if isReservedTag w.tag then X.raise (Exc.reserved 2) else pure ()

/-- R59, R60: the payload of an operand is used, so it must have the form of its tag (assumption 86). -/
def X.used (w : Word) : X Unit := if immForm w then pure () else X.raise (Exc.reserved 3)

/-- A register whose payload an instruction of any operand tag uses. -/
def X.rdUsed (r : BitVec 5) : X Word := do
  let w ← X.rd r
  X.used w
  return w

/-! ### Stored values -/

/-- The checks of a stored value: reserved code (R57), class 10 above ring 1 (R84), pointer form (R63, R65). -/
def storedValue (ring : Nat) (v : Word) : Option Exc :=
  if isReservedTag v.tag then some (Exc.reserved 2)
  else if isClass10 v.tag ∧ ring ≥ 2 then some (Exc.privilege 3)
  else if v.tag = Tag.pref then (if fld v.pay 63 48 ≠ 0 then some (Exc.addrForm 1 v.pay) else none)
  else if isPtrTag v.tag then ptrForm v.pay
  else none

def X.orRaise (o : Option Exc) : X Unit := match o with | some e => X.raise e | none => pure ()

/-! ### Effective addresses -/

/-- Step 1 of R159 (R157, R62, R65): the base tag; `tb` is the tag of operand B, for an instruction that has one. -/
def X.baseTag (op : Nat) (a : Word) (tb : Option (BitVec 8) := none) : X Unit := do
  let ring ← X.ring
  if isBasePtr a.tag then X.orRaise (ptrForm a.pay)
  else if a.tag = Tag.pref then (if fld a.pay 63 48 ≠ 0 then X.raise (Exc.addrForm 1 a.pay) else pure ())
  else if a.tag = Tag.raw then (if ring = 3 then X.raise (Exc.privilege 4) else pure ())
  else if a.tag = Tag.weak then X.tagTrap op rWeak 1 (some a.tag) tb
  else X.tagTrap op (if isClass10 a.tag then rClass10 else rType) 1 (some a.tag) tb

/-- Step 3 of R159 (R158): form and alignment of the effective address, or of the offset within a PREF's block. -/
def X.eaForm (a : Word) (disp : Pay) (width : Nat) : X Unit :=
  if a.tag = Tag.pref then
    let off : Int := (8 * prefWoff a.pay : Nat) + disp.toInt
    if off < 0 ∨ off > 65536 - (width : Int) then X.raise (Exc.addrForm 2 (BitVec.ofInt 64 off))
    else if off.toNat % width ≠ 0 then X.raise (Exc.align 2 (BitVec.ofInt 64 off))
    else pure ()
  else
    let ea := a.pay + disp
    if fld ea 63 48 ≠ 0 then X.raise (Exc.addrForm 2 ea)
    else if ea.toNat % width ≠ 0 then X.raise (Exc.align 2 ea)
    else pure ()

/-- Step 4 of R159: the virtual address, with a PREF base resolved (R581); an uncorrectable error
in its map word sets STO_STAT.MAPUE (R609), and an ORC entry with bad parity is invalid (R586). -/
def X.eaAddr (a : Word) (disp : Pay) (store : Bool) : X Pay := do
  if a.tag = Tag.pref then
    let lost ← X.grantIs .noBlock
    let s ← X.st
    let x ← X.ctxNo
    let r ← get
    if r.at_.met = .dramUe ∧ r.acc = r.at_.nth ∧ s.readsMap x a.pay then
      X.raiseSide (prefErr 0x0B a.pay) (fun s => s.mapLost (prefBlock a.pay))
    let s := if r.at_.met = .orcParity ∧ r.acc = r.at_.nth then s.orcForget x (prefBlock a.pay) else s
    match s.resolvePref x a.pay store lost with
    | .va v s1 => do X.put s1; pure (v + disp)
    | .exc e => X.raise e
    | .park b s1 => do X.put s1; X.park (.pref b)
  else pure (a.pay + disp)

end Sys2Proof.Machine
end

