-- ==== Sys2Proof/Machine/Barrier.lean ====
section
/-!
DEFINITION. Heaps and regions as a core meets them (R290 to R304), the read barrier with healing (R305 to R307), the
write barrier with SATB entries and card marks (R308 to R312).
-/
namespace Sys2Proof.Machine

/-! ### Region entries as a core reads them -/

/-- Word 0 of region idx's entry as the executing core reads it, by RTB.BASE (R300, R302, R361). -/
def X.regionWord (idx : Nat) : X Pay := do
  let s ← X.st
  let k ← X.core
  let b := fld ((s.core k).sp Sr.rtb) 47 16 * 0x10000
  let w ← X.physRead (b + 16 * idx)
  pure w.pay

/-- The heap that a word points into at the executing core. -/
def X.heapOf (w : Word) : X (Option Nat) := do
  let s ← X.st
  let x ← X.ctxNo
  pure (s.heapPtr (s.hen x) w)

/-- Evacuate (R315). DESIGN CHOICE (assumption 83): also where an element of a long instruction raises it, the fault address is
the object address that R315 names, not the element's address e of R218; and a Machine Check there keeps the physical address
or zero of R452. -/
def evacuate (cause : Nat) (obj : Pay) (idx : Nat) (ea : Pay) : Exc :=
  { vec := 21, cause := p64 cause, fa := obj, x0 := Word.rawN idx, x1 := Word.raw (if cause = 3 ∨ cause = 4 then 0 else ea) }

/-- An access that needs an object copied out of an evacuating region: park, or Evacuate with `cause` (1 for a loaded
pointer, 2 for a store through a base) when ECOPY is 0, or cause 4 when the engine could not copy (R305, R315, R332). -/
def X.needCopy {α : Type} (obj : Pay) (idx : Nat) (rt : Pay) (cause : Nat) (ea : Pay) : X α := do
  if (← X.grantIs .noCopy) then X.raise (evacuate 4 obj idx ea)
  else if rtEcopy rt then do
    let x ← X.ctxNo
    X.upd (fun s => s.askCopy (rtOwner rt) obj.toNat x)
    X.park (.copy obj.toNat)
  else X.raise (evacuate cause obj idx ea)

/-- The access check of R303 and R304 for an access at `va` through base `a`: the address to use. `store` includes the
header read of VSET and BSET. -/
def X.accessCheck (a : Word) (va : Pay) (store : Bool) : X Pay := do
  let viaBase ← (if isBasePtr a.tag then X.heapOf a else pure none)
  match viaBase with
  | some h => do
    let s ← X.st
    let idx := s.regionIdx h a.pay.toNat
    let rt ← X.regionWord idx
    if rtState rt ≠ rgEvac then pure va
    else do
      let first ← X.physRead (s.heapPhys h a.pay.toNat)
      if first.tag = Tag.fwd then pure (first.pay + (va - a.pay))
      else if store then X.needCopy a.pay idx rt 2 va
      else pure va
  | none => do
    let s ← X.st
    let x ← X.ctxNo
    match s.heapAt (s.hen x) va.toNat with
    | none => pure va
    | some h => do
      let idx := s.regionIdx h va.toNat
      let rt ← X.regionWord idx
      if rtState rt = rgEvac then X.raise (evacuate 5 va idx va) else pure va

/-! ### Card marks (R309) -/

/-- The card byte that a store of `v` into the slot at `va` marks, if any (R308). -/
def X.cardOf (va : Pay) (v : Word) : X (Option Nat) := do
  let s ← X.st
  let x ← X.ctxNo
  match s.heapAt (s.hen x) va.toNat, s.heapPtr (s.hen x) v with
  | some h, some hv => do
    let rs ← X.regionWord (s.regionIdx h va.toNat)
    let rv ← X.regionWord (s.regionIdx hv v.pay.toNat)
    if rtGen rv < rtGen rs then pure (some (s.cardAddr h va.toNat rs)) else pure none
  | _, _ => pure none

/-- The same with the check of R361 on the card byte. -/
def X.cardPlan (va : Pay) (v : Word) : X (Option Nat) := do
  match (← X.cardOf va v) with
  | none => pure none
  | some pa => do
    let s ← X.st
    if !s.prtOk 1 pa then X.raise (Exc.prot .store 6 (p64 pa) (Word.rawN pa)) else pure (some pa)

/-- A card mark is a physical store of the byte 0x01 (R309). -/
def X.markCard (pa : Option Nat) : X Unit := do
  match pa with
  | none => pure ()
  | some p => do
    let c ← X.ctx
    let x ← X.ctxNo
    X.upd (fun s => s.postStore x ⟨p, !(s.prt p).se⟩ 1 (Word.raw 1) c.pc)

/-! ### Posting (R18, R20, R47, R397, R455) -/

/-- A store to the word or line at pa stands in the store buffer of core k, so that a later one follows it (R422). -/
def State.bufferedAt (s : State) (k pa : Nat) : Bool :=
  s.txns.any (fun t => t.src = k && t.kind = .store && !t.arrived && t.pa / 64 = pa / 64)

/-- A posted store of context x is kept in the store buffer: the command says that its acknowledgement is outstanding, its
request finds no room (R16, R17, R23), or an earlier store stands before it (R18, R422). In tight mode the hold buffer takes
its place, and in loose mode the comparator's queue (R491, R496). -/
def State.buffers (s : State) (x : Nat) (tr : Tr) (m : Met) : Bool :=
  let k := s.coreOf x
  let far := match s.region tr.pa with | .dev _ | .pcie _ => true | _ => false
  !s.isTight x && !s.isLoose x
    && (m = .outstanding || s.bufferedAt k tr.pa || (far && (s.behindStores k tr.pa || !s.canSend k tr.pa .store 8)))

/-- A store that finds no entry in the store buffer stalls its context (R397). -/
def X.bufferRoom (tr : Tr) (m : Met) : X Unit := do
  let s ← X.st
  let x ← X.ctxNo
  let k ← X.core
  if s.buffers x tr m && !s.storeRoom k x then X.park .hold else pure ()

/-- The store leaves as a posted store. An error response makes it a Store Bus Error (R20, R25, R455); a correction in the mesh
or in DRAM is counted (R20, R93). -/
def X.emit (tr : Tr) (width : Nat) (v : Word) (m : Met) : X Unit := do
  let x ← X.ctxNo
  let k ← X.core
  let c ← X.ctx
  match m with
  | .errResp | .meshDouble => X.upd (fun s => s.recSbe x 5 tr.pa c.pc)
  | m => do
    match m with
    | .meshCorr => X.upd (fun s => s.telem k telMeshCorr (p64 tr.pa))
    | .ddrCorr => X.upd (fun s => s.telem k telDdrCorr (p64 tr.pa))
    | _ => pure ()
    X.upd (fun s =>
      if s.buffers x tr m then (s.sendReq k x tr.pa width .store (some (.store x k tr.pa width v c.pc))).2
      else s.postStore x tr width v c.pc)

/-! ### The read barrier (R305, R306) -/

/-- The store translation of a heal: none where the slot grants no W at the ring (R306, R374); bad parity in its entry is a
miss, or a Machine Check for a locked entry (R369). -/
def X.healTr (va : Pay) (m : Met) : X (Option Tr) := do
  let s ← X.st
  let x ← X.ctxNo
  let c ← X.ctx
  let core := s.core (s.coreOf x)
  let hit := if c.ring ≤ 1 ∧ !c.te then none else core.tlbFind va.toNat (fld (c.sp Sr.asid) 11 0)
  match m, hit with
  | .tlbParity, some i =>
    if (core.ent i).l then X.raise (Exc.mcheck 5 0)
    else do
      X.upd (fun s => s.updCore (s.coreOf x) (fun c => c.setEnt i (c.ent i).inval))
      pure none
  | _, _ => pure ((s.translate x c.ring .store va).toOption)

/-- Heal the slot at `va` from p to q (R306): the slot's card is marked whatever the generations. The heal is an access of its
own (R338). -/
def X.heal (va : Pay) (p q : Word) : X Unit := do
  let m ← X.met
  match (← X.healTr va m) with
  | none => pure ()
  | some tr => do
    let s ← X.st
    let x ← X.ctxNo
    let c ← X.ctx
    let k ← X.core
    let card ← (match s.heapAt (s.hen x) va.toNat with
      | some h => do
        let rs ← X.regionWord (s.regionIdx h va.toNat)
        let pa := s.cardAddr h va.toNat rs
        if !s.prtOk 1 pa then X.raise (Exc.prot .store 6 (p64 pa) (Word.rawN pa)) else pure (some pa)
      | none => pure none)
    let key := s.key k tr.pa
    if (s.region tr.pa).isRam && (s.word key = p || s.uncached k key tr.cache) then do
      X.upd (fun s => s.postHeal x tr p q c.pc)
      X.markCard card
    else pure ()

/-- The word a loaded word becomes: `p` loaded from the slot at `va` (R305). -/
def X.readBarrier (p : Word) (va : Pay) : X Word := do
  match (← X.heapOf p) with
  | none => pure p
  | some h => do
    let s ← X.st
    let idx := s.regionIdx h p.pay.toNat
    let rt ← X.regionWord idx
    if rtState rt = rgFree then X.raise (evacuate 3 p.pay idx 0)
    else if rtState rt ≠ rgEvac then pure p
    else do
      let first ← X.physRead (s.heapPhys h p.pay.toNat)
      if first.tag = Tag.fwd then do
        let q : Word := ⟨p.tag, first.pay⟩
        X.heal va p q
        pure q
      else X.needCopy p.pay idx rt 1 va

/-! ### The write barrier (R308 to R312) -/

/-- The SATB entries that a store replacing `o` by `v` in the slot at physical address `slot` needs (R308, R311). -/
def State.satbEntries (s : State) (x : Nat) (o v : Word) (slot : Nat) : List Word :=
  let en := s.hen x
  let old := match s.heapPtr en o with
    | some h => if o.tag ≠ Tag.weak ∧ s.satbOn x h then [o] else []
    | none => []
  let wk := match s.heapPtr en v with
    | some h => if v.tag = Tag.weak ∧ s.satbOn x h then [Word.raw (atFld 35 3 (slot / 8))] else []
    | none => []
  old ++ wk

/-- Barrier Queue Full (R312). -/
def barrierFull (cause k : Nat) (ea : Pay) : Exc := { vec := 20, cause := p64 cause, fa := ea, x0 := Word.rawN k }

/-- The check that k more entries fit and may be written (R308, R312). -/
def X.satbRoom (k : Nat) (ea : Pay) : X Unit := do
  let s ← X.st
  let c ← X.ctx
  let t := (c.sp Sr.sqt).toNat
  if t + 8 * k > (c.sp Sr.sql).toNat then X.raise (barrierFull 1 k ea)
  else if (List.range k).any (fun i => s.region (t + 8 * i) ≠ .dram || !s.prtOk 1 (t + 8 * i)) then X.raise (barrierFull 2 k ea)
  else pure ()

/-- Push entries at SQT (R308), remembering the SQT of the last confirmed window in tight mode (R314). -/
def X.satbPush (es : List Word) : X Unit := do
  let x ← X.ctxNo
  let c ← X.ctx
  let t := c.sp Sr.sqt
  if es.isEmpty then pure ()
  else do
    X.upd (fun s => if s.isTight x then s.updTwin (twinOf x) (fun w =>
      if (Tbl.look w.sqtConf x).isSome then w else { w with sqtConf := Tbl.insert w.sqtConf x t }) else s)
    X.upd (fun s => (List.range es.length).foldl (fun s i =>
      s.postStore x ⟨t.toNat + 8 * i, !(s.prt (t.toNat + 8 * i)).se⟩ 8 (es.getD i Word.nil) c.pc) s)
    X.upd (fun s => s.updCtx x (fun c => c.setSp Sr.sqt (t + p64 (8 * es.length))))

/-- The value part of the write barrier: Evacuate for a free region, forwarding of an evacuated target (R308). A released store
has made its checks at its micro-op, so that it never traps (`trap` false; R270). -/
def X.barrierValue (v : Word) (trap : Bool) : X Word := do
  match (← X.heapOf v) with
  | none => pure v
  | some h => do
    let s ← X.st
    let idx := s.regionIdx h v.pay.toNat
    let rt ← X.regionWord idx
    if rtState rt = rgFree ∧ trap then X.raise (evacuate 3 v.pay idx 0)
    else if rtState rt = rgEvac then do
      let first ← X.physRead (s.heapPhys h v.pay.toNat)
      pure (if first.tag = Tag.fwd then ⟨v.tag, first.pay⟩ else v)
    else pure v

/-- The whole write barrier at step 8 of R159 for a store of `v` at `va`/`tr`, replacing `o`; then the write itself,
as a store of `width` (8, or 9 for STT), whose response is `m`. -/
def X.barrierStore (va : Pay) (tr : Tr) (width : Nat) (o v : Word) (m : Met) : X Unit := do
  let x ← X.ctxNo
  let v1 ← X.barrierValue v true
  let s ← X.st
  let es := s.satbEntries x o v1 tr.pa
  X.satbRoom es.length va
  let card ← X.cardPlan va v1
  X.emit tr (if v1.pay = v.pay then width else 8) v1 m
  X.satbPush es
  X.markCard card

/-- The write barrier of a held store at its release (R268, R270): as `barrierStore`, but its checks were made at the micro-op.
The card to mark is looked up again, since the regions may have changed. -/
def X.barrierRelease (va : Pay) (tr : Tr) (width : Nat) (o v : Word) (m : Met) : X Unit := do
  let x ← X.ctxNo
  let v1 ← X.barrierValue v false
  let s ← X.st
  let es := s.satbEntries x o v1 tr.pa
  let card ← X.cardOf va v1
  X.emit tr (if v1.pay = v.pay then width else 8) v1 m
  X.satbPush es
  X.markCard card

end Sys2Proof.Machine
end

