-- ==== Sys2Proof/Machine/LoadStore.lean ====
section
/-!
DEFINITION. Loads and stores (R157 to R163, R376 to R378, R405): their shared parts over operand words, then one
meaning per instruction of majors 0x10 to 0x1D.
-/
namespace Sys2Proof.Machine

/-- Steps 1, 3, 4 and the access check of R303 for one access through base `a`; `chk` is step 2 (R159). -/
def X.effective (op : Nat) (a : Word) (disp : Pay) (width : Nat) (store checked : Bool) (chk : X Unit)
    (tb : Option (BitVec 8) := none) : X Pay := do
  X.baseTag op a tb
  chk
  X.eaForm a disp width
  let va ← X.eaAddr a disp store
  if checked then X.accessCheck a va store else pure va

/-- A load up to step 6: the word met and the virtual address used. -/
def X.loadAt (op : Nat) (a : Word) (disp : Pay) (width : Nat) (checked : Bool) : X (Word × Pay) := do
  let va ← X.effective op a disp width false checked (pure ())
  let ring ← X.ring
  let m ← X.met
  let tr ← X.translate ring .load va m
  let w ← X.loadPhys tr width va m
  pure (w, va)

/-- R58, R76: a word about to be delivered; `tb` is the tag of operand B, for an instruction that has one. -/
def X.deliverable (op : Nat) (a w : Word) (va : Pay) (tb : Option (BitVec 8) := none) : X Unit :=
  if isReservedTag w.tag then X.raise (Exc.reserved 2)
  else if w.tag = Tag.trap then X.tagTrap op rTrapw 0 (some a.tag) tb va
  else pure ()

/-- LD (R160): deliverable word, read barrier. -/
def X.ld (op : Nat) (a : Word) (disp : Pay) : X Word := do
  let (w, va) ← X.loadAt op a disp 8 true
  X.deliverable op a w va
  X.readBarrier w va

/-- LDT (R160). -/
def X.ldt (op : Nat) (a : Word) (disp : Pay) : X Word := do
  let (w, _) ← X.loadAt op a disp 8 true
  pure (Word.fixN w.tag.toNat)

/-- L8, L16, L32 (R160): the addressed bytes, zero-extended; TRAPW for a TRAP word. -/
def X.lpart (op : Nat) (a : Word) (disp : Pay) (width : Nat) : X Word := do
  let (w, va) ← X.loadAt op a disp width true
  if w.tag = Tag.trap then X.tagTrap op rTrapw 0 (some a.tag) none va
  else pure (Word.fix (getBytes w.pay (va.toNat % 8) width))

/-- Step 6 of R159 for a store: precise errors of the cache (R402 to R404), the line of a cached store, and whether the word is
met at all: posted errors (R37, R39, R41, R43, R46) come later as Store Bus Errors. `none` means that no word stands there
that the store could replace. -/
def X.storeMeets (tr : Tr) (m : Met) : X (Option Word) := do
  let s ← X.st
  let k ← X.core
  let key := s.key k tr.pa
  X.bufferRoom tr m
  if (s.region tr.pa).isRam && (s.region tr.pa ≠ .keep || keepSource k) then do
    X.cacheErrors m k key tr.pa
    let s ← X.st
    if !s.uncached k key tr.cache then X.demand k key (fun s => s.cacheRead k key) else pure ()
    let s ← X.st
    return some (← X.overlaid tr.pa (s.word key))
  else if s.region tr.pa = .rom then return some (s.word key)
  else pure none

/-- The stores the instruction holds, when it is a customer slot instruction. -/
def X.holding : X (Option (List HeldStore)) := fun r => .ok r.held r

/-- Hold one more store (R268). -/
def X.hold (h : HeldStore) : X Unit := fun r => .ok () { r with held := r.held.map (· ++ [h]) }

/-- A store joins the held ones: an error response is kept with it; every check of its barrier is made now, room for every held
SATB entry included, so that its release never traps (R270). -/
def X.holdStore (hs : List HeldStore) (va : Pay) (tr : Tr) (width : Nat) (v : Word) (m : Met) (old : Option Word)
    (barrier : Bool) : X Unit := do
  let x ← X.ctxNo
  let k ← (if barrier then do
      let v1 ← X.barrierValue v true
      let _ ← X.cardPlan va v1
      let s ← X.st
      pure (s.satbEntries x (old.getD (Word.raw 0)) v1 tr.pa).length
    else pure 0)
  if k ≠ 0 then X.satbRoom (hs.foldl (fun n h => n + h.k) k) va else pure ()
  X.hold ⟨va, tr.pa, tr.cache, width, v, barrier, old.isSome, k, m = .errResp || m = .meshDouble⟩

/-- A whole-word store with the write barrier, after step 5; what a register or window holds is no heap pointer. -/
def X.storeWord (va : Pay) (tr : Tr) (v : Word) (m : Met) : X Unit := do
  let old ← X.storeMeets tr m
  match (← X.holding) with
  | some hs => X.holdStore hs va tr 8 v m old true
  | none =>
  X.barrierStore va tr 8 (old.getD (Word.raw 0)) v m

/-- A partial store after step 5 (R88). -/
def X.storePart (op : Nat) (a : Word) (va : Pay) (tr : Tr) (width : Nat) (v : Word) (m : Met)
    (tb : Option (BitVec 8) := none) : X Unit := do
  let s ← X.st
  let o ← X.storeMeets tr m
  match o with
  | some w => if isRawFix w.tag || s.region tr.pa = .rom then pure () else X.tagTrap op rPart 0 (some a.tag) tb va
  | none => pure ()
  match (← X.holding) with
  | some hs => X.holdStore hs va tr width v m o false
  | none => X.emit tr width v m

/-- Address and translation of a store: steps 1 to 5 of R159. -/
def X.storeAt (op : Nat) (a : Word) (disp : Pay) (width : Nat) (chk : X Unit) (tb : Option (BitVec 8) := none) :
    X (Pay × Tr × Met) := do
  let va ← X.effective op a disp width true true chk tb
  let ring ← X.ring
  let m ← X.met
  let tr ← X.translate ring .store va m
  pure (va, tr, m)

/-- ST (R160). -/
def X.stw (op : Nat) (a : Word) (disp : Pay) (v : Word) (tb : Option (BitVec 8) := none) : X Unit := do
  let ring ← X.ring
  let (va, tr, m) ← X.storeAt op a disp 8 (X.orRaise (storedValue ring v)) tb
  X.storeWord va tr v m

/-- S8, S16, S32 (R160). -/
def X.spart (op : Nat) (a : Word) (disp : Pay) (width : Nat) (v : Word) : X Unit := do
  let chk : X Unit := match tagCheck [(4, v.tag, isRawFix v.tag)] with
    | some (rs, mk) => X.tagTrap op rs mk (some a.tag) none
    | none => pure ()
  let (va, tr, m) ← X.storeAt op a disp width chk
  X.storePart op a va tr width v m

/-- The value checks of STT (R161). -/
def X.sttValue (op : Nat) (a v : Word) : X Unit := do
  let ring ← X.ring
  match tagCheck [(4, v.tag, v.tag = Tag.fix)] with
  | some (rs, mk) => X.tagTrap op rs mk (some a.tag) none
  | none =>
    if v.pay.toNat > 255 then X.tagTrap op rRange 4 (some a.tag) none
    else
      let t := BitVec.ofNat 8 v.pay.toNat
      if isReservedTag t then X.raise (Exc.reserved 2)
      else if isClass10 t ∧ ring ≥ 2 then X.raise (Exc.privilege 3)
      else if t.toNat / 64 = 1 ∧ ring = 3 then X.raise (Exc.privilege 3)
      else pure ()

/-- STT (R160, R161): the new tag over the payload in memory, checked at step 7 (R63, R65). -/
def X.stt (op : Nat) (a : Word) (disp : Pay) (v : Word) : X Unit := do
  let (va, tr, m) ← X.storeAt op a disp 8 (X.sttValue op a v)
  let t := BitVec.ofNat 8 v.pay.toNat
  match (← X.storeMeets tr m) with
  | some o => do
    let w : Word := ⟨t, o.pay⟩
    if t = Tag.pref then (if fld w.pay 63 48 ≠ 0 then X.raise (Exc.addrForm 1 w.pay) else pure ())
    else if isPtrTag t then X.orRaise (ptrForm w.pay)
    else pure ()
    X.barrierStore va tr 9 o w m
  | none => X.emit tr 9 ⟨t, 0⟩ m

/-! ### One meaning per instruction -/

abbrev opLS : Nat := 27

def opLd (d a : BitVec 5) (disp : Pay) : X Flow := do return .load d (← X.ld opLS (← X.rd a) disp)
def opLdt (d a : BitVec 5) (disp : Pay) : X Flow := do return .load d (← X.ldt opLS (← X.rd a) disp)
/-- LDX (R160): no TRAPW, no barrier, no access check. -/
def opLdx (d a : BitVec 5) (disp : Pay) : X Flow := do
  let (w, _) ← X.loadAt opLS (← X.rd a) disp 8 false
  if isReservedTag w.tag then X.raise (Exc.reserved 2) else pure (.load d w)
def opL8 (d a : BitVec 5) (disp : Pay) : X Flow := do return .load d (← X.lpart opLS (← X.rd a) disp 1)
def opL16 (d a : BitVec 5) (disp : Pay) : X Flow := do return .load d (← X.lpart opLS (← X.rd a) disp 2)
def opL32 (d a : BitVec 5) (disp : Pay) : X Flow := do return .load d (← X.lpart opLS (← X.rd a) disp 4)
def opSt (d a : BitVec 5) (disp : Pay) : X Flow := do X.stw opLS (← X.rd a) disp (← X.rd d); return .seq
def opStt (d a : BitVec 5) (disp : Pay) : X Flow := do X.stt opLS (← X.rd a) disp (← X.rd d); return .seq
def opS8 (d a : BitVec 5) (disp : Pay) : X Flow := do X.spart opLS (← X.rd a) disp 1 (← X.rd d); return .seq
def opS16 (d a : BitVec 5) (disp : Pay) : X Flow := do X.spart opLS (← X.rd a) disp 2 (← X.rd d); return .seq
def opS32 (d a : BitVec 5) (disp : Pay) : X Flow := do X.spart opLS (← X.rd a) disp 4 (← X.rd d); return .seq

/-- A tag entry that cannot be read is good again for the set of `line`, where no entry of the cluster names the line (R403,
R404). -/
def State.clearTagBad (s : State) (line : Nat) : State :=
  s.clusterList.foldl (fun s n => if (s.l2At n line).isNone && (s.cluster n).tagBad.any (fun b => b.1 = line % 4096) then
    s.updCluster n (fun c => { c with tagBad := c.tagBad.filter (fun b => b.1 ≠ line % 4096) }) else s) s

/-- Every L2 copy of a line loses its poison (R404, R405). -/
def State.unpoison (s0 : State) (line : Nat) : State :=
  let s := s0.clearTagBad line
  s.clusterList.foldl (fun s n => match s.l2At n line with
    | some m => if m.poison then s.updCluster n (fun c => { c with l2 := Tbl.insert c.l2 line { m with poison := false } }) else s
    | none => s) s

/-- ZAL (R160, R304, R405): closes the window, then FIX : 0 in all eight words. -/
def opZal (_d a : BitVec 5) (disp : Pay) : X Flow := do
  let w ← X.rd a
  X.baseTag opLS w
  X.eaForm w disp 64
  let va0 ← X.eaAddr w disp true
  let va ← X.accessCheck (if w.tag = Tag.pref then w else Word.raw va0) va0 true
  let ring ← X.ring
  let m ← X.met
  let tr ← X.translate ring .store va m
  X.bufferRoom tr m
  X.closeWindow
  let k ← X.core
  X.upd (fun s => s.unpoison (s.key k tr.pa / 64))
  X.emit tr 64 (Word.fix 0) m
  return .seq

/-! ### Walk loads (R376 to R378) -/

/-- Walk Fault (R378). -/
def walkFault (sub : Nat) (ea : Pay) (pa : Option Nat) : Exc :=
  { vec := 11, cause := p64 sub, fa := ea, x0 := Word.rawN (pa.getD 0) }

/-- Run `m` with `e` in place of a Data Bus Error for an error response or timeout (R377). -/
def X.onBusError {α : Type} (e : Exc) (m : X α) : X α := fun r =>
  match m r with
  | .error (.exc e1 side keep) r1 =>
    .error (.exc (if e1.vec = 13 ∧ fld e1.cause 7 0 = 4 then e else e1) side keep) r1
  | out => out

/-- The physical part of a walk load (R377): PROT for the ceiling, DEVICE, BUS, then the word. -/
def X.walkPhys (ea : Pay) (pa : Nat) (cache : Bool) (m : Met) : X Word := do
  let s ← X.st
  let ring ← X.ring
  if !s.prtOk ring pa then X.raise (walkFault 4 ea none)
  else if (s.prt pa).se then X.raise (walkFault 2 ea (some pa))
  else if s.region pa = .unmapped then X.raise (walkFault 1 ea (some pa))
  else do
    let w ← X.onBusError (walkFault 1 ea (some pa)) (X.loadPhys ⟨pa, cache⟩ 8 ea m)
    if isReservedTag w.tag then X.raise (Exc.reserved 2) else pure w

/-- LDW (R376). -/
def opLdw (d a : BitVec 5) (disp : Pay) : X Flow := do
  let ea ← X.effective opLS (← X.rd a) disp 8 false false (pure ())
  let m ← X.met
  let s ← X.st
  let pa := ea.toNat % 2 ^ 48
  return .load d (← X.walkPhys ea pa (!(s.prt pa).se) m)

/-- LDWT (R376, R377): through the main TLB whatever TE holds. -/
def opLdwt (d a : BitVec 5) (disp : Pay) : X Flow := do
  let ea ← X.effective opLS (← X.rd a) disp 8 false false (pure ())
  let m ← X.met
  let c ← X.ctx
  let s ← X.st
  let k ← X.core
  match (s.core k).tlbFind ea.toNat (fld (c.sp Sr.asid) 11 0) with
  | none => X.raise (walkFault 3 ea none)
  | some i =>
    let e := (s.core k).ent i
    if m = .tlbParity then
      (if e.l then X.raise (Exc.mcheck 5 0)
       else X.raiseSide (walkFault 3 ea none) (fun s => s.updCore k (fun c => c.setEnt i (c.ent i).inval)))
    else
      match e.denies .load c.ring c.sgo with
      | some _ => X.raise (walkFault 4 ea none)
      | none => return .load d (← X.walkPhys ea (e.phys ea.toNat) e.c m)

end Sys2Proof.Machine
end

