-- ==== Sys2Proof/Machine/UcsLoad.lean ====
section
/-!
DEFINITION. Loading customer slots (R261, R265 to R267, R282 to R287): the validation of an image, the start of a
load or clear by a write of UCS, and its completion at the target twins.
-/
namespace Sys2Proof.Machine

/-- The fields a micro-op uses (R266, R267): destination or stored value, base, second operand (register or
immediate), immediate alone, and branch target. -/
structure UopUse where
  dst : Bool := false
  sa : Bool := false
  opB : Bool := false
  imm : Bool := false
  tgt : Bool := false
  deriving DecidableEq, Repr

/-- Use of each micro-op code; none for the reserved codes 0x37 to 0x3F. -/
def uopUse (u : Nat) : Option UopUse :=
  if u ≤ 1 then some {}
  else if u = 2 then some { imm := true }
  else if u = 3 then some { tgt := true }
  else if u ≤ 5 then some { sa := true, tgt := true }
  else if u = 6 then some { sa := true, imm := true, tgt := true }
  else if u = 7 then some { sa := true, opB := true, tgt := true }
  else if u ≤ 0x0C then some { dst := true, sa := true, opB := true }
  else if u ≤ 0x0E then some { dst := true, sa := true }
  else if u ≤ 0x17 then some { dst := true, sa := true, opB := true }
  else if u = 0x18 then some { dst := true, sa := true }
  else if u ≤ 0x1C then some { dst := true, sa := true, opB := true }
  else if u ≤ 0x23 then some { dst := true, sa := true }
  else if u = 0x24 then some { dst := true, sa := true, opB := true }
  else if u ≤ 0x26 then some { dst := true, imm := true }
  else if u ≤ 0x2F then some { dst := true, sa := true, imm := true }
  else if u ≤ 0x31 then some { dst := true, sa := true }
  else if u ≤ 0x33 then some { dst := true, sa := true, opB := true }
  else if u = 0x34 then some { dst := true, sa := true }
  else if u ≤ 0x36 then some { dst := true, sa := true, opB := true }
  else none

/-- Fields of a micro-word (R265). -/
def mwUop (w : Pay) : Nat := fld w 63 58
def mwDst (w : Pay) : Nat := fld w 57 54
def mwSa (w : Pay) : Nat := fld w 53 50
def mwSb (w : Pay) : Nat := fld w 49 46
def mwI (w : Pay) : Bool := bit w 45
def mwTgt (w : Pay) : Nat := fld w 37 32
def mwImm (w : Pay) : Nat := fld w 31 0

/-- R266, R267: a defined code, with every unused field zero and its own limits on IMM. -/
def uopOk (w : Pay) : Bool :=
  match uopUse (mwUop w) with
  | none => false
  | some u =>
    fld w 44 38 = 0
      && (u.dst || mwDst w = 0) && (u.sa || mwSa w = 0) && (u.tgt || mwTgt w = 0)
      && (u.opB || (mwSb w = 0 && !mwI w))
      && (if u.opB then (if mwI w then mwSb w = 0 else mwImm w = 0) else (u.imm || mwImm w = 0))
      && (mwUop w ≠ 0x24 || mwI w)
      && (mwUop w ≠ 2 || (1 ≤ mwImm w && mwImm w ≤ 0x0C))
      && (mwUop w ≠ 6 || mwImm w < 0x10000)

/-- Fields of a decode entry (R261). -/
def deSlot (e : Pay) : Nat := fld e 63 60
def deRes (e : Pay) : Bool := bit e 59
def deWb (e : Pay) (k : Nat) : Bool := bit e (56 + k)
def deUse (e : Pay) (k : Nat) : Bool := bit e (53 + k)
def deRmax (e : Pay) : Nat := fld e 51 50
def deLen (e : Pay) : Nat := fld e 49 44 + 1
def deEntry (e : Pay) : Nat := fld e 43 32

/-- The micro-words of an entry within an image. -/
def slotWords (csbase : Nat) (words : List Pay) (e : Pay) : List Pay := (words.drop (deEntry e - csbase)).take (deLen e)

/-- ENTRY (R283): malformed entries, a slot repeated, or micro-ops outside the image. -/
def entriesOk (csbase : Nat) (words : List Pay) : List Pay → Bool
  | [] => true
  | e :: es =>
    !bit e 52 && fld e 31 0 = 0 && !(es.any (fun f => deSlot f = deSlot e))
      && csbase ≤ deEntry e && deEntry e + deLen e ≤ csbase + words.length && entriesOk csbase words es

/-- A store micro-op (R268). -/
def isStoreUop (u : Nat) : Bool := u = 0x28 || (0x2D ≤ u && u ≤ 0x2F) || u = 0x33 || u = 0x36

/-- A YIELD lies strictly between two micro-ops. -/
def yieldBetween (ws : List Pay) (a b : Nat) : Bool := ((ws.take b).drop (a + 1)).any (fun w => mwUop w = 1)

/-- R285 for one micro-op at index i. -/
def flowOk (res : Bool) (ws : List Pay) (i : Nat) : Bool :=
  let w := ws.getD i 0
  if 3 ≤ mwUop w ∧ mwUop w ≤ 7 then
    let t := mwTgt w
    t < ws.length
      && (if t > i then !(res && yieldBetween ws i t) else res && mwUop (ws.getD t 0) = 1)
  else true

/-- The whole of R285's flow rules for one slot. -/
def slotFlowOk (e : Pay) (ws : List Pay) : Bool :=
  (match ws.getLast? with | some w => mwUop w = 0 || mwUop w = 3 || mwUop w = 2 | none => false)
    && (List.range ws.length).all (fun i => flowOk (deRes e) ws i)

/-- No segment between YIELDs holds more than 8 store micro-ops (R285). -/
def storesOk : Nat → List Pay → Bool
  | _, [] => true
  | n, w :: ws =>
    if mwUop w = 1 then storesOk 0 ws
    else if isStoreUop (mwUop w) then n + 1 ≤ 8 && storesOk (n + 1) ws
    else storesOk n ws

/-- Result codes of UCS.STAT (R283). -/
abbrev ucsDone : Nat := 1

/-- Validate the image at byte offset `off` of the issuing core's Keep SRAM copy: its parts, or the STAT code. DESIGN CHOICE
(assumption 92): R284 names no code for an image word that is not tagged RAW; the code is that of the part it belongs to,
HDR for the header, ENTRY for an entry and UOP for a micro-word. -/
def State.ucsImage (s : State) (k off : Nat) : Except Nat UcsJob :=
  if ¬ k < 4 then .error 2
  else
    let at0 := s.key k (keepBase + off)
    let h := s.word at0
    let n := fld h.pay 39 35
    let cs := fld h.pay 34 23
    let m := fld h.pay 12 0
    if h.tag ≠ Tag.raw ∨ fld h.pay 63 48 ≠ 0xCA5E ∨ fld h.pay 47 40 ≠ 1 ∨ n = 0 ∨ n > 16 ∨ fld h.pay 22 13 ≠ 0
        ∨ m = 0 ∨ m > 4096 ∨ cs + m > 4096 then .error 3
    else if off + 8 * (1 + n + m) > 0x400000 then .error 2
    else
      let ew := s.words (at0 + 8) n
      let mw := s.words (at0 + 8 + 8 * n) m
      let es := ew.map (·.pay)
      let ws := mw.map (·.pay)
      if ew.any (fun w => w.tag ≠ Tag.raw) ∨ !entriesOk cs ws es then .error 4
      else if mw.any (fun w => w.tag ≠ Tag.raw) ∨ !ws.all uopOk
          ∨ es.any (fun e => !deRes e && (slotWords cs ws e).any (fun w => mwUop w = 1)) then .error 5
      else if es.any (fun e => !slotFlowOk e (slotWords cs ws e)) then .error 6
      else if es.any (fun e => !storesOk 0 (slotWords cs ws e)) then .error 7
      else .ok { clr := false, csbase := cs, entries := es, words := ws, targets := [] }

/-- The target twins of a load (R282), or the TARGET code (R283). -/
def State.ucsTargets (s : State) (v : Pay) : Except Nat (List Nat) :=
  if bit v 42 then .ok ((List.range 32).filter (fun t => s.clOn (clusterOfTwin t)))
  else
    let t := fld v 47 43
    if (s.twin t).mode = .off ∨ (s.twin t).mode = .fenced then .error 8 else .ok [t]

def State.setUcs (s : State) (k hi lo v : Nat) : State :=
  s.updCore k (fun c => c.setSp Sr.ucs (setFld (c.sp Sr.ucs) hi lo v))

/-- A write of UCS (R282, R286): its plain fields, then a validated load or clear begins, or STAT takes the code of
the check that fails. A GO or CLR while a load runs changes nothing more (assumption 7). -/
def State.writeUcs (s : State) (k : Nat) (v : Pay) : State :=
  let old := (s.core k).sp Sr.ucs
  let new := setFld (setFld (if bit v 62 then setBit old 62 false else old) 47 42 (fld v 47 42)) 21 3 (fld v 21 3)
  let s1 := s.updCore k (fun c => c.setSp Sr.ucs new)
  let go := bit v 0
  let clr := bit v 1
  if bit old 63 ∨ !(go || clr) then s1
  else
    let job : Except Nat UcsJob := if go then s.ucsImage k (8 * fld v 21 3) else .ok ⟨clr, 0, [], [], []⟩
    match job with
    | .error c => s1.setUcs k 61 58 c
    | .ok j =>
      match s.ucsTargets v with
      | .error c => s1.setUcs k 61 58 c
      | .ok ts => (s1.updCore k (fun c => { c with ucsJob := some { j with clr := clr, targets := ts } })).setUcs k 63 63 1

/-- Install a load on one core (R286): clear, micro-words, overlapped slots emptied, entries. -/
def Core.installUcs (c : Core) (j : UcsJob) : Core :=
  let d0 := if j.clr then [] else c.decode
  let cs := (List.range j.words.length).foldl (fun t i => Tbl.set (fun _ => (0 : Pay)) t (j.csbase + i) (j.words.getD i 0)) c.cstore
  let hit (e : Pay) : Bool := deEntry e < j.csbase + j.words.length && j.csbase < deEntry e + deLen e
  let d1 := d0.filter (fun e => j.entries.any (fun f => deSlot f = e.1) || !hit e.2)
  let d2 := j.entries.foldl (fun t e => Tbl.insert t (deSlot e) e) d1
  { c with decode := d2, cstore := cs }

/-- A context of a target twin of `j` is inside a slot, neither at an instruction boundary nor at a YIELD: the load waits for it
(R286, R289). -/
def State.insideSlot (s : State) (j : UcsJob) : Bool :=
  s.ctxs.any (fun e => j.targets.contains (twinOf e.1) && (match e.2.slot with | some r => !r.yield | none => false))

/-- A slot that the load stops at a YIELD restarts with the new entry (R287). -/
def State.restartSlots (s : State) (j : UcsJob) : State :=
  (s.ctxs.filter (fun e => j.targets.contains (twinOf e.1))).foldl (fun s e => s.updCtx e.1 (fun c => { c with slot := none })) s

/-- The load or clear that core k started reaches its targets and ends (R286), once every context of its targets stands at an
instruction boundary or a YIELD. -/
def State.ucsComplete (s : State) (k : Nat) : State :=
  match (s.core k).ucsJob with
  | none => s
  | some j =>
    if s.insideSlot j then s
    else
      let on := j.targets.filter (fun t => s.clOn (clusterOfTwin t))
      let s1 := on.foldl (fun s t => (s.updCore (2 * t) (fun c => c.installUcs j)).updCore (2 * t + 1) (fun c => c.installUcs j))
        (s.restartSlots j)
      (((s1.updCore k (fun c => { c with ucsJob := none })).setUcs k 63 63 0).setUcs k 61 58 ucsDone).wakeHold

/-- A slot of the twin of context x is being loaded (R287). -/
def State.ucsLoading (s : State) (t : Nat) : Bool :=
  s.cores.any (fun e => match e.2.ucsJob with | some j => j.targets.contains t | none => false)

end Sys2Proof.Machine
end

