-- ==== Sys2Proof/Machine/Special.lean ====
section
/-!
DEFINITION. The special registers (R113 to R125): their numbers, rings and tags, what MFS reads, and what MTS writes
in each (R188, R189, R196, R242, R243, R282, R300, R310, R365, R414 to R419, R429, R436, R437, R442, R443, R446, R467,
R499).
-/
namespace Sys2Proof.Machine

/-- Highest ring that reads and that writes special register n (R114); none for an undefined number, and no write
ring for a read-only register. -/
def srRings (n : Nat) : Option (Nat × Option Nat) :=
  if n = 0x000 then some (3, some 1)
  else if n = 0x001 then some (3, none)
  else if n = 0x002 ∨ n = 0x003 then some (1, some 1)
  else if n = 0x004 then some (3, some 1)
  else if n = 0x005 then some (3, none)
  else if n = 0x006 then some (1, some 1)
  else if n = 0x007 then some (1, some 0)
  else if 0x008 ≤ n ∧ n ≤ 0x00B then some (n - 8, some (n - 8))
  else if n = 0x00C then some (0, some 0)
  else if 0x00D ≤ n ∧ n ≤ 0x00F then some (1, some 1)
  else if n = 0x010 ∨ n = 0x011 then some (1, some 1)
  else if n = 0x012 then some (1, none)
  else if n = 0x015 then some (1, some 1)
  else if n = 0x016 then some (1, some 0)
  else if n = 0x018 then some (3, some 0)
  else if n = 0x019 then some (3, some 3)
  else if 0x020 ≤ n ∧ n ≤ 0x028 then some (3, some 3)
  else if n = 0x030 ∨ n = 0x031 then some (3, some 1)
  else if 0x032 ≤ n ∧ n ≤ 0x034 then some (1, some 1)
  else if 0x040 ≤ n ∧ n ≤ 0x043 then some (3, none)
  else none

/-- The tag MFS returns (R114). -/
def srTag (n : Nat) : BitVec 8 :=
  if n = 0x005 ∨ n = 0x018 ∨ n = 0x019 ∨ (0x026 ≤ n ∧ n ≤ 0x028) then Tag.fix else Tag.raw

/-- The registers of R257, held per context; the others are held per core. -/
def srPerCtx (n : Nat) : Bool :=
  n = 0x000 || n = 0x001 || n = 0x004 || n = 0x005 || (0x008 ≤ n && n ≤ 0x00F) || n = 0x010 || n = 0x011
    || n = 0x019 || (0x020 ≤ n && n ≤ 0x028) || (0x030 ≤ n && n ≤ 0x034)

/-- The bits that MTS writes plainly from its source. -/
def srMask (n : Nat) : Pay :=
  if n = 0x002 then maskFld 47 11
  else if n = 0x003 then maskFld 57 48 ||| maskFld 47 3
  else if n = 0x004 then maskFld 47 8 ||| maskFld 0 0
  else if 0x008 ≤ n ∧ n ≤ 0x00F then maskFld 63 0
  else if n = 0x011 then maskFld 11 0
  else if n = 0x015 then maskFld 47 16 ||| maskFld 3 0
  else if n = 0x016 then maskFld 34 1
  else if n = 0x018 then maskFld 63 0
  else if n = 0x019 ∨ (0x026 ≤ n ∧ n ≤ 0x028) then maskFld 31 0
  else if 0x020 ≤ n ∧ n ≤ 0x025 then maskFld 47 2
  else if n = 0x030 ∨ n = 0x031 then maskFld 47 3
  else if 0x032 ≤ n ∧ n ≤ 0x034 then maskFld 35 3
  else 0

/-- FEAT0 to FEAT3 (R121 to R124); CXPOP follows the decode table. -/
def feat0 : Pay := 0x0204080300003FFF#64
def feat1 : Pay := 0x010020100C282004#64
def Core.feat2 (c : Core) : Pay :=
  (List.range 16).foldl (fun v i => setBit v i (Tbl.look c.decode i).isSome) 0x0000000C40010000#64

/-- CID (R119, R477). -/
def State.cid (s : State) (x : Nat) : Pay := atFld 10 8 s.dnum.toNat ||| atFld 7 0 (s.presented x)

/-- What MFS reads from special register n at context x. -/
def State.readSpec (s : State) (x n : Nat) : Word :=
  let c := s.ctx x
  let k := s.core (s.coreOf x)
  let p : Pay :=
    if n = Sr.cid then s.cid x
    else if n = Sr.winb then setFld (c.sp Sr.winb) 18 16 c.nres
    else if n = Sr.txs then atFld 37 32 k.locks ||| atFld 7 0 (k.victimFrom k.victim)
    else if n = Sr.rtb then (if s.isLoose x then setFld (k.sp Sr.rtb) 3 0 0 else k.sp Sr.rtb)
    else if n = 0x040 then feat0
    else if n = 0x041 then feat1
    else if n = 0x042 then k.feat2
    else if n = 0x043 then feat3
    else if srPerCtx n then c.sp n
    else k.sp n
  ⟨srTag n, p⟩

/-- SQT of context x is about to change: in tight mode its value in the last confirmed window is kept (R314). -/
def State.noteSqt (s : State) (x : Nat) : State :=
  if s.isTight x then s.updTwin (twinOf x) (fun w =>
    if (Tbl.look w.sqtConf x).isSome then w else { w with sqtConf := Tbl.insert w.sqtConf x ((s.ctx x).sp Sr.sqt) }) else s

/-- A special register written with its new value, signed in tight mode under MFS's tag (R486). -/
def State.putSpec (s0 : State) (x n : Nat) (v : Pay) : State :=
  let s := if n = Sr.sqt then s0.noteSqt x else s0
  let s1 := if srPerCtx n then s.updCtx x (fun c => c.setSp n v) else s.updCore (s.coreOf x) (fun c => c.setSp n v)
  if s.isTight x then s1.sign (twinOf x) (signReg x (0x1000 + n) 0 ⟨srTag n, v⟩) else s1

/-- PS as an MTS or REST of `v` makes it (R437); Privilege, cause 0x07, for a lower RING. -/
def Ctx.newPs (c : Ctx) (v : Pay) : Option Pay :=
  if fld v 1 0 < c.ring then none
  else some (atFld 9 9 (b2n (c.em && bit v 9)) ||| atFld 7 7 (fld v 7 7) ||| atFld 5 4 (fld v 5 4) ||| atFld 1 0 (fld v 1 0))

/-- WINB as an MTS of `v` makes it (R242, R243). -/
def newWinb (old v : Pay) : Pay :=
  let o1 := if fld v 22 20 = 7 then old else setFld old 22 20 (fld v 22 20)
  setFld (setFld o1 9 8 (fld v 9 8)) 2 0 (fld v 2 0)

/-- MTS to TVB: the ring 1 part of the latch is reloaded (R443). -/
def State.reloadTvb (s : State) (k : Nat) : State :=
  s.updCore k (fun c => { c with latch1 := s.latchOf k (fld (c.sp Sr.tvb) 47 11 * 2048) false })

/-- Every L1D line of core k written back and invalidated (R417, R391). -/
def State.sweepL1d (s : State) (k : Nat) : State :=
  ((s.core k).l1d.map (·.1)).foldl (fun s l => s.l1dDrop k l) s

/-- The plain part of a write of CCTL: a cleared ILK bit frees its way's invalid-locked lines (R414); IEN = 0
empties the L1I (R419); SWEEP is read-only (R429). -/
def State.writeCctl (s : State) (k : Nat) (v : Pay) : State :=
  let old := (s.core k).sp Sr.cctl
  let s1 := if bit old 1 ∧ !bit v 1 then s.dropL1i k else s
  s1.updCore k (fun c =>
    { (c.setSp Sr.cctl ((v &&& maskFld 7 0) ||| (old &&& maskFld 15 15))) with l1iLk := c.l1iLk.filter (fun e => bit v (4 + e.2)) })

/-- The MTS to CCTL of context x completes, by itself or as one iteration of a repeat (R193, R417). -/
def State.sweptMts (s : State) (x size : Nat) (rep : Bool) : State :=
  let c := s.ctx x
  if !rep then s.retire x (slotsOf c.pc size) (c.pc + p64 size) none
  else
    let s1 := s.updCtx x (fun c => { c.setSp Sr.rpc (c.sp Sr.rpc - 1) with run := .run })
    if (s1.ctx x).sp Sr.rpc = 0 then s1.retire x (slotsOf (c.pc + 4) size) (c.pc + 4 + p64 size) none else s1

/-- CCTL of core k written by context x, signed in tight mode. -/
def State.signedCctl (s : State) (k x : Nat) (v : Pay) : State :=
  let s1 := s.writeCctl k v
  if s.isTight x then s1.sign (twinOf x) (signReg x (0x1000 + Sr.cctl) 0 (Word.raw (v &&& maskFld 7 0))) else s1

/-- The end of an L1D sweep of core k (R417): the lines leave, CCTL takes the value, and the MTS retires. -/
def State.endSweep (s : State) (k : Nat) : State :=
  let waits := s.ctxs.filterMap (fun e => match e.2.run with
    | .sweep v size rep => if s.coreOf e.1 = k then some (e.1, v, size, rep) else none
    | _ => none)
  match waits with
  | [] => s
  | (x, v, size, rep) :: _ =>
    let s0 := (s.sweepL1d k).updCore k (fun c => c.setSp Sr.cctl (setBit (c.sp Sr.cctl) 15 false))
    ((s0.signedCctl k x v).sweptMts x size rep).wakeHold

/-- MTS to CCTL (R414, R417 to R419, R428): a FENCE that closes the window; clearing EN starts the sweep, which the MTS
waits for. One that comes while another context's sweep of the core runs waits until that sweep ends (assumption 91). -/
def X.mtsCctl (v : Pay) : X Flow := do
  let k ← X.core
  if bit (((← X.st).core k).sp Sr.cctl) 15 then X.park .hold else pure ()
  X.closeWindow
  X.storesDone
  let s ← X.st
  if bit ((s.core k).sp Sr.cctl) 0 ∧ !bit v 0 then do
    X.upd (fun s => s.updCore k (fun c => c.setSp Sr.cctl (setBit (c.sp Sr.cctl) 15 true)))
    X.park (.sweep v 4 false)
  else do
    let x ← X.ctxNo
    X.upd (fun s => s.signedCctl k x v)
    return .seq

/-- The checks of R115, in order; the source tag comes last. -/
def X.srCheck (n : Nat) (write : Bool) : X Unit := do
  let ring ← X.ring
  match srRings n with
  | none => X.raise (Exc.illegal 8)
  | some (rd, wr) =>
    if write then
      match wr with
      | none => X.raise (Exc.illegal 9)
      | some m => if ring > m then X.raise (Exc.privilege 2) else pure ()
    else if ring > rd then X.raise (Exc.privilege 2) else pure ()

/-- Tags an MTS source may hold (R116). -/
def mtsTag (t : BitVec 8) : Bool := isRawFix t || isBasePtr t

/-- The effect of MTS of payload v to register n, after its checks. -/
def X.mtsWrite (n : Nat) (v : Pay) : X Flow := do
  let x ← X.ctxNo
  let c ← X.ctx
  let k ← X.core
  if n = Sr.ps then
    match c.newPs v with
    | none => X.raise (Exc.privilege 7)
    | some p => do X.upd (fun s => s.putSpec x n p); return .seq
  else if n = Sr.cctl then X.mtsCctl v
  else if n = Sr.ucs then do X.upd (fun s => s.writeUcs k v); return .seq
  else if n = Sr.winb then do X.upd (fun s => s.putSpec x n (newWinb (c.sp Sr.winb) v)); return .seq
  else if 0x023 ≤ n ∧ n ≤ 0x025 then do
    X.upd (fun s => s.putSpec x n ((v &&& maskFld 47 2) ||| atFld 1 0 c.ring)); return .seq
  else do
    X.upd (fun s => s.putSpec x n (v &&& srMask n))
    if n = Sr.tvb then X.upd (fun s => s.reloadTvb k) else pure ()
    return .seq

/-! ### Meanings -/

/-- MFS (R113 to R118). -/
def opMfs (d : BitVec 5) (n : Nat) : X Flow := do
  X.srCheck n false
  let s ← X.st
  let x ← X.ctxNo
  X.wr d (s.readSpec x n)
  return .seq

/-- MTS (R113 to R117). -/
def opMts (a : BitVec 5) (n : Nat) : X Flow := do
  X.srCheck n true
  let w ← X.rd a
  if mtsTag w.tag then X.mtsWrite n w.pay
  else X.tagTrap 28 rType 1 (some w.tag) none

end Sys2Proof.Machine
end

