-- ==== Sys2Proof/Machine/Control.lean ====
section
/-!
DEFINITION. Branches, calls, returns and hardware loops (R166 to R189), traps, gates and the return from an exception
(R463 to R469), and the waits for events (R197 to R206).
-/
namespace Sys2Proof.Machine

/-! ### Targets -/

/-- R173: a register or popped control target. -/
def X.checkTarget (t : Pay) : X Unit :=
  if fld t 63 48 ≠ 0 then X.raise (Exc.addrForm 3 t)
  else if fld t 1 0 ≠ 0 then X.raise (Exc.align 3 t)
  else pure ()

/-- R167: the target of a displacement of `w` bits counted in instructions, from the branch's own address. -/
def X.relTarget (pc : Pay) (w disp : Nat) : X Pay := do
  let t : Int := (pc.toNat : Int) + 4 * signedOf w disp
  if t < 0 ∨ t > 2 ^ 48 - 1 then X.raise (Exc.addrForm 3 (BitVec.ofInt 64 t)) else return BitVec.ofInt 64 t

/-! ### Stacks -/

/-- A word stored at ring `r` without a barrier, after the access check of R304 (R172, R468). -/
def X.pushWord (r : Nat) (va0 : Pay) (w : Word) : X Unit := do
  let va ← X.accessCheck (Word.raw va0) va0 true
  let m ← X.met
  let tr ← X.translate r .store va m
  let _ ← X.storeMeets tr m
  X.emit tr 8 w m

/-- A word loaded at ring `r` without a barrier, after the access check of R304 (R172, R463, R469). -/
def X.popWord (r : Nat) (va0 : Pay) : X Word := do
  let va ← X.accessCheck (Word.raw va0) va0 false
  let m ← X.met
  let tr ← X.translate r .load va m
  X.loadPhys tr 8 va m

/-- A stack pointer that is not canonical (R172). -/
def spBad (s : Pay) : Bool := fld s 63 48 ≠ 0 || fld s 2 0 ≠ 0

/-- CALL and CALLR from the checks of SP on (R172); `chk` is the target's check. -/
def X.call (pc t : Pay) (chk : X Unit) : X Flow := do
  let r ← X.ring
  let c ← X.ctx
  let x ← X.ctxNo
  let s := c.sp (Sr.sp0 + r)
  if spBad s then X.raise (Exc.stack 1)
  else if s.toNat < 8 then X.raise (Exc.stack 3)
  else do
    chk
    X.pushWord r (s - 8) (Word.raw (pc + 4))
    X.upd (fun m => m.updCtx x (fun c => c.setSp (Sr.sp0 + r) (s - 8)))
    return .jump t

/-! ### Branches and calls -/

def opBr (pc : Pay) (disp : BitVec 26) : X Flow := do return .jump (← X.relTarget pc 26 disp.toNat)

/-- CALL (R172): the target of R167 is checked after SP. -/
def opCall (pc : Pay) (disp : BitVec 26) : X Flow := do
  let t : Int := (pc.toNat : Int) + 4 * signedOf 26 disp.toNat
  X.call pc (BitVec.ofInt 64 t) (do let _ ← X.relTarget pc 26 disp.toNat; pure ())

/-- The condition of BCC (R170). -/
def bccTaken (cond : Nat) (a b : Word) : Bool :=
  if cond = 0 then a = Word.nil
  else if cond = 1 then a ≠ Word.nil
  else if cond = 2 then a = Word.t
  else if cond = 3 then a = b
  else a ≠ b

/-- R170: the reserved fields of BCC. -/
def bccRsv (cond : BitVec 4) (b : BitVec 5) : Bool := cond.toNat ≤ 4 && (3 ≤ cond.toNat || b = 0)

/-- A branch taken or not (R167, R168). -/
def X.branch (pc : Pay) (w disp : Nat) (taken : Bool) : X Flow := do
  if taken then return .jump (← X.relTarget pc w disp) else return .seq

def opBcc (pc : Pay) (cond : BitVec 4) (a b : BitVec 5) (disp : BitVec 12) : X Flow := do
  X.branch pc 12 disp.toNat (bccTaken cond.toNat (← X.rd a) (← X.rd b))

/-- BTAG's match (R171). -/
def btagMatch (cls : Bool) (val : BitVec 8) (t : BitVec 8) : Bool :=
  if cls then t.toNat / 64 = val.toNat % 4 else t = val

/-- R171: VAL[7:2] is reserved with CLS = 1. -/
def btagRsv (cls : Bool) (val : BitVec 8) : Bool := !cls || val.toNat < 4

def opBtag (pc : Pay) (a : BitVec 5) (neg cls : Bool) (val : BitVec 8) (disp : BitVec 11) : X Flow := do
  X.branch pc 11 disp.toNat (btagMatch cls val (← X.rd a).tag != neg)

def opJmpr (a : BitVec 5) : X Flow := do
  let w ← X.rdUsed a
  X.checkTarget w.pay
  return .jump w.pay

def opCallr (pc : Pay) (a : BitVec 5) : X Flow := do
  let w ← X.rd a
  X.call pc w.pay (do X.used w; X.checkTarget w.pay)

def opRet : X Flow := do
  let r ← X.ring
  let c ← X.ctx
  let x ← X.ctxNo
  let s := c.sp (Sr.sp0 + r)
  if spBad s then X.raise (Exc.stack 1)
  else if s.toNat > 2 ^ 48 - 8 then X.raise (Exc.stack 3)
  else do
    let w ← X.popWord r s
    if w.tag ≠ Tag.raw then X.raise (Exc.stack 2) else pure ()
    X.checkTarget w.pay
    X.upd (fun m => m.updCtx x (fun c => c.setSp (Sr.sp0 + r) (s + 8)))
    return .jump w.pay

/-! ### Hardware loops -/

/-- Loop Fault (R185). -/
def Exc.loop (c : Nat) : Exc := { vec := 22, cause := p64 c }

/-- R184: the address is the end slot of the innermost active level. -/
def Ctx.atLoopEnd (c : Ctx) (pc : Pay) : Bool :=
  match c.innermost with
  | some j => c.leAddr j = pc
  | none => false

/-- LOOP (R177 to R179, R184); LSk and LEk hold an address in [47:2] (R189). -/
def opLoop (pc : Pay) (a : BitVec 5) (ns : BitVec 16) : X Flow := do
  let c ← X.ctx
  let w ← X.rd a
  let n := fld w.pay 31 0
  if c.atLoopEnd pc then X.raise (Exc.loop 2)
  else if c.depth = 3 then X.raise (Exc.loop 1)
  else if !immForm w then X.raise (Exc.reserved 3)
  else if n = 0 then return .jump (pc + p64 (4 * (ns.toNat + 2)))
  else do
    let k := c.depth
    let addr (q : Pay) : Pay := q &&& maskFld 47 2
    X.updCtx (fun c =>
      ((c.setSp (Sr.ls0 + k) (addr (pc + 4))).setSp (Sr.le0 + k) (addr (pc + p64 (4 * (ns.toNat + 1))) ||| p64 c.ring)).setSp
        (Sr.lc0 + k) (p64 n))
    return .seq

/-! ### Events and timed waits -/

/-- WFE (R199). -/
def opWfe : X Flow := do
  let c ← X.ctx
  if c.latch then do X.updCtx (fun c => { c with latch := false }); return .seq
  else X.park .wfe

/-- WAITT (R205, R206). -/
def opWaitt (d a : BitVec 5) : X Flow := do
  let c ← X.ctx
  let s ← X.st
  let k ← X.core
  let w ← X.rd a
  if c.latch then do
    X.updCtx (fun c => { c with latch := false })
    X.wr d (Word.fix 1)
    return .seq
  else do
    X.used w
    if (s.core k).sp Sr.cyc ≥ w.pay then do X.wr d (Word.fix 0); return .seq
    else X.park (.waitt d w.pay)

/-- SEV (R202, R203, R427, R488, R496): it waits for the context's own stores; a tight twin's window closes; a loose core's SEV
passes the comparator, after the outputs before it. -/
def opSev (a : BitVec 5) : X Flow := do
  let w ← X.rdUsed a
  let x ← X.ctxNo
  let k ← X.core
  let s ← X.st
  match s.lastPosted x with
  | some id => X.park (.fabric id)
  | none => pure ()
  X.upd (fun s => s.leaveCore x (.sev k (fld w.pay 7 0)))
  X.closeWindow
  return .seq

/-- The deadline of a waiting WAITT is reached (R205, R206): CYC of its core stands at the deadline at least. -/
def State.waittDeadline (s : State) (x : Nat) : State :=
  let c := s.ctx x
  match c.run with
  | .waitt d deadline =>
    if c.latch ∨ (s.async x).isSome ∨ !s.powered x then s
    else
      let k := s.coreOf x
      let s1 := if (s.core k).sp Sr.cyc < deadline then s.updCore k (fun c => c.setSp Sr.cyc deadline) else s
      (s1.wrReg x d (Word.fix 0)).retire x [c.pc] (c.pc + 4) none
  | _ => s

/-! ### TRAP, gates and returns -/

/-- TRAP (R464, R438): it retires, and the frame's PC is the next instruction. -/
def opTrap (n : Nat) (pc : Pay) : X Flow := do
  let x ← X.ctxNo
  if (← X.st).pushWaits x then X.park .hold else pure ()
  let at_ := (← get).at_
  X.upd (fun s => (((s.landLoads x).retireMark x).updCtx x (fun c => c.setPc (pc + 4))).enterExc x (pc + 4)
    { vec := 128 + n, cause := p64 n } at_)
  return .stay

/-- Where the descriptor of gate g lies: the ring of its PRT check, and its physical address; none when g is out of range (R466). -/
def State.gateAddr (s : State) (x g : Nat) : Option (Nat × Nat) :=
  let gtb := (s.core (s.coreOf x)).sp Sr.gtb
  if g < 64 then some (0, fld (s.reg (oSec + 0xE08)) 47 9 * 512 + 8 * g)
  else if g - 64 ≤ min (fld gtb 57 48) 959 then some (1, fld gtb 47 3 * 8 + 8 * (g - 64)) else none

/-- The descriptor of gate g, or none when it is out of range, unreadable or absent (R465, R466, R468). -/
def State.gate (s : State) (x g : Nat) : Option Pay :=
  let k := s.coreOf x
  match s.gateAddr x g with
  | none => none
  | some (ring, pa) =>
    if !s.prtOk ring pa then none
    else match s.physWord k pa with
      | some w =>
        if w.tag = Tag.raw ∧ bit w.pay 59 ∧ fld w.pay 58 48 = 0 ∧ fld w.pay 1 0 = 0 ∧ (ring = 0 ∨ fld w.pay 63 62 ≠ 0)
        then some w.pay else none
      | none => none

/-- The read of a table word at pa fails, as the command says; a correction is counted (R20, R93). -/
def X.readFails (pa : Nat) : X Bool := do
  let k ← X.core
  match (← X.met) with
  | .errResp | .meshDouble | .dramUe | .l2Ue | .l2TagUe => return true
  | .meshCorr => do X.upd (fun s => s.telem k telMeshCorr (p64 pa)); return false
  | .ddrCorr => do X.upd (fun s => s.telem k telDdrCorr (p64 pa)); return false
  | _ => return false

/-- CALLG (R468). -/
def opCallg (pc : Pay) (a : BitVec 5) : X Flow := do
  let w ← X.rdUsed a
  let s ← X.st
  let x ← X.ctxNo
  let c ← X.ctx
  let bad ← X.readFails (((s.gateAddr x (fld w.pay 9 0)).map (·.2)).getD 0)
  match (if bad then none else s.gate x (fld w.pay 9 0)) with
  | none => X.raise (Exc.privilege 9)
  | some d =>
    let t := fld d 63 62
    if c.ring > fld d 61 60 then X.raise (Exc.privilege 8)
    else if t > c.ring then X.raise (Exc.privilege 0xA)
    else
      let sp := c.sp (Sr.sp0 + t)
      if spBad sp ∨ sp.toNat < 16 then X.raise (Exc.stack 4)
      else do
        X.pushWord t (sp - 8) (Word.raw (pc + 4))
        X.pushWord t (sp - 16) (Word.raw (c.sp Sr.ps))
        X.updCtx (fun c => (c.setSp (Sr.sp0 + t) (sp - 16)).setSp Sr.ps (setFld (c.sp Sr.ps) 1 0 t))
        return .jump (atFld 47 2 (fld d 47 2))

/-- PS bits that a return restores (R463, R469). -/
def psRestore (p : Pay) (em : Bool) : Pay :=
  atFld 9 9 (b2n em) ||| atFld 7 7 (fld p 7 7) ||| atFld 5 4 (fld p 5 4) ||| atFld 1 0 (fld p 1 0)

/-- RETG (R469). -/
def opRetg : X Flow := do
  let c ← X.ctx
  let r := c.ring
  let sp := c.sp (Sr.sp0 + r)
  if spBad sp ∨ sp.toNat > 2 ^ 48 - 16 then X.raise (Exc.stack 5)
  else do
    let ps ← X.popWord r sp
    let pc ← X.popWord r (sp + 8)
    if ps.tag ≠ Tag.raw ∨ pc.tag ≠ Tag.raw then X.raise (Exc.stack 6)
    else if fld ps.pay 1 0 < r then X.raise (Exc.privilege 7)
    else do
      X.checkTarget pc.pay
      X.updCtx (fun c => (c.setSp (Sr.sp0 + r) (sp + 16)).setSp Sr.ps (psRestore ps.pay c.em))
      return .jump pc.pay

/-- R136: the shadow descriptor is well formed. -/
def shadowOk (d : Pay) : Bool :=
  fld d 63 32 = 0 && fld d 25 21 = 0 && fld d 9 5 = 0
    && (!bit d 31 || (fld d 30 29 ≠ 0 && fld d 30 29 ≠ 3))
    && (!bit d 15 || (fld d 14 13 ≠ 0 && fld d 14 13 ≠ 3))

/-- The pending loads that a frame's shadow state describes (R135, R136). -/
def shadowLoads (d : Pay) (v0 v1 : Word) : List PendLoad :=
  (if bit d 15 then [⟨fld d 14 13, BitVec.ofNat 5 (fld d 4 0), fld d 12 10, v0⟩] else [])
    ++ (if bit d 31 then [⟨fld d 30 29, BitVec.ofNat 5 (fld d 20 16), fld d 28 26, v1⟩] else [])

/-- Words 0 to 7 of a frame, loaded at ring r. -/
def X.frameWords (r : Nat) (sp : Pay) : Nat → X (List Word)
  | 0 => pure []
  | n + 1 => do
    let w ← X.popWord r sp
    return w :: (← X.frameWords r (sp + 8) n)

/-- RETE (R463, R136, R234): the frame comes off the stack of the current ring. DESIGN CHOICE (assumption 87): in the shadow of
the handler's own load, the loads that the frame reinstates follow it; where that would make three pending, which R130 rules
out, the handler's own lands as RETE retires. -/
def opRete : X Flow := do
  let c ← X.ctx
  let x ← X.ctxNo
  let r := c.ring
  let no := spNo r c.em
  let sp := c.sp no
  if spBad sp ∨ sp.toNat > 2 ^ 48 - 64 then X.raise (Exc.stack 7)
  else do
    let ws ← X.frameWords r sp 8
    let w (i : Nat) : Word := ws.getD i Word.nil
    let p := (w 1).pay
    if (ws.take 4).any (fun v => v.tag ≠ Tag.raw) then X.raise (Exc.stack 8)
    else if fld p 1 0 < r then X.raise (Exc.privilege 7)
    else if bit p 15 ∧ !shadowOk (w 5).pay then X.raise (Exc.reserved 5)
    else if bit p 15 ∧ (shadowLoads (w 5).pay (w 6) (w 7)).any (fun l => isReservedTag l.val.tag) then X.raise (Exc.reserved 2)
    else do
      X.checkTarget (w 0).pay
      let ps := if r ≤ 1 then psRestore p (bit p 9) else setFld (psRestore p (bit p 9)) 5 4 (fld (c.sp Sr.ps) 5 4)
      let ls := if bit p 15 then shadowLoads (w 5).pay (w 6) (w 7) else []
      X.upd (fun s =>
        let s1 := (s.landLoads x).retireMark x
        let s2 := if ((s1.ctx x).loads ++ ls).length > 2 then (forN 2 0 (fun _ s => s.landLoads x) s1) else s1
        s2.updCtx x (fun c =>
          let c1 := (((c.setSp no (sp + 64)).setSp Sr.ps ps).setTb false).setPc (w 0).pay
          { c1 with loads := c1.loads ++ ls, fresh := true }))
      return .stay

end Sys2Proof.Machine
end

