-- ==== Sys2Proof/Machine/Loose.lean ====
section
/-!
DEFINITION. The comparators at work: the end of a window (R487, R503), the pairing of outputs in loose mode (R496 to
R498), and the wait for a partner.
-/
namespace Sys2Proof.Machine

/-- A comparison window of twin t ends when it holds 2^WINLOG groups (R487): the shadow's signature is the leader's, or the
one that the command brings. -/
def State.windowEnd (s : State) (t : Nat) (shadow : Option Pay) : State :=
  let w := s.twin t
  if w.mode ≠ .tight ∨ w.recov.isSome ∨ s.sys.inReset ∨ w.groups < 2 ^ s.rf (oTwin + 0x20) 3 0 then s
  else
    match shadow with
    | some sig => if sig = w.misr then s.confirm t else s.startRecovery t 1 0 w.misr sig
    | none => s.confirm t

/-- Add an answer to those of context x. -/
def State.giveGrant (s : State) (x : Nat) (g : Grant) : State := s.updCtx x (fun c => { c with grants := c.grants ++ [g] })

/-- Contexts of twin t that wait at the comparator with nothing left there go on. -/
def State.resumePartners (s : State) (t : Nat) : State :=
  let w := s.twin t
  (s.ctxs.filter (fun e => twinOf e.1 = t && e.2.run = .partner && !(w.outL ++ w.outS).any (fun o => o.x = e.1))).foldl
    (fun s e => s.updCtx e.1 (fun c => { c with run := .run })) s

/-- The pair at the heads of the queues leaves them. -/
def State.popPair (s : State) (t : Nat) : State :=
  s.updTwin t (fun w => { w with outL := w.outL.drop 1, outS := w.outS.drop 1 })

/-- Both contexts of a pair receive an answer, and go on. -/
def State.answerPair (s : State) (t l r : Nat) (g : Grant) : State :=
  (((s.popPair t).giveGrant l g).giveGrant r g).resumePartners t

/-- An input disagreement is recorded and counted (R502). -/
def State.inputDisagree (s : State) (t sel : Nat) (l r : Pay) : State :=
  let s1 := s.logRec 5 t 0 sel s.time l r
  s1.setRf (oTwin + 0x28) 15 0 (satInc 16 (s1.rf (oTwin + 0x28) 15 0))

/-- R211: the samples differ by more than the tolerance. -/
def disagrees (l r tol : Pay) : Bool :=
  decide (tol.toNat < (if l.toNat ≤ r.toNat then r.toNat - l.toNat else l.toNat - r.toNat))

/-- The tag of the result of AGREE, by its selector (R210). -/
def agreeTag (sel : Nat) : BitVec 8 := if sel = 0x300 then Tag.tick else Tag.fix

/-- The physical address of an access at the comparator, for the log (R515); zero for a kind without one. -/
def LooseReq.addr : LooseReq → Pay
  | .store pa _ _ _ | .load pa _ | .fetch pa => p64 pa
  | .agree _ _ _ | .ckpt _ | .sev _ => 0

/-- What a fetch of a loose twin finds, made once by the leader (R496). -/
def State.looseFetch (s : State) (t pa : Nat) (r : Resp) : Grant × State :=
  match r with
  | .error => (.error, s)
  | .doubleBit => (.doubleBit, s)
  | .dramUe => (.dramUe, s)
  | .meshCorr => (.done, s.telem (2 * t) telMeshCorr (p64 pa))
  | .ddrCorr => (.done, s.telem (2 * t) telDdrCorr (p64 pa))
  | _ => (.done, s)

/-- What a load of a loose twin finds at its target, made once by the leader (R496); none while the target does not
answer. -/
def State.looseLoad (s : State) (t x pa : Nat) (r : Resp) : Option (Grant × State) :=
  match r with
  | .error => some (.error, s)
  | .doubleBit => some (.doubleBit, s)
  | .dramUe => some (.dramUe, s)
  | _ =>
    let s0 := match r with
      | .meshCorr => s.telem (2 * t) telMeshCorr (p64 pa)
      | .ddrCorr => s.telem (2 * t) telDdrCorr (p64 pa)
      | _ => s
    match s0.region pa with
    | .dev off =>
      match s0.devLoad (2 * t) x off with
      | .val v s1 => some (.word (Word.raw v), s1)
      | .wait _ => none
    | .pcie _ => let v := s0.free; some (.word (Word.raw v.1), v.2)
    | _ =>
      let line := s0.key (2 * t) pa / 64
      let s1 := (s0.confirmLine line).cohRead none line
      if s1.poisoned line then some (.done, s1) else some (.word (s1.word pa), s1)

/-- The comparator of loose twin t pairs and compares the oldest output of each core; the response to a load is
`r` (R496 to R498, R502, R503). -/
def State.outputMatch (s : State) (t : Nat) (r : Resp) : State :=
  let w := s.twin t
  if w.mode ≠ .loose ∨ w.moving then s
  else
    match w.outL, w.outS with
    | l :: _, m :: _ =>
      match l.req, m.req with
      | .store pa width v pc, .store pb wb u _ =>
        if pa = pb ∧ width = wb ∧ v = u then
          let s1 := (s.popPair t).resumePartners t
          if r = .error then s1.recSbe l.x 5 pa pc
          else { s1 with outbox := s1.outbox ++ [.store l.x (2 * t) pa width v pc] }
        else s.startRecovery t 2 0 (p64 pa) (p64 pb)
      | .load pa width, .load pb wb =>
        if pa = pb ∧ width = wb then
          match s.looseLoad t l.x pa r with
          | some (g, s1) => s1.answerPair t l.x m.x g
          | none => s
        else s.startRecovery t 2 0 (p64 pa) (p64 pb)
      | .fetch pa, .fetch pb =>
        if pa = pb then (match s.looseFetch t pa r with | (g, s1) => s1.answerPair t l.x m.x g)
        else s.startRecovery t 2 0 (p64 pa) (p64 pb)
      | .sev a, .sev b =>
        if a = b then
          let s1 := (s.popPair t).resumePartners t
          { s1 with outbox := s1.outbox ++ [.sev (2 * t) a] }
        else s.startRecovery t 2 0 0 0
      | .agree a sl tol, .agree b sr tol' =>
        if a = b ∧ tol = tol' then
          let s1 := if disagrees sl sr tol then s.inputDisagree t a sl sr else s
          s1.answerPair t l.x m.x (.word ⟨agreeTag a, sl⟩)
        else s.startRecovery t 2 0 0 0
      | .ckpt a, .ckpt b =>
        if a = b then s.answerPair t l.x m.x .done else s.startRecovery t 3 l.x a b
      | a, b => s.startRecovery t 2 0 a.addr b.addr
    | _, _ => s

/-- More than 20 µs pass for an output of one core of loose twin t without its partner's (R496): recovery starts with
cause WAIT. -/
def State.partnerTimeout (s : State) (t : Nat) (shadow : Bool) : State :=
  let w := s.twin t
  if w.mode ≠ .loose ∨ w.moving then s
  else
    match (if shadow then w.outS else w.outL), (if shadow then w.outL else w.outS) with
    | e :: _, [] => s.startRecovery t 4 (b2n shadow) ((s.ctx e.x).pc) 0
    | _, _ => s

/-! ### AGREE, CKPT and BRK (R209 to R213, R498, R512) -/

/-- The input that a selector names, as this device samples it now (R210). -/
def State.agreeInput (s : State) (sel : Nat) : Option Pay :=
  if sel < 0x10 then some (p64 (b2n (s.evt.getLsbD sel)))
  else if sel = 0x10 then some (p64 s.evt.toNat)
  else if 0x100 ≤ sel ∧ sel < 0x140 then some (p64 (s.rf (oPls + 0x1000 + 0x20 * (sel - 0x100) + 0x18) 31 0))
  else if 0x200 ≤ sel ∧ sel < 0x240 then some (p64 (s.rf (oPls + 0x1000 + 0x20 * (sel - 0x200)) 61 61))
  else if sel = 0x300 then some s.time
  else none

/-- AGREE (R210 to R213). `skew` is what the shadow samples in tight mode, or the executing core in loose mode, when
it differs. -/
def opAgree (d a b : BitVec 5) (skew : Option Pay) : X Flow := do
  let sel := fld (← X.rdUsed a).pay 15 0
  let tol := (← X.rdUsed b).pay
  let s ← X.st
  let x ← X.ctxNo
  match s.agreeInput sel with
  | none => X.raise (Exc.dataBus 7 (p64 sel))
  | some v =>
    if s.isLoose x then do
      let w ← X.loosePair (.agree sel (skew.getD v) tol) (fun g => match g with
        | .word w => pure w
        | _ => pure ⟨agreeTag sel, v⟩)
      X.wr d w
      return .seq
    else do
      if s.isTight x && disagrees v (skew.getD v) tol then
        X.upd (fun s => s.inputDisagree (twinOf x) sel v (skew.getD v))
      X.wr d ⟨agreeTag sel, v⟩
      return .seq

/-- The register signature of CKPT (R498): the registers that CKM selects, each signed as a register write. -/
def State.ckptSig (s : State) (x : Nat) : Pay :=
  let c := s.ctx x
  let m := (s.core (s.coreOf x)).sp Sr.ckm
  let g (r : Nat) : List Pay := if bit m r then signReg x r 0 (c.rd (BitVec.ofNat 5 r)) else []
  let l (r : Nat) : List Pay := if bit m (16 + r) then signReg x (16 + r) c.bank (c.rd (BitVec.ofNat 5 (16 + r))) else []
  let sp (n : Nat) : List Pay := signReg x (0x1000 + n) 0 (s.readSpec x n)
  let ps := if bit m 32 then sp Sr.ps else []
  let loop := if bit m 33 then (List.range' Sr.ls0 9).flatMap sp ++ sp Sr.rpc else []
  let stk := if bit m 34 then (List.range' Sr.sp0 4).flatMap sp ++ (List.range' Sr.esp0 4).flatMap sp else []
  ((List.range' 1 15).flatMap g ++ (List.range 16).flatMap l ++ ps ++ loop ++ stk).foldl misrStep misrSeed

/-- CKPT (R498). -/
def opCkpt : X Flow := do
  let s ← X.st
  let x ← X.ctxNo
  if s.isTight x then do X.closeWindow; return .seq
  else if s.isLoose x then X.loosePair (.ckpt (s.ckptSig x)) (fun _ => pure .seq)
  else return .seq

/-- BRK (R512): it retires, and under enabled debug access its core halts. -/
def opBrk : X Flow := do
  let s ← X.st
  let k ← X.core
  let x ← X.ctxNo
  let c ← X.ctx
  if s.sec.attached && s.debugAllowed then do
    X.upd (fun s => (s.retire x [c.pc] (c.pc + 4) none).debugHalt k)
    return .stay
  else return .seq

end Sys2Proof.Machine
end

