-- ==== Sys2Proof/Machine/Fabric.lean ====
section
/-!
DEFINITION. The fabric's own events (R16, R20 to R27, R392, R402) and debug access (R511, R643, R736).
-/
namespace Sys2Proof.Machine

/-! ### Transactions (R16, R21 to R27) -/

/-- Contexts that wait for transaction id go on; those it is an answer for receive `g`. -/
def State.wakeTxn (s : State) (id : Nat) (g : Option Grant) : State :=
  (s.ctxs.filter (fun e => e.2.run = .fabric id)).foldl (fun s e => s.updCtx e.1 (fun c =>
    { c with run := .run, grants := c.grants ++ g.toList })) s

/-- What a load's response does beside answering: corrections are counted, the L2 acts on its line (R93, R403). -/
def State.respSide (s : State) (t : Txn) (r : Resp) : State :=
  let n := clusterOfCore t.src
  let line := s.key t.src t.pa / 64
  match r with
  | .meshCorr => s.telem t.src telMeshCorr (p64 t.pa)
  | .ddrCorr => s.telem t.src telDdrCorr (p64 t.pa)
  | .l2Corr => if (s.l2At n line).isSome then s.l2Corrected t.src n line else s
  | .l2Ue => match s.l2At n line with | some m => s.l2Uncorr t.src n line (m.dirty || s.lineDirty line) | none => s
  | _ => s

/-- The error that a response carries, as a load's answer. -/
def respError : Resp → Option Grant
  | .error => some .error
  | .doubleBit => some .doubleBit
  | .dramUe => some .dramUe
  | _ => none

/-- What the target of a load returns as the request is served (R18, R392, R404): the word of a device register, of a PCIe
window or of memory; `.done` where a register answers later. -/
def State.loadAnswer (s : State) (t : Txn) : Grant × State :=
  match s.region t.pa with
  | .dev off =>
    match s.devLoad t.src t.x off with
    | .val v s1 => (.word (Word.raw v), s1)
    | .wait _ => (.done, s)
  | .pcie _ => (.word (Word.raw s.free.1), s.free.2)
  | _ =>
    let key := s.key t.src t.pa
    if s.poisoned (key / 64) then (.poison, s)
    else
      let s1 := (s.confirmLine (key / 64)).cohRead none (key / 64)
      (.word (s1.word key), s1)

/-- A posted store's request has been acknowledged, or answered with an error (R20, R455); a double-bit error in the
acknowledgement is a Machine Check at the context (R20). One that has taken effect already does not do so again. -/
def State.storeAck (s : State) (o : Out) (r : Resp) (arrived : Bool) : State :=
  let s1 : State := if arrived then s else { s with outbox := s.outbox ++ [o] }
  match o, r with
  | .store x _ pa _ _ pc, .error => s.recSbe x 5 pa pc
  | .store x _ pa _ _ _, .doubleBit => if x = noCtx then s1 else s1.updCtx x (fun c => { c with mcs := c.mcs ++ [⟨2, p64 pa⟩] })
  | _, _ => s1

/-- A posted store of source `src` to target `tgt`, sent before transaction `id`, that has not taken effect yet. -/
def Txn.stands (u : Txn) (src tgt id : Nat) : Bool :=
  u.kind = .store && !u.arrived && u.src = src && u.tgt = tgt && decide (u.id < id)

/-- Messages of one source to one target arrive in order (R18, R47): what is served at the target has all the source's earlier
posted stores to it before it; they take effect now, and their acknowledgements are still on their way. -/
def State.arriveBefore (s : State) (src tgt id : Nat) : State :=
  let s1 : State :=
    { s with
      outbox := s.outbox ++ (s.txns.filter (fun u => u.stands src tgt id)).filterMap (·.out)
      txns := s.txns.map (fun u => if u.stands src tgt id then { u with arrived := true } else u) }
  s1.settle

/-! ### Credits (R16, R17, R33) -/

/-- The first of the waiting requests in the round robin; the oldest of one source. -/
def nextWaiter (last : Nat) (ts : List Txn) : Option Txn := roundRobin Txn.src last ts

/-- The request that the round robin sends next from attachment h to target tgt, when it finds room (R16, R17, R33). -/
def State.nextHeld (s : State) (h tgt : Nat) : Option Txn :=
  let q := creditKey 0 h tgt
  (nextWaiter (Tbl.get (fun _ => 255) s.lastSent q) (s.txns.filter (fun t => t.st = .held && holderOf t.src = h && t.tgt = tgt))).filter
    (fun t => decide ((s.queue q).sum + reqFlits t.kind t.width ≤ queueDepth) && decide (s.rspUse h + rspFlits t.kind ≤ rspDepth h))

/-- Requests held at attachment h for target tgt go out while they find room, at most `fuel` of them. -/
def State.sendHeld (h tgt : Nat) : Nat → State → State
  | 0, s => s
  | fuel + 1, s =>
    match s.nextHeld h tgt with
    | none => s
    | some t =>
      let q := creditKey 0 h tgt
      let s1 := (s.enqueue q (reqFlits t.kind t.width)).enter t.id (s.newEntry h)
      State.sendHeld h tgt fuel { s1 with lastSent := Tbl.set (fun _ => 255) s1.lastSent q t.src }

/-- A receiver removes the oldest message of a queue and returns its credits (R16). -/
def State.creditReturn (s : State) (src tgt cls : Nat) : State :=
  let h := holderOf src
  let q := creditKey cls h tgt
  let s1 : State := { s with queues := Tbl.set (fun _ => []) s.queues q ((s.queue q).drop 1) }
  if cls = 0 then State.sendHeld h tgt queueDepth s1 else s1

/-! ### Responses (R18 to R27) -/

/-- Transaction t of the table completes with a response; what waited for its entry, register or credits tries again. -/
def State.complete (s0 : State) (t : Txn) (r : Resp) : State :=
  let s := s0.arriveBefore t.src t.tgt t.id
  let gone : State := { s with txns := s.txns.filter (fun u => u.id ≠ t.id) }
  let s1 := gone.respSide t r
  let s2 :=
    match t.kind with
    | .store =>
      let arrived := s.txns.any (fun u => u.id = t.id && u.arrived)
      ((t.out.map (fun o => s1.storeAck o r arrived)).getD s1).wakeTxn t.id none
    | .evict => ((if (respError r).isSome then s1.discard (t.pa / 64) else s1.writeBack (t.pa / 64))).wakeTxn t.id none
    | .load =>
      match respError r with
      | some g => s1.wakeTxn t.id (some g)
      | none => let a := s1.loadAnswer t; a.2.wakeTxn t.id (some a.1)
    | .line | .fetch => s1.wakeTxn t.id (some ((respError r).getD .done))
  (State.sendHeld (holderOf t.src) t.tgt queueDepth s2).wakeHold

/-- A response arrives (R25 to R27): late when its transaction has left the table. -/
def State.response (s : State) (id : Nat) (r : Resp) : State :=
  match s.txns.find? (fun t => t.id = id) with
  | some t => if t.inTable then s.complete t r else s
  | none => if id < s.nextTxn then s.telem 0x51 telLate (p64 id) else s

/-- The time a transaction may be in the table, in ns, and one fabric cycle, in which a response still counts (R25, R26). -/
abbrev fabricLimit : Nat := 50000000
abbrev fabricCycle : Nat := 1

/-- Transaction t is taken out with an error response, and counted (R25). -/
def State.expire (s : State) (t : Txn) : State := (s.telem t.src telFabTo (p64 t.pa)).complete t .error

/-- A transaction is 50 ms in the table without a response (R25): the cycle in which a response still counts is over (R26). -/
def State.fabricTimeout (s : State) (id : Nat) : State :=
  match s.txns.find? (fun t => t.id = id) with
  | some t => if t.inTable then (s.timeTo (t.time + p64 (fabricLimit + fabricCycle))).expire t else s
  | none => s

/-- Transactions that device time has left behind (R25), oldest first, at most `fuel` of them. -/
def State.expireDue : Nat → State → State
  | 0, s => s
  | fuel + 1, s =>
    match s.txns.find? (fun t => t.inTable && decide (t.time.toNat + fabricLimit < s.time.toNat)) with
    | some t => State.expireDue fuel (s.expire t)
    | none => s

/-- A released entry goes to a waiting request (R22 to R24). -/
def State.grantEntry (s : State) : State :=
  match nextWaiter s.lastGrant (s.txns.filter (fun t => t.st = .waiting && s.entryFor (holderOf t.src) ≠ .waiting)) with
  | none => s
  | some t => { s.enter t.id (s.entryFor (holderOf t.src)) with lastGrant := t.src }

/-! ### The passing of time (R25, R205, R671) -/

/-- A REFCLK cycle without a command (assumption 10): the clocks go on, deadlines of WAITT are met, and transactions that
have stood too long leave the table. -/
def State.tick (s : State) : State :=
  if s.sys.inReset then s.refTick
  else
    let s1 := s.refTick
    let s2 := (s1.ctxs.filter (fun e => match e.2.run with
      | .waitt _ d => decide (d ≤ (s1.core (s1.coreOf e.1)).sp Sr.cyc)
      | _ => false)).foldl (fun s e => s.waittDeadline e.1) s1
    (State.expireDue s2.txns.length s2).settle

/-- Numbers of the message classes, as keys of credit counts. -/
def classNo : MsgClass → Nat
  | .req => 0
  | .rsp => 1
  | .evt => 2
  | .mgt => 3

/-! ### Coherence requests (R391, R392, R402, R404, R488) -/

/-- Another source reads or writes a line of a normal range (R392), and may find an L1D copy bad. -/
def State.coherence (s : State) (src pa : Nat) (write bad : Bool) : State :=
  let line := s.key src pa / 64
  if !(s.region pa).isRam ∨ (s.prt pa).se ∨ (s.region pa = .keep ∧ !keepSource src) then s
  else
    let s1 := s.confirmLine line
    let s2 := if bad then s1.l1dBad line else s1
    if s2.poisoned line then s2
    else if write then s2.cohWrite none none line
    else s2.cohRead (if src < 64 then some (clusterOfCore src) else none) line

/-! ### Debug access (R511, R619, R643, R736) -/

/-- Debug access is attached and still allowed. -/
def State.debugOn (s : State) : Bool := s.sec.attached && s.debugAllowed && !s.sys.inReset

/-- The first access attaches debug, sets DBGUSED and extends MEAS7 (R643). -/
def State.debugAttach (s : State) : State :=
  if !s.debugAllowed ∨ s.sys.inReset then s else (s.updSec (fun c => { c with attached := true })).debugUsed

def State.debugHaltReq (s : State) (k : Nat) : State := if s.debugOn then s.debugHalt k else s

/-- The contexts of core k that debug access has halted run again, and receive what was held for them (R204, R741). -/
def State.debugResume (s : State) (k : Nat) : State :=
  if !s.debugOn then s
  else (s.ctxsOn k).foldl (fun s x =>
    if (s.ctx x).halted then (s.updCtx x (fun c => { c with halted := false, stepping := false })).deliverHeld x else s) s

/-- Halted context x runs to its next boundary. -/
def State.debugStep (s : State) (x : Nat) : State :=
  if s.debugOn ∧ (s.ctx x).halted then s.updCtx x (fun c => { c with halted := false, stepping := true }) else s

/-- Which register debug access names: a general register by field and bank, or a special register. -/
def State.debugRead (s : State) (x : Nat) (special : Bool) (n bank : Nat) : Word :=
  if special then s.readSpec x n else (s.ctx x).rdKey (regKey bank (BitVec.ofNat 5 n))

/-- A write of a special register by debug access: the bits that MTS writes. -/
def State.debugSpec (s : State) (x n : Nat) (v : Pay) : State :=
  let k := s.coreOf x
  match srRings n with
  | some (_, some _) =>
    if n = Sr.ps then
      s.updCtx x (fun c => c.setSp n (atFld 9 9 (fld v 9 9) ||| atFld 7 7 (fld v 7 7) ||| atFld 5 4 (fld v 5 4) ||| atFld 1 0 (fld v 1 0)))
    else if n = Sr.cctl then (s.sweepL1d k).writeCctl k v
    else if n = Sr.ucs then s
    else if n = Sr.winb then s.updCtx x (fun c => c.setSp n (newWinb (c.sp n) v))
    else if 0x023 ≤ n ∧ n ≤ 0x025 then s.updCtx x (fun c => c.setSp n (v &&& maskFld 47 0))
    else
      let s1 := if srPerCtx n then s.updCtx x (fun c => c.setSp n (v &&& srMask n)) else s.updCore k (fun c => c.setSp n (v &&& srMask n))
      if n = Sr.tvb then s1.reloadTvb k else s1
  | _ => s

/-- Debug access reads, or with a word writes, a register of a halted context. -/
def State.debugReg (s : State) (x : Nat) (special : Bool) (n bank : Nat) (w : Option Word) : State :=
  if !s.debugOn ∨ !(s.ctx x).halted then s
  else
    match w with
    | none => { s with answer := some (s.debugRead x special n bank) }
    | some v => if special then s.debugSpec x n v.pay else s.updCtx x (fun c => c.wrKey (regKey bank (BitVec.ofNat 5 n)) v)

/-- Source code of debug access (R15). -/
abbrev debugSource : Nat := 0x50

/-- Debug access reads, or with a word writes, the word at physical address pa, checked as ring 0 (R736). -/
def State.debugMem (s : State) (pa : Nat) (w : Option Word) : State :=
  if !s.debugOn ∨ pa % 8 ≠ 0 ∨ !s.prtOk 0 pa then s
  else
    match s.region pa with
    | .unmapped | .keep => s
    | .rom => match w with | none => { s with answer := some (s.word pa) } | some _ => s
    | .pcie _ => match w with | none => { s.free.2 with answer := some (Word.raw s.free.1) } | some _ => s
    | .dev off =>
      if 0x20 ≤ pageOf off ∧ !s.clOn (pageOf off - 0x20) then s
      else
        match w with
        | none => match s.devLoad debugSource 0 off with | .val v s1 => { s1 with answer := some (Word.raw v) } | .wait _ => s
        | some v => s.devStore debugSource 0 off v.pay
    | .dram | .staging | .jnv =>
      match w with
      | none => let r := s.engRead pa; if s.poisoned (pa / 64) then s else { r.2 with answer := some r.1 }
      | some v => s.memStore debugSource pa 8 v

end Sys2Proof.Machine
end

