-- ==== Sys2Proof/Machine/Issue.lean ====
section
/-!
DEFINITION. The issue of one instruction: its fetch and checks, its meaning, and how it ends, by retiring, by an exception
that leaves its state as it was (R454), or by a wait. Every instruction row goes through `issue`.
-/
namespace Sys2Proof.Machine

/-- A Tag Trap with tag dispatch on (R149): the table word is read at the current ring, as the access after those of the
instruction; zero enters vector 18, else the frame of vector 18 goes onto the current ring's stack and the handler is the
word's payload. With TB = 1 the trap is a Double Fault (R232). `r` is the run that ended in the trap. -/
def State.tagTrapEntry (s : State) (r : Run) (pc : Pay) (e : Exc) : State :=
  let x := r.x
  let c := s.ctx x
  if e.vec ≠ 18 ∨ !bit (c.sp Sr.tdb) 0 ∨ c.tb then s.enterExc x pc e r.at_
  else
    let va := atFld 47 8 (fld (c.sp Sr.tdb) 47 8) + p64 (8 * fld e.cause 15 8)
    let read : X Word := do
      let m ← X.met
      let va1 ← X.accessCheck (Word.raw va) va false
      let tr ← X.translate c.ring .load va1 m
      X.loadPhys tr 8 va1 m
    match read { r with s := s.updCtx x (fun c => { c with grants := (r.s.ctx x).grants }) } with
    | .error (.exc e2 side _) _ => (side s).enterExc x pc e2 r.at_
    | .error (.park p) r1 => r1.s.updCtx x (fun c =>
        { c with run := p, obs := r1.seen.drop r1.base, inflight := true, slot := r1.slotAt })
    | .error (.mismatch sig) r1 => s.startRecovery (twinOf x) 1 0 ((r1.s.twin (twinOf x)).misr) sig
    | .ok w r1 =>
      if w.pay = 0 then r1.s.enterExc x pc e r.at_
      else if fld w.pay 63 48 ≠ 0 then r1.s.enterExc x pc (Exc.addrForm 3 w.pay) r.at_
      else if fld w.pay 1 0 ≠ 0 then r1.s.enterExc x pc (Exc.align 3 w.pay) r.at_
      else
        match r1.s.pushPlan x c.ring (c.sp (spNo c.ring c.em)) with
        | none => r1.s.doubleFault x c.ring pc e 1 (c.sp (spNo c.ring c.em) - 64)
        | some plan => r1.s.pushEnter x c.ring c.em w.pay pc e plan

/-- What the context waits for, when an instruction of `size` bytes parks on p. -/
def parkedAs (size : Nat) (p : RunState) : RunState :=
  match p with
  | .sweep v _ false => .sweep v size false
  | q => q

/-- A wait within the accesses of an instruction, which goes on where it waited; any other wait runs it anew. -/
def RunState.within : RunState → Bool
  | .fabric _ | .partner | .reg _ => true
  | _ => false

/-- Issue one instruction at context x: `size` is 4, or 8 for EXT; `longLike` marks the repeats and long
instructions of R194, R219 and R271. -/
def issue (at_ : At) (size : Nat) (longLike : Bool) (body : Pay → X Flow) (s : State) : State :=
  let x := at_.x.toNat
  let c := s.ctx x
  if !s.powered x ∨ (c.run ≠ .run) then s
  else
    match (if (c.fresh ∧ longLike) ∨ c.slot.isSome ∨ c.inflight ∨ !c.grants.isEmpty then none else s.async x) with
    | some a => if s.pushWaits x then s else s.takeAsync x a
    | none =>
      let pc := c.pc
      let run : X Flow := do
        if c.inflight then pure ()
        else do
          if at_.regPar then X.raise (Exc.mcheck 7 0) else pure ()
          X.fetch pc
        if size = 8 ∧ bit pc 2 then X.raise (Exc.illegal 5) else pure ()
        modify (fun r => { r with fetched := true })
        body pc
      let slots := slotsOf pc size
      match run { s := s, x := x, at_ := at_ } with
      | .ok f r =>
        (match f with
        | .seq => r.s.retire x slots (pc + p64 size) none
        | .load d w => r.s.retire x slots (pc + p64 size) (some ⟨2, d, (s.ctx x).bank, w⟩)
        | .jump t => r.s.retireTo x t
        | .stay => r.s).settle
      | .error st r =>
        (match st with
        | .exc e side keep =>
          if s.pushWaits x then s.updCtx x (fun c => { c with run := .hold })
          else (side (if keep then r.s else s)).tagTrapEntry r pc e
        | .park p => r.s.updCtx x (fun c =>
            { c with run := parkedAs size p, obs := if p.within then r.seen.drop r.base else [],
                     inflight := r.fetched && p.within, slot := r.slotAt })
        | .mismatch sig => s.startRecovery (twinOf x) 1 0 ((r.s.twin (twinOf x)).misr) sig).settle

end Sys2Proof.Machine
end

