-- ==== Sys2Proof/Machine/Flags.lean ====
section
/-!
DEFINITION. Numbers as the arithmetic and the comparisons see them. The Caerash keeps no arithmetic flags (R142):
what other machines flag is here a condition on exact values, from which a trap or a result follows. FLO values are
exact multiples of 2^-1074 (R142), FIX values are integers (R60).
-/
namespace Sys2Proof.Machine

/-- FIX payload as an integer. -/
abbrev fixVal (p : Pay) : Int := p.toInt
/-- An integer lies in FIX range (R140). -/
def inFix (v : Int) : Bool := decide (-(2 ^ 63 : Int) ≤ v) && decide (v < 2 ^ 63)
/-- An integer as a FIX payload, wrapping. -/
abbrev fixPay (v : Int) : Pay := BitVec.ofInt 64 v

/-- A binary64 value: a NaN, an infinity, or a signed magnitude in units of 2^-1074. -/
inductive FloVal where
  | nan
  | inf (neg : Bool)
  | fin (neg : Bool) (mag : Nat)
  deriving DecidableEq, Repr

/-- The canonical NaN (R142). -/
abbrev floNaN : Pay := 0x7FF8000000000000#64

/-- Decode a binary64 payload. -/
def floVal (p : Pay) : FloVal :=
  let neg := bit p 63
  let e := fld p 62 52
  let m := fld p 51 0
  if e = 2047 then (if m = 0 then .inf neg else .nan)
  else if e = 0 then .fin neg m
  else .fin neg ((2 ^ 52 + m) * 2 ^ (e - 1))

/-- An infinity as a payload. -/
def floInf (neg : Bool) : Pay := atFld 63 63 neg.toNat ||| 0x7FF0000000000000#64

/-- num/den rounded to the nearest integer, ties to even. -/
def rne (num den : Nat) : Nat :=
  let q := num / den
  let r := num % den
  if 2 * r > den ∨ (2 * r = den ∧ q % 2 = 1) then q + 1 else q

/-- The magnitude num/den units of 2^-1074, rounded to nearest even binary64 with subnormals, as a payload (R142). -/
def floRound (neg : Bool) (num den : Nat) : Pay :=
  let q := num / den
  let k := if q < 2 ^ 53 then 0 else Nat.log2 q - 52
  let m0 := rne num (den * 2 ^ k)
  let m := if m0 = 2 ^ 53 then 2 ^ 52 else m0
  let k1 := if m0 = 2 ^ 53 then k + 1 else k
  let sign := atFld 63 63 neg.toNat
  if m < 2 ^ 52 then sign ||| p64 m
  else if k1 + 1 ≥ 2047 then floInf neg
  else sign ||| p64 ((k1 + 1) * 2 ^ 52 + (m - 2 ^ 52))

/-- A value as a payload: exact for a decoded value. -/
def floPay : FloVal → Pay
  | .nan => floNaN
  | .inf n => floInf n
  | .fin n m => floRound n m 1

/-- flo(x) for a FIX (R139). -/
def floOfFix (p : Pay) : Pay := let v := fixVal p; floRound (decide (v < 0)) (v.natAbs * 2 ^ 1074) 1

/-- A finite value as an integer count of 2^-1074. -/
def floInt (neg : Bool) (m : Nat) : Int := if neg then -(m : Int) else (m : Int)

/-- FLO sum (R140, R142). -/
def floAdd (a b : FloVal) : Pay :=
  match a, b with
  | .nan, _ | _, .nan => floNaN
  | .inf x, .inf y => if x = y then floInf x else floNaN
  | .inf x, .fin _ _ => floInf x
  | .fin _ _, .inf y => floInf y
  | .fin x m, .fin y n =>
    let v := floInt x m + floInt y n
    if v = 0 then (if x ∧ y then floRound true 0 1 else 0#64) else floRound (decide (v < 0)) v.natAbs 1

/-- Sign changed. -/
def FloVal.neg : FloVal → FloVal
  | .nan => .nan
  | .inf n => .inf (!n)
  | .fin n m => .fin (!n) m

/-- FLO product. -/
def floMul (a b : FloVal) : Pay :=
  match a, b with
  | .nan, _ | _, .nan => floNaN
  | .inf x, .inf y => floInf (x ^^ y)
  | .inf x, .fin y n => if n = 0 then floNaN else floInf (x ^^ y)
  | .fin x m, .inf y => if m = 0 then floNaN else floInf (x ^^ y)
  | .fin x m, .fin y n => floRound (x ^^ y) (m * n) (2 ^ 1074)

/-- FLO quotient: a zero divisor gives an infinity, or NaN for 0 ÷ 0 (R140). -/
def floDiv (a b : FloVal) : Pay :=
  match a, b with
  | .nan, _ | _, .nan => floNaN
  | .inf _, .inf _ => floNaN
  | .inf x, .fin y _ => floInf (x ^^ y)
  | .fin x _, .inf y => floRound (x ^^ y) 0 1
  | .fin x m, .fin y n =>
    if n = 0 then (if m = 0 then floNaN else floInf (x ^^ y)) else floRound (x ^^ y) (m * 2 ^ 1074) n

/-- FLO remainder a − b × trunc(a ÷ b), exact; a zero result has the sign of a (R140, R142; assumption 4). -/
def floRem (a b : FloVal) : Pay :=
  match a, b with
  | .nan, _ | _, .nan => floNaN
  | .inf _, _ => floNaN
  | .fin x m, .inf _ => floRound x m 1
  | .fin x m, .fin _ n => if n = 0 then floNaN else floRound x (m % n) 1

/-- A number as an exact value for comparison: FIX scaled to units of 2^-1074. -/
inductive NumVal where
  | nan
  | ninf
  | pinf
  | num (v : Int)
  deriving DecidableEq, Repr

def numOfFlo (p : Pay) : NumVal :=
  match floVal p with
  | .nan => .nan
  | .inf n => if n then .ninf else .pinf
  | .fin n m => .num (floInt n m)
def numOfFix (p : Pay) : NumVal := .num (fixVal p * 2 ^ 1074)

/-- How two numbers compare exactly (R143). -/
inductive Cmp where
  | lt | eq | gt | un
  deriving DecidableEq, Repr

def cmpNum (a b : NumVal) : Cmp :=
  match a, b with
  | .nan, _ | _, .nan => .un
  | .num v, .num w => if v < w then .lt else if v = w then .eq else .gt
  | .ninf, .ninf | .pinf, .pinf => .eq
  | .ninf, _ => .lt
  | _, .ninf => .gt
  | .pinf, _ => .gt
  | _, .pinf => .lt

/-- trunc of a finite FLO toward zero. -/
def truncFlo (neg : Bool) (m : Nat) : Int := floInt neg (m / 2 ^ 1074)

end Sys2Proof.Machine
end

