-- ==== Sys2Proof/Machine/Arith.lean ====
section
/-!
DEFINITION. Generic arithmetic, comparisons, bit operations, tags, moves and conversions (R139 to R151), over operand
words, so that instructions and micro-ops share them; then one meaning per instruction.
-/
namespace Sys2Proof.Machine

/-- flo(x) of R139 for a FIX or FLO word, decoded. -/
def floOf (w : Word) : FloVal := if w.tag = Tag.fix then floVal (floOfFix w.pay) else floVal w.pay
/-- A FIX or FLO word as an exact number. -/
def numOf (w : Word) : NumVal := if w.tag = Tag.fix then numOfFix w.pay else numOfFlo w.pay

/-- A FIX result, or OVF when it is out of range (R139, R813). -/
def X.fixResult (op : Nat) (a : Word) (b : Option (BitVec 8)) (v : Int) : X Word :=
  if inFix v then pure (Word.fix (fixPay v)) else X.tagTrap op rOvf 0 (some a.tag) b

/-- The pattern of ADD, SUB and MUL (R139, R140). -/
def X.arith (op : Nat) (fi : Int → Int → Int) (ff : FloVal → FloVal → Pay) (a b : Word) : X Word := do
  X.check2 op a b isNum isNum
  if a.tag = Tag.fix ∧ b.tag = Tag.fix then X.fixResult op a (some b.tag) (fi (fixVal a.pay) (fixVal b.pay))
  else pure (Word.flo (ff (floOf a) (floOf b)))

def X.add (op : Nat) (a b : Word) : X Word := X.arith op (· + ·) floAdd a b
def X.sub (op : Nat) (a b : Word) : X Word := X.arith op (· - ·) (fun x y => floAdd x y.neg) a b
def X.mul (op : Nat) (a b : Word) : X Word := X.arith op (· * ·) floMul a b

/-- DIV (R140): FIX quotient truncated toward zero, DIVZ, OVF. -/
def X.div (op : Nat) (a b : Word) : X Word := do
  X.check2 op a b isNum isNum
  if a.tag = Tag.fix ∧ b.tag = Tag.fix then
    if b.pay = 0 then X.tagTrap op rDivz 2 (some a.tag) (some b.tag)
    else X.fixResult op a (some b.tag) (Int.tdiv (fixVal a.pay) (fixVal b.pay))
  else pure (Word.flo (floDiv (floOf a) (floOf b)))

/-- REM (R140): FIX remainder with the sign of a. -/
def X.rem (op : Nat) (a b : Word) : X Word := do
  X.check2 op a b isNum isNum
  if a.tag = Tag.fix ∧ b.tag = Tag.fix then
    if b.pay = 0 then X.tagTrap op rDivz 2 (some a.tag) (some b.tag)
    else pure (Word.fix (fixPay (Int.tmod (fixVal a.pay) (fixVal b.pay))))
  else pure (Word.flo (floRem (floOf a) (floOf b)))

/-- NEG (R141). -/
def X.neg (op : Nat) (a : Word) : X Word := do
  X.check1 op a isNum
  if a.tag = Tag.fix then X.fixResult op a none (-(fixVal a.pay))
  else pure (Word.flo (if floVal a.pay = .nan then floNaN else a.pay ^^^ 0x8000000000000000#64))

/-- ABS (R141). -/
def X.abs (op : Nat) (a : Word) : X Word := do
  X.check1 op a isNum
  if a.tag = Tag.fix then X.fixResult op a none (if fixVal a.pay < 0 then -(fixVal a.pay) else fixVal a.pay)
  else pure (Word.flo (if floVal a.pay = .nan then floNaN else a.pay &&& 0x7FFFFFFFFFFFFFFF#64))

/-- The exact comparison of two numbers, after the tag check (R143). -/
def X.compare (op : Nat) (a b : Word) : X Cmp := do
  X.check2 op a b isNum isNum
  pure (cmpNum (numOf a) (numOf b))

/-- CMP's FIX result (R143). -/
def cmpFix : Cmp → Word
  | .lt => Word.fix (fixPay (-1))
  | .eq => Word.fix 0
  | .gt => Word.fix 1
  | .un => Word.fix 2

def X.cmp (op : Nat) (a b : Word) : X Word := do return cmpFix (← X.compare op a b)
def X.ceq (op : Nat) (a b : Word) : X Word := do return Word.ofBool ((← X.compare op a b) = .eq)
def X.clt (op : Nat) (a b : Word) : X Word := do return Word.ofBool ((← X.compare op a b) = .lt)
def X.cle (op : Nat) (a b : Word) : X Word := do
  let c ← X.compare op a b
  return Word.ofBool (c = .lt || c = .eq)

/-- EQ (R144): every tag except class 10. -/
def X.eqw (op : Nat) (a b : Word) : X Word := do
  X.check2 op a b (fun t => !isClass10 t) (fun t => !isClass10 t)
  return Word.ofBool (a = b)

/-- The RAW/FIX pattern of R150: RAW when either operand is RAW. -/
def X.bits2 (op : Nat) (f : Pay → Pay → Pay) (a b : Word) : X Word := do
  X.check2 op a b isRawFix isRawFix
  return ⟨if a.tag = Tag.raw ∨ b.tag = Tag.raw then Tag.raw else Tag.fix, f a.pay b.pay⟩

/-- One RAW/FIX operand, result tag of a. -/
def X.bits1 (op : Nat) (f : Pay → Pay) (a : Word) : X Word := do
  X.check1 op a isRawFix
  return ⟨a.tag, f a.pay⟩

/-- Shifts and rotates by 0 to 63 (R150). -/
def shiftPay (kind n : Nat) (p : Pay) : Pay :=
  if kind = 0 then p <<< n else if kind = 1 then p >>> n else if kind = 2 then p.sshiftRight n else p.rotateLeft n

/-- SHL, SHR, SAR, ROT (R150): result tag of a. -/
def X.shift (op kind : Nat) (a b : Word) : X Word := do
  X.check2 op a b isRawFix isRawFix
  return ⟨a.tag, shiftPay kind (fld b.pay 5 0) a.pay⟩

/-- Counts (R150). -/
def popCount (p : Pay) : Nat := countN 64 0 (fun i => bit p i)
def leadZeros (p : Pay) : Nat := (firstN 64 0 (fun i => bit p (63 - i))).getD 64
def trailZeros (p : Pay) : Nat := (firstN 64 0 (fun i => bit p i)).getD 64

def X.count (op : Nat) (f : Pay → Nat) (a : Word) : X Word := do
  X.check1 op a isRawFix
  return Word.fixN (f a.pay)

/-- A tag matches under a mask (R150). -/
def tagMatch (t : BitVec 8) (mask val : Nat) : Bool := t.toNat &&& mask = val

/-- TTST (R150). -/
def X.ttst (a b : Word) : X Word := do
  X.check2 29 a b (fun _ => true) (· = Tag.fix)
  if b.pay.toNat > 0xFFFF then X.tagTrap 29 rRange 2 (some a.tag) (some b.tag)
  else return Word.ofBool (tagMatch a.tag (fld b.pay 15 8) (fld b.pay 7 0))

/-- The new-tag checks of RTAG and RTAGI (R151). -/
def X.retag (a : Word) (t : BitVec 8) : X Word := do
  let ring ← X.ring
  if isReservedTag t then X.raise (Exc.reserved 2)
  else if isClass10 t ∧ ring ≥ 2 then X.raise (Exc.privilege 3)
  else if t.toNat / 64 = 1 ∧ ring = 3 then X.raise (Exc.privilege 3)
  else return ⟨t, a.pay⟩

/-- RTAG (R150, R151). -/
def X.rtag (a b : Word) : X Word := do
  X.check2 29 a b (fun _ => true) (· = Tag.fix)
  if b.pay.toNat > 255 then X.tagTrap 29 rRange 2 (some a.tag) (some b.tag)
  else X.retag a (BitVec.ofNat 8 b.pay.toNat)

/-- CVTF (R150). -/
def X.cvtf (op : Nat) (a : Word) : X Word := do
  X.check1 op a isNum
  return if a.tag = Tag.fix then Word.flo (floOfFix a.pay) else a

/-- CVTI (R150): RANGE for NaN, infinities and values out of range. -/
def X.cvti (op : Nat) (a : Word) : X Word := do
  X.check1 op a isNum
  if a.tag = Tag.fix then return a
  else
    match floVal a.pay with
    | .fin n m =>
      let v := truncFlo n m
      if inFix v then return Word.fix (fixPay v) else X.tagTrap op rRange 1 (some a.tag) none
    | _ => X.tagTrap op rRange 1 (some a.tag) none

/-! ### One meaning per instruction -/

/-- Two registers to one. -/
def X.two (d a b : BitVec 5) (f : Word → Word → X Word) : X Flow := do
  X.wr d (← f (← X.rd a) (← X.rd b)); return .seq
/-- One register to one. -/
def X.one (d a : BitVec 5) (f : Word → X Word) : X Flow := do
  X.wr d (← f (← X.rd a)); return .seq

def opAdd (d a b : BitVec 5) : X Flow := X.two d a b (X.add 0)
def opSub (d a b : BitVec 5) : X Flow := X.two d a b (X.sub 1)
def opMul (d a b : BitVec 5) : X Flow := X.two d a b (X.mul 2)
def opDiv (d a b : BitVec 5) : X Flow := X.two d a b (X.div 3)
def opRem (d a b : BitVec 5) : X Flow := X.two d a b (X.rem 4)
def opNeg (d a : BitVec 5) : X Flow := X.one d a (X.neg 5)
def opAbs (d a : BitVec 5) : X Flow := X.one d a (X.abs 6)
/-- The immediate forms take FIX : imm as operand B (R139). -/
def opAddi (d a : BitVec 5) (imm : Pay) : X Flow := X.one d a (fun w => X.add 0 w (Word.fix imm))
def opMuli (d a : BitVec 5) (imm : Pay) : X Flow := X.one d a (fun w => X.mul 2 w (Word.fix imm))
def opCmp (d a b : BitVec 5) : X Flow := X.two d a b (X.cmp 7)
def opCeq (d a b : BitVec 5) : X Flow := X.two d a b (X.ceq 8)
def opClt (d a b : BitVec 5) : X Flow := X.two d a b (X.clt 9)
def opCle (d a b : BitVec 5) : X Flow := X.two d a b (X.cle 10)
def opCeqi (d a : BitVec 5) (imm : Pay) : X Flow := X.one d a (fun w => X.ceq 8 w (Word.fix imm))
def opClti (d a : BitVec 5) (imm : Pay) : X Flow := X.one d a (fun w => X.clt 9 w (Word.fix imm))
def opEq (d a b : BitVec 5) : X Flow := X.two d a b (X.eqw 11)
def opAnd (d a b : BitVec 5) : X Flow := X.two d a b (X.bits2 12 (· &&& ·))
def opOr (d a b : BitVec 5) : X Flow := X.two d a b (X.bits2 12 (· ||| ·))
def opXor (d a b : BitVec 5) : X Flow := X.two d a b (X.bits2 12 (· ^^^ ·))
def opAndn (d a b : BitVec 5) : X Flow := X.two d a b (X.bits2 12 (fun x y => x &&& ~~~y))
def opNot (d a : BitVec 5) : X Flow := X.one d a (X.bits1 12 (fun x => ~~~x))
def opAndi (d a : BitVec 5) (imm : Pay) : X Flow := X.one d a (X.bits1 12 (· &&& imm))
def opOri (d a : BitVec 5) (imm : Pay) : X Flow := X.one d a (X.bits1 12 (· ||| imm))
def opXori (d a : BitVec 5) (imm : Pay) : X Flow := X.one d a (X.bits1 12 (· ^^^ imm))
def opShl (d a b : BitVec 5) : X Flow := X.two d a b (X.shift 13 0)
def opShr (d a b : BitVec 5) : X Flow := X.two d a b (X.shift 13 1)
def opSar (d a b : BitVec 5) : X Flow := X.two d a b (X.shift 13 2)
def opRot (d a b : BitVec 5) : X Flow := X.two d a b (X.shift 13 3)
/-- SHI (R150): kind imm[7:6], amount imm[5:0]. -/
def opShi (d a : BitVec 5) (imm : Pay) : X Flow := X.one d a (X.bits1 13 (shiftPay (fld imm 7 6) (fld imm 5 0)))
def opPopc (d a : BitVec 5) : X Flow := X.one d a (X.count 13 popCount)
def opClz (d a : BitVec 5) : X Flow := X.one d a (X.count 13 leadZeros)
def opCtz (d a : BitVec 5) : X Flow := X.one d a (X.count 13 trailZeros)
def opTag (d a : BitVec 5) : X Flow := X.one d a (fun w => pure (Word.fixN w.tag.toNat))
def opTcls (d a : BitVec 5) : X Flow := X.one d a (fun w => pure (Word.fixN (w.tag.toNat / 64)))
def opTtst (d a b : BitVec 5) : X Flow := X.two d a b X.ttst
def opTtsti (d a : BitVec 5) (imm : Pay) : X Flow :=
  X.one d a (fun w => pure (Word.ofBool (tagMatch w.tag (fld imm 15 8) (fld imm 7 0))))
def opRtag (d a b : BitVec 5) : X Flow := X.two d a b X.rtag
def opRtagi (d a : BitVec 5) (imm : Pay) : X Flow := X.one d a (fun w => X.retag w (BitVec.ofNat 8 (fld imm 7 0)))
/-- MOV: every defined tag moves (R57, R150). -/
def opMov (d a : BitVec 5) : X Flow := X.one d a (fun w => do X.writable w; return w)
def opCvtf (d a : BitVec 5) : X Flow := X.one d a (X.cvtf 14)
def opCvti (d a : BitVec 5) : X Flow := X.one d a (X.cvti 15)
def opFtor (d a : BitVec 5) : X Flow := X.one d a (fun w => do X.check1 30 w (· = Tag.flo); return Word.raw w.pay)
def opRtof (d a : BitVec 5) : X Flow := X.one d a (fun w => do X.check1 30 w (· = Tag.raw); return Word.flo w.pay)
def opLdi (d : BitVec 5) (imm : Pay) : X Flow := do X.wr d (Word.fix imm); return .seq
/-- LDC (R150): Reserved Operand, cause 0x03, when the immediate is no scalar value. -/
def opLdc (d : BitVec 5) (imm : Pay) : X Flow := do
  if !chrOk imm then X.raise (Exc.reserved 3) else X.wr d ⟨Tag.chr, imm⟩
  return .seq
def opLdr (d : BitVec 5) (imm : Pay) : X Flow := do X.wr d (Word.raw imm); return .seq

end Sys2Proof.Machine
end

