-- ==== Sys2Proof/Machine/CacheOps.lean ====
section
/-!
DEFINITION. Fences, cache maintenance and code changes (R406 to R412, R424, R488).
-/
namespace Sys2Proof.Machine

/-! ### Lines of the whole device (R408, R409) -/

/-- Dirty copies of a line are written to memory and stay valid and clean. -/
def State.cleanLine (s : State) (line : Nat) : State :=
  let s1 := (s.cores.map (·.1)).foldl (fun s k => s.updCore k (fun c =>
    match Tbl.look c.l1d line with
    | some l => { c with l1d := Tbl.insert c.l1d line { l with dirty := false } }
    | none => c)) s
  let s2 := s1.clusterList.foldl (fun s n => s.updCluster n (fun c =>
    match Tbl.look c.l2 line with
    | some l => if l.poison then c else { c with l2 := Tbl.insert c.l2 line { l with dirty := false } }
    | none => c)) s1
  if s.poisoned line then s2 else s2.writeBack line

/-- L1I copies of a line leave every core. -/
def State.dropL1iLine (s : State) (line : Nat) : State :=
  (s.cores.map (·.1)).foldl (fun s k => s.updCore k (fun c => c.l1iDrop line)) s

/-- Every copy of a line becomes invalid, or invalid-locked in a locked way; poisoned lines stay unless `clear`. -/
def State.invalLine (s : State) (line : Nat) (clear : Bool) : State :=
  let s1 := (s.cores.map (·.1)).foldl (fun s k => s.updCore k (fun c => { c with l1d := Tbl.erase c.l1d line })) (s.dropL1iLine line)
  s1.clusterList.foldl (fun s n =>
    match s.l2At n line with
    | none => s
    | some l =>
      if l.poison && !clear then s
      else
        let lk := s.l2Locked n l.way
        s.updCluster n (fun c => { c with l2 := Tbl.erase c.l2 line, l2Lk := if lk then Tbl.insert c.l2Lk line l.way else c.l2Lk })) s1

/-- What the maintenance instructions do to one line (R408). -/
inductive Maint where
  | cwb | cwbi | cinv | cinvr | cinvrNw
  deriving DecidableEq, Repr

def State.maintain (s : State) (m : Maint) (line : Nat) : State :=
  let s0 := s.confirmLine line
  match m with
  | .cwb => (s0.cleanLine line).dropL1iLine line
  | .cwbi | .cinvr => (s0.cleanLine line).invalLine line false
  | .cinv | .cinvrNw => ((s0.clearTagBad line).discard line).invalLine line true

/-- A line at a physical address that caches may hold: mapped, and not in a side-effect range (R407, R410). -/
def State.maintainable (s : State) (pa : Nat) : Bool := s.region pa ≠ .unmapped && !(s.prt pa).se

/-- The translation of a maintenance instruction (R407): the PRT's refusal of an address in a side-effect range, or of an unmapped
one, raises nothing, and there is then nothing to do. -/
def X.maintTr (ring : Nat) (kind : AccKind) (va : Pay) (m : Met) : X (Option Tr) := fun r =>
  match X.translate ring kind va m r with
  | .ok tr r1 => .ok (some tr) r1
  | .error (.exc e side keep) r1 =>
    if e.vec = 10 ∧ fld e.cause 7 0 = 6 ∧ !r.s.maintainable e.x0.pay.toNat then .ok none r1
    else .error (.exc e side keep) r1
  | .error st r1 => .error st r1

/-- CWB, CINV and CWBI (R407): address as R157 with displacement 0, translation as `kind`. -/
def X.maint (m : Maint) (kind : AccKind) (a : BitVec 5) : X Flow := do
  let w ← X.rd a
  X.baseTag 27 w
  X.eaForm w 0 1
  let va ← X.eaAddr w 0 (kind = .store)
  let ring ← X.ring
  let mt ← X.met
  X.closeWindow
  match (← X.maintTr ring kind va mt) with
  | none => return .seq
  | some tr => do
    let k ← X.core
    X.upd (fun s => if s.maintainable tr.pa then s.maintain m (s.key k tr.pa / 64) else s)
    return .seq

def opCwb (a : BitVec 5) : X Flow := X.maint .cwb .load a
def opCinv (a : BitVec 5) : X Flow := X.maint .cinv .store a
def opCwbi (a : BitVec 5) : X Flow := X.maint .cwbi .store a

/-- CINVR and CINVR.NW (R410). -/
def X.maintRange (m : Maint) (d a b : BitVec 5) : X Flow := do
  let wa ← X.rdUsed a
  let wb ← X.rdUsed b
  let ring ← X.ring
  let s ← X.st
  let k ← X.core
  let n := min wb.pay.toNat 4096
  let st := fld wa.pay 47 6 * 64
  if fld wa.pay 63 48 ≠ 0 ∨ st + 64 * n > 2 ^ 48 then X.raise (Exc.addrForm 5 wa.pay)
  else
    match firstN n 0 (fun i => !s.prtOk ring (st + 64 * i)) with
    | some i => X.raise (Exc.prot .store 6 (p64 (st + 64 * i)) (Word.rawN (st + 64 * i)))
    | none => do
      X.closeWindow
      X.upd (fun s => forN n 0 (fun i s =>
        if s.maintainable (st + 64 * i) then s.maintain m (s.key k (st + 64 * i) / 64) else s) s)
      X.wr d (Word.fixN (wb.pay.toNat - n))
      return .seq

def opCinvr (d a b : BitVec 5) : X Flow := X.maintRange .cinvr d a b
def opCinvrNw (d a b : BitVec 5) : X Flow := X.maintRange .cinvrNw d a b

/-! ### Fences (R424) -/

/-- A fence in a tight twin waits until the context's held stores have left the hold buffer (R424, R491). -/
def X.heldDone : X Unit := do
  if (← X.st).heldBy (← X.ctxNo) then X.park .window else pure ()

/-- FENCE.L: loads of one context complete in program order in this model, so nothing is outstanding. -/
def opFenceL : X Flow := return .seq
def opFenceS : X Flow := do X.heldDone; X.storesDone; return .seq
def opFence : X Flow := do X.heldDone; X.storesDone; return .seq
/-- FENCE.IO closes the window (R488). -/
def opFenceIo : X Flow := do X.closeWindow; X.storesDone; return .seq
/-- ISYNC (R412): the model fetches nothing ahead. -/
def opIsync : X Flow := return .seq
/-- NOP (R107). -/
def opNop : X Flow := return .seq

end Sys2Proof.Machine
end

