-- ==== Sys2Proof/Machine/Objects.lean ====
section
/-!
DEFINITION. Lists and objects (R69 to R71, R78, R79, R152 to R156, R307): shared parts over operand words, then one
meaning per instruction.
-/
namespace Sys2Proof.Machine

/-! ### Lists -/

/-- CAR and CDR (R152): `off` is 0 or 8. -/
def X.carCdr (op : Nat) (off : Pay) (a : Word) : X Word := do
  if a = Word.nil then return Word.nil
  else if a.tag = Tag.cons then X.ld op a off
  else X.tagTrap op (if isClass10 a.tag then rClass10 else rType) 1 (some a.tag) none

/-- CONS (R153): two stores at CBASE without barriers, after the access checks of R304; both are translated before either is
made. -/
def X.cons (a b : Word) : X Word := do
  match tagCheck [(1, a.tag, !isClass10 a.tag), (2, b.tag, !isClass10 b.tag)] with
  | some (rs, m) => X.tagTrap 20 rs m (some a.tag) (some b.tag)
  | none => do
    let ring ← X.ring
    X.orRaise (storedValue ring a)
    X.orRaise (storedValue ring b)
    let c ← X.ctx
    let cb := c.sp Sr.cbase
    if cb.toNat + 16 > (c.sp Sr.clim).toNat then X.tagTrap 20 rAlloc 0 (some a.tag) (some b.tag) cb
    else do
      let v0 ← X.accessCheck (Word.raw cb) cb true
      let v1 ← X.accessCheck (Word.raw (cb + 8)) (cb + 8) true
      let m0 ← X.met
      let t0 ← X.translate ring .store v0 m0
      let m1 ← X.met
      let t1 ← X.translate ring .store v1 m1
      let _ ← X.storeMeets t0 m0
      let _ ← X.storeMeets t1 m1
      X.emit t0 8 a m0
      X.emit t1 8 b m1
      X.updCtx (fun c => c.setSp Sr.cbase (cb + 16))
      return ⟨Tag.cons, cb⟩

/-- RPLACA and RPLACD (R154). -/
def X.rplac (op : Nat) (off : Pay) (a b : Word) : X Unit := do
  match tagCheck [(1, a.tag, a.tag = Tag.cons), (2, b.tag, !isClass10 b.tag)] with
  | some (rs, m) => X.tagTrap op rs m (some a.tag) (some b.tag)
  | none => X.stw op a off b (some b.tag)

/-! ### Objects -/

/-- Tags of p that each object instruction accepts (R155). -/
def vrefTags (t : BitVec 8) : Bool := t = Tag.vec || t = Tag.sym || t = Tag.clo || isUserPtr t
def brefTags (t : BitVec 8) : Bool := t = Tag.str || t = Tag.blob || t = Tag.big || isUserPtr t
def vlenTags (t : BitVec 8) : Bool := isPtrTag t && t ≠ Tag.cons && t ≠ Tag.weak && t ≠ Tag.pref

/-- Operand trap of an object instruction: WEAK for a WEAK p (R68), else TYPE or CLASS10 over p, i and v. -/
def X.objCheck (op : Nat) (p : Word) (okP : BitVec 8 → Bool) (i : Option Word) (v : Option (Word × (BitVec 8 → Bool))) : X Unit :=
  let bits := [(1, p.tag, okP p.tag)] ++ (i.map (fun w => (2, w.tag, decide (w.tag = Tag.fix)))).toList
    ++ (v.map (fun w => (4, w.1.tag, w.2 w.1.tag))).toList
  if p.tag = Tag.weak then X.tagTrap op rWeak 1 (some p.tag) (i.map (·.tag))
  else match tagCheck bits with
    | some (rs, m) => X.tagTrap op rs m (some p.tag) (i.map (·.tag))
    | none => pure ()

/-- Steps 2 to 5 of R156: the header, checked; returns its payload and the virtual address of the object used, after
forwarding. `store` makes the header read follow R303's rule for stores; `tb` is the tag of operand B, for an instruction
that has one. DESIGN CHOICE (assumption 85): for OTAG and FMT the memory address involved (R145) is the address that p holds,
also where the object has been forwarded; for TRAPW and PART it is the address accessed. -/
def X.header (op : Nat) (p : Word) (store : Bool) (fmts : List Nat) (tb : Option (BitVec 8)) : X (Pay × Pay) := do
  X.orRaise (ptrForm p.pay)
  let va ← X.accessCheck p p.pay store
  let ring ← X.ring
  let m ← X.met
  let tr ← X.translate ring .load va m
  let w ← X.loadPhys tr 8 va m
  if w.tag ≠ Tag.hdr ∨ !hdrOk w.pay then X.raise (Exc.reserved 4)
  else if hdrOtag w.pay ≠ p.tag then X.tagTrap op rOtag 1 (some p.tag) tb p.pay
  else if !fmts.contains (hdrFmt w.pay) then X.tagTrap op rFmt 1 (some p.tag) tb p.pay
  else return (w.pay, va)

/-- The element access of VREF, BREF and VLEN's object at its used address: a load of `width` bytes at `va`. -/
def X.elemLoad (va : Pay) (width : Nat) : X Word := do
  let ring ← X.ring
  let m ← X.met
  let tr ← X.translate ring .load va m
  X.loadPhys tr width va m

/-- VREF (R155, R156). -/
def X.vref (op : Nat) (p i : Word) : X Word := do
  X.objCheck op p vrefTags (some i) none
  let (h, va) ← X.header op p false [fmtScan] (some i.tag)
  if i.pay.toNat ≥ hdrLen h then X.tagTrap op rIndex 2 (some p.tag) (some i.tag)
  else do
    let ea := va + p64 (8 * (i.pay.toNat + 1))
    let w ← X.elemLoad ea 8
    X.deliverable op p w ea (some i.tag)
    X.readBarrier w ea

/-- VSET (R155, R156). -/
def X.vset (op : Nat) (v p i : Word) : X Unit := do
  X.objCheck op p vrefTags (some i) (some (v, fun t => !isClass10 t))
  let (h, va) ← X.header op p true [fmtScan] (some i.tag)
  if i.pay.toNat ≥ hdrLen h then X.tagTrap op rIndex 2 (some p.tag) (some i.tag)
  else do
    let ring ← X.ring
    X.orRaise (storedValue ring v)
    let ea := va + p64 (8 * (i.pay.toNat + 1))
    let m ← X.met
    let tr ← X.translate ring .store ea m
    X.storeWord ea tr v m

/-- VLEN (R155). -/
def X.vlen (op : Nat) (p : Word) : X Word := do
  X.objCheck op p vlenTags none none
  let (h, _) ← X.header op p false [fmtScan, fmtBytes, fmtCode] none
  return Word.fixN (if hdrFmt h = fmtBytes then hdrBytes h else hdrLen h)

/-- BREF (R155). -/
def X.bref (op : Nat) (p i : Word) : X Word := do
  X.objCheck op p brefTags (some i) none
  let (h, va) ← X.header op p false [fmtBytes] (some i.tag)
  if i.pay.toNat ≥ hdrBytes h then X.tagTrap op rIndex 2 (some p.tag) (some i.tag)
  else do
    let ea := va + 8 + i.pay
    let w ← X.elemLoad ea 1
    if w.tag = Tag.trap then X.tagTrap op rTrapw 0 (some p.tag) (some i.tag) ea
    else return Word.fix (getBytes w.pay (ea.toNat % 8) 1)

/-- BSET (R155, R156). -/
def X.bset (op : Nat) (v p i : Word) : X Unit := do
  X.objCheck op p brefTags (some i) (some (v, (· = Tag.fix)))
  if v.pay.toNat > 255 then X.tagTrap op rRange 4 (some p.tag) (some i.tag) else pure ()
  let (h, va) ← X.header op p true [fmtBytes] (some i.tag)
  if i.pay.toNat ≥ hdrBytes h then X.tagTrap op rIndex 2 (some p.tag) (some i.tag)
  else do
    let ring ← X.ring
    let ea := va + 8 + i.pay
    let m ← X.met
    let tr ← X.translate ring .store ea m
    X.storePart op p ea tr 1 v m (some i.tag)

/-- The target of a WEAK word is dead in WEAK (R307): below TAMS in a region of generation 0 to GENMAX whose current
bitmap does not mark it. -/
def X.weakDead (h : Nat) (obj : Pay) : X Bool := do
  let s ← X.st
  let k ← X.core
  let idx := s.regionIdx h obj.toNat
  let rt ← X.regionWord idx
  let b := fld ((s.core k).sp Sr.rtb) 47 16 * 0x10000
  let w1 ← X.physRead (b + 16 * idx + 8)
  let off := (obj.toNat - s.heapVbase h) % s.heapS h / 8
  if rtGen rt > s.heapGenmax h ∨ off ≥ fld w1.pay 39 16 then return false
  else if fld w1.pay 1 0 ≠ s.heapCycle h then return true
  else do
    let pa := rtSide rt + off / 8
    let bm ← X.physRead (pa / 8 * 8)
    return !bit bm.pay (8 * (pa % 8) + off % 8)

/-- UNWK (R155, R307). -/
def X.unwk (op : Nat) (a : Word) : X Word := do
  if a = Word.nil then return Word.nil
  else if a.tag ≠ Tag.weak then X.tagTrap op (if isClass10 a.tag then rClass10 else rType) 1 (some a.tag) none
  else do
    X.orRaise (ptrForm a.pay)
    -- the read barrier acts on the WEAK word's target: it has no slot of its own to heal
    let heap ← X.heapOf a
    let addr ← (match heap with
      | none => pure a.pay
      | some h => do
        let s ← X.st
        let idx := s.regionIdx h a.pay.toNat
        let rt ← X.regionWord idx
        if rtState rt = rgFree then X.raise (evacuate 3 a.pay idx 0)
        else if rtState rt ≠ rgEvac then pure a.pay
        else do
          let first ← X.physRead (s.heapPhys h a.pay.toNat)
          if first.tag = Tag.fwd then pure first.pay
          else X.needCopy a.pay idx rt 1 a.pay)
    let dead ← (match heap with
      | none => pure false
      | some h => do
        let s ← X.st
        if s.heapPhase h = 2 then X.weakDead h addr else pure false)
    if dead then return Word.nil
    else do
      let w ← X.elemLoad addr 8
      if w.tag = Tag.hdr ∧ !hdrOk w.pay then X.raise (Exc.reserved 4)
      else do
        let q : Word := if w.tag = Tag.hdr then ⟨hdrOtag w.pay, addr⟩ else ⟨Tag.cons, addr⟩
        match heap with
        | some h => do
          let s ← X.st
          if s.heapPhase h = 1 then do
            X.satbRoom 1 addr
            X.satbPush [q]
          else pure ()
        | none => pure ()
        return q

/-! ### One meaning per instruction -/

def opCar (d a : BitVec 5) : X Flow := do return .load d (← X.carCdr 16 0 (← X.rd a))
def opCdr (d a : BitVec 5) : X Flow := do return .load d (← X.carCdr 17 8 (← X.rd a))
def opCons (d a b : BitVec 5) : X Flow := do
  let w ← X.cons (← X.rd a) (← X.rd b)
  X.wr d w
  return .seq
def opRplaca (a b : BitVec 5) : X Flow := do X.rplac 18 0 (← X.rd a) (← X.rd b); return .seq
def opRplacd (a b : BitVec 5) : X Flow := do X.rplac 19 8 (← X.rd a) (← X.rd b); return .seq
def opVref (d a b : BitVec 5) : X Flow := do return .load d (← X.vref 21 (← X.rd a) (← X.rd b))
def opVset (d a b : BitVec 5) : X Flow := do X.vset 22 (← X.rd d) (← X.rd a) (← X.rd b); return .seq
def opVlen (d a : BitVec 5) : X Flow := do return .load d (← X.vlen 23 (← X.rd a))
def opBref (d a b : BitVec 5) : X Flow := do return .load d (← X.bref 24 (← X.rd a) (← X.rd b))
def opBset (d a b : BitVec 5) : X Flow := do X.bset 25 (← X.rd d) (← X.rd a) (← X.rd b); return .seq
def opUnwk (d a : BitVec 5) : X Flow := do return .load d (← X.unwk 26 (← X.rd a))

end Sys2Proof.Machine
end

