-- ==== Sys2Proof/Machine/LongOps.lean ====
section
/-!
DEFINITION. Long instructions and their elements (R214 to R223): MOVB, FILLB, SCANM and SCANC; and the shared running
of elements, which SAVEH, REST, repeats and customer slots use too.
-/
namespace Sys2Proof.Machine

/-! ### Elements -/

/-- Run one element or iteration: an exception it raises leaves the machine as it was before the element (R194, R218),
with the progress of earlier ones. -/
def X.element {α : Type} (m : X α) : X α := fun r =>
  match m r with
  | .error (.exc e side _) _ => .error (.exc e side true) r
  | out => out

/-- The exceptions of an element whose address is e that carry no address of their own, those about a reserved tag, a privilege
or a stack, take e as their fault address (R218). -/
def X.faultAt {α : Type} (e : Pay) (m : X α) : X α := fun r =>
  match m r with
  | .error (.exc x side keep) r1 => .error (.exc (if x.vec = 5 ∨ x.vec = 6 ∨ x.vec = 15 then { x with fa := e } else x) side keep) r1
  | out => out

/-- Bookkeeping between two elements: a group of the window (R487), answers used up, no longer fresh (R219). -/
def X.elementEnd : X Unit := fun r =>
  let s1 := r.s.updCtx r.x (fun c => { c with fresh := false, grants := [], obs := [], inflight := false })
  .ok () { r with s := if s1.isTight r.x then s1.updTwin (twinOf r.x) (fun w => { w with groups := w.groups + 1 }) else s1, seen := [] }

/-- Run elements: `one` answers true when it completed the instruction. At most `lim` + 1 elements run under one
command; a takeable asynchronous exception between two elements ends the burst at that boundary (R219). -/
def X.burst (one : X Bool) : Nat → X Flow
  | 0 => do
    if (← X.element one) then return .seq
    X.elementEnd
    return .stay
  | n + 1 => do
    if (← X.element one) then return .seq
    X.elementEnd
    let s ← X.st
    let x ← X.ctxNo
    if (s.async x).isSome then return .stay else X.burst one n

/-! ### Address registers of long instructions (R215) -/

/-- Step 3 of R215 for one address register: tag, then form and alignment. -/
def X.addrReg (w : Word) (mask : Nat) (ta tb : BitVec 8) : X Unit := do
  let ring ← X.ring
  if w.tag = Tag.weak then X.tagTrap 31 rWeak mask (some ta) (some tb)
  else if w.tag = Tag.raw then (if ring = 3 then X.raise (Exc.privilege 4) else pure ())
  else if !isBasePtr w.tag then X.tagTrap 31 (if isClass10 w.tag then rClass10 else rType) mask (some ta) (some tb)
  else pure ()
  if fld w.pay 63 48 ≠ 0 then X.raise (Exc.addrForm 4 w.pay)
  else if fld w.pay 2 0 ≠ 0 then X.raise (Exc.align (if w.tag = Tag.raw then 2 else 1) w.pay)
  else pure ()

/-- Step 1 of R215: the count. -/
def X.count32 (a b : Word) : X Nat := do
  if b.tag ≠ Tag.fix then X.tagTrap 31 rType 2 (some a.tag) (some b.tag)
  else if b.pay.toNat > 0xFFFFFFFF then X.tagTrap 31 rRange 2 (some a.tag) (some b.tag)
  else return b.pay.toNat

/-- The address of an element (R221) after the access check of R304. -/
def X.elemAddr (e : Pay) (store : Bool) : X Pay := do
  if fld e 63 48 ≠ 0 then X.raise (Exc.addrForm 4 e)
  else X.accessCheck (Word.raw e) e store

/-- An address register after one element (R214). -/
def advance (w : Word) : Word := ⟨w.tag, w.pay + 8⟩

/-- The fault address of an element's exception about the stored value is the element's address (R218). -/
def X.storedAt (v : Word) (e : Pay) : X Unit := do
  let ring ← X.ring
  match storedValue ring v with
  | some x => X.raise { x with fa := e }
  | none => pure ()

/-- Store `v` at element address e with the write barrier (R216). -/
def X.elemStore (e : Pay) (v : Word) : X Unit := do
  X.storedAt v e
  let va ← X.elemAddr e true
  let ring ← X.ring
  let m ← X.met
  let tr ← X.translate ring .store va m
  X.storeWord va tr v m

/-- Load the word at element address e (R216). -/
def X.elemWord (e : Pay) : X Word := do
  let va ← X.elemAddr e false
  X.elemLoad va 8

/-- A pointer word brought to the address of its object's current copy (R164). -/
def X.follow (w : Word) : X Word := do
  match (← X.heapOf w) with
  | none => return w
  | some h => do
    let s ← X.st
    let rt ← X.regionWord (s.regionIdx h w.pay.toNat)
    if rtState rt ≠ rgEvac then return w
    else do
      let first ← X.physRead (s.heapPhys h w.pay.toNat)
      return if first.tag = Tag.fwd then ⟨w.tag, first.pay⟩ else w

/-! ### The four instructions -/

/-- One element of MOVB; true when the count reaches 0. -/
def X.movbElem (d a b : BitVec 5) : X Bool := do
  let wd ← X.rd d
  let wa ← X.rd a
  let wb ← X.rd b
  let w ← X.elemWord wa.pay
  X.faultAt wa.pay (X.writable w)
  if w.tag = Tag.trap then X.tagTrap 31 rTrapw 0 (some wa.tag) (some wb.tag) wa.pay else pure ()
  let v ← X.readBarrier w wa.pay
  X.elemStore wd.pay v
  X.wr d (advance wd)
  X.wr a (advance wa)
  X.wr b (Word.fix (wb.pay - 1))
  return wb.pay = 1

/-- One element of FILLB. -/
def X.fillbElem (d a b : BitVec 5) : X Bool := do
  let wd ← X.rd d
  let wb ← X.rd b
  X.elemStore wd.pay (← X.rd a)
  X.wr d (advance wd)
  X.wr b (Word.fix (wb.pay - 1))
  return wb.pay = 1

/-- One element of SCANM or SCANC; `hit` judges the word met. -/
def X.scanElem (a b : BitVec 5) (hit : Word → X Bool) : X Bool := do
  let wa ← X.rd a
  let wb ← X.rd b
  let w ← X.elemWord wa.pay
  if (← hit w) then return true
  else do
    X.wr a (advance wa)
    X.wr b (Word.fix (wb.pay - 1))
    return wb.pay = 1

/-- MOVB (R214 to R221). DESIGN CHOICE (assumption 88): where both address registers fail step 3 of R215, D is checked whole before
A, and OPMASK names D alone; the rule gives no order between them. -/
def opMovb (d a b : BitVec 5) (lim : Nat) : X Flow := do
  let wa ← X.rd a
  let wb ← X.rd b
  let n ← X.count32 wa wb
  X.addrReg (← X.rd d) 4 wa.tag wb.tag
  X.addrReg wa 1 wa.tag wb.tag
  if n = 0 then return .seq else X.burst (X.movbElem d a b) lim

def opFillb (d a b : BitVec 5) (lim : Nat) : X Flow := do
  let wa ← X.rd a
  let wb ← X.rd b
  let n ← X.count32 wa wb
  X.addrReg (← X.rd d) 4 wa.tag wb.tag
  if n = 0 then return .seq else X.burst (X.fillbElem d a b) lim

def opScanm (d a b : BitVec 5) (lim : Nat) : X Flow := do
  let wa ← X.rd a
  let wb ← X.rd b
  let n ← X.count32 wa wb
  X.addrReg wa 1 wa.tag wb.tag
  if n = 0 then return .seq
  else X.burst (X.scanElem a b (fun w => do return decide ((← X.follow w) = (← X.follow (← X.rd d))))) lim

def opScanc (d a b : BitVec 5) (lim : Nat) : X Flow := do
  let wa ← X.rd a
  let wb ← X.rd b
  let n ← X.count32 wa wb
  let wd ← X.rd d
  if wd.tag ≠ Tag.fix then X.tagTrap 31 rType 4 (some wa.tag) (some wb.tag)
  else if wd.pay.toNat > 0xFFFF then X.tagTrap 31 rRange 4 (some wa.tag) (some wb.tag)
  else pure ()
  X.addrReg wa 1 wa.tag wb.tag
  if n = 0 then return .seq
  else X.burst (X.scanElem a b (fun w => return tagMatch w.tag (fld wd.pay 15 8) (fld wd.pay 7 0))) lim

end Sys2Proof.Machine
end

