-- ==== Sys2Proof/Machine/Slots.lean ====
section
/-!
DEFINITION. Customer slot instructions (R260 to R281): micro-registers, micro-ops over the shared operations, held
stores and their release, END and YIELD.
-/
namespace Sys2Proof.Machine

/-- A micro-register: U0 reads NIL (R264). -/
def uRead (u : Tbl Word) (i : Nat) : Word := if i = 0 then Word.nil else Tbl.get (fun _ => Word.nil) u i
/-- A write to U0 is discarded (R264). -/
def uWrite (u : Tbl Word) (i : Nat) (w : Word) : Tbl Word := if i = 0 then u else Tbl.set (fun _ => Word.nil) u i w

/-- The micro-program's state while it runs: micro-registers and next micro-op. -/
structure Micro where
  u : Tbl Word
  i : Nat

/-! ### Release and write-back (R268, R269) -/

/-- Release one held store: its barrier acts now (R268), and a late bus error is a Store Bus Error (R270). -/
def X.releaseOne (h : HeldStore) : X Unit := do
  let x ← X.ctxNo
  let c ← X.ctx
  let k ← X.core
  let m ← X.met
  let tr : Tr := ⟨h.pa, h.cache⟩
  if h.err then X.upd (fun s => s.recSbe x 5 h.pa c.pc)
  else if h.barrier then do
    let old ← (if h.mem then do
        let s ← X.st
        fun r => .ok (s.forwarded x h.pa (s.word (s.key k h.pa))) r
      else pure (Word.raw 0))
    X.barrierRelease h.va tr h.width old h.val m
  else X.emit tr h.width h.val m

def X.releaseAll : List HeldStore → X Unit
  | [] => pure ()
  | h :: hs => do X.releaseOne h; X.releaseAll hs

/-- The release waits as a whole while a held store has to be buffered and the store buffer has not room for them all
(R397). -/
def X.releaseRoom (hs : List HeldStore) : X Unit := fun r =>
  let k := r.s.coreOf r.x
  let full := r.s.txns.countP (fun t => t.src = k && t.kind = .store) + hs.length > 16
    || r.s.txns.countP (fun t => t.x = r.x && t.kind = .store) + hs.length > 8
  if full && hs.any (fun h => r.s.buffers r.x ⟨h.pa, h.cache⟩ r.at_.met) then .error (.park .hold) r else .ok () r

/-- Release the held stores in micro-op order; nothing is held afterwards. -/
def X.release : X Unit := do
  let hs ← X.holding
  X.releaseRoom (hs.getD [])
  X.releaseAll (hs.getD [])
  fun r => .ok () { r with held := some [] }

/-- The register writes of END and YIELD (R269). -/
def X.writeBack (e : Pay) (f : BitVec 5 × BitVec 5 × BitVec 5) (u : Tbl Word) : X Unit := do
  if deWb e 2 then X.wr f.1 (uRead u 3) else pure ()
  if deWb e 1 then X.wr f.2.1 (uRead u 1) else pure ()
  if deWb e 0 then X.wr f.2.2 (uRead u 2) else pure ()

/-! ### Micro-ops (R266) -/

/-- Micro-ops that compute a word from SA and operand B; none for the others. -/
def uopCompute (op : Nat) (a b : Word) : Option (X Word) :=
  match op with
  | 0x08 => some (X.add 31 a b)
  | 0x09 => some (X.sub 31 a b)
  | 0x0A => some (X.mul 31 a b)
  | 0x0B => some (X.div 31 a b)
  | 0x0C => some (X.rem 31 a b)
  | 0x0D => some (X.neg 31 a)
  | 0x0E => some (X.abs 31 a)
  | 0x0F => some (X.cmp 31 a b)
  | 0x10 => some (X.ceq 31 a b)
  | 0x11 => some (X.clt 31 a b)
  | 0x12 => some (X.cle 31 a b)
  | 0x13 => some (X.eqw 31 a b)
  | 0x14 => some (X.bits2 31 (· &&& ·) a b)
  | 0x15 => some (X.bits2 31 (· ||| ·) a b)
  | 0x16 => some (X.bits2 31 (· ^^^ ·) a b)
  | 0x17 => some (X.bits2 31 (fun p q => p &&& ~~~q) a b)
  | 0x18 => some (X.bits1 31 (fun p => ~~~p) a)
  | 0x19 => some (X.shift 31 0 a b)
  | 0x1A => some (X.shift 31 1 a b)
  | 0x1B => some (X.shift 31 2 a b)
  | 0x1C => some (X.shift 31 3 a b)
  | 0x1D => some (X.count 31 popCount a)
  | 0x1E => some (X.count 31 leadZeros a)
  | 0x1F => some (X.count 31 trailZeros a)
  | 0x20 => some (pure a)
  | 0x21 => some (X.cvtf 31 a)
  | 0x22 => some (X.cvti 31 a)
  | 0x23 => some (pure (Word.fixN a.tag.toNat))
  | 0x24 => some (X.retag a (BitVec.ofNat 8 b.pay.toNat))
  | 0x30 => some (X.carCdr 31 0 a)
  | 0x31 => some (X.carCdr 31 8 a)
  | 0x32 => some (X.vref 31 a b)
  | 0x34 => some (X.vlen 31 a)
  | 0x35 => some (X.bref 31 a b)
  | _ => none

/-- Load micro-ops with their displacement. -/
def uopLoad (op : Nat) (a : Word) (disp : Pay) : Option (X Word) :=
  match op with
  | 0x27 => some (X.ld 31 a disp)
  | 0x29 => some (X.ldt 31 a disp)
  | 0x2A => some (X.lpart 31 a disp 1)
  | 0x2B => some (X.lpart 31 a disp 2)
  | 0x2C => some (X.lpart 31 a disp 4)
  | _ => none

/-- Store micro-ops: the stored value is DST. -/
def uopStore (op : Nat) (d a b : Word) (disp : Pay) : Option (X Unit) :=
  match op with
  | 0x28 => some (X.stw 31 a disp d)
  | 0x2D => some (X.spart 31 a disp 1 d)
  | 0x2E => some (X.spart 31 a disp 2 d)
  | 0x2F => some (X.spart 31 a disp 4 d)
  | 0x33 => some (X.vset 31 d a b)
  | 0x36 => some (X.bset 31 d a b)
  | _ => none

/-- What one micro-op leads to. -/
inductive UNext where
  | go (m : Micro)
  | fin
  | yield

/-- Execute one micro-word. -/
def X.uop (w : Pay) (m : Micro) : X UNext := do
  let a := uRead m.u (mwSa w)
  let imm := sext32 (BitVec.ofNat 32 (mwImm w))
  let b := if mwI w then Word.fix imm else uRead m.u (mwSb w)
  let d := uRead m.u (mwDst w)
  let next : Micro := { m with i := m.i + 1 }
  let jump (t : Bool) : X UNext := return .go (if t then { m with i := mwTgt w } else next)
  let op := mwUop w
  if op = 0 then return .fin
  else if op = 1 then return .yield
  else if op = 2 then X.tagTrap 31 (mwImm w) 0 (some a.tag) (some b.tag)
  else if op = 3 then jump true
  else if op = 4 then jump (a = Word.nil)
  else if op = 5 then jump (a ≠ Word.nil)
  else if op = 6 then jump (tagMatch a.tag (fld w 15 8) (fld w 7 0))
  else if op = 7 then jump (a = b)
  else if op = 0x25 then return .go { next with u := uWrite m.u (mwDst w) (Word.fix imm) }
  else if op = 0x26 then return .go { next with u := uWrite m.u (mwDst w) (Word.rawN (mwImm w)) }
  else
    match uopCompute op a b, uopLoad op a imm, uopStore op d a b imm with
    | some f, _, _ | none, some f, _ => do
      let v ← f
      return .go { next with u := uWrite m.u (mwDst w) v }
    | none, none, some f => do f; return .go next
    | none, none, none => return .go next

/-- What an exception in a customer slot instruction records (R273, R282). -/
def State.lastSlot (s : State) (k slot uop : Nat) : State :=
  s.updCore k (fun c => c.setSp Sr.ucs (setFld (setFld (c.sp Sr.ucs) 57 52 uop) 51 48 slot))

/-- One micro-op, or a release at its END or YIELD. An exception is precise at the instruction (R273): nothing held, registers as
of the last YIELD, UCS naming slot and micro-op. A wait keeps micro-registers and held stores, and the micro-program goes on
at that micro-op (R274). `r0` is the run at the start or the last YIELD, `first` as in `SlotRun`. -/
def X.atUop {α : Type} (slot : Nat) (r0 : Run) (first : Bool) (m : Micro) (f : X α) : X α := fun r =>
  match f { r with slotAt := some ⟨m.u, m.i, r.held.getD [], false, first⟩, base := r.seen.length } with
  | .error (.exc e side _) r' =>
    .error (.exc e (fun s => (side s).lastSlot (s.coreOf r.x) slot m.i) true)
      { r' with s := r0.s.updCtx r.x (fun c => { c with slot := none, grants := (r'.s.ctx r.x).grants }) }
  | out => out

/-- A micro-word or decode entry with bad parity (R281): Machine Check, PERR and a FATAL record. -/
def X.slotParity : X Unit := fun r =>
  if r.at_.ucPar = some r.micro then
    let pc := (r.s.ctx r.x).pc
    .error (.exc (Exc.mcheck 6 0) (fun s => (s.setUcs (s.coreOf r.x) 62 62 1).logFatal r.x 0 pc) false) r
  else .ok () { r with micro := r.micro + 1 }

/-- Run micro-ops to the next END or YIELD, at most `fuel` of them (R285 bounds a segment to 64). -/
def X.segment (slot : Nat) (e : Pay) (r0 : Run) (first : Bool) : Nat → Micro → X (Bool × Micro)
  | 0, m => return (true, m)
  | fuel + 1, m => do
    let k ← X.core
    let s ← X.st
    let w := Tbl.get (fun _ => (0 : Pay)) (s.core k).cstore (deEntry e + m.i)
    match (← X.atUop slot r0 first m (do X.slotParity; X.uop w m)) with
    | .fin => return (true, m)
    | .yield => return (false, m)
    | .go m1 => X.segment slot e r0 first fuel m1

/-- Segments of a slot (R269, R271): at END it retires; a YIELD stops it for a slot load (R287), for the end of the burst, and,
unless it is the first after a start, for a takeable interrupt. -/
def X.segments (slot : Nat) (e : Pay) (f : BitVec 5 × BitVec 5 × BitVec 5) : Nat → Bool → Micro → X Flow
  | 0, _, _ => return .stay
  | n + 1, first, m => do
    let r0 ← get
    let (fin, m1) ← X.segment slot e r0 first 65 m
    X.atUop slot r0 first m1 X.release
    X.writeBack e f m1.u
    if fin then do
      X.updCtx (fun c => { c with slot := none })
      return .seq
    else do
      X.elementEnd
      let s ← X.st
      let x ← X.ctxNo
      let next : Micro := { m1 with i := m1.i + 1 }
      if (!first ∧ (s.async x).isSome) ∨ s.ucsLoading (twinOf x) then do
        X.updCtx (fun c => { c with slot := none })
        return .stay
      else if n = 0 then do
        X.updCtx (fun c => { c with slot := some ⟨next.u, next.i, [], true, false⟩ })
        return .stay
      else X.segments slot e f n false next

/-- The decode entry of a customer slot instruction (R108, R281, R287): while a load of its twin runs, one that starts waits; its
parity error comes before what it holds is used. -/
def X.slotEntry (slot : Nat) : X Pay := do
  let s ← X.st
  let x ← X.ctxNo
  let k ← X.core
  let c ← X.ctx
  if s.ucsLoading (twinOf x) && c.slot.isNone then X.park .hold
  else
    match Tbl.look (s.core k).decode slot with
    | none => X.raise (Exc.illegal 4)
    | some e => do
      let r0 ← get
      X.atUop slot r0 true ⟨[], (c.slot.map (·.uop)).getD 0⟩ X.slotParity
      return e

/-- The decode checks of a customer slot instruction (R108, R262, R276). -/
def X.slotChecks (e : Pay) (d a b rsv : BitVec 5) : X Unit := do
  let c ← X.ctx
  if rsv ≠ 0 ∨ (!deUse e 2 ∧ d ≠ 0) ∨ (!deUse e 1 ∧ a ≠ 0) ∨ (!deUse e 0 ∧ b ≠ 0) then X.raise (Exc.reserved 1)
  else if c.ring > deRmax e then X.raise (Exc.privilege 5)
  else if deRes e ∧ !c.loads.isEmpty then X.raise (Exc.illegal 0xA)
  else pure ()

/-- A customer slot instruction (R264, R269 to R275), at most `lim` + 2 segments under one command. -/
def opSlot (slot : Nat) (d a b rsv : BitVec 5) (lim : Nat) : X Flow := do
  let e ← X.slotEntry slot
  let c ← X.ctx
  let f := (d, a, b)
  match c.slot with
  | some sr => do
    fun r => .ok () { r with held := some sr.held }
    X.updCtx (fun c => { c with slot := none })
    X.segments slot e f (lim + 1) sr.first ⟨sr.u, sr.uop⟩
  | none => do
    X.slotChecks e d a b rsv
    let u0 := uWrite (uWrite (uWrite [] 1 (← X.rd a)) 2 (← X.rd b)) 3 (← X.rd d)
    fun r => .ok () { r with held := some [] }
    X.segments slot e f (lim + 2) true ⟨u0, 0⟩

end Sys2Proof.Machine
end

