-- ==== Sys2Proof/Machine/TlbOps.lean ====
section
/-!
DEFINITION. The TLB instructions (R365 to R373, R380 to R383): one meaning each, over the core's main TLB.
-/
namespace Sys2Proof.Machine

/-- Change the executing core's TLB. -/
def X.updTlb (f : Core → Core) : X Unit := fun r => .ok () { r with s := r.s.updCore (r.s.coreOf r.x) f }

/-- TLBW (R366 to R368): FIX : the index, or RAW : the reject reason. -/
def opTlbw (d a b : BitVec 5) : X Flow := do
  let s ← X.st
  let k ← X.core
  match (s.core k).tlbw (← X.rdUsed a).pay (← X.rdUsed b).pay with
  | .wrote i c => do
    X.updTlb (fun _ => c)
    X.wr d (Word.fixN i)
  | .reject r => X.wr d (Word.rawN r)
  return .seq

/-- TLBR (R366). -/
def opTlbr (d a b : BitVec 5) : X Flow := do
  let s ← X.st
  let k ← X.core
  let e := (s.core k).ent (fld (← X.rdUsed a).pay 7 0)
  X.wr d (Word.raw (if bit (← X.rdUsed b).pay 0 then e.attr else e.tagw))
  return .seq

/-- TLBS (R366); bad parity in the entry it finds makes it a miss, or a Machine Check for a locked entry (R369). -/
def opTlbs (d a b : BitVec 5) : X Flow := do
  let s ← X.st
  let k ← X.core
  let m ← X.met
  match (s.core k).tlbFind (fld (← X.rdUsed a).pay 47 0) (fld (← X.rdUsed b).pay 11 0) with
  | some i =>
    if m ≠ .tlbParity then X.wr d (Word.fixN i)
    else if ((s.core k).ent i).l then X.raise (Exc.mcheck 5 0)
    else do
      X.updTlb (fun c => c.setEnt i (c.ent i).inval)
      X.wr d Word.nil
  | none => X.wr d Word.nil
  return .seq

/-- TLBI.A (R380). -/
def opTlbiA (a : BitVec 5) : X Flow := do
  let w ← X.rdUsed a
  X.updTlb (fun c => c.tlbInval (fun e => e.covers (fld w.pay 47 12 * 4096)))
  return .seq

/-- TLBI.T (R380): unlocked entries only. -/
def opTlbiT (a : BitVec 5) : X Flow := do
  let w ← X.rdUsed a
  X.updTlb (fun c => c.tlbInval (fun e => !e.l && !e.g && e.asid = fld w.pay 11 0))
  return .seq

/-- TLBI.T with force (R380). -/
def opTlbiTForce (a : BitVec 5) : X Flow := do
  let w ← X.rdUsed a
  X.updTlb (fun c => c.tlbInval (fun e => !e.g && e.asid = fld w.pay 11 0))
  return .seq

/-- TLBI.ALL (R380): unlocked entries only. -/
def opTlbiAll : X Flow := do
  X.updTlb (fun c => c.tlbInval (fun e => !e.l))
  return .seq

/-- TLBI.ALL with force (R380). -/
def opTlbiAllForce : X Flow := do
  X.updTlb (fun c => c.tlbInval (fun _ => true))
  return .seq

end Sys2Proof.Machine
end

