-- ==== Sys2Proof/Machine/Windows.lean ====
section
/-!
DEFINITION. Register windows (R225 to R243), MOVWB (R244, R245), and the save areas of SAVEH and REST (R246 to R256).
-/
namespace Sys2Proof.Machine

/-! ### CALLW and RETW -/

/-- CALLW (R229, R238, R240): extra word 0 names the bank to spill. DESIGN CHOICE (assumption 89): the window writes that the MISR
folds (R258, R486) are writes of bank registers; a change of HOME, OLD or TB alone, here and by RETW, REST, entry and RETE, is
not folded. -/
def opCallw : X Flow := do
  let c ← X.ctx
  let x ← X.ctxNo
  if c.nres = 7 then
    X.raise { vec := 16, cause := p64 (if c.tb then 2 else 1), x0 := Word.rawN c.old }
  else do
    let h := (c.home + 1) % 7
    X.upd (fun s => s.updCtx x (fun c => ((c.setHome h).setTb false).clearBank h))
    X.upd (fun s => if s.isTight x then
      s.sign (twinOf x) ((List.range 16).flatMap (fun r => signReg x (16 + r) h Word.nil)) else s)
    return .seq

/-- RETW (R230, R239, R240): extra word 0 names the bank to refill. -/
def opRetw : X Flow := do
  let c ← X.ctx
  let refill := Word.rawN ((c.old + 6) % 7)
  if c.tb then X.raise { vec := 17, cause := 2, x0 := refill }
  else if c.nres = 1 then X.raise { vec := 17, cause := 1, x0 := refill }
  else do
    X.updCtx (fun c => c.setHome ((c.home + 6) % 7))
    return .seq

/-! ### MOVWB -/

/-- The context of the same core that SCTX names (R242, R244). -/
def movwbCtx (x sctx : Nat) : Nat := x / 4 * 4 + sctx

def opMovwbF (d a : BitVec 5) : X Flow := do
  let c ← X.ctx
  let x ← X.ctxNo
  let s ← X.st
  let w := (s.ctx (movwbCtx x c.sctx)).rdKey (regKey c.sbank a)
  X.writable w
  X.wr d w
  return .seq

def opMovwbT (d a : BitVec 5) : X Flow := do
  let c ← X.ctx
  let x ← X.ctxNo
  let w ← X.rd a
  X.writable w
  X.upd (fun s => s.wrRegBank (movwbCtx x c.sctx) d c.sbank w)
  return .seq

/-! ### Save areas (R246 to R252) -/

/-- Words 18 to 28 of a lower-half area: the special registers in order (R248). -/
def lowerSr (e : Nat) : Nat := if e = 18 then Sr.ps else if e = 28 then Sr.rpc else Sr.ls0 + (e - 19)

/-- The area that A names: A itself and the address it gives with displacement 0, taken as in R157 (R246); the checks are
those of R62 and R158, and the Tag Trap is operation 27. `e` is the element about to run (R218). -/
def X.areaBase (a b : BitVec 5) (e : Nat) (store : Bool) : X (Word × Pay) := do
  let wa ← X.rd a
  let wb ← X.rd b
  X.faultAt (wa.pay + p64 (8 * e)) (X.baseTag 27 wa (some wb.tag))
  X.eaForm wa 0 8
  return (wa, ← X.eaAddr wa 0 store)

/-- The address of word e of an area (R246, R253, R221); one outside the block of a PREF base raises Address Form by R158
(assumption 78). -/
def X.areaAddr (ar : Word × Pay) (e : Nat) (store : Bool) : X Pay := do
  if ar.1.tag = Tag.pref then X.eaForm ar.1 (p64 (8 * e)) 8 else pure ()
  X.elemAddr (ar.2 + p64 (8 * e)) store

/-- A word of the area, loaded at the current ring with no barrier. -/
def X.areaLoad (a : Word × Pay) (e : Nat) : X Word := do X.elemLoad (← X.areaAddr a e false) 8

/-- A word of the area that goes to a register (R58; R76 does not apply). -/
def X.areaWord (a : Word × Pay) (e : Nat) : X Word := do
  let w ← X.areaLoad a e
  X.writable w
  return w

/-- The word SAVEH stores as element e (R247 to R250). -/
def State.saveWord (s : State) (x h e : Nat) (d : Word) : Word :=
  let c := s.ctx x
  if e = 0 then (if d.tag = Tag.link then d else ⟨Tag.link, 0⟩)
  else if e = 1 then
    (if h = 0 then Word.raw (atFld 15 8 1) else Word.raw (atFld 15 8 2 ||| atFld 6 4 c.home ||| atFld 2 0 c.old))
  else if h = 0 then (if e < 18 then c.rdKey (e - 2) else s.readSpec x (lowerSr e))
  else c.rdKey (16 + 16 * ((c.old + (e - 2) / 16) % 7) + (e - 2) % 16)

/-- Half and next element of B (R246). -/
def saveHalf (b : Word) : Nat := fld b.pay 8 8
def saveNext (b : Word) : Nat := fld b.pay 7 0

/-- Area words of a half (R248, R249). -/
def Ctx.saveSize (c : Ctx) (h : Nat) : Nat := if h = 0 then 29 else 2 + 16 * c.nres

/-- One element of SAVEH, or its completion (R250). -/
def X.savehElem (d a b : BitVec 5) : X Bool := do
  let wb ← X.rdUsed b
  let e := saveNext wb
  let wa ← X.areaBase a b e true
  let c ← X.ctx
  let s ← X.st
  let x ← X.ctxNo
  let h := saveHalf wb
  let size := c.saveSize h
  if e < size then do
    let w := s.saveWord x h e (← X.rd d)
    X.faultAt (wa.2 + p64 (8 * e)) (X.writable w)
    let va ← X.areaAddr wa e true
    let ring ← X.ring
    let m ← X.met
    let tr ← X.translate ring .store va m
    let _ ← X.storeMeets tr m
    X.emit tr 8 w m
    X.wr b (Word.fixN (256 * h + e + 1))
  else pure ()
  if size ≤ e + 1 then do
    X.wr d ⟨Tag.link, wa.1.pay⟩
    return true
  else return false

def opSaveh (d a b : BitVec 5) (lim : Nat) : X Flow := X.burst (X.savehElem d a b) lim

/-- A descriptor word fits half h (R247, R251). -/
def descOk (h : Nat) (w : Word) : Bool :=
  w.tag = Tag.raw && fld w.pay 63 16 = 0 && !bit w.pay 7 && !bit w.pay 3 && fld w.pay 15 8 = (if h = 0 then 1 else 2)
    && fld w.pay 6 4 ≠ 7 && fld w.pay 2 0 ≠ 7 && (h ≠ 0 || (fld w.pay 6 4 = 0 && fld w.pay 2 0 = 0))

/-- Word 1 of the area, checked (R251, R252). -/
def X.areaDesc (a : Word × Pay) (h : Nat) : X Pay := do
  let w ← X.areaLoad a 1
  if descOk h w then return w.pay else X.raise (Exc.stack 0x10)

/-- Words 18 to 28 of a lower half, loaded. -/
def X.areaWords (a : Word × Pay) (e : Nat) : Nat → X (List Word)
  | 0 => return []
  | n + 1 => do
    let w ← X.areaLoad a e
    return w :: (← X.areaWords a (e + 1) n)

/-- Element 18 of a lower-half REST (R251): PS under R437, then loop registers and RPC together. DESIGN CHOICE (assumption 90): words
18 to 28 are taken under any tag, reserved codes included; only their payloads are used. -/
def X.restLower (a : Word × Pay) : X Unit := do
  let ws ← X.areaWords a 18 11
  let c ← X.ctx
  let x ← X.ctxNo
  match c.newPs ((ws.getD 0 Word.nil).pay) with
  | none => X.raise (Exc.privilege 7)
  | some ps =>
    X.upd (fun s => (List.range 10).foldl (fun s i =>
      let n := lowerSr (19 + i)
      let mask := if n = Sr.rpc ∨ Sr.lc0 ≤ n then maskFld 31 0 else if n < Sr.le0 then maskFld 47 2 else maskFld 47 0
      s.putSpec x n ((ws.getD (i + 1) Word.nil).pay &&& mask)) (s.putSpec x Sr.ps ps))

/-- A register written by an element of REST; one that REST names as D, A or B keeps its progress value, and the restored word
is lost (R254, R259). -/
def X.restReg (d a b : BitVec 5) (r : BitVec 5) (bank : Nat) (w : Word) : X Unit := do
  let c ← X.ctx
  let x ← X.ctxNo
  if [d, a, b].any (fun f => regKey c.bank f = regKey bank r) then pure ()
  else X.upd (fun s => s.wrRegBank x r bank w)

/-- One element of REST (R251, R254). DESIGN CHOICE (assumption 90): an upper-half element from number 2 on reads word 1 again for
HOMEB and OLDB, and raises Stack Fault 0x10 again where it no longer fits; completion takes word 0 by a load of its own and
does not check its LINK tag again. The spec says of neither how a resumed REST gets it. -/
def X.restElem (d a b : BitVec 5) : X Bool := do
  let wb ← X.rdUsed b
  let h := saveHalf wb
  let e0 := saveNext wb
  let e := if h = 0 ∧ 19 ≤ e0 ∧ e0 ≤ 28 then 18 else e0
  let wa ← X.areaBase a b e false
  let body : X Bool := do
    let desc ← (if h ≠ 0 ∧ 2 ≤ e then X.areaDesc wa h else pure 0)
    let hb := fld desc 6 4
    let ob := fld desc 2 0
    let size := if h = 0 then 29 else if e < 2 then 18 else 2 + 16 * (((hb + 7 - ob) % 7) + 1)
    let next := if h = 0 ∧ e = 18 then 29 else e + 1
    let done := size ≤ next
    let w0 ← (if done then X.areaWord wa 0 else pure Word.nil)
    if e < size then do
      if e = 0 then do
        let w ← X.areaLoad wa 0
        if w.tag ≠ Tag.link then X.raise (Exc.stack 0x11) else pure ()
      else if e = 1 then do let _ ← X.areaDesc wa h; pure ()
      else if h = 0 ∧ e < 18 then do
        let w ← X.areaWord wa e
        X.restReg d a b (BitVec.ofNat 5 (e - 2)) 0 w
      else if h = 0 then X.restLower wa
      else do
        let w ← X.areaWord wa e
        X.restReg d a b (BitVec.ofNat 5 (16 + (e - 2) % 16)) ((ob + (e - 2) / 16) % 7) w
      X.wr b (Word.fixN (256 * h + next))
    else pure ()
    if done then do
      X.wr d w0
      if h ≠ 0 ∧ e < size then X.updCtx (fun c => (c.setHome hb).setOld ob) else pure ()
      return true
    else return false
  X.faultAt (wa.2 + p64 (8 * e)) body

def opRest (d a b : BitVec 5) (lim : Nat) : X Flow := X.burst (X.restElem d a b) lim

end Sys2Proof.Machine
end

