-- ==== Sys2Proof/Machine/Formats.lean ====
section
/-!
DEFINITION. The opcode map (R99 to R110): for each defined major and minor the fields in use, the rings and the shadow
breakers, the reading of immediates, and the meaning of every instruction that a repeat may have as its target.
-/
namespace Sys2Proof.Machine

/-- Format R: majors and minors of R107 that need no more than R100 and R110 say. -/
def metaR (maj min : Nat) : Meta := { major := maj, minor := min }
def Meta.da (m : Meta) : Meta := { m with useB := false }
def Meta.ab (m : Meta) : Meta := { m with useD := false }
def Meta.onlyA (m : Meta) : Meta := { m with useD := false, useB := false }
def Meta.bare (m : Meta) : Meta := { m with useD := false, useA := false, useB := false }
def Meta.priv (m : Meta) : Meta := { m with ringMax := 1 }
def Meta.breaks (m : Meta) : Meta := { m with breaker := true }

/-- The defined minors of the format R majors (R107), with the fields each uses (R100), its rings (R110) and whether it
is a shadow breaker (R132). -/
def rMeta (maj min : Nat) : Option Meta :=
  let m := metaR maj min
  match maj with
  | 0x00 => if min ≤ 4 then some m else if min ≤ 6 then some m.da else none
  | 0x01 => if min = 4 ∨ (9 ≤ min ∧ min ≤ 0xB) then some m.da else if min ≤ 8 then some m else none
  | 0x02 => if min ≤ 4 then some m else none
  | 0x03 => if min ≤ 1 then some m.da else if min ≤ 3 then some m else none
  | 0x04 => if min ≤ 1 then some m.da else if min = 2 then some m else if min ≤ 4 then some m.ab else none
  | 0x05 => if min = 2 ∨ min = 5 then some m.da else if min ≤ 4 then some m else none
  | 0x06 => if min ≤ 4 then some m.da else none
  | 0x25 => if min ≤ 1 then some m.onlyA else if min = 2 then some m.bare else none
  | 0x26 => if min = 0 then some m.bare.breaks else if min = 1 then some m.onlyA else if min = 2 then some m.da.breaks
      else if min = 3 then some m else none
  | 0x27 => if min ≤ 1 then some m.bare else if min ≤ 3 then some { m with ringMax := 1, ringCause := 6, breaker := true }
      else if min ≤ 5 then some m.da.priv else none
  | 0x28 => if min ≤ 3 then some m.breaks else none
  | 0x2A => if min = 0 then some m.onlyA else if min ≤ 2 then some m.bare else none
  | 0x2B => if min ≤ 2 then some m.priv else if min = 5 ∨ min = 7 then some m.bare.priv
      else if min ≤ 6 then some m.onlyA.priv else none
  | 0x2C => if min ≤ 4 then some m.bare else if min = 5 then some m.onlyA else if min ≤ 7 then some m.onlyA.priv
      else if min ≤ 9 then some m.priv else none
  | 0x2D => if min = 0 ∨ min = 2 then some m.bare else if min = 1 then some { m.bare with ringMax := 0 } else none
  | _ => none

/-- The majors of formats I and M (R105), with the fields each uses (R100, R113) and its rings (R110). -/
def iMeta (maj : Nat) : Option Meta :=
  let m : Meta := metaR maj 0
  if 0x07 ≤ maj ∧ maj ≤ 0x0E then some m.da
  else if maj = 0x0F then some { m with useA := false, useB := false }
  else if maj = 0x14 ∨ maj = 0x1B ∨ maj = 0x1C then some m.da.priv
  else if 0x10 ≤ maj ∧ maj ≤ 0x1A then some m.da
  else if maj = 0x1D then some { m.onlyA with ringMax := 2 }
  else if maj = 0x1E then some { m with useA := false, useB := false }
  else if maj = 0x1F then some m.onlyA
  else if maj = 0x29 then some m.bare
  else if maj = 0x2E ∨ maj = 0x2F then some m.da
  else if maj = 0x3C ∨ maj = 0x3D then some { m with useA := false, useB := false }
  else none

/-- The reserved immediate bits are zero: SHI, RTAGI, MFS, MTS and TRAP use only their low bits. -/
def immOk (maj v : Nat) : Bool :=
  if maj = 0x0E ∨ maj = 0x2E then decide (v < 256)
  else if maj = 0x1E ∨ maj = 0x1F then decide (v < 4096)
  else if maj = 0x29 then decide (v < 128)
  else true

/-- Majors that read their immediate as an unsigned field (R101). -/
def immUnsigned (maj : Nat) : Bool :=
  (0x0B ≤ maj && maj ≤ 0x0E) || maj = 0x1E || maj = 0x1F || maj = 0x29 || maj = 0x2E || maj = 0x2F || maj = 0x3C || maj = 0x3D

/-- The immediate of `w` bits extended to 64 bits (R101). -/
def immPay (maj w v : Nat) : Pay := if immUnsigned maj then p64 v else BitVec.ofInt 64 (signedOf w v)

/-- The inner majors of EXT (R104). -/
def extInner (maj : Nat) : Bool :=
  (0x07 ≤ maj && maj ≤ 0x0D) || (0x0F ≤ maj && maj ≤ 0x1D) || maj = 0x3C || maj = 0x3D

/-- The meaning of a format I or M instruction, its immediate extended to `v`. -/
def iBody (maj : Nat) (d a : BitVec 5) (v : Pay) : X Flow :=
  match maj with
  | 0x07 => opAddi d a v
  | 0x08 => opMuli d a v
  | 0x09 => opCeqi d a v
  | 0x0A => opClti d a v
  | 0x0B => opAndi d a v
  | 0x0C => opOri d a v
  | 0x0D => opXori d a v
  | 0x0E => opShi d a v
  | 0x0F => opLdi d v
  | 0x10 => opLd d a v
  | 0x11 => opSt d a v
  | 0x12 => opLdt d a v
  | 0x13 => opStt d a v
  | 0x14 => opLdx d a v
  | 0x15 => opL8 d a v
  | 0x16 => opL16 d a v
  | 0x17 => opL32 d a v
  | 0x18 => opS8 d a v
  | 0x19 => opS16 d a v
  | 0x1A => opS32 d a v
  | 0x1B => opLdw d a v
  | 0x1C => opLdwt d a v
  | 0x1D => opZal d a v
  | 0x1E => opMfs d v.toNat
  | 0x1F => opMts a v.toNat
  | 0x2E => opRtagi d a v
  | 0x2F => opTtsti d a v
  | 0x3C => opLdc d v
  | 0x3D => opLdr d v
  | _ => X.raise (Exc.illegal 2)

/-- The meaning of a format R instruction that a repeat may have as its target. -/
def rBody (maj min : Nat) (d a b : BitVec 5) : X Flow :=
  match maj, min with
  | 0x00, 0x00 => opAdd d a b
  | 0x00, 0x01 => opSub d a b
  | 0x00, 0x02 => opMul d a b
  | 0x00, 0x03 => opDiv d a b
  | 0x00, 0x04 => opRem d a b
  | 0x00, 0x05 => opNeg d a
  | 0x00, 0x06 => opAbs d a
  | 0x01, 0x00 => opAnd d a b
  | 0x01, 0x01 => opOr d a b
  | 0x01, 0x02 => opXor d a b
  | 0x01, 0x03 => opAndn d a b
  | 0x01, 0x04 => opNot d a
  | 0x01, 0x05 => opShl d a b
  | 0x01, 0x06 => opShr d a b
  | 0x01, 0x07 => opSar d a b
  | 0x01, 0x08 => opRot d a b
  | 0x01, 0x09 => opPopc d a
  | 0x01, 0x0A => opClz d a
  | 0x01, 0x0B => opCtz d a
  | 0x02, 0x00 => opCmp d a b
  | 0x02, 0x01 => opCeq d a b
  | 0x02, 0x02 => opClt d a b
  | 0x02, 0x03 => opCle d a b
  | 0x02, 0x04 => opEq d a b
  | 0x03, 0x00 => opTag d a
  | 0x03, 0x01 => opTcls d a
  | 0x03, 0x02 => opTtst d a b
  | 0x03, 0x03 => opRtag d a b
  | 0x04, 0x00 => opCar d a
  | 0x04, 0x01 => opCdr d a
  | 0x04, 0x02 => opCons d a b
  | 0x04, 0x03 => opRplaca a b
  | 0x04, 0x04 => opRplacd a b
  | 0x05, 0x00 => opVref d a b
  | 0x05, 0x01 => opVset d a b
  | 0x05, 0x02 => opVlen d a
  | 0x05, 0x03 => opBref d a b
  | 0x05, 0x04 => opBset d a b
  | 0x05, 0x05 => opUnwk d a
  | 0x06, 0x00 => opMov d a
  | 0x06, 0x01 => opCvtf d a
  | 0x06, 0x02 => opCvti d a
  | 0x06, 0x03 => opFtor d a
  | 0x06, 0x04 => opRtof d a
  | 0x2B, 0x00 => opTlbw d a b
  | 0x2B, 0x01 => opTlbr d a b
  | 0x2B, 0x02 => opTlbs d a b
  | 0x2B, 0x03 => opTlbiA a
  | 0x2B, 0x04 => opTlbiT a
  | 0x2B, 0x05 => opTlbiAll
  | 0x2B, 0x06 => opTlbiTForce a
  | 0x2B, 0x07 => opTlbiAllForce
  | 0x2C, 0x00 => opFenceL
  | 0x2C, 0x01 => opFenceS
  | 0x2C, 0x02 => opFence
  | 0x2C, 0x03 => opFenceIo
  | 0x2C, 0x04 => opIsync
  | 0x2C, 0x05 => opCwb a
  | 0x2C, 0x06 => opCinv a
  | 0x2C, 0x07 => opCwbi a
  | 0x2C, 0x08 => opCinvr d a b
  | 0x2C, 0x09 => opCinvrNw d a b
  | 0x2D, 0x00 => opNop
  | _, _ => X.raise (Exc.illegal 3)

end Sys2Proof.Machine
end

