-- ==== Sys2Proof/Machine/Repeat.lean ====
section
/-!
DEFINITION. The decode checks over a fetched word (R97 to R109), and REP (R190 to R196).
-/
namespace Sys2Proof.Machine

/-- The 32-bit instruction at an address of an INSN word (R77). -/
def halfOf (w : Pay) (upper : Bool) : Nat := if upper then fld w 63 32 else fld w 31 0

/-- Fields of a 32-bit instruction (R98, R99, R102). -/
def insMajor (i : Nat) : Nat := i / 0x4000000
def insD (i : Nat) : BitVec 5 := BitVec.ofNat 5 (i / 0x200000)
def insA (i : Nat) : BitVec 5 := BitVec.ofNat 5 (i / 0x10000)
def insB (i : Nat) : BitVec 5 := BitVec.ofNat 5 (i / 0x800)
def insRsv (i : Nat) : BitVec 5 := BitVec.ofNat 5 (i / 0x40)
def insMinor (i : Nat) : Nat := i % 0x40
def insImm (i : Nat) : Nat := i % 0x10000
def extMajor (i : Nat) : Nat := i / 0x100000 % 0x40
def extD (i : Nat) : BitVec 5 := BitVec.ofNat 5 (i / 0x8000)
def extA (i : Nat) : BitVec 5 := BitVec.ofNat 5 (i / 0x400)
def extRsv (i : Nat) : Nat := i % 0x400

/-- Majors of format R (R105). -/
def isFormatR (maj : Nat) : Bool := maj ≤ 6 || (0x25 ≤ maj && maj ≤ 0x2D && maj ≠ 0x29) || (0x38 ≤ maj && maj ≤ 0x3B)

/-- Steps 1 to 5 of R109 for a word fetched at an address, upper half or lower: the Illegal Instruction that applies
first. `loaded` says which customer slots hold an entry (R108). -/
def decodeFault (loaded : Nat → Bool) (w : Word) (upper : Bool) : Option Exc :=
  let i := halfOf w.pay upper
  let maj := insMajor i
  if w.tag ≠ Tag.insn then some (Exc.illegal 1)
  else if upper ∧ insMajor (halfOf w.pay false) = 0x3F then some (Exc.illegal 6)
  else if upper ∧ maj = 0x3F then some (Exc.illegal 5)
  else if 0x30 ≤ maj ∧ maj ≤ 0x37 then some (Exc.illegal 2)
  else if 0x38 ≤ maj ∧ maj ≤ 0x3B then
    if 3 < insMinor i then some (Exc.illegal 3)
    else if loaded (4 * (maj - 0x38) + insMinor i) then none else some (Exc.illegal 4)
  else if isFormatR maj ∧ (rMeta maj (insMinor i)).isNone then some (Exc.illegal 3)
  else if maj = 0x3F ∧ !extInner (extMajor i) then some (Exc.illegal 7)
  else none

/-- Step 6 of R109: the reserved fields of an instruction are zero. `slot` is the decode entry of a customer slot. -/
def reservedOk (slot : Nat → Option Pay) (i imm : Nat) : Bool :=
  let maj := insMajor i
  let f : RF := ⟨insD i, insA i, insB i, insRsv i⟩
  if maj = 0x20 ∨ maj = 0x21 then true
  else if maj = 0x22 then bccRsv (BitVec.ofNat 4 (i / 0x1000)) (BitVec.ofNat 5 (i / 0x10000))
  else if maj = 0x23 then btagRsv (decide (i / 0x80000 % 2 = 1)) (BitVec.ofNat 8 (i / 0x800))
  else if maj = 0x24 then decide (i / 0x10000 % 32 = 0)
  else if maj = 0x3E then decide (i % 0x4000000 = 0)
  else if maj = 0x3F then
    extRsv i = 0 && immOk (extMajor i) imm && (match iMeta (extMajor i) with | some m => m.rsvI ⟨extD i, extA i, 0⟩ | none => true)
  else if 0x38 ≤ maj ∧ maj ≤ 0x3B then
    match slot (4 * (maj - 0x38) + insMinor i) with
    | some e => f.rsv = 0 && (deUse e 2 || f.d = 0) && (deUse e 1 || f.a = 0) && (deUse e 0 || f.b = 0)
    | none => true
  else if isFormatR maj then (match rMeta maj (insMinor i) with | some m => m.rsvR f | none => true)
  else immOk maj (insImm i) && (match iMeta maj with | some m => m.rsvI ⟨f.d, f.a, 0⟩ | none => true)

/-- MTS to a register that R191 keeps out of repeats. -/
def mtsBars (n : Nat) : Bool := n = 0x019 || (0x020 ≤ n && n ≤ 0x028)

/-- The forbidden targets of R191. -/
def repForbids (slot : Nat → Option Pay) (i imm : Nat) : Bool :=
  let maj := insMajor i
  (0x20 ≤ maj && maj ≤ 0x2A) || maj = 0x3E || (maj = 0x2D && (insMinor i = 1 || insMinor i = 2))
    || (0x38 ≤ maj && maj ≤ 0x3B && (match slot (4 * (maj - 0x38) + insMinor i) with | some e => deRes e | none => false))
    || (maj = 0x1F && mtsBars (insImm i))
    || (maj = 0x3F && extMajor i = 0x1F && mtsBars imm)

/-- Illegal Repeat Target (R192). -/
def Exc.repeatTarget (i : Nat) (fa : Pay) : Exc :=
  let maj := insMajor i
  { vec := 7, fa := fa,
    cause := if maj = 0x3F then atFld 14 14 1 ||| atFld 13 8 (extMajor i)
      else if isFormatR maj then atFld 13 8 maj ||| atFld 5 0 (insMinor i) else atFld 13 8 maj }

/-- The checks of a permitted target that each iteration makes, and its meaning (R191, R193). -/
def X.target (i imm : Nat) : X Flow :=
  let maj := insMajor i
  if maj = 0x3F then do
    X.decodeChecks ((iMeta (extMajor i)).getD (metaR 0 0)) true
    iBody (extMajor i) (extD i) (extA i) (immPay (extMajor i) 32 imm)
  else if 0x38 ≤ maj ∧ maj ≤ 0x3B then opSlot (4 * (maj - 0x38) + insMinor i) (insD i) (insA i) (insB i) (insRsv i) 0
  else if isFormatR maj then do
    X.decodeChecks ((rMeta maj (insMinor i)).getD (metaR 0 0)) true
    rBody maj (insMinor i) (insD i) (insA i) (insB i)
  else do
    X.decodeChecks ((iMeta maj).getD (metaR 0 0)) true
    iBody maj (insD i) (insA i) (immPay maj 16 (insImm i))

/-- Run the target at its own address; the context's PC is the prefix again afterwards (R194). -/
def X.atTarget (pc : Pay) (size : Nat) (m : X Flow) : X Flow := fun r =>
  let at_ (q : Pay) (s : State) : State := s.updCtx r.x (fun c => c.setPc q)
  match m { r with s := at_ (pc + 4) r.s } with
  | .ok f r' => .ok f { r' with s := at_ pc r'.s }
  | .error (.park (.sweep v _ _)) r' => .error (.park (.sweep v size true)) { r' with s := at_ pc r'.s }
  | .error e r' => .error e { r' with s := at_ pc r'.s }

/-- One iteration (R137, R193): a load-class target writes its destination at once. True when RPC reaches 0. -/
def X.iteration (pc : Pay) (i imm size : Nat) : X Bool := do
  match (← X.atTarget pc size (X.target i imm)) with
  | .load d w => X.wr d w
  | _ => pure ()
  let x ← X.ctxNo
  X.upd (fun s => s.updCtx x (fun c => c.setSp Sr.rpc (c.sp Sr.rpc - 1)))
  let c ← X.ctx
  return c.sp Sr.rpc = 0

/-- The next fetch meets `m`. -/
def X.fetchMeets (m : Met) : X Unit := fun r => .ok () { r with at_ := { r.at_ with fetch := m } }

/-- REP (R190 to R196): `w` is the word that holds the instruction at PC + 4, whose fetch meets `tf`; at most `lim` + 1
iterations run under one command. -/
def opRep (pc : Pay) (w : Word) (tf : Met) (lim : Nat) : X Flow := do
  let c ← X.ctx
  if c.atLoopEnd pc then X.raise (Exc.loop 2) else pure ()
  X.fetchMeets tf
  X.fetch (pc + 4)
  let s ← X.st
  let k ← X.core
  let x ← X.ctxNo
  let slot (n : Nat) : Option Pay := Tbl.look (s.core k).decode n
  let upper := bit (pc + 4) 2
  let i := halfOf w.pay upper
  let imm := fld w.pay 63 32
  let size := if insMajor i = 0x3F then 8 else 4
  match decodeFault (fun n => (slot n).isSome) w upper with
  | some e => X.raise e
  | none => pure ()
  if !reservedOk slot i imm then X.raise (Exc.reserved 1)
  else if repForbids slot i imm then X.raise (Exc.repeatTarget i (pc + 4))
  else
    let done : X Flow := do
      X.upd (fun s => s.retire x (slotsOf (pc + 4) size) (pc + 4 + p64 size) none)
      return .stay
    if c.sp Sr.rpc = 0 then done
    else do
      match (← X.burst (X.iteration pc i imm size) lim) with
      | .seq => done
      | f => pure f

/-- A fetched word that steps 1 to 5 of R109 refuse (R97, R103 to R108); a word they accept is not this command's. -/
def opIllegal (pc : Pay) (w : Word) : X Flow := do
  let s ← X.st
  let k ← X.core
  match decodeFault (fun n => (Tbl.look (s.core k).decode n).isSome) w (bit pc 2) with
  | some e => X.raise e
  | none => return .stay

end Sys2Proof.Machine
end

