-- ==== Sys2Proof/Machine/Rows.lean ====
section
/-!
DEFINITION. What the rows of the table share: the end of every command, the issue of an instruction by its format, the
taking of an asynchronous exception, and register writes and loads by a source.
-/
namespace Sys2Proof.Machine

/-- The outcome of a command. -/
abbrev Res := Host.Outcome State Fault Refusal

/-- The end of every command on machine s0: what it sent out reaches its targets, and the queue is as it was. -/
def fin (s0 t : State) : Res := .next { t.settle with pending := s0.pending }

/-! ### Instructions -/

/-- A format R instruction (R99, R107, R109). -/
def State.rowR (s : State) (at_ : At) (f : RF) (maj min : Nat) (long : Bool) (body : Pay → X Flow) : State :=
  let m := (rMeta maj min).getD (metaR maj min)
  issue at_ 4 long (fun pc => do X.decodeChecks m (m.rsvR f); body pc) s

/-- A format I or M instruction, its immediate extended as R101 gives. -/
def State.rowI (s : State) (at_ : At) (f : IF) (maj : Nat) (body : Pay → X Flow) : State :=
  let m := (iMeta maj).getD (metaR maj 0)
  issue at_ 4 false (fun _ => do
    X.decodeChecks m (m.rsvI f && immOk maj f.imm.toNat)
    body (immPay maj 16 f.imm.toNat)) s

/-- An MTS whose row names the special register (R113). -/
def State.rowMts (s : State) (at_ : At) (f : SF) (n : Nat) : State :=
  s.rowI at_ ⟨f.d, f.a, BitVec.ofNat 16 (f.hi.toNat * 4096 + n)⟩ 0x1F (fun _ => opMts f.a n)

/-- An instruction of another format; `ok` says that its reserved fields are zero. -/
def State.rowX (s : State) (at_ : At) (maj : Nat) (ok : Bool) (body : Pay → X Flow) : State :=
  issue at_ 4 false (fun pc => do X.decodeChecks (metaR maj 0) ok; body pc) s

/-- REP (R190, R132). -/
def State.rowRep (s : State) (at_ : At) (rsv : BitVec 26) (target : Word) (tf : Met) (lim : Nat) : State :=
  issue at_ 4 true (fun pc => do X.decodeChecks (metaR 0x3E 0).breaks (rsv = 0); opRep pc target tf lim) s

/-- EXT (R102 to R104, R109). -/
def State.rowExt (s : State) (at_ : At) (inner : Nat) (d a : BitVec 5) (rsv : BitVec 10) (imm : BitVec 32) : State :=
  let m := (iMeta inner).getD (metaR inner 0)
  issue at_ 8 false (fun _ => do
    if !extInner inner then X.raise (Exc.illegal 7) else pure ()
    X.decodeChecks m (rsv = 0 && m.rsvI ⟨d, a, 0⟩ && immOk inner imm.toNat)
    iBody inner d a (immPay inner 32 imm.toNat)) s

/-- A customer slot instruction; a resumable slot counts as a long instruction (R271). -/
def State.rowSlot (s : State) (at_ : At) (slot : Nat) (f : RF) (lim : Nat) : State :=
  let long := match Tbl.look (s.core (s.coreOf at_.x.toNat)).decode slot with
    | some e => deRes e
    | none => false
  issue at_ 4 long (fun _ => opSlot slot f.d f.a f.b f.rsv lim) s

/-- An asynchronous exception of the given kind is taken at context x, when it is the one to be taken there (R456, R458).
After a return from an exception a repeat or long instruction goes first (R194, R219, R271). -/
def State.asyncRow (s : State) (x : Nat) (kind : Async) (longNext : Bool) : State :=
  let c := s.ctx x
  if !s.powered x ∨ !c.atBoundary ∨ (c.fresh && longNext) ∨ s.async x ≠ some kind then s else s.takeAsync x kind

/-! ### Sweeps -/

/-- An L1D sweep ends, having found some lines bad (R402, R417). -/
def State.sweepEnds (s : State) (k : Nat) (bad : List Nat) : State :=
  if bit ((s.core k).sp Sr.cctl) 15 then (bad.foldl (fun s l => s.l1dBad l) s).endSweep k else s

/-- An L2 sweep ends, having found some L1D lines bad (R402, R420). -/
def State.l2SweepEnds (s : State) (n : Nat) (bad : List Nat) : State :=
  if s.l2Stat n 63 then (bad.foldl (fun s l => s.l1dBad l) s).l2SweepEnd n else s

/-! ### Register accesses -/

/-- The source can act now: R15 assigns its code, the core runs that context, the cluster of an engine has power, the device is
out of reset. A command of no source has no effect (assumption 94). -/
def State.srcActs (s : State) (src : Src) : Bool :=
  let c := src.code.toNat
  src.wf && !s.sys.inReset && (if c < 64 then s.powered src.x.toNat && s.coreOf src.x.toNat = c
    else if 0x48 ≤ c ∧ c ≤ 0x4F then s.clOn (c - 0x48) else true)

/-- The page belongs to a cluster without power (R46). -/
def State.pageGated (s : State) (off : Nat) : Bool := decide (0x20 ≤ pageOf off) && decide (pageOf off < 0x28) && !s.clOn (pageOf off - 0x20)

/-- A core's access to a device register ends in an exception of its context, which stands at an instruction boundary. -/
def State.rowExc (s : State) (x : Nat) (e : Exc) : State :=
  if (s.ctx x).atBoundary && !(s.ctx x).waiting then s.takeExc x (s.ctx x).pc e else s

/-- Outputs of loose context x's core still wait for their partners (R496): a later one does not pass them. -/
def State.unpaired (s : State) (x : Nat) : Bool :=
  let w := s.twin (twinOf x)
  s.isLoose x && !(if x % 8 < 4 then w.outL else w.outS).isEmpty

/-- The core's earlier posted stores to the target of pa, or those of a tight twin's open window, reach it first (R18, R47,
R426). -/
def State.inOrder (s : State) (src : Src) (pa : Nat) : State :=
  let x := src.x.toNat
  if 64 ≤ src.code.toNat then s
  else
    let s1 := if s.heldBy x then (s.confirm (twinOf x)).settle else s
    s1.arriveBefore src.code.toNat (s1.targetOf pa) s1.nextTxn

/-- The write of a register by source `src` takes effect at the register. -/
def State.regActs (s : State) (src : Src) (off : Nat) : Bool :=
  s.srcActs src && !s.pageGated off && pageMapped (pageOf off) && decide (off % 8 = 0) && !(decide (src.code.toNat < 64) && s.unpaired src.x.toNat)

/-- A source writes a device register with a 64-bit store (R41 to R47), which arrives behind the earlier stores of its core. -/
def State.regWrite (s : State) (src : Src) (off : Nat) (v : Pay) : State :=
  let c := src.code.toNat
  let x := src.x.toNat
  if !s.srcActs src ∨ (64 ≤ c ∧ (s.pageGated off ∨ !pageMapped (pageOf off) ∨ off % 8 ≠ 0)) then s
  else if off % 8 ≠ 0 then s.rowExc x (Exc.align 2 (p64 (devBase + off)))
  else if c < 64 ∧ s.unpaired x then s
  else
    let s1 := s.inOrder src (devBase + off)
    s1.perform (.store x c (devBase + off) 8 (Word.raw v) ((s.ctx x).pc))

/-- A source loads a device register; what it returns goes to `answer`, nothing while the load waits. A core's load from a page
without power, or from no page, raises Data Bus Error (R37, R46); its fault address is the register's (assumption 95). -/
def State.regRead (s : State) (src : Src) (off : Nat) : State :=
  let c := src.code.toNat
  let x := src.x.toNat
  let s0 : State := { s with answer := none }
  if !s.srcActs src then s0
  else if s.pageGated off ∨ !pageMapped (pageOf off) then
    (if c < 64 then s0.rowExc x (Exc.dataBus (if s.pageGated off then 3 else 1) (p64 (devBase + off))) else s0)
  else if c < 64 ∧ s.unpaired x then s0
  else
    match (s0.inOrder src (devBase + off)).devLoad c x off with
    | .val v s1 => { s1 with answer := some (Word.raw v) }
    | .wait s1 => s1

/-- A value of TWIN_CMD (R518): operation, twin, KSYNC and KEEP. -/
def twinCmdWord (op : Nat) (t : BitVec 5) (ksync keep : Bool) : Pay :=
  atFld 63 60 op ||| atFld 12 12 (b2n ksync) ||| atFld 11 11 (b2n keep) ||| atFld 4 0 t.toNat

/-- A write of LDG_MIRCTL with RESTORE, and the copy the peer sends (R567). -/
def State.restoreWrite (s : State) (src : Src) (copy : Option Led) : State :=
  if !s.srcActs src then s
  else (s.regWrite src (oLdg + 0x28) (setBit (s.reg (oLdg + 0x28)) 60 true)).restoreCopy copy

/-- A packet that carries the query with opcode `op` arrives (R533 to R535, R542). -/
def State.queryPacket (s : State) (via : Via) (op : Nat) (bs : List (BitVec 8)) : State :=
  let h := bs.take 32
  if !flagQry h ∨ hdrOpcode h ≠ op then s
  else
    match via with
    | .udp p => s.udpPacket p bs
    | .sp => s.spWrite bs
    | .pcie c _ _ _ _ => if s.endpoint c.toNat then s.arrive via bs else s

end Sys2Proof.Machine
end

