-- ==== Sys2Proof/Machine/RowsArith.lean ====
section
/-!
DEFINITION. Meanings of the commands of arithmetic, comparison, bit, tag, move and conversion instructions (R139 to R151): one definition per row, each over the shared operations.
-/
namespace Sys2Proof.Machine

/-- ADD (R139). -/
def execAdd (at_ : At) (f : RF) (s : State) : Res :=
  fin s (s.rowR at_ f 0x00 0x00 false (fun _ => opAdd f.d f.a f.b))

/-- SUB (R140). -/
def execSub (at_ : At) (f : RF) (s : State) : Res :=
  fin s (s.rowR at_ f 0x00 0x01 false (fun _ => opSub f.d f.a f.b))

/-- MUL (R140). -/
def execMul (at_ : At) (f : RF) (s : State) : Res :=
  fin s (s.rowR at_ f 0x00 0x02 false (fun _ => opMul f.d f.a f.b))

/-- DIV (R140). -/
def execDiv (at_ : At) (f : RF) (s : State) : Res :=
  fin s (s.rowR at_ f 0x00 0x03 false (fun _ => opDiv f.d f.a f.b))

/-- REM (R140). -/
def execRem (at_ : At) (f : RF) (s : State) : Res :=
  fin s (s.rowR at_ f 0x00 0x04 false (fun _ => opRem f.d f.a f.b))

/-- NEG (R141). -/
def execNeg (at_ : At) (f : RF) (s : State) : Res :=
  fin s (s.rowR at_ f 0x00 0x05 false (fun _ => opNeg f.d f.a))

/-- ABS (R141). -/
def execAbs (at_ : At) (f : RF) (s : State) : Res :=
  fin s (s.rowR at_ f 0x00 0x06 false (fun _ => opAbs f.d f.a))

/-- ADDI (R139). -/
def execAddi (at_ : At) (f : IF) (s : State) : Res :=
  fin s (s.rowI at_ f 0x07 (fun v => opAddi f.d f.a v))

/-- MULI (R139). -/
def execMuli (at_ : At) (f : IF) (s : State) : Res :=
  fin s (s.rowI at_ f 0x08 (fun v => opMuli f.d f.a v))

/-- CMP (R143). -/
def execCmp (at_ : At) (f : RF) (s : State) : Res :=
  fin s (s.rowR at_ f 0x02 0x00 false (fun _ => opCmp f.d f.a f.b))

/-- CEQ (R143). -/
def execCeq (at_ : At) (f : RF) (s : State) : Res :=
  fin s (s.rowR at_ f 0x02 0x01 false (fun _ => opCeq f.d f.a f.b))

/-- CLT (R143). -/
def execClt (at_ : At) (f : RF) (s : State) : Res :=
  fin s (s.rowR at_ f 0x02 0x02 false (fun _ => opClt f.d f.a f.b))

/-- CLE (R143). -/
def execCle (at_ : At) (f : RF) (s : State) : Res :=
  fin s (s.rowR at_ f 0x02 0x03 false (fun _ => opCle f.d f.a f.b))

/-- CEQI (R143). -/
def execCeqi (at_ : At) (f : IF) (s : State) : Res :=
  fin s (s.rowI at_ f 0x09 (fun v => opCeqi f.d f.a v))

/-- CLTI (R143). -/
def execClti (at_ : At) (f : IF) (s : State) : Res :=
  fin s (s.rowI at_ f 0x0A (fun v => opClti f.d f.a v))

/-- EQ (R144). -/
def execEq (at_ : At) (f : RF) (s : State) : Res :=
  fin s (s.rowR at_ f 0x02 0x04 false (fun _ => opEq f.d f.a f.b))

/-- AND (R150). -/
def execAnd (at_ : At) (f : RF) (s : State) : Res :=
  fin s (s.rowR at_ f 0x01 0x00 false (fun _ => opAnd f.d f.a f.b))

/-- OR (R150). -/
def execOr (at_ : At) (f : RF) (s : State) : Res :=
  fin s (s.rowR at_ f 0x01 0x01 false (fun _ => opOr f.d f.a f.b))

/-- XOR (R150). -/
def execXor (at_ : At) (f : RF) (s : State) : Res :=
  fin s (s.rowR at_ f 0x01 0x02 false (fun _ => opXor f.d f.a f.b))

/-- ANDN (R150). -/
def execAndn (at_ : At) (f : RF) (s : State) : Res :=
  fin s (s.rowR at_ f 0x01 0x03 false (fun _ => opAndn f.d f.a f.b))

/-- NOT (R150). -/
def execNot (at_ : At) (f : RF) (s : State) : Res :=
  fin s (s.rowR at_ f 0x01 0x04 false (fun _ => opNot f.d f.a))

/-- ANDI (R150). -/
def execAndi (at_ : At) (f : IF) (s : State) : Res :=
  fin s (s.rowI at_ f 0x0B (fun v => opAndi f.d f.a v))

/-- ORI (R150). -/
def execOri (at_ : At) (f : IF) (s : State) : Res :=
  fin s (s.rowI at_ f 0x0C (fun v => opOri f.d f.a v))

/-- XORI (R150). -/
def execXori (at_ : At) (f : IF) (s : State) : Res :=
  fin s (s.rowI at_ f 0x0D (fun v => opXori f.d f.a v))

/-- SHL (R150). -/
def execShl (at_ : At) (f : RF) (s : State) : Res :=
  fin s (s.rowR at_ f 0x01 0x05 false (fun _ => opShl f.d f.a f.b))

/-- SHR (R150). -/
def execShr (at_ : At) (f : RF) (s : State) : Res :=
  fin s (s.rowR at_ f 0x01 0x06 false (fun _ => opShr f.d f.a f.b))

/-- SAR (R150). -/
def execSar (at_ : At) (f : RF) (s : State) : Res :=
  fin s (s.rowR at_ f 0x01 0x07 false (fun _ => opSar f.d f.a f.b))

/-- ROT (R150). -/
def execRot (at_ : At) (f : RF) (s : State) : Res :=
  fin s (s.rowR at_ f 0x01 0x08 false (fun _ => opRot f.d f.a f.b))

/-- SHI (R150). -/
def execShi (at_ : At) (f : IF) (s : State) : Res :=
  fin s (s.rowI at_ f 0x0E (fun v => opShi f.d f.a v))

/-- POPC (R150). -/
def execPopc (at_ : At) (f : RF) (s : State) : Res :=
  fin s (s.rowR at_ f 0x01 0x09 false (fun _ => opPopc f.d f.a))

/-- CLZ (R150). -/
def execClz (at_ : At) (f : RF) (s : State) : Res :=
  fin s (s.rowR at_ f 0x01 0x0A false (fun _ => opClz f.d f.a))

/-- CTZ (R150). -/
def execCtz (at_ : At) (f : RF) (s : State) : Res :=
  fin s (s.rowR at_ f 0x01 0x0B false (fun _ => opCtz f.d f.a))

/-- TAG (R150). -/
def execTag (at_ : At) (f : RF) (s : State) : Res :=
  fin s (s.rowR at_ f 0x03 0x00 false (fun _ => opTag f.d f.a))

/-- TCLS (R150). -/
def execTcls (at_ : At) (f : RF) (s : State) : Res :=
  fin s (s.rowR at_ f 0x03 0x01 false (fun _ => opTcls f.d f.a))

/-- TTST (R150). -/
def execTtst (at_ : At) (f : RF) (s : State) : Res :=
  fin s (s.rowR at_ f 0x03 0x02 false (fun _ => opTtst f.d f.a f.b))

/-- TTSTI (R150). -/
def execTtsti (at_ : At) (f : IF) (s : State) : Res :=
  fin s (s.rowI at_ f 0x2F (fun v => opTtsti f.d f.a v))

/-- RTAG (R151). -/
def execRtag (at_ : At) (f : RF) (s : State) : Res :=
  fin s (s.rowR at_ f 0x03 0x03 false (fun _ => opRtag f.d f.a f.b))

/-- RTAGI (R151). -/
def execRtagi (at_ : At) (f : IF) (s : State) : Res :=
  fin s (s.rowI at_ f 0x2E (fun v => opRtagi f.d f.a v))

/-- MOV (R150). -/
def execMov (at_ : At) (f : RF) (s : State) : Res :=
  fin s (s.rowR at_ f 0x06 0x00 false (fun _ => opMov f.d f.a))

/-- CVTF (R150). -/
def execCvtf (at_ : At) (f : RF) (s : State) : Res :=
  fin s (s.rowR at_ f 0x06 0x01 false (fun _ => opCvtf f.d f.a))

/-- CVTI (R150). -/
def execCvti (at_ : At) (f : RF) (s : State) : Res :=
  fin s (s.rowR at_ f 0x06 0x02 false (fun _ => opCvti f.d f.a))

/-- FTOR (R150). -/
def execFtor (at_ : At) (f : RF) (s : State) : Res :=
  fin s (s.rowR at_ f 0x06 0x03 false (fun _ => opFtor f.d f.a))

/-- RTOF (R150). -/
def execRtof (at_ : At) (f : RF) (s : State) : Res :=
  fin s (s.rowR at_ f 0x06 0x04 false (fun _ => opRtof f.d f.a))

/-- LDI (R150). -/
def execLdi (at_ : At) (f : IF) (s : State) : Res :=
  fin s (s.rowI at_ f 0x0F (fun v => opLdi f.d v))

/-- LDC (R150). -/
def execLdc (at_ : At) (f : IF) (s : State) : Res :=
  fin s (s.rowI at_ f 0x3C (fun v => opLdc f.d v))

/-- LDR (R150). -/
def execLdr (at_ : At) (f : IF) (s : State) : Res :=
  fin s (s.rowI at_ f 0x3D (fun v => opLdr f.d v))

end Sys2Proof.Machine
end

