-- ==== Sys2Proof/Machine/RowsCommand.lean ====
section
/-!
DEFINITION. Meanings of the commands of the Command Engine and the Ledger: one definition per row, each over the shared operations.
-/
namespace Sys2Proof.Machine

/-- UDP_DATAGRAM (R533). -/
def execUdpDatagram (p : Peer) (bs : List (BitVec 8)) (s : State) : Res :=
  fin s (s.udpPacket p bs)

/-- SQ_TAIL_DOORBELL (R534). -/
def execSqTailDoorbell (c : BitVec 2) (q : BitVec 4) (tail : BitVec 32) (es : List SqEntry) (s : State) : Res :=
  fin s (if c.toNat < 3 then (s.sqDoorbell c q tail.toNat es) else s)

/-- CQ_HEAD_DOORBELL (R534). -/
def execCqHeadDoorbell (c : BitVec 2) (q : BitVec 4) (head : BitVec 32) (es : List SqEntry) (s : State) : Res :=
  fin s (if c.toNat < 3 then (s.cqDoorbell c q head.toNat es) else s)

/-- SP_WRITE_PACKET (R535). -/
def execSpWritePacket (bs : List (BitVec 8)) (s : State) : Res :=
  fin s (s.spWrite bs)

/-- SP_READ_REPLY (R535). -/
def execSpReadReply (s : State) : Res :=
  fin s (s.spRead)

/-- SP_READ_STATUS (R535). -/
def execSpReadStatus (s : State) : Res :=
  fin s (s.spStatus)

/-- STATUS (R543). -/
def execStatus (via : Via) (bs : List (BitVec 8)) (s : State) : Res :=
  fin s (s.queryPacket via 0 bs)

/-- STREAM_INFO (R543). -/
def execStreamInfo (via : Via) (bs : List (BitVec 8)) (s : State) : Res :=
  fin s (s.queryPacket via 1 bs)

/-- TELEM_READ (R721). -/
def execTelemRead (via : Via) (bs : List (BitVec 8)) (s : State) : Res :=
  fin s (s.queryPacket via 2 bs)

/-- ATTEST (R632). -/
def execAttest (via : Via) (bs : List (BitVec 8)) (s : State) : Res :=
  fin s (s.queryPacket via 3 bs)

/-- ATTEST_SIGNED (R632). -/
def execAttestSigned (s : State) : Res :=
  fin s (s.attestSigned)

/-- ATTEST_READ (R633). -/
def execAttestRead (via : Via) (bs : List (BitVec 8)) (s : State) : Res :=
  fin s (s.queryPacket via 4 bs)

/-- STREAM_OPEN (R543). -/
def execStreamOpen (n : BitVec 17) (s : State) : Res :=
  fin s (s.streamOpen n.toNat)

/-- STREAM_CLOSE (R543). -/
def execStreamClose (n : BitVec 17) (s : State) : Res :=
  fin s (s.streamClose n.toNat)

/-- BLOB_PUT (R543). -/
def execBlobPut (n : BitVec 17) (s : State) : Res :=
  fin s (s.blobPut n.toNat)

/-- KEY_SET (R635). -/
def execKeySet (n : BitVec 17) (s : State) : Res :=
  fin s (s.keySet n.toNat)

/-- MODE_REQ (R655). -/
def execModeReq (n : BitVec 17) (s : State) : Res :=
  fin s (s.modeReqCmd n.toNat)

/-- MODE_REQ_RESET_DELAY (R655). -/
def execModeReqResetDelay (s : State) : Res :=
  fin s (s.modeReqReset)

/-- DISPATCH (R551). -/
def execDispatch (n : BitVec 17) (s : State) : Res :=
  fin s (s.dispatch n.toNat)

/-- LDG_NEXT (R553). -/
def execLdgNext (src : Src) (x : BitVec 8) (s : State) : Res :=
  fin s (s.regRead src (oLdg + 0x8000 + 0x20 * x.toNat))

/-- LDG_COMMIT (R554). -/
def execLdgCommit (src : Src) (x : BitVec 8) (v : BitVec 64) (s : State) : Res :=
  fin s (s.regWrite src (oLdg + 0x8008 + 0x20 * x.toNat) (v))

/-- LDG_EFFPUT (R557). -/
def execLdgEffput (src : Src) (x : BitVec 8) (v : BitVec 64) (s : State) : Res :=
  fin s (s.regWrite src (oLdg + 0x8010 + 0x20 * x.toNat) (v))

/-- LDG_ACK (R555). -/
def execLdgAck (src : Src) (x : BitVec 8) (s : State) : Res :=
  fin s (s.regRead src (oLdg + 0x8018 + 0x20 * x.toNat))

/-- LDG_IMGBASE_WRITE (R551). -/
def execLdgImgbaseWrite (src : Src) (v : BitVec 64) (s : State) : Res :=
  fin s (s.regWrite src (oLdg + 0x20) (v))

/-- DEADLINE (R556). -/
def execDeadline (n : BitVec 17) (s : State) : Res :=
  fin s (s.deadline n.toNat)

/-- EFFECT_COMPLETE (R561). -/
def execEffectComplete (n : BitVec 17) (gen : BitVec 15) (idx : BitVec 16) (s : State) : Res :=
  fin s (s.effectDone n.toNat gen.toNat idx.toNat)

/-- JOURNAL_DRAIN (R550). -/
def execJournalDrain (bad : List Nat) (s : State) : Res :=
  fin s (s.drain bad)

/-- LEDGER_REBUILD (R564). -/
def execLedgerRebuild (s : State) : Res :=
  fin s (s.rebuildStarts)

/-- LEDGER_REBUILD_END (R564). -/
def execLedgerRebuildEnd (s : State) : Res :=
  fin s (s.rebuildEnd)

/-- MIRROR_WRITE (R565). -/
def execMirrorWrite (auth : Bool) (off : BitVec 26) (ws : List Word) (s : State) : Res :=
  fin s (if off.toNat % 8 = 0 then s.mirrorWrite auth off.toNat ws else s)

/-- MIRROR_ACK (R566). -/
def execMirrorAck (n : BitVec 17) (s : State) : Res :=
  fin s (s.mirrorAck n.toNat)

/-- MIRROR_TIMEOUT (R566). -/
def execMirrorTimeout (n : BitVec 17) (s : State) : Res :=
  fin s (s.mirrorTimeout n.toNat)

/-- MIRROR_RESYNC_DONE (R566). -/
def execMirrorResyncDone (s : State) : Res :=
  fin s (s.mirrorDone)

/-- RESTORE (R567). -/
def execRestore (src : Src) (copy : Option Led) (s : State) : Res :=
  fin s (s.restoreWrite src copy)

end Sys2Proof.Machine
end

