-- ==== Sys2Proof/Machine/RowsControl.lean ====
section
/-!
DEFINITION. Meanings of the commands of branches, loops, repeats, events, long instructions, windows, customer slots, traps, gates and asynchronous exceptions: one definition per row, each over the shared operations.
-/
namespace Sys2Proof.Machine

/-- BR (R169). -/
def execBr (at_ : At) (disp : BitVec 26) (s : State) : Res :=
  fin s (s.rowX at_ 0x20 true (fun pc => opBr pc disp))

/-- CALL (R172). -/
def execCall (at_ : At) (disp : BitVec 26) (s : State) : Res :=
  fin s (s.rowX at_ 0x21 true (fun pc => opCall pc disp))

/-- BCC (R170). -/
def execBcc (at_ : At) (a b : BitVec 5) (cond : BitVec 4) (disp : BitVec 12) (s : State) : Res :=
  fin s (s.rowX at_ 0x22 (bccRsv cond b) (fun pc => opBcc pc cond a b disp))

/-- BTAG (R171). -/
def execBtag (at_ : At) (a : BitVec 5) (neg cls : Bool) (val : BitVec 8) (disp : BitVec 11) (s : State) : Res :=
  fin s (s.rowX at_ 0x23 (btagRsv cls val) (fun pc => opBtag pc a neg cls val disp))

/-- LOOP (R179). -/
def execLoop (at_ : At) (a rsv : BitVec 5) (ns : BitVec 16) (s : State) : Res :=
  fin s (s.rowX at_ 0x24 (rsv = 0) (fun pc => opLoop pc a ns))

/-- JMPR (R172). -/
def execJmpr (at_ : At) (f : RF) (s : State) : Res :=
  fin s (s.rowR at_ f 0x25 0x00 false (fun _ => opJmpr f.a))

/-- CALLR (R172). -/
def execCallr (at_ : At) (f : RF) (s : State) : Res :=
  fin s (s.rowR at_ f 0x25 0x01 false (fun pc => opCallr pc f.a))

/-- RET (R172). -/
def execRet (at_ : At) (f : RF) (s : State) : Res :=
  fin s (s.rowR at_ f 0x25 0x02 false (fun _ => opRet))

/-- REP (R193). -/
def execRep (at_ : At) (rsv : BitVec 26) (target : Word) (tfetch : Met) (lim : Nat) (s : State) : Res :=
  fin s (s.rowRep at_ rsv target tfetch lim)

/-- EXT (R102). -/
def execExt (at_ : At) (inner : BitVec 6) (d a : BitVec 5) (rsv : BitVec 10) (imm : BitVec 32) (s : State) : Res :=
  fin s (s.rowExt at_ inner.toNat d a rsv imm)

/-- ILLEGAL_INSTRUCTION (R106). -/
def execIllegalInstruction (at_ : At) (w : Word) (s : State) : Res :=
  fin s (issue at_ 4 false (fun pc => opIllegal pc w) s)

/-- WFE (R199). -/
def execWfe (at_ : At) (f : RF) (s : State) : Res :=
  fin s (s.rowR at_ f 0x26 0x00 false (fun _ => opWfe))

/-- SEV (R202). -/
def execSev (at_ : At) (f : RF) (s : State) : Res :=
  fin s (s.rowR at_ f 0x26 0x01 false (fun _ => opSev f.a))

/-- EVENT_LATCH_SET (R197). -/
def execEventLatchSet (x : BitVec 8) (s : State) : Res :=
  fin s (s.setLatch x.toNat)

/-- WAITT (R205). -/
def execWaitt (at_ : At) (f : RF) (s : State) : Res :=
  fin s (s.rowR at_ f 0x26 0x02 false (fun _ => opWaitt f.d f.a))

/-- WAITT_DEADLINE (R205). -/
def execWaittDeadline (x : BitVec 8) (s : State) : Res :=
  fin s (s.waittDeadline x.toNat)

/-- AGREE (R212). -/
def execAgree (at_ : At) (f : RF) (skew : Option (BitVec 64)) (s : State) : Res :=
  fin s (s.rowR at_ f 0x26 3 false (fun _ => opAgree f.d f.a f.b skew))

/-- MOVB (R216). -/
def execMovb (at_ : At) (f : RF) (lim : Nat) (s : State) : Res :=
  fin s (s.rowR at_ f 0x28 0x00 true (fun _ => opMovb f.d f.a f.b lim))

/-- FILLB (R216). -/
def execFillb (at_ : At) (f : RF) (lim : Nat) (s : State) : Res :=
  fin s (s.rowR at_ f 0x28 0x01 true (fun _ => opFillb f.d f.a f.b lim))

/-- SCANM (R216). -/
def execScanm (at_ : At) (f : RF) (lim : Nat) (s : State) : Res :=
  fin s (s.rowR at_ f 0x28 0x02 true (fun _ => opScanm f.d f.a f.b lim))

/-- SCANC (R216). -/
def execScanc (at_ : At) (f : RF) (lim : Nat) (s : State) : Res :=
  fin s (s.rowR at_ f 0x28 0x03 true (fun _ => opScanc f.d f.a f.b lim))

/-- CALLW (R229). -/
def execCallw (at_ : At) (f : RF) (s : State) : Res :=
  fin s (s.rowR at_ f 0x27 0x00 false (fun _ => opCallw))

/-- RETW (R230). -/
def execRetw (at_ : At) (f : RF) (s : State) : Res :=
  fin s (s.rowR at_ f 0x27 0x01 false (fun _ => opRetw))

/-- SAVEH (R250). -/
def execSaveh (at_ : At) (f : RF) (lim : Nat) (s : State) : Res :=
  fin s (s.rowR at_ f 0x27 0x02 true (fun _ => opSaveh f.d f.a f.b lim))

/-- REST (R251). -/
def execRest (at_ : At) (f : RF) (lim : Nat) (s : State) : Res :=
  fin s (s.rowR at_ f 0x27 0x03 true (fun _ => opRest f.d f.a f.b lim))

/-- MOVWB_F (R244). -/
def execMovwbF (at_ : At) (f : RF) (s : State) : Res :=
  fin s (s.rowR at_ f 0x27 0x04 false (fun _ => opMovwbF f.d f.a))

/-- MOVWB_T (R244). -/
def execMovwbT (at_ : At) (f : RF) (s : State) : Res :=
  fin s (s.rowR at_ f 0x27 0x05 false (fun _ => opMovwbT f.d f.a))

/-- CUSTOMER_SLOT_INSTRUCTION (R266). -/
def execCustomerSlot (at_ : At) (slot : BitVec 4) (f : RF) (lim : Nat) (s : State) : Res :=
  fin s (s.rowSlot at_ slot.toNat f lim)

/-- TRAP (R464). -/
def execTrap (at_ : At) (f : IF) (s : State) : Res :=
  fin s (s.rowX at_ 0x29 (f.d = 0 && f.a = 0 && immOk 0x29 f.imm.toNat) (fun pc => opTrap f.imm.toNat pc))

/-- CALLG (R468). -/
def execCallg (at_ : At) (f : RF) (s : State) : Res :=
  fin s (s.rowR at_ f 0x2A 0x00 false (fun pc => opCallg pc f.a))

/-- RETG (R469). -/
def execRetg (at_ : At) (f : RF) (s : State) : Res :=
  fin s (s.rowR at_ f 0x2A 0x01 false (fun _ => opRetg))

/-- RETE (R463). -/
def execRete (at_ : At) (f : RF) (s : State) : Res :=
  fin s (s.rowR at_ f 0x2A 0x02 false (fun _ => opRete))

/-- EVENT_LINE_ENTRY (R470). -/
def execEventLineEntry (x : BitVec 8) (longNext : Bool) (s : State) : Res :=
  fin s (s.asyncRow x.toNat .line longNext)

/-- STORE_BUS_ERROR (R455). -/
def execStoreBusError (x : BitVec 8) (longNext : Bool) (s : State) : Res :=
  fin s (s.asyncRow x.toNat .sbe longNext)

/-- DEFERRED_MACHINE_CHECK (R457). -/
def execDeferredMachineCheck (x : BitVec 8) (longNext : Bool) (s : State) : Res :=
  fin s (s.asyncRow x.toNat .mcheck longNext)

/-- TWIN_EVENT (R516). -/
def execTwinEvent (x : BitVec 8) (longNext : Bool) (s : State) : Res :=
  fin s (s.asyncRow x.toNat .twin longNext)

end Sys2Proof.Machine
end

