-- ==== Sys2Proof/Machine/RowsFabric.lean ====
section
/-!
DEFINITION. Meanings of the commands of the fabric, the L2 and plain register writes: one definition per row, each over the shared operations.
-/
namespace Sys2Proof.Machine

/-- RESPONSE_DELIVERY (R25). -/
def execResponseDelivery (id : Nat) (r : Resp) (s : State) : Res :=
  fin s (s.response id r)

/-- FABRIC_TIMEOUT (R25). -/
def execFabricTimeout (id : Nat) (s : State) : Res :=
  fin s (s.fabricTimeout id)

/-- TRANSACTION_ENTRY_GRANT (R24). -/
def execTransactionEntryGrant (s : State) : Res :=
  fin s (s.grantEntry)

/-- CREDIT_RETURN (R16). -/
def execCreditReturn (src tgt : BitVec 8) (cls : MsgClass) (s : State) : Res :=
  fin s (s.creditReturn src.toNat tgt.toNat (classNo cls))

/-- COHERENCE_REQUEST (R392). -/
def execCoherenceRequest (src : BitVec 8) (pa : BitVec 48) (write bad : Bool) (s : State) : Res :=
  fin s (if src.toNat < 0x54 then s.coherence src.toNat pa.toNat write bad else s)

/-- L2_SWEEP (R420). -/
def execL2Sweep (src : Src) (n : BitVec 3) (v : BitVec 64) (s : State) : Res :=
  fin s (s.regWrite src (oCl n.toNat + 0x1000) (setBit v 0 false))

/-- L2_SWEEP_END (R420). -/
def execL2SweepEnd (n : BitVec 3) (bad : List Nat) (s : State) : Res :=
  fin s (s.l2SweepEnds n.toNat bad)

/-- L2_LOCK_WRITE (R415). -/
def execL2LockWrite (src : Src) (n : BitVec 3) (v : BitVec 64) (s : State) : Res :=
  fin s (s.regWrite src (oCl n.toNat + 0x1010) (v))

/-- LOCK_LOAD (R416). -/
def execLockLoad (src : Src) (n : BitVec 3) (v : BitVec 64) (s : State) : Res :=
  fin s (s.regWrite src (oCl n.toNat + 0x1020) (setBit v 63 true))

/-- LOCK_LOAD_END (R416). -/
def execLockLoadEnd (n : BitVec 3) (s : State) : Res :=
  fin s (s.lockLoadEnd n.toNat)

/-- REGISTER_WRITE (R47). -/
def execRegisterWrite (src : Src) (off : BitVec 24) (v : BitVec 64) (s : State) : Res :=
  fin s (s.regWrite src off.toNat v)

end Sys2Proof.Machine
end

