-- ==== Sys2Proof/Machine/RowsGc.lean ====
section
/-!
DEFINITION. Meanings of the commands of garbage collection and the Physical Region Table: one definition per row, each over the shared operations.
-/
namespace Sys2Proof.Machine

/-- GC_RSET (R297). -/
def execGcRset (src : Src) (v : BitVec 64) (s : State) : Res :=
  fin s (s.regWrite src (oGc + 0x18) (v))

/-- GC_RSTAT_LOAD (R296). -/
def execGcRstatLoad (src : Src) (s : State) : Res :=
  fin s (s.regRead src (oGc + 0x20))

/-- HEAP_ENABLE (R346). -/
def execHeapEnable (src : Src) (h : BitVec 2) (v : BitVec 64) (s : State) : Res :=
  fin s (s.regWrite src (oHeap h.toNat + 0x20) (setBit v 3 true))

/-- WRITE_MARK (R319). -/
def execWriteMark (src : Src) (h : BitVec 2) (v : BitVec 64) (s : State) : Res :=
  fin s (s.regWrite src (oHeap h.toNat + 0x20) (setFld v 2 0 1))

/-- WRITE_WEAK (R318). -/
def execWriteWeak (src : Src) (h : BitVec 2) (v : BitVec 64) (s : State) : Res :=
  fin s (s.regWrite src (oHeap h.toNat + 0x20) (setFld v 2 0 2))

/-- WRITE_EVAC (R318). -/
def execWriteEvac (src : Src) (h : BitVec 2) (v : BitVec 64) (s : State) : Res :=
  fin s (s.regWrite src (oHeap h.toNat + 0x20) (setFld v 2 0 3))

/-- WRITE_IDLE (R318). -/
def execWriteIdle (src : Src) (h : BitVec 2) (v : BitVec 64) (s : State) : Res :=
  fin s (s.regWrite src (oHeap h.toNat + 0x20) (setFld v 2 0 0))

/-- MARK_ACTIVE (R319). -/
def execMarkActive (h : BitVec 2) (s : State) : Res :=
  fin s (s.markActive h.toNat)

/-- ROOTS_SET (R321). -/
def execRootsSet (src : Src) (h : BitVec 2) (v : BitVec 64) (s : State) : Res :=
  fin s (s.regWrite src (oHeap h.toNat + 0x20) (setBit v 30 true))

/-- TERMINATION_ROUND (R325). -/
def execTerminationRound (h : BitVec 2) (s : State) : Res :=
  fin s (s.termRound h.toNat)

/-- MARK_ENTRY (R323). -/
def execMarkEntry (n : BitVec 3) (e : Ecc) (s : State) : Res :=
  fin s (s.markEntry n.toNat e)

/-- CARD_SCAN (R324). -/
def execCardScan (n : BitVec 3) (e : Ecc) (s : State) : Res :=
  fin s (s.cardScan n.toNat e)

/-- WEAK_CLEAR (R326). -/
def execWeakClear (r : EngRead) (s : State) : Res :=
  fin s (s.weakClear r.n.toNat r.e)

/-- WEAK_END (R327). -/
def execWeakEnd (h : BitVec 2) (s : State) : Res :=
  fin s (s.weakEnd h.toNat)

/-- ENGINE_COPY (R328). -/
def execEngineCopy (n : BitVec 3) (e : Ecc) (s : State) : Res :=
  fin s (s.engineCopy n.toNat e)

/-- CLN_SE_SATBIN (R313). An uncorrectable error loses the entries (R336). -/
def execSeSatbin (src : Src) (n : BitVec 3) (w : SatbIn) (s : State) : Res :=
  let off := oSe n.toNat + 0x28
  let base := fld w.v 35 3 * 8
  fin s (if !s.regActs src off then s.regWrite src off w.v
    else if w.e = .bad then (s.regWrite src off (setFld w.v 63 40 0)).seLost n.toNat 1 base
    else (s.regWrite src off w.v).eccSeen (0x48 + n.toNat) base w.e)

/-- CLN_SE_SATBDONE (R313). -/
def execSeSatbdone (src : Src) (n : BitVec 3) (s : State) : Res :=
  fin s (s.regRead src (oSe n.toNat + 0x30))

/-- CLN_SE_PUSH (R350). -/
def execSePush (src : Src) (n : BitVec 3) (v : BitVec 64) (s : State) : Res :=
  fin s (s.regWrite src (oSe n.toNat + 0x20) (v))

/-- CLN_SE_EVREQ (R316). -/
def execSeEvreq (src : Src) (n : BitVec 3) (v : BitVec 64) (s : State) : Res :=
  fin s (s.regWrite src (oSe n.toNat + 0x38) (v))

/-- CLN_SE_EVDONE (R316). -/
def execSeEvdone (src : Src) (n : BitVec 3) (s : State) : Res :=
  fin s (s.regRead src (oSe n.toNat + 0x40))

/-- CLN_SE_SPLIM (R335). -/
def execSeSplim (src : Src) (n : BitVec 3) (v : BitVec 64) (s : State) : Res :=
  fin s (s.regWrite src (oSe n.toNat + 0x18) (v))

/-- GC_HEAP_ALLOC (R349). -/
def execGcHeapAlloc (src : Src) (h : BitVec 2) (s : State) : Res :=
  fin s (s.regRead src (oHeap h.toNat + 0x38))

/-- PRT_WRITE (R360). -/
def execPrtWrite (src : Src) (i : BitVec 6) (word1 : Bool) (v : BitVec 64) (s : State) : Res :=
  fin s (s.regWrite src (oSec + 0x1000 + 16 * i.toNat + 8 * b2n word1) (v))

/-- PRT_LOCK (R359). -/
def execPrtLock (src : Src) (s : State) : Res :=
  fin s (s.regWrite src (oSec + 0xF00) 1)

/-- PRT_CTL_LOAD (R360). -/
def execPrtCtlLoad (src : Src) (s : State) : Res :=
  fin s (s.regRead src (oSec + 0xF00))

/-- SEC_R0TVB_WRITE (R443). -/
def execSecR0tvbWrite (src : Src) (v : BitVec 64) (s : State) : Res :=
  fin s (s.regWrite src (oSec + 0xE00) (v))

end Sys2Proof.Machine
end

