-- ==== Sys2Proof/Machine/RowsMemory.lean ====
section
/-!
DEFINITION. Meanings of the commands of lists, objects, loads and stores (R152 to R163, R376, R405): one definition per row, each over the shared operations.
-/
namespace Sys2Proof.Machine

/-- CAR (R152). -/
def execCar (at_ : At) (f : RF) (s : State) : Res :=
  fin s (s.rowR at_ f 0x04 0x00 false (fun _ => opCar f.d f.a))

/-- CDR (R152). -/
def execCdr (at_ : At) (f : RF) (s : State) : Res :=
  fin s (s.rowR at_ f 0x04 0x01 false (fun _ => opCdr f.d f.a))

/-- CONS (R153). -/
def execCons (at_ : At) (f : RF) (s : State) : Res :=
  fin s (s.rowR at_ f 0x04 0x02 false (fun _ => opCons f.d f.a f.b))

/-- RPLACA (R154). -/
def execRplaca (at_ : At) (f : RF) (s : State) : Res :=
  fin s (s.rowR at_ f 0x04 0x03 false (fun _ => opRplaca f.a f.b))

/-- RPLACD (R154). -/
def execRplacd (at_ : At) (f : RF) (s : State) : Res :=
  fin s (s.rowR at_ f 0x04 0x04 false (fun _ => opRplacd f.a f.b))

/-- VREF (R156). -/
def execVref (at_ : At) (f : RF) (s : State) : Res :=
  fin s (s.rowR at_ f 0x05 0x00 false (fun _ => opVref f.d f.a f.b))

/-- VSET (R156). -/
def execVset (at_ : At) (f : RF) (s : State) : Res :=
  fin s (s.rowR at_ f 0x05 0x01 false (fun _ => opVset f.d f.a f.b))

/-- VLEN (R155). -/
def execVlen (at_ : At) (f : RF) (s : State) : Res :=
  fin s (s.rowR at_ f 0x05 0x02 false (fun _ => opVlen f.d f.a))

/-- BREF (R156). -/
def execBref (at_ : At) (f : RF) (s : State) : Res :=
  fin s (s.rowR at_ f 0x05 0x03 false (fun _ => opBref f.d f.a f.b))

/-- BSET (R156). -/
def execBset (at_ : At) (f : RF) (s : State) : Res :=
  fin s (s.rowR at_ f 0x05 0x04 false (fun _ => opBset f.d f.a f.b))

/-- UNWK (R155). -/
def execUnwk (at_ : At) (f : RF) (s : State) : Res :=
  fin s (s.rowR at_ f 0x05 0x05 false (fun _ => opUnwk f.d f.a))

/-- LD (R160). -/
def execLd (at_ : At) (f : IF) (s : State) : Res :=
  fin s (s.rowI at_ f 0x10 (fun v => opLd f.d f.a v))

/-- ST (R160). -/
def execSt (at_ : At) (f : IF) (s : State) : Res :=
  fin s (s.rowI at_ f 0x11 (fun v => opSt f.d f.a v))

/-- LDT (R160). -/
def execLdt (at_ : At) (f : IF) (s : State) : Res :=
  fin s (s.rowI at_ f 0x12 (fun v => opLdt f.d f.a v))

/-- STT (R161). -/
def execStt (at_ : At) (f : IF) (s : State) : Res :=
  fin s (s.rowI at_ f 0x13 (fun v => opStt f.d f.a v))

/-- LDX (R160). -/
def execLdx (at_ : At) (f : IF) (s : State) : Res :=
  fin s (s.rowI at_ f 0x14 (fun v => opLdx f.d f.a v))

/-- L8 (R160). -/
def execL8 (at_ : At) (f : IF) (s : State) : Res :=
  fin s (s.rowI at_ f 0x15 (fun v => opL8 f.d f.a v))

/-- L16 (R160). -/
def execL16 (at_ : At) (f : IF) (s : State) : Res :=
  fin s (s.rowI at_ f 0x16 (fun v => opL16 f.d f.a v))

/-- L32 (R160). -/
def execL32 (at_ : At) (f : IF) (s : State) : Res :=
  fin s (s.rowI at_ f 0x17 (fun v => opL32 f.d f.a v))

/-- S8 (R160). -/
def execS8 (at_ : At) (f : IF) (s : State) : Res :=
  fin s (s.rowI at_ f 0x18 (fun v => opS8 f.d f.a v))

/-- S16 (R160). -/
def execS16 (at_ : At) (f : IF) (s : State) : Res :=
  fin s (s.rowI at_ f 0x19 (fun v => opS16 f.d f.a v))

/-- S32 (R160). -/
def execS32 (at_ : At) (f : IF) (s : State) : Res :=
  fin s (s.rowI at_ f 0x1A (fun v => opS32 f.d f.a v))

/-- ZAL (R405). -/
def execZal (at_ : At) (f : IF) (s : State) : Res :=
  fin s (s.rowI at_ f 0x1D (fun v => opZal f.d f.a v))

/-- LDW (R376). -/
def execLdw (at_ : At) (f : IF) (s : State) : Res :=
  fin s (s.rowI at_ f 0x1B (fun v => opLdw f.d f.a v))

/-- LDWT (R376). -/
def execLdwt (at_ : At) (f : IF) (s : State) : Res :=
  fin s (s.rowI at_ f 0x1C (fun v => opLdwt f.d f.a v))

end Sys2Proof.Machine
end

