-- ==== Sys2Proof/Machine/RowsModes.lean ====
section
/-!
DEFINITION. Meanings of the commands of reset, modes, clocks and temperature: one definition per row, each over the shared operations.
-/
namespace Sys2Proof.Machine

/-- POWER_ON (R656). -/
def execPowerOn (rstLow : Bool) (s : State) : Res :=
  fin s (s.powerOn rstLow)

/-- RST_N_LOW (R656). -/
def execRstNLow (s : State) : Res :=
  fin s (s.rstFalls)

/-- RST_N_RISE (R660). -/
def execRstNRise (dnum : BitVec 3) (dcfg : BitVec 2) (dspd : Bool) (s : State) : Res :=
  fin s (s.rstRises dnum dcfg dspd)

/-- INTERNAL_RESET_END (R659). -/
def execInternalResetEnd (s : State) : Res :=
  fin s (s.resetEnds)

/-- REFCLK_LOSS (R656). -/
def execRefclkLoss (s : State) : Res :=
  fin s (s.deviceReset 5)

/-- RAIL_OUT_OF_TOLERANCE (R797). -/
def execRailOutOfTolerance (s : State) : Res :=
  fin s (if s.sys.rstLow then s else s.powerOn false)

/-- DDR_TRAINING_END (R660). -/
def execDdrTrainingEnd (s : State) : Res :=
  fin s (s.trained)

/-- RUN (R650). -/
def execRun (src : Src) (s : State) : Res :=
  fin s (s.regWrite src 0x18 (atFld 63 60 1))

/-- SAFEHOLD (R654). -/
def execSafehold (src : Src) (s : State) : Res :=
  fin s (s.regWrite src 0x18 (atFld 63 60 2))

/-- SERVICE (R650). -/
def execService (src : Src) (s : State) : Res :=
  fin s (s.regWrite src 0x18 (atFld 63 60 3))

/-- QUIET (R672). -/
def execQuiet (src : Src) (s : State) : Res :=
  fin s (s.regWrite src 0x18 (atFld 63 60 4))

/-- RESET (R656). -/
def execReset (src : Src) (s : State) : Res :=
  fin s (s.regWrite src 0x18 (atFld 63 60 5))

/-- QUIET_DRAIN_DONE (R672). -/
def execQuietDrainDone (s : State) : Res :=
  fin s (s.quietDrained)

/-- QUIET_DRAIN_TIMEOUT (R672). -/
def execQuietDrainTimeout (s : State) : Res :=
  fin s (s.quietTimeout)

/-- QUIET_GATED (R672). -/
def execQuietGated (s : State) : Res :=
  fin s (s.quietGated)

/-- QUIET_WAKE (R673). -/
def execQuietWake (s : State) : Res :=
  fin s (s.checkWake)

/-- QUIET_WAKE_DONE (R674). -/
def execQuietWakeDone (s : State) : Res :=
  fin s (s.wakeDone)

/-- FEED (R665). -/
def execFeed (src : Src) (period : BitVec 10) (s : State) : Res :=
  fin s (s.regWrite src (0x30) (atFld 63 63 1 ||| atFld 9 0 period.toNat))

/-- WATCH_PERIOD_WRITE (R665). -/
def execWatchPeriodWrite (src : Src) (period : BitVec 10) (s : State) : Res :=
  fin s (s.regWrite src (0x30) (atFld 9 0 period.toNat))

/-- WATCH_EXPIRY (R665). -/
def execWatchExpiry (s : State) : Res :=
  fin s (s.watchExpires)

/-- SYS_START (R659). -/
def execSysStart (src : Src) (x : BitVec 8) (s : State) : Res :=
  fin s (s.regWrite src (0x40) (atFld 63 63 1 ||| atFld 7 0 x.toNat))

/-- SYS_TIME_WRITE (R671). -/
def execSysTimeWrite (src : Src) (v : BitVec 64) (s : State) : Res :=
  fin s (s.regWrite src (0x48) (v))

/-- DVFS_POINT_WRITE (R668). -/
def execDvfsPointWrite (src : Src) (n : BitVec 3) (v : BitVec 64) (s : State) : Res :=
  fin s (s.regWrite src (0x100 + 8 * n.toNat) (v))

/-- DVFS_CHANGE_END (R668). -/
def execDvfsChangeEnd (n : BitVec 3) (s : State) : Res :=
  fin s (s.pointEnds n.toNat)

/-- THERMAL_DERATE (R669). -/
def execThermalDerate (n : BitVec 3) (tj : BitVec 8) (s : State) : Res :=
  fin s (s.derate n.toNat tj.toNat)

/-- DERATE_CLEAR (R669). -/
def execDerateClear (n : BitVec 3) (tj : BitVec 8) (s : State) : Res :=
  fin s (s.derateClears n.toNat tj.toNat)

/-- TEMP (R670). -/
def execTemp (n : BitVec 3) (tj : BitVec 8) (s : State) : Res :=
  fin s (s.tempHigh n.toNat tj.toNat)

/-- OVERTEMPERATURE_RESET (R656). -/
def execOvertemperatureReset (n : BitVec 3) (tj : BitVec 8) (s : State) : Res :=
  fin s (s.overheat n.toNat tj.toNat)

/-- CLUSTER_PLL_LOSS (R814). -/
def execClusterPllLoss (n : BitVec 3) (s : State) : Res :=
  fin s (s.pllLost n.toNat)

/-- PLL_RELOCK (R666). -/
def execPllRelock (n : BitVec 3) (s : State) : Res :=
  fin s (s.pllRelocks n.toNat)

/-- EVCLK (R666). -/
def execEvclk (s : State) : Res :=
  fin s (s.evclk)

/-- PLL_CALIBRATION (R717). -/
def execPllCalibration (out : List (BitVec 3 × BitVec 8)) (s : State) : Res :=
  fin s (s.sensorCheck out)

/-- TEMP_CLEAR (R670). -/
def execTempClear (n : BitVec 3) (tj : BitVec 8) (s : State) : Res :=
  fin s (s.tempClears n.toNat tj.toNat)

end Sys2Proof.Machine
end

