-- ==== Sys2Proof/Machine/RowsPlant.lean ====
section
/-!
DEFINITION. Meanings of the commands of Ethernet, PCIe, CAN, UARTs, I2C, QSPI, the Event Router, the Pulse Unit and the panel: one definition per row, each over the shared operations.
-/
namespace Sys2Proof.Machine

/-- ETH_FRAME_RECEIVED (R727). -/
def execEthFrameReceived (p : BitVec 2) (bs : List (BitVec 8)) (ts : Option (BitVec 64)) (full : Bool) (s : State) : Res :=
  fin s (s.ethFrame p.toNat bs ts full)

/-- ETH_TX_TAIL (R754). -/
def execEthTxTail (src : Src) (p : BitVec 2) (v : BitVec 64) (s : State) : Res :=
  fin s (s.regWrite src (oPort p.toNat + 0x70) (v))

/-- ETH_TX_COMPLETE (R754). -/
def execEthTxComplete (p : BitVec 2) (q : BitVec 3) (e : Ecc) (s : State) : Res :=
  fin s (s.txComplete p.toNat q.toNat e)

/-- ETH_GBASE_WRITE (R755). -/
def execEthGbaseWrite (src : Src) (p : BitVec 2) (v : BitVec 64) (s : State) : Res :=
  fin s (s.regWrite src (oPort p.toNat + 0x38) (v))

/-- GATE_LIST_SWITCH (R755). -/
def execGateListSwitch (p : BitVec 2) (s : State) : Res :=
  fin s (s.gateSwitch p.toNat)

/-- GATE_ENTRY_EXPIRY (R755). -/
def execGateEntryExpiry (p : BitVec 2) (s : State) : Res :=
  fin s (s.gateExpiry p.toNat)

/-- PCIE_INBOUND_REQUEST (R730). -/
def execPcieInboundRequest (c : BitVec 2) (pa : BitVec 64) (write : Bool) (data : List (BitVec 8)) (r : InRead) (s : State) : Res :=
  fin s (if c.toNat < 3 then (s.pcieInbound c.toNat pa.toNat write data r.len.toNat r.e) else s)

/-- CAN_FRAME_RECEIVED (R758). -/
def execCanFrameReceived (h : BitVec 2) (word : BitVec 64) (esi rtr : Bool) (data : List (BitVec 8)) (s : State) : Res :=
  fin s (s.canFrame h.toNat word esi rtr data)

/-- CAN_FRAME_SENT (R732). -/
def execCanFrameSent (h : BitVec 2) (s : State) : Res :=
  fin s (s.canSent h.toNat)

/-- CAN_BUS_OFF (R756). -/
def execCanBusOff (h : BitVec 2) (s : State) : Res :=
  fin s (s.canBusOff h.toNat)

/-- CAN_BUS_OFF_RECOVERY (R756). -/
def execCanBusOffRecovery (h : BitVec 2) (s : State) : Res :=
  fin s (s.canRecovers h.toNat)

/-- UART_BYTE_RECEIVED (R733). -/
def execUartByteReceived (u : BitVec 2) (b : BitVec 8) (perr ferr brk : Bool) (s : State) : Res :=
  fin s (s.uartRx u.toNat b perr ferr brk)

/-- UART_DATA_WRITE (R759). -/
def execUartDataWrite (src : Src) (u : BitVec 2) (v : BitVec 64) (s : State) : Res :=
  fin s (s.regWrite src (oUart u.toNat + 0x10) (v))

/-- UART_DATA_READ (R759). -/
def execUartDataRead (src : Src) (u : BitVec 2) (s : State) : Res :=
  fin s (s.regRead src (oUart u.toNat + 0x10))

/-- UART_TX_EMPTY (R759). -/
def execUartTxEmpty (u : BitVec 2) (s : State) : Res :=
  fin s (s.uartEmpty u.toNat)

/-- I2C_GO (R760). -/
def execI2cGo (src : Src) (i : BitVec 1) (v : BitVec 64) (s : State) : Res :=
  fin s (s.regWrite src (oI2c i.toNat + 8) (setBit v 63 true))

/-- I2C_TRANSFER_DONE (R760). -/
def execI2cTransferDone (i : BitVec 1) (nack arb : Bool) (count : BitVec 7) (data : List (BitVec 8)) (s : State) : Res :=
  fin s (s.i2cDone i.toNat nack arb count.toNat data)

/-- I2C_TARGET_TRANSACTION (R760). -/
def execI2cTargetTransaction (i : BitVec 1) (write : Bool) (data : List (BitVec 8)) (count : BitVec 7) (s : State) : Res :=
  fin s (s.i2cTarget i.toNat write data count.toNat)

/-- QSPI_GO (R761). -/
def execQspiGo (src : Src) (v : BitVec 64) (s : State) : Res :=
  fin s (s.regWrite src (oSio + 0x8000) (setBit v 63 true))

/-- QSPI_DONE (R761). -/
def execQspiDone (data : List (BitVec 8)) (s : State) : Res :=
  fin s (s.qspiDone data)

/-- EVT_EDGE (R738). -/
def execEvtEdge (i : BitVec 4) (level : Bool) (s : State) : Res :=
  fin s (s.evtEdge i.toNat level)

/-- SOURCE_ASSERT (R741). -/
def execSourceAssert (i : BitVec 7) (s : State) : Res :=
  fin s (if s.sys.inReset ∨ 0x74 ≤ i.toNat then s else s.assertSource i.toNat)

/-- PWM_PERIOD_BOUNDARY (R745). -/
def execPwmPeriodBoundary (n : BitVec 6) (s : State) : Res :=
  fin s (s.plsBoundary n.toNat)

/-- CAPTURE_EDGE (R744). -/
def execCaptureEdge (n : BitVec 6) (rising : Bool) (s : State) : Res :=
  fin s (s.plsCapture n.toNat rising)

/-- COUNT_EDGE (R744). -/
def execCountEdge (n : BitVec 6) (rising : Bool) (s : State) : Res :=
  fin s (s.plsCount n.toNat rising)

/-- STEP_PULSE_END (R744). -/
def execStepPulseEnd (n : BitVec 6) (s : State) : Res :=
  fin s (s.plsStep n.toNat)

/-- PLS_CNT_WRITE (R744). -/
def execPlsCntWrite (src : Src) (n : BitVec 6) (v : BitVec 64) (s : State) : Res :=
  fin s (s.regWrite src (oCh n.toNat + 0x18) (v))

/-- PANEL_FRAME (R764). -/
def execPanelFrame (c : Scan) (s : State) : Res :=
  fin s (s.panelFrame c)

/-- FRAME_RECORD_ACK (R770). -/
def execFrameRecordAck (s : State) : Res :=
  fin s (s.pnlAck)

/-- STUCK_RELEASE (R773). -/
def execStuckRelease (c : Scan) (s : State) : Res :=
  fin s (s.stuckRelease c)

/-- BRESET (R766). -/
def execBreset (src : Src) (v : BitVec 64) (s : State) : Res :=
  fin s (s.regWrite src (oPnl + 0x10) (setBit v 63 true))

/-- PANEL_ENABLE (R766). -/
def execPanelEnable (src : Src) (v : BitVec 64) (s : State) : Res :=
  fin s (s.regWrite src (oPnl + 0x10) (setBit v 0 true))

/-- PANEL_DISABLE (R782). -/
def execPanelDisable (src : Src) (v : BitVec 64) (s : State) : Res :=
  fin s (s.regWrite src (oPnl + 0x10) (setBit v 0 false))

/-- PANEL_PLL_LOSS (R777). -/
def execPanelPllLoss (s : State) : Res :=
  fin s (s.pnlPllLost)

/-- PANEL_PLL_RELOCK (R777). -/
def execPanelPllRelock (s : State) : Res :=
  fin s (s.pnlPllBack)

/-- CAN_ERROR_PASSIVE (R757). -/
def execCanErrorPassive (h : BitVec 2) (tec rec_ : BitVec 8) (s : State) : Res :=
  fin s (s.canErrors h.toNat tec.toNat rec_.toNat)

/-- PCIE_LINK_EVENT (R737). -/
def execPcieLinkEvent (c : BitVec 2) (s : State) : Res :=
  fin s (if c.toNat < 3 then (s.pcieEvent c.toNat) else s)

/-- UART_BYTE_SENT (R759). -/
def execUartByteSent (u : BitVec 2) (s : State) : Res :=
  fin s (s.uartSent u.toNat)

/-- UART_CTS_CHANGE (R759). -/
def execUartCtsChange (u : BitVec 2) (level : Bool) (s : State) : Res :=
  fin s (s.uartCts u.toNat level)

end Sys2Proof.Machine
end

