-- ==== Sys2Proof/Machine/RowsReserve.lean ====
section
/-!
DEFINITION. Meanings of the commands of the power-fail reserve and the background services: one definition per row, each over the shared operations.
-/
namespace Sys2Proof.Machine

/-- PFW_N_ASSERT (R686). -/
def execPfwNAssert (s : State) : Res :=
  fin s (s.pfwFalls)

/-- PFW_N_RELEASE (R692). -/
def execPfwNRelease (s : State) : Res :=
  fin s (s.pfwRises)

/-- FLUSH_COMPLETE (R689). -/
def execFlushComplete (s : State) : Res :=
  fin s (s.flushed)

/-- RESUME (R692). -/
def execResume (s : State) : Res :=
  fin s (s.resume)

/-- CUT_OFF (R695). -/
def execCutOff (s : State) : Res :=
  fin s (s.cutOff)

/-- TESTGO (R698). -/
def execTestgo (src : Src) (v : BitVec 64) (s : State) : Res :=
  fin s (s.regWrite src (oPwr + 0x10) (setBit v 63 true))

/-- CERT_TEST_DUE (R698). -/
def execCertTestDue (s : State) : Res :=
  fin s (s.testDue)

/-- CERT_TEST_END (R698). -/
def execCertTestEnd (eout : BitVec 32) (v2 : BitVec 16) (s : State) : Res :=
  fin s (s.testEnds eout.toNat v2.toNat)

/-- CERT_TEST_RETRY (R698). -/
def execCertTestRetry (s : State) : Res :=
  fin s (s.testRetries)

/-- PATROL_READ (R707). -/
def execPatrolRead (e : Ecc) (s : State) : Res :=
  fin s (s.patrol e)

/-- L2_SCRUB (R709). -/
def execL2Scrub (n : BitVec 3) (e : Ecc) (s : State) : Res :=
  fin s (s.l2Scrub n.toNat e)

/-- KEEP_COMPARE (R710). -/
def execKeepCompare (ea eb : Ecc) (s : State) : Res :=
  fin s (s.keepCompare ea eb)

/-- KEEP_RECHECK (R711). -/
def execKeepRecheck (s : State) : Res :=
  fin s (s.keepRecheck)

/-- JNV_WEAR_ROTATION (R713). -/
def execJnvWearRotation (block : BitVec 14) (s : State) : Res :=
  fin s (s.jnvMove block.toNat)

/-- ZQ_CALIBRATION (R716). -/
def execZqCalibration (ch : BitVec 1) (s : State) : Res :=
  fin s (s.zqCal ch.toNat)

/-- DQS_RETRAINING (R716). -/
def execDqsRetraining (ch : BitVec 1) (drifted : Bool) (s : State) : Res :=
  fin s (s.dqsTrain ch.toNat drifted)

/-- MR4_READ (R716). -/
def execMr4Read (ch : BitVec 1) (rate : BitVec 3) (s : State) : Res :=
  fin s (s.mr4 ch.toNat rate.toNat)

/-- VHOLD_SAMPLE (R685). -/
def execVholdSample (v : BitVec 16) (s : State) : Res :=
  fin s (s.vholdSample v.toNat)

/-- JNV_MOVE_SWITCH (R713). -/
def execJnvMoveSwitch (s : State) : Res :=
  fin s (s.jnvSwitch)

/-- RETRAINING_HOLD_END (R716). -/
def execRetrainingHoldEnd (ch : BitVec 1) (s : State) : Res :=
  fin s (s.holdEnds ch.toNat)

end Sys2Proof.Machine
end

