-- ==== Sys2Proof/Machine/RowsSecurity.lean ====
section
/-!
DEFINITION. Meanings of the commands of the Boot ROM, keys, fuses, measurements and the Keccak engine: one definition per row, each over the shared operations.
-/
namespace Sys2Proof.Machine

/-- BOOT_ROM (R622). -/
def execBootRom (fuseBad flash blown : Bool) (a b : Image) (s : State) : Res :=
  fin s (s.bootRom fuseBad flash blown a b)

/-- IDENTITY_DERIVATION (R628). -/
def execIdentityDerivation (ok : Bool) (s : State) : Res :=
  fin s (s.identity ok)

/-- SEC_MEASEXT (R627). -/
def execSecMeasext (src : Src) (v : BitVec 64) (s : State) : Res :=
  fin s (s.regWrite src (oSec + 0x320) (v))

/-- INSTALL (R636). -/
def execInstall (src : Src) (v : BitVec 64) (s : State) : Res :=
  fin s (s.regWrite src (oSec + 0x58) (setFld v 63 60 1))

/-- ERASE (R637). -/
def execErase (src : Src) (v : BitVec 64) (s : State) : Res :=
  fin s (s.regWrite src (oSec + 0x58) (setFld v 63 60 2))

/-- REVOKE_SLOT (R648). -/
def execRevokeSlot (src : Src) (v : BitVec 64) (s : State) : Res :=
  fin s (s.regWrite src (oSec + 0x30) (setFld v 63 60 1))

/-- ROLLBACK (R648). -/
def execRollback (src : Src) (v : BitVec 64) (s : State) : Res :=
  fin s (s.regWrite src (oSec + 0x30) (setFld v 63 60 2))

/-- DEBUGLOCK (R648). -/
def execDebuglock (src : Src) (v : BitVec 64) (s : State) : Res :=
  fin s (s.regWrite src (oSec + 0x30) (setFld v 63 60 3))

/-- LIFE (R648). -/
def execLife (src : Src) (v : BitVec 64) (s : State) : Res :=
  fin s (s.regWrite src (oSec + 0x30) (setFld v 63 60 4))

/-- PROGKEY (R648). -/
def execProgkey (src : Src) (v : BitVec 64) (s : State) : Res :=
  fin s (s.regWrite src (oSec + 0x30) (setFld v 63 60 5))

/-- FUSE_OPERATION_COMPLETE (R642). -/
def execFuseOperationComplete (ok : Bool) (s : State) : Res :=
  fin s (s.fuseComplete ok)

/-- KECCAK_TAIL (R639). -/
def execKeccakTail (sentinel : Bool) (tail : BitVec 64) (s : State) : Res :=
  fin s (s.keccakTail sentinel tail)

/-- SHAKE256 (R640). -/
def execShake256 (sentinel : Bool) (e : Ecc) (s : State) : Res :=
  fin s (s.kqStep sentinel 1 e)

/-- KMAC256 (R640). -/
def execKmac256 (sentinel : Bool) (e : Ecc) (s : State) : Res :=
  fin s (s.kqStep sentinel 2 e)

/-- VERIFY_SLH_DSA_SHAKE_256S (R641). -/
def execVerifySlhDsaShake256s (sentinel : Bool) (e : Ecc) (s : State) : Res :=
  fin s (s.kqStep sentinel 3 e)

/-- VERIFY_SLH_DSA_SHAKE_256F (R641). -/
def execVerifySlhDsaShake256f (sentinel : Bool) (e : Ecc) (s : State) : Res :=
  fin s (s.kqStep sentinel 4 e)

end Sys2Proof.Machine
end

