-- ==== Sys2Proof/Machine/RowsStore.lean ====
section
/-!
DEFINITION. Meanings of the commands of the Store Engine: one definition per row, each over the shared operations.
-/
namespace Sys2Proof.Machine

/-- DRIVE_READ_COMPLETE (R583). -/
def execDriveReadComplete (b : BitVec 26) (second : Bool) (d : DriveBlock) (s : State) : Res :=
  fin s (s.driveRead b.toNat (b2n second) d)

/-- ZERO_BLOCK_FILL (R584). -/
def execZeroBlockFill (b : BitVec 26) (s : State) : Res :=
  fin s (s.zeroFill b.toNat)

/-- FRAME_EVICTION (R585). -/
def execFrameEviction (s : State) : Res :=
  fin s (s.frameEviction)

/-- STO_XQTAIL (R598). -/
def execStoXqtail (src : Src) (v : BitVec 64) (s : State) : Res :=
  fin s (s.regWrite src (oSto + 0x50) (v))

/-- READ (R596). -/
def execRead (i : BitVec 12) (m : XqFound) (s : State) : Res :=
  fin s (s.xqStep 1 i.toNat m.data m.map)

/-- FETCH (R596). -/
def execFetch (i : BitVec 12) (m : Ecc) (s : State) : Res :=
  fin s (s.xqStep 2 i.toNat .clean m)

/-- PIN (R596). -/
def execPin (i : BitVec 12) (m : Ecc) (s : State) : Res :=
  fin s (s.xqStep 3 i.toNat .clean m)

/-- UNPIN (R596). -/
def execUnpin (i : BitVec 12) (m : Ecc) (s : State) : Res :=
  fin s (s.xqStep 4 i.toNat .clean m)

/-- SEAL (R589). -/
def execSeal (i : BitVec 12) (m : XqFound) (s : State) : Res :=
  fin s (s.xqStep 5 i.toNat m.data m.map)

/-- SEAL_COMPLETE (R589). -/
def execSealComplete (i : BitVec 12) (s : State) : Res :=
  fin s (s.sealComplete i.toNat)

/-- CHECKPOINT (R594). -/
def execCheckpoint (s : State) : Res :=
  fin s (s.checkpoint)

/-- CHECKPOINT_END (R594). -/
def execCheckpointEnd (s : State) : Res :=
  fin s (s.checkpointEnd.releaseMore)

/-- MOUNT (R606). -/
def execMount (src : Src) (v : BitVec 64) (s : State) : Res :=
  fin s (s.regWrite src (oSto + 0x10) (setBit v 59 true))

/-- MOUNT_END (R606). -/
def execMountEnd (d0 d1 : DriveFound) (ck : Option Ckpt) (s : State) : Res :=
  fin s ((s.mountEnd d0 d1 ck).releaseMore)

/-- FORMAT (R605). -/
def execFormat (src : Src) (v : BitVec 64) (s : State) : Res :=
  fin s (s.regWrite src (oSto + 0x10) (setBit v 60 true))

/-- FORMAT_END (R605). -/
def execFormatEnd (s : State) : Res :=
  fin s (s.formatEnd)

/-- RESYNC (R604). -/
def execResync (src : Src) (v : BitVec 64) (s : State) : Res :=
  fin s (s.regWrite src (oSto + 0x10) (setBit v 61 true))

/-- RESYNC_END (R604). -/
def execResyncEnd (s : State) : Res :=
  fin s (s.resyncEnd)

/-- STO_DISABLE (R611). -/
def execStoDisable (src : Src) (v : BitVec 64) (s : State) : Res :=
  fin s (s.regWrite src (oSto + 0x10) (setBit v 63 false))

/-- DRIVE_FAULT (R601). -/
def execDriveFault (second : Bool) (s : State) : Res :=
  fin s (s.fenceDrive (b2n second))

/-- DRIVE_COMMAND_TIMEOUT (R601). -/
def execDriveCommandTimeout (second : Bool) (s : State) : Res :=
  fin s (s.driveTimeout (b2n second))

/-- DRIVE_READY (R608). -/
def execDriveReady (second : Bool) (s : State) : Res :=
  fin s (s.driveReady (b2n second))

end Sys2Proof.Machine
end

