-- ==== Sys2Proof/Machine/RowsSystem.lean ====
section
/-!
DEFINITION. Meanings of the commands of special registers, the TLB, cache maintenance, fences, NOP, CKPT and BRK: one definition per row, each over the shared operations.
-/
namespace Sys2Proof.Machine

/-- MFS (R113). -/
def execMfs (at_ : At) (f : IF) (s : State) : Res :=
  fin s (s.rowI at_ f 0x1E (fun v => opMfs f.d v.toNat))

/-- MTS (R113). -/
def execMts (at_ : At) (f : IF) (s : State) : Res :=
  fin s (s.rowI at_ f 0x1F (fun v => opMts f.a v.toNat))

/-- MTS_PS (R437). -/
def execMtsPs (at_ : At) (f : SF) (s : State) : Res :=
  fin s (s.rowMts at_ f Sr.ps)

/-- MTS_LE (R188). -/
def execMtsLe (at_ : At) (k : BitVec 2) (f : SF) (s : State) : Res :=
  fin s (s.rowMts at_ f (Sr.le0 + k.toNat))

/-- MTS_WINB (R243). -/
def execMtsWinb (at_ : At) (f : SF) (s : State) : Res :=
  fin s (s.rowMts at_ f Sr.winb)

/-- MTS_TVB (R443). -/
def execMtsTvb (at_ : At) (f : SF) (s : State) : Res :=
  fin s (s.rowMts at_ f Sr.tvb)

/-- MTS_CCTL (R417). -/
def execMtsCctl (at_ : At) (f : SF) (s : State) : Res :=
  fin s (s.rowMts at_ f Sr.cctl)

/-- L1D_SWEEP_END (R417). -/
def execL1dSweepEnd (k : BitVec 6) (bad : List Nat) (s : State) : Res :=
  fin s (s.sweepEnds k.toNat bad)

/-- UCS_GO (R286). -/
def execUcsGo (at_ : At) (f : SF) (s : State) : Res :=
  fin s (s.rowMts at_ f Sr.ucs)

/-- UCS_CLR (R286). -/
def execUcsClr (at_ : At) (f : SF) (s : State) : Res :=
  fin s (s.rowMts at_ f Sr.ucs)

/-- UCS_LOAD_COMPLETE (R286). -/
def execUcsLoadComplete (k : BitVec 6) (s : State) : Res :=
  fin s (s.ucsComplete k.toNat)

/-- TLBW (R368). -/
def execTlbw (at_ : At) (f : RF) (s : State) : Res :=
  fin s (s.rowR at_ f 0x2B 0x00 false (fun _ => opTlbw f.d f.a f.b))

/-- TLBR (R366). -/
def execTlbr (at_ : At) (f : RF) (s : State) : Res :=
  fin s (s.rowR at_ f 0x2B 0x01 false (fun _ => opTlbr f.d f.a f.b))

/-- TLBS (R366). -/
def execTlbs (at_ : At) (f : RF) (s : State) : Res :=
  fin s (s.rowR at_ f 0x2B 0x02 false (fun _ => opTlbs f.d f.a f.b))

/-- TLBI_A (R380). -/
def execTlbiA (at_ : At) (f : RF) (s : State) : Res :=
  fin s (s.rowR at_ f 0x2B 0x03 false (fun _ => opTlbiA f.a))

/-- TLBI_T (R380). -/
def execTlbiT (at_ : At) (f : RF) (s : State) : Res :=
  fin s (s.rowR at_ f 0x2B 0x04 false (fun _ => opTlbiT f.a))

/-- TLBI_T_FORCE (R380). -/
def execTlbiTForce (at_ : At) (f : RF) (s : State) : Res :=
  fin s (s.rowR at_ f 0x2B 0x06 false (fun _ => opTlbiTForce f.a))

/-- TLBI_ALL (R380). -/
def execTlbiAll (at_ : At) (f : RF) (s : State) : Res :=
  fin s (s.rowR at_ f 0x2B 0x05 false (fun _ => opTlbiAll))

/-- TLBI_ALL_FORCE (R380). -/
def execTlbiAllForce (at_ : At) (f : RF) (s : State) : Res :=
  fin s (s.rowR at_ f 0x2B 0x07 false (fun _ => opTlbiAllForce))

/-- FENCE_L (R424). -/
def execFenceL (at_ : At) (f : RF) (s : State) : Res :=
  fin s (s.rowR at_ f 0x2C 0x00 false (fun _ => opFenceL))

/-- FENCE_S (R424). -/
def execFenceS (at_ : At) (f : RF) (s : State) : Res :=
  fin s (s.rowR at_ f 0x2C 0x01 false (fun _ => opFenceS))

/-- FENCE (R424). -/
def execFence (at_ : At) (f : RF) (s : State) : Res :=
  fin s (s.rowR at_ f 0x2C 0x02 false (fun _ => opFence))

/-- FENCE_IO (R424). -/
def execFenceIo (at_ : At) (f : RF) (s : State) : Res :=
  fin s (s.rowR at_ f 0x2C 0x03 false (fun _ => opFenceIo))

/-- ISYNC (R412). -/
def execIsync (at_ : At) (f : RF) (s : State) : Res :=
  fin s (s.rowR at_ f 0x2C 0x04 false (fun _ => opIsync))

/-- CWB (R408). -/
def execCwb (at_ : At) (f : RF) (s : State) : Res :=
  fin s (s.rowR at_ f 0x2C 0x05 false (fun _ => opCwb f.a))

/-- CINV (R408). -/
def execCinv (at_ : At) (f : RF) (s : State) : Res :=
  fin s (s.rowR at_ f 0x2C 0x06 false (fun _ => opCinv f.a))

/-- CWBI (R408). -/
def execCwbi (at_ : At) (f : RF) (s : State) : Res :=
  fin s (s.rowR at_ f 0x2C 0x07 false (fun _ => opCwbi f.a))

/-- CINVR (R410). -/
def execCinvr (at_ : At) (f : RF) (s : State) : Res :=
  fin s (s.rowR at_ f 0x2C 0x08 false (fun _ => opCinvr f.d f.a f.b))

/-- CINVR_NW (R410). -/
def execCinvrNw (at_ : At) (f : RF) (s : State) : Res :=
  fin s (s.rowR at_ f 0x2C 0x09 false (fun _ => opCinvrNw f.d f.a f.b))

/-- NOP (R107). -/
def execNop (at_ : At) (f : RF) (s : State) : Res :=
  fin s (s.rowR at_ f 0x2D 0x00 false (fun _ => opNop))

/-- CKPT (R498). -/
def execCkpt (at_ : At) (f : RF) (s : State) : Res :=
  fin s (s.rowR at_ f 0x2D 0x01 false (fun _ => opCkpt))

/-- BRK (R512). -/
def execBrk (at_ : At) (f : RF) (s : State) : Res :=
  fin s (s.rowR at_ f 0x2D 0x02 false (fun _ => opBrk))

end Sys2Proof.Machine
end

