-- ==== Sys2Proof/Machine/RowsTwin.lean ====
section
/-!
DEFINITION. Meanings of the commands of twins, comparators, delay lines and debug access: one definition per row, each over the shared operations.
-/
namespace Sys2Proof.Machine

/-- SPLIT (R481). -/
def execSplit (src : Src) (t : BitVec 5) (s : State) : Res :=
  fin s (s.regWrite src (oTwin + 0x10) (twinCmdWord 1 t false false))

/-- JOIN (R482). -/
def execJoin (src : Src) (t : BitVec 5) (ksync : Bool) (s : State) : Res :=
  fin s (s.regWrite src (oTwin + 0x10) (twinCmdWord 2 t ksync false))

/-- LOOSE (R481). -/
def execLoose (src : Src) (t : BitVec 5) (s : State) : Res :=
  fin s (s.regWrite src (oTwin + 0x10) (twinCmdWord 3 t false false))

/-- SOLO (R481). -/
def execSolo (src : Src) (t : BitVec 5) (keepShadow : Bool) (s : State) : Res :=
  fin s (s.regWrite src (oTwin + 0x10) (twinCmdWord 4 t false keepShadow))

/-- TWIN_FENCE (R481). -/
def execTwinFence (src : Src) (t : BitVec 5) (s : State) : Res :=
  fin s (s.regWrite src (oTwin + 0x10) (twinCmdWord 5 t false false))

/-- UNFENCE (R481). -/
def execUnfence (src : Src) (t : BitVec 5) (s : State) : Res :=
  fin s (s.regWrite src (oTwin + 0x10) (twinCmdWord 6 t false false))

/-- TWIN_TRANSITION_COMPLETE (R481). -/
def execTwinTransitionComplete (t : BitVec 5) (leaderOk shadowOk : Bool) (s : State) : Res :=
  fin s (s.endTrans t.toNat leaderOk shadowOk)

/-- TWIN_LOGACK (R516). -/
def execTwinLogack (src : Src) (v : BitVec 64) (s : State) : Res :=
  fin s (s.regWrite src (oTwin + 0x38) (v))

/-- WINDOW_END (R487). -/
def execWindowEnd (t : BitVec 5) (shadow : Option (BitVec 64)) (s : State) : Res :=
  fin s (s.windowEnd t.toNat shadow)

/-- OUTPUT_MATCH (R496). -/
def execOutputMatch (t : BitVec 5) (r : Resp) (s : State) : Res :=
  fin s (s.outputMatch t.toNat r)

/-- PARTNER_WAIT_TIMEOUT (R496). -/
def execPartnerWaitTimeout (t : BitVec 5) (shadow : Bool) (s : State) : Res :=
  fin s (s.partnerTimeout t.toNat shadow)

/-- BIST_END (R504). -/
def execBistEnd (t : BitVec 5) (leaderOk shadowOk : Bool) (s : State) : Res :=
  fin s (s.bistEnd t.toNat leaderOk shadowOk)

/-- COMPARATOR_TEST (R508). -/
def execComparatorTest (t : BitVec 5) (faulty : Bool) (s : State) : Res :=
  fin s (if faulty then s.comparatorFault t.toNat else s)

/-- DELAY_LINE_PARITY (R510). -/
def execDelayLineParity (t : BitVec 5) (second : Bool) (s : State) : Res :=
  fin s (s.delayFault t.toNat (1 + b2n second))

/-- DEBUG_HALT (R511). -/
def execDebugHalt (k : BitVec 6) (s : State) : Res :=
  fin s (s.debugHaltReq k.toNat)

/-- DEBUG_RESUME (R736). -/
def execDebugResume (k : BitVec 6) (s : State) : Res :=
  fin s (s.debugResume k.toNat)

/-- DEBUG_STEP (R736). -/
def execDebugStep (x : BitVec 8) (s : State) : Res :=
  fin s (s.debugStep x.toNat)

/-- DEBUG_REGISTER_ACCESS (R736). -/
def execDebugRegisterAccess (x : BitVec 8) (special : Bool) (n : BitVec 12) (bank : BitVec 3) (w : Option Word) (s : State) : Res :=
  fin s (if special ∨ n.toNat < 32 then s.debugReg x.toNat special n.toNat bank.toNat w else s)

/-- DEBUG_MEMORY_ACCESS (R736). -/
def execDebugMemoryAccess (pa : BitVec 48) (w : Option Word) (s : State) : Res :=
  fin s (if pa.toNat % 8 = 0 then s.debugMem pa.toNat w else s)

/-- DEBUG_ATTACH (R643). -/
def execDebugAttach (s : State) : Res :=
  fin s (s.debugAttach)

end Sys2Proof.Machine
end

