-- ==== Sys2Proof/Machine/Dispatch.lean ====
section
/-!
DEFINITION. The dispatch of a command to its meaning: one arm per row of the table.
-/
namespace Sys2Proof.Machine

def exec (cmd : Instr) (s : State) : Host.Outcome State Fault Refusal :=
  match cmd with
  | .add at_ f => Sys2Proof.Machine.execAdd at_ f s
  | .sub at_ f => Sys2Proof.Machine.execSub at_ f s
  | .mul at_ f => Sys2Proof.Machine.execMul at_ f s
  | .div at_ f => Sys2Proof.Machine.execDiv at_ f s
  | .rem at_ f => Sys2Proof.Machine.execRem at_ f s
  | .neg at_ f => Sys2Proof.Machine.execNeg at_ f s
  | .abs at_ f => Sys2Proof.Machine.execAbs at_ f s
  | .addi at_ f => Sys2Proof.Machine.execAddi at_ f s
  | .muli at_ f => Sys2Proof.Machine.execMuli at_ f s
  | .cmp at_ f => Sys2Proof.Machine.execCmp at_ f s
  | .ceq at_ f => Sys2Proof.Machine.execCeq at_ f s
  | .clt at_ f => Sys2Proof.Machine.execClt at_ f s
  | .cle at_ f => Sys2Proof.Machine.execCle at_ f s
  | .ceqi at_ f => Sys2Proof.Machine.execCeqi at_ f s
  | .clti at_ f => Sys2Proof.Machine.execClti at_ f s
  | .eq at_ f => Sys2Proof.Machine.execEq at_ f s
  | .and at_ f => Sys2Proof.Machine.execAnd at_ f s
  | .or at_ f => Sys2Proof.Machine.execOr at_ f s
  | .xor at_ f => Sys2Proof.Machine.execXor at_ f s
  | .andn at_ f => Sys2Proof.Machine.execAndn at_ f s
  | .not at_ f => Sys2Proof.Machine.execNot at_ f s
  | .andi at_ f => Sys2Proof.Machine.execAndi at_ f s
  | .ori at_ f => Sys2Proof.Machine.execOri at_ f s
  | .xori at_ f => Sys2Proof.Machine.execXori at_ f s
  | .shl at_ f => Sys2Proof.Machine.execShl at_ f s
  | .shr at_ f => Sys2Proof.Machine.execShr at_ f s
  | .sar at_ f => Sys2Proof.Machine.execSar at_ f s
  | .rot at_ f => Sys2Proof.Machine.execRot at_ f s
  | .shi at_ f => Sys2Proof.Machine.execShi at_ f s
  | .popc at_ f => Sys2Proof.Machine.execPopc at_ f s
  | .clz at_ f => Sys2Proof.Machine.execClz at_ f s
  | .ctz at_ f => Sys2Proof.Machine.execCtz at_ f s
  | .tag at_ f => Sys2Proof.Machine.execTag at_ f s
  | .tcls at_ f => Sys2Proof.Machine.execTcls at_ f s
  | .ttst at_ f => Sys2Proof.Machine.execTtst at_ f s
  | .ttsti at_ f => Sys2Proof.Machine.execTtsti at_ f s
  | .rtag at_ f => Sys2Proof.Machine.execRtag at_ f s
  | .rtagi at_ f => Sys2Proof.Machine.execRtagi at_ f s
  | .mov at_ f => Sys2Proof.Machine.execMov at_ f s
  | .cvtf at_ f => Sys2Proof.Machine.execCvtf at_ f s
  | .cvti at_ f => Sys2Proof.Machine.execCvti at_ f s
  | .ftor at_ f => Sys2Proof.Machine.execFtor at_ f s
  | .rtof at_ f => Sys2Proof.Machine.execRtof at_ f s
  | .ldi at_ f => Sys2Proof.Machine.execLdi at_ f s
  | .ldc at_ f => Sys2Proof.Machine.execLdc at_ f s
  | .ldr at_ f => Sys2Proof.Machine.execLdr at_ f s
  | .car at_ f => Sys2Proof.Machine.execCar at_ f s
  | .cdr at_ f => Sys2Proof.Machine.execCdr at_ f s
  | .cons at_ f => Sys2Proof.Machine.execCons at_ f s
  | .rplaca at_ f => Sys2Proof.Machine.execRplaca at_ f s
  | .rplacd at_ f => Sys2Proof.Machine.execRplacd at_ f s
  | .vref at_ f => Sys2Proof.Machine.execVref at_ f s
  | .vset at_ f => Sys2Proof.Machine.execVset at_ f s
  | .vlen at_ f => Sys2Proof.Machine.execVlen at_ f s
  | .bref at_ f => Sys2Proof.Machine.execBref at_ f s
  | .bset at_ f => Sys2Proof.Machine.execBset at_ f s
  | .unwk at_ f => Sys2Proof.Machine.execUnwk at_ f s
  | .ld at_ f => Sys2Proof.Machine.execLd at_ f s
  | .st at_ f => Sys2Proof.Machine.execSt at_ f s
  | .ldt at_ f => Sys2Proof.Machine.execLdt at_ f s
  | .stt at_ f => Sys2Proof.Machine.execStt at_ f s
  | .ldx at_ f => Sys2Proof.Machine.execLdx at_ f s
  | .l8 at_ f => Sys2Proof.Machine.execL8 at_ f s
  | .l16 at_ f => Sys2Proof.Machine.execL16 at_ f s
  | .l32 at_ f => Sys2Proof.Machine.execL32 at_ f s
  | .s8 at_ f => Sys2Proof.Machine.execS8 at_ f s
  | .s16 at_ f => Sys2Proof.Machine.execS16 at_ f s
  | .s32 at_ f => Sys2Proof.Machine.execS32 at_ f s
  | .zal at_ f => Sys2Proof.Machine.execZal at_ f s
  | .ldw at_ f => Sys2Proof.Machine.execLdw at_ f s
  | .ldwt at_ f => Sys2Proof.Machine.execLdwt at_ f s
  | .mfs at_ f => Sys2Proof.Machine.execMfs at_ f s
  | .mts at_ f => Sys2Proof.Machine.execMts at_ f s
  | .mtsPs at_ f => Sys2Proof.Machine.execMtsPs at_ f s
  | .mtsLe at_ k f => Sys2Proof.Machine.execMtsLe at_ k f s
  | .mtsWinb at_ f => Sys2Proof.Machine.execMtsWinb at_ f s
  | .mtsTvb at_ f => Sys2Proof.Machine.execMtsTvb at_ f s
  | .mtsCctl at_ f => Sys2Proof.Machine.execMtsCctl at_ f s
  | .l1dSweepEnd k bad => Sys2Proof.Machine.execL1dSweepEnd k bad s
  | .ucsGo at_ f => Sys2Proof.Machine.execUcsGo at_ f s
  | .ucsClr at_ f => Sys2Proof.Machine.execUcsClr at_ f s
  | .ucsLoadComplete k => Sys2Proof.Machine.execUcsLoadComplete k s
  | .br at_ disp => Sys2Proof.Machine.execBr at_ disp s
  | .call at_ disp => Sys2Proof.Machine.execCall at_ disp s
  | .bcc at_ a b cond disp => Sys2Proof.Machine.execBcc at_ a b cond disp s
  | .btag at_ a neg cls val disp => Sys2Proof.Machine.execBtag at_ a neg cls val disp s
  | .loop at_ a rsv ns => Sys2Proof.Machine.execLoop at_ a rsv ns s
  | .jmpr at_ f => Sys2Proof.Machine.execJmpr at_ f s
  | .callr at_ f => Sys2Proof.Machine.execCallr at_ f s
  | .ret at_ f => Sys2Proof.Machine.execRet at_ f s
  | .rep at_ rsv target tfetch lim => Sys2Proof.Machine.execRep at_ rsv target tfetch lim s
  | .ext at_ inner d a rsv imm => Sys2Proof.Machine.execExt at_ inner d a rsv imm s
  | .illegalInstruction at_ w => Sys2Proof.Machine.execIllegalInstruction at_ w s
  | .wfe at_ f => Sys2Proof.Machine.execWfe at_ f s
  | .sev at_ f => Sys2Proof.Machine.execSev at_ f s
  | .eventLatchSet x => Sys2Proof.Machine.execEventLatchSet x s
  | .waitt at_ f => Sys2Proof.Machine.execWaitt at_ f s
  | .waittDeadline x => Sys2Proof.Machine.execWaittDeadline x s
  | .agree at_ f skew => Sys2Proof.Machine.execAgree at_ f skew s
  | .movb at_ f lim => Sys2Proof.Machine.execMovb at_ f lim s
  | .fillb at_ f lim => Sys2Proof.Machine.execFillb at_ f lim s
  | .scanm at_ f lim => Sys2Proof.Machine.execScanm at_ f lim s
  | .scanc at_ f lim => Sys2Proof.Machine.execScanc at_ f lim s
  | .callw at_ f => Sys2Proof.Machine.execCallw at_ f s
  | .retw at_ f => Sys2Proof.Machine.execRetw at_ f s
  | .saveh at_ f lim => Sys2Proof.Machine.execSaveh at_ f lim s
  | .rest at_ f lim => Sys2Proof.Machine.execRest at_ f lim s
  | .movwbF at_ f => Sys2Proof.Machine.execMovwbF at_ f s
  | .movwbT at_ f => Sys2Proof.Machine.execMovwbT at_ f s
  | .customerSlot at_ slot f lim => Sys2Proof.Machine.execCustomerSlot at_ slot f lim s
  | .trap at_ f => Sys2Proof.Machine.execTrap at_ f s
  | .callg at_ f => Sys2Proof.Machine.execCallg at_ f s
  | .retg at_ f => Sys2Proof.Machine.execRetg at_ f s
  | .rete at_ f => Sys2Proof.Machine.execRete at_ f s
  | .eventLineEntry x longNext => Sys2Proof.Machine.execEventLineEntry x longNext s
  | .storeBusError x longNext => Sys2Proof.Machine.execStoreBusError x longNext s
  | .deferredMachineCheck x longNext => Sys2Proof.Machine.execDeferredMachineCheck x longNext s
  | .twinEvent x longNext => Sys2Proof.Machine.execTwinEvent x longNext s
  | .tlbw at_ f => Sys2Proof.Machine.execTlbw at_ f s
  | .tlbr at_ f => Sys2Proof.Machine.execTlbr at_ f s
  | .tlbs at_ f => Sys2Proof.Machine.execTlbs at_ f s
  | .tlbiA at_ f => Sys2Proof.Machine.execTlbiA at_ f s
  | .tlbiT at_ f => Sys2Proof.Machine.execTlbiT at_ f s
  | .tlbiTForce at_ f => Sys2Proof.Machine.execTlbiTForce at_ f s
  | .tlbiAll at_ f => Sys2Proof.Machine.execTlbiAll at_ f s
  | .tlbiAllForce at_ f => Sys2Proof.Machine.execTlbiAllForce at_ f s
  | .fenceL at_ f => Sys2Proof.Machine.execFenceL at_ f s
  | .fenceS at_ f => Sys2Proof.Machine.execFenceS at_ f s
  | .fence at_ f => Sys2Proof.Machine.execFence at_ f s
  | .fenceIo at_ f => Sys2Proof.Machine.execFenceIo at_ f s
  | .isync at_ f => Sys2Proof.Machine.execIsync at_ f s
  | .cwb at_ f => Sys2Proof.Machine.execCwb at_ f s
  | .cinv at_ f => Sys2Proof.Machine.execCinv at_ f s
  | .cwbi at_ f => Sys2Proof.Machine.execCwbi at_ f s
  | .cinvr at_ f => Sys2Proof.Machine.execCinvr at_ f s
  | .cinvrNw at_ f => Sys2Proof.Machine.execCinvrNw at_ f s
  | .nop at_ f => Sys2Proof.Machine.execNop at_ f s
  | .ckpt at_ f => Sys2Proof.Machine.execCkpt at_ f s
  | .brk at_ f => Sys2Proof.Machine.execBrk at_ f s
  | .responseDelivery id r => Sys2Proof.Machine.execResponseDelivery id r s
  | .fabricTimeout id => Sys2Proof.Machine.execFabricTimeout id s
  | .transactionEntryGrant => Sys2Proof.Machine.execTransactionEntryGrant s
  | .creditReturn src tgt cls => Sys2Proof.Machine.execCreditReturn src tgt cls s
  | .coherenceRequest src pa write bad => Sys2Proof.Machine.execCoherenceRequest src pa write bad s
  | .l2Sweep src n v => Sys2Proof.Machine.execL2Sweep src n v s
  | .l2SweepEnd n bad => Sys2Proof.Machine.execL2SweepEnd n bad s
  | .l2LockWrite src n v => Sys2Proof.Machine.execL2LockWrite src n v s
  | .lockLoad src n v => Sys2Proof.Machine.execLockLoad src n v s
  | .lockLoadEnd n => Sys2Proof.Machine.execLockLoadEnd n s
  | .registerWrite src off v => Sys2Proof.Machine.execRegisterWrite src off v s
  | .gcRset src v => Sys2Proof.Machine.execGcRset src v s
  | .gcRstatLoad src => Sys2Proof.Machine.execGcRstatLoad src s
  | .heapEnable src h v => Sys2Proof.Machine.execHeapEnable src h v s
  | .writeMark src h v => Sys2Proof.Machine.execWriteMark src h v s
  | .writeWeak src h v => Sys2Proof.Machine.execWriteWeak src h v s
  | .writeEvac src h v => Sys2Proof.Machine.execWriteEvac src h v s
  | .writeIdle src h v => Sys2Proof.Machine.execWriteIdle src h v s
  | .markActive h => Sys2Proof.Machine.execMarkActive h s
  | .rootsSet src h v => Sys2Proof.Machine.execRootsSet src h v s
  | .terminationRound h => Sys2Proof.Machine.execTerminationRound h s
  | .markEntry n e => Sys2Proof.Machine.execMarkEntry n e s
  | .cardScan n e => Sys2Proof.Machine.execCardScan n e s
  | .weakClear r => Sys2Proof.Machine.execWeakClear r s
  | .weakEnd h => Sys2Proof.Machine.execWeakEnd h s
  | .engineCopy n e => Sys2Proof.Machine.execEngineCopy n e s
  | .seSatbin src n w => Sys2Proof.Machine.execSeSatbin src n w s
  | .seSatbdone src n => Sys2Proof.Machine.execSeSatbdone src n s
  | .sePush src n v => Sys2Proof.Machine.execSePush src n v s
  | .seEvreq src n v => Sys2Proof.Machine.execSeEvreq src n v s
  | .seEvdone src n => Sys2Proof.Machine.execSeEvdone src n s
  | .seSplim src n v => Sys2Proof.Machine.execSeSplim src n v s
  | .gcHeapAlloc src h => Sys2Proof.Machine.execGcHeapAlloc src h s
  | .prtWrite src i word1 v => Sys2Proof.Machine.execPrtWrite src i word1 v s
  | .prtLock src => Sys2Proof.Machine.execPrtLock src s
  | .prtCtlLoad src => Sys2Proof.Machine.execPrtCtlLoad src s
  | .secR0tvbWrite src v => Sys2Proof.Machine.execSecR0tvbWrite src v s
  | .split src t => Sys2Proof.Machine.execSplit src t s
  | .join src t ksync => Sys2Proof.Machine.execJoin src t ksync s
  | .loose src t => Sys2Proof.Machine.execLoose src t s
  | .solo src t keepShadow => Sys2Proof.Machine.execSolo src t keepShadow s
  | .twinFence src t => Sys2Proof.Machine.execTwinFence src t s
  | .unfence src t => Sys2Proof.Machine.execUnfence src t s
  | .twinTransitionComplete t leaderOk shadowOk => Sys2Proof.Machine.execTwinTransitionComplete t leaderOk shadowOk s
  | .twinLogack src v => Sys2Proof.Machine.execTwinLogack src v s
  | .windowEnd t shadow => Sys2Proof.Machine.execWindowEnd t shadow s
  | .outputMatch t r => Sys2Proof.Machine.execOutputMatch t r s
  | .partnerWaitTimeout t shadow => Sys2Proof.Machine.execPartnerWaitTimeout t shadow s
  | .bistEnd t leaderOk shadowOk => Sys2Proof.Machine.execBistEnd t leaderOk shadowOk s
  | .comparatorTest t faulty => Sys2Proof.Machine.execComparatorTest t faulty s
  | .delayLineParity t second => Sys2Proof.Machine.execDelayLineParity t second s
  | .debugHalt k => Sys2Proof.Machine.execDebugHalt k s
  | .debugResume k => Sys2Proof.Machine.execDebugResume k s
  | .debugStep x => Sys2Proof.Machine.execDebugStep x s
  | .debugRegisterAccess x special n bank w => Sys2Proof.Machine.execDebugRegisterAccess x special n bank w s
  | .debugMemoryAccess pa w => Sys2Proof.Machine.execDebugMemoryAccess pa w s
  | .debugAttach => Sys2Proof.Machine.execDebugAttach s
  | .udpDatagram p bs => Sys2Proof.Machine.execUdpDatagram p bs s
  | .sqTailDoorbell c q tail es => Sys2Proof.Machine.execSqTailDoorbell c q tail es s
  | .cqHeadDoorbell c q head es => Sys2Proof.Machine.execCqHeadDoorbell c q head es s
  | .spWritePacket bs => Sys2Proof.Machine.execSpWritePacket bs s
  | .spReadReply => Sys2Proof.Machine.execSpReadReply s
  | .spReadStatus => Sys2Proof.Machine.execSpReadStatus s
  | .status via bs => Sys2Proof.Machine.execStatus via bs s
  | .streamInfo via bs => Sys2Proof.Machine.execStreamInfo via bs s
  | .telemRead via bs => Sys2Proof.Machine.execTelemRead via bs s
  | .attest via bs => Sys2Proof.Machine.execAttest via bs s
  | .attestSigned => Sys2Proof.Machine.execAttestSigned s
  | .attestRead via bs => Sys2Proof.Machine.execAttestRead via bs s
  | .streamOpen n => Sys2Proof.Machine.execStreamOpen n s
  | .streamClose n => Sys2Proof.Machine.execStreamClose n s
  | .blobPut n => Sys2Proof.Machine.execBlobPut n s
  | .keySet n => Sys2Proof.Machine.execKeySet n s
  | .modeReq n => Sys2Proof.Machine.execModeReq n s
  | .modeReqResetDelay => Sys2Proof.Machine.execModeReqResetDelay s
  | .dispatch n => Sys2Proof.Machine.execDispatch n s
  | .ldgNext src x => Sys2Proof.Machine.execLdgNext src x s
  | .ldgCommit src x v => Sys2Proof.Machine.execLdgCommit src x v s
  | .ldgEffput src x v => Sys2Proof.Machine.execLdgEffput src x v s
  | .ldgAck src x => Sys2Proof.Machine.execLdgAck src x s
  | .ldgImgbaseWrite src v => Sys2Proof.Machine.execLdgImgbaseWrite src v s
  | .deadline n => Sys2Proof.Machine.execDeadline n s
  | .effectComplete n gen idx => Sys2Proof.Machine.execEffectComplete n gen idx s
  | .journalDrain bad => Sys2Proof.Machine.execJournalDrain bad s
  | .ledgerRebuild => Sys2Proof.Machine.execLedgerRebuild s
  | .ledgerRebuildEnd => Sys2Proof.Machine.execLedgerRebuildEnd s
  | .mirrorWrite auth off ws => Sys2Proof.Machine.execMirrorWrite auth off ws s
  | .mirrorAck n => Sys2Proof.Machine.execMirrorAck n s
  | .mirrorTimeout n => Sys2Proof.Machine.execMirrorTimeout n s
  | .mirrorResyncDone => Sys2Proof.Machine.execMirrorResyncDone s
  | .restore src copy => Sys2Proof.Machine.execRestore src copy s
  | .driveReadComplete b second d => Sys2Proof.Machine.execDriveReadComplete b second d s
  | .zeroBlockFill b => Sys2Proof.Machine.execZeroBlockFill b s
  | .frameEviction => Sys2Proof.Machine.execFrameEviction s
  | .stoXqtail src v => Sys2Proof.Machine.execStoXqtail src v s
  | .read i m => Sys2Proof.Machine.execRead i m s
  | .fetch i m => Sys2Proof.Machine.execFetch i m s
  | .pin i m => Sys2Proof.Machine.execPin i m s
  | .unpin i m => Sys2Proof.Machine.execUnpin i m s
  | .seal i m => Sys2Proof.Machine.execSeal i m s
  | .sealComplete i => Sys2Proof.Machine.execSealComplete i s
  | .checkpoint => Sys2Proof.Machine.execCheckpoint s
  | .checkpointEnd => Sys2Proof.Machine.execCheckpointEnd s
  | .mount src v => Sys2Proof.Machine.execMount src v s
  | .mountEnd d0 d1 ck => Sys2Proof.Machine.execMountEnd d0 d1 ck s
  | .format src v => Sys2Proof.Machine.execFormat src v s
  | .formatEnd => Sys2Proof.Machine.execFormatEnd s
  | .resync src v => Sys2Proof.Machine.execResync src v s
  | .resyncEnd => Sys2Proof.Machine.execResyncEnd s
  | .stoDisable src v => Sys2Proof.Machine.execStoDisable src v s
  | .driveFault second => Sys2Proof.Machine.execDriveFault second s
  | .driveCommandTimeout second => Sys2Proof.Machine.execDriveCommandTimeout second s
  | .driveReady second => Sys2Proof.Machine.execDriveReady second s
  | .bootRom fuseBad flash blown a b => Sys2Proof.Machine.execBootRom fuseBad flash blown a b s
  | .identityDerivation ok => Sys2Proof.Machine.execIdentityDerivation ok s
  | .secMeasext src v => Sys2Proof.Machine.execSecMeasext src v s
  | .install src v => Sys2Proof.Machine.execInstall src v s
  | .erase src v => Sys2Proof.Machine.execErase src v s
  | .revokeSlot src v => Sys2Proof.Machine.execRevokeSlot src v s
  | .rollback src v => Sys2Proof.Machine.execRollback src v s
  | .debuglock src v => Sys2Proof.Machine.execDebuglock src v s
  | .life src v => Sys2Proof.Machine.execLife src v s
  | .progkey src v => Sys2Proof.Machine.execProgkey src v s
  | .fuseOperationComplete ok => Sys2Proof.Machine.execFuseOperationComplete ok s
  | .keccakTail sentinel tail => Sys2Proof.Machine.execKeccakTail sentinel tail s
  | .shake256 sentinel e => Sys2Proof.Machine.execShake256 sentinel e s
  | .kmac256 sentinel e => Sys2Proof.Machine.execKmac256 sentinel e s
  | .verifySlhDsaShake256s sentinel e => Sys2Proof.Machine.execVerifySlhDsaShake256s sentinel e s
  | .verifySlhDsaShake256f sentinel e => Sys2Proof.Machine.execVerifySlhDsaShake256f sentinel e s
  | .powerOn rstLow => Sys2Proof.Machine.execPowerOn rstLow s
  | .rstNLow => Sys2Proof.Machine.execRstNLow s
  | .rstNRise dnum dcfg dspd => Sys2Proof.Machine.execRstNRise dnum dcfg dspd s
  | .internalResetEnd => Sys2Proof.Machine.execInternalResetEnd s
  | .refclkLoss => Sys2Proof.Machine.execRefclkLoss s
  | .railOutOfTolerance => Sys2Proof.Machine.execRailOutOfTolerance s
  | .ddrTrainingEnd => Sys2Proof.Machine.execDdrTrainingEnd s
  | .run src => Sys2Proof.Machine.execRun src s
  | .safehold src => Sys2Proof.Machine.execSafehold src s
  | .service src => Sys2Proof.Machine.execService src s
  | .quiet src => Sys2Proof.Machine.execQuiet src s
  | .reset src => Sys2Proof.Machine.execReset src s
  | .quietDrainDone => Sys2Proof.Machine.execQuietDrainDone s
  | .quietDrainTimeout => Sys2Proof.Machine.execQuietDrainTimeout s
  | .quietGated => Sys2Proof.Machine.execQuietGated s
  | .quietWake => Sys2Proof.Machine.execQuietWake s
  | .quietWakeDone => Sys2Proof.Machine.execQuietWakeDone s
  | .feed src period => Sys2Proof.Machine.execFeed src period s
  | .watchPeriodWrite src period => Sys2Proof.Machine.execWatchPeriodWrite src period s
  | .watchExpiry => Sys2Proof.Machine.execWatchExpiry s
  | .sysStart src x => Sys2Proof.Machine.execSysStart src x s
  | .sysTimeWrite src v => Sys2Proof.Machine.execSysTimeWrite src v s
  | .dvfsPointWrite src n v => Sys2Proof.Machine.execDvfsPointWrite src n v s
  | .dvfsChangeEnd n => Sys2Proof.Machine.execDvfsChangeEnd n s
  | .thermalDerate n tj => Sys2Proof.Machine.execThermalDerate n tj s
  | .derateClear n tj => Sys2Proof.Machine.execDerateClear n tj s
  | .temp n tj => Sys2Proof.Machine.execTemp n tj s
  | .overtemperatureReset n tj => Sys2Proof.Machine.execOvertemperatureReset n tj s
  | .clusterPllLoss n => Sys2Proof.Machine.execClusterPllLoss n s
  | .pllRelock n => Sys2Proof.Machine.execPllRelock n s
  | .evclk => Sys2Proof.Machine.execEvclk s
  | .pllCalibration out => Sys2Proof.Machine.execPllCalibration out s
  | .pfwNAssert => Sys2Proof.Machine.execPfwNAssert s
  | .pfwNRelease => Sys2Proof.Machine.execPfwNRelease s
  | .flushComplete => Sys2Proof.Machine.execFlushComplete s
  | .resume => Sys2Proof.Machine.execResume s
  | .cutOff => Sys2Proof.Machine.execCutOff s
  | .testgo src v => Sys2Proof.Machine.execTestgo src v s
  | .certTestDue => Sys2Proof.Machine.execCertTestDue s
  | .certTestEnd eout v2 => Sys2Proof.Machine.execCertTestEnd eout v2 s
  | .certTestRetry => Sys2Proof.Machine.execCertTestRetry s
  | .patrolRead e => Sys2Proof.Machine.execPatrolRead e s
  | .l2Scrub n e => Sys2Proof.Machine.execL2Scrub n e s
  | .keepCompare ea eb => Sys2Proof.Machine.execKeepCompare ea eb s
  | .keepRecheck => Sys2Proof.Machine.execKeepRecheck s
  | .jnvWearRotation block => Sys2Proof.Machine.execJnvWearRotation block s
  | .zqCalibration ch => Sys2Proof.Machine.execZqCalibration ch s
  | .dqsRetraining ch drifted => Sys2Proof.Machine.execDqsRetraining ch drifted s
  | .mr4Read ch rate => Sys2Proof.Machine.execMr4Read ch rate s
  | .ethFrameReceived p bs ts full => Sys2Proof.Machine.execEthFrameReceived p bs ts full s
  | .ethTxTail src p v => Sys2Proof.Machine.execEthTxTail src p v s
  | .ethTxComplete p q e => Sys2Proof.Machine.execEthTxComplete p q e s
  | .ethGbaseWrite src p v => Sys2Proof.Machine.execEthGbaseWrite src p v s
  | .gateListSwitch p => Sys2Proof.Machine.execGateListSwitch p s
  | .gateEntryExpiry p => Sys2Proof.Machine.execGateEntryExpiry p s
  | .pcieInboundRequest c pa write data r => Sys2Proof.Machine.execPcieInboundRequest c pa write data r s
  | .canFrameReceived h word esi rtr data => Sys2Proof.Machine.execCanFrameReceived h word esi rtr data s
  | .canFrameSent h => Sys2Proof.Machine.execCanFrameSent h s
  | .canBusOff h => Sys2Proof.Machine.execCanBusOff h s
  | .canBusOffRecovery h => Sys2Proof.Machine.execCanBusOffRecovery h s
  | .uartByteReceived u b perr ferr brk => Sys2Proof.Machine.execUartByteReceived u b perr ferr brk s
  | .uartDataWrite src u v => Sys2Proof.Machine.execUartDataWrite src u v s
  | .uartDataRead src u => Sys2Proof.Machine.execUartDataRead src u s
  | .uartTxEmpty u => Sys2Proof.Machine.execUartTxEmpty u s
  | .i2cGo src i v => Sys2Proof.Machine.execI2cGo src i v s
  | .i2cTransferDone i nack arb count data => Sys2Proof.Machine.execI2cTransferDone i nack arb count data s
  | .i2cTargetTransaction i write data count => Sys2Proof.Machine.execI2cTargetTransaction i write data count s
  | .qspiGo src v => Sys2Proof.Machine.execQspiGo src v s
  | .qspiDone data => Sys2Proof.Machine.execQspiDone data s
  | .evtEdge i level => Sys2Proof.Machine.execEvtEdge i level s
  | .sourceAssert i => Sys2Proof.Machine.execSourceAssert i s
  | .pwmPeriodBoundary n => Sys2Proof.Machine.execPwmPeriodBoundary n s
  | .captureEdge n rising => Sys2Proof.Machine.execCaptureEdge n rising s
  | .countEdge n rising => Sys2Proof.Machine.execCountEdge n rising s
  | .stepPulseEnd n => Sys2Proof.Machine.execStepPulseEnd n s
  | .plsCntWrite src n v => Sys2Proof.Machine.execPlsCntWrite src n v s
  | .panelFrame c => Sys2Proof.Machine.execPanelFrame c s
  | .frameRecordAck => Sys2Proof.Machine.execFrameRecordAck s
  | .stuckRelease c => Sys2Proof.Machine.execStuckRelease c s
  | .breset src v => Sys2Proof.Machine.execBreset src v s
  | .panelEnable src v => Sys2Proof.Machine.execPanelEnable src v s
  | .panelDisable src v => Sys2Proof.Machine.execPanelDisable src v s
  | .panelPllLoss => Sys2Proof.Machine.execPanelPllLoss s
  | .tempClear n tj => Sys2Proof.Machine.execTempClear n tj s
  | .panelPllRelock => Sys2Proof.Machine.execPanelPllRelock s
  | .canErrorPassive h tec rec_ => Sys2Proof.Machine.execCanErrorPassive h tec rec_ s
  | .pcieLinkEvent c => Sys2Proof.Machine.execPcieLinkEvent c s
  | .vholdSample v => Sys2Proof.Machine.execVholdSample v s
  | .jnvMoveSwitch => Sys2Proof.Machine.execJnvMoveSwitch s
  | .retrainingHoldEnd ch => Sys2Proof.Machine.execRetrainingHoldEnd ch s
  | .uartByteSent u => Sys2Proof.Machine.execUartByteSent u s
  | .uartCtsChange u level => Sys2Proof.Machine.execUartCtsChange u level s

end Sys2Proof.Machine
end

