-- ==== Sys2Proof/Safety.lean ====
section
/-!
DEFINITION. What claims about the block are stated in: the canonical form of memory, when a command leaves nothing to be
carried out afterwards, when an instruction goes through undisturbed, and what such an instruction leaves alone.
-/
namespace Sys2Proof.Machine

/-- The canonical form of memory: addresses rise strictly and no listed byte equals what an unlisted one reads as. -/
def Memory.wf (m : List Host.Cell) : Bool := Tbl.wf (fun _ => 0#8) m

/-- Memory and the tags of its words are both in canonical form. -/
def State.memForm (s : State) : Prop := Memory.wf s.mem = true ∧ Tbl.wf (fun _ => Tag.raw) s.tags = true

/-- Nothing waits to be carried out: no output on its way, no submission at an engine's intake, no command to give back to
the Ledger, no wake request. -/
def State.calm (s : State) : Bool :=
  s.outbox.isEmpty && s.clusters.all (fun e => e.2.intake.isEmpty) && s.ldg.restart.isEmpty && !s.sys.wakeReq

/-- A fill of `line` drives no line out of the L2 of core k's cluster, and no provisional line of its twin out of its L1D. -/
def State.easyFill (s : State) (k line : Nat) : Bool :=
  (s.l2Victim (clusterOfCore k) line).isNone && (match s.l1dVictim k line with
    | some l => !(s.twin (k / 2)).provisional l
    | none => true)

/-- The fetch at pc by context x goes through: the address translates, memory answers it, its line is not poisoned, a miss finds
its register and can be sent, and the L1I takes nothing, since it holds the line already or the fetch goes past it. -/
def State.fetches (s : State) (x : Nat) (pc : Pay) : Bool :=
  let k := s.coreOf x
  let n := clusterOfCore k
  match s.translate x (s.ctx x).ring .fetch pc with
  | .error _ => false
  | .ok tr =>
    let line := s.key k tr.pa / 64
    let hit := (Tbl.look (s.core k).l1i line).isSome
    (match s.region tr.pa with
      | .dram | .staging | .jnv | .rom => true
      | .keep => keepSource k
      | _ => false)
    && !s.poisoned line && !(s.l2Sweeping n && tr.cache)
    && (hit || (!s.loosened x tr.pa && (s.missOf k tr.pa).isNone && s.missRoom k true && s.canSend k tr.pa .fetch 64))
    && (!tr.cache || (if hit then decide (s.l1iFill k line = s)
      else s.easyFill k line && decide (((s.confirmLine line).cohRead (some n) line).l1iFill k line = s)))

/-- An instruction of `size` bytes issued as `at_` says goes through undisturbed: the context runs with no load pending, no
exception to take and no loop active, the fetch goes through, nothing disturbs it, and nothing waits to be carried out. -/
def State.ready (s : State) (at_ : At) (size : Nat) : Bool :=
  let x := at_.x.toNat
  let c := s.ctx x
  s.calm && s.powered x && decide (c.run = .run) && c.slot.isNone && c.grants.isEmpty && c.obs.isEmpty && !c.inflight && c.loads.isEmpty
    && !c.stepping && (s.async x).isNone && c.innermost.isNone && decide (at_.met = .clean) && decide (at_.fetch = .clean) && !at_.regPar
    && s.fetches x c.pc && !(decide (size = 8) && bit c.pc 2) && !at_.pushPar && !at_.vecBad

/-- The context an instruction row is issued at. -/
abbrev ctxOf (at_ : At) : Nat := at_.x.toNat

/-- The register a field names at context x. -/
def State.gr (s : State) (x : Nat) (r : BitVec 5) : Word := (s.ctx x).rd r

/-- What an instruction at context x may change beyond its own effect: the context's registers and special registers, and
its twin's open window. All else of the machine is as before. -/
structure OnlyCtx (s : State) (x : Nat) (t : State) : Prop where
  /-- no field of the machine but contexts and twins differs -/
  rest : t = { s with ctxs := t.ctxs, twins := t.twins }
  /-- other contexts are as before -/
  others : ∀ y, y ≠ x → t.ctx y = s.ctx y
  /-- the context itself differs in registers and special registers only; it is no longer fresh from a return -/
  own : t.ctx x = { s.ctx x with regs := (t.ctx x).regs, sr := (t.ctx x).sr, fresh := false }
  /-- other twins are as before -/
  twins : ∀ u, u ≠ twinOf x → t.twin u = s.twin u
  /-- the twin differs in its open window's signature and group count only -/
  twin : t.twin (twinOf x) = { s.twin (twinOf x) with misr := (t.twin (twinOf x)).misr, groups := (t.twin (twinOf x)).groups }

/-- An instruction of `size` bytes at context x has written w to the register that field d names (nothing, when d is G0)
and gone on in sequence; every other register and special register of the context, and all else of the machine, is as
before (R98, R166). -/
structure WroteReg (s : State) (x size : Nat) (d : BitVec 5) (w : Word) (t : State) : Prop extends OnlyCtx s x t where
  dest : d ≠ 0 → t.gr x d = w
  zero : t.gr x 0 = Word.nil
  regs : ∀ k, k ≠ regKey (s.ctx x).bank d → (t.ctx x).rdKey k = (s.ctx x).rdKey k
  pc : (t.ctx x).pc = (s.ctx x).pc + p64 size
  spec : ∀ n, n ≠ Sr.pc → (t.ctx x).sp n = (s.ctx x).sp n

/-- An instruction at context x has set PC to `pc` and changed no other register or special register, nor anything else
of the machine. -/
structure WentTo (s : State) (x : Nat) (pc : Pay) (t : State) : Prop extends OnlyCtx s x t where
  regs : ∀ k, (t.ctx x).rdKey k = (s.ctx x).rdKey k
  pc : (t.ctx x).pc = pc
  spec : ∀ n, n ≠ Sr.pc → (t.ctx x).sp n = (s.ctx x).sp n

/-! ### Results of the register instructions (R139 to R151) -/

/-- A sum, product, quotient or remainder: FIX by `fi` when both operands are FIX and the result is in range, else FLO by
`ff` (R139, R140). No result stands for a Tag Trap. -/
def numTwo (fi : Int → Int → Option Int) (ff : FloVal → FloVal → Pay) (a b : Word) : Option Word :=
  if !(isNum a.tag && isNum b.tag) then none
  else if a.tag = Tag.fix ∧ b.tag = Tag.fix then
    (fi (fixVal a.pay) (fixVal b.pay)).bind (fun v => if inFix v then some (Word.fix (fixPay v)) else none)
  else some (Word.flo (ff (floOf a) (floOf b)))

/-- The FIX quotient and remainder exist for a divisor other than 0 (R140). -/
def fixDiv (a b : Int) : Option Int := if b = 0 then none else some (Int.tdiv a b)
def fixRem (a b : Int) : Option Int := if b = 0 then none else some (Int.tmod a b)

/-- A comparison of two numbers as exact values (R143). -/
def cmpTwo (f : Cmp → Word) (a b : Word) : Option Word :=
  if isNum a.tag && isNum b.tag then some (f (cmpNum (numOf a) (numOf b))) else none

/-- A bitwise operation: RAW when either operand is RAW (R150). -/
def logicTwo (f : Pay → Pay → Pay) (a b : Word) : Option Word :=
  if isRawFix a.tag && isRawFix b.tag then some ⟨if a.tag = Tag.raw ∨ b.tag = Tag.raw then Tag.raw else Tag.fix, f a.pay b.pay⟩
  else none

/-- A shift or rotate by b[5:0], with the tag of a (R150). -/
def shiftTwo (f : Pay → Nat → Pay) (a b : Word) : Option Word :=
  if isRawFix a.tag && isRawFix b.tag then some ⟨a.tag, f a.pay (fld b.pay 5 0)⟩ else none

/-- A word with a new tag, at a ring that may make it (R151). -/
def newTag (ring : Nat) (a : Word) (t : BitVec 8) : Option Word :=
  if isReservedTag t ∨ (isClass10 t ∧ 2 ≤ ring) ∨ (t.toNat / 64 = 1 ∧ ring = 3) then none else some ⟨t, a.pay⟩

/-- Whether a tag matches VAL under MASK, both in one field: MASK [15:8], VAL [7:0] (R150). -/
def tagTest (a : Word) (m : Pay) : Word := Word.ofBool (decide (a.tag.toNat &&& fld m 15 8 = fld m 7 0))

/-- The instructions of two source registers and one destination, with the result of each for its operands; none where it
takes a Tag Trap or another exception instead. -/
def threeReg (ring : Nat) : Instr → Option (At × RF × (Word → Word → Option Word))
  | .add at_ f => some (at_, f, numTwo (fun a b => some (a + b)) floAdd)
  | .sub at_ f => some (at_, f, numTwo (fun a b => some (a - b)) (fun a b => floAdd a b.neg))
  | .mul at_ f => some (at_, f, numTwo (fun a b => some (a * b)) floMul)
  | .div at_ f => some (at_, f, numTwo fixDiv floDiv)
  | .rem at_ f => some (at_, f, numTwo fixRem floRem)
  | .cmp at_ f => some (at_, f, cmpTwo (fun c => match c with
      | .lt => Word.fix (-1)
      | .eq => Word.fix 0
      | .gt => Word.fix 1
      | .un => Word.fix 2))
  | .ceq at_ f => some (at_, f, cmpTwo (fun c => Word.ofBool (decide (c = .eq))))
  | .clt at_ f => some (at_, f, cmpTwo (fun c => Word.ofBool (decide (c = .lt))))
  | .cle at_ f => some (at_, f, cmpTwo (fun c => Word.ofBool (decide (c = .lt ∨ c = .eq))))
  | .eq at_ f => some (at_, f, fun a b => if isClass10 a.tag || isClass10 b.tag then none else some (Word.ofBool (decide (a = b))))
  | .and at_ f => some (at_, f, logicTwo (fun a b => a &&& b))
  | .or at_ f => some (at_, f, logicTwo (fun a b => a ||| b))
  | .xor at_ f => some (at_, f, logicTwo (fun a b => a ^^^ b))
  | .andn at_ f => some (at_, f, logicTwo (fun a b => a &&& ~~~b))
  | .shl at_ f => some (at_, f, shiftTwo (fun a n => a <<< n))
  | .shr at_ f => some (at_, f, shiftTwo (fun a n => a >>> n))
  | .sar at_ f => some (at_, f, shiftTwo (fun a n => a.sshiftRight n))
  | .rot at_ f => some (at_, f, shiftTwo (fun a n => a.rotateLeft n))
  | .ttst at_ f => some (at_, f, fun a b => if b.tag = Tag.fix ∧ b.pay.toNat ≤ 0xFFFF then some (tagTest a b.pay) else none)
  | .rtag at_ f => some (at_, f, fun a b =>
      if b.tag = Tag.fix ∧ b.pay.toNat ≤ 0xFF then newTag ring a (BitVec.ofNat 8 b.pay.toNat) else none)
  | _ => none

/-- A number changed in sign, or its magnitude (R141): FIX in range, else FLO by its sign bit, every NaN becoming the
canonical one. -/
def numOne (fi : Int → Int) (ff : Pay → Pay) (a : Word) : Option Word :=
  if !isNum a.tag then none
  else if a.tag = Tag.fix then (if inFix (fi (fixVal a.pay)) then some (Word.fix (fixPay (fi (fixVal a.pay)))) else none)
  else some (Word.flo (if floVal a.pay = .nan then floNaN else ff a.pay))

/-- A count of bits (R150). -/
def countOne (f : Pay → Nat) (a : Word) : Option Word := if isRawFix a.tag then some (Word.fixN (f a.pay)) else none

/-- The instructions of one source register and one destination, with the result of each. -/
def twoReg : Instr → Option (At × RF × (Word → Option Word))
  | .neg at_ f => some (at_, f, numOne (fun a => -a) (fun p => p ^^^ 0x8000000000000000#64))
  | .abs at_ f => some (at_, f, numOne (fun a => (a.natAbs : Int)) (fun p => p &&& 0x7FFFFFFFFFFFFFFF#64))
  | .not at_ f => some (at_, f, fun a => if isRawFix a.tag then some ⟨a.tag, ~~~a.pay⟩ else none)
  | .popc at_ f => some (at_, f, countOne popCount)
  | .clz at_ f => some (at_, f, countOne leadZeros)
  | .ctz at_ f => some (at_, f, countOne trailZeros)
  | .tag at_ f => some (at_, f, fun a => some (Word.fixN a.tag.toNat))
  | .tcls at_ f => some (at_, f, fun a => some (Word.fixN (a.tag.toNat / 64)))
  | .mov at_ f => some (at_, f, fun a => if isReservedTag a.tag then none else some a)
  | .cvtf at_ f => some (at_, f, fun a =>
      if a.tag = Tag.fix then some (Word.flo (floOfFix a.pay)) else if a.tag = Tag.flo then some a else none)
  | .cvti at_ f => some (at_, f, fun a =>
      if a.tag = Tag.fix then some a
      else if a.tag = Tag.flo then
        (match floVal a.pay with
        | .fin n m => if inFix (truncFlo n m) then some (Word.fix (fixPay (truncFlo n m))) else none
        | _ => none)
      else none)
  | .ftor at_ f => some (at_, f, fun a => if a.tag = Tag.flo then some (Word.raw a.pay) else none)
  | .rtof at_ f => some (at_, f, fun a => if a.tag = Tag.raw then some (Word.flo a.pay) else none)
  | _ => none

/-- The kind of shift that SHI's immediate names in [7:6] (R150). -/
def shiftKind (p : Pay) (k n : Nat) : Pay :=
  match k with
  | 0 => p <<< n
  | 1 => p >>> n
  | 2 => p.sshiftRight n
  | _ => p.rotateLeft n

/-- The result of an instruction with an immediate: its major, and the immediate sign-extended (`se`) and zero-extended
(`ze`) (R101, R139, R143, R150). -/
def immResult (ring : Nat) (major : Nat) (se ze : Pay) (a : Word) : Option Word :=
  match major with
  | 0x07 => numTwo (fun x y => some (x + y)) floAdd a (Word.fix se)
  | 0x08 => numTwo (fun x y => some (x * y)) floMul a (Word.fix se)
  | 0x09 => cmpTwo (fun c => Word.ofBool (decide (c = .eq))) a (Word.fix se)
  | 0x0A => cmpTwo (fun c => Word.ofBool (decide (c = .lt))) a (Word.fix se)
  | 0x0B => if isRawFix a.tag then some ⟨a.tag, a.pay &&& ze⟩ else none
  | 0x0C => if isRawFix a.tag then some ⟨a.tag, a.pay ||| ze⟩ else none
  | 0x0D => if isRawFix a.tag then some ⟨a.tag, a.pay ^^^ ze⟩ else none
  | 0x0E => if ze.toNat < 256 ∧ isRawFix a.tag = true then some ⟨a.tag, shiftKind a.pay (fld ze 7 6) (fld ze 5 0)⟩ else none
  | 0x0F => some (Word.fix se)
  | 0x2E => if ze.toNat < 256 then newTag ring a (BitVec.ofNat 8 ze.toNat) else none
  | 0x2F => some (tagTest a ze)
  | 0x3C => if chrOk ze then some ⟨Tag.chr, ze⟩ else none
  | 0x3D => some (Word.raw ze)
  | _ => none

/-- The instructions with a 16-bit immediate and one destination, with their majors (R105). -/
def immReg : Instr → Option (At × IF × Nat)
  | .addi at_ f => some (at_, f, 0x07)
  | .muli at_ f => some (at_, f, 0x08)
  | .ceqi at_ f => some (at_, f, 0x09)
  | .clti at_ f => some (at_, f, 0x0A)
  | .andi at_ f => some (at_, f, 0x0B)
  | .ori at_ f => some (at_, f, 0x0C)
  | .xori at_ f => some (at_, f, 0x0D)
  | .shi at_ f => some (at_, f, 0x0E)
  | .ldi at_ f => some (at_, f, 0x0F)
  | .rtagi at_ f => some (at_, f, 0x2E)
  | .ttsti at_ f => some (at_, f, 0x2F)
  | .ldc at_ f => some (at_, f, 0x3C)
  | .ldr at_ f => some (at_, f, 0x3D)
  | _ => none

/-- Majors whose A field is reserved: LDI, LDC and LDR (R100). -/
def noA (major : Nat) : Bool := major = 0x0F || major = 0x3C || major = 0x3D

/-! ### Loads and stores (R157 to R163) -/

/-- The address that base `a` and displacement give at context x, where the machine stays as it is: a pointer in form, RAW
below ring 3, or a PREF that resolves at once (R62, R65, R157, R158, R581). -/
def State.ea (s : State) (x : Nat) (a : Word) (disp : Pay) (width : Nat) (store : Bool) : Option Pay :=
  if a.tag = Tag.pref then
    let off : Int := (8 * prefWoff a.pay : Nat) + disp.toInt
    if fld a.pay 63 48 ≠ 0 ∨ off < 0 ∨ off > 65536 - (width : Int) ∨ off.toNat % width ≠ 0 then none
    else match s.resolvePref x a.pay store false with
      | .va v s1 => if s1 = s then some (v + disp) else none
      | _ => none
  else if (isBasePtr a.tag ∧ ptrForm a.pay = none) ∨ (a.tag = Tag.raw ∧ (s.ctx x).ring ≠ 3) then
    if fld (a.pay + disp) 63 48 ≠ 0 ∨ (a.pay + disp).toNat % width ≠ 0 then none else some (a.pay + disp)
  else none

/-- The address that base `a` gives, where no heap enabled at the core holds the base's object or the address (R303). -/
def State.eaPlain (s : State) (x : Nat) (a : Word) (disp : Pay) (width : Nat) (store : Bool) : Option Pay :=
  match s.ea x a disp width store with
  | some va => if s.heapPtr (s.hen x) a = none ∧ s.heapAt (s.hen x) va.toNat = none then some va else none
  | none => none

/-- The physical address of a plain access at `va`, when it is permitted (R371). -/
def State.trOf (s : State) (x : Nat) (k : AccKind) (va : Pay) : Option Tr := (s.translate x (s.ctx x).ring k va).toOption

/-- A load of context x through `tr` reads memory at once and finds the caches as it leaves them: no posted store of its own and
no other twin's window is in its way, its line is not poisoned, no sweep runs, a request it sends finds room, and in tight mode
it is a cached access to a line that no held output touches (R394 to R397, R404, R417, R420, R491). -/
def State.reads (s : State) (x : Nat) (tr : Tr) : Bool :=
  let k := s.coreOf x
  let key := s.key k tr.pa
  let line := key / 64
  let n := clusterOfCore k
  let hit := (s.l1dAt k line).isSome
  let far := s.uncached k key tr.cache
  !s.isLoose x && !bit ((s.core k).sp Sr.cctl) 15 && !(s.l2Sweeping n && tr.cache)
    && decide (s.forwarded x tr.pa (s.word key) = s.word key) && !s.poisoned line && (!s.isTight x || !far)
    && s.twins.all (fun e => decide (e.1 = twinOf x) || !e.2.provisional line)
    && (if s.bypassL2 k key tr.cache then decide (s.cohRead none line = s)
      else hit || ((s.evicting line).isNone && s.easyFill k line && decide (s.cacheRead k key = s)))
    && (match s.region tr.pa with
      | .keep => keepSource k
      | .dram | .staging | .jnv | .rom =>
        (if far then s.canSend k tr.pa .load 8 && !s.behindStores k tr.pa
          else hit || ((s.missOf k tr.pa).isNone && s.missRoom k false && s.canSend k tr.pa .line 64))
        && (!s.isTight x || (s.twin (twinOf x)).hold.all (fun o => match o with
          | .store _ _ p _ _ _ | .heal _ _ p _ _ _ => decide (p / 64 ≠ tr.pa / 64)
          | .sev _ _ => true))
      | _ => false)

/-- The memory word that a plain load of context x at `va` meets. -/
def State.metAt (s : State) (x : Nat) (va : Pay) : Option Word :=
  match s.trOf x .load va with
  | some tr => if s.reads x tr then some (s.word (s.key (s.coreOf x) tr.pa)) else none
  | none => none

/-- The address and the word of a plain load through base `a`. -/
def State.metWord (s : State) (x : Nat) (a : Word) (disp : Pay) (width : Nat) : Option (Pay × Word) :=
  match s.eaPlain x a disp width false with
  | some va => (s.metAt x va).map (fun w => (va, w))
  | none => none

/-- A word that a load delivers as it is: no reserved tag, no TRAP word, no pointer into an enabled heap (R58, R76,
R305). -/
def State.delivers (s : State) (x : Nat) (w : Word) : Bool :=
  !isReservedTag w.tag && decide (w.tag ≠ Tag.trap) && (s.heapPtr (s.hen x) w).isNone

/-- The header of the object that p names, where it fits (R70, R71, R156). -/
def State.headerOf (s : State) (x : Nat) (p : Word) (fmts : List Nat) : Option Pay :=
  if ptrForm p.pay ≠ none ∨ s.heapPtr (s.hen x) p ≠ none ∨ s.heapAt (s.hen x) p.pay.toNat ≠ none then none
  else match s.metAt x p.pay with
    | some w => if w.tag = Tag.hdr ∧ hdrOk w.pay = true ∧ hdrOtag w.pay = p.tag ∧ fmts.contains (hdrFmt w.pay) = true then some w.pay else none
    | none => none

/-- A load instruction as it delivers: where it is issued, its destination, and the word that becomes pending (R126,
R152, R155, R160). -/
structure LoadRow where
  at_ : At
  d : BitVec 5
  w : Word

/-- The bytes of a partial load (R160). -/
def State.partWord (s : State) (at_ : At) (f : IF) (width : Nat) : Option LoadRow :=
  match s.metWord (ctxOf at_) (s.gr (ctxOf at_) f.a) (sext16 f.imm) width with
  | some (va, w) => if w.tag = Tag.trap then none else some ⟨at_, f.d, Word.fix (getBytes w.pay (va.toNat % 8) width)⟩
  | none => none

/-- The half of a pair (R152). -/
def State.pairWord (s : State) (at_ : At) (f : RF) (off : Pay) : Option LoadRow :=
  let a := s.gr (ctxOf at_) f.a
  if f.rsv ≠ 0 ∨ f.b ≠ 0 then none
  else if a = Word.nil then some ⟨at_, f.d, Word.nil⟩
  else if a.tag ≠ Tag.cons then none
  else match s.metWord (ctxOf at_) a off 8 with
    | some (_, w) => if s.delivers (ctxOf at_) w then some ⟨at_, f.d, w⟩ else none
    | none => none

/-- The word that a walk load meets at a physical address (R376, R377). -/
def State.walkWord (s : State) (x : Nat) (tr : Tr) : Option Word :=
  if s.prtOk (s.ctx x).ring tr.pa && !(s.prt tr.pa).se && s.reads x tr then
    (let w := s.word (s.key (s.coreOf x) tr.pa); if isReservedTag w.tag then none else some w)
  else none

/-- The load instructions with what each delivers; none where it takes an exception or waits instead. -/
def State.loadRow (s : State) : Instr → Option LoadRow
  | .ld at_ f =>
    match s.metWord (ctxOf at_) (s.gr (ctxOf at_) f.a) (sext16 f.imm) 8 with
    | some (_, w) => if s.delivers (ctxOf at_) w then some ⟨at_, f.d, w⟩ else none
    | none => none
  | .ldt at_ f =>
    match s.metWord (ctxOf at_) (s.gr (ctxOf at_) f.a) (sext16 f.imm) 8 with
    | some (_, w) => some ⟨at_, f.d, Word.fixN w.tag.toNat⟩
    | none => none
  | .ldx at_ f =>
    match s.metWord (ctxOf at_) (s.gr (ctxOf at_) f.a) (sext16 f.imm) 8 with
    | some (_, w) => if (s.ctx (ctxOf at_)).ring ≤ 1 ∧ isReservedTag w.tag = false then some ⟨at_, f.d, w⟩ else none
    | none => none
  | .l8 at_ f => s.partWord at_ f 1
  | .l16 at_ f => s.partWord at_ f 2
  | .l32 at_ f => s.partWord at_ f 4
  | .car at_ f => s.pairWord at_ f 0
  | .cdr at_ f => s.pairWord at_ f 8
  | .vref at_ f =>
    let x := ctxOf at_
    let p := s.gr x f.a
    let i := s.gr x f.b
    if f.rsv ≠ 0 ∨ vrefTags p.tag = false ∨ i.tag ≠ Tag.fix then none
    else match s.headerOf x p [fmtScan] with
      | some h => if hdrLen h ≤ i.pay.toNat then none
        else match s.metAt x (p.pay + p64 (8 * (i.pay.toNat + 1))) with
          | some w => if s.delivers x w then some ⟨at_, f.d, w⟩ else none
          | none => none
      | none => none
  | .vlen at_ f =>
    let p := s.gr (ctxOf at_) f.a
    if f.rsv ≠ 0 ∨ f.b ≠ 0 ∨ vlenTags p.tag = false then none
    else match s.headerOf (ctxOf at_) p [fmtScan, fmtBytes, fmtCode] with
      | some h => some ⟨at_, f.d, Word.fixN (if hdrFmt h = fmtBytes then hdrBytes h else hdrLen h)⟩
      | none => none
  | .bref at_ f =>
    let x := ctxOf at_
    let p := s.gr x f.a
    let i := s.gr x f.b
    if f.rsv ≠ 0 ∨ brefTags p.tag = false ∨ i.tag ≠ Tag.fix then none
    else match s.headerOf x p [fmtBytes] with
      | some h => if hdrBytes h ≤ i.pay.toNat then none
        else match s.metAt x (p.pay + 8 + i.pay) with
          | some w => if w.tag = Tag.trap then none else some ⟨at_, f.d, Word.fix (getBytes w.pay ((p.pay + 8 + i.pay).toNat % 8) 1)⟩
          | none => none
      | none => none
  | .unwk at_ f =>
    let x := ctxOf at_
    let a := s.gr x f.a
    if f.rsv ≠ 0 ∨ f.b ≠ 0 then none
    else if a = Word.nil then some ⟨at_, f.d, Word.nil⟩
    else if a.tag ≠ Tag.weak ∨ ptrForm a.pay ≠ none ∨ s.heapPtr (s.hen x) a ≠ none then none
    else match s.metAt x a.pay with
      | some w =>
        if w.tag = Tag.hdr ∧ hdrOk w.pay = false then none
        else some ⟨at_, f.d, if w.tag = Tag.hdr then ⟨hdrOtag w.pay, a.pay⟩ else ⟨Tag.cons, a.pay⟩⟩
      | none => none
  | .ldw at_ f =>
    let x := ctxOf at_
    if 1 < (s.ctx x).ring then none
    else match s.ea x (s.gr x f.a) (sext16 f.imm) 8 false with
      | some va => (s.walkWord x ⟨va.toNat % 2 ^ 48, !(s.prt (va.toNat % 2 ^ 48)).se⟩).map (fun w => ⟨at_, f.d, w⟩)
      | none => none
  | .ldwt at_ f =>
    let x := ctxOf at_
    if 1 < (s.ctx x).ring then none
    else match s.ea x (s.gr x f.a) (sext16 f.imm) 8 false with
      | some va =>
        let core := s.core (s.coreOf x)
        (match core.tlbFind va.toNat (fld ((s.ctx x).sp Sr.asid) 11 0) with
        | some i =>
          let e := core.ent i
          if e.denies .load (s.ctx x).ring (s.ctx x).sgo = none then (s.walkWord x ⟨e.phys va.toNat, e.c⟩).map (fun w => ⟨at_, f.d, w⟩)
          else none
        | none => none)
      | none => none
  | _ => none

/-- A load of `size` bytes at context x has made w pending for register d, with two instructions still to retire, and gone
on in sequence; no register, no memory and nothing else of the machine has changed (R126, R127). -/
structure Loaded (s : State) (x size : Nat) (d : BitVec 5) (w : Word) (t : State) : Prop where
  rest : t = { s with ctxs := t.ctxs, twins := t.twins }
  others : ∀ y, y ≠ x → t.ctx y = s.ctx y
  own : t.ctx x = { s.ctx x with sr := (t.ctx x).sr, loads := [⟨2, d, (s.ctx x).bank, w⟩], fresh := false }
  pc : (t.ctx x).pc = (s.ctx x).pc + p64 size
  spec : ∀ n, n ≠ Sr.pc → (t.ctx x).sp n = (s.ctx x).sp n
  twins : ∀ u, u ≠ twinOf x → t.twin u = s.twin u
  twin : t.twin (twinOf x) = { s.twin (twinOf x) with misr := (t.twin (twinOf x)).misr, groups := (t.twin (twinOf x)).groups }

/-- A store of context x through `tr` goes straight to memory: the core runs in split or solo mode, the access is
uncached, no cache, eviction buffer, store buffer or window holds its line, the line is not poisoned, and no sweep runs
(R391, R392, R396, R397, R404, R417, R420). -/
def State.writes (s : State) (x : Nat) (tr : Tr) : Bool :=
  let k := s.coreOf x
  let key := s.key k tr.pa
  let line := key / 64
  !s.isLoose x && !s.isTight x && !bit ((s.core k).sp Sr.cctl) 15 && !(s.l2Sweeping (clusterOfCore k) && tr.cache)
    && s.uncached k key tr.cache && !s.poisoned line && (s.evicting line).isNone && !s.bufferedAt k tr.pa
    && decide (s.forwarded x tr.pa (s.word key) = s.word key)
    && s.twins.all (fun e => !e.2.provisional line)
    && s.cores.all (fun e => (s.l1dAt e.1 line).isNone) && s.clusters.all (fun e => (s.l2At e.1 line).isNone)
    && (match s.region tr.pa with
      | .dram | .staging => true
      | .jnv => s.bgs.move.isNone
      | _ => false)

/-- A store as it reaches memory: where it is issued, the key of the word, and the word it leaves there. -/
structure StoreRow where
  at_ : At
  key : Nat
  w : Word

/-- The memory word that a plain store of context x at `va` meets: its key, the physical address, and the word. -/
def State.slotAt (s : State) (x : Nat) (va : Pay) : Option (Nat × Nat × Word) :=
  match s.trOf x .store va with
  | some tr => if s.writes x tr then some (s.key (s.coreOf x) tr.pa, tr.pa, s.word (s.key (s.coreOf x) tr.pa)) else none
  | none => none

/-- The write barrier has nothing to do for a store of v over o, and the SATB queue is in bounds (R308, R312). -/
def State.noBarrier (s : State) (x : Nat) (o v : Word) : Bool :=
  (s.heapPtr (s.hen x) o).isNone && (s.heapPtr (s.hen x) v).isNone
    && decide (((s.ctx x).sp Sr.sqt).toNat ≤ ((s.ctx x).sp Sr.sql).toNat)

/-- A whole-word store of v through base a (R160). -/
def State.wordStore (s : State) (at_ : At) (a : Word) (disp : Pay) (v : Word) : Option StoreRow :=
  let x := ctxOf at_
  if storedValue (s.ctx x).ring v ≠ none then none
  else match s.eaPlain x a disp 8 true with
    | some va =>
      (match s.slotAt x va with
      | some (key, _, o) => if s.noBarrier x o v then some ⟨at_, key, v⟩ else none
      | none => none)
    | none => none

/-- A partial store of v at `va`: a RAW or FIX word becomes RAW with the bytes replaced (R88). -/
def State.partStore (s : State) (at_ : At) (va : Pay) (width : Nat) (v : Word) : Option StoreRow :=
  match s.slotAt (ctxOf at_) va with
  | some (key, pa, o) => if isRawFix o.tag then some ⟨at_, key, ⟨Tag.raw, putBytes o.pay (pa % 8) width v.pay⟩⟩ else none
  | none => none

/-- S8, S16 and S32 (R160). -/
def State.sRow (s : State) (at_ : At) (f : IF) (width : Nat) : Option StoreRow :=
  let x := ctxOf at_
  let v := s.gr x f.d
  if isRawFix v.tag = false then none
  else match s.eaPlain x (s.gr x f.a) (sext16 f.imm) width true with
    | some va => s.partStore at_ va width v
    | none => none

/-- The instructions that store within one memory word, with the word each leaves. -/
def State.storeRow (s : State) : Instr → Option StoreRow
  | .st at_ f => s.wordStore at_ (s.gr (ctxOf at_) f.a) (sext16 f.imm) (s.gr (ctxOf at_) f.d)
  | .stt at_ f =>
    let x := ctxOf at_
    let v := s.gr x f.d
    let t := BitVec.ofNat 8 v.pay.toNat
    if v.tag ≠ Tag.fix ∨ 255 < v.pay.toNat ∨ newTag (s.ctx x).ring v t = none then none
    else match s.eaPlain x (s.gr x f.a) (sext16 f.imm) 8 true with
      | some va =>
        (match s.slotAt x va with
        | some (key, _, o) =>
          if (isPtrTag t = true ∧ t ≠ Tag.pref ∧ ptrForm o.pay ≠ none) ∨ (t = Tag.pref ∧ fld o.pay 63 48 ≠ 0)
              ∨ s.noBarrier x o ⟨t, o.pay⟩ = false then none
          else some ⟨at_, key, ⟨t, o.pay⟩⟩
        | none => none)
      | none => none
  | .s8 at_ f => s.sRow at_ f 1
  | .s16 at_ f => s.sRow at_ f 2
  | .s32 at_ f => s.sRow at_ f 4
  | .rplaca at_ f =>
    let x := ctxOf at_
    if f.rsv ≠ 0 ∨ f.d ≠ 0 ∨ (s.gr x f.a).tag ≠ Tag.cons ∨ isClass10 (s.gr x f.b).tag = true then none
    else s.wordStore at_ (s.gr x f.a) 0 (s.gr x f.b)
  | .rplacd at_ f =>
    let x := ctxOf at_
    if f.rsv ≠ 0 ∨ f.d ≠ 0 ∨ (s.gr x f.a).tag ≠ Tag.cons ∨ isClass10 (s.gr x f.b).tag = true then none
    else s.wordStore at_ (s.gr x f.a) 8 (s.gr x f.b)
  | .vset at_ f =>
    let x := ctxOf at_
    let v := s.gr x f.d
    let p := s.gr x f.a
    let i := s.gr x f.b
    if f.rsv ≠ 0 ∨ vrefTags p.tag = false ∨ i.tag ≠ Tag.fix ∨ isClass10 v.tag = true ∨ storedValue (s.ctx x).ring v ≠ none then none
    else match s.headerOf x p [fmtScan] with
      | some h =>
        let va := p.pay + p64 (8 * (i.pay.toNat + 1))
        if hdrLen h ≤ i.pay.toNat ∨ s.heapAt (s.hen x) va.toNat ≠ none then none
        else (match s.slotAt x va with
          | some (key, _, o) => if s.noBarrier x o v then some ⟨at_, key, v⟩ else none
          | none => none)
      | none => none
  | .bset at_ f =>
    let x := ctxOf at_
    let v := s.gr x f.d
    let p := s.gr x f.a
    let i := s.gr x f.b
    if f.rsv ≠ 0 ∨ brefTags p.tag = false ∨ i.tag ≠ Tag.fix ∨ v.tag ≠ Tag.fix ∨ 255 < v.pay.toNat then none
    else match s.headerOf x p [fmtBytes] with
      | some h => if hdrBytes h ≤ i.pay.toNat then none else s.partStore at_ (p.pay + 8 + i.pay) 1 v
      | none => none
  | _ => none

/-- A storing instruction of context x has changed memory at the words that `keys` lists and gone on in sequence; no
register, no other memory byte or tag, and nothing else of the machine has changed. -/
structure Stored (s : State) (x : Nat) (keys : List Nat) (t : State) : Prop where
  rest : t = { s with ctxs := t.ctxs, mem := t.mem, tags := t.tags }
  others : ∀ y, y ≠ x → t.ctx y = s.ctx y
  own : t.ctx x = { s.ctx x with sr := (t.ctx x).sr, fresh := false }
  pc : (t.ctx x).pc = (s.ctx x).pc + 4
  spec : ∀ n, n ≠ Sr.pc → (t.ctx x).sp n = (s.ctx x).sp n
  bytes : ∀ a, a / 8 ∉ keys.map (· / 8) → t.byte a = s.byte a ∧ t.tagAt a = s.tagAt a

/-! ### Special registers, the TLB and the caches (R113 to R125, R363 to R381, R408 to R419) -/

/-- An instruction at context x has written v to the special register n of the context and gone on in sequence. -/
structure WroteSpec (s : State) (x n : Nat) (v : Pay) (t : State) : Prop extends OnlyCtx s x t where
  value : (t.ctx x).sp n = v
  regs : ∀ k, (t.ctx x).rdKey k = (s.ctx x).rdKey k
  pc : (t.ctx x).pc = (s.ctx x).pc + 4
  spec : ∀ m, m ≠ n → m ≠ Sr.pc → (t.ctx x).sp m = (s.ctx x).sp m

/-- An instruction at context x has changed core k, perhaps a register of the context, and gone on in sequence; nothing
else of the machine is changed. -/
structure OnlyCore (s : State) (x k : Nat) (t : State) : Prop where
  rest : t = { s with ctxs := t.ctxs, twins := t.twins, cores := t.cores }
  others : ∀ y, y ≠ x → t.ctx y = s.ctx y
  own : t.ctx x = { s.ctx x with regs := (t.ctx x).regs, sr := (t.ctx x).sr, fresh := false }
  pc : (t.ctx x).pc = (s.ctx x).pc + 4
  spec : ∀ n, n ≠ Sr.pc → (t.ctx x).sp n = (s.ctx x).sp n
  cores : ∀ j, j ≠ k → t.core j = s.core j
  twins : ∀ u, u ≠ twinOf x → t.twin u = s.twin u
  twin : t.twin (twinOf x) = { s.twin (twinOf x) with misr := (t.twin (twinOf x)).misr, groups := (t.twin (twinOf x)).groups }

/-- The MTS rows with the source field and the special register each writes, reserved fields being zero (R100, R113). -/
def mtsRow : Instr → Option (At × BitVec 5 × Nat)
  | .mts at_ f => if f.d = 0 ∧ f.imm.toNat < 4096 then some (at_, f.a, f.imm.toNat) else none
  | .mtsPs at_ f => if f.d = 0 ∧ f.hi = 0 then some (at_, f.a, Sr.ps) else none
  | .mtsLe at_ k f => if f.d = 0 ∧ f.hi = 0 ∧ k ≠ 3#2 then some (at_, f.a, Sr.le0 + k.toNat) else none
  | .mtsWinb at_ f => if f.d = 0 ∧ f.hi = 0 then some (at_, f.a, Sr.winb) else none
  | .mtsTvb at_ f => if f.d = 0 ∧ f.hi = 0 then some (at_, f.a, Sr.tvb) else none
  | .mtsCctl at_ f => if f.d = 0 ∧ f.hi = 0 then some (at_, f.a, Sr.cctl) else none
  | .ucsGo at_ f => if f.d = 0 ∧ f.hi = 0 then some (at_, f.a, Sr.ucs) else none
  | .ucsClr at_ f => if f.d = 0 ∧ f.hi = 0 then some (at_, f.a, Sr.ucs) else none
  | _ => none

/-- An MTS of context x to register n, from a source with tag t, passes its checks (R115, R116). -/
def State.mtsOk (s : State) (x n : Nat) (t : BitVec 8) : Bool :=
  mtsTag t && (match srRings n with
    | some (_, some m) => decide ((s.ctx x).ring ≤ m)
    | _ => false)

/-- What an MTS of v leaves in register n of a context (R114, R188, R189, R242, R243, R437). -/
def Ctx.mtsValue (c : Ctx) (n : Nat) (v : Pay) : Option Pay :=
  if n = Sr.ps then c.newPs v
  else if n = Sr.winb then some (newWinb (c.sp Sr.winb) v)
  else if Sr.le0 ≤ n ∧ n ≤ Sr.le0 + 2 then some ((v &&& maskFld 47 2) ||| p64 c.ring)
  else some (v &&& srMask n)

/-- The entries that a TLB invalidation of operand w affects (R380). -/
def tlbiHits (i : Instr) (w : Word) (e : TlbEntry) : Bool :=
  match i with
  | .tlbiA _ _ => e.covers (fld w.pay 47 12 * 4096)
  | .tlbiT _ _ => !e.l && !e.g && decide (e.asid = fld w.pay 11 0)
  | .tlbiTForce _ _ => !e.g && decide (e.asid = fld w.pay 11 0)
  | .tlbiAll _ _ => !e.l
  | .tlbiAllForce _ _ => true
  | _ => false

/-- The TLB invalidations, reserved fields being zero. -/
def tlbiRow : Instr → Option (At × BitVec 5)
  | .tlbiA at_ f | .tlbiT at_ f | .tlbiTForce at_ f => if f.d = 0 ∧ f.b = 0 ∧ f.rsv = 0 then some (at_, f.a) else none
  | .tlbiAll at_ f | .tlbiAllForce at_ f => if f = {} then some (at_, 0) else none
  | _ => none

/-- The context whose MTS to CCTL waits for the sweep of core k, with its value, its size and whether a repeat runs it. -/
def State.sweeper (s : State) (k : Nat) : Option (Nat × Pay × Nat × Bool) :=
  (s.ctxs.filterMap (fun e => match e.2.run with
    | .sweep v size rep => if s.coreOf e.1 = k then some (e.1, v, size, rep) else none
    | _ => none)).head?

/-- The line that a maintenance instruction of context x acts on through base a: the core runs in split or solo mode, the
address translates, and no window holds the line provisional, nor an eviction buffer the line (R396, R407, R408, R488). -/
def State.maintLine (s : State) (x : Nat) (k : AccKind) (a : Word) : Option Nat :=
  match s.ea x a 0 1 (decide (k = .store)) with
  | some va =>
    (match s.trOf x k va with
    | some tr =>
      let line := s.key (s.coreOf x) tr.pa / 64
      if s.isTight x = false ∧ s.isLoose x = false ∧ bit ((s.core (s.coreOf x)).sp Sr.cctl) 15 = false
          ∧ bit (s.reg (oCl (clusterOfCore (s.coreOf x)) + 0x1008)) 63 = false
          ∧ s.maintainable tr.pa = true ∧ (s.evicting line).isNone = true ∧ s.twins.all (fun e => !e.2.provisional line) = true then some line else none
    | none => none)
  | none => none

/-- What micro-words that only move words between micro-registers and immediates leave of them, up to an END; none for another
program (R264, R266). -/
def plainMicro : List Pay → Tbl Word → Option (Tbl Word)
  | [], _ => none
  | w :: ws, u =>
    if mwUop w = 0 then some u
    else if mwUop w = 0x20 then plainMicro ws (uWrite u (mwDst w) (uRead u (mwSa w)))
    else if mwUop w = 0x23 then plainMicro ws (uWrite u (mwDst w) (Word.fixN (uRead u (mwSa w)).tag.toNat))
    else if mwUop w = 0x25 then plainMicro ws (uWrite u (mwDst w) (Word.fix (sext32 (BitVec.ofNat 32 (mwImm w)))))
    else if mwUop w = 0x26 then plainMicro ws (uWrite u (mwDst w) (Word.rawN (mwImm w)))
    else none

/-- The micro-words of a decode entry in the control store of a core. -/
def Core.microWords (c : Core) (e : Pay) : List Pay :=
  (List.range (deLen e)).map (fun i => Tbl.get (fun _ => (0 : Pay)) c.cstore (deEntry e + i))

/-- What the END of a slot instruction writes back of the micro-registers (R269). -/
def Ctx.slotWrites (c : Ctx) (e : Pay) (f : RF) (u : Tbl Word) : Ctx :=
  let c1 := if deWb e 2 then c.wr f.d (uRead u 3) else c
  let c2 := if deWb e 1 then c1.wr f.a (uRead u 1) else c1
  if deWb e 0 then c2.wr f.b (uRead u 2) else c2

/-- No L1D and no L2 holds the line. -/
def State.lineFree (s : State) (line : Nat) : Prop := (∀ k, s.l1dAt k line = none) ∧ (∀ n, s.l2At n line = none)

/-- An instruction at context x has changed caches, and memory where `mem` lets it, and gone on in sequence. -/
structure OnlyCaches (s : State) (x : Nat) (t : State) : Prop where
  rest : t = { s with ctxs := t.ctxs, cores := t.cores, clusters := t.clusters, backing := t.backing, mem := t.mem, tags := t.tags }
  others : ∀ y, y ≠ x → t.ctx y = s.ctx y
  regs : ∀ k, (t.ctx x).rdKey k = (s.ctx x).rdKey k
  pc : (t.ctx x).pc = (s.ctx x).pc + 4
  spec : ∀ n, n ≠ Sr.pc → (t.ctx x).sp n = (s.ctx x).sp n
  core : ∀ k, t.core k = { s.core k with l1d := (t.core k).l1d, l1i := (t.core k).l1i, l1iLk := (t.core k).l1iLk }
  cluster : ∀ n, t.cluster n = { s.cluster n with l2 := (t.cluster n).l2, l2Lk := (t.cluster n).l2Lk }

/-! ### Transfers of control (R166 to R189) -/

/-- The target of a displacement of `w` bits in instructions, where it is an address (R167). -/
def relTo (pc : Pay) (w disp : Nat) : Option Pay :=
  let t : Int := (pc.toNat : Int) + 4 * signedOf w disp
  if t < 0 ∨ 2 ^ 48 ≤ t then none else some (BitVec.ofInt 64 t)

/-- A control target in form (R173). -/
def goodTarget (t : Pay) : Bool := decide (fld t 63 48 = 0) && decide (fld t 1 0 = 0)

/-- The branches, jumps and skipped loops with where each goes. -/
def State.branchRow (s : State) : Instr → Option (At × Pay)
  | .br at_ disp => (relTo (s.ctx (ctxOf at_)).pc 26 disp.toNat).map (fun t => (at_, t))
  | .bcc at_ a b cond disp =>
    let x := ctxOf at_
    let p := s.gr x a
    let q := s.gr x b
    let pc := (s.ctx x).pc
    let on : Option Bool :=
      if cond = 0 ∧ b = 0 then some (decide (p = Word.nil))
      else if cond = 1 ∧ b = 0 then some (decide (p ≠ Word.nil))
      else if cond = 2 ∧ b = 0 then some (decide (p = Word.t))
      else if cond = 3 then some (decide (p = q))
      else if cond = 4 then some (decide (p ≠ q))
      else none
    match on with
    | some true => (relTo pc 12 disp.toNat).map (fun t => (at_, t))
    | some false => some (at_, pc + 4)
    | none => none
  | .btag at_ a neg cls val disp =>
    let x := ctxOf at_
    let pc := (s.ctx x).pc
    let tag := (s.gr x a).tag
    let hit := if cls then decide (tag.toNat / 64 = val.toNat) else decide (tag = val)
    if cls = true ∧ 4 ≤ val.toNat then none
    else if hit != neg then (relTo pc 11 disp.toNat).map (fun t => (at_, t)) else some (at_, pc + 4)
  | .jmpr at_ f =>
    let w := s.gr (ctxOf at_) f.a
    if f.rsv = 0 ∧ f.d = 0 ∧ f.b = 0 ∧ immForm w = true ∧ goodTarget w.pay = true then some (at_, w.pay) else none
  | .loop at_ a rsv ns =>
    let x := ctxOf at_
    if rsv = 0 ∧ immForm (s.gr x a) = true ∧ fld (s.gr x a).pay 31 0 = 0 then some (at_, (s.ctx x).pc + p64 (4 * (ns.toNat + 2))) else none
  | _ => none

/-- The calls with their target, the stack pointer of the current ring being in form (R172). -/
def State.callRow (s : State) : Instr → Option (At × Pay)
  | .call at_ disp => (relTo (s.ctx (ctxOf at_)).pc 26 disp.toNat).map (fun t => (at_, t))
  | .callr at_ f =>
    let w := s.gr (ctxOf at_) f.a
    if f.rsv = 0 ∧ f.d = 0 ∧ f.b = 0 ∧ immForm w = true ∧ goodTarget w.pay = true then some (at_, w.pay) else none
  | _ => none

/-- A stack pointer in form (R172). -/
def goodSp (p : Pay) : Bool := decide (fld p 63 48 = 0) && decide (fld p 2 0 = 0)

/-- The word that a plain load at ring r meets, for a stack or frame access at `va` outside every heap enabled at the core (R172,
R304, R463, R469). -/
def State.popAt (s : State) (x r : Nat) (va : Pay) : Option Word :=
  if s.heapAt (s.hen x) va.toNat ≠ none then none
  else match (s.translate x r .load va).toOption with
  | some tr => if s.reads x tr then some (s.word (s.key (s.coreOf x) tr.pa)) else none
  | none => none

/-- The memory key that a plain store at ring r reaches, outside every heap enabled at the core. -/
def State.pushAt (s : State) (x r : Nat) (va : Pay) : Option Nat :=
  if s.heapAt (s.hen x) va.toNat ≠ none then none
  else match (s.translate x r .store va).toOption with
  | some tr => if s.writes x tr then some (s.key (s.coreOf x) tr.pa) else none
  | none => none

/-- Control of context x has gone to `pc`, with the special registers that `sp` lists at those values; registers and every
other special register are unchanged, memory is unchanged but at the words that `keys` lists, and all else is as before. -/
structure Moved (s : State) (x : Nat) (pc : Pay) (sp : List (Nat × Pay)) (keys : List Nat) (t : State) : Prop where
  rest : t = { s with ctxs := t.ctxs, twins := t.twins, mem := t.mem, tags := t.tags }
  others : ∀ y, y ≠ x → t.ctx y = s.ctx y
  regs : ∀ k, (t.ctx x).rdKey k = (s.ctx x).rdKey k
  pc : (t.ctx x).pc = pc
  set : ∀ e ∈ sp, (t.ctx x).sp e.1 = e.2
  spec : ∀ n, n ≠ Sr.pc → n ∉ sp.map (·.1) → (t.ctx x).sp n = (s.ctx x).sp n
  twins : ∀ u, u ≠ twinOf x → t.twin u = s.twin u
  twin : t.twin (twinOf x) = { s.twin (twinOf x) with misr := (t.twin (twinOf x)).misr, groups := (t.twin (twinOf x)).groups }
  bytes : ∀ a, a / 8 ∉ keys.map (· / 8) → t.byte a = s.byte a ∧ t.tagAt a = s.tagAt a

/-! ### Taking an exception (R438 to R447) -/

/-- What an exception entry needs and does: the ring entered, the number of the stack pointer it uses, the handler's
address, whether the emergency stack is used, and the memory keys of the frame's eight words. -/
structure Entry where
  ring : Nat
  spNo : Nat
  handler : Pay
  em : Bool
  keys : List Nat

/-- The entry of exception e at context x with TB = 0, when its vector is present and its frame goes straight to eight
words of memory. Vectors 16 and 17, which also turn WINB.OLD, are apart (R238, R239). -/
def State.entryOf (s : State) (x : Nat) (e : Exc) : Option Entry :=
  let c := s.ctx x
  if e.vec = 16 ∨ e.vec = 17 ∨ s.pushWaits x = true then none
  else match s.target x e.vec c.ring with
    | .failed _ _ => none
    | .handler r h =>
      let em := if r = c.ring then c.em else false
      match s.pushPlan x r (c.sp (spNo r em)) with
      | some plan =>
        let keys := plan.map (fun tr => s.key (s.coreOf x) tr.pa)
        if plan.all (fun tr => s.writes x tr) ∧ (keys.map (· / 8)).Nodup then some ⟨r, spNo r em, h, em, keys⟩ else none
      | none => none

/-- Context x has entered exception e with frame address `pc`: the frame holds PC, PS, cause, fault address and the extra
words; RING is the target's, IE and SGO are 0, EM says which stack, TB is 1, and PC is the handler. Nothing else changes. -/
structure Entered (s : State) (x : Nat) (pc : Pay) (e : Exc) (en : Entry) (t : State) : Prop where
  rest : t = { s with ctxs := t.ctxs, mem := t.mem, tags := t.tags }
  others : ∀ y, y ≠ x → t.ctx y = s.ctx y
  regs : ∀ k, (t.ctx x).rdKey k = (s.ctx x).rdKey k
  handler : (t.ctx x).pc = en.handler
  tb : (t.ctx x).tb = true
  winb : (t.ctx x).sp Sr.winb = setBit ((s.ctx x).sp Sr.winb) 31 true
  ring : (t.ctx x).ring = en.ring
  ie : (t.ctx x).ie = false
  sgo : (t.ctx x).sgo = false
  em : (t.ctx x).em = en.em
  te : (t.ctx x).te = (s.ctx x).te
  sp : (t.ctx x).sp en.spNo = (s.ctx x).sp en.spNo - 64
  spec : ∀ n, n ≠ Sr.pc → n ≠ Sr.ps → n ≠ Sr.winb → n ≠ en.spNo → (t.ctx x).sp n = (s.ctx x).sp n
  frame : en.keys.map t.word = [Word.raw pc, Word.raw (setBit ((s.ctx x).sp Sr.ps) 15 false), Word.raw e.cause, Word.raw e.fa,
    e.x0, e.x1, e.x2, e.x3]
  bytes : ∀ a, a / 8 ∉ en.keys.map (· / 8) → t.byte a = s.byte a ∧ t.tagAt a = s.tagAt a

/-! ### Device registers, resets and modes -/

/-- An access of a source to the register at `off` reaches it with nothing before it: the register has an address, and no output
of the core waits at the comparator, in a window or in the store buffer (R18, R47, R491, R496). -/
def State.orderly (s : State) (src : Src) (off : Nat) : Bool :=
  let x := src.x.toNat
  let c := src.code.toNat
  decide (off % 8 = 0) && pageMapped (pageOf off)
    && (decide (64 ≤ c) || (!s.unpaired x && !s.heldBy x && !s.txns.any (fun t => t.stands c (s.targetOf (devBase + off)) s.nextTxn)))

/-- A source may write v at this register: the source acts, the page answers, the register is defined and takes the value
(R8, R41 to R47). -/
def State.canWrite (s : State) (src : Src) (off : Nat) (v : Pay) : Bool :=
  src.wf && s.srcActs src && !s.pageGated off && s.orderly src off
    && (match regDesc off with
        | some d => !d.rejects v
        | none => false)

/-- t differs from s in the device registers at `offs` only. -/
structure RegsOnly (s : State) (offs : List Nat) (t : State) : Prop where
  rest : t = { s with dev := t.dev }
  others : ∀ off, off ∉ offs → t.reg off = s.reg off

/-- A Keeper twin keeps, so that nothing ends the mode by NOKEEP (R653). -/
def State.kept (s : State) : Bool := (s.twin 0).keeps || (s.twin 1).keeps

/-- A device reset of the given cause has started: mode Reset, nothing runs, RSTCAUSE says why, device time goes on except
after power-on, JNV keeps its bytes, and Staging SRAM too except after power-on, fuses and the Ledger's records stay, but for
keys that stand under no device key (R656, R657, R677). -/
structure ResetBy (s : State) (why : Nat) (t : State) : Prop where
  held : t.sys.inReset = true
  mode : t.mode = mReset
  cause : t.rf 0x38 63 56 = why
  count : t.rf 0x38 31 0 = if why = 1 then 0 else satInc 32 (s.rf 0x38 31 0)
  units : t.ctxs = [] ∧ t.cores = [] ∧ t.twins = [] ∧ t.clusters = [] ∧ t.txns = [] ∧ t.outbox = []
  time : t.time = if why = 1 then 0 else s.time
  jnv : (∀ e ∈ s.backing, e.2.length = 8) → ∀ a, inJnv a = true → t.byte a = s.byte a
  staging : why ≠ 1 → ∀ a, inStaging a = true → Tbl.look s.backing (a / 64) = none →
    (∀ e ∈ s.backing, e.2.length = 8) → t.byte a = s.byte a
  fuses : t.sec.devuid = s.sec.devuid ∧ t.sec.kslots = s.sec.kslots ∧ t.sec.rollback = s.sec.rollback ∧ t.sec.life = s.sec.life ∧
    t.sec.debuglock = s.sec.debuglock ∧ t.sec.rma = decide (lifeOf s.sec.life = 7)
  ledger : t.ldg.live = (let l := if why = 1 then s.ldg.drained else s.ldg.live
    { l with keys := l.keys.filter (fun e => e.2.under.isSome) })
  drives : t.sto.drv = s.sto.drv
  save : t.pwr.saved = s.pwr.saved ∧ t.pwr.seq = s.pwr.seq ∧ t.pwr.complete = s.pwr.complete

/-- A wake request stands in Quiet although no entry and no wake is under way (R673). -/
def State.wakeMissed (s : State) : Prop := s.mode = mQuiet ∧ s.sys.quiet = .none ∧ s.sys.wakeReq = true

/-- A source may load the register at `off`, and its page answers (R41 to R46). -/
def State.canRead (s : State) (src : Src) (off : Nat) : Bool :=
  src.wf && s.srcActs src && !s.pageGated off && s.orderly src off && (regDesc off).isSome

/-- Source i of the Event Router is bound to no context (R738). -/
def State.unbound (s : State) (i : Nat) : Bool := !bit (s.reg (oEvr + 0x1000 + 8 * i)) 63

/-- No twin holds a window open (R487, R489). -/
def State.noWindows (s : State) : Prop := ∀ e ∈ s.twins, e.2.undo = [] ∧ e.2.hold = []

/-- No posted store is on its way to its target (R18). -/
def State.noStores (s : State) : Prop := ∀ u ∈ s.txns, u.kind = .store → u.arrived = true

/-- A load answers v and changes nothing. -/
def State.answers (s : State) (v : Pay) : State := { s with answer := some (Word.raw v) }

/-- The rows that write TWIN_CMD: the source, the twin, the operation, KEEP, KSYNC and the operation's number (R518). -/
def twinRow : Instr → Option (Src × BitVec 5 × TwinOp × Bool × Bool × Nat)
  | .split src t => some (src, t, .split, false, false, 1)
  | .join src t k => some (src, t, .join, false, k, 2)
  | .loose src t => some (src, t, .loose, false, false, 3)
  | .solo src t k => some (src, t, .solo, k, false, 4)
  | .twinFence src t => some (src, t, .fence, false, false, 5)
  | .unfence src t => some (src, t, .unfence, false, false, 6)
  | _ => none

/-- Twin t may start the operation (R481, R483, R507, R509, R510, R814): it is in a mode the operation starts from, it is in no
transition or recovery, and it does not hold the Sentinel role where that would have to move. -/
def State.twinMay (s : State) (t : Nat) (op : TwinOp) : Bool :=
  let w := s.twin t
  !w.moving && (match op with
    | .split => (decide (w.mode = .tight) || decide (w.mode = .loose)) && !s.hasRole t
    | .join => (decide (w.mode = .split) || decide (w.mode = .loose) || decide (w.mode = .solo)) && !w.cmpLost && !w.dlf
    | .loose => decide (w.mode = .tight) && decide (t < 2)
    | .solo => (decide (w.mode = .tight) || decide (w.mode = .loose) || decide (w.mode = .split)) && !s.hasRole t
    | .fence => decide (w.mode ≠ .off) && !s.hasRole t
    | .unfence => decide (w.mode = .fenced) && bit (s.reg (clkReg (t / 4))) 17)

/-- The mode a transition ends in, with the BIST results of leader and shadow where it runs BIST (R481, R482). -/
def afterTrans (op : TwinOp) (lo so : Bool) : TwinMode :=
  match op with
  | .split => .split
  | .join => .tight
  | .loose => .loose
  | .solo => .solo
  | .fence => .fenced
  | .unfence => if lo && so then .split else if lo || so then .solo else .fenced

/-! ### Packets and the Ledger (R525 to R573) -/

/-- Header, parameters and stream of a packet (R528). -/
def pktHdr (bs : List (BitVec 8)) : List (BitVec 8) := bs.take 32
def pktParams (bs : List (BitVec 8)) : List (BitVec 8) := (bs.drop 32).take (pktLen (pktHdr bs))
def pktStream (bs : List (BitVec 8)) : Nat := hdrStream (pktHdr bs) % 0x1000

/-- A packet passes steps 1 to 8 of R537: its transport is on, it is for this device, its stream is open on that transport, its
length and trailer are right, and so are its fields. -/
def State.sound (s : State) (via : Via) (bs : List (BitVec 8)) : Bool :=
  let h := pktHdr bs
  let n := pktStream bs
  let st := s.stream n
  let f := hdrFlags h
  s.viaOn via && decide (s.mode ≠ mReset) && decide (32 + pktLen h + s.trailerLen n ≤ bs.length) && decide (leAt h 0 2 = 0xC7A5)
    && decide (hdrStream h / 0x1000 = s.dnum.toNat) && decide (st.st ≠ 0) && decide (st.transport = viaCode via) && decide (pktLen h ≤ 4096)
    && decide (s.trailer n "HR7264 CMD" (bs.take (32 + pktLen h)) = some ((bs.drop (32 + pktLen h)).take (s.trailerLen n)))
    && decide (hdrVer h = 1) && decide (leAt h 20 12 = 0) && decide (f % 2 = 0) && decide (f < 8)
    && decide (flagQry h = decide (hdrSeq h = 0)) && (!flagStrm h || st.strmOk)

/-- A command packet is accepted into slot k: steps 9 to 16 of R537 find nothing against it, and no mirror is on. -/
def State.takes (s : State) (bs : List (BitVec 8)) (k : Nat) : Bool :=
  let h := pktHdr bs
  let n := pktStream bs
  let st := s.stream n
  let op := hdrOpcode h
  !flagQry h && decide (hdrSeq h = st.lastSeq + 1) && decide (st.st ≠ 2) && !opRefused op n && !(st.crc && s.crcBars op (pktParams bs))
    && (decide (s.mode = mRun) || decide (s.mode = mDegraded) || decide (s.mode = mService) || decide (s.mode = mQuiet)) && !s.pwr.pfw
    && bit (s.reg (oPwr + 0x18)) 63 && !bit (s.reg (oLdg + 0x28)) 63 && decide (s.freeLedgerSlot = some k) && decide (s.freeCredits n ≠ 0)
    && (decide ((pktParams bs).length ≤ 160) || decide (s.rf (oLdg + 0x18) 44 32 ≠ 0))

/-- A packet and its reply can pass by this way now (R534, R535, R550). -/
def State.viaReady (s : State) : Via → Bool
  | .udp _ => !s.ldgStat 60
  | .sp => s.spReady && s.ldg.spWait.isEmpty
  | .pcie c q _ _ _ => let p := s.qpair (pairKey c q); s.endpoint c.toNat && p.en && decide (p.cqRoom ≠ 0) && p.wait.isEmpty

/-- The reply r has gone the way of its packet: to the Service Port's queue, else out of the device. -/
def Replied (s : State) (via : Via) (r : Reply) (t : State) : Prop :=
  match via with
  | .sp => t.ldg.spQ = s.ldg.spQ ++ [⟨.sp, r⟩]
  | _ => t.ldg.sent = cutReply ⟨via, r⟩ :: s.ldg.sent

/-- The packet is in slot k, its SEQ is the stream's LASTSEQ, and ACCEPTED is its reply (R546). -/
def Accepted (s : State) (via : Via) (bs : List (BitVec 8)) (k : Nat) (t : State) : Prop :=
  let h := pktHdr bs
  ∃ v r, t.slot? k = some v ∧ v.stream = pktStream bs ∧ v.seq = hdrSeq h ∧ v.hdr = h ∧ v.params = pktParams bs ∧ v.st = .waiting ∧
    (t.stream (pktStream bs)).lastSeq = hdrSeq h ∧ r.status = stAccepted ∧ r.lpos = lposOf k v ∧ Replied s via r t

/-- The query rows: the way, the packet and the opcode (R542). -/
def queryRow : Instr → Option (Via × List (BitVec 8) × Nat)
  | .status via bs => some (via, bs, 0)
  | .streamInfo via bs => some (via, bs, 1)
  | .telemRead via bs => some (via, bs, 2)
  | .attest via bs => some (via, bs, 3)
  | .attestRead via bs => some (via, bs, 4)
  | _ => none

/-- The result of a query other than ATTEST; none for parameters it does not take (R543, R633, R721). -/
def State.queryResult (s : State) (op : Nat) (ps : List (BitVec 8)) : Option (List (BitVec 8)) :=
  if op = 0 then (if ps = [] then some s.statusWords else none)
  else if op = 1 then (if ps.length = 2 ∧ leAt ps 0 2 < 0x1000 then some (s.streamInfo (leAt ps 0 2)) else none)
  else if op = 2 then (if ps.length = 6 ∧ leAt ps 4 2 ≠ 0 then some (s.telemRead (leAt ps 0 4) (leAt ps 4 2)) else none)
  else if op = 4 then (if ps.length = 4 ∧ s.sec.report ≠ [] ∧ leAt ps 0 4 < reportLen then
    some ((s.sec.report.drop (leAt ps 0 4)).take 4096) else none)
  else none

/-- No line is poisoned, and no L2 tag entry unreadable, so that every unit can read and write what it works on (R403, R404). -/
def State.unpoisoned (s : State) : Prop := ∀ line, s.poisoned line = false

/-- The Store Engine holds nothing: no frame, no seal under way, no descriptor taken. -/
def State.stoIdle (s : State) : Prop := s.sto.frames = [] ∧ s.sto.seals = [] ∧ s.sto.taken = []

/-- The command in slot n is the one unretired command, without effects, and no stream closes. -/
def State.alone (s : State) (n : Nat) (v : Slot) : Prop :=
  s.ldg.live.slots = [(n, v)] ∧ v.effs = [] ∧ (∀ e ∈ s.ldg.live.streams, e.2.st ≠ 2) ∧ s.stoIdle

/-- The command of slot n has ended with this status and APPCODE, and has been retired: its slot is free, and its stream's window
holds the status (R548, R554). -/
def EndedAs (n : Nat) (v : Slot) (status app : Nat) (t : State) : Prop :=
  t.slot? n = none ∧ ∃ w ∈ (t.stream v.stream).window, w.seq = v.seq ∧ w.status = status ∧ w.appcode = app

/-! ### The Store Engine (R574 to R614) -/

/-- The Store Engine has acted: nothing has changed but its own state and registers, caches, waiting contexts that go on, and the
memory words whose numbers p holds of. -/
structure StoreActed (s : State) (p : Nat → Prop) (t : State) : Prop where
  rest : t = { s with dev := t.dev, sto := t.sto, ctxs := t.ctxs, cores := t.cores, clusters := t.clusters, backing := t.backing,
                      mem := t.mem, tags := t.tags }
  regs : ∀ off, pageOf off ≠ pageOf oSto → t.reg off = s.reg off
  ctx : ∀ x, t.ctx x = { s.ctx x with run := (t.ctx x).run, grants := (t.ctx x).grants }
  bytes : ∀ a, ¬ p (a / 8) → t.byte a = s.byte a ∧ t.tagAt a = s.tagAt a

/-- Block b has become resident in frame f with the words that `get` gives; its read is over, and contexts parked on it go on
(R583, R584). -/
structure Resident (s : State) (b f : Nat) (get : Nat → Word) (t : State) : Prop where
  map : t.mapWord b = setBit (setFld (s.mapWord b) 47 28 f) 62 true
  frame : t.frame? f = some ⟨b, .clean, 0⟩
  reads : t.sto.reads = []
  words : ∀ i, i < 8192 → (s.sto.frpBase + 0x10000 * f + 8 * i) / 8 ≠ s.mapAddr b / 8 → t.word (s.sto.frpBase + 0x10000 * f + 8 * i) = get i
  runs : ∀ x, (s.ctx x).run = .pref b → (t.ctx x).run = .run
  acted : StoreActed s (fun w => ((s.sto.frpBase + 0x10000 * f) / 8 ≤ w ∧ w < (s.sto.frpBase + 0x10000 * f) / 8 + 8192) ∨
    w = s.mapAddr b / 8) t

/-- Descriptor i is the oldest of the transfer queue, well formed, and the store it acts on is mounted (R595 to R598). -/
def State.xqReady (s : State) (i op : Nat) : Bool :=
  s.xqQueued i && decide (s.xqOpc i = op) && decide (s.rf (oSto + 0x58) 11 0 = i) && decide (s.xqSize ≤ 4096) && s.sto.doneXq.isEmpty
    && s.sto.taken.isEmpty && s.sto.seals.isEmpty && !s.xqMalformed i && s.mounted && decide (s.xqBlock i < s.nblocks) && s.unbound 0x56
    && s.fabricFree 0x43 && !s.sto.mapBad.contains (s.xqBlock i)

/-- The status word of descriptor i holds the code and the result, HEAD has passed it, and memory has changed at that word and at
the words p holds of only (R597, R598). -/
structure XqEnded (s : State) (i code result : Nat) (p : Nat → Prop) (t : State) : Prop where
  status : t.word (s.xqAddr i + 24) = Word.raw (atFld 63 63 1 ||| atFld 55 48 code ||| atFld 27 0 result)
  head : t.rf (oSto + 0x58) 11 0 = (i + 1) % s.xqSize % 4096
  queue : t.sto.doneXq = [] ∧ t.sto.taken = []
  acted : StoreActed s (fun w => w = (s.xqAddr i + 24) / 8 ∨ p w) t

/-! ### The Security block (R615 to R648) -/

/-- The Boot ROM has ended in WFE with this code in SEC_BOOTSTAT (R622, R645). -/
structure RomHalts (s : State) (code : Nat) (t : State) : Prop where
  rest : t = { s with dev := t.dev, ctxs := t.ctxs }
  code : t.rf (oSec + 0x10) 63 56 = code
  regs : ∀ off, off ≠ oSec + 0x10 → t.reg off = s.reg off
  ctx : t.ctx 0 = { s.ctx 0 with run := .wfe, latch := false }
  others : ∀ y, y ≠ 0 → t.ctx y = s.ctx y

/-- The body of image m stands in both copies of Keep SRAM (R622). -/
def ImageLoaded (m : Image) (t : State) : Prop :=
  ∀ i, i < leAt m.hdr 24 4 → t.word (leAt m.hdr 16 8 + 8 * i) = imageWord m i ∧ t.word (leAt m.hdr 16 8 + copyB + 8 * i) = imageWord m i

/-- The body of image m has the digest its header gives (R622). -/
def bodyOk (m : Image) : Prop := Config.shake256 (m.body.take (9 * leAt m.hdr 24 4)) 32 = (m.hdr.drop 32).take 32

/-- The Boot ROM has started image m with this code: SEC_BOOTSTAT gives its SVN, MEAS0 and MEAS1 are extended, and context 0 is at the
image's entry (R622, R626). -/
structure RomStarted (s : State) (m : Image) (code : Nat) (t : State) : Prop where
  code : t.rf (oSec + 0x10) 63 56 = code
  svn : t.rf (oSec + 0x10) 31 0 = leAt m.hdr 12 4
  meas0 : t.measBytes 0 = Config.shake256 (s.measBytes 0 ++ Config.romDigest) 32
  meas1 : t.measBytes 1 = Config.shake256 (s.measBytes 1 ++ Config.shake256 (m.hdr.take 160) 32) 32
  ctx : t.ctx 0 = (s.ctx 0).setPc (p64 (leAt m.hdr 16 8 + leAt m.hdr 28 4))
  others : ∀ y, y ≠ 0 → t.ctx y = s.ctx y

/-- The fuse operations: source, value and the operation's number (R648). -/
def fuseRow : Instr → Option (Src × Pay × Nat)
  | .revokeSlot src v => some (src, v, 1)
  | .rollback src v => some (src, v, 2)
  | .debuglock src v => some (src, v, 3)
  | .life src v => some (src, v, 4)
  | .progkey src v => some (src, v, 5)
  | _ => none

/-- The RESULT with which a fuse operation is refused; 0 where it starts (R642, R648). -/
def State.fuseAnswer (s : State) (op : Nat) (v : Pay) : Nat :=
  if s.pwr.pfw then fReserve
  else if op = 1 ∧ s.sec.lastSlot (fld v 17 16) = true then fLast
  else if op = 2 ∧ fld v 7 0 < s.sec.rollback then fBack
  else if op = 4 ∧ fld v 7 0 < lifeOf s.sec.life then fBack
  else if op = 5 ∧ (s.sec.kslot (fld v 17 16)).prog = true then fProg
  else 0

/-- The Keccak descriptor at HEAD of a queue is of operation `op`, well formed, and the engine may read its input (R640). -/
def State.kqReady (s : State) (sk : Bool) (op : Nat) : Bool :=
  s.kqOn sk && decide (s.kqHead sk ≠ s.kqTail sk) && decide (fld (s.kqDesc sk 0).pay 63 60 = op) && !s.kqMalformed sk
    && s.kqReach sk false (s.kqDesc sk 1).pay.toNat (s.kqDesc sk 2).pay.toNat && s.unbound 0x57 && s.fabricFree 0x44

/-- The bytes a descriptor names as its input, and those of its key or public key. -/
def State.kqInput (s : State) (sk : Bool) : List (BitVec 8) :=
  s.kqBytes (bit (s.kqDesc sk 0).pay 56) (s.kqDesc sk 1).pay.toNat (s.kqDesc sk 2).pay.toNat
def State.kqKey (s : State) (sk : Bool) (n : Nat) : List (BitVec 8) := s.kqBytes (bit (s.kqDesc sk 0).pay 56) (s.kqDesc sk 5).pay.toNat n

/-- The Keccak descriptor at HEAD has ended with this code and result, and HEAD has passed it; memory has changed there and at the
words p holds of only (R639, R640). -/
structure KqEnded (s : State) (sk : Bool) (code : Nat) (valid : Bool) (p : Nat → Prop) (t : State) : Prop where
  status : t.word (s.kqBase sk + 64 * (1 + s.kqHead sk) + 56) = Word.raw (atFld 63 63 1 ||| atFld 55 48 code ||| setBit 0 0 valid)
  head : t.word (s.kqBase sk + 8) = Word.rawN ((s.kqHead sk + 1) % s.kqSize sk)
  rest : t = { s with dev := t.dev, cores := t.cores, clusters := t.clusters, backing := t.backing, mem := t.mem, tags := t.tags }
  regs : ∀ off, off ≠ oSec + 0x20 → t.reg off = s.reg off
  err : t.secStat 58 = (s.secStat 58 || decide (code ≠ 0))
  bytes : ∀ a, a / 8 ≠ (s.kqBase sk + 64 * (1 + s.kqHead sk) + 56) / 8 → a / 8 ≠ (s.kqBase sk + 8) / 8 → ¬ p (a / 8) →
    t.byte a = s.byte a ∧ t.tagAt a = s.tagAt a

end Sys2Proof.Machine
end

