-- ==== Sys2Proof/Certificates/Slice0/Obligations.lean ====
section
/-!
DEFINITION. The statements for the provers, from the spec's numbered rules.
-/
open Sys2Proof Sys2Proof.Machine

/-! ### The queue (assumptions 9, 10) -/

/-- A step with command c at the front of the queue is exec of c on the machine with the rest of the queue. -/
def Obligations.StepRunsFront : Prop :=
  ∀ (c : Instr) (cs : List Instr) (s : State), s.pending = c :: cs → step s = exec c { s with pending := cs }

/-- Every command, well formed or not, completes with a next state and leaves the queue alone. The queue is first in, first out:
whatever a step does, the commands that wait afterwards are those that waited behind the front one, in their order. -/
def Obligations.QueueAndCompletion : Prop :=
  (∀ (c : Instr) (s : State), ∃ t, exec c s = .next t ∧ t.pending = s.pending) ∧
  (∀ s t : State, step s = .next t → t.pending = s.pending.tail)

/-! ### Register instructions (R98, R139 to R151) -/

/-- G0 reads as NIL whatever has been written, and a write to it is discarded; a write to any other register is what the
next read of it gives and changes no other register of the bank (R98). -/
def Obligations.RegisterFile : Prop :=
  ∀ (c : Ctx) (r q : BitVec 5) (w : Word),
    c.rd 0 = Word.nil ∧ c.wr 0 w = c ∧ (r ≠ 0 → (c.wr r w).rd r = w) ∧ (q ≠ r → (c.wr r w).rd q = c.rd q)

/-- ADD, SUB, MUL, DIV, REM, CMP, CEQ, CLT, CLE, EQ, AND, OR, XOR, ANDN, SHL, SHR, SAR, ROT, TTST and RTAG, ready and on
operands they accept, write the result that the spec gives for the operands to D and change nothing else. NEG, ABS, NOT,
POPC, CLZ, CTZ, TAG, TCLS, MOV, CVTF, CVTI, FTOR and RTOF likewise, for one source. -/
def Obligations.RegisterResults : Prop :=
  (∀ (i : Instr) (s : State) (at_ : At) (f : RF) (g : Word → Word → Option Word) (w : Word),
    threeReg (s.ctx (ctxOf at_)).ring i = some (at_, f, g) → s.ready at_ 4 = true → f.rsv = 0 →
    g (s.gr (ctxOf at_) f.a) (s.gr (ctxOf at_) f.b) = some w →
    ∃ t, exec i s = .next t ∧ WroteReg s (ctxOf at_) 4 f.d w t) ∧
  (∀ (i : Instr) (s : State) (at_ : At) (f : RF) (g : Word → Option Word) (w : Word),
    twoReg i = some (at_, f, g) → s.ready at_ 4 = true → f.rsv = 0 → f.b = 0 → g (s.gr (ctxOf at_) f.a) = some w →
    ∃ t, exec i s = .next t ∧ WroteReg s (ctxOf at_) 4 f.d w t)

/-- ADDI, MULI, CEQI, CLTI, ANDI, ORI, XORI, SHI, LDI, LDC, LDR, RTAGI and TTSTI likewise, with their 16-bit immediate
sign-extended or zero-extended as each takes it (R101). EXT of ADDI, MULI, CEQI, CLTI, ANDI, ORI, XORI, LDI, LDC or LDR
does the same with a 32-bit immediate and takes eight bytes (R102 to R104). -/
def Obligations.ImmediateResults : Prop :=
  (∀ (i : Instr) (s : State) (at_ : At) (f : IF) (major : Nat) (w : Word),
    immReg i = some (at_, f, major) → s.ready at_ 4 = true → (noA major = true → f.a = 0) →
    immResult (s.ctx (ctxOf at_)).ring major (sext16 f.imm) (p64 f.imm.toNat) (s.gr (ctxOf at_) f.a) = some w →
    ∃ t, exec i s = .next t ∧ WroteReg s (ctxOf at_) 4 f.d w t) ∧
  (∀ (s : State) (at_ : At) (inner : BitVec 6) (d a : BitVec 5) (imm : BitVec 32) (w : Word),
    extInner inner.toNat = true → s.ready at_ 8 = true → (noA inner.toNat = true → a = 0) →
    immResult (s.ctx (ctxOf at_)).ring inner.toNat (sext32 imm) (p64 imm.toNat) (s.gr (ctxOf at_) a) = some w →
    ∃ t, exec (.ext at_ inner d a 0 imm) s = .next t ∧ WroteReg s (ctxOf at_) 8 d w t)

/-- ADD, SUB, MUL, DIV and REM on FIX operands whose exact result is out of range, or with divisor 0, take a Tag Trap with
tag dispatch off: vector 18, operation 0 to 4, reason OVF with no operand marked or DIVZ with operand B marked, and the
operand tags in extra word 0 (R140, R145, R146, R147). -/
def Obligations.ArithmeticTraps : Prop :=
  ∀ (s : State) (at_ : At) (f : RF) (en : Entry) (op : Nat) (i : Instr) (reason mask : Nat),
    let x := ctxOf at_
    let a := s.gr x f.a
    let b := s.gr x f.b
    let e : Exc := { vec := 18, cause := atFld 23 16 mask ||| atFld 15 8 op ||| atFld 7 0 reason, x0 := Word.raw 0 }
    ((op = 0 ∧ i = .add at_ f ∧ reason = 1 ∧ mask = 0 ∧ inFix (fixVal a.pay + fixVal b.pay) = false)
      ∨ (op = 1 ∧ i = .sub at_ f ∧ reason = 1 ∧ mask = 0 ∧ inFix (fixVal a.pay - fixVal b.pay) = false)
      ∨ (op = 2 ∧ i = .mul at_ f ∧ reason = 1 ∧ mask = 0 ∧ inFix (fixVal a.pay * fixVal b.pay) = false)
      ∨ (op = 3 ∧ i = .div at_ f ∧ reason = 3 ∧ mask = 2 ∧ b.pay = 0)
      ∨ (op = 4 ∧ i = .rem at_ f ∧ reason = 3 ∧ mask = 2 ∧ b.pay = 0)) →
    a.tag = Tag.fix → b.tag = Tag.fix → s.ready at_ 4 = true → f.rsv = 0 → (s.ctx x).tb = false →
    bit ((s.ctx x).sp Sr.tdb) 0 = false → s.entryOf x e = some en →
    ∃ t, exec i s = .next t ∧ Entered s x (s.ctx x).pc e en t

/-! ### Loads and stores (R54, R126, R127, R152 to R163, R376) -/

/-- LD, LDT, LDX, L8, L16, L32, CAR, CDR, VREF, VLEN, BREF, UNWK, LDW and LDWT, ready, through an address that translates
to memory and with nothing in the way, make the word the spec gives pending for D and go on; registers and memory are as
before. The word of a load is written to its register when the second instruction after it retires, after that
instruction's own write; until then the register holds its old value (R127). Said of two NOPs after a load. -/
def Obligations.LoadsAndTheirShadow : Prop :=
  (∀ (i : Instr) (s : State) (r : LoadRow),
    s.loadRow i = some r → s.ready r.at_ 4 = true → ∃ t, exec i s = .next t ∧ Loaded s (ctxOf r.at_) 4 r.d r.w t) ∧
  (∀ (s : State) (at_ : At) (d : BitVec 5) (w : Word) (n : Nat),
    let x := ctxOf at_
    let u : State := s.setCtx x { s.ctx x with loads := [⟨n, d, (s.ctx x).bank, w⟩] }
    s.ready at_ 4 = true → u.fetches x (s.ctx x).pc = true → d ≠ 0 → (n = 2 ∨ n = 1) →
    ∃ t, exec (.nop at_ {}) u = .next t ∧
      (n = 2 → (t.ctx x).rd d = (s.ctx x).rd d ∧ (t.ctx x).loads = [⟨1, d, (s.ctx x).bank, w⟩]) ∧
      (n = 1 → (t.ctx x).rd d = w ∧ (t.ctx x).loads = []))

/-- ST, STT, S8, S16, S32, RPLACA, RPLACD, VSET and BSET, ready, through an address that translates to memory that no
cache holds, at a core in split or solo mode, leave the word the spec gives in memory and go on; registers, every other
byte and tag of memory, and all else are as before. ZAL writes FIX : 0 to the eight words of its line and to no other
(R160, R405). CONS writes its operands to the two words at CBASE, advances CBASE by 16 and returns the new pair in D
(R153). -/
def Obligations.StoresAndObjects : Prop :=
  (∀ (i : Instr) (s : State) (r : StoreRow),
    s.storeRow i = some r → s.ready r.at_ 4 = true →
    ∃ t, exec i s = .next t ∧ Stored s (ctxOf r.at_) [r.key] t ∧ t.word r.key = r.w) ∧
  ((∀ (s : State) (at_ : At) (f : IF) (va : Pay) (key pa : Nat) (o : Word),
    s.ready at_ 4 = true → f.d = 0 → (s.ctx (ctxOf at_)).ring ≤ 2 →
    s.eaPlain (ctxOf at_) (s.gr (ctxOf at_) f.a) (sext16 f.imm) 64 true = some va →
    s.slotAt (ctxOf at_) va = some (key, pa, o) →
    ∃ t, exec (.zal at_ f) s = .next t ∧ Stored s (ctxOf at_) ((List.range 8).map (key + 8 * ·)) t ∧
      ∀ i, i < 8 → t.word (key + 8 * i) = Word.fix 0) ∧
  (∀ (s : State) (at_ : At) (f : RF) (k0 k1 p0 p1 : Nat) (o0 o1 : Word),
    let x := ctxOf at_
    let cb := (s.ctx x).sp Sr.cbase
    let a := s.gr x f.a
    let b := s.gr x f.b
    s.ready at_ 4 = true → f.rsv = 0 → isClass10 a.tag = false → isClass10 b.tag = false →
    storedValue (s.ctx x).ring a = none → storedValue (s.ctx x).ring b = none →
    cb.toNat + 16 ≤ ((s.ctx x).sp Sr.clim).toNat →
    s.heapAt (s.hen x) cb.toNat = none → s.heapAt (s.hen x) (cb + 8).toNat = none →
    s.slotAt x cb = some (k0, p0, o0) → s.slotAt x (cb + 8) = some (k1, p1, o1) → k0 / 8 ≠ k1 / 8 →
    ∃ t, exec (.cons at_ f) s = .next t ∧
      t = { s with ctxs := t.ctxs, mem := t.mem, tags := t.tags } ∧ (∀ y, y ≠ x → t.ctx y = s.ctx y) ∧
      t.word k0 = a ∧ t.word k1 = b ∧ (∀ k, k / 8 ≠ k0 / 8 → k / 8 ≠ k1 / 8 → t.byte k = s.byte k ∧ t.tagAt k = s.tagAt k) ∧
      (f.d ≠ 0 → t.gr x f.d = ⟨Tag.cons, cb⟩) ∧ (∀ k, k ≠ regKey (s.ctx x).bank f.d → (t.ctx x).rdKey k = (s.ctx x).rdKey k) ∧
      (t.ctx x).sp Sr.cbase = cb + 16 ∧ (t.ctx x).pc = (s.ctx x).pc + 4 ∧
      (∀ n, n ≠ Sr.cbase → n ≠ Sr.pc → (t.ctx x).sp n = (s.ctx x).sp n)))

/-- A word of memory reads as it was last written, with its tag, and a byte within it as its payload's bits [8b+7:8b]; the
other words are as before (R54, R86). A cached write by a core leaves the word as written and every other byte and tag of
memory as before, whatever lines it fills, drops or takes from other caches; a cached read changes no byte and no tag
(R388, R391, R392). -/
def Obligations.MemoryWordsAndCaches : Prop :=
  (∀ (s : State) (k j : Nat) (w : Word) (b : Nat),
    (s.setWord k w).word k = w ∧ (b < 8 → (s.setWord k w).byte (k / 8 * 8 + b) = byteOf w.pay b) ∧
    (j / 8 ≠ k / 8 → (s.setWord k w).word j = s.word j ∧ (s.setWord k w).byte j = s.byte j)) ∧
  (∀ (s : State) (k key x a : Nat) (w : Word) (prov : Bool),
    (s.cacheWrite k key x w prov).word key = w ∧
    (a / 8 ≠ key / 8 → (s.cacheWrite k key x w prov).byte a = s.byte a ∧ (s.cacheWrite k key x w prov).tagAt a = s.tagAt a) ∧
    (s.cacheRead k key).mem = s.mem ∧ (s.cacheRead k key).tags = s.tags)

/-- The canonical form of memory and of its tags is kept by a posted or cached store of a core, by a store past the caches,
by the words and bytes an engine or the IO Hub writes, by the discard of a window, by the cores of a twin that join, by the
body of an image in both copies of Keep SRAM, by the clearing of a side area, by a device reset of any cause, by the end of a
flush and by the return of what it saved; the memory of reset has it (assumption 1: what an unlisted byte and tag read as). -/
def Obligations.MemoryForm : Prop :=
  State.reset.memForm ∧
  ∀ s : State, s.memForm →
    (∀ (x : Nat) (tr : Tr) (width : Nat) (v : Word) (pc : Pay), (s.postStore x tr width v pc).memForm) ∧
    (∀ (k key x : Nat) (w : Word), (s.cachedStore k key x w).memForm) ∧
    (∀ (src pa width : Nat) (v : Word), (s.memStore src pa width v).memForm) ∧
    (∀ (k : Nat) (ws : List Word), (s.engWords k ws).memForm) ∧
    (∀ (pa : Nat) (bs : List (BitVec 8)), (s.engPutBytes pa bs).memForm) ∧
    (∀ t : Nat, (s.rollback t).memForm) ∧
    (∀ (t : Nat) (before : TwinMode) (ksync : Bool), (s.toJoined t before ksync).memForm) ∧
    (∀ m : Image, (s.loadBody m).memForm) ∧
    (∀ pa len : Nat, (s.clearRange pa len).memForm) ∧
    (∀ cause : Nat, (s.deviceReset cause).memForm) ∧
    s.flushed.memForm ∧ s.restoreStaging.memForm

/-! ### Special registers, TLB and caches -/

/-- MFS reads, at a ring that may, any special register with its tag into D (R113 to R118). MTS, MTS_PS, MTS_LE and
MTS_WINB to a register held per context write the bits that the spec lets MTS write: all of a plain register's, PS without
a lower ring or a set EM, WINB's OLD, SCTX and SBANK, LE with the current ring; a loop count written at its own level's
end slot is apart (R113, R188, R189, R242, R243, R437); a write of SQT in tight mode also keeps the SQT of the last confirmed
window in the twin (R314). MTS and MTS_TVB to a register held per core write it; a write of
TVB also reloads the latch of entries 64 to 127 of the ring 1 table (R114, R257, R443). -/
def Obligations.SpecialRegisters : Prop :=
  (∀ (s : State) (at_ : At) (f : IF) (rd : Nat) (wr : Option Nat),
    s.ready at_ 4 = true → f.a = 0 → f.imm.toNat < 4096 → srRings f.imm.toNat = some (rd, wr) →
    (s.ctx (ctxOf at_)).ring ≤ rd →
    ∃ t, exec (.mfs at_ f) s = .next t ∧ WroteReg s (ctxOf at_) 4 f.d (s.readSpec (ctxOf at_) f.imm.toNat) t) ∧
  (∀ (i : Instr) (s : State) (at_ : At) (a : BitVec 5) (n : Nat) (v : Pay),
    mtsRow i = some (at_, a, n) → s.ready at_ 4 = true → s.mtsOk (ctxOf at_) n (s.gr (ctxOf at_) a).tag = true →
    srPerCtx n = true → (s.ctx (ctxOf at_)).mtsValue n (s.gr (ctxOf at_) a).pay = some v →
    (Sr.lc0 ≤ n → n ≤ Sr.lc0 + 2 → (s.ctx (ctxOf at_)).leAddr (n - Sr.lc0) ≠ (s.ctx (ctxOf at_)).pc) →
    (n = Sr.sqt → s.isTight (ctxOf at_) = false) →
    ∃ t, exec i s = .next t ∧ WroteSpec s (ctxOf at_) n v t) ∧
  (∀ (i : Instr) (s : State) (at_ : At) (a : BitVec 5),
    let x := ctxOf at_
    let c := s.ctx x
    mtsRow i = some (at_, a, Sr.sqt) → s.ready at_ 4 = true → s.mtsOk x Sr.sqt (s.gr x a).tag = true → s.isTight x = true →
    ∃ t, exec i s = .next t ∧ t = { s with ctxs := t.ctxs, twins := t.twins } ∧ (∀ y, y ≠ x → t.ctx y = s.ctx y) ∧
      (t.ctx x).sp Sr.sqt = (s.gr x a).pay &&& srMask Sr.sqt ∧ (t.ctx x).pc = c.pc + 4 ∧ (∀ r, (t.ctx x).rdKey r = c.rdKey r) ∧
      Tbl.look (t.twin (twinOf x)).sqtConf x = some ((Tbl.look (s.twin (twinOf x)).sqtConf x).getD (c.sp Sr.sqt))) ∧
  (∀ (i : Instr) (s : State) (at_ : At) (a : BitVec 5) (n : Nat),
    let x := ctxOf at_
    let k := s.coreOf x
    let v := (s.gr x a).pay
    mtsRow i = some (at_, a, n) → s.ready at_ 4 = true → s.mtsOk x n (s.gr x a).tag = true →
    n = Sr.tvb ∨ n = Sr.gtb ∨ n = Sr.rtb ∨ n = Sr.ckm ∨ n = Sr.cyc →
    ∃ t, exec i s = .next t ∧ OnlyCore s x k t ∧ (∀ r, (t.ctx x).rdKey r = (s.ctx x).rdKey r) ∧
      (t.core k).sp n = v &&& srMask n ∧ (∀ m, m ≠ n → (t.core k).sp m = (s.core k).sp m) ∧
      t.core k = { s.core k with sr := (t.core k).sr, latch1 := (t.core k).latch1 } ∧
      (t.core k).latch1 = (if n = Sr.tvb then s.latchOf k (fld v 47 11 * 2048) false else (s.core k).latch1))

/-- MTS_CCTL that does not clear EN writes bits 7 to 0, and empties the L1I when it clears IEN; one that clears EN starts
the sweep of the L1D and waits for it, and L1D_SWEEP_END then empties the L1D, gives CCTL its value and retires the MTS.
The core runs in split or solo mode, and the context's stores are acknowledged (R414, R417 to R419, R428). CWB and CWBI leave
nothing of their line dirty, and CWBI and CINV leave no copy of it in a data cache; CWB and CWBI keep every word of memory, CINV puts back the words that memory
held of the line. A poisoned line is apart (R404, R408). CINVR and CINVR_NW at ring 0 or 1, over a range in form that the
PRT permits, write what is left of the count beyond 4,096 lines to D and go on; CINVR keeps every word of memory (R410). -/
def Obligations.CacheInstructions : Prop :=
  (∀ (s : State) (at_ : At) (f : SF),
    let x := ctxOf at_
    let k := s.coreOf x
    let v := (s.gr x f.a).pay
    let old := (s.core k).sp Sr.cctl
    (f.d = 0 → f.hi = 0 → s.isTight x = false → s.isLoose x = false → s.lastPosted x = none → bit old 15 = false →
      s.ready at_ 4 = true → s.mtsOk x Sr.cctl (s.gr x f.a).tag = true →
      (bit old 0 = false ∨ bit v 0 = true →
        ∃ t, exec (.mtsCctl at_ f) s = .next t ∧ (t.core k).sp Sr.cctl = v &&& maskFld 7 0 ∧ (t.ctx x).pc = (s.ctx x).pc + 4 ∧
          t.mem = s.mem ∧ t.tags = s.tags ∧ (∀ r, (t.ctx x).rdKey r = (s.ctx x).rdKey r) ∧
          (bit old 1 = true → bit v 1 = false → (t.core k).l1i = [])) ∧
      (bit old 0 = true → bit v 0 = false →
        ∃ t, exec (.mtsCctl at_ f) s = .next t ∧ bit ((t.core k).sp Sr.cctl) 15 = true ∧ (t.ctx x).run = .sweep v 4 false ∧
          (t.ctx x).pc = (s.ctx x).pc ∧ t.mem = s.mem)) ∧
    ∀ (y : Nat) (u : Pay) (j : BitVec 6),
      s.calm = true → s.sweeper j.toNat = some (y, u, 4, false) → bit ((s.core j.toNat).sp Sr.cctl) 15 = true →
      (s.ctx y).loads = [] → (s.ctx y).innermost = none →
      ∃ t, exec (.l1dSweepEnd j []) s = .next t ∧ (t.core j.toNat).sp Sr.cctl = u &&& maskFld 7 0 ∧ (t.core j.toNat).l1d = [] ∧
        (t.ctx y).pc = (s.ctx y).pc + 4 ∧ (t.ctx y).run = .run ∧ t.mem = s.mem ∧ t.tags = s.tags) ∧
  ((∀ (s : State) (at_ : At) (f : RF) (line : Nat),
    let x := ctxOf at_
    s.ready at_ 4 = true → f.d = 0 → f.b = 0 → f.rsv = 0 → s.poisoned line = false →
    (s.maintLine x .load (s.gr x f.a) = some line →
      ∃ t, exec (.cwb at_ f) s = .next t ∧ OnlyCaches s x t ∧ t.mem = s.mem ∧ t.tags = s.tags ∧ t.lineDirty line = false) ∧
    (s.maintLine x .store (s.gr x f.a) = some line → (s.ctx x).ring ≤ 1 →
      (∃ t, exec (.cwbi at_ f) s = .next t ∧ OnlyCaches s x t ∧ t.mem = s.mem ∧ t.tags = s.tags ∧ t.lineDirty line = false ∧
        t.lineFree line) ∧
      (∃ t, exec (.cinv at_ f) s = .next t ∧ OnlyCaches s x t ∧ t.lineFree line ∧
        (∀ ws, Tbl.look s.backing line = some ws → ∀ i, i < ws.length → t.word (line * 64 + 8 * i) = ws.getD i Word.nil) ∧
        (Tbl.look s.backing line = none → t.mem = s.mem ∧ t.tags = s.tags)))) ∧
  (∀ (s : State) (at_ : At) (f : RF),
    let x := ctxOf at_
    let a := (s.gr x f.a).pay
    let b := (s.gr x f.b).pay.toNat
    let n := min b 4096
    let st := fld a 47 6 * 64
    s.ready at_ 4 = true → f.rsv = 0 → (s.ctx x).ring ≤ 1 → s.isTight x = false → s.isLoose x = false →
    immForm (s.gr x f.a) = true → immForm (s.gr x f.b) = true → (∀ e ∈ s.twins, e.2.undo = []) → fld a 63 48 = 0 →
    st + 64 * n ≤ 2 ^ 48 → (∀ i, i < n → s.prtOk (s.ctx x).ring (st + 64 * i) = true) →
    (∃ t, exec (.cinvr at_ f) s = .next t ∧ (f.d ≠ 0 → t.gr x f.d = Word.fixN (b - n)) ∧ t.mem = s.mem ∧ t.tags = s.tags ∧
      (∀ r, r ≠ regKey (s.ctx x).bank f.d → (t.ctx x).rdKey r = (s.ctx x).rdKey r) ∧ (t.ctx x).pc = (s.ctx x).pc + 4) ∧
    (∃ t, exec (.cinvrNw at_ f) s = .next t ∧ (f.d ≠ 0 → t.gr x f.d = Word.fixN (b - n)) ∧
      (∀ r, r ≠ regKey (s.ctx x).bank f.d → (t.ctx x).rdKey r = (s.ctx x).rdKey r) ∧ (t.ctx x).pc = (s.ctx x).pc + 4)))

/-- UCS_GO and UCS_CLR, ready, at ring 0 or 1, from a source of an allowed tag and with no load under way, complete: with a
good image and target, and for a clear with a good target, a load starts, BUSY is 1 and the job holds the image's entries and
words; a failed check leaves its code in STAT and starts nothing (R282, R283). UCS_LOAD_COMPLETE waits while a context of its
targets is inside a slot; else it ends the load: every core of a target twin holds the words in its control store, contexts
stopped at a YIELD restart, BUSY is 0 and STAT is DONE (R286, R287). -/
def Obligations.SlotLoads : Prop :=
  (∀ (s : State) (at_ : At) (f : SF) (i : Instr),
    let x := ctxOf at_
    let k := s.coreOf x
    let v := (s.gr x f.a).pay
    i = .ucsGo at_ f ∨ i = .ucsClr at_ f → f.d = 0 → f.hi = 0 → s.ready at_ 4 = true →
    s.mtsOk x Sr.ucs (s.gr x f.a).tag = true → bit ((s.core k).sp Sr.ucs) 63 = false →
    ∃ t, exec i s = .next t ∧ OnlyCore s x k t ∧ (∀ r, (t.ctx x).rdKey r = (s.ctx x).rdKey r) ∧
      (∀ (j : UcsJob) (ts : List Nat), bit v 0 = true → s.ucsImage k (8 * fld v 21 3) = .ok j → s.ucsTargets v = .ok ts →
        bit ((t.core k).sp Sr.ucs) 63 = true ∧ (t.core k).ucsJob = some { j with clr := bit v 1, targets := ts }) ∧
      (∀ ts : List Nat, bit v 0 = false → bit v 1 = true → s.ucsTargets v = .ok ts →
        bit ((t.core k).sp Sr.ucs) 63 = true ∧ (t.core k).ucsJob = some ⟨true, 0, [], [], ts⟩) ∧
      (∀ c : Nat, bit v 0 = true → s.ucsImage k (8 * fld v 21 3) = .error c → c < 16 →
        fld ((t.core k).sp Sr.ucs) 61 58 = c ∧ (t.core k).ucsJob = (s.core k).ucsJob)) ∧
  ∀ (s : State) (k : BitVec 6), s.calm = true →
    ((s.core k.toNat).ucsJob = none → ∃ t, exec (.ucsLoadComplete k) s = .next t ∧ t = s) ∧
    ∀ j : UcsJob, (s.core k.toNat).ucsJob = some j →
      (s.insideSlot j = true → ∃ t, exec (.ucsLoadComplete k) s = .next t ∧ t = s) ∧
      (s.insideSlot j = false → ∃ t, exec (.ucsLoadComplete k) s = .next t ∧ (t.core k.toNat).ucsJob = none ∧
        bit ((t.core k.toNat).sp Sr.ucs) 63 = false ∧ fld ((t.core k.toNat).sp Sr.ucs) 61 58 = 1 ∧
        (∀ x, twinOf x ∈ j.targets → (t.ctx x).slot = none) ∧
        ∀ (u i : Nat), u ∈ j.targets → s.clOn (clusterOfTwin u) = true → i < j.words.length →
          Tbl.get (fun _ => (0 : Pay)) (t.core (2 * u)).cstore (j.csbase + i) = j.words.getD i 0 ∧
          Tbl.get (fun _ => (0 : Pay)) (t.core (2 * u + 1)).cstore (j.csbase + i) = j.words.getD i 0)

/-- A customer slot instruction, ready, with its slot loaded and no load of its twin under way, of a ring that its entry admits and
with the fields it does not use zero, whose micro-program only moves words, tags and immediates between micro-registers up to
its END, completes: U1, U2 and U3 start as A, B and D, and D, A and B receive U3, U1 and U2 where the entry writes them back, in
this order; nothing else changes (R261, R264, R266, R269, R276). -/
def Obligations.CustomerSlots : Prop :=
  ∀ (s : State) (at_ : At) (slot : BitVec 4) (f : RF) (lim : Nat) (e : Pay) (u : Tbl Word),
    let x := ctxOf at_
    let c := s.ctx x
    let core := s.core (s.coreOf x)
    s.ready at_ 4 = true → at_.ucPar = none → s.ucsLoading (twinOf x) = false →
    Tbl.look core.decode slot.toNat = some e → f.rsv = 0 → (deUse e 2 = true ∨ f.d = 0) → (deUse e 1 = true ∨ f.a = 0) →
    (deUse e 0 = true ∨ f.b = 0) → c.ring ≤ deRmax e →
    plainMicro (core.microWords e) (uWrite (uWrite (uWrite [] 1 (c.rd f.a)) 2 (c.rd f.b)) 3 (c.rd f.d)) = some u →
    ∃ t, exec (.customerSlot at_ slot f lim) s = .next t ∧ OnlyCtx s x t ∧
      (∀ k, (t.ctx x).rdKey k = (c.slotWrites e f u).rdKey k) ∧ (t.ctx x).pc = c.pc + 4 ∧
      ∀ n, n ≠ Sr.pc → (t.ctx x).sp n = c.sp n

/-- TLBR and TLBS read the core's TLB into D; TLBW writes an entry and returns its index, or changes nothing and returns
the reject reason (R366 to R368, R373). TLBI_A, TLBI_T, TLBI_T_FORCE, TLBI_ALL and TLBI_ALL_FORCE clear V of exactly the
valid entries they name, TLBI_T and TLBI_ALL sparing locked ones, and leave the rest of each entry and all else as it was
(R380). -/
def Obligations.TlbInstructions : Prop :=
  (∀ (s : State) (at_ : At) (f : RF),
    let x := ctxOf at_
    let k := s.coreOf x
    let a := (s.gr x f.a).pay
    let b := (s.gr x f.b).pay
    s.ready at_ 4 = true → f.rsv = 0 → (s.ctx x).ring ≤ 1 → immForm (s.gr x f.a) = true → immForm (s.gr x f.b) = true →
    (∃ t, exec (.tlbr at_ f) s = .next t ∧
      WroteReg s x 4 f.d (Word.raw (if bit b 0 then ((s.core k).ent (fld a 7 0)).attr else ((s.core k).ent (fld a 7 0)).tagw)) t) ∧
    (∃ t, exec (.tlbs at_ f) s = .next t ∧
      WroteReg s x 4 f.d (match (s.core k).tlbFind (fld a 47 0) (fld b 11 0) with
        | some i => Word.fixN i
        | none => Word.nil) t) ∧
    (∀ r, (s.core k).tlbw a b = .reject r → ∃ t, exec (.tlbw at_ f) s = .next t ∧ WroteReg s x 4 f.d (Word.rawN r) t) ∧
    (∀ i c, (s.core k).tlbw a b = .wrote i c → ∃ t, exec (.tlbw at_ f) s = .next t ∧ OnlyCore s x k t ∧ t.core k = c ∧
      (f.d ≠ 0 → t.gr x f.d = Word.fixN i) ∧
      ∀ r, r ≠ regKey (s.ctx x).bank f.d → (t.ctx x).rdKey r = (s.ctx x).rdKey r)) ∧
  (∀ (i : Instr) (s : State) (at_ : At) (a : BitVec 5),
    let x := ctxOf at_
    let k := s.coreOf x
    tlbiRow i = some (at_, a) → s.ready at_ 4 = true → immForm (s.gr x a) = true → (s.ctx x).ring ≤ 1 → Tbl.rising 0 (s.core k).tlb = true →
    ∃ t, exec i s = .next t ∧ OnlyCore s x k t ∧ (∀ r, (t.ctx x).rdKey r = (s.ctx x).rdKey r) ∧
      t.core k = { s.core k with tlb := (t.core k).tlb } ∧
      ∀ n, (t.core k).ent n =
        (if ((s.core k).ent n).v && tlbiHits i (s.gr x a) ((s.core k).ent n) then ((s.core k).ent n).inval else (s.core k).ent n))

/-- FENCE_L, FENCE_S, FENCE, FENCE_IO, ISYNC, NOP, CKPT at ring 0, and BRK with debug access shut, at a core in split or solo
mode whose stores are all acknowledged, go on and change nothing (R107, R412, R424, R498, R512). -/
def Obligations.FencesPass : Prop :=
  ∀ (s : State) (at_ : At) (i : Instr),
    let x := ctxOf at_
    i ∈ [.fenceL at_ {}, .fenceS at_ {}, .fence at_ {}, .fenceIo at_ {}, .isync at_ {}, .nop at_ {}, .ckpt at_ {}, .brk at_ {}] →
    s.ready at_ 4 = true → s.isTight x = false → s.isLoose x = false → s.lastPosted x = none →
    (i = .ckpt at_ {} → (s.ctx x).ring = 0) → (i = .brk at_ {} → (s.sec.attached && s.debugAllowed) = false) →
    ∃ t, exec i s = .next t ∧ WentTo s x ((s.ctx x).pc + 4) t

/-! ### Control (R166 to R196) -/

/-- BR, BCC, BTAG, JMPR and a LOOP with count 0, ready, go to the target that the spec gives, a branch not taken to the next
instruction, and change nothing else (R167 to R173, R179). -/
def Obligations.Branches : Prop :=
  ∀ (i : Instr) (s : State) (at_ : At) (pc : Pay),
    s.branchRow i = some (at_, pc) → s.ready at_ 4 = true → ∃ t, exec i s = .next t ∧ WentTo s (ctxOf at_) pc t

/-- LOOP with a count other than 0 opens level 0 of an idle nest: LS is the next instruction, LE the end slot with the ring,
LC the count (R177 to R179). An instruction in the end slot then goes back to LS and counts down, or, at count 1, closes the
level and goes on (R180). -/
def Obligations.HardwareLoops : Prop :=
  ∀ (s : State) (at_ : At),
    let x := ctxOf at_
    let c := s.ctx x
    s.ready at_ 4 = true →
    (∀ (a : BitVec 5) (ns : BitVec 16), immForm (s.gr x a) = true → fld (s.gr x a).pay 31 0 ≠ 0 →
      ∃ t, exec (.loop at_ a 0 ns) s = .next t ∧ Moved s x (c.pc + 4)
        [(Sr.ls0, (c.pc + 4) &&& maskFld 47 2),
         (Sr.le0, ((c.pc + p64 (4 * (ns.toNat + 1))) &&& maskFld 47 2) ||| p64 c.ring), (Sr.lc0, p64 (fld (s.gr x a).pay 31 0))] [] t) ∧
    (∀ (ls n : Pay) (u : State), n ≠ 0 → goodTarget c.pc = true →
      u = s.setCtx x (((c.setSp Sr.ls0 ls).setSp Sr.le0 (c.pc ||| p64 c.ring)).setSp Sr.lc0 n) → u.fetches x c.pc = true →
      ∃ t, exec (.nop at_ {}) u = .next t ∧
        Moved u x (if 1#64 < n then ls else c.pc + 4) [(Sr.lc0, if 1#64 < n then n - 1 else 0)] [] t)

/-- CALL and CALLR push RAW : PC + 4 on the stack of the current ring and go to their target; RET pops a RAW word there
and goes to it (R172, R173). CALLG goes through a gate its ring may use: at the gate's ring, PC + 4 and PS on that ring's
stack, PC at its entry. RETG pops PS and PC from the stack of the current ring and restores them, to a ring no lower
(R468, R469). -/
def Obligations.CallsReturnsAndGates : Prop :=
  (∀ (s : State) (at_ : At),
    let x := ctxOf at_
    let c := s.ctx x
    let no := Sr.sp0 + c.ring
    let sp := c.sp no
    s.ready at_ 4 = true → goodSp sp = true →
    (∀ (i : Instr) (target : Pay) (key : Nat), s.callRow i = some (at_, target) → 8 ≤ sp.toNat →
      s.pushAt x c.ring (sp - 8) = some key →
      ∃ t, exec i s = .next t ∧ Moved s x target [(no, sp - 8)] [key] t ∧ t.word key = Word.raw (c.pc + 4)) ∧
    (∀ w : Word, sp.toNat ≤ 2 ^ 48 - 8 → s.popAt x c.ring sp = some w → w.tag = Tag.raw → goodTarget w.pay = true →
      ∃ t, exec (.ret at_ {}) s = .next t ∧ Moved s x w.pay [(no, sp + 8)] [] t)) ∧
  (∀ (s : State) (at_ : At),
    let x := ctxOf at_
    let c := s.ctx x
    s.ready at_ 4 = true →
    (∀ (a : BitVec 5) (d : Pay) (k0 k1 : Nat),
      let r := fld d 63 62
      let sp := c.sp (Sr.sp0 + r)
      immForm (s.gr x a) = true → s.gate x (fld (s.gr x a).pay 9 0) = some d → c.ring ≤ fld d 61 60 → r ≤ c.ring → goodSp sp = true → 16 ≤ sp.toNat →
      s.pushAt x r (sp - 8) = some k0 → s.pushAt x r (sp - 16) = some k1 → k0 / 8 ≠ k1 / 8 →
      ∃ t, exec (.callg at_ { a := a }) s = .next t ∧
        Moved s x (atFld 47 2 (fld d 47 2)) [(Sr.sp0 + r, sp - 16), (Sr.ps, setFld (c.sp Sr.ps) 1 0 r)] [k0, k1] t ∧
        t.word k0 = Word.raw (c.pc + 4) ∧ t.word k1 = Word.raw (c.sp Sr.ps)) ∧
    (∀ ps pc : Word,
      let sp := c.sp (Sr.sp0 + c.ring)
      goodSp sp = true → sp.toNat ≤ 2 ^ 48 - 16 → s.popAt x c.ring sp = some ps → s.popAt x c.ring (sp + 8) = some pc →
      ps.tag = Tag.raw → pc.tag = Tag.raw → c.ring ≤ fld ps.pay 1 0 → goodTarget pc.pay = true →
      ∃ t, exec (.retg at_ {}) s = .next t ∧
        Moved s x pc.pay [(Sr.sp0 + c.ring, sp + 16), (Sr.ps, psRestore ps.pay c.em)] [] t))

/-- RETE takes the frame off the stack it was put on: PC, PS (IE, SGO, TE, EM and RING; at ring 2 or 3 SGO and TE stay) and
the pending loads of a shadow frame come back, the stack pointer rises by 64 and TB is cleared (R136, R234, R463). -/
def Obligations.ReturnFromException : Prop :=
  ∀ (s : State) (at_ : At) (w : Nat → Word),
    let x := ctxOf at_
    let c := s.ctx x
    let no := spNo c.ring c.em
    let sp := c.sp no
    let p := (w 1).pay
    let ps := psRestore p (bit p 9)
    s.ready at_ 4 = true → goodSp sp = true → sp.toNat ≤ 2 ^ 48 - 64 →
    (∀ i, i < 8 → s.popAt x c.ring (sp + p64 (8 * i)) = some (w i)) → (∀ i, i < 4 → (w i).tag = Tag.raw) →
    c.ring ≤ fld p 1 0 → (bit p 15 = true → shadowOk (w 5).pay = true ∧
      ∀ l ∈ shadowLoads (w 5).pay (w 6) (w 7), isReservedTag l.val.tag = false) → goodTarget (w 0).pay = true →
    ∃ t, exec (.rete at_ {}) s = .next t ∧
      Moved s x (w 0).pay [(no, sp + 64), (Sr.ps, if c.ring ≤ 1 then ps else setFld ps 5 4 (fld (c.sp Sr.ps) 5 4)),
        (Sr.winb, setBit (c.sp Sr.winb) 31 false)] [] t ∧
      (t.ctx x).tb = false ∧ (t.ctx x).loads = (if bit p 15 then shadowLoads (w 5).pay (w 6) (w 7) else [])

/-- TRAP n enters vector 128 + n with the next instruction's address in its frame, and ILLEGAL_INSTRUCTION enters vector 4
with the cause of the first check that its word fails and its own address (R106 to R109, R438, R444 to R447, R464).
EVENT_LINE_ENTRY, STORE_BUS_ERROR, DEFERRED_MACHINE_CHECK and TWIN_EVENT, each the asynchronous exception that a context
at a boundary is to take next, enter their vectors with the address of the next instruction, and the line, error or check
that was taken is no longer pending (R438, R455 to R458, R470, R516). -/
def Obligations.ExceptionEntries : Prop :=
  (∀ (s : State) (at_ : At) (en : Entry),
    let x := ctxOf at_
    let pc := (s.ctx x).pc
    s.ready at_ 4 = true → (s.ctx x).tb = false →
    (∀ n : BitVec 16, n.toNat < 128 →
      s.entryOf x { vec := 128 + n.toNat, cause := p64 n.toNat } = some en →
      ∃ t, exec (.trap at_ { imm := n }) s = .next t ∧ Entered s x (pc + 4) { vec := 128 + n.toNat, cause := p64 n.toNat } en t) ∧
    (∀ (w : Word) (e : Exc),
      decodeFault (fun n => (Tbl.look (s.core (s.coreOf x)).decode n).isSome) w (bit pc 2) = some e → s.entryOf x e = some en →
      ∃ t, exec (.illegalInstruction at_ w) s = .next t ∧ Entered s x pc e en t)) ∧
  (∀ (s : State) (x : BitVec 8) (longNext : Bool) (en : Entry),
    let c := s.ctx x.toNat
    s.calm = true → s.powered x.toNat = true → c.atBoundary = true → c.stepping = false → (c.fresh && longNext) = false →
    (∀ l ls, s.async x.toNat = some .line → c.lines = l :: ls →
      s.entryOf x.toNat { vec := 64 + l.n, cause := p64 l.n, x0 := ⟨Tag.tick, l.time⟩ } = some en →
      ∃ t, exec (.eventLineEntry x longNext) s = .next t ∧ (t.ctx x.toNat).lines = ls ∧
        Entered s x.toNat c.pc { vec := 64 + l.n, cause := p64 l.n, x0 := ⟨Tag.tick, l.time⟩ } en t) ∧
    (∀ b bs, s.async x.toNat = some .sbe → c.sbes = b :: bs →
      s.entryOf x.toNat { vec := 14, cause := p64 b.cause, fa := b.addr, x0 := Word.raw b.pc } = some en →
      ∃ t, exec (.storeBusError x longNext) s = .next t ∧ (t.ctx x.toNat).sbes = bs ∧
        Entered s x.toNat c.pc { vec := 14, cause := p64 b.cause, fa := b.addr, x0 := Word.raw b.pc } en t) ∧
    (∀ m ms, s.async x.toNat = some .mcheck → c.mcs = m :: ms →
      s.entryOf x.toNat { vec := 2, cause := p64 m.cause, fa := m.addr } = some en →
      ∃ t, exec (.deferredMachineCheck x longNext) s = .next t ∧ (t.ctx x.toNat).mcs = ms ∧
        Entered s x.toNat c.pc { vec := 2, cause := p64 m.cause, fa := m.addr } en t) ∧
    (s.async x.toNat = some .twin →
      let w := s.logWord s.oldestLog 0
      s.entryOf x.toNat { vec := 3, cause := atFld 7 0 (fld w 63 56) ||| atFld 12 8 (fld w 55 51), x0 := Word.rawN s.oldestLog } = some en →
      ∃ t, exec (.twinEvent x longNext) s = .next t ∧
        Entered s x.toNat c.pc { vec := 3, cause := atFld 7 0 (fld w 63 56) ||| atFld 12 8 (fld w 55 51), x0 := Word.rawN s.oldestLog } en t))

/-! ### Events and waits (R197 to R213) -/

/-- WFE and WAITT consume a set event latch and go on, WAITT with FIX : 1; with the latch clear WFE waits, and WAITT gives
FIX : 0 once CYC has reached its deadline and waits before (R199, R205, R206). AGREE in a twin that is not loose returns
the input that its selector names, TICK for device time and FIX otherwise: an EVT level, all of them, a Pulse Unit counter
or level, or the time (R209 to R211). EVENT_LATCH_SET and SEV set the latch of the presented context while it executes;
one that waits in WFE goes on instead, its latch clear again. WAITT_DEADLINE ends a WAITT with FIX : 0 (R197, R199, R202,
R205, R206, R477). -/
def Obligations.WaitsAndEvents : Prop :=
  ((∀ (s : State) (at_ : At) (f : RF),
    let x := ctxOf at_
    let c := s.ctx x
    s.ready at_ 4 = true → f.b = 0 → f.rsv = 0 →
    (c.latch = true →
      (∃ t, exec (.wfe at_ {}) s = .next t ∧ (t.ctx x).latch = false ∧ (t.ctx x).pc = c.pc + 4 ∧ (t.ctx x).run = .run ∧
        t = { s with ctxs := t.ctxs, twins := t.twins } ∧ (∀ k, (t.ctx x).rdKey k = c.rdKey k)) ∧
      (∃ t, exec (.waitt at_ f) s = .next t ∧ (t.ctx x).latch = false ∧ (t.ctx x).pc = c.pc + 4 ∧
        t = { s with ctxs := t.ctxs, twins := t.twins } ∧ (f.d ≠ 0 → t.gr x f.d = Word.fix 1) ∧
        (∀ k, k ≠ regKey c.bank f.d → (t.ctx x).rdKey k = c.rdKey k))) ∧
    (c.latch = false →
      (∃ t, exec (.wfe at_ {}) s = .next t ∧ t = { s with ctxs := t.ctxs } ∧ t.ctx x = { c with run := .wfe }) ∧
      (immForm (s.gr x f.a) = true → (s.gr x f.a).pay ≤ (s.core (s.coreOf x)).sp Sr.cyc →
        ∃ t, exec (.waitt at_ f) s = .next t ∧ WroteReg s x 4 f.d (Word.fix 0) t) ∧
      (immForm (s.gr x f.a) = true → (s.core (s.coreOf x)).sp Sr.cyc < (s.gr x f.a).pay →
        ∃ t, exec (.waitt at_ f) s = .next t ∧ t = { s with ctxs := t.ctxs } ∧
          t.ctx x = { c with run := .waitt f.d (s.gr x f.a).pay }))) ∧
  (∀ (s : State) (at_ : At) (f : RF) (v : Pay),
    let sel := fld (s.gr (ctxOf at_) f.a).pay 15 0
    s.ready at_ 4 = true → f.rsv = 0 → s.isLoose (ctxOf at_) = false →
    immForm (s.gr (ctxOf at_) f.a) = true → immForm (s.gr (ctxOf at_) f.b) = true →
    ((sel < 16 ∧ v = p64 (b2n (s.evt.getLsbD sel))) ∨ (sel = 0x10 ∧ v = p64 s.evt.toNat)
      ∨ (0x100 ≤ sel ∧ sel < 0x140 ∧ v = p64 (s.rf (oPls + 0x1000 + 0x20 * (sel - 0x100) + 0x18) 31 0))
      ∨ (0x200 ≤ sel ∧ sel < 0x240 ∧ v = p64 (s.rf (oPls + 0x1000 + 0x20 * (sel - 0x200)) 61 61))
      ∨ (sel = 0x300 ∧ v = s.time)) →
    ∃ t, exec (.agree at_ f none) s = .next t ∧
      WroteReg s (ctxOf at_) 4 f.d ⟨if sel = 0x300 then Tag.tick else Tag.fix, v⟩ t)) ∧
  (∀ (s : State) (y : BitVec 8),
    let p := s.presented y.toNat
    let c := s.ctx p
    s.calm = true →
    (s.powered p = true → s.isLoose p = false → c.run = .run →
      (∃ t, exec (.eventLatchSet y) s = .next t ∧ t = { s with ctxs := t.ctxs } ∧ t.ctx p = { c with latch := true } ∧
        ∀ z, z ≠ p → t.ctx z = s.ctx z) ∧
      (∀ (at_ : At) (a : BitVec 5), s.ready at_ 4 = true → s.isTight (ctxOf at_) = false → s.isLoose (ctxOf at_) = false →
        immForm (s.gr (ctxOf at_) a) = true → fld (s.gr (ctxOf at_) a).pay 7 0 = y.toNat → s.lastPosted (ctxOf at_) = none →
        ∃ t, exec (.sev at_ { a := a }) s = .next t ∧ t = { s with ctxs := t.ctxs } ∧ (t.ctx p).latch = true ∧
          (t.ctx (ctxOf at_)).pc = (s.ctx (ctxOf at_)).pc + 4 ∧ (∀ k z, (t.ctx z).rdKey k = (s.ctx z).rdKey k) ∧
          ∀ z, z ≠ p → z ≠ ctxOf at_ → t.ctx z = s.ctx z)) ∧
    (s.powered p = true → s.isLoose p = false → c.run = .wfe → c.loads = [] → c.innermost = none →
      s.async p = none →
      ∃ t, exec (.eventLatchSet y) s = .next t ∧ (t.ctx p).run = .run ∧ (t.ctx p).latch = false ∧ (t.ctx p).pc = c.pc + 4 ∧
        ∀ k, (t.ctx p).rdKey k = c.rdKey k) ∧
    (∀ (d : BitVec 5) (dl : Pay),
      let e := s.ctx y.toNat
      e.run = .waitt d dl → s.powered y.toNat = true → e.latch = false → e.loads = [] → e.innermost = none →
      s.async y.toNat = none →
      ∃ t, exec (.waittDeadline y) s = .next t ∧ (t.ctx y.toNat).run = .run ∧ (t.ctx y.toNat).pc = e.pc + 4 ∧
        (d ≠ 0 → t.gr y.toNat d = Word.fix 0) ∧ dl ≤ (t.core (s.coreOf y.toNat)).sp Sr.cyc))

/-! ### Windows, long instructions, repeats and customer slots (R190 to R287) -/

/-- CALLW with a free bank makes the next bank current, all NIL, and clears TB; RETW with more than one bank resident and TB
clear makes the one before current. MOVWB_F and MOVWB_T move a word from and to the bank and context that WINB names
(R229, R230, R242, R244). -/
def Obligations.RegisterWindows : Prop :=
  ∀ (s : State) (at_ : At) (f : RF),
    let x := ctxOf at_
    let c := s.ctx x
    let h := (c.home + 1) % 7
    let y := x / 4 * 4 + c.sctx
    s.ready at_ 4 = true → f.b = 0 → f.rsv = 0 →
    (c.nres ≠ 7 → ∃ t, exec (.callw at_ {}) s = .next t ∧ OnlyCtx s x t ∧ (t.ctx x).home = h ∧ (t.ctx x).tb = false ∧
      (t.ctx x).old = c.old ∧ (∀ r : BitVec 5, 16 ≤ r.toNat → t.gr x r = Word.nil) ∧
      (∀ k, (k < 16 + 16 * h ∨ 32 + 16 * h ≤ k) → (t.ctx x).rdKey k = c.rdKey k) ∧ (t.ctx x).pc = c.pc + 4) ∧
    (c.tb = false → c.nres ≠ 1 → ∃ t, exec (.retw at_ {}) s = .next t ∧ OnlyCtx s x t ∧ (t.ctx x).home = (c.home + 6) % 7 ∧
      (t.ctx x).old = c.old ∧ (∀ k, (t.ctx x).rdKey k = c.rdKey k) ∧ (t.ctx x).pc = c.pc + 4) ∧
    (c.ring ≤ 1 →
      (isReservedTag ((s.ctx y).rdKey (regKey c.sbank f.a)).tag = false →
        ∃ t, exec (.movwbF at_ f) s = .next t ∧ WroteReg s x 4 f.d ((s.ctx y).rdKey (regKey c.sbank f.a)) t) ∧
      (isReservedTag (s.gr x f.a).tag = false → ∃ t, exec (.movwbT at_ f) s = .next t ∧ t = { s with ctxs := t.ctxs, twins := t.twins } ∧
        (f.d ≠ 0 → (t.ctx y).rdKey (regKey c.sbank f.d) = s.gr x f.a) ∧
        (∀ k, k ≠ regKey c.sbank f.d → (t.ctx y).rdKey k = (s.ctx y).rdKey k) ∧
        (∀ z, z ≠ x → z ≠ y → t.ctx z = s.ctx z) ∧ (t.ctx x).pc = c.pc + 4))

/-- One element of MOVB, FILLB, SCANM or SCANC: a word goes to the address in D, or is compared, the address registers rise by
8 and the count in B falls by 1, and the instruction is over when the count reaches 0, when it was 0, or when a scan finds its
word; else it stands at its own address (R214 to R216, R219). -/
def Obligations.LongElements : Prop :=
  ∀ (s : State) (at_ : At) (f : RF),
    let x := ctxOf at_
    let c := s.ctx x
    let d := s.gr x f.d
    let a := s.gr x f.a
    let b := s.gr x f.b
    let good (w : Word) : Prop := (isBasePtr w.tag = true ∨ (w.tag = Tag.raw ∧ c.ring ≠ 3)) ∧ goodSp w.pay = true
      ∧ s.heapAt (s.hen x) w.pay.toNat = none
    let after (t : State) (k : BitVec 5) (old : Word) : Prop := t.gr x k = ⟨old.tag, old.pay + 8⟩
    let counted (t : State) : Prop := t.gr x f.b = Word.fix (b.pay - 1) ∧ (t.ctx x).pc = (if b.pay = 1 then c.pc + 4 else c.pc)
    s.ready at_ 4 = true → f.rsv = 0 → b.tag = Tag.fix → b.pay.toNat ≤ 0xFFFFFFFF →
    f.d ≠ 0 → f.a ≠ 0 → f.b ≠ 0 → f.d ≠ f.a → f.d ≠ f.b → f.a ≠ f.b →
    (b.pay = 0 → good d → good a →
      (∃ t, exec (.movb at_ f 0) s = .next t ∧ WentTo s x (c.pc + 4) t) ∧ (∃ t, exec (.fillb at_ f 0) s = .next t ∧ WentTo s x (c.pc + 4) t) ∧
      (∃ t, exec (.scanm at_ f 0) s = .next t ∧ WentTo s x (c.pc + 4) t)) ∧
    (∀ (key pa : Nat) (o : Word), b.pay ≠ 0 → good d → s.slotAt x d.pay = some (key, pa, o) →
      (storedValue c.ring a = none → s.noBarrier x o a = true →
        ∃ t, exec (.fillb at_ f 0) s = .next t ∧ t = { s with ctxs := t.ctxs, mem := t.mem, tags := t.tags } ∧ t.word key = a ∧
          (∀ k, k / 8 ≠ key / 8 → t.byte k = s.byte k ∧ t.tagAt k = s.tagAt k) ∧ after t f.d d ∧ t.gr x f.a = a ∧ counted t) ∧
      (∀ w : Word, good a → s.metAt x a.pay = some w → s.delivers x w = true → storedValue c.ring w = none → s.noBarrier x o w = true →
        ∃ t, exec (.movb at_ f 0) s = .next t ∧ t = { s with ctxs := t.ctxs, mem := t.mem, tags := t.tags } ∧ t.word key = w ∧
          (∀ k, k / 8 ≠ key / 8 → t.byte k = s.byte k ∧ t.tagAt k = s.tagAt k) ∧ after t f.d d ∧ after t f.a a ∧ counted t)) ∧
    (∀ w : Word, b.pay ≠ 0 → good a → s.metAt x a.pay = some w →
      (s.heapPtr (s.hen x) w = none → s.heapPtr (s.hen x) d = none →
        (w = d → ∃ t, exec (.scanm at_ f 0) s = .next t ∧ WentTo s x (c.pc + 4) t) ∧
        (w ≠ d → ∃ t, exec (.scanm at_ f 0) s = .next t ∧ t.mem = s.mem ∧ t.tags = s.tags ∧ t.gr x f.d = d ∧ after t f.a a ∧ counted t)) ∧
      (d.tag = Tag.fix → d.pay.toNat ≤ 0xFFFF →
        (w.tag.toNat &&& fld d.pay 15 8 = fld d.pay 7 0 → ∃ t, exec (.scanc at_ f 0) s = .next t ∧ WentTo s x (c.pc + 4) t) ∧
        (w.tag.toNat &&& fld d.pay 15 8 ≠ fld d.pay 7 0 →
          ∃ t, exec (.scanc at_ f 0) s = .next t ∧ t.mem = s.mem ∧ t.tags = s.tags ∧ t.gr x f.d = d ∧ after t f.a a ∧ counted t)))

/-- SAVEH stores the next word of the save area that A names and counts it in B, and after the last one returns the LINK to the
area in D. REST loads the next register of the lower half and counts it, a register that it names keeping its progress value, and after the
last element returns the area's word 0 in D (R246 to R251, R254). The rings are 0 and 1, and A is a pointer or RAW. -/
def Obligations.SaveAreas : Prop :=
  ∀ (s : State) (at_ : At) (f : RF) (base : Pay),
    let x := ctxOf at_
    let c := s.ctx x
    let b := s.gr x f.b
    let h := fld b.pay 8 8
    let e := fld b.pay 7 0
    let size := if h = 0 then 29 else 2 + 16 * c.nres
    s.ready at_ 4 = true → f.rsv = 0 → c.ring ≤ 1 → f.d ≠ 0 → f.b ≠ 0 → f.d ≠ f.b → (s.gr x f.a).tag ≠ Tag.pref → immForm b = true →
    fld (base + p64 (8 * e)) 63 48 = 0 → s.heapAt (s.hen x) (base + p64 (8 * e)).toNat = none →
    (∀ (key pa : Nat) (o : Word), s.ea x (s.gr x f.a) 0 8 true = some base → e < size →
      isReservedTag (s.saveWord x h e (s.gr x f.d)).tag = false → s.slotAt x (base + p64 (8 * e)) = some (key, pa, o) →
      ∃ t, exec (.saveh at_ f 0) s = .next t ∧ t = { s with ctxs := t.ctxs, mem := t.mem, tags := t.tags } ∧
        t.word key = s.saveWord x h e (s.gr x f.d) ∧
        (∀ k, k / 8 ≠ key / 8 → t.byte k = s.byte k ∧ t.tagAt k = s.tagAt k) ∧ t.gr x f.b = Word.fixN (256 * h + e + 1) ∧
        t.gr x f.d = (if e + 1 = size then ⟨Tag.link, (s.gr x f.a).pay⟩ else s.gr x f.d) ∧
        (t.ctx x).pc = (if e + 1 = size then c.pc + 4 else c.pc)) ∧
    (∀ w : Word, s.ea x (s.gr x f.a) 0 8 false = some base → h = 0 → isReservedTag w.tag = false →
      (2 ≤ e → e < 18 → s.metAt x (base + p64 (8 * e)) = some w →
        ∃ t, exec (.rest at_ f 0) s = .next t ∧ t.mem = s.mem ∧ t.tags = s.tags ∧
          (e ≠ 2 → e - 2 ∉ [f.d.toNat, f.a.toNat, f.b.toNat] → (t.ctx x).rdKey (e - 2) = w) ∧
          t.gr x f.d = s.gr x f.d ∧ (f.a ≠ f.b → t.gr x f.a = s.gr x f.a) ∧
          t.gr x f.b = Word.fixN (e + 1) ∧ (t.ctx x).pc = c.pc) ∧
      (29 ≤ e → fld base 63 48 = 0 → s.heapAt (s.hen x) base.toNat = none → s.metAt x base = some w →
        ∃ t, exec (.rest at_ f 0) s = .next t ∧ WroteReg s x 4 f.d w t))

/-- REP with RPC at 0 passes every target that its decode checks and R191 let it repeat, and goes on behind it. REP of a NOP runs it
as often as RPC says and ends with RPC at 0 behind it (R190, R191, R193). -/
def Obligations.RepeatCounts : Prop :=
  ∀ (s : State) (at_ : At) (w : Word) (lim : Nat),
    let x := ctxOf at_
    let pc := (s.ctx x).pc
    let slot (n : Nat) : Option Pay := Tbl.look (s.core (s.coreOf x)).decode n
    let i := halfOf w.pay (bit (pc + 4) 2)
    let size := if insMajor i = 0x3F then 8 else 4
    s.ready at_ 4 = true → s.fetches x (pc + 4) = true →
    (decodeFault (fun n => (slot n).isSome) w (bit (pc + 4) 2) = none → reservedOk slot i (fld w.pay 63 32) = true →
      repForbids slot i (fld w.pay 63 32) = false → (s.ctx x).sp Sr.rpc = 0 →
      ∃ t, exec (.rep at_ 0 w .clean lim) s = .next t ∧ WentTo s x (pc + 4 + p64 size) t) ∧
    (w.tag = Tag.insn → i = 0xB4000000 → (bit (pc + 4) 2 = true → insMajor (fld w.pay 31 0) ≠ 0x3F) →
      ((s.ctx x).sp Sr.rpc).toNat ≤ lim + 1 →
      ∃ t, exec (.rep at_ 0 w .clean lim) s = .next t ∧ OnlyCtx s x t ∧ (t.ctx x).sp Sr.rpc = 0 ∧ (t.ctx x).pc = pc + 8 ∧
        (∀ k, (t.ctx x).rdKey k = (s.ctx x).rdKey k) ∧ ∀ n, n ≠ Sr.rpc → n ≠ Sr.pc → (t.ctx x).sp n = (s.ctx x).sp n)

/-! ### Reset, modes, clocks (R649 to R680) -/

/-- The machine right after a power-on reset: Boot, reset cause 1 with count 0, every twin tight, only context 0 started, at
ring 0 with translation and event lines off at the Boot ROM, every other register at its reset value, every general register
NIL, the time 0, no command waiting and no wake request left standing (R98, R474, R649, R656, R659). The reset values the spec does not state are the
model's (assumptions 1, 3). -/
def Obligations.ResetState : Prop :=
  let s := State.reset
  let c := s.ctx 0
  s.mode = mBoot ∧ s.rf 0x38 63 56 = 1 ∧ s.rf 0x38 31 0 = 0 ∧ (∀ t, (s.twin t).mode = .tight) ∧ s.sys.inReset = false ∧
  c.started = true ∧ c.ring = 0 ∧ c.te = false ∧ c.ie = false ∧ c.pc = 0x7FFFFFF00000 ∧ (∀ x, x ≠ 0 → (s.ctx x).started = false) ∧
  (∀ x (r : BitVec 5), (s.ctx x).rd r = Word.nil) ∧ s.time = 0 ∧ s.pending = [] ∧ ¬ s.wakeMissed ∧
  ∀ off, off ≠ 0x38 → (off < 0x100 ∨ 0x138 < off) → s.reg off = regReset off

/-- With no command waiting, nothing to carry out, no transaction in the table and no context in WAITT, a step is one REFCLK cycle:
device time takes SYS_TIMEINC and CYC of each core that has power counts its clock's cycles; nothing else changes (R207, R667,
R671). A context alone in WAITT whose deadline the cycle reaches goes on, with FIX : 0 in D (R205). That an empty queue lets a
cycle pass is the model's choice (assumption 10). -/
def Obligations.IdleStepsPassTime : Prop :=
  ∀ s : State, s.pending = [] → s.calm = true → (∀ u ∈ s.txns, u.inTable = false) →
    let f := s.timeFrac + s.timeInc.2
    let cyc (k : Nat) : Pay := (s.core k).sp Sr.cyc +
      (if s.sys.inReset = false ∧ k < 64 ∧ s.clOn (clusterOfCore k) = true then p64 (s.cyclesPerRef (clusterOfCore k)) else 0)
    ((∀ e ∈ s.ctxs, ∀ d dl, e.2.run ≠ .waitt d dl) →
      ∃ t, step s = .next t ∧ t = { s with time := t.time, timeFrac := t.timeFrac, cores := t.cores } ∧
        t.time = s.time + p64 (s.timeInc.1 + f / 2 ^ 32) ∧ t.timeFrac = f % 2 ^ 32 ∧
        (∀ k n, n ≠ Sr.cyc → (t.core k).sp n = (s.core k).sp n) ∧ ∀ k, (t.core k).sp Sr.cyc = cyc k) ∧
    (∀ (x : Nat) (d : BitVec 5) (dl : Pay),
      let c := s.ctx x
      c.run = .waitt d dl → (∀ e ∈ s.ctxs, e.1 ≠ x → ∀ d dl, e.2.run ≠ .waitt d dl) → Tbl.rising 0 s.ctxs = true →
      s.sys.inReset = false → s.powered x = true → c.latch = false → c.loads = [] → c.innermost = none → s.async x = none →
      dl ≤ cyc (s.coreOf x) → d ≠ 0 →
      ∃ t, step s = .next t ∧ (t.ctx x).run = .run ∧ (t.ctx x).pc = c.pc + 4 ∧ t.gr x d = Word.fix 0 ∧
        ∀ y, y ≠ x → t.ctx y = s.ctx y)

/-- No wake request is left standing in Quiet: after any command it is not so, and a step on an empty queue keeps that
(R673). -/
def Obligations.WakesNeverWait : Prop :=
  ∀ s t : State, (s.pending = [] → ¬ s.wakeMissed) → step s = .next t → ¬ t.wakeMissed

/-- POWER_ON, RST_N_LOW, REFCLK_LOSS, RESET, MODE_REQ_RESET_DELAY, OVERTEMPERATURE_RESET and RAIL_OUT_OF_TOLERANCE start a
device reset of causes 1, 2, 5, 3, 4, 6 and 1 (R655, R656, R797). RST_N_RISE in reset samples the straps.
INTERNAL_RESET_END, with nothing that holds the reset, starts context 0 alone at the Boot ROM in Boot; DDR_TRAINING_END
lets the Ledger know that DRAM is trained (R13, R656, R659, R660). -/
def Obligations.DeviceResetAndBoot : Prop :=
  (∀ s : State,
    (∀ low, ∃ t, exec (.powerOn low) s = .next t ∧ ResetBy s 1 t ∧ t.sys.rstLow = low) ∧
    (s.sys.inReset = false → s.pwr.glaze = none → ∃ t, exec .rstNLow s = .next t ∧ ResetBy s 2 t ∧ t.sys.rstLow = true) ∧
    (∃ t, exec .refclkLoss s = .next t ∧ ResetBy s 5 t) ∧
    (∀ src, s.calm = true → s.canWrite src 0x18 (atFld 63 60 5) = true → src.code.toNat < 4 → s.modeBusy = false →
      ∃ t, exec (.reset src) s = .next t ∧ ResetBy s 3 t) ∧
    (∀ tm, s.sys.resetAt = some tm → tm.toNat ≤ s.time.toNat → ∃ t, exec .modeReqResetDelay s = .next t ∧ ResetBy s 4 t) ∧
    (∀ (n : BitVec 3) (tj : BitVec 8), 229 ≤ tj.toNat →
      ∃ t, exec (.overtemperatureReset n tj) s = .next t ∧ ResetBy s 6 t ∧ t.sys.hot = true ∧ t.rf (clkReg n.toNat) 63 56 = tj.toNat) ∧
    (s.sys.rstLow = false → ∃ t, exec .railOutOfTolerance s = .next t ∧ ResetBy s 1 t)) ∧
  (∀ s : State, s.calm = true →
    (∀ (dn : BitVec 3) (dc : BitVec 2) (ds : Bool), s.sys.inReset = true → s.sys.rstLow = true →
      ∃ t, exec (.rstNRise dn dc ds) s = .next t ∧ t = { s with sys := { s.sys with rstLow := false }, dnum := dn, dcfg := dc, dspd := ds }) ∧
    (s.sys.inReset = true → s.sys.rstLow = false → s.sys.hot = false → s.pwr.glaze = none → s.pwr.cut = false → s.kept = true →
      ∃ t, exec .internalResetEnd s = .next t ∧ t.sys.inReset = false ∧ t.mode = mBoot ∧ t.ctxs = [(0, Ctx.boot)] ∧
        t.mem = s.mem ∧ t.cores = s.cores ∧ t.twins = s.twins ∧ ∀ off, off ≠ 0x10 → off ≠ 0x28 → t.reg off = s.reg off) ∧
    (s.sys.inReset = false → ∃ t, exec .ddrTrainingEnd s = .next t ∧ t = { s with ldg := { s.ldg with trained := true } }))

/-- SAFEHOLD, SERVICE and RUN, written by a Keeper core, change the mode with RESULT 1 where R650 allows it: Safe-Hold
from Boot, Run, Degraded, Service and Quiet; Service from Run and Degraded; Run, or Degraded while a condition of R652
holds, from Boot after the rebuild, Safe-Hold and Service, with no fault and power in cluster 1. Nothing else changes but
SYS_STAT (R650 to R654, R676). Quiet mode (R672 to R674). QUIET from Run with every heap idle starts the drain, with 100
ms to go; QUIET_DRAIN_DONE, with no command at a gated context, freezes contexts 32 to 255; QUIET_DRAIN_TIMEOUT abandons
the entry with RESULT 4; QUIET_GATED takes power from clusters 1 to 7 and enters Quiet; a wake request starts the wake;
QUIET_WAKE_DONE gives back the twins tight, no gated context started, in Run or Degraded. -/
def Obligations.ModesAndQuiet : Prop :=
  (∀ (s : State) (src : Src), s.calm = true → src.code.toNat < 4 → s.modeBusy = false →
    (s.canWrite src 0x18 (atFld 63 60 2) = true → s.mode ∈ [mBoot, mRun, mDegraded, mService, mQuiet] →
      ∃ t, exec (.safehold src) s = .next t ∧ RegsOnly s [0x10, 0x28] t ∧ t.mode = mSafe ∧ t.rf 0x10 10 8 = s.mode ∧
        t.rf 0x10 14 11 = mrDone) ∧
    (s.canWrite src 0x18 (atFld 63 60 3) = true → s.mode ∈ [mRun, mDegraded] → s.kept = true →
      ∃ t, exec (.service src) s = .next t ∧ RegsOnly s [0x10, 0x28] t ∧ t.mode = mService ∧ t.rf 0x10 10 8 = s.mode ∧
        t.rf 0x10 14 11 = mrDone) ∧
    (s.canWrite src 0x18 (atFld 63 60 1) = true → s.mode ∈ [mBoot, mSafe, mService] → s.faults = false → s.kept = true →
      (s.mode = mBoot → s.ldgStat 63 = false) → s.clOn 1 = true → s.ldg.held = [] →
      ∃ t, exec (.run src) s = .next t ∧ RegsOnly s [0x10, 0x28] t ∧ t.mode = (if t.degraded then mDegraded else mRun) ∧
        t.rf 0x10 14 11 = mrDone)) ∧
  (∀ s : State,
    (∀ src, s.calm = true → src.code.toNat < 4 → s.modeBusy = false → s.canWrite src 0x18 (atFld 63 60 4) = true → s.mode = mRun →
      s.gcBusy = false →
      ∃ t, exec (.quiet src) s = .next t ∧ t = { s with dev := t.dev, sys := { s.sys with quiet := .drain, quietEnd := s.time + 100000000 } } ∧
        t.modeBusy = true ∧ t.mode = mRun) ∧
    (s.calm = true → s.sys.quiet = .drain → s.quietDraining = false → (∀ u, (s.twin u).hold = []) →
      ∃ t, exec .quietDrainDone s = .next t ∧ t = { s with ctxs := t.ctxs, twins := t.twins, sys := { s.sys with quiet := .sweep } } ∧
        (∀ e ∈ s.ctxs, 32 ≤ e.1 → (t.ctx e.1).frozen = true) ∧ (∀ y, y < 32 → t.ctx y = s.ctx y) ∧
        (∀ u, 4 ≤ u → u < 32 → (t.twin u).undo = [])) ∧
    (s.calm = true → s.sys.quiet = .drain → s.sys.autoSafe = false → s.sys.modeReq = none → s.ldg.held = [] → s.kept = true →
      ∃ t, exec .quietDrainTimeout s = .next t ∧ t = { s with dev := t.dev, time := t.time, sys := { s.sys with quiet := .none } } ∧
        t.modeBusy = false ∧ t.rf 0x10 14 11 = mrDrain ∧ s.sys.quietEnd.toNat ≤ t.time.toNat) ∧
    (s.calm = true → s.sys.quiet = .sweep → s.sys.autoSafe = false → s.sys.modeReq = none → s.kept = true →
      (∀ e ∈ s.clusters, 1 ≤ e.1 → ∀ l ∈ e.2.l2, l.2.poison = false) →
      ∃ t, exec .quietGated s = .next t ∧ t.mode = mQuiet ∧ t.modeBusy = false ∧ t.rf 0x10 14 11 = mrDone ∧ t.sys.quiet = .none ∧
        t.mem = s.mem ∧ t.tags = s.tags ∧ (∀ n, 1 ≤ n → n < 8 → t.clOn n = false) ∧
        (∀ x, 32 ≤ x → x < 256 → (t.ctx x).started = false) ∧ ∀ y, y < 32 → t.ctx y = s.ctx y) ∧
    (({ s with sys := { s.sys with wakeReq := false } } : State).calm = true → s.mode = mQuiet → s.sys.quiet = .none →
      s.sys.wakeReq = true →
      ∃ t, exec .quietWake s = .next t ∧ t = { s with dev := t.dev, sys := { s.sys with quiet := .waking, wakeReq := false } } ∧
        t.modeBusy = true ∧ ∀ n ∈ gatedClusters, bit (t.reg (clkReg n)) 16 = false) ∧
    (s.calm = true → s.sys.quiet = .waking → s.sys.autoSafe = false → s.sys.modeReq = none → s.sys.haltReq = none → s.kept = true →
      bit (s.reg (oEvr + 0x1000 + 8 * 0x62)) 63 = false →
      ∃ t, exec .quietWakeDone s = .next t ∧ t.mode = (if t.degraded then mDegraded else mRun) ∧ t.modeBusy = false ∧
        t.rf 0x10 14 11 = mrDone ∧ t.sys.quiet = .none ∧ t.mem = s.mem ∧ (∀ y, y < 32 → t.ctx y = s.ctx y) ∧
        ((∀ e ∈ s.ctxs, e.1 < 32) → t.ctxs = s.ctxs) ∧
        (∀ u, 4 ≤ u → u < 32 → (t.twin u).mode = .tight) ∧ ∀ n ∈ gatedClusters, bit (t.reg (clkReg n)) 17 = true))

/-- The watch: FEED with a period other than 0 arms it for min(period, 1,000) ms from now, WATCH_PERIOD_WRITE restarts an
armed one and, with period 0, disarms it; WATCH_EXPIRY sets WDOG and enters Safe-Hold (R651, R665). SYS_START of a
presented context that has not run, with an entry 0 and an empty SATB queue, starts it there in its reset state.
SYS_TIME_WRITE sets device time forward; a write of an earlier time sets bit 58 of SYS_STAT instead (R227, R659, R671). -/
def Obligations.WatchAndTime : Prop :=
  (∀ (s : State), s.calm = true → s.kept = true →
    (∀ (src : Src) (p : BitVec 10), src.code.toNat < 4 →
      (p ≠ 0 → s.canWrite src 0x30 (atFld 63 63 1 ||| atFld 9 0 p.toNat) = true →
        ∃ t, exec (.feed src p) s = .next t ∧ t.rf 0x30 9 0 = p.toNat ∧
          t = { s with dev := t.dev, sys := { s.sys with armed := true, expiry := s.time + p64 (min p.toNat 1000 * 1000000) } }) ∧
      (s.canWrite src 0x30 (atFld 9 0 p.toNat) = true →
        (p ≠ 0 → s.sys.armed = true → ∃ t, exec (.watchPeriodWrite src p) s = .next t ∧ t.rf 0x30 9 0 = p.toNat ∧
          t = { s with dev := t.dev, sys := { s.sys with expiry := s.time + p64 (min p.toNat 1000 * 1000000) } }) ∧
        (p ≠ 0 → s.sys.armed = false → ∃ t, exec (.watchPeriodWrite src p) s = .next t ∧ t.rf 0x30 9 0 = p.toNat ∧
          t = { s with dev := t.dev }) ∧
        (p = 0 → ∃ t, exec (.watchPeriodWrite src p) s = .next t ∧ t.rf 0x30 9 0 = 0 ∧
          t = { s with dev := t.dev, sys := { s.sys with armed := false } }))) ∧
    (s.sys.armed = true → s.modeBusy = false → s.mode ∈ [mBoot, mRun, mDegraded, mService, mQuiet] →
      ∃ t, exec .watchExpiry s = .next t ∧ t = { s with dev := t.dev, time := t.time, sys := { s.sys with armed := false } } ∧
        bit (t.reg 0x28) 61 = true ∧ t.mode = mSafe ∧ t.rf 0x10 10 8 = s.mode ∧ s.sys.expiry.toNat ≤ t.time.toNat)) ∧
  (∀ (s : State) (src : Src), s.calm = true → src.code.toNat < 4 →
    (∀ (x : BitVec 8) (p : Pay), s.canWrite src 0x40 (atFld 63 63 1 ||| atFld 7 0 x.toNat) = true →
      (s.presentedOf (twinOf x.toNat)).contains x.toNat = true → (s.ctx x.toNat) = Ctx.reset → s.isLoose x.toNat = false →
      Tbl.look (s.twin (twinOf x.toNat)).sqtConf x.toNat = none → s.vecEntry x.toNat true 0 = some p → s.ldg.held = [] →
      ∃ t, exec (.sysStart src x) s = .next t ∧ t = { s with ctxs := t.ctxs } ∧ (∀ y, y ≠ x.toNat → t.ctx y = s.ctx y) ∧
        t.ctx x.toNat = { Ctx.reset.setPc (atFld 47 2 (fld p 47 2)) with started := true }) ∧
    (∀ v : Pay, s.canWrite src 0x48 v = true →
      (s.time.toNat ≤ v.toNat → ∃ t, exec (.sysTimeWrite src v) s = .next t ∧ t = { s with time := v }) ∧
      (v.toNat < s.time.toNat → ∃ t, exec (.sysTimeWrite src v) s = .next t ∧ RegsOnly s [0x28] t ∧ bit (t.reg 0x28) 58 = true)))

/-- Clocks and temperature (R666 to R670, R814). A point written to SYS_CLKn starts a change, unless one runs; its end sets CUR to the
point, or to 2 at least while derated. More than 125 °C derates the cluster, and 120 °C or less ends that; 155 °C sets TEMP and enters
Safe-Hold; with every sensor at 150 °C or less TEMP clears. A lost PLL clears its lock and sets CLPLL; the relock sets it again;
a lost event PLL sets EVCLK and enters Safe-Hold. The sensor check excludes the sensors that differ. -/
def Obligations.ClocksAndTemperature : Prop :=
  ∀ (s : State) (n : BitVec 3), s.calm = true → s.sys.inReset = false →
    let r := clkReg n.toNat
    (∀ (src : Src) (v : Pay), s.canWrite src r v = true →
      ∃ t, exec (.dvfsPointWrite src n v) s = .next t ∧ t = { s with dev := t.dev, sys := { s.sys with dvfs := t.sys.dvfs } } ∧
        t.rf r 2 0 = fld v 2 0 ∧ (∀ off, off ≠ r → t.reg off = s.reg off) ∧
        Tbl.look t.sys.dvfs n.toNat = some ((Tbl.look s.sys.dvfs n.toNat).getD (fld v 2 0))) ∧
    (∀ pt, Tbl.look s.sys.dvfs n.toNat = some pt → pt < 8 →
      ∃ t, exec (.dvfsChangeEnd n) s = .next t ∧ t = { s with dev := t.dev, sys := { s.sys with dvfs := t.sys.dvfs } } ∧
        t.rf r 10 8 = (if bit (s.reg r) 18 then max 2 pt else pt) ∧
        Tbl.look t.sys.dvfs n.toNat = (if s.rf r 2 0 = pt then none else some (s.rf r 2 0))) ∧
    (∀ tj : BitVec 8,
      (189 < tj.toNat → ∃ t, exec (.thermalDerate n tj) s = .next t ∧ RegsOnly s [r] t ∧ t.rf r 63 56 = tj.toNat ∧
        bit (t.reg r) 18 = true ∧ 2 ≤ t.rf r 10 8) ∧
      (tj.toNat ≤ 184 → bit (s.reg r) 18 = true → ∃ t, exec (.derateClear n tj) s = .next t ∧ RegsOnly s [r] t ∧
        t.rf r 63 56 = tj.toNat ∧ bit (t.reg r) 18 = false ∧ t.rf r 10 8 = s.rf r 2 0) ∧
      (219 ≤ tj.toNat → s.kept = true → s.modeBusy = false → s.mode ∈ [mBoot, mRun, mDegraded, mService, mQuiet] →
        ∃ t, exec (.temp n tj) s = .next t ∧ RegsOnly s [r, 0x10, 0x28] t ∧ bit (t.reg 0x28) 60 = true ∧ t.mode = mSafe) ∧
      (tj.toNat ≤ 214 → s.kept = true → (∀ m, m < 8 → m ≠ n.toNat → s.rf (clkReg m) 63 56 ≤ 214) →
        ∃ t, exec (.tempClear n tj) s = .next t ∧ bit (t.reg 0x28) 60 = false ∧ t.sys.hot = false ∧
          t = { s with dev := t.dev, sys := { s.sys with hot := false } })) ∧
    (bit (s.reg r) 16 = false → bit (s.reg r) 17 = true → (∀ u, u / 4 = n.toNat → (s.twin u).mode = .fenced ∧ (s.twin u).moving = false) →
      ∃ t, exec (.clusterPllLoss n) s = .next t ∧ bit (t.reg r) 17 = false ∧ bit (t.reg 0x28) 35 = true ∧ n.toNat ∈ t.sys.unlocked) ∧
    (n.toNat ∈ s.sys.unlocked → ∃ t, exec (.pllRelock n) s = .next t ∧ bit (t.reg r) 17 = true ∧ n.toNat ∉ t.sys.unlocked ∧
      t = { s with dev := t.dev, sys := { s.sys with unlocked := t.sys.unlocked } } ∧ ∀ off, off ≠ r → t.reg off = s.reg off) ∧
    (s.kept = true → s.modeBusy = false → s.mode ∈ [mBoot, mRun, mDegraded, mService, mQuiet] →
      ∃ t, exec .evclk s = .next t ∧ RegsOnly s [0x10, 0x28] t ∧ bit (t.reg 0x28) 59 = true ∧ t.mode = mSafe) ∧
    (∀ out, s.bgsRuns = true → ∃ t, exec (.pllCalibration out) s = .next t ∧ t.mem = s.mem ∧ t.ctxs = s.ctxs ∧
      t.bgs.excluded = out.map (fun e => e.1.toNat * 256 + e.2.toNat))

/-! ### The fabric, the L2 and register accesses (R16 to R51, R391 to R434) -/

/-- The fabric (R16 to R18, R20 to R27, R33). A response to a transaction of the table frees its entry and lets the context that waits
for it go on: after a cache line was missed with leave to go on, after another load with the word from memory, and with the error
where there is one. A timeout, 50 ms after the entry was taken, answers with an error and is recorded; a late response is recorded.
A released entry goes to the waiting request next in turn after the source last granted, and its 50 ms begin. A returned credit
takes the oldest message off its queue, and lets the request held for that queue go out. -/
def Obligations.FabricTransactions : Prop :=
  ∀ s : State, s.calm = true →
    (∀ (id : Nat) (u : Txn), s.txns.find? (fun t => t.id = id) = some u → u.inTable = true → u.kind ≠ .store → u.kind ≠ .evict →
      (s.ctxs.map (·.1)).Nodup → (∀ y, (s.ctx y).run = .fabric id ↔ y = u.x) → s.txns.all (fun v => !v.stands u.src u.tgt id) = true →
      (∀ v ∈ s.txns, v.st = .held → holderOf v.src ≠ holderOf u.src ∨ v.tgt ≠ u.tgt) →
      let back (y : Nat) : Ctx := if (s.ctx y).run = .hold then { s.ctx y with run := .run } else s.ctx y
      let woken (t : State) (g : Grant) : Prop :=
        t.txns = s.txns.filter (fun v => v.id ≠ id) ∧ t.ctx u.x = { s.ctx u.x with grants := (s.ctx u.x).grants ++ [g], run := .run } ∧
        (∀ y, y ≠ u.x → t.ctx y = back y) ∧ t.mem = s.mem ∧ t.tags = s.tags
      (u.kind ≠ .load → ∃ t, exec (.responseDelivery id .good) s = .next t ∧ woken t .done ∧ t = { s with ctxs := t.ctxs, txns := t.txns }) ∧
      (u.kind = .load → (s.region u.pa).isRam = true → s.noWindows → s.poisoned (s.key u.src u.pa / 64) = false →
        s.evicting (s.key u.src u.pa / 64) = none →
        ∃ t, exec (.responseDelivery id .good) s = .next t ∧ woken t (.word (s.word (s.key u.src u.pa)))) ∧
      (∃ t, exec (.responseDelivery id .error) s = .next t ∧ woken t .error ∧ t = { s with ctxs := t.ctxs, txns := t.txns }) ∧
      (∃ t, exec (.responseDelivery id .doubleBit) s = .next t ∧ woken t .doubleBit ∧ t = { s with ctxs := t.ctxs, txns := t.txns }) ∧
      (∃ t, exec (.fabricTimeout id) s = .next t ∧ woken t .error ∧
        t = { s with ctxs := t.ctxs, txns := t.txns, dev := t.dev, bgs := t.bgs, time := t.time } ∧
        s.time.toNat ≤ t.time.toNat ∧ (u.time + 50000001).toNat ≤ t.time.toNat ∧ ∃ r ∈ t.bgs.tel, r.src = u.src ∧ r.code = telFabTo)) ∧
    (∀ id, s.txns.find? (fun t => t.id = id) = none → id < s.nextTxn →
      ∃ t, exec (.responseDelivery id .good) s = .next t ∧ t = { s with dev := t.dev, bgs := t.bgs } ∧
        ∃ r ∈ t.bgs.tel, r.src = 0x51 ∧ r.code = telLate) ∧
    (let ws := s.txns.filter (fun t => t.st = .waiting && s.entryFor (holderOf t.src) ≠ .waiting)
     ws ≠ [] → ∃ w ∈ ws, (∀ u ∈ ws, turnOf s.lastGrant w.src ≤ turnOf s.lastGrant u.src) ∧
      exec .transactionEntryGrant s = .next { s with lastGrant := w.src, txns := s.txns.map (fun u =>
        if u.id = w.id then { u with st := s.entryFor (holderOf w.src), time := s.time } else u) }) ∧
    (∀ (src tgt : BitVec 8) (cls : MsgClass),
      let q := creditKey (classNo cls) (holderOf src.toNat) tgt.toNat
      (∀ t ∈ s.txns, t.st = .held → holderOf t.src = holderOf src.toNat → t.tgt ≠ tgt.toNat) →
      ∃ t, exec (.creditReturn src tgt cls) s = .next t ∧ t = { s with queues := t.queues } ∧ t.queue q = (s.queue q).drop 1 ∧
        ∀ k, k ≠ q → t.queue k = s.queue k) ∧
    (∀ (src tgt : BitVec 8) (u : Txn),
      let h := holderOf src.toNat
      let q := creditKey 0 h tgt.toNat
      s.txns.filter (fun t => t.st = .held && holderOf t.src = h && t.tgt = tgt.toNat) = [u] → (s.txns.map (·.id)).Nodup →
      ((s.queue q).drop 1).sum + reqFlits u.kind u.width ≤ queueDepth → s.rspUse h + rspFlits u.kind ≤ rspDepth h →
      ∃ t, exec (.creditReturn src tgt .req) s = .next t ∧ t = { s with queues := t.queues, txns := t.txns, lastSent := t.lastSent } ∧
        t.queue q = (s.queue q).drop 1 ++ [reqFlits u.kind u.width] ∧
        t.txns = s.txns.map (fun v => if v.id = u.id then { v with st := s.newEntry h, time := s.time } else v))

/-- COHERENCE_REQUEST by a source other than the cores to a line of DRAM with no open window on it and no poison: a write
takes every L1D and L2 copy away, a read leaves none dirty, and the words of memory are what they were (R391, R392). The
L2 (R415, R416, R420, R431 to R433, R488). Clearing EN confirms the windows of the cluster's twins and starts the sweep, which ends with the cluster's L1s and L2 empty but for
poisoned lines. A write of CLn_L2_LOCK sets the locked ways. A lock load of mapped normal memory locks its way and is busy
until its end, after which each of its lines is in the L2 in that way, unless the line, or one it would replace, is poisoned. -/
def Obligations.CoherenceAndL2 : Prop :=
  (∀ (s : State) (src : BitVec 8) (pa : BitVec 48),
    let line := pa.toNat / 64
    s.calm = true → 64 ≤ src.toNat → src.toNat < 0x54 → s.region pa.toNat = .dram → (s.prt pa.toNat).se = false →
    (∀ e ∈ s.twins, e.2.undo = []) → s.poisoned line = false → s.evicting line = none →
    (∃ t, exec (.coherenceRequest src pa true false) s = .next t ∧ t.lineFree line ∧ t.mem = s.mem ∧ t.tags = s.tags ∧
      t = { s with cores := t.cores, clusters := t.clusters, backing := t.backing }) ∧
    (∃ t, exec (.coherenceRequest src pa false false) s = .next t ∧ t.mem = s.mem ∧ t.tags = s.tags ∧
      t = { s with cores := t.cores, clusters := t.clusters, backing := t.backing } ∧
      (∀ n l, t.l2At n line = some l → l.dirty = false))) ∧
  (∀ (s : State) (n : BitVec 3), s.calm = true →
    let o := oCl n.toNat
    (∀ (src : Src) (v : Pay), s.canWrite src (o + 0x1000) (setBit v 0 false) = true → s.l2En n.toNat = true →
      (∀ u, clusterOfTwin u = n.toNat → (s.twin u).hold = []) →
      ∃ t, exec (.l2Sweep src n v) s = .next t ∧ t = { s with dev := t.dev, twins := t.twins, ctxs := t.ctxs } ∧
        (∀ off, off ≠ o + 0x1000 → off ≠ o + 0x1008 → t.reg off = s.reg off) ∧ t.l2En n.toNat = false ∧ t.l2Stat n.toNat 63 = true ∧
        (∀ u, t.twin u = if clusterOfTwin u = n.toNat ∧ (s.twin u).mode = .tight
          then { s.twin u with groups := 0, misr := misrSeed, undo := [], sqtConf := [] } else s.twin u) ∧
        (∀ x, t.ctx x = s.ctx x ∨ clusterOfTwin (twinOf x) = n.toNat ∧ (s.ctx x).run = .window ∧ t.ctx x = { s.ctx x with run := .run })) ∧
    (s.l2Stat n.toNat 63 = true →
      ∃ t, exec (.l2SweepEnd n []) s = .next t ∧ t.l2Stat n.toNat 63 = false ∧ t.mem = s.mem ∧ t.tags = s.tags ∧
        (∀ k line, k / 8 = n.toNat → t.l1dAt k line = none) ∧ (∀ line l, t.l2At n.toNat line = some l → l.poison = true) ∧
        (∀ x, (s.ctx x).run = .run → t.ctx x = s.ctx x)) ∧
    (∀ (src : Src) (v : Pay), s.canWrite src (o + 0x1010) v = true →
      ∃ t, exec (.l2LockWrite src n v) s = .next t ∧ t = { s with dev := t.dev, clusters := t.clusters } ∧
        (∀ off, off ≠ o + 0x1010 → t.reg off = s.reg off) ∧ (∀ w, w < 8 → t.l2Locked n.toNat w = bit v w) ∧
        (∀ line w, Tbl.look (t.cluster n.toNat).l2Lk line = some w → bit v w = true)) ∧
    (∀ (src : Src) (v : Pay),
      let line := s.rf (o + 0x1018) 47 6
      let k := fld v 11 0 + 1
      s.canWrite src (o + 0x1020) (setBit v 63 true) = true → s.l2Stat n.toNat 62 = false → s.lockable line k = true →
      ∃ t, exec (.lockLoad src n v) s = .next t ∧ t = { s with dev := t.dev, clusters := t.clusters } ∧ t.l2Stat n.toNat 62 = true ∧
        bit (t.reg (o + 0x1010)) (fld v 51 48) = true ∧ (t.cluster n.toNat).lkJob = some (line, k, fld v 51 48)) ∧
    (∀ line k w, (s.cluster n.toNat).lkJob = some (line, k, w) → (∀ e ∈ s.twins, e.2.undo = []) →
      ∃ t, exec (.lockLoadEnd n) s = .next t ∧ (t.cluster n.toNat).lkJob = none ∧ t.l2Stat n.toNat 62 = false ∧
        t.mem = s.mem ∧ t.tags = s.tags ∧ (k ≤ 4096 → s.l2En n.toNat = true → ∀ i, i < k → isKeepLine (line + i) = false →
          s.poisoned (line + i) = false → (s.cluster n.toNat).badWay ((line + i) % 4096) w = false →
          (t.l2At n.toNat (line + i)).map (·.way) = some w)))

/-- REGISTER_WRITE. A value a register takes changes its RW fields, clears by W1C and sets by W1S, and nothing else, on the pages whose
registers act by themselves in no other way (CE, DDR, PCIe and the Event Router). A write of a rejected value or to an undefined
register changes nothing but ERR, which names the source, the code and the offset when it was empty; a 1 written to its VALID
bit clears it (R6 to R8, R43, R44, R47, R50, R51). -/
def Obligations.RegisterWrites : Prop :=
  ∀ (s : State) (src : Src) (off : BitVec 24) (v : Pay),
    let o := off.toNat
    let e := pageOf o * 0x10000 + 8
    s.calm = true → o % 8 = 0 →
    (∀ d, s.canWrite src o v = true → pageOf o ∈ [0x03, 0x08, 0x09, 0x0D] → inPage o ≠ 8 → regDesc o = some d →
      ∃ t, exec (.registerWrite src off v) s = .next t ∧ RegsOnly s [o] t ∧ t.reg o = d.write (s.reg o) v) ∧
    (src.wf = true → s.srcActs src = true → s.pageGated o = false → pageMapped (pageOf o) = true → bit (s.reg e) 63 = false →
      (∀ d, regDesc o = some d → d.rejects v = true →
        ∃ t, exec (.registerWrite src off v) s = .next t ∧ RegsOnly s [e] t ∧ bit (t.reg e) 63 = true ∧ t.rf e 55 48 = src.code.toNat ∧
          t.rf e 47 40 = errReject ∧ t.rf e 15 0 = inPage o) ∧
      (regDesc o = none →
        ∃ t, exec (.registerWrite src off v) s = .next t ∧ RegsOnly s [e] t ∧ bit (t.reg e) 63 = true ∧ t.rf e 55 48 = src.code.toNat ∧
          t.rf e 47 40 = errUndef ∧ t.rf e 15 0 = inPage o)) ∧
    (s.canWrite src o v = true → inPage o = 8 → bit v 63 = true →
      ∃ t, exec (.registerWrite src off v) s = .next t ∧ RegsOnly s [o] t ∧ t.reg o = 0)

/-! ### The GC block and the Scavenge Engines (R290 to R352) -/

/-- The Region Table (R293 to R299, R343 to R349). GC_RSET makes a transition that R297 allows and leaves the rest of memory alone; a
region that leaves the free state has its side area cleared; another transition is refused in GC_RSTAT. A load of GC_HEAPh_ALLOC takes
the lowest free region, and HEAP_ENABLE makes every region free. -/
def Obligations.GcRegions : Prop :=
  ∀ (s : State) (src : Src), s.calm = true → s.noWindows →
    (∀ (v : Pay) (h : Nat),
      let i := fld v 15 0
      let side := rtSide (s.rt0 i)
      s.canWrite src (oGc + 0x18) v = true → s.heapOfIdx i = some h → s.rsetOk h i v = true → s.inDram (s.rtAddr i) 16 = true →
      s.poisoned (s.rtAddr i / 64) = false → fld v 63 62 ≠ rgEvac → (∀ e ∈ s.clusters, e.2.toGens i = []) →
      (rtState (s.rt0 i) ≠ rgFree → ∃ t, exec (.gcRset src v) s = .next t ∧ t.rt0 i = plainRegion (s.rt0 i) (fld v 63 62) (fld v 61 60) ∧
        ∀ a, a / 8 ≠ s.rtAddr i / 8 → t.byte a = s.byte a ∧ t.tagAt a = s.tagAt a) ∧
      (rtState (s.rt0 i) = rgFree → (s.rtAddr i + 16 ≤ side ∨ side + s.sideLen h ≤ s.rtAddr i) →
        ∃ t, exec (.gcRset src v) s = .next t ∧ t.rt0 i = plainRegion (s.rt0 i) (fld v 63 62) (fld v 61 60) ∧ t.rt1 i = 0 ∧
          ∀ a, side ≤ a → a < side + s.sideLen h → t.byte a = 0)) ∧
    (∀ v : Pay, s.canWrite src (oGc + 0x18) v = true →
      (s.heapOfIdx (fld v 15 0) = none ∨ ∃ h, s.heapOfIdx (fld v 15 0) = some h ∧ s.rsetOk h (fld v 15 0) v = false) →
      ∃ t, exec (.gcRset src v) s = .next t ∧ RegsOnly s [oGc + 0x20] t ∧ bit (t.reg (oGc + 0x20)) 63 = true ∧
        t.rf (oGc + 0x20) 15 0 = fld v 15 0) ∧
    (s.canRead src (oGc + 0x20) = true → exec (.gcRstatLoad src) s = .next (s.answers (s.reg (oGc + 0x20)))) ∧
    (∀ (h : BitVec 2) (i : Nat),
      let side := rtSide (s.rt0 i)
      s.canRead src (oHeap h.toNat + 0x38) = true → s.heapEn h.toNat = true → s.inDram (s.rtAddr i) 16 = true →
      s.poisoned (s.rtAddr i / 64) = false → (s.regionsOf h.toNat).find? (fun i => rtState (s.rt0 i) = rgFree) = some i →
      (s.rtAddr i + 16 ≤ side ∨ side + s.sideLen h.toNat ≤ s.rtAddr i) →
      ∃ t, exec (.gcHeapAlloc src h) s = .next t ∧ t.answer = some (Word.raw (setBit (p64 i) 63 true)) ∧
        t.rt0 i = plainRegion (s.rt0 i) rgNormal 0) ∧
    (∀ (h : BitVec 2) (v : Pay), s.canWrite src (oHeap h.toNat + 0x20) (setBit v 3 true) = true → s.heapEn h.toNat = false →
      fld v 2 0 = s.heapPhase h.toNat → s.inDram (s.rtAddr (s.heapRidx h.toNat)) (16 * s.heapRegions h.toNat) = true →
      (∀ j, j < s.heapRegions h.toNat → s.poisoned (s.rtAddr (s.heapRidx h.toNat + j) / 64) = false) →
      (bit v 8 = false ∨ s.heapStat h.toNat 63 = false) →
      ∃ t, exec (.heapEnable src h v) s = .next t ∧ t.heapEn h.toNat = true ∧
        ∀ j, j < s.heapRegions h.toNat → rtState (t.rt0 (s.heapRidx h.toNat + j)) = rgFree)

/-- The phases of a cycle (R318 to R321, R325 to R327, R333, R346, R348). MARK begins from IDLE with the next CYCLE; with AUTO = 0 and
READY each next phase begins where it is written; any other change is ignored with SEQERR. MARK_ACTIVE turns SATB recording on at every
core that has power and sets ACTIVE; ROOTS_SET sets ROOTS; a termination round ends MARK when the engines are idle and every context's
queue is empty, else the contexts submit theirs; WEAK_END ends WEAK. -/
def Obligations.GcPhases : Prop :=
  ∀ (s : State) (src : Src) (hb : BitVec 2) (v : Pay),
    let h := hb.toNat
    let o := oHeap h + 0x20
    let c := s.heapPhase h
    s.calm = true → s.noWindows → s.unbound (0x52 + h) = true → bit v 3 = s.heapEn h →
    (s.canWrite src o (setFld v 2 0 1) = true →
      (c = 0 → s.heapEn h = true → ∃ t, exec (.writeMark src hb v) s = .next t ∧ t = { s with dev := t.dev, heaps := t.heaps } ∧
        t.heapPhase h = 1 ∧ t.heapCycle h = (s.heapCycle h + 1) % 4 ∧ bit (t.heapCtl h) 31 = false ∧ bit (t.heapCtl h) 30 = false ∧
        t.heapStat h 62 = false ∧ t.heapStat h 63 = false) ∧
      (c ≠ 0 → c ≠ 1 → s.heapStat h 63 = false →
        ∃ t, exec (.writeMark src hb v) s = .next t ∧ RegsOnly s [o, o + 0x10] t ∧ t.heapPhase h = c ∧ t.heapStat h 61 = true)) ∧
    (s.canWrite src o (setFld v 2 0 2) = true → c = 1 → bit v 8 = false → s.heapStat h 63 = true →
      ∃ t, exec (.writeWeak src hb v) s = .next t ∧ RegsOnly s [o, o + 0x10] t ∧ t.heapPhase h = 2 ∧ t.heapStat h 63 = false) ∧
    (s.canWrite src o (setFld v 2 0 3) = true → c = 2 → bit v 8 = false → s.heapStat h 63 = true →
      ∃ t, exec (.writeEvac src hb v) s = .next t ∧ t = { s with dev := t.dev, cores := t.cores } ∧ t.heapPhase h = 3 ∧
        t.heapStat h 63 = s.evacDone h ∧ ∀ x, s.clOn (clusterOfCore (s.coreOf x)) = true → s.coreOf x < 64 → t.satbOn x h = false) ∧
    (s.canWrite src o (setFld v 2 0 0) = true → c = 3 → bit v 8 = false → s.heapStat h 63 = true →
      ∃ t, exec (.writeIdle src hb v) s = .next t ∧ RegsOnly s [o, o + 0x10] t ∧ t.heapPhase h = 0 ∧ t.heapStat h 63 = false ∧
        t.rf (o + 0x10) 31 0 = (s.rf (o + 0x10) 31 0 + 1) % 2 ^ 32) ∧
    (c = 1 → bit (s.heapCtl h) 31 = false → ∃ t, exec (.markActive hb) s = .next t ∧ bit (t.heapCtl h) 31 = true ∧ t.heapPhase h = 1 ∧
      ∀ x, s.clOn (clusterOfCore (s.coreOf x)) = true → s.coreOf x < 64 → t.satbOn x h = true) ∧
    (s.canWrite src o (setBit v 30 true) = true → fld v 2 0 = c → (bit v 8 = false ∨ s.heapStat h 63 = false) →
      ∃ t, exec (.rootsSet src hb v) s = .next t ∧ RegsOnly s [o] t ∧ bit (t.heapCtl h) 30 = true ∧ t.heapPhase h = c) ∧
    (let xs := (allTwins.flatMap (fun t => s.heldOf t)).filter (fun x => (s.ctx x).started)
     c = 1 → bit (s.heapCtl h) 31 = true → bit (s.heapCtl h) 30 = true → s.heapStat h 63 = false →
      (s.enginesIdle = true → (∀ x ∈ xs, (s.ctx x).submits = true ∧ (s.ctx x).sp Sr.sqt = (s.ctx x).sp Sr.sqb) → (s.heapSt h).atMark = [] →
        ∃ t, exec (.terminationRound hb) s = .next t ∧ t = { s with dev := t.dev, heaps := t.heaps } ∧
          (s.heapAuto h = true → t.heapPhase h = 2) ∧ (s.heapAuto h = false → t.heapPhase h = 1 ∧ t.heapStat h 63 = true)) ∧
      (∀ x ∈ xs, (s.ctx x).submits = true → (s.ctx x).sp Sr.sqt ≠ (s.ctx x).sp Sr.sqb →
        ∃ t, exec (.terminationRound hb) s = .next t ∧ (t.ctx x).sp Sr.sqt = (s.ctx x).sp Sr.sqb ∧ t.heapPhase h = 1)) ∧
    (c = 2 → s.heapStat h 63 = false → (∀ e ∈ s.clusters, ∀ pa ∈ e.2.weakL, s.weakSlotHeap pa ≠ some h) →
      (s.heapAuto h = false → ∃ t, exec (.weakEnd hb) s = .next t ∧ RegsOnly s [o + 0x10] t ∧ t.heapStat h 63 = true) ∧
      (s.heapAuto h = true → s.selected h = [] → s.noStores → ∃ t, exec (.weakEnd hb) s = .next t ∧ t.heapPhase h = if s.evacDone h then 0 else 3))

/-- The Scavenge Engines (R313, R316, R323, R324, R326, R328, R332, R335, R350). MARK_ENTRY marks the oldest entry's object and adds
its words to the region's LIVE; CARD_SCAN cleans a card, or leaves it dirty when it still points to a younger region, and replaces
its pointers to forwarded objects; WEAK_CLEAR
makes a weak slot of an unmarked object NIL; ENGINE_COPY copies an object of the oldest generation that a context waits for, leaves
FWD behind and lets the context go on. SATBIN and PUSH bring entries, SATBDONE counts them; EVREQ asks the owner of an
evacuating region for a copy, EVDONE answers; SPLIM moves the end of the spill area, and is refused when it would lower it. -/
def Obligations.GcEngines : Prop :=
  ∀ (s : State) (nb : BitVec 3) (src : Src),
    let n := nb.toNat
    let cl := s.cluster n
    s.calm = true → s.noWindows →
    (∀ (w : Word) (ws : List Word) (h : Nat),
      let va := w.pay.toNat
      let i := s.regionIdx h va
      let off := s.wordOff h va
      let pa := s.heapPhys h va
      let bp := rtSide (s.rt0 i) + off / 8
      let hd := s.word pa
      s.seWalks n = true → cl.markQ = w :: ws → w.tag ≠ Tag.raw → s.heapAt (fun _ => true) va = some h → s.heapPhase h = 1 →
      rtState (s.rt0 i) ≠ rgEvac → s.collected h va = true → s.marked h va = false → rtMcyc (s.rt1 i) = s.heapCycle h →
      s.badIn pa (8 * s.objSize pa) = none → s.poisoned (bp / 64) = false → s.poisoned (s.rtAddr i / 64) = false →
      hd.tag = Tag.hdr → hdrFmt hd.pay = fmtBytes → s.inDram bp 1 = true → s.inDram (s.rtAddr i) 16 = true →
      [pa / 8, bp / 8, s.rtAddr i / 8, (s.rtAddr i + 8) / 8].Nodup →
      ∃ t, exec (.markEntry nb .clean) s = .next t ∧ (t.cluster n).markQ = ws ∧ (t.byte bp).getLsbD (off % 8) = true ∧
        rtLive (t.rt1 i) = (rtLive (s.rt1 i) + 1 + hdrLen hd.pay) % 2 ^ 24 ∧
        ∀ a, a / 8 ≠ bp / 8 → a / 8 ≠ (s.rtAddr i + 8) / 8 → t.byte a = s.byte a) ∧
    (∀ (i card : Nat) (cs : List (Nat × Nat)) (h : Nat),
      let cp := rtSide (s.rt0 i) + s.heapS h / 64 + card
      let base := s.heapPhys h (s.regionBase h i) + 512 * card
      let u := s.gcByte cp 0
      s.seWalks n = true → cl.cardQ = (i, card) :: cs → s.heapOfIdx i = some h → s.inDram cp 1 = true → s.poisoned (cp / 64) = false →
      s.badIn base 512 = none → (cp < base ∨ base + 512 ≤ cp) →
      ((∀ w ∈ s.words base 64, s.heapPtr (fun _ => true) w = none) →
        ∃ t, exec (.cardScan nb .clean) s = .next t ∧ t.byte cp = 0 ∧ (t.cluster n).cardQ = cs ++ (s.heapSt h).cards.take 1 ∧
          ∀ a, a ≠ cp → t.byte a = s.byte a) ∧
      (∀ w g, w ∈ s.words base 64 → u.forwardedWord w = w → s.heapPtr (fun _ => true) w = some g →
        rtGen (s.rt0 (s.regionIdx g w.pay.toNat)) < rtGen (s.rt0 i) →
        ∃ t, exec (.cardScan nb .clean) s = .next t ∧ t.byte cp = 1 ∧ (t.cluster n).cardQ = cs ++ (s.heapSt h).cards.take 1) ∧
      (base % 8 = 0 → s.inDram base 512 = true → cl.markQ.length ≤ 960 → (cp / 8 < base / 8 ∨ base / 8 + 64 ≤ cp / 8) →
        ∃ t, exec (.cardScan nb .clean) s = .next t ∧ ∀ j, j < 64 → t.word (base + 8 * j) = u.forwardedWord (s.word (base + 8 * j)))) ∧
    (∀ (pa h : Nat), s.seActs n = true → s.badIn pa 8 = none → cl.weakL = [pa] → s.weakSlotHeap pa = some h → s.heapPhase h = 2 → pa % 8 = 0 →
      s.inDram pa 8 = true → s.collected h (s.word pa).pay.toNat = true →
      (s.marked h (s.word pa).pay.toNat = false →
        ∃ t, exec (.weakClear ⟨nb, .clean⟩) s = .next t ∧ (t.cluster n).weakL = [] ∧ t.word pa = Word.nil ∧ ∀ a, a / 8 ≠ pa / 8 → t.byte a = s.byte a) ∧
      (s.marked h (s.word pa).pay.toNat = true →
        ∃ t, exec (.weakClear ⟨nb, .clean⟩) s = .next t ∧ (t.cluster n).weakL = [] ∧ t.mem = s.mem ∧ t.tags = s.tags)) ∧
    (∀ (obj x h r off : Nat),
      let pa := s.heapPhys h obj
      let hd := s.word pa
      let size := s.objSize pa
      let dst := s.regionBase h r + 8 * off
      let tp := s.heapPhys h dst
      s.seActs n = true → s.inFlight = false → s.badIn pa (8 * size) = none → s.badIn tp (8 * size) = none →
      s.heapOfIdx r = some h → cl.copyQ = [⟨obj, x, none⟩] → s.heapAt (fun _ => true) obj = some h → hd.tag ≠ Tag.fwd →
      s.ownedLive n h obj = true → rtGen (s.rt0 (s.regionIdx h obj)) = 3 → Tbl.look cl.toReg 3 = some ⟨r, off⟩ →
      off + size ≤ s.regionWords h → size ≤ s.regionWords h → (∀ j, j < size → s.heapPtr (fun _ => true) (s.word (pa + 8 * j)) = none) →
      pa % 8 = 0 → tp % 8 = 0 → s.inDram pa 8 = true → s.inDram tp (8 * size) = true →
      (pa + 8 * size ≤ tp ∨ tp + 8 * size ≤ pa) → (s.ctx x).run = .copy obj →
      ∃ t, exec (.engineCopy nb .clean) s = .next t ∧ t.word pa = ⟨Tag.fwd, p64 dst⟩ ∧ (t.word tp).tag = hd.tag ∧
        (∀ j, 1 ≤ j → j < size → t.word (tp + 8 * j) = s.word (pa + 8 * j)) ∧ (t.cluster n).copyQ = [] ∧ (t.ctx x).run = .run ∧
        ∀ y, y ≠ x → t.ctx y = s.ctx y) ∧
    (∀ (v : Pay) (k : Nat),
      let base := fld v 35 3 * 8
      s.canWrite src (oSe n + 0x28) v = true → s.seOn n = true → s.seStat n 62 = false → k = fld v 63 40 → s.inDram base (8 * k) = true →
      s.badIn base (8 * k) = none → cl.markQ.length + k ≤ 1024 →
      ∃ t, exec (.seSatbin src nb ⟨v, .clean⟩) s = .next t ∧ (t.cluster n).absorbed = cl.absorbed + k ∧ (t.cluster n).intake = [] ∧
        (t.cluster n).markQ = cl.markQ ++ (s.words base k).filter s.worthMarking ∧ t.mem = s.mem) ∧
    (s.canRead src (oSe n + 0x30) = true → s.submitting src.x.toNat = false → exec (.seSatbdone src nb) s = .next (s.answers (p64 cl.absorbed))) ∧
    (∀ v : Pay, s.canWrite src (oSe n + 0x20) v = true → s.seOn n = true → s.seStat n 62 = false →
      cl.markQ.length + 1 ≤ 1024 →
      ∃ t, exec (.sePush src nb v) s = .next t ∧ (t.cluster n).absorbed = cl.absorbed + 1 ∧ t.mem = s.mem ∧
        (t.cluster n).markQ = cl.markQ ++ [(⟨Tag.vec, v &&& maskFld 47 3⟩ : Word)].filter s.worthMarking) ∧
    (∀ (v : Pay),
      let obj := fld v 47 3 * 8
      s.canWrite src (oSe n + 0x38) v = true →
      (s.heapAt (fun _ => true) obj = none →
        ∃ t, exec (.seEvreq src nb v) s = .next t ∧ Tbl.look (t.cluster n).evreq src.x.toNat = some (.ended 0) ∧ t.mem = s.mem) ∧
      (∀ h, s.heapAt (fun _ => true) obj = some h → rtState (s.rt0 (s.regionIdx h obj)) = rgEvac →
        rtOwner (s.rt0 (s.regionIdx h obj)) < 8 →
        ∃ t, exec (.seEvreq src nb v) s = .next t ∧ t = { s with clusters := t.clusters } ∧
          Tbl.look (t.cluster n).evreq src.x.toNat = some (.running obj) ∧
          ∃ q ∈ (t.cluster (rtOwner (s.rt0 (s.regionIdx h obj)))).copyQ, q = ⟨obj, src.x.toNat, some n⟩)) ∧
    (∀ a, s.canRead src (oSe n + 0x40) = true → Tbl.look cl.evreq src.x.toNat = some (.ended a) →
      exec (.seEvdone src nb) s = .next (s.answers a)) ∧
    (∀ v : Pay, s.canWrite src (oSe n + 0x18) v = true →
      ((s.rf (oSe n) 0 0 = 0 ∨ s.rf (oSe n + 0x18) 35 12 < fld v 35 12) →
        ∃ t, exec (.seSplim src nb v) s = .next t ∧ RegsOnly s [oSe n + 0x18, oSe n + 8] t ∧ t.rf (oSe n + 0x18) 35 12 = fld v 35 12) ∧
      (s.rf (oSe n) 0 0 = 1 → fld v 35 12 ≤ s.rf (oSe n + 0x18) 35 12 →
        ∃ t, exec (.seSplim src nb v) s = .next t ∧ RegsOnly s [oSe n + 8] t ∧ t.seStat n 60 = true))

/-- The Physical Region Table and the ring 0 vectors (R355 to R361, R439, R443). A write of a PRT entry changes it while the table is not
locked and nothing afterwards; PRT_LOCK locks it and PRT_CTL_LOAD tells; a write of SEC_R0TVB makes every core with power latch the
event-line entries of the table it names. -/
def Obligations.RegionsAndVectors : Prop :=
  ∀ (s : State) (src : Src), s.calm = true →
    (∀ (i : BitVec 6) (w1 : Bool) (v : Pay) (d : RDesc),
      let off := oSec + 0x1000 + 16 * i.toNat + 8 * b2n w1
      s.canWrite src off v = true → regDesc off = some d →
      (bit (s.reg (oSec + 0xF00)) 0 = false →
        ∃ t, exec (.prtWrite src i w1 v) s = .next t ∧ RegsOnly s [off] t ∧ t.reg off = d.write (s.reg off) v) ∧
      (bit (s.reg (oSec + 0xF00)) 0 = true → exec (.prtWrite src i w1 v) s = .next s)) ∧
    (s.canWrite src (oSec + 0xF00) 1 = true →
      ∃ t, exec (.prtLock src) s = .next t ∧ RegsOnly s [oSec + 0xF00] t ∧ bit (t.reg (oSec + 0xF00)) 0 = true) ∧
    (s.canRead src (oSec + 0xF00) = true → exec (.prtCtlLoad src) s = .next (s.answers (s.reg (oSec + 0xF00)))) ∧
    (∀ v : Pay, s.canWrite src (oSec + 0xE00) v = true →
      ∃ t, exec (.secR0tvbWrite src v) s = .next t ∧ t = { s with dev := t.dev, cores := t.cores } ∧
        (∀ off, off ≠ oSec + 0xE00 → t.reg off = s.reg off) ∧ t.rf (oSec + 0xE00) 47 11 = fld v 47 11 ∧
        (∀ k, k < 64 → s.clOn (clusterOfCore k) = true →
          t.core k = { s.core k with latch0 := t.latchOf k (fld v 47 11 * 2048) true }))

/-! ### Twins and debug access (R475 to R524, R736) -/

/-- SPLIT, JOIN, LOOSE, SOLO, TWIN_FENCE and UNFENCE of a twin that may start them begin the transition and show it in TWIN_CMDSTAT; from
another mode they are refused with RESULT 2. Once what its steps wait for has happened (`transReady`), TWIN_TRANSITION_COMPLETE ends it
in the mode that R481 gives, with RESULT 1; before that it leaves the transition running
(R481, R482, R483, R518, R519). -/
def Obligations.TwinTransitions : Prop :=
  ∀ (s : State) (i : Instr) (src : Src) (tb : BitVec 5) (op : TwinOp) (keep ksync : Bool) (no : Nat),
    let u := tb.toNat
    let w := s.twin u
    s.calm = true → twinRow i = some (src, tb, op, keep, ksync, no) →
    (s.canWrite src (oTwin + 0x10) (twinCmdWord no tb ksync keep) = true → bit (s.reg (oTwin + 0x18)) 63 = false →
      (s.twinMay u op = true → w.hold = [] → w.outL = [] →
        ∃ t, exec i s = .next t ∧ t = { s with dev := t.dev, twins := t.twins, ctxs := t.ctxs } ∧
          t.reg (oTwin + 0x18) = atFld 63 63 1 ||| atFld 4 0 u ∧ (∀ off, off ≠ oTwin + 0x18 → t.reg off = s.reg off) ∧
          (t.twin u).trans = some ⟨op, keep, ksync, true, w.mode, none⟩ ∧ (t.twin u).mode = w.mode ∧ (∀ v, v ≠ u → t.twin v = s.twin v) ∧
          (∀ x, t.ctx x = s.ctx x ∨ (s.ctx x).run ∈ [.partner, .window] ∧ t.ctx x = { s.ctx x with run := .run })) ∧
      (w.moving = false → w.mode ≠ .off → transFrom op w.mode = false → (op = .loose → u < 2) →
        ∃ t, exec i s = .next t ∧ RegsOnly s [oTwin + 0x18] t ∧ t.rf (oTwin + 0x18) 62 59 = twIllegal)) ∧
    (∀ lo so before, w.trans = some ⟨op, keep, ksync, true, before, none⟩ → w.recov = none → s.ldg.held = [] →
      s.transReady u op = true → (op = .join → before ≠ .solo ∧ w.cmpLost = false) → (op = .unfence → (lo || so) = true) →
      ∃ t, exec (.twinTransitionComplete tb lo so) s = .next t ∧ (t.twin u).mode = afterTrans op lo so ∧ (t.twin u).trans = none ∧
        t.rf (oTwin + 0x18) 62 59 = twDone ∧ t.rf (oTwin + 0x18) 4 0 = u ∧
        (op ≠ .join ∨ 2 ≤ u → (∀ x, twinOf x = u → (s.ctx x).sp Sr.sqt = (s.ctx x).sp Sr.sqb) → w.sqtConf = [] →
          t.mem = s.mem ∧ t.tags = s.tags)) ∧
    (∀ lo so, s.transReady u op = false → w.trans.map (·.op) = some op → exec (.twinTransitionComplete tb lo so) s = .next s)

/-- Comparison and recovery (R487, R493, R496, R498, R502 to R504, R508, R510, R513, R516). A full window whose signatures agree is confirmed,
else recovery starts with cause 1; in loose mode the cores' oldest outputs leave once when they agree, recovery starts when they do
not or a partner stays away; BIST_END leaves the twin in the mode its results lead to. A faulty comparator takes the spare; a delay line's
parity error starts recovery with cause 8. TWIN_LOGACK acknowledges records up to SEQ. -/
def Obligations.TwinFaults : Prop :=
  ∀ (s : State) (tb : BitVec 5),
    let u := tb.toNat
    let w := s.twin u
    let n := clusterOfTwin u
    s.calm = true → s.sys.inReset = false →
    (∀ (src : Src) (v : Pay), s.canWrite src (oTwin + 0x38) v = true →
      ∃ t, exec (.twinLogack src v) s = .next t ∧ RegsOnly s [oTwin + 0x38] t ∧
        t.rf (oTwin + 0x38) 31 0 = min (fld v 31 0) (s.rf (oTwin + 0x30) 31 0)) ∧
    (w.mode = .tight → w.recov = none →
      (∀ sh, w.groups < 2 ^ s.rf (oTwin + 0x20) 3 0 → exec (.windowEnd tb sh) s = .next s) ∧
      (∀ sh, 2 ^ s.rf (oTwin + 0x20) 3 0 ≤ w.groups → (sh = none ∨ sh = some w.misr) → w.hold = [] →
        ∃ t, exec (.windowEnd tb sh) s = .next t ∧ t = { s with twins := t.twins, ctxs := t.ctxs } ∧
          t.twin u = { w with groups := 0, misr := misrSeed, undo := [], sqtConf := [] } ∧ (∀ v, v ≠ u → t.twin v = s.twin v) ∧
          (∀ x, t.ctx x = s.ctx x ∨ twinOf x = u ∧ (s.ctx x).run = .window ∧ t.ctx x = { s.ctx x with run := .run })) ∧
      (∀ sig, 2 ^ s.rf (oTwin + 0x20) 3 0 ≤ w.groups → sig ≠ w.misr →
        ∃ t, exec (.windowEnd tb (some sig)) s = .next t ∧ bit (t.reg (oTwin + 0x28)) 61 = true ∧
          (t.twin u).recov = some ⟨1, 0, Word.raw w.misr, Word.raw sig, s.time, .tight, false⟩ ∧ (t.twin u).hold = [] ∧
          ∀ x ∈ s.heldOf u, (t.ctx x).frozen = true)) ∧
    (w.mode = .loose → w.moving = false →
      (∀ (l m : LooseEntry) (ls ms : List LooseEntry), w.outL = l :: ls → w.outS = m :: ms →
        (∀ a, l.req = .ckpt a → m.req = .ckpt a → l.x ≠ m.x →
          ∃ t, exec (.outputMatch tb .good) s = .next t ∧ t = { s with twins := t.twins, ctxs := t.ctxs } ∧ (t.twin u).outL = ls ∧
            (t.twin u).outS = ms ∧ (t.ctx l.x).grants = (s.ctx l.x).grants ++ [.done] ∧
            (t.ctx m.x).grants = (s.ctx m.x).grants ++ [.done]) ∧
        (∀ pa v pc pc', l.req = .store pa 8 v pc → m.req = .store pa 8 v pc' → s.region pa = .dram → pa % 8 = 0 → s.noWindows →
          ∃ t, exec (.outputMatch tb .good) s = .next t ∧ t.word pa = v ∧ (∀ a, a / 8 ≠ pa / 8 → t.byte a = s.byte a) ∧
            (t.twin u).outL = ls ∧ (t.twin u).outS = ms) ∧
        (∀ a b, l.req = .ckpt a → m.req = .ckpt b → a ≠ b →
          ∃ t, exec (.outputMatch tb .good) s = .next t ∧ ((t.twin u).recov.map (·.cause)) = some 3)) ∧
      (∀ e es, w.outL = e :: es → w.outS = [] →
        ∃ t, exec (.partnerWaitTimeout tb false) s = .next t ∧ ((t.twin u).recov.map (·.cause)) = some 4)) ∧
    (∀ (rc : Recov) (lo so : Bool), w.recov = some rc → w.trans = none → rc.next = false → s.ldg.held = [] → s.ldg.live.slots = [] →
      ∃ t, exec (.bistEnd tb lo so) s = .next t ∧ (t.twin u).recov = none ∧ (t.twin u).rcnt = satInc 16 w.rcnt ∧
        (t.twin u).lf = !lo ∧ (t.twin u).sf = !so ∧
        (lo = true → so = true → rc.cause ≠ 8 → w.cmpLost = false → (t.twin u).mode = rc.before) ∧
        (lo ≠ so → (t.twin u).mode = .solo) ∧ (lo = false → so = false → (t.twin u).mode = .fenced)) ∧
    exec (.comparatorTest tb false) s = .next s ∧
    (bit (s.reg (oTwin + 0x28)) (32 + n) = false →
      ∃ t, exec (.comparatorTest tb true) s = .next t ∧ bit (t.reg (oTwin + 0x28)) (32 + n) = true ∧ (t.twin u).cmps = true ∧
        t.rf (oTwin + 0x30) 31 0 = (s.rf (oTwin + 0x30) 31 0 + 1) % 2 ^ 32 ∧ t = { s with dev := t.dev, twins := t.twins }) ∧
    (∀ second, w.mode = .tight → w.trans = none → w.recov = none →
      ∃ t, exec (.delayLineParity tb second) s = .next t ∧ (t.twin u).dlf = true ∧ ((t.twin u).recov.map (·.cause)) = some 8)

/-- Debug access (R511, R643, R736). Attaching sets DBGUSED. At an attached device DEBUG_HALT halts the contexts of a core of a split or solo twin and
sets DBG_BROKE, with Service mode after Run; DEBUG_RESUME and DEBUG_STEP let halted contexts run again, on or for one instruction; a
register or a word of memory is read or written. -/
def Obligations.DebugAccess : Prop :=
  ∀ s : State, s.calm = true →
    (s.debugAllowed = true → s.sys.inReset = false → ∃ t, exec .debugAttach s = .next t ∧ t.sec.attached = true ∧ t.secStat 60 = true ∧
      t.mem = s.mem ∧ t.ctxs = s.ctxs) ∧
    (s.debugOn = true →
      (∀ k : BitVec 6,
        let w := s.twin (k.toNat / 2)
        ((w.mode = .split ∨ w.mode = .solo) → w.moving = false → (s.ctxsOn k.toNat).isEmpty = false →
          ∃ t, exec (.debugHalt k) s = .next t ∧ t = { s with ctxs := t.ctxs, dev := t.dev } ∧ bit (t.reg (oTwin + 0x28)) 63 = true ∧
            (∀ y, t.ctx y = if y ∈ s.ctxsOn k.toNat then { s.ctx y with halted := true } else s.ctx y) ∧ (s.mode = mRun → t.mode = mService)) ∧
        ((∀ x ∈ s.ctxsOn k.toNat, (s.ctx x).evHeld = false ∧ (s.ctx x).linesHeld = []) →
          ∃ t, exec (.debugResume k) s = .next t ∧ t = { s with ctxs := t.ctxs } ∧
            ∀ y, t.ctx y = if y ∈ s.ctxsOn k.toNat ∧ (s.ctx y).halted = true then { s.ctx y with halted := false, stepping := false } else s.ctx y)) ∧
      (∀ (x : BitVec 8), (s.ctx x.toNat).halted = true →
        (∃ t, exec (.debugStep x) s = .next t ∧ t = { s with ctxs := t.ctxs } ∧ (∀ y, y ≠ x.toNat → t.ctx y = s.ctx y) ∧
          t.ctx x.toNat = { s.ctx x.toNat with halted := false, stepping := true }) ∧
        (∀ (r : BitVec 5) (bank : BitVec 3), bank.toNat < 7 →
          (exec (.debugRegisterAccess x false (r.setWidth 12) bank none) s
            = .next { s with answer := some ((s.ctx x.toNat).rdKey (regKey bank.toNat r)) }) ∧
          (∀ w, r ≠ 0 → ∃ t, exec (.debugRegisterAccess x false (r.setWidth 12) bank (some w)) s = .next t ∧ t = { s with ctxs := t.ctxs } ∧
            (t.ctx x.toNat).rdKey (regKey bank.toNat r) = w ∧
            ∀ k, k ≠ regKey bank.toNat r → (t.ctx x.toNat).rdKey k = (s.ctx x.toNat).rdKey k))) ∧
      (∀ (pa : BitVec 48), pa.toNat % 8 = 0 → s.region pa.toNat = .dram → s.prtOk 0 pa.toNat = true → s.noWindows →
        s.poisoned (pa.toNat / 64) = false →
        (∃ t, exec (.debugMemoryAccess pa none) s = .next t ∧ t.answer = some (s.word pa.toNat) ∧ t.mem = s.mem ∧ t.tags = s.tags) ∧
        (∀ w, ∃ t, exec (.debugMemoryAccess pa (some w)) s = .next t ∧ t.word pa.toNat = w ∧
          ∀ a, a / 8 ≠ pa.toNat / 8 → t.byte a = s.byte a ∧ t.tagAt a = s.tagAt a)))

/-! ### The Command Engine and the Ledger (R525 to R573, R631 to R637, R655) -/

/-- Arrival (R528 to R546). A sound command packet that nothing speaks against, come as a UDP datagram, by a submission
queue or by the Service Port, is accepted into the free slot, with ACCEPTED as its reply. A completion queue head lets a
waiting reply go; the Service Port gives its oldest reply and its status. Queries (R542, R543, R631 to R633, R721).
STATUS, STREAM_INFO, TELEM_READ and ATTEST_READ reply DONE with their result, or FAILED with APPCODE 1 for parameters they
do not take. ATTEST, while the identity stands and no report is being made, begins a report over its nonce; ATTEST_SIGNED
completes it. -/
def Obligations.PacketsAndQueries : Prop :=
  (∀ (s : State) (k : Nat), s.calm = true →
    (∀ (p : Peer) (bs : List (BitVec 8)), s.viaReady (.udp p) = true → s.sound (.udp p) bs = true → s.takes bs k = true →
      ∃ t, exec (.udpDatagram p bs) s = .next t ∧ Accepted s (.udp p) bs k t ∧ t.mem = s.mem) ∧
    (∀ (c : BitVec 2) (q : BitVec 4) (tail : BitVec 32) (e : SqEntry),
      let p := s.qpair (pairKey c q)
      let bs := e.bytes.take e.len.toNat
      let via := Via.pcie c q e.cookie e.buf e.size
      c.toNat < 3 → p.sqHead ≠ tail.toNat % 2 ^ p.sqLog → s.ldgStat 60 = false → s.viaReady via = true → s.sound via bs = true →
      s.takes bs k = true →
      ∃ t, exec (.sqTailDoorbell c q tail [e]) s = .next t ∧ Accepted s via bs k t ∧ t.mem = s.mem ∧
        (t.qpair (pairKey c q)).sqHead = (p.sqHead + 1) % 2 ^ p.sqLog) ∧
    (∀ bs : List (BitVec 8), s.viaReady .sp = true → s.sound .sp bs = true → s.takes bs k = true →
      ∃ t, exec (.spWritePacket bs) s = .next t ∧ Accepted s .sp bs k t ∧ t.mem = s.mem) ∧
    (∀ (c : BitVec 2) (q : BitVec 4) (head : BitVec 32) (o : ReplyOut),
      let p := s.qpair (pairKey c q)
      c.toNat < 3 → s.endpoint c.toNat = true → p.en = true → p.wait = [o] →
      ({ p with cqHead := head.toNat % 2 ^ p.cqLog } : QPair).cqRoom ≠ 0 →
      ∃ t, exec (.cqHeadDoorbell c q head []) s = .next t ∧ t = { s with ldg := t.ldg } ∧ t.ldg.sent = cutReply o :: s.ldg.sent ∧
        (t.qpair (pairKey c q)).wait = [] ∧ (t.qpair (pairKey c q)).cqHead = head.toNat % 2 ^ p.cqLog) ∧
    (∀ o os, s.ldg.spQ = o :: os → s.ldg.spWait = [] →
      ∃ t, exec .spReadReply s = .next t ∧ t.ldg.spQ = os ∧ t.ldg.sent = o :: s.ldg.sent ∧
        t.answer = some (Word.rawN (s.replyBytes o.r).length) ∧ t = { s with ldg := t.ldg, answer := t.answer }) ∧
    (s.ldg.spQ = [] → exec .spReadReply s = .next { s with answer := some (Word.rawN 0) }) ∧
    exec .spReadStatus s = .next { s with answer := some (Word.rawN (b2n !s.ldg.spQ.isEmpty + 2 * b2n s.spReady)) }) ∧
  (∀ s : State, s.calm = true →
    (∀ (i : Instr) (via : Via) (bs : List (BitVec 8)) (op : Nat),
      let h := pktHdr bs
      queryRow i = some (via, bs, op) → s.viaReady via = true → s.sound via bs = true → flagQry h = true → hdrOpcode h = op →
      (∀ res, s.queryResult op (pktParams bs) = some res →
        ∃ t r, exec i s = .next t ∧ Replied s via r t ∧ r.status = stDone ∧ r.result = res ∧ r.opcode = op ∧ t.mem = s.mem) ∧
      (op ≠ 3 → s.queryResult op (pktParams bs) = none →
        ∃ t r, exec i s = .next t ∧ Replied s via r t ∧ r.status = stFailed ∧ r.appcode = apBadParam ∧ t.mem = s.mem) ∧
      (op = 3 → (pktParams bs).length = 32 → s.sec.att = none → s.secStat 62 = false → s.secStat 63 = true →
        ∃ t, exec i s = .next t ∧ t.secStat 61 = true ∧ t.mem = s.mem ∧
          t.sec.att = some ⟨via, hdrStream h, hdrFlags h, pktParams bs, s.reportBody (pktParams bs)⟩)) ∧
    (∀ a, s.sec.att = some a → s.secStat 63 = true →
      ∃ t, exec .attestSigned s = .next t ∧ t.sec = { s.sec with att := none, report := s.sec.signed a.body } ∧ t.secStat 61 = false ∧
        t.mem = s.mem))

/-- Management commands (R543, R635, R636, R655). STREAM_OPEN opens a closed stream as its parameters say, STREAM_CLOSE closes an idle
one, BLOB_PUT writes the blob buffer, KEY_SET makes the key of a good blob current and else fails with the blob's APPCODE, MODE_REQ
enters Safe-Hold, or sets a reset for 1 ms later where it is allowed; each ends and is retired. -/
def Obligations.ManagementCommands : Prop :=
  ∀ (s : State) (nb : BitVec 17) (v : Slot),
    let n := nb.toNat
    let p := v.params
    let k := leAt p 0 2
    s.calm = true → s.alone n v →
    (s.mgmt n 0x10 = some v →
      (p.length = 16 → k ≤ 0xFFF → leAt p 2 1 ≤ 4 → leAt p 3 1 = 0 → 0 < leAt p 4 2 → leAt p 4 2 ≤ 4096 → leAt p 8 1 ≤ 1 → leAt p 9 7 = 0 →
        (s.stream k).st = 0 → (s.key? k).isSome = true →
        ∃ t, exec (.streamOpen nb) s = .next t ∧ EndedAs n v stDone 0 t ∧ (t.stream k).st = 1 ∧ (t.stream k).transport = leAt p 2 1 ∧
          (t.stream k).crc = false ∧ (t.stream k).credits = leAt p 4 2 ∧ (t.stream k).ctxA = leAt p 6 1 ∧ (t.stream k).ctxB = leAt p 7 1 ∧
          (t.stream k).strmOk = decide (leAt p 8 1 = 1)) ∧
      (p.length ≠ 16 → ∃ t, exec (.streamOpen nb) s = .next t ∧ EndedAs n v stFailed apBadParam t)) ∧
    (s.mgmt n 0x11 = some v → p.length = 2 →
      (5 ≤ k → k ≤ 0xFFF → (s.stream k).st = 1 → ∃ t, exec (.streamClose nb) s = .next t ∧ EndedAs n v stDone 0 t ∧ (t.stream k).st = 0) ∧
      (k < 5 → ∃ t, exec (.streamClose nb) s = .next t ∧ EndedAs n v stFailed apNotAllowed t)) ∧
    (s.mgmt n 0x20 = some v → 4 ≤ p.length → leAt p 0 4 + (p.drop 4).length ≤ 0x10000 →
      ∃ t, exec (.blobPut nb) s = .next t ∧ EndedAs n v stDone 0 t ∧ t.ldg.blobLen = max s.ldg.blobLen (leAt p 0 4 + (p.drop 4).length) ∧
        ∀ i, i < (p.drop 4).length → Tbl.get (fun _ => 0) t.ldg.blob (leAt p 0 4 + i) = (p.drop 4).getD i 0) ∧
    (s.mgmt n 0x21 = some v → p = [] →
      (∀ i key, s.keyBlob v.stream = (0, some (i, key), none) → s.sec.pend = [] →
        ∃ t, exec (.keySet nb) s = .next t ∧ EndedAs n v stDone 0 t ∧ t.key? i = some key ∧ t.ldg.blob = [] ∧ t.ldg.blobLen = 0) ∧
      (∀ app x y, s.keyBlob v.stream = (app, x, y) → app ≠ 0 → ∃ t, exec (.keySet nb) s = .next t ∧ EndedAs n v stFailed app t)) ∧
    (s.mgmt n 0x30 = some v → p.length = 1 → s.modeBusy = false →
      (leAt p 0 1 = mSafe → s.mode ∈ [mBoot, mRun, mDegraded, mService, mQuiet] → s.ldg.held = [] →
        ∃ t, exec (.modeReq nb) s = .next t ∧ EndedAs n v stDone 0 t ∧ t.mode = mSafe) ∧
      (leAt p 0 1 = mReset → bit (s.reg 0x20) 0 = true →
        ∃ t, exec (.modeReq nb) s = .next t ∧ EndedAs n v stDone 0 t ∧ t.sys.resetAt = some (s.time + 1000000)))

/-- Dispatch and the mailbox (R551 to R563). DISPATCH of a waiting command puts its image into memory and its LPOS into the mailbox of
the bound context, which LDG_NEXT takes. LDG_EFFPUT adds a held effect to the command that runs, LDG_COMMIT ends it DONE or FAILED with its
code, and a request under an LPOS that does not run there is answered STALE; LDG_ACK reads the answer. LDG_IMGBASE_WRITE moves the images;
a deadline ends its command; the completion of the last effect retires its command. -/
def Obligations.DispatchAndCommit : Prop :=
  ∀ (s : State) (src : Src) (xb : BitVec 8) (nb : BitVec 17) (v : Slot),
    let x := xb.toNat
    let n := nb.toNat
    s.calm = true → s.noWindows →
    (let a := s.rf (oLdg + 0x20) 47 13 * 0x2000 + 0x2000 * x
     s.slot? n = some v → v.st = .waiting → 5 ≤ v.stream → s.turn n v = true → bit (s.reg (oLdg + 0x10)) 0 = true →
      bit (s.reg (oLdg + 0x10)) 1 = false → s.ldgStat 63 = false → v.mirrorWait = false → s.mode ∈ [mBoot, mRun, mDegraded, mService] →
      (s.stream v.stream).ctxA = x → s.bindable x = true → s.sys.quiet = .none → (s.mail x).next = none → (s.ctx x).started = true →
      s.inDram a 0x2000 = true →
      ∃ t, exec (.dispatch nb) s = .next t ∧ t.slot? n = some { v with st := .sent x } ∧ (t.mail x).next = some (lposOf n v) ∧
        t.word a = (imageWords n v).getD 0 Word.nil) ∧
    (s.canRead src (oLdg + 0x8000 + 0x20 * x) = true →
      (∀ l, (s.mail x).next = some l → s.byLpos l = some (n, v) →
        ∃ t, exec (.ldgNext src xb) s = .next t ∧ t.answer = some (Word.raw (setBit (p64 l) 63 true)) ∧ (t.mail x).next = none ∧
          t.slot? n = some { v with st := .running x } ∧ Tbl.look t.runs x = some l ∧
          t = { s with answer := t.answer, ldg := t.ldg, runs := t.runs }) ∧
      ((s.mail x).next = none → exec (.ldgNext src xb) s = .next (s.answers 0))) ∧
    (∀ va : Pay,
      let pa := fld va 47 3 * 8
      let l := fld (s.word pa).pay 31 0
      let w1 := (s.word (pa + 8)).pay
      let a := fld (s.word (pa + 16)).pay 47 0
      let len := fld (s.word (pa + 24)).pay 12 0
      s.inDram pa 32 = true →
      (s.canWrite src (oLdg + 0x8010 + 0x20 * x) va = true →
        (s.runsOn x l = some (n, v) → effFormBad (s.word pa) (s.word (pa + 8)) (s.word (pa + 16)) (s.word (pa + 24)) = false →
          bit (s.word pa).pay 59 = false → s.inDram a len = true → s.payloadBad (fld (s.word pa).pay 63 60) l w1 a len = false →
          v.next < 255 → v.bytes + len ≤ 0x10000 →
          ∃ t, exec (.ldgEffput src xb va) s = .next t ∧ t.mem = s.mem ∧
            t.slot? n = some { v with next := v.next + 1, bytes := v.bytes + len, effs := v.effs ++
              [⟨v.next, fld (s.word pa).pay 63 60, w1, false, a, len, [], .held⟩] } ∧
            (t.mail x).ack = some (setBit (atFld 57 56 2 ||| atFld 47 40 v.next) 63 true)) ∧
        (s.runsOn x l = none → ∃ t, exec (.ldgEffput src xb va) s = .next t ∧ t.mem = s.mem ∧ t.ldg.live = s.ldg.live ∧
          (t.mail x).ack = some (setBit (atFld 57 56 2 ||| atFld 7 0 ackStale) 63 true))) ∧
      (s.canWrite src (oLdg + 0x8008 + 0x20 * x) va = true →
        (s.runsOn x l = some (n, v) → s.alone n v → [s.word pa, s.word (pa + 8), s.word (pa + 16), s.word (pa + 24)].all (fun w => w.tag = Tag.raw) = true →
          fld (s.word pa).pay 61 32 = 0 → fld w1 63 32 = 0 → fld (s.word (pa + 16)).pay 63 48 = 0 → fld (s.word (pa + 24)).pay 63 13 = 0 →
          len ≤ 4096 → s.inDram a len = true → s.effUse ≤ effArea →
          (fld (s.word pa).pay 63 62 = 1 → ∃ t, exec (.ldgCommit src xb va) s = .next t ∧ EndedAs n v stDone (fld w1 31 0) t) ∧
          (fld (s.word pa).pay 63 62 = 2 → ∃ t, exec (.ldgCommit src xb va) s = .next t ∧ EndedAs n v stFailed (fld w1 31 0) t)) ∧
        (s.runsOn x l = none → ∃ t, exec (.ldgCommit src xb va) s = .next t ∧ t.ldg.live = s.ldg.live ∧
          (t.mail x).ack = some (setBit (atFld 57 56 1 ||| atFld 7 0 ackStale) 63 true)))) ∧
    (s.canRead src (oLdg + 0x8018 + 0x20 * x) = true → (s.mail x).wait = none →
      ∃ t, exec (.ldgAck src xb) s = .next t ∧ t.answer = some (Word.raw ((s.mail x).ack.getD 0)) ∧ (t.mail x).ack = none ∧
        t = { s with answer := t.answer, ldg := t.ldg }) ∧
    (∀ w : Pay, s.canWrite src (oLdg + 0x20) w = true → s.ldg.held = [] →
      ∃ t, exec (.ldgImgbaseWrite src w) s = .next t ∧ RegsOnly s [oLdg + 0x20] t ∧ t.rf (oLdg + 0x20) 47 13 = fld w 47 13) ∧
    (s.alone n v → hdrDeadline v.hdr ≠ 0 → v.st = .waiting →
      ∃ t, exec (.deadline nb) s = .next t ∧ EndedAs n v stDeadline 0 t ∧ (expiryOf v).toNat ≤ t.time.toNat) ∧
    (∀ (e : Eff) (gen : BitVec 15) (idx : BitVec 16), s.ldg.live.slots = [(n, v)] → (∀ q ∈ s.ldg.live.streams, q.2.st ≠ 2) → s.stoIdle →
      s.ldg.mail = [] → v.gen = gen.toNat → v.effs = [e] → e.idx = idx.toNat → e.st = .released → v.st = .ended → v.replied = true →
      ∃ t, exec (.effectComplete nb gen idx) s = .next t ∧ EndedAs n v v.status v.appcode t)

/-- The journal and the mirror (R550, R564 to R567). JOURNAL_DRAIN empties the journal front into JNV; LEDGER_REBUILD begins in Boot once
DRAM is trained, LEDGER_REBUILD_END ends it; a peer's authenticated write goes into the mirror area; MIRROR_ACK lets a command's ACCEPTED
go, MIRROR_TIMEOUT shows the mirror lost and begins a resend, whose end clears it; RESTORE in Boot takes the peer's copy. -/
def Obligations.JournalAndMirror : Prop :=
  ∀ (s : State) (nb : BitVec 17),
    let n := nb.toNat
    s.calm = true →
    (∃ t, exec (.journalDrain []) s = .next t ∧ t = { s with ldg := { s.ldg with front := 0, drained := s.ldg.live }, dev := t.dev }) ∧
    (s.mode = mBoot → s.ldg.trained = true → s.ldgStat 63 = false → bit (s.reg (oPwr + 0x30)) 63 = false →
      ∃ t, exec .ledgerRebuild s = .next t ∧ t.ldgStat 63 = true) ∧
    (s.ldgStat 63 = true → s.ldg.live.slots = [] → (∀ e ∈ s.ldg.live.streams, e.2.st ≠ 2) →
      ∃ t, exec .ledgerRebuildEnd s = .next t ∧ t.ldgStat 63 = false ∧ bit (t.reg (oPwr + 0x30)) 63 = false ∧
        t = { s with dev := t.dev, ldg := { s.ldg with front := 0, drained := s.ldg.live } }) ∧
    (∀ (off : BitVec 26) (w : Word), off.toNat % 8 = 0 → bit (s.reg (oLdg + 0x28)) 0 = true → (s.key? kMirror).isSome = true →
      off.toNat + 8 ≤ 0x3800000 → s.noWindows →
      let a := s.rf (oLdg + 0x30) 47 26 * 0x4000000 + off.toNat
      (∃ t, exec (.mirrorWrite true off [w]) s = .next t ∧ t.word a = w ∧ ∀ b, b / 8 ≠ a / 8 → t.byte b = s.byte b ∧ t.tagAt b = s.tagAt b) ∧
      exec (.mirrorWrite false off [w]) s = .next s) ∧
    (∀ v tm, s.ldg.mirQ = [(n, tm)] → s.slot? n = some v → v.mirrorWait = true → v.via = .sp → s.viaReady .sp = true →
      ∃ t r, exec (.mirrorAck nb) s = .next t ∧ t.ldg.mirQ = [] ∧ t.slot? n = some { v with mirrorWait := false } ∧ r.status = stAccepted ∧
        Replied s .sp r t) ∧
    (∀ tm, s.ldg.mirQ = [(n, tm)] → s.slot? n = none →
      ∃ t, exec (.mirrorTimeout nb) s = .next t ∧ t.ldgStat 62 = true ∧ t.ldg.resync = true ∧ t.ldg.mirQ = []) ∧
    (s.ldg.resync = true → ∃ t, exec .mirrorResyncDone s = .next t ∧ t.ldgStat 62 = false ∧
      t = { s with dev := t.dev, ldg := { s.ldg with resync := false } }) ∧
    (∀ (src : Src) (c : Led), s.canWrite src (oLdg + 0x28) (setBit (s.reg (oLdg + 0x28)) 60 true) = true → s.mode = mBoot →
      s.ldgStat 63 = false → s.ldg.held = [] →
      ∃ t, exec (.restore src (some c)) s = .next t ∧ t.ldgStat 63 = true ∧ t.ldg.live = { c with journal := s.ldg.live.journal } ∧
        t.mem = s.mem)

/-! ### The Store Engine (R574 to R614) -/

/-- Residency (R583 to R585, R608). The completed read of a block, good in every check, makes the block resident in the free frame that
is taken, with the words of the block, clean, and contexts parked on it go on; a zero block becomes resident with FIX 0 in every word.
FRAME_EVICTION frees the next clean, unpinned frame in clock order while fewer frames are free than LOWFR asks. DRIVE_READY lets the
drive's commands be issued again. -/
def Obligations.StoreFrames : Prop :=
  ∀ s : State, s.calm = true →
    (s.noWindows → s.unpoisoned → s.sto.taken = [] →
      (∀ (bb : BitVec 26) (f src : Nat),
        let b := bb.toNat
        bit (s.reg (oSto + 0x10)) 63 = true → s.sto.frpBase % 8 = 0 → s.sto.mapBase % 8 = 0 → s.sto.reads = [⟨b, [], [], src, true⟩] →
        s.inDram (s.mapAddr b) 8 = true → s.inDram (s.sto.frpBase + 0x10000 * f) 0x10000 = true →
        firstN s.sto.nfr 0 (fun g => (s.frame? g).isNone) = some f →
        (∀ (second : Bool) (d : DriveBlock), bit (s.mapWord b) 63 = false → s.readDrive ⟨b, [], [], src, true⟩ = some (b2n second) →
          Tbl.look s.sto.awaiting (b2n second) = none → d.done = true → d.magic = true → d.vg.toNat = s.rf (oSto + 0x20) 63 55 →
          d.block.toNat = b → d.digest = true →
          ∃ t, exec (.driveReadComplete bb second d) s = .next t ∧ Resident s b f (fun i => Tbl.get (fun _ => Word.fix 0) d.words i) t) ∧
        (bit (s.mapWord b) 63 = true → ∃ t, exec (.zeroBlockFill bb) s = .next t ∧ Resident s b f (fun _ => Word.fix 0) t)) ∧
      (∀ f fr, s.mounted = true → s.victimFrame = some f → s.frame? f = some fr → s.sto.mapBase % 8 = 0 →
        s.inDram (s.mapAddr fr.block) 8 = true →
        s.sto.nfr - s.sto.frames.length < s.sto.nfr * min 50 (s.rf (oSto + 0x10) 39 32) / 100 →
        ∃ t, exec .frameEviction s = .next t ∧ t.frame? f = none ∧ t.sto.hand = (f + 1) % s.sto.nfr ∧
          (∀ g, g ≠ f → t.frame? g = s.frame? g) ∧ t.mapWord fr.block = setBit (setFld (s.mapWord fr.block) 47 28 0) 62 false ∧
          StoreActed s (fun w => w = s.mapAddr fr.block / 8) t)) ∧
    (∀ second, ∃ t, exec (.driveReady second) s = .next t ∧ t = { s with sto := t.sto } ∧ Tbl.look t.sto.awaiting (b2n second) = none)

/-- The transfer queue (R587, R589, R595 to R598). A write of STO_XQTAIL moves the tail. READ copies words of a clean, resident frame to
its destination; FETCH of a resident block is done; PIN and UNPIN count the frame's pins up and down; each writes its status word and
HEAD passes it. SEAL of a frame that its command opened takes a free slot and starts the drive writes, and with ZERO it seals a zero block at
once; SEAL_COMPLETE records the seal in the journal, seals the frame and answers with the slot. -/
def Obligations.TransferQueue : Prop :=
  ∀ s : State, s.calm = true → s.noWindows → s.unpoisoned →
    (∀ (src : Src) (v : Pay), s.canWrite src (oSto + 0x50) v = true → (∀ i, i < s.xqSize → 1 ≤ s.xqOpc i ∧ s.xqOpc i ≤ 5) →
      ∃ t, exec (.stoXqtail src v) s = .next t ∧ RegsOnly s [oSto + 0x50] t ∧ t.rf (oSto + 0x50) 11 0 = fld v 11 0) ∧
    (∀ (ib : BitVec 12) (f : Nat) (fr : FrameSt),
      let i := ib.toNat
      let b := s.xqBlock i
      let l := s.xqLpos i
      let k := fld (s.xqWord i 1).pay 29 16
      let src := s.sto.frpBase + 0x10000 * f + 8 * fld (s.xqWord i 1).pay 12 0
      let dst := fld (s.xqWord i 2).pay 47 3 * 8
      s.frameOf b = some f → s.frame? f = some fr →
      (s.xqReady i 1 = true → fr.own = .clean → 0 < k → fld (s.xqWord i 1).pay 12 0 + k ≤ 8192 → s.inDram dst (8 * k) = true →
        s.sto.frpBase % 8 = 0 → (src + 8 * k ≤ dst ∨ dst + 8 * k ≤ src) →
        ∃ t, exec (.read ib ⟨.clean, .clean⟩) s = .next t ∧ XqEnded s i xqOk k (fun w => dst / 8 ≤ w ∧ w < dst / 8 + k) t ∧
          ∀ j, j < k → (dst + 8 * j) / 8 ≠ (s.xqAddr i + 24) / 8 → t.word (dst + 8 * j) = s.word (src + 8 * j)) ∧
      (s.xqReady i 2 = true → ∃ t, exec (.fetch ib .clean) s = .next t ∧ XqEnded s i xqOk 0 (fun _ => False) t ∧ t.sto.frames = s.sto.frames) ∧
      (s.xqReady i 3 = true → (fr.pins ≠ 0 ∨ 256 < s.sto.nfr - s.pinned) →
        ∃ t, exec (.pin ib .clean) s = .next t ∧ XqEnded s i xqOk 0 (fun _ => False) t ∧ t.frame? f = some { fr with pins := fr.pins + 1 }) ∧
      (s.xqReady i 4 = true →
        ∃ t, exec (.unpin ib .clean) s = .next t ∧ XqEnded s i xqOk 0 (fun _ => False) t ∧ t.frame? f = some { fr with pins := fr.pins - 1 }) ∧
      (s.xqReady i 5 = true → s.lposRuns l = true → fr.own = .opened l →
        (bit (s.xqWord i 0).pay 59 = true → s.journal.length < journalMax →
          ∃ t, exec (.seal ib ⟨.clean, .clean⟩) s = .next t ∧ XqEnded (s.setJournal (s.journal ++ [.sealed b none l])) i xqOk 0 (fun _ => False) t ∧ t.frame? f = some { fr with own := .sealed l none }) ∧
        (∀ n, bit (s.xqWord i 0).pay 59 = false → s.writable ≠ [] → s.journal.length < journalMax → s.freeSlot = some n →
          ∃ t, exec (.seal ib ⟨.clean, .clean⟩) s = .next t ∧ t = { s with dev := t.dev, sto := t.sto } ∧ t.sto.seals = [⟨i, b, l, n, s.writable⟩] ∧
            Tbl.look t.sto.slots n = some b ∧ t.sto.taken = [i] ∧ t.sto.frames = s.sto.frames ∧
            ∃ img, t.sto.drv = (s.writable.map (fun d => DriveCmd.write d (slotLba n) true img)).reverse ++ s.sto.drv)) ∧
      (∀ e : StoSeal, s.sto.seals = [e] → e.xq = i → e.block = b → s.region (s.xqAddr i) ≠ .keep → s.rf (oSto + 0x58) 11 0 = i → s.xqSize ≤ 4096 → s.sto.doneXq = [] →
        s.sto.taken = [i] → s.unbound 0x56 = true →
        ∃ t, exec (.sealComplete ib) s = .next t ∧ t.frame? f = some { fr with own := .sealed e.lpos (some e.slot) } ∧ t.sto.seals = [] ∧
          XqEnded (s.setJournal (s.journal ++ [.sealed b (some e.slot) e.lpos])) i xqOk e.slot (fun _ => False) t))

/-- Checkpoints, mounting and drives (R575, R594, R599 to R608, R611). A checkpoint starts when the journal is as full as STO_CTL asks, and its
end drops what stood before it, but for seals of unretired commands. MOUNT, FORMAT and RESYNC start where they may; MOUNT_END with one
sound drive fills the map from its checkpoint and the journal and shows RESULT 1; FORMAT_END, with RESULT 6 when
a drive holds fewer than 262,656 + 19 × NSLOTS LBAs, and RESYNC_END end theirs; a write with
EN = 0 unmounts a store without reads. A fault or a timeout of one of two mirrored drives fences it and shows the store degraded. -/
def Obligations.StoreVolume : Prop :=
  ∀ (s : State), s.calm = true → s.kept = true →
    (s.mounted = true → s.stoStat 56 = false → s.ckptLimit ≤ s.journal.length →
      ∃ t, exec .checkpoint s = .next t ∧ t = { s with dev := t.dev, sto := { s.sto with ckptAt := s.journal.length } } ∧ t.stoStat 56 = true) ∧
    (s.stoStat 56 = true → s.ldg.live.slots = [] → s.sto.taken = [] →
      ∃ t, exec .checkpointEnd s = .next t ∧ t.stoStat 56 = false ∧ t.journal = s.journal.drop s.sto.ckptAt ∧
        t.sto = { s.sto with ckptAt := 0, epoch := s.sto.epoch + 1, cur := !s.sto.cur, drv := t.sto.drv }) ∧
    (∀ (src : Src) (v : Pay), s.sto.job = .none → bit v 59 = false → bit v 60 = false → bit v 61 = false → bit v 63 = true →
      (s.canWrite src (oSto + 0x10) (setBit v 59 true) = true → s.mounted = false → fld v 1 0 ≠ 0 →
        (fld v 1 0 = 3 → fld v 7 6 ≠ fld v 5 4) →
        ∃ t, exec (.mount src v) s = .next t ∧ t = { s with dev := t.dev, sto := t.sto } ∧ t.sto.job = .mount ∧ t.sto.drives = fld v 1 0 ∧
          t.sto.mapBase = s.rf (oSto + 0x28) 47 16 * 0x10000 ∧ t.stoStat 62 = true ∧ t.rf (oSto + 0x18) 51 48 = 0) ∧
      (s.canWrite src (oSto + 0x10) (setBit v 60 true) = true → s.mounted = false → fld v 1 0 ≠ 0 →
        (fld v 1 0 = 3 → fld v 7 6 ≠ fld v 5 4) → s.rf (oSto + 0x20) 25 0 + 4096 ≤ s.rf (oSto + 0x20) 54 28 →
        ∃ t, exec (.format src v) s = .next t ∧ t = { s with dev := t.dev, sto := { s.sto with job := .format, drives := fld v 1 0 } } ∧
          t.stoStat 62 = true ∧ t.rf (oSto + 0x18) 51 48 = 0) ∧
      (s.canWrite src (oSto + 0x10) (setBit v 61 true) = true → s.mounted = true → s.stoStat 60 = true →
        ∃ t, exec (.resync src v) s = .next t ∧ t = { s with dev := t.dev, sto := { s.sto with job := .resync } } ∧ t.stoStat 62 = true ∧
          t.stoStat 57 = true) ∧
      (s.canWrite src (oSto + 0x10) (setBit v 63 false) = true → bit (s.reg (oSto + 0x10)) 63 = true → s.mounted = true → s.sto.reads = [] →
        s.sto.taken = [] →
        ∃ t, exec (.stoDisable src v) s = .next t ∧ t.mounted = false ∧ t.sto.frames = [] ∧ t.sto.slots = [] ∧ t.rf (oSto + 0x18) 19 0 = 0 ∧
          t.mem = s.mem ∧ (∀ x b, (s.ctx x).run = .pref b → (t.ctx x).run = .run))) ∧
    (∀ lbas vg nb ns ep cur d1 c, s.noWindows → s.unpoisoned → minLbas (ns.toNat + 1) ≤ lbas.toNat →
      s.inDram s.sto.mapBase (8 * (nb.toNat + 1)) = true → s.sto.job = .mount → s.sto.drives = 1 → s.sto.mapBase % 8 = 0 → s.journal = [] → s.ldg.live.slots = [] →
      ∃ t, exec (.mountEnd (.sb lbas vg nb ns ep cur) d1 (some c)) s = .next t ∧ t.mounted = true ∧ t.stoStat 62 = false ∧
        t.rf (oSto + 0x18) 51 48 = 1 ∧ t.sto.job = .none ∧ t.sto.epoch = ep.toNat ∧ t.sto.frames = [] ∧
        t.reg (oSto + 0x20) = atFld 63 55 vg.toNat ||| atFld 54 28 ns.toNat ||| atFld 25 0 nb.toNat ∧
        ∀ b, b ≤ nb.toNat → t.mapWord b =
          (match Tbl.look (c.slots.foldl (fun u e => Tbl.insert u e.1 e.2) []) b with | some n => atFld 27 0 n | none => atFld 63 63 1)) ∧
    (s.sto.job = .format → ∃ t, exec .formatEnd s = .next t ∧ t.stoStat 62 = false ∧
      ((∀ n, n < 2 → s.drvIn n = true → minLbas (s.rf (oSto + 0x20) 54 28 + 1) ≤ s.driveLbas n) →
        t.rf (oSto + 0x18) 51 48 = 1 ∧ t.journal = [] ∧
        t.sto = { s.sto with job := .none, epoch := 1, cur := false, stamps := [], slots := [], drv := t.sto.drv }) ∧
      ∀ n, n < 2 → s.drvIn n = true → s.driveLbas n < minLbas (s.rf (oSto + 0x20) 54 28 + 1) →
        t = { s with dev := t.dev, freeCount := t.freeCount, sto := { s.sto with job := .none } } ∧ t.rf (oSto + 0x18) 51 48 = 6) ∧
    (s.sto.job = .resync → ∃ t, exec .resyncEnd s = .next t ∧ t = { s with dev := t.dev, sto := { s.sto with job := .none, drv := t.sto.drv } } ∧
      t.stoStat 62 = false ∧ t.stoStat 57 = false ∧ t.stoStat 60 = false ∧ t.drvFenced 0 = false ∧ t.drvFenced 1 = false) ∧
    (∀ second : Bool,
      let n := b2n second
      s.sto.drives = 3 → s.drvFenced n = false → s.drvFenced (1 - n) = false → s.sto.reads = [] → s.sto.seals = [] → s.sto.job = .none →
      (∃ t, exec (.driveFault second) s = .next t ∧ t = { s with dev := t.dev, sto := t.sto } ∧ t.drvFenced n = true ∧ t.stoStat 60 = true ∧
        t.stoStat 61 = s.stoStat 61) ∧
      (∀ tm, Tbl.look s.sto.awaiting n = some tm →
        ∃ t, exec (.driveCommandTimeout second) s = .next t ∧ t = { s with dev := t.dev, sto := t.sto, time := t.time } ∧
          t.drvFenced n = true ∧ t.stoStat 60 = true ∧ tm.toNat ≤ t.time.toNat))

/-! ### The Boot ROM, keys, fuses and the Keccak engine (R615 to R648) -/

/-- The Boot ROM, the identity and measurements (R618 to R629, R645). The ROM ends in WFE with code 0x11, 0x13 or 0x10 for bad fuses, life
cycle 0 or no flash. An image A that passes every check is loaded into both copies of Keep SRAM, measured and started with code 1, or
with code 3 where no key slot is programmed yet, whose key then fills slot 0; with no image that passes it ends with 0x12.
IDENTITY_DERIVATION shows whether the identity stands. SEC_MEASEXT extends a measurement by the digest written. -/
def Obligations.BootAndMeasurement : Prop :=
  ∀ s : State, s.calm = true →
    (∀ (flash blown : Bool) (a b : Image),
      let pk := (a.hdr.drop 64).take 64
      s.mode = mBoot → s.rf (oSec + 0x10) 63 56 = 0 → (s.ctx 0).pc = 0x7FFFFFF00000 → s.powered 0 = true →
      (∃ t, exec (.bootRom true flash blown a b) s = .next t ∧ RomHalts s 0x11 t) ∧
      (lifeOf s.sec.life = 0 → ∃ t, exec (.bootRom false flash blown a b) s = .next t ∧ RomHalts s 0x13 t) ∧
      (lifeOf s.sec.life ≠ 0 → ∃ t, exec (.bootRom false false blown a b) s = .next t ∧ RomHalts s 0x10 t) ∧
      (lifeOf s.sec.life ≠ 0 → imageForm a = true → (s.sec.slotFor pk 0).isSome = true → s.sec.rollback ≤ leAt a.hdr 12 4 →
        a.readErr = false → imageForm b = false →
        ∃ t, exec (.bootRom false true blown a b) s = .next t ∧
          (Config.slhVerify true pk (a.hdr.take 160) a.sig = false → RomHalts s 0x12 t) ∧
          (Config.slhVerify true pk (a.hdr.take 160) a.sig = true → ImageLoaded a t ∧ t.sec = s.sec ∧ (bodyOk a → RomStarted s a 1 t) ∧
            (¬ bodyOk a → t.rf (oSec + 0x10) 63 56 = 0x12 ∧ (t.ctx 0).run = .wfe))) ∧
      (lifeOf s.sec.life = 1 → (∀ n, n < 4 → (s.sec.kslot n).prog = false) → imageForm a = true → s.sec.rollback ≤ leAt a.hdr 12 4 →
        a.readErr = false → s.pwr.pfw = false →
        ∃ t, exec (.bootRom false true true a b) s = .next t ∧
          (Config.slhVerify true pk (a.hdr.take 160) a.sig = false → RomHalts s 0x12 t) ∧
          (Config.slhVerify true pk (a.hdr.take 160) a.sig = true → ImageLoaded a t ∧
            (bodyOk a → RomStarted s a 3 t ∧ t.sec.kslot 0 = ⟨Config.shake256 pk 32, 7, true, false⟩) ∧
            (¬ bodyOk a → t.rf (oSec + 0x10) 63 56 = 0x12 ∧ (t.ctx 0).run = .wfe)))) ∧
    (s.secStat 63 = false → s.secStat 62 = false →
      (∃ t, exec (.identityDerivation true) s = .next t ∧ RegsOnly s [oSec + 0x20] t ∧ t.secStat 63 = true ∧
        (s.sec.att ≠ none → t.secStat 61 = true)) ∧
      (s.sec.att = none →
        ∃ t, exec (.identityDerivation false) s = .next t ∧ RegsOnly s [oSec + 0x20] t ∧ t.secStat 62 = true ∧ t.secStat 63 = false)) ∧
    (∀ (src : Src) (v : Pay), s.canWrite src (oSec + 0x320) v = true →
      let o := measOff (fld v 2 0)
      ∃ t, exec (.secMeasext src v) s = .next t ∧ RegsOnly s [o, o + 8, o + 16, o + 24] t ∧
        t.measBytes (fld v 2 0) = Config.shake256 (s.measBytes (fld v 2 0) ++ s.sec.digBytes) 32)

/-- Keys and fuses (R617, R636, R637, R642, R648). INSTALL makes the written key pending for its command, and current at once where that
command has already ended DONE; ERASE removes a key. A fuse operation that may start is under way until FUSE_OPERATION_COMPLETE, which
blows the fuses or, when their read-back disagrees, ends with RESULT 6; one that may not start is refused with its RESULT. -/
def Obligations.KeysAndFuses : Prop :=
  ∀ s : State, s.calm = true →
    (∀ (src : Src) (v : Pay),
      let i := fld v 12 0
      let l := fld v 47 16
      i ≤ kKek →
      (s.canWrite src (oSec + 0x58) (setFld v 63 60 1) = true →
        (Tbl.look s.ldg.live.slots (l % 0x20000) = none →
          ∃ t, exec (.install src v) s = .next t ∧
            t = { s with sec := { s.sec with pend := s.sec.pend ++ [⟨i, l, s.sec.keyBytes, s.sec.keyCtr⟩] } }) ∧
        (∀ sl, Tbl.look s.ldg.live.slots (l % 0x20000) = some sl → sl.gen = l / 0x20000 → sl.st = .ended → sl.status = stDone →
          s.sec.pend = [] →
          ∃ t, exec (.install src v) s = .next t ∧ t.key? i = some s.sec.keyBytes ∧ t.ldg.live.kctr = s.sec.keyCtr ∧ t.sec.pend = [] ∧
            (∀ j, j ≠ i → t.key? j = s.key? j) ∧ (i = 4 → (t.stream 4).crc = false))) ∧
      (s.canWrite src (oSec + 0x58) (setFld v 63 60 2) = true →
        ∃ t, exec (.erase src v) s = .next t ∧ t.key? i = none ∧ (∀ j, j ≠ i → t.key? j = s.key? j) ∧ t = { s with ldg := t.ldg })) ∧
    (∀ (c : Instr) (src : Src) (v : Pay) (op : Nat), fuseRow c = some (src, v, op) →
      s.canWrite src (oSec + 0x30) (setFld v 63 60 op) = true → s.secStat 59 = false →
      (s.fuseAnswer op v = 0 →
        ∃ t, exec c s = .next t ∧ t.secStat 59 = true ∧ t.rf (oSec + 0x38) 63 63 = 1 ∧ t.rf (oSec + 0x38) 62 59 = 0 ∧
          t = { s with dev := t.dev, sec := { s.sec with fuse := some ⟨op, fld v 17 16, fld v 14 12, fld v 7 0, s.sec.keyBytes⟩ } }) ∧
      (s.fuseAnswer op v ≠ 0 →
        ∃ t, exec c s = .next t ∧ RegsOnly s [oSec + 0x38] t ∧ t.rf (oSec + 0x38) 62 59 = s.fuseAnswer op v)) ∧
    (∀ j, s.sec.fuse = some j →
      (∃ t, exec (.fuseOperationComplete true) s = .next t ∧ t = { s with dev := t.dev, sec := t.sec } ∧ t.secStat 59 = false ∧
        t.rf (oSec + 0x38) 62 59 = fDone ∧ t.sec.fuse = none ∧
        (j.op = 1 → t.sec.kslot j.slot = { s.sec.kslot j.slot with revoke := true }) ∧
        (j.op = 2 → t.sec.rollback = max s.sec.rollback (min 64 j.value)) ∧ (j.op = 3 → t.sec.debuglock = true) ∧
        (j.op = 4 → t.sec.life = s.sec.life ||| j.value % 8) ∧
        (j.op = 5 → t.sec.kslot j.slot = { s.sec.kslot j.slot with digest := j.digest, uses := j.uses, prog := true })) ∧
      (∃ t, exec (.fuseOperationComplete false) s = .next t ∧ t = { s with dev := t.dev, sec := { s.sec with fuse := none } } ∧
        t.secStat 59 = false ∧ t.rf (oSec + 0x38) 62 59 = fVerify))

/-- The Keccak engine (R638 to R641). A store of TAIL writes the queue's TAIL word. SHAKE256 and KMAC256 write their output bytes,
RAW, and the verifications give their result in the status word; HEAD passes the descriptor, and nothing else of memory changes. A
read that meets an uncorrectable error ends any of the four with code 4. -/
def Obligations.KeccakEngine : Prop :=
  ∀ (s : State) (sk : Bool),
    let base := s.kqBase sk
    let out := (s.kqDesc sk 3).pay.toNat
    let n := (s.kqDesc sk 4).pay.toNat
    let ops := [(1, fun e => Instr.shake256 sk e), (2, fun e => Instr.kmac256 sk e), (3, fun e => Instr.verifySlhDsaShake256s sk e),
      (4, fun e => Instr.verifySlhDsaShake256f sk e)]
    s.calm = true → s.noWindows → s.unpoisoned →
    (∀ tail : Pay, isKeepLine (base / 64) = false → 1 ≤ fld (s.kqDesc sk 0).pay 63 60 → fld (s.kqDesc sk 0).pay 63 60 ≤ 4 →
      ∃ t, exec (.keccakTail sk tail) s = .next t ∧ t.word base = Word.raw tail ∧
        t = { s with cores := t.cores, clusters := t.clusters, backing := t.backing, mem := t.mem, tags := t.tags } ∧
        ∀ a, a / 8 ≠ base / 8 → t.byte a = s.byte a ∧ t.tagAt a = s.tagAt a) ∧
    (∀ e ∈ ops, s.kqReady sk e.1 = true → isKeepLine (base / 64 + 1 + s.kqHead sk) = false → (e.1 = 2 → s.kqReach sk false (s.kqDesc sk 5).pay.toNat 32 = true) →
      (3 ≤ e.1 → s.kqReach sk false (s.kqDesc sk 5).pay.toNat 64 = true ∧
        s.kqReach sk false out (if e.1 = 3 then 29792 else 49856) = true) →
      (e.1 ≤ 2 → s.kqReach sk true out n = true) →
      (∃ t, exec (e.2 .bad) s = .next t ∧ KqEnded s sk 4 false (fun _ => False) t) ∧
      (3 ≤ e.1 → ∃ t, exec (e.2 .clean) s = .next t ∧ KqEnded s sk 0 (Config.slhVerify (decide (e.1 = 3)) (s.kqKey sk 64) (s.kqInput sk)
        (s.kqBytes (bit (s.kqDesc sk 0).pay 56) out (if e.1 = 3 then 29792 else 49856))) (fun _ => False) t) ∧
      (e.1 ≤ 2 → (out + n ≤ base ∨ base + 64 * (1 + s.kqSize sk) ≤ out) →
        let m := if e.1 = 1 then Config.shake256 (s.kqInput sk) n
          else Config.kmac256 (s.kqKey sk 32) (s.kqInput sk) n ((leBytes 8 (s.kqDesc sk 6).pay.toNat).take (fld (s.kqDesc sk 0).pay 51 48))
        ∃ t, exec (e.2 .clean) s = .next t ∧ KqEnded s sk 0 false (fun w => out / 8 ≤ w ∧ w ≤ (out + n - 1) / 8) t ∧
          ∀ j, j < n → t.byte (out + j) = m.getD j 0 ∧ t.tagAt (out + j) = Tag.raw))

/-! ### The power-fail reserve and the background services (R681 to R724) -/

/-- The power-fail reserve (R685 to R695). PFW_N low enters Reserve: nothing runs, the watch is disarmed, CERT clears and
the save counts as incomplete. FLUSH_COMPLETE copies the pages of Staging SRAM that hold anything, with their tags, and
the twin log to the save area and sets FLUSHED. PFW_N high clears the refusals; RESUME then goes back to the mode of
before with only the Sentinel's context started. A sample of VHOLD shows it, and CERT follows; below VCUT during a
Reserve, or by CUT_OFF, the device resets with cause 7. Certification tests (R698). TESTGO, a test that falls due once
VHOLD has stood for 100 ms, and the retry of an aborted one start a test, which records VHOLD and the time; a test that
ends gives ECAP and whether it passed, or is aborted when the node fell too little, to run again after 60 s. -/
def Obligations.ReserveAndCertification : Prop :=
  (∀ s : State, s.calm = true →
    (s.pwr.pfw = false → s.pwr.glaze = none → s.sys.inReset = false → s.pwr.test = none → s.bgs.move = none → s.modeBusy = false →
      s.noWindows → bit (s.reg (oPwr + 0x30)) 63 = false →
      ∃ t, exec .pfwNAssert s = .next t ∧ t.mode = mReserve ∧ t.rf 0x10 10 8 = s.mode ∧ t.pwr.pfw = true ∧ t.pwr.glaze = some s.mode ∧
        t.pwr.complete = false ∧ t.sys.armed = false ∧ t.pwrStat 57 = true ∧ t.pwrStat 60 = false ∧ t.pwrStat 63 = false ∧
        t.mem = s.mem ∧ t.tags = s.tags ∧ ∀ x, t.powered x = false) ∧
    (s.pwr.pfw = true → ∃ t, exec .pfwNRelease s = .next t ∧ t.pwrStat 57 = false ∧
      t = { s with dev := t.dev, pwr := { s.pwr with pfw := false, pfwHigh := s.time } }) ∧
    (∀ m, s.pwr.glaze = some m → s.pwrStat 60 = false → s.sec.fuse = none → s.sys.rstWait = false →
      bit (s.reg (oPwr + 0x30)) 63 = false → Memory.wf s.mem = true → Tbl.wf (fun _ => Tag.raw) s.tags = true →
      ∃ t, exec .flushComplete s = .next t ∧ t.pwrStat 60 = true ∧ t.pwr.complete = true ∧ t.pwr.saved = some s.ldg.live ∧
        (∀ p ∈ s.stagingPages, ∀ o, o < 0x1000 →
          t.byte (jnvAt (0x3801000 + 0x1000 * p + o)) = s.byte (0x7E0000400000 + 0x1000 * p + o) ∧
          t.tagAt (jnvAt (0x3801000 + 0x1000 * p + o)) = s.tagAt (0x7E0000400000 + 0x1000 * p + o)) ∧
        ∀ i, i < 256 → t.word (jnvAt 0x3B01000 + 8 * i) = Word.raw (s.reg (oTwin + 0x1000 + 8 * i))) ∧
    (∀ m, s.pwr.glaze = some m → s.pwrStat 60 = true → s.pwr.pfw = false → s.vok ≤ s.vhold → s.sys.inReset = false → s.kept = true →
      s.ldg.live.slots = [] → s.ldg.held = [] → m ∈ [mRun, mDegraded, mSafe, mService] →
      (∀ e ∈ s.ctxs, e.2.sp Sr.sqt = e.2.sp Sr.sqb) → (∀ e ∈ s.twins, e.2.sqtConf = []) →
      ∃ t, exec .resume s = .next t ∧ t.pwr.glaze = none ∧ t.pwrStat 59 = true ∧ t.pwrStat 60 = false ∧ t.mem = s.mem ∧ t.runs = [] ∧
        t.mode = (if m = mRun ∨ m = mDegraded then (if t.degraded then mDegraded else mRun) else m) ∧
        (t.ctx s.sentinelCtx).started = true ∧ ∀ x, x < 256 → x ∉ s.reached s.sentinelCtx → (t.ctx x).started = false) ∧
    (∀ m, s.pwr.glaze = some m → ∃ t, exec .cutOff s = .next t ∧ ResetBy s 7 t ∧ t.pwr.cut = true) ∧
    (∀ v : BitVec 16,
      ((s.vcut ≤ v.toNat ∨ s.pwr.glaze = none) → s.pwr.test = none →
        ∃ t, exec (.vholdSample v) s = .next t ∧ t = { s with dev := t.dev, pwr := { s.pwr with okSince := t.pwr.okSince } } ∧
          t.vhold = v.toNat ∧ (s.vok ≤ v.toNat → t.pwr.okSince = some (s.pwr.okSince.getD s.time)) ∧
          (v.toNat < s.vok → t.pwr.okSince = none) ∧
          t.pwrStat 63 = (s.pwrStat 62 && decide (s.need ≤ s.rf (oPwr + 0x18) 31 0) && !s.pwr.pfw && decide (s.vok ≤ v.toNat))) ∧
      (∀ m, v.toNat < s.vcut → s.pwr.glaze = some m →
        ∃ t, exec (.vholdSample v) s = .next t ∧ t.mode = mReset ∧ t.rf 0x38 63 56 = 7 ∧ t.pwr.cut = true ∧ t.vhold = v.toNat))) ∧
  (∀ s : State, s.calm = true → s.sys.inReset = false →
    (s.pwr.test = none → s.pwr.pfw = false → s.pwr.glaze = none →
      (∀ (src : Src) (v : Pay), s.canWrite src (oPwr + 0x10) (setBit v 63 true) = true → src.code.toNat < 4 →
        ∃ t, exec (.testgo src v) s = .next t ∧ t.pwrStat 61 = true ∧
          t = { s with dev := t.dev, pwr := { s.pwr with test := some ⟨s.vhold, s.time⟩, due := false, retryAt := none } }) ∧
      (∀ t0, s.pwr.due = true → s.pwr.okSince = some t0 →
        ∃ t, exec .certTestDue s = .next t ∧ (t0 + 100000000).toNat ≤ t.time.toNat ∧ t.pwrStat 61 = true ∧
          t = { s with dev := t.dev, time := t.time, pwr := { s.pwr with test := some ⟨s.vhold, t.time⟩, due := false, retryAt := none } }) ∧
      (∀ tm, s.pwr.retryAt = some tm →
        ∃ t, exec .certTestRetry s = .next t ∧ tm.toNat ≤ t.time.toNat ∧ t.pwrStat 61 = true ∧
          t = { s with dev := t.dev, time := t.time, pwr := { s.pwr with test := some ⟨s.vhold, t.time⟩, due := false, retryAt := none } })) ∧
    (∀ (tt : CertTest) (eout : BitVec 32) (v2 : BitVec 16), s.pwr.test = some tt →
      (v2.toNat + 20 ≤ tt.v1 → s.vtest + 20 ≤ tt.v1 →
        let e := min (2 ^ 32 - 1) (eout.toNat * 743900 / (tt.v1 * tt.v1 - v2.toNat * v2.toNat))
        ∃ t, exec (.certTestEnd eout v2) s = .next t ∧ t.rf (oPwr + 0x18) 31 0 = e ∧ t.pwrStat 62 = decide (s.need ≤ e) ∧
          t.pwrStat 61 = false ∧ t.vhold = v2.toNat ∧
          t = { s with dev := t.dev, pwr := { s.pwr with test := none, lastTest := some tt.start } }) ∧
      ((tt.v1 < v2.toNat + 20 ∨ tt.v1 < s.vtest + 20) →
        ∃ t, exec (.certTestEnd eout v2) s = .next t ∧ t.pwrStat 58 = true ∧ t.pwrStat 61 = false ∧
          t = { s with dev := t.dev, pwr := { s.pwr with test := none, retryAt := some (s.time + 60000000000) } })))

/-- The background services (R705 to R716). The patrol goes on to the next line, wraps at the end of DRAM and counts the pass, and
records an uncorrectable error; the L2 scrub and the Keep compare go on to their next place, the compare keeping a word that differs;
its recheck starts a recovery of the standby Keeper twin when the two still differ. A JNV block's move begins and switches, and the
writes that waited for it go on. A DRAM channel is held 1,000 ns for ZQ calibration and 2,000 ns for a retraining, until the hold ends;
MR4 gives its refresh rate. -/
def Obligations.BackgroundServices : Prop :=
  ∀ s : State, s.calm = true → s.bgsRuns = true →
    (let a := s.rf (oBgs + 0x20) 47 6 * 64
     bit (s.reg (oBgs + 0x10)) 0 = true → s.fabricFree 0x46 = true →
      (a + 64 < s.dramSize → ∃ t, exec (.patrolRead .clean) s = .next t ∧ RegsOnly s [oBgs + 0x20] t ∧
        t.rf (oBgs + 0x20) 47 6 = s.rf (oBgs + 0x20) 47 6 + 1) ∧
      (s.dramSize ≤ a + 64 → ∃ t, exec (.patrolRead .clean) s = .next t ∧ t = { s with dev := t.dev, bgs := t.bgs } ∧
        t.rf (oBgs + 0x20) 47 6 = 0 ∧ t.rf (oBgs + 0x20) 63 48 = satInc 16 (s.rf (oBgs + 0x20) 63 48)) ∧
      (s.unbound 0x58 = true → ∃ t, exec (.patrolRead .bad) s = .next t ∧ t = { s with dev := t.dev, bgs := t.bgs } ∧
        t.reg (oBgs + 0x28) = (atFld 63 62 1 ||| atFld 48 0 a) ∧ bit (t.reg (oBgs + 0x18)) 62 = true)) ∧
    (∀ n : BitVec 3, bit (s.reg (oBgs + 0x10)) 1 = true → s.clOn n.toNat = true → bit (s.reg (oCl n.toNat + 0x1008)) 63 = false →
      ∃ t, exec (.l2Scrub n .clean) s = .next t ∧ t = { s with bgs := { s.bgs with l2Pos := t.bgs.l2Pos } } ∧
        Tbl.get (fun _ => 0) t.bgs.l2Pos n.toNat = (Tbl.get (fun _ => 0) s.bgs.l2Pos n.toNat + 1) % 65536) ∧
    (s.keepRuns = true → s.bgs.keepDiff = none →
      let a := s.word (keepBase + s.bgs.keepPos)
      let b := s.word (keepBase + copyB + s.bgs.keepPos)
      ∃ t, exec (.keepCompare .clean .clean) s = .next t ∧ t = { s with bgs := { s.bgs with
        keepPos := (s.bgs.keepPos + 8) % 0x400000, keepDiff := if a = b then none else some (s.bgs.keepPos, a, b) } }) ∧
    (∀ off a b, s.bgs.keepDiff = some (off, a, b) →
      ((s.word (keepBase + off) ≠ a ∨ s.word (keepBase + copyB + off) ≠ b) →
        ∃ t, exec .keepRecheck s = .next t ∧ t = { s with bgs := { s.bgs with keepDiff := none } }) ∧
      (s.keepRuns = true → s.word (keepBase + off) = a → s.word (keepBase + copyB + off) = b →
        ∃ t, exec .keepRecheck s = .next t ∧ t.bgs.keepDiff = none ∧ (t.twin (1 - s.rf (oTwin + 0x28) 62 62)).recov.isSome = true)) ∧
    (∀ block : BitVec 14, s.bgs.move = none →
      ∃ t, exec (.jnvWearRotation block) s = .next t ∧ t = { s with bgs := { s.bgs with move := some ⟨block.toNat, []⟩ } }) ∧
    (∀ m, s.bgs.move = some m →
      (m.waiting = [] → ∃ t, exec .jnvMoveSwitch s = .next t ∧ t = { s with bgs := { s.bgs with move := none } }) ∧
      (∀ x src pa w pc, s.noWindows → m.waiting = [.store x src pa 8 w pc] → s.region pa = .jnv →
        ∃ t, exec .jnvMoveSwitch s = .next t ∧ t.bgs.move = none ∧ t.word (s.key src pa / 8 * 8) = w)) ∧
    (∀ ch : BitVec 1,
      (Tbl.look s.bgs.holds ch.toNat = none → Tbl.look s.bgs.holds (2 + ch.toNat) = none →
        (∃ t, exec (.zqCalibration ch) s = .next t ∧ t = { s with bgs := { s.bgs with holds := t.bgs.holds } } ∧
          Tbl.look t.bgs.holds ch.toNat = some (s.time + 1000)) ∧
        (∃ t, exec (.dqsRetraining ch true) s = .next t ∧ t = { s with bgs := { s.bgs with holds := t.bgs.holds } } ∧
          Tbl.look t.bgs.holds ch.toNat = some (s.time + 2000))) ∧
      exec (.dqsRetraining ch false) s = .next s ∧
      (∀ tm, Tbl.look s.bgs.holds ch.toNat = some tm →
        ∃ t, exec (.retrainingHoldEnd ch) s = .next t ∧ t = { s with time := t.time, bgs := { s.bgs with holds := t.bgs.holds } } ∧
          tm.toNat ≤ t.time.toNat ∧ Tbl.look t.bgs.holds ch.toNat = none) ∧
      (∀ rate : BitVec 3, ∃ t, exec (.mr4Read ch rate) s = .next t ∧
        t = { s with bgs := { s.bgs with refresh := t.bgs.refresh } } ∧ Tbl.get (fun _ => 0) t.bgs.refresh ch.toNat = rate.toNat))

/-! ### Plant interfaces, events, pulses and the panel (R725 to R782) -/

/-- The Ethernet ports and the PCIe controllers (R726 to R730, R737, R751 to R755). A frame that is no datagram for the Command Engine
goes into the receive ring behind its header, and a datagram for it is the datagram's own command. A new TAIL puts the descriptor's
frame into its queue; a frame sent completes its descriptor, and HEAD passes it. A gate list written becomes the standby list, takes over
at its base time, and its entries follow one another. A root port's write within its window reaches DRAM, its read is completed with the
bytes, poisoned after an uncorrectable error, and a read outside is answered Unsupported Request and counted. -/
def Obligations.EthernetAndPcie : Prop :=
  ∀ (s : State) (p : BitVec 2), s.calm = true → s.noWindows → s.sys.inReset = false → s.unbound (0x63 + p.toNat) = true →
    let e := oPort p.toNat
    (∀ (bs : List (BitVec 8)) (ts : Option (BitVec 64)),
      bit (s.reg e) 63 = true → 60 ≤ bs.length → bs.length ≤ s.maxLen p.toNat →
      (datagram bs = none →
        let r := s.reg (e + 0x20)
        let head := s.rf (e + 0x68) 11 0
        let a := fld r 47 11 * 2048 + head * 2 ^ fld r 59 56
        bit r 63 = true → bs.length + 32 ≤ 2 ^ fld r 59 56 → fld r 51 48 ≤ 12 → (head + 1) % 2 ^ fld r 51 48 ≠ s.rf (e + 0x68) 43 32 →
        s.inDram a (32 + bs.length) = true →
        ∃ t, exec (.ethFrameReceived p bs ts false) s = .next t ∧
          t.word a = Word.raw (setBit (setBit (p64 bs.length) 62 (vlanTagged bs)) 63 ts.isSome) ∧ t.word (a + 8) = Word.raw (ts.getD 0) ∧
          (∀ j, j < bs.length → t.byte (a + 32 + j) = bs.getD j 0) ∧ (∀ b, (b < a ∨ a + 32 + bs.length ≤ b) → t.byte b = s.byte b) ∧
          t.rf (e + 0x68) 11 0 = (head + 1) % 2 ^ fld r 51 48 % 4096) ∧
      (∀ d, datagram bs = some d → s.isOwnAddr p.toNat d.dst = true → d.dport = s.rf (oCe + 0x10) 47 32 → d.frag = false →
        exec (.ethFrameReceived p bs ts false) s = exec (.udpDatagram ⟨p, d.src, BitVec.ofNat 16 d.sport, d.dst⟩ d.data) s)) ∧
    (∀ (src : Src) (v : Pay),
      let old := s.rf (e + 0x70) 43 32
      let n := s.txSize p.toNat
      let q := fld (s.word (s.txDesc p.toNat old + 8)).pay 58 56
      s.canWrite src (e + 0x70) v = true → bit (s.reg (e + 0x28)) 63 = true → n ≤ 4096 → old < n → s.txHead p.toNat = old →
      s.txBad p.toNat old = false → fld v 43 32 % n = (old + 1) % n → 1 < n →
      ∃ t, exec (.ethTxTail src p v) s = .next t ∧ t.rf (e + 0x70) 43 32 = (old + 1) % n ∧ t = { s with dev := t.dev, eth := t.eth } ∧
        Tbl.look (t.ethPort p.toNat).queues q = some ((Tbl.look (s.ethPort p.toNat).queues q).getD [] ++ [⟨.ring old, []⟩])) ∧
    (∀ (q : BitVec 3) (fs : List TxFrame),
      let i := s.txHead p.toNat
      let a := s.txDesc p.toNat i
      let w1 := (s.word (a + 8)).pay
      bit (s.reg e) 63 = true → s.gateOpen p.toNat q.toNat = true → Tbl.look (s.ethPort p.toNat).queues q.toNat = some (⟨.ring i, []⟩ :: fs) →
      bit w1 62 = false → s.inDram a 32 = true → s.txSize p.toNat ≤ 4096 → s.rf (e + 0x70) 43 32 = (i + 1) % s.txSize p.toNat →
      s.fabricFree 0x40 = true → s.badIn (fld (s.word a).pay 47 0) (fld w1 13 0) = none →
      ∃ t, exec (.ethTxComplete p q .clean) s = .next t ∧ t.rf (e + 0x70) 11 0 = (i + 1) % s.txSize p.toNat ∧
        t.word (a + 8) = Word.raw (setBit (setBit (setBit w1 63 true) 61 false) 60 false) ∧
        (t.ethPort p.toNat).sent = s.engBytes (fld (s.word a).pay 47 0) (fld w1 13 0) :: (s.ethPort p.toNat).sent ∧
        (Tbl.look (t.ethPort p.toNat).queues q.toNat).getD [] = fs ∧ ∀ b, b / 8 ≠ (a + 8) / 8 → t.byte b = s.byte b) ∧
    (∀ (src : Src) (v : Pay),
      let r := s.reg (e + 0x30)
      let ws := (s.words (fld r 47 3 * 8) (fld r 62 56 + 1)).map (·.pay)
      s.canWrite src (e + 0x38) v = true → (∀ w ∈ ws, fld w 55 32 = 0) → s.time.toNat < v.toNat →
      ∃ t, exec (.ethGbaseWrite src p v) s = .next t ∧ t = { s with dev := t.dev, eth := t.eth } ∧
        (t.ethPort p.toNat).standby = some ⟨ws.map (fun w => (fld w 63 56, max 64 (fld w 31 0))), v⟩ ∧
        (t.ethPort p.toNat).active = (s.ethPort p.toNat).active) ∧
    (∀ g, (s.ethPort p.toNat).standby = some g → s.time.toNat < g.base.toNat →
      ∃ t, exec (.gateListSwitch p) s = .next t ∧ t = { s with time := g.base, eth := t.eth } ∧ (t.ethPort p.toNat).active = some g ∧
        (t.ethPort p.toNat).standby = none ∧ (t.ethPort p.toNat).entry = (gateAt g.entries 0 0).1) ∧
    (∀ g, (s.ethPort p.toNat).active = some g →
      let n := if (s.ethPort p.toNat).entry + 1 < g.entries.length then (s.ethPort p.toNat).entry + 1 else 0
      ∃ t, exec (.gateEntryExpiry p) s = .next t ∧ t = { s with time := t.time, eth := t.eth } ∧ (t.ethPort p.toNat).entry = n ∧
        (s.ethPort p.toNat).entryEnd.toNat ≤ t.time.toNat ∧
        (t.ethPort p.toNat).entryEnd = (s.ethPort p.toNat).entryEnd + p64 ((g.entries.getD n (0, 64)).2)) ∧
    (∀ (c : BitVec 2) (pa : BitVec 64) (data : List (BitVec 8)) (len : BitVec 13),
      let o := oPcieC c.toNat
      let lo := s.rf (o + 0x08) 47 12 * 4096
      let hi := s.rf (o + 0x10) 47 12 * 4096
      c.toNat < 3 → bit (s.reg o) 63 = true →
      (bit (s.reg o) 8 = true → lo ≤ pa.toNat → pa.toNat + data.length ≤ hi → s.inDram pa.toNat data.length = true →
        ∃ t, exec (.pcieInboundRequest c pa true data ⟨len, .clean⟩) s = .next t ∧ (∀ j, j < data.length → t.byte (pa.toNat + j) = data.getD j 0) ∧
          (∀ b, (b < pa.toNat ∨ pa.toNat + data.length ≤ b) → t.byte b = s.byte b) ∧ t.ctxs = s.ctxs ∧ t.dev = s.dev) ∧
      (bit (s.reg o) 8 = true → (pa.toNat < lo ∨ hi < pa.toNat + len.toNat) →
        ∃ t, exec (.pcieInboundRequest c pa false data ⟨len, .clean⟩) s = .next t ∧ t = { s with dev := t.dev, pcieCpl := t.pcieCpl } ∧
          (∀ off, off ≠ o + 0x18 → t.reg off = s.reg off) ∧ t.rf (o + 0x18) 63 0 = satInc 64 (s.rf (o + 0x18) 63 0) ∧
          t.pcieCpl = ⟨c.toNat, true, false, []⟩ :: s.pcieCpl) ∧
      (bit (s.reg o) 8 = true → lo ≤ pa.toNat → pa.toNat + len.toNat ≤ hi → s.inDram pa.toNat len.toNat = true →
        (∃ t, exec (.pcieInboundRequest c pa false data ⟨len, .bad⟩) s = .next t ∧ t = { s with pcieCpl := t.pcieCpl } ∧
          t.pcieCpl = ⟨c.toNat, false, true, s.engBytes pa.toNat len.toNat⟩ :: s.pcieCpl) ∧
        (s.badIn pa.toNat len.toNat = none →
          ∃ t, exec (.pcieInboundRequest c pa false data ⟨len, .clean⟩) s = .next t ∧ t = { s with pcieCpl := t.pcieCpl } ∧
            t.pcieCpl = ⟨c.toNat, false, false, s.engBytes pa.toNat len.toNat⟩ :: s.pcieCpl)) ∧
      (s.unbound (0x67 + c.toNat) = true → exec (.pcieLinkEvent c) s = .next s) ∧
      exec (.pcieLinkEvent c) s = exec (.sourceAssert (BitVec.ofNat 7 (0x67 + c.toNat))) s)

/-- The CAN channels (R732, R733, R756 to R758). A frame that no filter keeps out goes to the receive ring, whose HEAD goes on, or waits
in the FIFO while the ring is full. A frame sent completes its effect. Bus-off and its recovery, and the error counters, show in
CAN_HhSTAT. -/
def Obligations.CanChannels : Prop :=
  ∀ (s : State) (hb : BitVec 2), s.calm = true → s.noWindows → s.sys.inReset = false →
    let h := hb.toNat
    let o := oChan h
    let st := s.reg (o + 0x28)
    bit (s.reg o) 63 = true → s.unbound (0x6A + h) = true →
    (∀ (word : Pay) (esi rtr : Bool) (data : List (BitVec 8)),
      let r := s.reg (o + 0x18)
      let head := s.rf (o + 0x20) 9 0
      let a := fld r 47 7 * 128 + 128 * head
      let flt := firstN 64 0 (fun f => s.canAccepts h word f)
      let frame : CanFrame := ⟨word, esi, rtr, s.time, data⟩
      bit st 63 = false → (bit word 30 = true → bit (s.reg o) 62 = true) → (s.canCh h).fifo = [] →
      (flt ≠ none ∨ ∀ f, f < 64 → bit (s.reg (o + 0x200 + 8 * f)) 63 = false) →
      (bit r 63 = true → fld r 51 48 ≤ 10 → (head + 1) % 2 ^ fld r 51 48 ≠ s.rf (o + 0x20) 41 32 → s.inDram a 128 = true →
        ∃ t, exec (.canFrameReceived hb word esi rtr data) s = .next t ∧ (∀ j, j < 128 → t.byte (a + j) = (canEntry frame flt).getD j 0) ∧
          t.rf (o + 0x20) 9 0 = (head + 1) % 2 ^ fld r 51 48 % 1024 ∧ (t.canCh h).fifo = [] ∧
          ∀ b, (b < a ∨ a + 128 ≤ b) → t.byte b = s.byte b) ∧
      (bit r 63 = false → ∃ t, exec (.canFrameReceived hb word esi rtr data) s = .next t ∧ t = { s with can := t.can } ∧
        (t.canCh h).fifo = [(frame, flt)])) ∧
    (∀ n v e q, s.ldg.live.slots = [(n, v)] → (∀ x ∈ s.ldg.live.streams, x.2.st ≠ 2) → s.stoIdle → s.ldg.mail = [] → v.effs = [e] →
      e.st = .released → v.st = .ended → v.replied = true → bit st 63 = false → (s.canCh h).txq = (n, v.gen, e.idx) :: q →
      ∃ t, exec (.canFrameSent hb) s = .next t ∧ EndedAs n v v.status v.appcode t ∧ (t.canCh h).txq = q ∧
        (t.canCh h).sent = e.data :: (s.canCh h).sent) ∧
    (bit st 63 = false → ∃ t, exec (.canBusOff hb) s = .next t ∧ t = { s with dev := t.dev, can := t.can } ∧ bit (t.reg (o + 0x28)) 63 = true ∧
      t.rf (o + 0x28) 15 8 = 255 ∧ ∀ off, off ≠ o + 0x28 → t.reg off = s.reg off) ∧
    (bit st 63 = true → (bit (s.reg o) 59 = true ∨ (s.canCh h).recovering = true) →
      ∃ t, exec (.canBusOffRecovery hb) s = .next t ∧ t = { s with dev := t.dev, can := t.can } ∧ t.reg (o + 0x28) = 0 ∧
        ∀ off, off ≠ o + 0x28 → t.reg off = s.reg off) ∧
    (∀ tec rc : BitVec 8, bit st 63 = false →
      ∃ t, exec (.canErrorPassive hb tec rc) s = .next t ∧ RegsOnly s [o + 0x28] t ∧ t.rf (o + 0x28) 15 8 = tec.toNat ∧
        t.rf (o + 0x28) 7 0 = rc.toNat ∧ (bit (t.reg (o + 0x28)) 62 = true ↔ 128 ≤ tec.toNat ∨ 128 ≤ rc.toNat))

/-- UARTs, I2C and QSPI (R733, R734, R759 to R761). A byte received enters the receive FIFO, and a read of SIO_UuDATA takes the oldest. A
byte written goes to the idle shifter, else to the transmit FIFO; a byte sent leaves the shifter, which takes the next; CTS lets a
waiting byte go. I2C and QSPI commands make their unit busy, and their ends show DONE with what was moved; a write to an I2C target
fills the buffer. -/
def Obligations.SerialPorts : Prop :=
  ∀ (s : State) (src : Src), s.calm = true → s.sys.inReset = false →
    (∀ ub : BitVec 2,
      let u := ub.toNat
      let a := s.uart u
      s.unbound (0x6E + u) = true →
      (∀ (b : BitVec 8) (pe fe br : Bool), s.uartBit u 63 = true → a.rx.length < 64 →
        ∃ t, exec (.uartByteReceived ub b pe fe br) s = .next t ∧ t = { s with sio := t.sio } ∧ t.uart u = { a with rx := a.rx ++
          [setBit (setBit (setBit (setBit (p64 (b.toNat % 2 ^ (5 + s.rf (oUart u) 1 0))) 63 true) 62 pe) 61 fe) 60 br] }) ∧
      (∀ v : Pay, s.canWrite src (oUart u + 0x10) v = true →
        (a.shift = none → a.tx = [] → s.mayShift u = true → ∃ t, exec (.uartDataWrite src ub v) s = .next t ∧ t = { s with sio := t.sio } ∧
          t.uart u = { a with shift := some (BitVec.ofNat 8 (fld v 7 0)) }) ∧
        (a.shift ≠ none → a.tx.length < 64 → ∃ t, exec (.uartDataWrite src ub v) s = .next t ∧ t = { s with sio := t.sio } ∧
          t.uart u = { a with tx := a.tx ++ [BitVec.ofNat 8 (fld v 7 0)] })) ∧
      (s.canRead src (oUart u + 0x10) = true →
        (∀ w ws, a.rx = w :: ws → ∃ t, exec (.uartDataRead src ub) s = .next t ∧ t = { s with sio := t.sio, answer := some (Word.raw w) } ∧
          t.uart u = { a with rx := ws }) ∧
        (a.rx = [] → exec (.uartDataRead src ub) s = .next (s.answers 0))) ∧
      (∀ b, a.shift = some b →
        (a.tx = [] → ∃ t, exec (.uartTxEmpty ub) s = .next t ∧ t = { s with sio := t.sio } ∧
          t.uart u = { a with shift := none, sent := b :: a.sent }) ∧
        (∀ c cs, a.tx = c :: cs → s.mayShift u = true → ∃ t, exec (.uartByteSent ub) s = .next t ∧ t = { s with sio := t.sio } ∧
          t.uart u = { a with shift := some c, tx := cs, sent := b :: a.sent })) ∧
      (∀ b bs, a.shift = none → a.tx = b :: bs → s.uartBit u 63 = true →
        ∃ t, exec (.uartCtsChange ub true) s = .next t ∧ t = { s with sio := t.sio } ∧
          t.uart u = { a with cts := true, tx := bs, shift := some b })) ∧
    (∀ ib : BitVec 1,
      let i := ib.toNat
      let o := oI2c i
      let st := s.reg (o + 0x10)
      s.unbound (0x72 + i) = true →
      (∀ v : Pay, s.canWrite src (o + 8) (setBit v 63 true) = true → bit st 63 = false → bit (s.reg o) 63 = true → bit (s.reg o) 62 = false →
        ∃ t, exec (.i2cGo src ib v) s = .next t ∧ t = { s with dev := t.dev, sio := t.sio } ∧ bit (t.reg (o + 0x10)) 63 = true ∧
          Tbl.look t.sio.i2c i = some (setBit v 63 true)) ∧
      (∀ (v : Pay) (nack arb : Bool) (count : BitVec 7) (data : List (BitVec 8)), Tbl.look s.sio.i2c i = some v →
        ∃ t, exec (.i2cTransferDone ib nack arb count data) s = .next t ∧ t = { s with dev := t.dev, sio := t.sio } ∧
          bit (t.reg (o + 0x10)) 63 = false ∧ bit (t.reg (o + 0x10)) 62 = true ∧ bit (t.reg (o + 0x10)) 61 = (bit st 61 || nack) ∧
          bit (t.reg (o + 0x10)) 60 = (bit st 60 || arb) ∧ t.rf (o + 0x10) 6 0 = min (min 64 (fld v 6 0)) count.toNat ∧
          Tbl.look t.sio.i2c i = none) ∧
      (∀ (data : List (BitVec 8)) (count : BitVec 7), bit (s.reg o) 63 = true → bit (s.reg o) 62 = true → bit st 62 = false →
        data.length ≤ 64 →
        ∃ t, exec (.i2cTargetTransaction ib true data count) s = .next t ∧ t = { s with dev := t.dev } ∧ bit (t.reg (o + 0x10)) 62 = true ∧
          bit (t.reg (o + 0x10)) 59 = true ∧ t.rf (o + 0x10) 6 0 = data.length ∧
          ∀ j, j < data.length → byteOf (t.reg (o + 0x20 + 8 * (j / 8))) (j % 8) = data.getD j 0)) ∧
    (∀ v : Pay, s.canWrite src (oSio + 0x8000) (setBit v 63 true) = true → bit (s.reg (oSio + 0x8018)) 63 = false →
      ∃ t, exec (.qspiGo src v) s = .next t ∧ t = { s with dev := t.dev, sio := { s.sio with qspi := some (setBit v 63 true) } } ∧
        bit (t.reg (oSio + 0x8018)) 63 = true) ∧
    (∀ (v : Pay) (data : List (BitVec 8)),
      let n := min 4096 (fld v 12 0)
      let a := s.rf (oSio + 0x8010) 47 0
      s.sio.qspi = some v → bit v 62 = false → n ≠ 0 → s.inDram a n = true → s.noWindows →
      ∃ t, exec (.qspiDone data) s = .next t ∧ t.sio.qspi = none ∧ bit (t.reg (oSio + 0x8018)) 63 = false ∧
        bit (t.reg (oSio + 0x8018)) 62 = true ∧ (∀ j, j < n → t.byte (a + j) = data.getD j 0) ∧
        ∀ b, (b < a ∨ a + n ≤ b) → t.byte b = s.byte b)

/-- Event sources and the Pulse Unit (R738 to R749). A source bound to a presented context that runs makes its line pending or sets its
latch, and an unbound one does nothing; an edge at an EVT pin changes the pin's level. A period boundary takes PER and CMP as written; a
captured edge writes the time to CMP, a counted one counts, a STEP pulse counts down, and a write of CNT starts a train. -/
def Obligations.EventsAndPulses : Prop :=
  ∀ s : State, s.calm = true → s.sys.inReset = false →
    (∀ i : BitVec 7,
      let b := s.reg (oEvr + 0x1000 + 8 * i.toNat)
      let x := fld b 55 48
      i.toNat < 0x74 →
      (bit b 63 = false → exec (.sourceAssert i) s = .next s) ∧
      (bit b 63 = true → s.presented x = x → s.powered x = true → s.isLoose x = false → (s.ctx x).run = .run →
        ∃ t, exec (.sourceAssert i) s = .next t ∧ t = { s with dev := t.dev, ctxs := t.ctxs } ∧
          (bit b 61 = true → ∃ l ∈ (t.ctx x).lines, l.n = fld b 45 40) ∧ (bit b 61 = false → (t.ctx x).lines = (s.ctx x).lines) ∧
          (t.ctx x).latch = ((s.ctx x).latch || bit b 62) ∧ ∀ y, y ≠ x → t.ctx y = s.ctx y)) ∧
    (∀ (i : BitVec 4) (level : Bool), (s.evt.getLsbD i.toNat = level ∨ s.unbound i.toNat = true) →
      ∃ t, exec (.evtEdge i level) s = .next t ∧ t = { s with evt := t.evt } ∧
        ∀ j, t.evt.getLsbD j = if j = i.toNat then level else s.evt.getLsbD j) ∧
    (∀ (nb : BitVec 6),
      let n := nb.toNat
      let o := oCh n
      s.unbound (0x10 + n) = true →
      ((s.plsMode n = 1 ∨ s.plsMode n = 4) →
        ∃ t, exec (.pwmPeriodBoundary nb) s = .next t ∧ t = { s with pls := t.pls } ∧
          t.plsCh n = { s.plsCh n with per := s.plsReg n 8, cmp := s.plsReg n 0x10 } ∧ ∀ m, m ≠ n → t.plsCh m = s.plsCh m) ∧
      (∀ rising : Bool, edgeTaken (s.rf o 9 8) rising = true →
        (s.plsMode n = 2 → ∃ t, exec (.captureEdge nb rising) s = .next t ∧ RegsOnly s [o, o + 0x10] t ∧
          t.plsReg n 0x10 = fld s.time 31 0 ∧ bit (t.reg o) 61 = rising) ∧
        (s.plsMode n = 3 → ∃ t, exec (.countEdge nb rising) s = .next t ∧ RegsOnly s [o, o + 0x18] t ∧
          t.plsReg n 0x18 = (s.plsReg n 0x18 + 1) % 2 ^ 32 ∧ bit (t.reg o) 61 = rising ∧
          bit (t.reg o) 62 = (bit (s.reg o) 62 || decide (s.plsReg n 0x18 = 2 ^ 32 - 1)))) ∧
      (s.plsMode n = 4 → (s.plsCh n).stepping = true →
        ∃ t, exec (.stepPulseEnd nb) s = .next t ∧ t = { s with dev := t.dev, pls := t.pls } ∧ t.plsReg n 0x18 = s.plsReg n 0x18 - 1 ∧
          (t.plsCh n).stepping = decide (s.plsReg n 0x18 - 1 ≠ 0) ∧ (t.plsCh n).per = s.plsReg n 8) ∧
      (∀ (src : Src) (v : Pay), s.canWrite src (o + 0x18) v = true →
        ∃ t, exec (.plsCntWrite src nb v) s = .next t ∧ t = { s with dev := t.dev, pls := t.pls } ∧ t.plsReg n 0x18 = fld v 31 0 ∧
          (s.plsMode n = 4 → (t.plsCh n).stepping = decide (fld v 31 0 ≠ 0))))

/-- The Panel Sense Unit (R763 to R782). A learning frame counts down its entry's frames; a frame with one ripe candidate and no tracked
touch brings a touch down with ID 0, recorded in its register and in the frame ring; a touch held for STUCK seconds is released. An
acknowledged record leaves the list. BRESET and an enable begin learning, a disable and a loss of the PLL stop the unit, and the relock
starts it again. -/
def Obligations.PanelSense : Prop :=
  ∀ (s : State), s.calm = true → s.noWindows → s.sys.inReset = false → s.unbound 0x50 = true → s.unbound 0x51 = true →
    let p := s.pnl
    let dl (c : Scan) := p.delta c s.pnlFidx
    (s.pnlBit 63 = true → s.pnlFull = false →
      (∀ c i n rest, p.learn = (i, n) :: rest → 1 < n →
        ∃ t, exec (.panelFrame c) s = .next t ∧ t.pnl.learn = (i, n - 1) :: rest ∧ t.pnl.touches = p.touches ∧
          t.rf (oPnl + 0x18) 31 0 = (s.rf (oPnl + 0x18) 31 0 + 1) % 2 ^ 32 ∧ t.pnl.unacked = p.unacked ++ [false]) ∧
      (∀ c k, p.learn = [] → p.upNext = [] → (List.range 960).filterMap (fun i => s.candidate (dl c) i) = [k] →
        (p.touches = [] → s.ripe k = true →
          let a := fld p.ring 47 12 * 4096 + 4096 * s.rf (oPnl + 0x38) 11 0
          let u : Touch := ⟨0, k.x, k.y, k.x, k.y, k.str, k.glove, s.time, k.node⟩
          ∃ t, exec (.panelFrame c) s = .next t ∧ t.pnl.touches = [u] ∧ t.reg (oPnl + 0x300) = u.record 1 ∧
            t.pnl.unacked = p.unacked ++ [true] ∧ (s.inDram a 4096 = true → t.word (a + 64) = Word.raw (u.record 1)) ∧
            ∀ b, (b < a ∨ a + 4096 ≤ b) → t.byte b = s.byte b) ∧
        (∀ u : Touch,
          let limit := s.rf (oPnl + 0x20) 11 8
          p.touches = [u] → dist2 u.x u.y k.x k.y ≤ 36864 → limit ≠ 0 → u.start.toNat + limit * 1000000000 < 2 ^ 64 →
          ∃ t, exec (.stuckRelease c) s = .next t ∧ t.pnl.touches = [] ∧ u.start.toNat + limit * 1000000000 ≤ t.time.toNat ∧
            t.reg (oPnl + 0x300) = ({ u with x := k.x, y := k.y, str := k.str, glove := k.glove, node := k.node } : Touch).record 3))) ∧
    (∀ b bs, p.unacked = b :: bs → ∃ t, exec .frameRecordAck s = .next t ∧ t = { s with pnl := { p with unacked := bs } }) ∧
    (∀ (src : Src) (v : Pay),
      (s.canWrite src (oPnl + 0x10) (setBit v 63 true) = true → bit v 0 = true → bit (s.reg (oPnl + 0x10)) 0 = true → s.pnlBit 63 = true →
        ∃ t, exec (.breset src v) s = .next t ∧ t = { s with dev := t.dev, pnl := { p with learn := p.entries.map (fun i => (i, 8)), learnt := [] } } ∧
          t.pnlBit 62 = true) ∧
      (s.canWrite src (oPnl + 0x10) (setBit v 0 true) = true → bit (s.reg (oPnl + 0x10)) 0 = false → s.sys.pnlLock = true →
        s.mode ≠ mReserve →
        ∃ t, exec (.panelEnable src v) s = .next t ∧ t = { s with dev := t.dev, pnl := t.pnl } ∧ t.pnlBit 63 = true ∧ t.pnlBit 62 = true ∧
          t.pnl.ring = s.reg (oPnl + 0x30) ∧ t.pnl.learn = t.pnl.entries.map (fun i => (i, 8))) ∧
      (s.canWrite src (oPnl + 0x10) (setBit v 0 false) = true → bit (s.reg (oPnl + 0x10)) 0 = true →
        s.pnlBit 63 = true → ∃ t, exec (.panelDisable src v) s = .next t ∧ t.pnlBit 63 = false ∧ t.pnlBit 62 = false ∧ t.pnl.touches = [])) ∧
    (s.sys.pnlLock = true → s.pnlBit 63 = true →
      ∃ t, exec .panelPllLoss s = .next t ∧ t.sys.pnlLock = false ∧ t.pnlBit 63 = false ∧ t.pnlBit 60 = true ∧ t.pnl.touches = []) ∧
    (s.sys.pnlLock = false → bit (s.reg (oPnl + 0x10)) 0 = true → s.mode ≠ mReserve →
      ∃ t, exec .panelPllRelock s = .next t ∧ t.sys.pnlLock = true ∧ t.pnlBit 63 = true ∧ t.pnlBit 62 = true)
end

