-- ==== Sys2Proof/Laws/Run.lean ====
section
/-!
SUPPORT. How the elementary computations of an instruction run: one equation each, so that a body is read off step by
step.
-/
namespace Sys2Proof.Machine

variable {α β : Type} (r : Run)

theorem X.bind_run (m : X α) (f : α → X β) :
    (m >>= f) r = (match m r with | .ok a r1 => f a r1 | .error e r1 => .error e r1) := by
  show EStateM.bind m f r = _
  unfold EStateM.bind
  cases m r <;> rfl
theorem X.bind_ok {m : X α} {r r1 : Run} {a : α} (h : m r = .ok a r1) (f : α → X β) : (m >>= f) r = f a r1 := by
  rw [X.bind_run, h]
theorem X.bind_error {m : X α} {r r1 : Run} {e : Stop} (h : m r = .error e r1) (f : α → X β) : (m >>= f) r = .error e r1 := by
  rw [X.bind_run, h]
@[simp] theorem X.pure_run (a : α) : (pure a : X α) r = .ok a r := rfl
@[simp] theorem X.st_run : X.st r = .ok r.s r := rfl
@[simp] theorem X.get_run : (get : X Run) r = .ok r r := rfl
@[simp] theorem X.ctxNo_run : X.ctxNo r = .ok r.x r := rfl
@[simp] theorem X.put_run (s : State) : X.put s r = .ok () { r with s := s } := rfl
@[simp] theorem X.upd_run (f : State → State) : X.upd f r = .ok () { r with s := f r.s } := rfl
@[simp] theorem X.updCtx_run (f : Ctx → Ctx) : X.updCtx f r = .ok () { r with s := r.s.updCtx r.x f } := rfl
@[simp] theorem X.ctx_run : X.ctx r = .ok (r.s.ctx r.x) r := rfl
@[simp] theorem X.ring_run : X.ring r = .ok (r.s.ctx r.x).ring r := rfl
@[simp] theorem X.core_run : X.core r = .ok (r.s.coreOf r.x) r := rfl
@[simp] theorem X.rd_run (f : BitVec 5) : X.rd f r = .ok ((r.s.ctx r.x).rd f) r := rfl
@[simp] theorem X.wr_run (f : BitVec 5) (w : Word) : X.wr f w r = .ok () { r with s := r.s.wrReg r.x f w } := rfl
@[simp] theorem X.free_run : X.free r = .ok r.s.free.1 { r with s := r.s.free.2 } := rfl
@[simp] theorem X.raise_run (e : Exc) : (X.raise e : X α) r = .error (.exc e id false) r := rfl
@[simp] theorem X.park_run (p : RunState) : (X.park p : X α) r = .error (.park p) r := rfl

/-- Two registers to one: what the operation gives is written, and the next instruction follows. -/
theorem X.two_run {d a b : BitVec 5} {f : Word → Word → X Word} {w : Word} {r1 : Run}
    (h : f ((r.s.ctx r.x).rd a) ((r.s.ctx r.x).rd b) r = .ok w r1) :
    X.two d a b f r = .ok .seq { r1 with s := r1.s.wrReg r1.x d w } := by
  simp only [X.two, bind, EStateM.bind, X.rd_run, h, X.wr_run]
  rfl

/-- One register to one. -/
theorem X.one_run {d a : BitVec 5} {f : Word → X Word} {w : Word} {r1 : Run}
    (h : f ((r.s.ctx r.x).rd a) r = .ok w r1) :
    X.one d a f r = .ok .seq { r1 with s := r1.s.wrReg r1.x d w } := by
  simp only [X.one, bind, EStateM.bind, X.rd_run, h, X.wr_run]
  rfl

end Sys2Proof.Machine
end

