-- ==== Sys2Proof/Laws/Tbl.lean ====
section
/-!
SUPPORT. Laws of the sparse tables: what is read after a write, and that every operation keeps the canonical form.
-/
namespace Sys2Proof.Machine

variable {α : Type}

@[simp] theorem Tbl.look_nil (k : Nat) : Tbl.look ([] : Tbl α) k = none := rfl

theorem Tbl.look_cons (i : Nat) (v : α) (t : Tbl α) (k : Nat) :
    Tbl.look ((i, v) :: t) k = if i = k then some v else Tbl.look t k := rfl

@[simp] theorem Tbl.look_insert_self (t : Tbl α) (k : Nat) (v : α) : Tbl.look (Tbl.insert t k v) k = some v := by
  induction t with
  | nil => simp [Tbl.insert, Tbl.look]
  | cons e t ih =>
    obtain ⟨i, w⟩ := e
    unfold Tbl.insert
    split
    · simp [Tbl.look]
    · split
      · simp [Tbl.look]
      · simp [Tbl.look, *]

theorem Tbl.look_insert_ne (t : Tbl α) {k j : Nat} (v : α) (h : k ≠ j) : Tbl.look (Tbl.insert t k v) j = Tbl.look t j := by
  induction t with
  | nil => simp [Tbl.insert, Tbl.look, h]
  | cons e t ih =>
    obtain ⟨i, w⟩ := e
    unfold Tbl.insert
    split
    · next hi => subst hi; simp [Tbl.look, h]
    · split
      · simp [Tbl.look, h]
      · simp [Tbl.look, ih]

@[simp] theorem Tbl.look_erase_self (t : Tbl α) (k : Nat) : Tbl.look (Tbl.erase t k) k = none := by
  induction t with
  | nil => rfl
  | cons e t ih =>
    obtain ⟨i, w⟩ := e
    unfold Tbl.erase
    split
    · exact ih
    · simp [Tbl.look, *]

theorem Tbl.look_erase_ne (t : Tbl α) {k j : Nat} (h : k ≠ j) : Tbl.look (Tbl.erase t k) j = Tbl.look t j := by
  induction t with
  | nil => rfl
  | cons e t ih =>
    obtain ⟨i, w⟩ := e
    unfold Tbl.erase
    split
    · next hi => subst hi; simp [Tbl.look, h, ih]
    · simp [Tbl.look, ih]

theorem Tbl.rising_mono {t : Tbl α} {a b : Nat} (h : a ≤ b) (ht : Tbl.rising b t = true) : Tbl.rising a t = true := by
  cases t with
  | nil => rfl
  | cons e t => simp only [Tbl.rising, Bool.and_eq_true, decide_eq_true_eq] at ht ⊢; exact ⟨Nat.le_trans h ht.1, ht.2⟩

theorem Tbl.rising_erase {t : Tbl α} {a : Nat} (k : Nat) (ht : Tbl.rising a t = true) : Tbl.rising a (Tbl.erase t k) = true := by
  induction t generalizing a with
  | nil => rfl
  | cons e t ih =>
    obtain ⟨i, v⟩ := e
    simp only [Tbl.rising, Bool.and_eq_true, decide_eq_true_eq] at ht
    unfold Tbl.erase
    split
    · exact Tbl.rising_mono (by omega) (ih ht.2)
    · simp only [Tbl.rising, Bool.and_eq_true, decide_eq_true_eq]; exact ⟨ht.1, ih ht.2⟩

theorem Tbl.rising_insert {t : Tbl α} {a : Nat} (k : Nat) (v : α) (ha : a ≤ k) (ht : Tbl.rising a t = true) :
    Tbl.rising a (Tbl.insert t k v) = true := by
  induction t generalizing a with
  | nil => simp [Tbl.insert, Tbl.rising, ha]
  | cons e t ih =>
    obtain ⟨i, w⟩ := e
    simp only [Tbl.rising, Bool.and_eq_true, decide_eq_true_eq] at ht
    unfold Tbl.insert
    split
    · next hi => subst hi; simp only [Tbl.rising, Bool.and_eq_true, decide_eq_true_eq]; exact ⟨ha, ht.2⟩
    · split
      · next hk =>
        simp only [Tbl.rising, Bool.and_eq_true, decide_eq_true_eq]
        exact ⟨ha, by omega, ht.2⟩
      · simp only [Tbl.rising, Bool.and_eq_true, decide_eq_true_eq]
        exact ⟨ht.1, ih (by omega) ht.2⟩

theorem Tbl.mem_erase {t : Tbl α} {k : Nat} {e : Nat × α} (h : e ∈ Tbl.erase t k) : e ∈ t := by
  induction t with
  | nil => exact h
  | cons f t ih =>
    unfold Tbl.erase at h
    split at h
    · exact List.mem_cons_of_mem _ (ih h)
    · rcases List.mem_cons.mp h with h | h
      · exact h ▸ List.mem_cons_self
      · exact List.mem_cons_of_mem _ (ih h)

theorem Tbl.mem_insert {t : Tbl α} {k : Nat} {v : α} {e : Nat × α} (h : e ∈ Tbl.insert t k v) : e = (k, v) ∨ e ∈ t := by
  induction t with
  | nil => simpa [Tbl.insert] using h
  | cons f t ih =>
    unfold Tbl.insert at h
    split at h
    · rcases List.mem_cons.mp h with h | h
      · exact .inl h
      · exact .inr (List.mem_cons_of_mem _ h)
    · split at h
      · rcases List.mem_cons.mp h with h | h
        · exact .inl h
        · exact .inr h
      · rcases List.mem_cons.mp h with h | h
        · exact .inr (h ▸ List.mem_cons_self)
        · exact (ih h).imp id (List.mem_cons_of_mem _)

variable [DecidableEq α] (d : Nat → α)

/-- A read after a write of the same key gives the value written. -/
@[simp] theorem Tbl.get_set_self (t : Tbl α) (k : Nat) (v : α) : Tbl.get d (Tbl.set d t k v) k = v := by
  unfold Tbl.set Tbl.get
  split
  · next h => simp [h]
  · simp

/-- A write leaves every other key alone. -/
theorem Tbl.get_set_ne (t : Tbl α) {k j : Nat} (v : α) (h : k ≠ j) : Tbl.get d (Tbl.set d t k v) j = Tbl.get d t j := by
  unfold Tbl.set Tbl.get
  split
  · rw [Tbl.look_erase_ne t h]
  · rw [Tbl.look_insert_ne t v h]

theorem Tbl.get_set (t : Tbl α) (k j : Nat) (v : α) : Tbl.get d (Tbl.set d t k v) j = if k = j then v else Tbl.get d t j := by
  split
  · next h => subst h; exact Tbl.get_set_self d t k v
  · next h => exact Tbl.get_set_ne d t v h

/-- Writing a key keeps the canonical form. -/
theorem Tbl.wf_set {t : Tbl α} (k : Nat) (v : α) (ht : Tbl.wf d t = true) : Tbl.wf d (Tbl.set d t k v) = true := by
  simp only [Tbl.wf, Bool.and_eq_true, List.all_eq_true, decide_eq_true_eq] at ht ⊢
  unfold Tbl.set
  split
  · exact ⟨Tbl.rising_erase k ht.1, fun e he => ht.2 e (Tbl.mem_erase he)⟩
  · next hv =>
    refine ⟨Tbl.rising_insert k v (Nat.zero_le k) ht.1, fun e he => ?_⟩
    rcases Tbl.mem_insert he with h | h
    · subst h; exact hv
    · exact ht.2 e h

end Sys2Proof.Machine
end

