-- ==== Sys2Proof/Laws/State.lean ====
section
/-!
SUPPORT. What each elementary update of the state leaves alone, one lemma per field, and what it reads as afterwards.
-/
namespace Sys2Proof.Machine

variable (s : State)

@[simp] theorem State.updCtx_eq (x : Nat) (f : Ctx → Ctx) : s.updCtx x f = s.setCtx x (f (s.ctx x)) := rfl
@[simp] theorem State.updCore_eq (k : Nat) (f : Core → Core) : s.updCore k f = s.setCore k (f (s.core k)) := rfl
@[simp] theorem State.updTwin_eq (t : Nat) (f : Twin → Twin) : s.updTwin t f = s.setTwin t (f (s.twin t)) := rfl
@[simp] theorem State.updCluster_eq (n : Nat) (f : Cluster → Cluster) : s.updCluster n f = s.setCluster n (f (s.cluster n)) := rfl
@[simp] theorem State.setRf_eq (off hi lo v : Nat) : s.setRf off hi lo v = s.setReg off (setFld (s.reg off) hi lo v) := rfl
@[simp] theorem State.updSys_eq (f : Sys → Sys) : s.updSys f = { s with sys := f s.sys } := rfl
@[simp] theorem State.updPwr_eq (f : Pwr → Pwr) : s.updPwr f = { s with pwr := f s.pwr } := rfl

/-! ### setCtx -/

@[simp] theorem State.setCtx_pending (x : Nat) (c : Ctx) : (s.setCtx x c).pending = s.pending := rfl
@[simp] theorem State.setCtx_freeCount (x : Nat) (c : Ctx) : (s.setCtx x c).freeCount = s.freeCount := rfl
@[simp] theorem State.setCtx_mem (x : Nat) (c : Ctx) : (s.setCtx x c).mem = s.mem := rfl
@[simp] theorem State.setCtx_tags (x : Nat) (c : Ctx) : (s.setCtx x c).tags = s.tags := rfl
@[simp] theorem State.setCtx_backing (x : Nat) (c : Ctx) : (s.setCtx x c).backing = s.backing := rfl
@[simp] theorem State.setCtx_dev (x : Nat) (c : Ctx) : (s.setCtx x c).dev = s.dev := rfl
@[simp] theorem State.setCtx_cores (x : Nat) (c : Ctx) : (s.setCtx x c).cores = s.cores := rfl
@[simp] theorem State.setCtx_twins (x : Nat) (c : Ctx) : (s.setCtx x c).twins = s.twins := rfl
@[simp] theorem State.setCtx_clusters (x : Nat) (c : Ctx) : (s.setCtx x c).clusters = s.clusters := rfl
@[simp] theorem State.setCtx_heaps (x : Nat) (c : Ctx) : (s.setCtx x c).heaps = s.heaps := rfl
@[simp] theorem State.setCtx_runs (x : Nat) (c : Ctx) : (s.setCtx x c).runs = s.runs := rfl
@[simp] theorem State.setCtx_sto (x : Nat) (c : Ctx) : (s.setCtx x c).sto = s.sto := rfl
@[simp] theorem State.setCtx_ldg (x : Nat) (c : Ctx) : (s.setCtx x c).ldg = s.ldg := rfl
@[simp] theorem State.setCtx_sec (x : Nat) (c : Ctx) : (s.setCtx x c).sec = s.sec := rfl
@[simp] theorem State.setCtx_sys (x : Nat) (c : Ctx) : (s.setCtx x c).sys = s.sys := rfl
@[simp] theorem State.setCtx_pwr (x : Nat) (c : Ctx) : (s.setCtx x c).pwr = s.pwr := rfl
@[simp] theorem State.setCtx_bgs (x : Nat) (c : Ctx) : (s.setCtx x c).bgs = s.bgs := rfl
@[simp] theorem State.setCtx_eth (x : Nat) (c : Ctx) : (s.setCtx x c).eth = s.eth := rfl
@[simp] theorem State.setCtx_can (x : Nat) (c : Ctx) : (s.setCtx x c).can = s.can := rfl
@[simp] theorem State.setCtx_pcieCpl (x : Nat) (c : Ctx) : (s.setCtx x c).pcieCpl = s.pcieCpl := rfl
@[simp] theorem State.setCtx_sio (x : Nat) (c : Ctx) : (s.setCtx x c).sio = s.sio := rfl
@[simp] theorem State.setCtx_evt (x : Nat) (c : Ctx) : (s.setCtx x c).evt = s.evt := rfl
@[simp] theorem State.setCtx_pls (x : Nat) (c : Ctx) : (s.setCtx x c).pls = s.pls := rfl
@[simp] theorem State.setCtx_pnl (x : Nat) (c : Ctx) : (s.setCtx x c).pnl = s.pnl := rfl
@[simp] theorem State.setCtx_outbox (x : Nat) (c : Ctx) : (s.setCtx x c).outbox = s.outbox := rfl
@[simp] theorem State.setCtx_txns (x : Nat) (c : Ctx) : (s.setCtx x c).txns = s.txns := rfl
@[simp] theorem State.setCtx_nextTxn (x : Nat) (c : Ctx) : (s.setCtx x c).nextTxn = s.nextTxn := rfl
@[simp] theorem State.setCtx_lastGrant (x : Nat) (c : Ctx) : (s.setCtx x c).lastGrant = s.lastGrant := rfl
@[simp] theorem State.setCtx_queues (x : Nat) (c : Ctx) : (s.setCtx x c).queues = s.queues := rfl
@[simp] theorem State.setCtx_lastSent (x : Nat) (c : Ctx) : (s.setCtx x c).lastSent = s.lastSent := rfl
@[simp] theorem State.setCtx_answer (x : Nat) (c : Ctx) : (s.setCtx x c).answer = s.answer := rfl
@[simp] theorem State.setCtx_time (x : Nat) (c : Ctx) : (s.setCtx x c).time = s.time := rfl
@[simp] theorem State.setCtx_timeFrac (x : Nat) (c : Ctx) : (s.setCtx x c).timeFrac = s.timeFrac := rfl
@[simp] theorem State.setCtx_dnum (x : Nat) (c : Ctx) : (s.setCtx x c).dnum = s.dnum := rfl
@[simp] theorem State.setCtx_dcfg (x : Nat) (c : Ctx) : (s.setCtx x c).dcfg = s.dcfg := rfl
@[simp] theorem State.setCtx_dspd (x : Nat) (c : Ctx) : (s.setCtx x c).dspd = s.dspd := rfl
@[simp] theorem State.core_setCtx (x : Nat) (c : Ctx) (j : Nat) : (s.setCtx x c).core j = s.core j := rfl
@[simp] theorem State.twin_setCtx (x : Nat) (c : Ctx) (j : Nat) : (s.setCtx x c).twin j = s.twin j := rfl
@[simp] theorem State.cluster_setCtx (x : Nat) (c : Ctx) (j : Nat) : (s.setCtx x c).cluster j = s.cluster j := rfl
@[simp] theorem State.reg_setCtx (x : Nat) (c : Ctx) (j : Nat) : (s.setCtx x c).reg j = s.reg j := rfl
@[simp] theorem State.byte_setCtx (x : Nat) (c : Ctx) (j : Nat) : (s.setCtx x c).byte j = s.byte j := rfl
@[simp] theorem State.tagAt_setCtx (x : Nat) (c : Ctx) (j : Nat) : (s.setCtx x c).tagAt j = s.tagAt j := rfl

/-! ### setCore -/

@[simp] theorem State.setCore_pending (k : Nat) (c : Core) : (s.setCore k c).pending = s.pending := rfl
@[simp] theorem State.setCore_freeCount (k : Nat) (c : Core) : (s.setCore k c).freeCount = s.freeCount := rfl
@[simp] theorem State.setCore_mem (k : Nat) (c : Core) : (s.setCore k c).mem = s.mem := rfl
@[simp] theorem State.setCore_tags (k : Nat) (c : Core) : (s.setCore k c).tags = s.tags := rfl
@[simp] theorem State.setCore_backing (k : Nat) (c : Core) : (s.setCore k c).backing = s.backing := rfl
@[simp] theorem State.setCore_dev (k : Nat) (c : Core) : (s.setCore k c).dev = s.dev := rfl
@[simp] theorem State.setCore_ctxs (k : Nat) (c : Core) : (s.setCore k c).ctxs = s.ctxs := rfl
@[simp] theorem State.setCore_twins (k : Nat) (c : Core) : (s.setCore k c).twins = s.twins := rfl
@[simp] theorem State.setCore_clusters (k : Nat) (c : Core) : (s.setCore k c).clusters = s.clusters := rfl
@[simp] theorem State.setCore_heaps (k : Nat) (c : Core) : (s.setCore k c).heaps = s.heaps := rfl
@[simp] theorem State.setCore_runs (k : Nat) (c : Core) : (s.setCore k c).runs = s.runs := rfl
@[simp] theorem State.setCore_sto (k : Nat) (c : Core) : (s.setCore k c).sto = s.sto := rfl
@[simp] theorem State.setCore_ldg (k : Nat) (c : Core) : (s.setCore k c).ldg = s.ldg := rfl
@[simp] theorem State.setCore_sec (k : Nat) (c : Core) : (s.setCore k c).sec = s.sec := rfl
@[simp] theorem State.setCore_sys (k : Nat) (c : Core) : (s.setCore k c).sys = s.sys := rfl
@[simp] theorem State.setCore_pwr (k : Nat) (c : Core) : (s.setCore k c).pwr = s.pwr := rfl
@[simp] theorem State.setCore_bgs (k : Nat) (c : Core) : (s.setCore k c).bgs = s.bgs := rfl
@[simp] theorem State.setCore_eth (k : Nat) (c : Core) : (s.setCore k c).eth = s.eth := rfl
@[simp] theorem State.setCore_can (k : Nat) (c : Core) : (s.setCore k c).can = s.can := rfl
@[simp] theorem State.setCore_pcieCpl (k : Nat) (c : Core) : (s.setCore k c).pcieCpl = s.pcieCpl := rfl
@[simp] theorem State.setCore_sio (k : Nat) (c : Core) : (s.setCore k c).sio = s.sio := rfl
@[simp] theorem State.setCore_evt (k : Nat) (c : Core) : (s.setCore k c).evt = s.evt := rfl
@[simp] theorem State.setCore_pls (k : Nat) (c : Core) : (s.setCore k c).pls = s.pls := rfl
@[simp] theorem State.setCore_pnl (k : Nat) (c : Core) : (s.setCore k c).pnl = s.pnl := rfl
@[simp] theorem State.setCore_outbox (k : Nat) (c : Core) : (s.setCore k c).outbox = s.outbox := rfl
@[simp] theorem State.setCore_txns (k : Nat) (c : Core) : (s.setCore k c).txns = s.txns := rfl
@[simp] theorem State.setCore_nextTxn (k : Nat) (c : Core) : (s.setCore k c).nextTxn = s.nextTxn := rfl
@[simp] theorem State.setCore_lastGrant (k : Nat) (c : Core) : (s.setCore k c).lastGrant = s.lastGrant := rfl
@[simp] theorem State.setCore_queues (k : Nat) (c : Core) : (s.setCore k c).queues = s.queues := rfl
@[simp] theorem State.setCore_lastSent (k : Nat) (c : Core) : (s.setCore k c).lastSent = s.lastSent := rfl
@[simp] theorem State.setCore_answer (k : Nat) (c : Core) : (s.setCore k c).answer = s.answer := rfl
@[simp] theorem State.setCore_time (k : Nat) (c : Core) : (s.setCore k c).time = s.time := rfl
@[simp] theorem State.setCore_timeFrac (k : Nat) (c : Core) : (s.setCore k c).timeFrac = s.timeFrac := rfl
@[simp] theorem State.setCore_dnum (k : Nat) (c : Core) : (s.setCore k c).dnum = s.dnum := rfl
@[simp] theorem State.setCore_dcfg (k : Nat) (c : Core) : (s.setCore k c).dcfg = s.dcfg := rfl
@[simp] theorem State.setCore_dspd (k : Nat) (c : Core) : (s.setCore k c).dspd = s.dspd := rfl
@[simp] theorem State.ctx_setCore (k : Nat) (c : Core) (j : Nat) : (s.setCore k c).ctx j = s.ctx j := rfl
@[simp] theorem State.twin_setCore (k : Nat) (c : Core) (j : Nat) : (s.setCore k c).twin j = s.twin j := rfl
@[simp] theorem State.cluster_setCore (k : Nat) (c : Core) (j : Nat) : (s.setCore k c).cluster j = s.cluster j := rfl
@[simp] theorem State.reg_setCore (k : Nat) (c : Core) (j : Nat) : (s.setCore k c).reg j = s.reg j := rfl
@[simp] theorem State.byte_setCore (k : Nat) (c : Core) (j : Nat) : (s.setCore k c).byte j = s.byte j := rfl
@[simp] theorem State.tagAt_setCore (k : Nat) (c : Core) (j : Nat) : (s.setCore k c).tagAt j = s.tagAt j := rfl

/-! ### setTwin -/

@[simp] theorem State.setTwin_pending (t : Nat) (w : Twin) : (s.setTwin t w).pending = s.pending := rfl
@[simp] theorem State.setTwin_freeCount (t : Nat) (w : Twin) : (s.setTwin t w).freeCount = s.freeCount := rfl
@[simp] theorem State.setTwin_mem (t : Nat) (w : Twin) : (s.setTwin t w).mem = s.mem := rfl
@[simp] theorem State.setTwin_tags (t : Nat) (w : Twin) : (s.setTwin t w).tags = s.tags := rfl
@[simp] theorem State.setTwin_backing (t : Nat) (w : Twin) : (s.setTwin t w).backing = s.backing := rfl
@[simp] theorem State.setTwin_dev (t : Nat) (w : Twin) : (s.setTwin t w).dev = s.dev := rfl
@[simp] theorem State.setTwin_ctxs (t : Nat) (w : Twin) : (s.setTwin t w).ctxs = s.ctxs := rfl
@[simp] theorem State.setTwin_cores (t : Nat) (w : Twin) : (s.setTwin t w).cores = s.cores := rfl
@[simp] theorem State.setTwin_clusters (t : Nat) (w : Twin) : (s.setTwin t w).clusters = s.clusters := rfl
@[simp] theorem State.setTwin_heaps (t : Nat) (w : Twin) : (s.setTwin t w).heaps = s.heaps := rfl
@[simp] theorem State.setTwin_runs (t : Nat) (w : Twin) : (s.setTwin t w).runs = s.runs := rfl
@[simp] theorem State.setTwin_sto (t : Nat) (w : Twin) : (s.setTwin t w).sto = s.sto := rfl
@[simp] theorem State.setTwin_ldg (t : Nat) (w : Twin) : (s.setTwin t w).ldg = s.ldg := rfl
@[simp] theorem State.setTwin_sec (t : Nat) (w : Twin) : (s.setTwin t w).sec = s.sec := rfl
@[simp] theorem State.setTwin_sys (t : Nat) (w : Twin) : (s.setTwin t w).sys = s.sys := rfl
@[simp] theorem State.setTwin_pwr (t : Nat) (w : Twin) : (s.setTwin t w).pwr = s.pwr := rfl
@[simp] theorem State.setTwin_bgs (t : Nat) (w : Twin) : (s.setTwin t w).bgs = s.bgs := rfl
@[simp] theorem State.setTwin_eth (t : Nat) (w : Twin) : (s.setTwin t w).eth = s.eth := rfl
@[simp] theorem State.setTwin_can (t : Nat) (w : Twin) : (s.setTwin t w).can = s.can := rfl
@[simp] theorem State.setTwin_pcieCpl (t : Nat) (w : Twin) : (s.setTwin t w).pcieCpl = s.pcieCpl := rfl
@[simp] theorem State.setTwin_sio (t : Nat) (w : Twin) : (s.setTwin t w).sio = s.sio := rfl
@[simp] theorem State.setTwin_evt (t : Nat) (w : Twin) : (s.setTwin t w).evt = s.evt := rfl
@[simp] theorem State.setTwin_pls (t : Nat) (w : Twin) : (s.setTwin t w).pls = s.pls := rfl
@[simp] theorem State.setTwin_pnl (t : Nat) (w : Twin) : (s.setTwin t w).pnl = s.pnl := rfl
@[simp] theorem State.setTwin_outbox (t : Nat) (w : Twin) : (s.setTwin t w).outbox = s.outbox := rfl
@[simp] theorem State.setTwin_txns (t : Nat) (w : Twin) : (s.setTwin t w).txns = s.txns := rfl
@[simp] theorem State.setTwin_nextTxn (t : Nat) (w : Twin) : (s.setTwin t w).nextTxn = s.nextTxn := rfl
@[simp] theorem State.setTwin_lastGrant (t : Nat) (w : Twin) : (s.setTwin t w).lastGrant = s.lastGrant := rfl
@[simp] theorem State.setTwin_queues (t : Nat) (w : Twin) : (s.setTwin t w).queues = s.queues := rfl
@[simp] theorem State.setTwin_lastSent (t : Nat) (w : Twin) : (s.setTwin t w).lastSent = s.lastSent := rfl
@[simp] theorem State.setTwin_answer (t : Nat) (w : Twin) : (s.setTwin t w).answer = s.answer := rfl
@[simp] theorem State.setTwin_time (t : Nat) (w : Twin) : (s.setTwin t w).time = s.time := rfl
@[simp] theorem State.setTwin_timeFrac (t : Nat) (w : Twin) : (s.setTwin t w).timeFrac = s.timeFrac := rfl
@[simp] theorem State.setTwin_dnum (t : Nat) (w : Twin) : (s.setTwin t w).dnum = s.dnum := rfl
@[simp] theorem State.setTwin_dcfg (t : Nat) (w : Twin) : (s.setTwin t w).dcfg = s.dcfg := rfl
@[simp] theorem State.setTwin_dspd (t : Nat) (w : Twin) : (s.setTwin t w).dspd = s.dspd := rfl
@[simp] theorem State.ctx_setTwin (t : Nat) (w : Twin) (j : Nat) : (s.setTwin t w).ctx j = s.ctx j := rfl
@[simp] theorem State.core_setTwin (t : Nat) (w : Twin) (j : Nat) : (s.setTwin t w).core j = s.core j := rfl
@[simp] theorem State.cluster_setTwin (t : Nat) (w : Twin) (j : Nat) : (s.setTwin t w).cluster j = s.cluster j := rfl
@[simp] theorem State.reg_setTwin (t : Nat) (w : Twin) (j : Nat) : (s.setTwin t w).reg j = s.reg j := rfl
@[simp] theorem State.byte_setTwin (t : Nat) (w : Twin) (j : Nat) : (s.setTwin t w).byte j = s.byte j := rfl
@[simp] theorem State.tagAt_setTwin (t : Nat) (w : Twin) (j : Nat) : (s.setTwin t w).tagAt j = s.tagAt j := rfl

/-! ### setCluster -/

@[simp] theorem State.setCluster_pending (n : Nat) (c : Cluster) : (s.setCluster n c).pending = s.pending := rfl
@[simp] theorem State.setCluster_freeCount (n : Nat) (c : Cluster) : (s.setCluster n c).freeCount = s.freeCount := rfl
@[simp] theorem State.setCluster_mem (n : Nat) (c : Cluster) : (s.setCluster n c).mem = s.mem := rfl
@[simp] theorem State.setCluster_tags (n : Nat) (c : Cluster) : (s.setCluster n c).tags = s.tags := rfl
@[simp] theorem State.setCluster_backing (n : Nat) (c : Cluster) : (s.setCluster n c).backing = s.backing := rfl
@[simp] theorem State.setCluster_dev (n : Nat) (c : Cluster) : (s.setCluster n c).dev = s.dev := rfl
@[simp] theorem State.setCluster_ctxs (n : Nat) (c : Cluster) : (s.setCluster n c).ctxs = s.ctxs := rfl
@[simp] theorem State.setCluster_cores (n : Nat) (c : Cluster) : (s.setCluster n c).cores = s.cores := rfl
@[simp] theorem State.setCluster_twins (n : Nat) (c : Cluster) : (s.setCluster n c).twins = s.twins := rfl
@[simp] theorem State.setCluster_heaps (n : Nat) (c : Cluster) : (s.setCluster n c).heaps = s.heaps := rfl
@[simp] theorem State.setCluster_runs (n : Nat) (c : Cluster) : (s.setCluster n c).runs = s.runs := rfl
@[simp] theorem State.setCluster_sto (n : Nat) (c : Cluster) : (s.setCluster n c).sto = s.sto := rfl
@[simp] theorem State.setCluster_ldg (n : Nat) (c : Cluster) : (s.setCluster n c).ldg = s.ldg := rfl
@[simp] theorem State.setCluster_sec (n : Nat) (c : Cluster) : (s.setCluster n c).sec = s.sec := rfl
@[simp] theorem State.setCluster_sys (n : Nat) (c : Cluster) : (s.setCluster n c).sys = s.sys := rfl
@[simp] theorem State.setCluster_pwr (n : Nat) (c : Cluster) : (s.setCluster n c).pwr = s.pwr := rfl
@[simp] theorem State.setCluster_bgs (n : Nat) (c : Cluster) : (s.setCluster n c).bgs = s.bgs := rfl
@[simp] theorem State.setCluster_eth (n : Nat) (c : Cluster) : (s.setCluster n c).eth = s.eth := rfl
@[simp] theorem State.setCluster_can (n : Nat) (c : Cluster) : (s.setCluster n c).can = s.can := rfl
@[simp] theorem State.setCluster_pcieCpl (n : Nat) (c : Cluster) : (s.setCluster n c).pcieCpl = s.pcieCpl := rfl
@[simp] theorem State.setCluster_sio (n : Nat) (c : Cluster) : (s.setCluster n c).sio = s.sio := rfl
@[simp] theorem State.setCluster_evt (n : Nat) (c : Cluster) : (s.setCluster n c).evt = s.evt := rfl
@[simp] theorem State.setCluster_pls (n : Nat) (c : Cluster) : (s.setCluster n c).pls = s.pls := rfl
@[simp] theorem State.setCluster_pnl (n : Nat) (c : Cluster) : (s.setCluster n c).pnl = s.pnl := rfl
@[simp] theorem State.setCluster_outbox (n : Nat) (c : Cluster) : (s.setCluster n c).outbox = s.outbox := rfl
@[simp] theorem State.setCluster_txns (n : Nat) (c : Cluster) : (s.setCluster n c).txns = s.txns := rfl
@[simp] theorem State.setCluster_nextTxn (n : Nat) (c : Cluster) : (s.setCluster n c).nextTxn = s.nextTxn := rfl
@[simp] theorem State.setCluster_lastGrant (n : Nat) (c : Cluster) : (s.setCluster n c).lastGrant = s.lastGrant := rfl
@[simp] theorem State.setCluster_queues (n : Nat) (c : Cluster) : (s.setCluster n c).queues = s.queues := rfl
@[simp] theorem State.setCluster_lastSent (n : Nat) (c : Cluster) : (s.setCluster n c).lastSent = s.lastSent := rfl
@[simp] theorem State.setCluster_answer (n : Nat) (c : Cluster) : (s.setCluster n c).answer = s.answer := rfl
@[simp] theorem State.setCluster_time (n : Nat) (c : Cluster) : (s.setCluster n c).time = s.time := rfl
@[simp] theorem State.setCluster_timeFrac (n : Nat) (c : Cluster) : (s.setCluster n c).timeFrac = s.timeFrac := rfl
@[simp] theorem State.setCluster_dnum (n : Nat) (c : Cluster) : (s.setCluster n c).dnum = s.dnum := rfl
@[simp] theorem State.setCluster_dcfg (n : Nat) (c : Cluster) : (s.setCluster n c).dcfg = s.dcfg := rfl
@[simp] theorem State.setCluster_dspd (n : Nat) (c : Cluster) : (s.setCluster n c).dspd = s.dspd := rfl
@[simp] theorem State.ctx_setCluster (n : Nat) (c : Cluster) (j : Nat) : (s.setCluster n c).ctx j = s.ctx j := rfl
@[simp] theorem State.core_setCluster (n : Nat) (c : Cluster) (j : Nat) : (s.setCluster n c).core j = s.core j := rfl
@[simp] theorem State.twin_setCluster (n : Nat) (c : Cluster) (j : Nat) : (s.setCluster n c).twin j = s.twin j := rfl
@[simp] theorem State.reg_setCluster (n : Nat) (c : Cluster) (j : Nat) : (s.setCluster n c).reg j = s.reg j := rfl
@[simp] theorem State.byte_setCluster (n : Nat) (c : Cluster) (j : Nat) : (s.setCluster n c).byte j = s.byte j := rfl
@[simp] theorem State.tagAt_setCluster (n : Nat) (c : Cluster) (j : Nat) : (s.setCluster n c).tagAt j = s.tagAt j := rfl

/-! ### setReg -/

@[simp] theorem State.setReg_pending (off : Nat) (v : Pay) : (s.setReg off v).pending = s.pending := rfl
@[simp] theorem State.setReg_freeCount (off : Nat) (v : Pay) : (s.setReg off v).freeCount = s.freeCount := rfl
@[simp] theorem State.setReg_mem (off : Nat) (v : Pay) : (s.setReg off v).mem = s.mem := rfl
@[simp] theorem State.setReg_tags (off : Nat) (v : Pay) : (s.setReg off v).tags = s.tags := rfl
@[simp] theorem State.setReg_backing (off : Nat) (v : Pay) : (s.setReg off v).backing = s.backing := rfl
@[simp] theorem State.setReg_ctxs (off : Nat) (v : Pay) : (s.setReg off v).ctxs = s.ctxs := rfl
@[simp] theorem State.setReg_cores (off : Nat) (v : Pay) : (s.setReg off v).cores = s.cores := rfl
@[simp] theorem State.setReg_twins (off : Nat) (v : Pay) : (s.setReg off v).twins = s.twins := rfl
@[simp] theorem State.setReg_clusters (off : Nat) (v : Pay) : (s.setReg off v).clusters = s.clusters := rfl
@[simp] theorem State.setReg_heaps (off : Nat) (v : Pay) : (s.setReg off v).heaps = s.heaps := rfl
@[simp] theorem State.setReg_runs (off : Nat) (v : Pay) : (s.setReg off v).runs = s.runs := rfl
@[simp] theorem State.setReg_sto (off : Nat) (v : Pay) : (s.setReg off v).sto = s.sto := rfl
@[simp] theorem State.setReg_ldg (off : Nat) (v : Pay) : (s.setReg off v).ldg = s.ldg := rfl
@[simp] theorem State.setReg_sec (off : Nat) (v : Pay) : (s.setReg off v).sec = s.sec := rfl
@[simp] theorem State.setReg_sys (off : Nat) (v : Pay) : (s.setReg off v).sys = s.sys := rfl
@[simp] theorem State.setReg_pwr (off : Nat) (v : Pay) : (s.setReg off v).pwr = s.pwr := rfl
@[simp] theorem State.setReg_bgs (off : Nat) (v : Pay) : (s.setReg off v).bgs = s.bgs := rfl
@[simp] theorem State.setReg_eth (off : Nat) (v : Pay) : (s.setReg off v).eth = s.eth := rfl
@[simp] theorem State.setReg_can (off : Nat) (v : Pay) : (s.setReg off v).can = s.can := rfl
@[simp] theorem State.setReg_pcieCpl (off : Nat) (v : Pay) : (s.setReg off v).pcieCpl = s.pcieCpl := rfl
@[simp] theorem State.setReg_sio (off : Nat) (v : Pay) : (s.setReg off v).sio = s.sio := rfl
@[simp] theorem State.setReg_evt (off : Nat) (v : Pay) : (s.setReg off v).evt = s.evt := rfl
@[simp] theorem State.setReg_pls (off : Nat) (v : Pay) : (s.setReg off v).pls = s.pls := rfl
@[simp] theorem State.setReg_pnl (off : Nat) (v : Pay) : (s.setReg off v).pnl = s.pnl := rfl
@[simp] theorem State.setReg_outbox (off : Nat) (v : Pay) : (s.setReg off v).outbox = s.outbox := rfl
@[simp] theorem State.setReg_txns (off : Nat) (v : Pay) : (s.setReg off v).txns = s.txns := rfl
@[simp] theorem State.setReg_nextTxn (off : Nat) (v : Pay) : (s.setReg off v).nextTxn = s.nextTxn := rfl
@[simp] theorem State.setReg_lastGrant (off : Nat) (v : Pay) : (s.setReg off v).lastGrant = s.lastGrant := rfl
@[simp] theorem State.setReg_queues (off : Nat) (v : Pay) : (s.setReg off v).queues = s.queues := rfl
@[simp] theorem State.setReg_lastSent (off : Nat) (v : Pay) : (s.setReg off v).lastSent = s.lastSent := rfl
@[simp] theorem State.setReg_answer (off : Nat) (v : Pay) : (s.setReg off v).answer = s.answer := rfl
@[simp] theorem State.setReg_time (off : Nat) (v : Pay) : (s.setReg off v).time = s.time := rfl
@[simp] theorem State.setReg_timeFrac (off : Nat) (v : Pay) : (s.setReg off v).timeFrac = s.timeFrac := rfl
@[simp] theorem State.setReg_dnum (off : Nat) (v : Pay) : (s.setReg off v).dnum = s.dnum := rfl
@[simp] theorem State.setReg_dcfg (off : Nat) (v : Pay) : (s.setReg off v).dcfg = s.dcfg := rfl
@[simp] theorem State.setReg_dspd (off : Nat) (v : Pay) : (s.setReg off v).dspd = s.dspd := rfl
@[simp] theorem State.ctx_setReg (off : Nat) (v : Pay) (j : Nat) : (s.setReg off v).ctx j = s.ctx j := rfl
@[simp] theorem State.core_setReg (off : Nat) (v : Pay) (j : Nat) : (s.setReg off v).core j = s.core j := rfl
@[simp] theorem State.twin_setReg (off : Nat) (v : Pay) (j : Nat) : (s.setReg off v).twin j = s.twin j := rfl
@[simp] theorem State.cluster_setReg (off : Nat) (v : Pay) (j : Nat) : (s.setReg off v).cluster j = s.cluster j := rfl
@[simp] theorem State.byte_setReg (off : Nat) (v : Pay) (j : Nat) : (s.setReg off v).byte j = s.byte j := rfl
@[simp] theorem State.tagAt_setReg (off : Nat) (v : Pay) (j : Nat) : (s.setReg off v).tagAt j = s.tagAt j := rfl

/-! ### setByte -/

@[simp] theorem State.setByte_pending (k : Nat) (v : BitVec 8) : (s.setByte k v).pending = s.pending := rfl
@[simp] theorem State.setByte_freeCount (k : Nat) (v : BitVec 8) : (s.setByte k v).freeCount = s.freeCount := rfl
@[simp] theorem State.setByte_tags (k : Nat) (v : BitVec 8) : (s.setByte k v).tags = s.tags := rfl
@[simp] theorem State.setByte_backing (k : Nat) (v : BitVec 8) : (s.setByte k v).backing = s.backing := rfl
@[simp] theorem State.setByte_dev (k : Nat) (v : BitVec 8) : (s.setByte k v).dev = s.dev := rfl
@[simp] theorem State.setByte_ctxs (k : Nat) (v : BitVec 8) : (s.setByte k v).ctxs = s.ctxs := rfl
@[simp] theorem State.setByte_cores (k : Nat) (v : BitVec 8) : (s.setByte k v).cores = s.cores := rfl
@[simp] theorem State.setByte_twins (k : Nat) (v : BitVec 8) : (s.setByte k v).twins = s.twins := rfl
@[simp] theorem State.setByte_clusters (k : Nat) (v : BitVec 8) : (s.setByte k v).clusters = s.clusters := rfl
@[simp] theorem State.setByte_heaps (k : Nat) (v : BitVec 8) : (s.setByte k v).heaps = s.heaps := rfl
@[simp] theorem State.setByte_runs (k : Nat) (v : BitVec 8) : (s.setByte k v).runs = s.runs := rfl
@[simp] theorem State.setByte_sto (k : Nat) (v : BitVec 8) : (s.setByte k v).sto = s.sto := rfl
@[simp] theorem State.setByte_ldg (k : Nat) (v : BitVec 8) : (s.setByte k v).ldg = s.ldg := rfl
@[simp] theorem State.setByte_sec (k : Nat) (v : BitVec 8) : (s.setByte k v).sec = s.sec := rfl
@[simp] theorem State.setByte_sys (k : Nat) (v : BitVec 8) : (s.setByte k v).sys = s.sys := rfl
@[simp] theorem State.setByte_pwr (k : Nat) (v : BitVec 8) : (s.setByte k v).pwr = s.pwr := rfl
@[simp] theorem State.setByte_bgs (k : Nat) (v : BitVec 8) : (s.setByte k v).bgs = s.bgs := rfl
@[simp] theorem State.setByte_eth (k : Nat) (v : BitVec 8) : (s.setByte k v).eth = s.eth := rfl
@[simp] theorem State.setByte_can (k : Nat) (v : BitVec 8) : (s.setByte k v).can = s.can := rfl
@[simp] theorem State.setByte_pcieCpl (k : Nat) (v : BitVec 8) : (s.setByte k v).pcieCpl = s.pcieCpl := rfl
@[simp] theorem State.setByte_sio (k : Nat) (v : BitVec 8) : (s.setByte k v).sio = s.sio := rfl
@[simp] theorem State.setByte_evt (k : Nat) (v : BitVec 8) : (s.setByte k v).evt = s.evt := rfl
@[simp] theorem State.setByte_pls (k : Nat) (v : BitVec 8) : (s.setByte k v).pls = s.pls := rfl
@[simp] theorem State.setByte_pnl (k : Nat) (v : BitVec 8) : (s.setByte k v).pnl = s.pnl := rfl
@[simp] theorem State.setByte_outbox (k : Nat) (v : BitVec 8) : (s.setByte k v).outbox = s.outbox := rfl
@[simp] theorem State.setByte_txns (k : Nat) (v : BitVec 8) : (s.setByte k v).txns = s.txns := rfl
@[simp] theorem State.setByte_nextTxn (k : Nat) (v : BitVec 8) : (s.setByte k v).nextTxn = s.nextTxn := rfl
@[simp] theorem State.setByte_lastGrant (k : Nat) (v : BitVec 8) : (s.setByte k v).lastGrant = s.lastGrant := rfl
@[simp] theorem State.setByte_queues (k : Nat) (v : BitVec 8) : (s.setByte k v).queues = s.queues := rfl
@[simp] theorem State.setByte_lastSent (k : Nat) (v : BitVec 8) : (s.setByte k v).lastSent = s.lastSent := rfl
@[simp] theorem State.setByte_answer (k : Nat) (v : BitVec 8) : (s.setByte k v).answer = s.answer := rfl
@[simp] theorem State.setByte_time (k : Nat) (v : BitVec 8) : (s.setByte k v).time = s.time := rfl
@[simp] theorem State.setByte_timeFrac (k : Nat) (v : BitVec 8) : (s.setByte k v).timeFrac = s.timeFrac := rfl
@[simp] theorem State.setByte_dnum (k : Nat) (v : BitVec 8) : (s.setByte k v).dnum = s.dnum := rfl
@[simp] theorem State.setByte_dcfg (k : Nat) (v : BitVec 8) : (s.setByte k v).dcfg = s.dcfg := rfl
@[simp] theorem State.setByte_dspd (k : Nat) (v : BitVec 8) : (s.setByte k v).dspd = s.dspd := rfl
@[simp] theorem State.ctx_setByte (k : Nat) (v : BitVec 8) (j : Nat) : (s.setByte k v).ctx j = s.ctx j := rfl
@[simp] theorem State.core_setByte (k : Nat) (v : BitVec 8) (j : Nat) : (s.setByte k v).core j = s.core j := rfl
@[simp] theorem State.twin_setByte (k : Nat) (v : BitVec 8) (j : Nat) : (s.setByte k v).twin j = s.twin j := rfl
@[simp] theorem State.cluster_setByte (k : Nat) (v : BitVec 8) (j : Nat) : (s.setByte k v).cluster j = s.cluster j := rfl
@[simp] theorem State.reg_setByte (k : Nat) (v : BitVec 8) (j : Nat) : (s.setByte k v).reg j = s.reg j := rfl
@[simp] theorem State.tagAt_setByte (k : Nat) (v : BitVec 8) (j : Nat) : (s.setByte k v).tagAt j = s.tagAt j := rfl

/-! ### setTagAt -/

@[simp] theorem State.setTagAt_pending (k : Nat) (t : BitVec 8) : (s.setTagAt k t).pending = s.pending := rfl
@[simp] theorem State.setTagAt_freeCount (k : Nat) (t : BitVec 8) : (s.setTagAt k t).freeCount = s.freeCount := rfl
@[simp] theorem State.setTagAt_mem (k : Nat) (t : BitVec 8) : (s.setTagAt k t).mem = s.mem := rfl
@[simp] theorem State.setTagAt_backing (k : Nat) (t : BitVec 8) : (s.setTagAt k t).backing = s.backing := rfl
@[simp] theorem State.setTagAt_dev (k : Nat) (t : BitVec 8) : (s.setTagAt k t).dev = s.dev := rfl
@[simp] theorem State.setTagAt_ctxs (k : Nat) (t : BitVec 8) : (s.setTagAt k t).ctxs = s.ctxs := rfl
@[simp] theorem State.setTagAt_cores (k : Nat) (t : BitVec 8) : (s.setTagAt k t).cores = s.cores := rfl
@[simp] theorem State.setTagAt_twins (k : Nat) (t : BitVec 8) : (s.setTagAt k t).twins = s.twins := rfl
@[simp] theorem State.setTagAt_clusters (k : Nat) (t : BitVec 8) : (s.setTagAt k t).clusters = s.clusters := rfl
@[simp] theorem State.setTagAt_heaps (k : Nat) (t : BitVec 8) : (s.setTagAt k t).heaps = s.heaps := rfl
@[simp] theorem State.setTagAt_runs (k : Nat) (t : BitVec 8) : (s.setTagAt k t).runs = s.runs := rfl
@[simp] theorem State.setTagAt_sto (k : Nat) (t : BitVec 8) : (s.setTagAt k t).sto = s.sto := rfl
@[simp] theorem State.setTagAt_ldg (k : Nat) (t : BitVec 8) : (s.setTagAt k t).ldg = s.ldg := rfl
@[simp] theorem State.setTagAt_sec (k : Nat) (t : BitVec 8) : (s.setTagAt k t).sec = s.sec := rfl
@[simp] theorem State.setTagAt_sys (k : Nat) (t : BitVec 8) : (s.setTagAt k t).sys = s.sys := rfl
@[simp] theorem State.setTagAt_pwr (k : Nat) (t : BitVec 8) : (s.setTagAt k t).pwr = s.pwr := rfl
@[simp] theorem State.setTagAt_bgs (k : Nat) (t : BitVec 8) : (s.setTagAt k t).bgs = s.bgs := rfl
@[simp] theorem State.setTagAt_eth (k : Nat) (t : BitVec 8) : (s.setTagAt k t).eth = s.eth := rfl
@[simp] theorem State.setTagAt_can (k : Nat) (t : BitVec 8) : (s.setTagAt k t).can = s.can := rfl
@[simp] theorem State.setTagAt_pcieCpl (k : Nat) (t : BitVec 8) : (s.setTagAt k t).pcieCpl = s.pcieCpl := rfl
@[simp] theorem State.setTagAt_sio (k : Nat) (t : BitVec 8) : (s.setTagAt k t).sio = s.sio := rfl
@[simp] theorem State.setTagAt_evt (k : Nat) (t : BitVec 8) : (s.setTagAt k t).evt = s.evt := rfl
@[simp] theorem State.setTagAt_pls (k : Nat) (t : BitVec 8) : (s.setTagAt k t).pls = s.pls := rfl
@[simp] theorem State.setTagAt_pnl (k : Nat) (t : BitVec 8) : (s.setTagAt k t).pnl = s.pnl := rfl
@[simp] theorem State.setTagAt_outbox (k : Nat) (t : BitVec 8) : (s.setTagAt k t).outbox = s.outbox := rfl
@[simp] theorem State.setTagAt_txns (k : Nat) (t : BitVec 8) : (s.setTagAt k t).txns = s.txns := rfl
@[simp] theorem State.setTagAt_nextTxn (k : Nat) (t : BitVec 8) : (s.setTagAt k t).nextTxn = s.nextTxn := rfl
@[simp] theorem State.setTagAt_lastGrant (k : Nat) (t : BitVec 8) : (s.setTagAt k t).lastGrant = s.lastGrant := rfl
@[simp] theorem State.setTagAt_queues (k : Nat) (t : BitVec 8) : (s.setTagAt k t).queues = s.queues := rfl
@[simp] theorem State.setTagAt_lastSent (k : Nat) (t : BitVec 8) : (s.setTagAt k t).lastSent = s.lastSent := rfl
@[simp] theorem State.setTagAt_answer (k : Nat) (t : BitVec 8) : (s.setTagAt k t).answer = s.answer := rfl
@[simp] theorem State.setTagAt_time (k : Nat) (t : BitVec 8) : (s.setTagAt k t).time = s.time := rfl
@[simp] theorem State.setTagAt_timeFrac (k : Nat) (t : BitVec 8) : (s.setTagAt k t).timeFrac = s.timeFrac := rfl
@[simp] theorem State.setTagAt_dnum (k : Nat) (t : BitVec 8) : (s.setTagAt k t).dnum = s.dnum := rfl
@[simp] theorem State.setTagAt_dcfg (k : Nat) (t : BitVec 8) : (s.setTagAt k t).dcfg = s.dcfg := rfl
@[simp] theorem State.setTagAt_dspd (k : Nat) (t : BitVec 8) : (s.setTagAt k t).dspd = s.dspd := rfl
@[simp] theorem State.ctx_setTagAt (k : Nat) (t : BitVec 8) (j : Nat) : (s.setTagAt k t).ctx j = s.ctx j := rfl
@[simp] theorem State.core_setTagAt (k : Nat) (t : BitVec 8) (j : Nat) : (s.setTagAt k t).core j = s.core j := rfl
@[simp] theorem State.twin_setTagAt (k : Nat) (t : BitVec 8) (j : Nat) : (s.setTagAt k t).twin j = s.twin j := rfl
@[simp] theorem State.cluster_setTagAt (k : Nat) (t : BitVec 8) (j : Nat) : (s.setTagAt k t).cluster j = s.cluster j := rfl
@[simp] theorem State.reg_setTagAt (k : Nat) (t : BitVec 8) (j : Nat) : (s.setTagAt k t).reg j = s.reg j := rfl
@[simp] theorem State.byte_setTagAt (k : Nat) (t : BitVec 8) (j : Nat) : (s.setTagAt k t).byte j = s.byte j := rfl

/-! ### Reads after writes -/

@[simp] theorem State.ctx_setCtx_self (x : Nat) (c : Ctx) : (s.setCtx x c).ctx x = c := Tbl.get_set_self _ _ _ _
@[simp] theorem State.core_setCore_self (k : Nat) (c : Core) : (s.setCore k c).core k = c := Tbl.get_set_self _ _ _ _
@[simp] theorem State.twin_setTwin_self (t : Nat) (w : Twin) : (s.setTwin t w).twin t = w := Tbl.get_set_self _ _ _ _
@[simp] theorem State.cluster_setCluster_self (n : Nat) (c : Cluster) : (s.setCluster n c).cluster n = c := Tbl.get_set_self _ _ _ _
@[simp] theorem State.reg_setReg_self (off : Nat) (v : Pay) : (s.setReg off v).reg off = v := Tbl.get_set_self _ _ _ _
@[simp] theorem State.byte_setByte_self (k : Nat) (v : BitVec 8) : (s.setByte k v).byte k = v := Tbl.get_set_self _ _ _ _

theorem State.ctx_setCtx (x y : Nat) (c : Ctx) : (s.setCtx x c).ctx y = if x = y then c else s.ctx y := Tbl.get_set _ _ _ _ _
theorem State.core_setCore (k j : Nat) (c : Core) : (s.setCore k c).core j = if k = j then c else s.core j := Tbl.get_set _ _ _ _ _
theorem State.twin_setTwin (t u : Nat) (w : Twin) : (s.setTwin t w).twin u = if t = u then w else s.twin u := Tbl.get_set _ _ _ _ _
theorem State.cluster_setCluster (n m : Nat) (c : Cluster) : (s.setCluster n c).cluster m = if n = m then c else s.cluster m :=
  Tbl.get_set _ _ _ _ _
theorem State.reg_setReg (off j : Nat) (v : Pay) : (s.setReg off v).reg j = if off = j then v else s.reg j := Tbl.get_set _ _ _ _ _
theorem State.byte_setByte (k j : Nat) (v : BitVec 8) : (s.setByte k v).byte j = if k = j then v else s.byte j := Tbl.get_set _ _ _ _ _
theorem State.tagAt_setTagAt (k j : Nat) (t : BitVec 8) : (s.setTagAt k t).tagAt j = if k / 8 = j / 8 then t else s.tagAt j :=
  Tbl.get_set _ _ _ _ _

theorem Ctx.sp_setSp (c : Ctx) (n m : Nat) (v : Pay) : (c.setSp n v).sp m = if n = m then v else c.sp m := Tbl.get_set _ _ _ _ _
@[simp] theorem Ctx.sp_setSp_self (c : Ctx) (n : Nat) (v : Pay) : (c.setSp n v).sp n = v := Tbl.get_set_self _ _ _ _
theorem Core.sp_setSp (c : Core) (n m : Nat) (v : Pay) : (c.setSp n v).sp m = if n = m then v else c.sp m := Tbl.get_set _ _ _ _ _
@[simp] theorem Core.sp_setSp_self (c : Core) (n : Nat) (v : Pay) : (c.setSp n v).sp n = v := Tbl.get_set_self _ _ _ _

/-- A register key reads what was written to it, unless it is G0, and every other key as before. -/
theorem Ctx.rdKey_wrKey (c : Ctx) (k j : Nat) (w : Word) :
    (c.wrKey k w).rdKey j = if j = 0 then Word.nil else if k = j then w else c.rdKey j := by
  unfold Ctx.wrKey Ctx.rdKey
  by_cases hj : j = 0
  · simp [hj]
  · by_cases hk : k = 0
    · subst hk
      have : ¬ (0 = j) := fun h => hj h.symm
      simp [hj, this]
    · simp [hj, hk, Tbl.get_set]

end Sys2Proof.Machine
end

