-- ==== Sys2Proof/Laws/Settle.lean ====
section
/-!
SUPPORT. When nothing waits to be carried out, the end of a command changes nothing but the queue.
-/
namespace Sys2Proof.Machine

theorem State.settle_of_calm (s : State) (h : s.calm = true) : s.settle = s := by
  simp only [State.calm, Bool.and_eq_true, List.isEmpty_iff, Bool.not_eq_true', List.all_eq_true] at h
  obtain ⟨⟨⟨ho, hi⟩, hr⟩, hw⟩ := h
  have h1 : settleN 4096 s = s := by
    show (match s.outbox with | [] => s | o :: os => settleN 4095 (({ s with outbox := os }).perform o)) = s
    rw [ho]
  have h2 : s.absorbAll = s := by
    have : s.clusters.filter (fun e => !e.2.intake.isEmpty) = [] := by
      apply List.filter_eq_nil_iff.mpr
      intro e he
      simp [hi e he]
    simp [State.absorbAll, this]
  have h3 : s.restartDue = s := by simp [State.restartDue, hr]
  have h4 : s.checkWake = s := by simp [State.checkWake, hw]
  rw [State.settle, h1, h2, h3, h4]

theorem fin_of_calm (s t : State) (h : t.calm = true) : fin s t = .next { t with pending := s.pending } := by
  rw [fin, State.settle_of_calm t h]

/-- Calm depends on four fields only. -/
theorem State.calm_congr {s t : State} (ho : t.outbox = s.outbox) (hc : t.clusters = s.clusters)
    (hl : t.ldg.restart = s.ldg.restart) (hw : t.sys.wakeReq = s.sys.wakeReq) : t.calm = s.calm := by
  simp only [State.calm, ho, hc, hl, hw]

end Sys2Proof.Machine
end

