-- ==== Sys2Proof/Laws/Issue.lean ====
section
/-!
SUPPORT. An instruction that is ready: its fetch changes nothing, so its body runs on the state as it is, and its
retirement changes its context and its twin's window only.
-/
namespace Sys2Proof.Machine

/-- The run an instruction's fetch starts from, and the one its body starts from. -/
abbrev fetchRun (s : State) (at_ : At) : Run := { s := s, x := ctxOf at_, at_ := at_ }
abbrev startRun (s : State) (at_ : At) : Run := { s := s, x := ctxOf at_, at_ := at_, fetched := true }

/-- What a ready instruction meets, one field per condition. -/
structure Ready (s : State) (at_ : At) (size : Nat) : Prop where
  calm : s.calm = true
  powered : s.powered (ctxOf at_) = true
  run : (s.ctx (ctxOf at_)).run = .run
  slot : (s.ctx (ctxOf at_)).slot = none
  grants : (s.ctx (ctxOf at_)).grants = []
  obs : (s.ctx (ctxOf at_)).obs = []
  inflight : (s.ctx (ctxOf at_)).inflight = false
  loads : (s.ctx (ctxOf at_)).loads = []
  stepping : (s.ctx (ctxOf at_)).stepping = false
  async : s.async (ctxOf at_) = none
  innermost : (s.ctx (ctxOf at_)).innermost = none
  met : at_.met = .clean
  fetch : at_.fetch = .clean
  regPar : at_.regPar = false
  fetches : s.fetches (ctxOf at_) (s.ctx (ctxOf at_)).pc = true
  aligned : ¬ (size = 8 ∧ bit (s.ctx (ctxOf at_)).pc 2 = true)
  pushPar : at_.pushPar = false
  vecBad : at_.vecBad = false

theorem State.ready_iff (s : State) (at_ : At) (size : Nat) (h : s.ready at_ size = true) : Ready s at_ size := by
  simp only [State.ready, Bool.and_eq_true, Option.isNone_iff_eq_none, List.isEmpty_iff, decide_eq_true_eq, Bool.not_eq_true',
    Bool.and_eq_false_iff, decide_eq_false_iff_not] at h
  obtain ⟨⟨⟨⟨⟨⟨⟨⟨⟨⟨⟨⟨⟨⟨⟨⟨⟨h1, h2⟩, h3⟩, h4⟩, h5⟩, ho⟩, hf⟩, h6⟩, h7⟩, h8⟩, h9⟩, h10⟩, h11⟩, h12⟩, h13⟩, h14⟩, hpp⟩, hvb⟩ := h
  refine ⟨h1, h2, h3, h4, h5, ho, hf, h6, h7, h8, h9, h10, h11, h12, h13, ?_, hpp, hvb⟩
  rintro ⟨h, hb⟩
  rcases h14 with h' | h'
  · exact h' h
  · rw [hb] at h'; exact absurd h' (by decide)

/-- The translation of a clean fetch, while the L2 is not swept for it. -/
theorem X.lookup_fetch (ring : Nat) (va : Pay) (r : Run) (tr : Tr) (h : r.s.translate r.x ring .fetch va = .ok tr)
    (hs : (r.s.l2Sweeping (clusterOfCore (r.s.coreOf r.x)) && tr.cache) = false) :
    X.lookup ring .fetch va .clean r = .ok tr r := by
  simp only [Bool.and_eq_false_iff] at hs
  unfold X.lookup
  rcases hs with hs | hs <;> simp [h, hs]

/-- A fetch that hits, or whose miss finds its register and can be sent, does not wait. -/
theorem X.fetchWait_free (s : State) (at_ : At) (k pa : Nat) (pc : Pay) (ho : (s.ctx (ctxOf at_)).obs = [])
    (hg : (s.ctx (ctxOf at_)).grants = [])
    (h : ((Tbl.look (s.core k).l1i (s.key k pa / 64)).isSome
      || (!s.loosened (ctxOf at_) pa && (s.missOf k pa).isNone && s.missRoom k true && s.canSend k pa .fetch 64)) = true) :
    X.fetchWait .clean k pa pc (fetchRun s at_) = .ok () (fetchRun s at_) := by
  have hn : X.grant (fetchRun s at_) = .ok none (fetchRun s at_) := by simp [X.grant, ho, hg]
  unfold X.fetchWait
  rw [X.bind_ok hn]
  simp only [Bool.or_eq_true, Bool.and_eq_true, Option.isNone_iff_eq_none, Bool.not_eq_true'] at h
  show (X.st >>= _) (fetchRun s at_) = _
  rw [X.bind_ok (show X.st (fetchRun s at_) = .ok s (fetchRun s at_) from rfl),
    X.bind_ok (show X.ctxNo (fetchRun s at_) = .ok (ctxOf at_) (fetchRun s at_) from rfl)]
  by_cases hh : (Tbl.look (s.core k).l1i (s.key k pa / 64)).isSome = true
  · simp [hh]
  · obtain ⟨⟨⟨h0, h1⟩, h2⟩, h3⟩ := h.resolve_left hh
    simp [hh, h0, h1, h2, h3]

/-- A clean fetch of a line that is not poisoned meets no error of the caches. -/
theorem X.fetchErrors_clean (s : State) (at_ : At) (k pa : Nat) (h : s.poisoned (s.key k pa / 64) = false) :
    X.fetchErrors .clean k pa (fetchRun s at_) = .ok () (fetchRun s at_) := by
  unfold X.fetchErrors
  rw [X.bind_ok (show X.st (fetchRun s at_) = .ok s (fetchRun s at_) from rfl)]
  simp [X.cacheErrors, h]

/-- The conditions on a fill under which it drives nothing out. -/
theorem X.evictRoom_easy (r : Run) (k line : Nat) (h : r.s.easyFill k line = true) : X.evictRoom k line r = .ok () r := by
  simp only [State.easyFill, Bool.and_eq_true, Option.isNone_iff_eq_none] at h
  unfold X.evictRoom
  rw [X.bind_ok (show X.st r = .ok r.s r from rfl)]
  simp only [h.1]; rfl

theorem X.freeVictims_easy (r : Run) (k line : Nat) (h : r.s.easyFill k line = true) : X.freeVictims k line r = .ok () r := by
  simp only [State.easyFill, Bool.and_eq_true, Option.isNone_iff_eq_none] at h
  obtain ⟨h1, h2⟩ := h
  unfold X.freeVictims
  rw [X.bind_ok (show X.st r = .ok r.s r from rfl)]
  simp only [h1, Bool.or_false]
  cases hv : r.s.l1dVictim k line with
  | none => rfl
  | some l =>
    rw [hv] at h2
    simp only [Bool.not_eq_true'] at h2
    simp only [h2]; rfl

/-- A cached fetch that leaves the caches as they are. -/
theorem X.fetchFill_same (r : Run) (k line : Nat)
    (h : (if (Tbl.look (r.s.core k).l1i line).isSome then decide (r.s.l1iFill k line = r.s)
      else r.s.easyFill k line && decide (((r.s.confirmLine line).cohRead (some (clusterOfCore k)) line).l1iFill k line = r.s)) = true) :
    X.fetchFill k line r = .ok () r := by
  unfold X.fetchFill
  rw [X.bind_ok (show X.st r = .ok r.s r from rfl)]
  by_cases hh : (Tbl.look (r.s.core k).l1i line).isSome = true
  · simp only [hh, if_true, decide_eq_true_eq] at h ⊢
    simp only [X.upd, h]
  · simp only [hh, Bool.false_eq_true, if_false, Bool.and_eq_true, decide_eq_true_eq] at h ⊢
    obtain ⟨h1, h2⟩ := h
    rw [X.bind_ok (X.evictRoom_easy r k line h1), X.bind_ok (X.freeVictims_easy r k line h1),
      X.bind_ok (show X.upd (fun s => ((s.confirmLine line).cohRead (some (clusterOfCore k)) line).l1iFill k line) r = .ok () r by
        simp only [X.upd, h2]),
      X.bind_ok (show X.st r = .ok r.s r from rfl)]
    simp only [hh, Bool.false_eq_true, if_false]; rfl

/-- The fetch of a ready instruction changes nothing. -/
theorem X.fetch_ready (s : State) (at_ : At) (hc : at_.fetch = .clean) (ho : (s.ctx (ctxOf at_)).obs = [])
    (hg : (s.ctx (ctxOf at_)).grants = []) (h : s.fetches (ctxOf at_) (s.ctx (ctxOf at_)).pc = true) :
    X.fetch (s.ctx (ctxOf at_)).pc (fetchRun s at_) = .ok () (fetchRun s at_) := by
  unfold State.fetches at h
  generalize ht : s.translate (ctxOf at_) (s.ctx (ctxOf at_)).ring .fetch (s.ctx (ctxOf at_)).pc = q at h
  cases q with
  | error e => simp at h
  | ok tr =>
    simp only [Bool.and_eq_true, Bool.not_eq_true'] at h
    obtain ⟨⟨⟨⟨h1, h2⟩, h3⟩, h4⟩, h5⟩ := h
    have e1 := X.lookup_fetch (s.ctx (ctxOf at_)).ring (s.ctx (ctxOf at_)).pc (fetchRun s at_) tr ht h3
    have e2 : X.fetchRegion (s.coreOf (ctxOf at_)) tr.pa (s.ctx (ctxOf at_)).pc (fetchRun s at_) = .ok () (fetchRun s at_) := by
      unfold X.fetchRegion
      rw [X.bind_ok (show X.st (fetchRun s at_) = .ok s (fetchRun s at_) from rfl)]
      show (match s.region tr.pa with
        | .unmapped => X.raise (Exc.insnBus 1 _)
        | .keep => if !keepSource (s.coreOf (ctxOf at_)) then X.raise (Exc.insnBus 5 _) else pure ()
        | .dev off => if 0x20 ≤ pageOf off ∧ !s.clOn (pageOf off - 0x20) then X.raise (Exc.insnBus 3 _) else pure ()
        | _ => pure () : X Unit) (fetchRun s at_) = _
      generalize s.region tr.pa = rg at h1
      cases rg
      case keep =>
        simp only at h1
        simp only [h1, Bool.not_true, Bool.false_eq_true, if_false]; rfl
      all_goals first | rfl | (simp at h1)
    have e3 := X.fetchWait_free s at_ (s.coreOf (ctxOf at_)) tr.pa (s.ctx (ctxOf at_)).pc ho hg h4
    have e4 := X.fetchErrors_clean s at_ (s.coreOf (ctxOf at_)) tr.pa h2
    have e5 : tr.cache = true → X.fetchFill (s.coreOf (ctxOf at_)) (s.key (s.coreOf (ctxOf at_)) tr.pa / 64) (fetchRun s at_)
        = .ok () (fetchRun s at_) := by
      intro hcache
      simp only [hcache, Bool.not_true, Bool.false_or] at h5
      exact X.fetchFill_same (fetchRun s at_) _ _ h5
    unfold X.fetch
    rw [X.bind_ok (show X.ctx (fetchRun s at_) = .ok (s.ctx (ctxOf at_)) (fetchRun s at_) from rfl),
      X.bind_ok (show X.core (fetchRun s at_) = .ok (s.coreOf (ctxOf at_)) (fetchRun s at_) from rfl),
      X.bind_ok (show (get : X Run) (fetchRun s at_) = .ok (fetchRun s at_) (fetchRun s at_) from rfl)]
    simp only [hc, reduceCtorEq, if_false]
    rw [X.bind_ok e1, X.bind_ok e2, X.bind_ok e3,
      X.bind_ok (show X.fetchRespond .clean tr.pa (s.ctx (ctxOf at_)).pc (fetchRun s at_) = .ok () (fetchRun s at_) from rfl),
      X.bind_ok (show X.st (fetchRun s at_) = .ok s (fetchRun s at_) from rfl)]
    have e6 : (do
          let s ← X.st
          if tr.cache && !s.loosened (← X.ctxNo) tr.pa then X.fetchFill (s.coreOf (ctxOf at_)) (s.key (s.coreOf (ctxOf at_)) tr.pa / 64)
          else pure () : X Unit)
        (fetchRun s at_) = .ok () (fetchRun s at_) := by
      rw [X.bind_ok (show X.st (fetchRun s at_) = .ok s (fetchRun s at_) from rfl),
        X.bind_ok (show X.ctxNo (fetchRun s at_) = .ok (ctxOf at_) (fetchRun s at_) from rfl)]
      by_cases hcache : tr.cache = true
      · by_cases hl : s.loosened (ctxOf at_) tr.pa = true
        · simp only [hl, Bool.not_true, Bool.and_false, Bool.false_eq_true, if_false]; rfl
        · simp only [hcache, hl, Bool.not_false, Bool.and_true, if_true]
          exact e5 hcache
      · simp only [hcache, Bool.false_and, Bool.false_eq_true, if_false]; rfl
    generalize s.region tr.pa = rg at h1
    cases rg
    all_goals first | exact (X.bind_ok e4 _).trans e6 | (simp at h1)

/-- What a ready instruction of `size` bytes does, in terms of what its body does on the state as it is. -/
theorem issue_ready {s : State} {at_ : At} {size : Nat} (h : Ready s at_ size) (long : Bool) (body : Pay → X Flow) :
    issue at_ size long body s =
      (match body (s.ctx (ctxOf at_)).pc (startRun s at_) with
      | .ok f r =>
        (match f with
        | .seq => r.s.retire (ctxOf at_) (slotsOf (s.ctx (ctxOf at_)).pc size) ((s.ctx (ctxOf at_)).pc + p64 size) none
        | .load d w => r.s.retire (ctxOf at_) (slotsOf (s.ctx (ctxOf at_)).pc size) ((s.ctx (ctxOf at_)).pc + p64 size)
            (some ⟨2, d, (s.ctx (ctxOf at_)).bank, w⟩)
        | .jump t => r.s.retireTo (ctxOf at_) t
        | .stay => r.s).settle
      | .error st r =>
        (match st with
        | .exc e side keep =>
          if s.pushWaits (ctxOf at_) then s.updCtx (ctxOf at_) (fun c => { c with run := .hold })
          else (side (if keep then r.s else s)).tagTrapEntry r (s.ctx (ctxOf at_)).pc e
        | .park p => r.s.updCtx (ctxOf at_) (fun c =>
            { c with run := parkedAs size p, obs := if p.within then r.seen.drop r.base else [],
                     inflight := r.fetched && p.within, slot := r.slotAt })
        | .mismatch sig => s.startRecovery (twinOf (ctxOf at_)) 1 0 ((r.s.twin (twinOf (ctxOf at_))).misr) sig).settle) := by
  have hf := X.fetch_ready s at_ h.fetch h.obs h.grants h.fetches
  have hpar := h.aligned
  unfold issue
  simp only [h.powered, h.run, h.slot, h.grants, h.async, h.inflight, Bool.not_true, Bool.false_eq_true, ne_eq, not_true_eq_false,
    or_self, if_false, ite_self, List.isEmpty_nil, h.regPar, hpar]
  rw [X.bind_ok (f := fun _ => _) (show (do pure (); X.fetch (s.ctx (ctxOf at_)).pc : X Unit) (fetchRun s at_) = .ok () (fetchRun s at_)
    from hf), X.bind_ok (show (modify (fun r => { r with fetched := true }) : X Unit) (fetchRun s at_) = .ok () (startRun s at_) from rfl)]
  all_goals (cases body (s.ctx (ctxOf at_)).pc (startRun s at_) <;> rfl)

end Sys2Proof.Machine
end

