-- ==== Sys2Proof/Laws/Retire.lean ====
section
/-!
SUPPORT. The retirement of a ready instruction: what it leaves of the machine.
-/
namespace Sys2Proof.Machine

/-- Only context x and its twin may differ. -/
structure Near (s : State) (x : Nat) (t : State) : Prop where
  rest : t = { s with ctxs := t.ctxs, twins := t.twins }
  others : ∀ y, y ≠ x → t.ctx y = s.ctx y
  twins : ∀ u, u ≠ twinOf x → t.twin u = s.twin u

theorem Near.refl (s : State) (x : Nat) : Near s x s := ⟨rfl, fun _ _ => rfl, fun _ _ => rfl⟩

theorem Near.trans {s t u : State} {x : Nat} (h : Near s x t) (g : Near t x u) : Near s x u :=
  ⟨by rw [g.rest, h.rest], fun y hy => (g.others y hy).trans (h.others y hy), fun y hy => (g.twins y hy).trans (h.twins y hy)⟩

theorem near_setCtx (s : State) (x : Nat) (c : Ctx) : Near s x (s.setCtx x c) :=
  ⟨rfl, fun y hy => by rw [State.ctx_setCtx, if_neg (fun h => hy h.symm)], fun _ _ => rfl⟩

theorem near_setTwin (s : State) (x : Nat) (w : Twin) : Near s x (s.setTwin (twinOf x) w) :=
  ⟨rfl, fun _ _ => rfl, fun y hy => by rw [State.twin_setTwin, if_neg (fun h => hy h.symm)]⟩

theorem Near.calm {s t : State} {x : Nat} (h : Near s x t) : t.calm = s.calm := by
  rw [h.rest]; rfl

theorem Near.settle {s t : State} {x : Nat} (h : Near s x t) (hc : s.calm = true) : t.settle = t :=
  State.settle_of_calm t (h.calm.trans hc)

theorem Ctx.stepEnd_of (c : Ctx) (h : c.stepping = false) : c.stepEnd = c := by simp [Ctx.stepEnd, h]

/-- The loop levels depend on the special registers only. -/
theorem Ctx.innermost_congr {c e : Ctx} (h : c.sr = e.sr) : c.innermost = e.innermost := by
  have hsp (n : Nat) : c.sp n = e.sp n := by rw [Ctx.sp, Ctx.sp, h]
  simp only [Ctx.innermost, hsp]

/-- The context after an instruction that left it as c, once it retires and goes on at `next`. -/
def Ctx.retired (c : Ctx) (next : Pay) : Ctx := { c.setPc next with fresh := false }

/-- A context at which nothing is begun, pending or to end. -/
structure Ctx.Plain (c : Ctx) : Prop where
  run : c.run = .run
  slot : c.slot = none
  grants : c.grants = []
  obs : c.obs = []
  inflight : c.inflight = false
  loads : c.loads = []
  stepping : c.stepping = false

theorem State.landLoads_plain (s : State) (x : Nat) (h : (s.ctx x).loads = []) :
    Near s x (s.landLoads x) ∧ (s.landLoads x).ctx x = s.ctx x ∧ ∀ u, (s.landLoads x).twin u = s.twin u := by
  have e : s.landLoads x = s.setCtx x { s.ctx x with loads := [] } := by
    simp only [State.landLoads, h, List.map_nil, List.filter_nil, List.foldl_nil, State.updCtx_eq]
  have e2 : ({ s.ctx x with loads := [] } : Ctx) = s.ctx x := by rw [← h]
  rw [e, e2]
  exact ⟨near_setCtx s x _, State.ctx_setCtx_self _ _ _, fun _ => rfl⟩

theorem State.retireMark_plain (s : State) (x : Nat) (h : (s.ctx x).Plain) :
    Near s x (s.retireMark x) ∧ (s.retireMark x).ctx x = { s.ctx x with fresh := false } ∧
      (s.retireMark x).twin (twinOf x) = { s.twin (twinOf x) with groups := ((s.retireMark x).twin (twinOf x)).groups } := by
  have e : ({ (s.ctx x).stepEnd with fresh := false, grants := [], obs := [], inflight := false, slot := none, run := .run } : Ctx)
      = { s.ctx x with fresh := false } := by
    rw [Ctx.stepEnd_of _ h.stepping, ← h.grants, ← h.obs, ← h.inflight, ← h.slot, ← h.run]
  unfold State.retireMark
  rw [State.updCtx_eq, e]
  simp only
  split
  · refine ⟨(near_setCtx s x _).trans (near_setTwin _ x _), ?_, ?_⟩
    · rw [State.updTwin_eq, State.ctx_setTwin, State.ctx_setCtx_self]
    · rw [State.updTwin_eq, State.twin_setTwin_self]; rfl
  · exact ⟨near_setCtx s x _, State.ctx_setCtx_self _ _ _, rfl⟩

/-- Retirement in sequence. -/
theorem State.retire_plain (s : State) (x : Nat) (slots : List Pay) (next : Pay) (h : (s.ctx x).Plain)
    (hi : (s.ctx x).innermost = none) :
    Near s x (s.retire x slots next none) ∧ (s.retire x slots next none).ctx x = (s.ctx x).retired next ∧
      (s.retire x slots next none).twin (twinOf x) =
        { s.twin (twinOf x) with groups := ((s.retire x slots next none).twin (twinOf x)).groups } := by
  obtain ⟨t1, c1, w1⟩ := State.landLoads_plain s x h.loads
  have h' : ((s.landLoads x).ctx x).Plain := c1 ▸ h
  obtain ⟨t2, c2, w2⟩ := State.retireMark_plain (s.landLoads x) x h'
  rw [c1] at c2
  have hi2 : ({ s.ctx x with fresh := false } : Ctx).innermost = none := by rw [← hi]; exact Ctx.innermost_congr rfl
  have e : s.retire x slots next none =
      ((s.landLoads x).retireMark x).setCtx x (({ s.ctx x with fresh := false } : Ctx).setPc next) := by
    simp only [State.retire, State.updCtx_eq, c2, Ctx.endAction, hi2]
  rw [e]
  refine ⟨(t1.trans t2).trans (near_setCtx _ x _), State.ctx_setCtx_self _ _ _, ?_⟩
  rw [State.twin_setCtx, w2, w1]

/-- Retirement of a transfer of control. -/
theorem State.retireTo_plain (s : State) (x : Nat) (target : Pay) (h : (s.ctx x).Plain) :
    Near s x (s.retireTo x target) ∧ (s.retireTo x target).ctx x = (s.ctx x).retired target ∧
      (s.retireTo x target).twin (twinOf x) =
        { s.twin (twinOf x) with groups := ((s.retireTo x target).twin (twinOf x)).groups } := by
  obtain ⟨t1, c1, w1⟩ := State.landLoads_plain s x h.loads
  have h' : ((s.landLoads x).ctx x).Plain := c1 ▸ h
  obtain ⟨t2, c2, w2⟩ := State.retireMark_plain (s.landLoads x) x h'
  rw [c1] at c2
  have e : s.retireTo x target =
      ((s.landLoads x).retireMark x).setCtx x (({ s.ctx x with fresh := false } : Ctx).setPc target) := by
    simp only [State.retireTo, State.updCtx_eq, c2]
  rw [e]
  refine ⟨(t1.trans t2).trans (near_setCtx _ x _), State.ctx_setCtx_self _ _ _, ?_⟩
  rw [State.twin_setCtx, w2, w1]

/-- A register write: the context's register, and in tight mode the signature. -/
theorem State.wrReg_plain (s : State) (x : Nat) (r : BitVec 5) (w : Word) :
    Near s x (s.wrReg x r w) ∧ (s.wrReg x r w).ctx x = (s.ctx x).wr r w ∧
      (s.wrReg x r w).twin (twinOf x) = { s.twin (twinOf x) with misr := ((s.wrReg x r w).twin (twinOf x)).misr } := by
  unfold State.wrReg
  simp only [State.updCtx_eq, State.sign, State.updTwin_eq]
  split
  · refine ⟨(near_setCtx s x _).trans (near_setTwin _ x _), ?_, ?_⟩
    · rw [State.ctx_setTwin, State.ctx_setCtx_self]; rfl
    · rw [State.twin_setTwin_self]; rfl
  · exact ⟨near_setCtx s x _, State.ctx_setCtx_self _ _ _, rfl⟩

theorem Ready.plain {s : State} {at_ : At} {size : Nat} (h : Ready s at_ size) : (s.ctx (ctxOf at_)).Plain :=
  ⟨h.run, h.slot, h.grants, h.obs, h.inflight, h.loads, h.stepping⟩

theorem Ctx.wr_same (c : Ctx) (r : BitVec 5) (w : Word) : c.wr r w = { c with regs := (c.wr r w).regs } := by
  unfold Ctx.wr Ctx.wrKey
  split <;> rfl

/-- A ready instruction that writes one register: its retirement gives what WroteReg says, and nothing is left over. -/
theorem wroteReg_retire {s : State} {at_ : At} {size : Nat} (h : Ready s at_ size) (d : BitVec 5) (w : Word) (slots : List Pay) :
    WroteReg s (ctxOf at_) size d w
      ((s.wrReg (ctxOf at_) d w).retire (ctxOf at_) slots ((s.ctx (ctxOf at_)).pc + p64 size) none) := by
  obtain ⟨t1, c1, w1⟩ := State.wrReg_plain s (ctxOf at_) d w
  have hsame := Ctx.wr_same (s.ctx (ctxOf at_)) d w
  have hp : ((s.wrReg (ctxOf at_) d w).ctx (ctxOf at_)).Plain := by
    rw [c1, hsame]; exact ⟨h.run, h.slot, h.grants, h.obs, h.inflight, h.loads, h.stepping⟩
  have hi : ((s.wrReg (ctxOf at_) d w).ctx (ctxOf at_)).innermost = none := by
    rw [c1, ← h.innermost, hsame]; exact Ctx.innermost_congr rfl
  obtain ⟨t2, c2, w2⟩ := State.retire_plain (s.wrReg (ctxOf at_) d w) (ctxOf at_) slots ((s.ctx (ctxOf at_)).pc + p64 size) hp hi
  generalize (s.wrReg (ctxOf at_) d w).retire (ctxOf at_) slots ((s.ctx (ctxOf at_)).pc + p64 size) none = t at *
  have hb : ((s.ctx (ctxOf at_)).wr d w).sr = (s.ctx (ctxOf at_)).sr := by rw [hsame]
  have hk (k : Nat) : (t.ctx (ctxOf at_)).rdKey k = ((s.ctx (ctxOf at_)).wr d w).rdKey k := by rw [c2, c1]; rfl
  have hsp (n : Nat) : (t.ctx (ctxOf at_)).sp n = if Sr.pc = n then (s.ctx (ctxOf at_)).pc + p64 size else (s.ctx (ctxOf at_)).sp n := by
    rw [c2, c1]
    show ((((s.ctx (ctxOf at_)).wr d w).setPc _).sp n) = _
    rw [Ctx.setPc, Ctx.sp_setSp]
    simp only [Ctx.sp, hb]
  have hbank : (t.ctx (ctxOf at_)).bank = (s.ctx (ctxOf at_)).bank := by
    simp only [Ctx.bank, Ctx.tb, Ctx.home, hsp]
    rfl
  refine ⟨⟨(t1.trans t2).rest, (t1.trans t2).others, ?_, (t1.trans t2).twins, ?_⟩, ?_, ?_, ?_, ?_, ?_⟩
  · rw [c2, c1, hsame]; rfl
  · rw [w2, w1]
  · intro hd
    show (t.ctx (ctxOf at_)).rdKey (regKey (t.ctx (ctxOf at_)).bank d) = w
    rw [hbank, hk]
    unfold Ctx.wr
    have hne : regKey (s.ctx (ctxOf at_)).bank d ≠ 0 := by
      unfold regKey
      split
      · intro h0; exact hd (BitVec.eq_of_toNat_eq (by simpa using h0))
      · omega
    rw [Ctx.rdKey_wrKey, if_neg hne, if_pos rfl]
  · rfl
  · intro k hkne
    rw [hk]
    unfold Ctx.wr
    rw [Ctx.rdKey_wrKey]
    split
    · next h0 => rw [h0]; rfl
    · rw [if_neg (fun h => hkne h.symm)]
  · rw [Ctx.pc, hsp, if_pos rfl]
  · intro n hn
    rw [hsp, if_neg (fun h => hn h.symm)]

theorem Near.fin {s t : State} {x : Nat} (h : Near s x t) (hc : s.calm = true) : fin s t.settle = .next t := by
  have hs := h.settle hc
  rw [Sys2Proof.Machine.fin, hs, hs]
  have hp : t.pending = s.pending := by rw [h.rest]
  rw [← hp]

theorem OnlyCtx.near {s t : State} {x : Nat} (h : OnlyCtx s x t) : Near s x t := ⟨h.rest, h.others, h.twins⟩

/-- A ready instruction whose body writes one register and goes on: the whole of what its row does. -/
theorem issue_wrote {s : State} {at_ : At} {size : Nat} (h : s.ready at_ size = true) (long : Bool) (body : Pay → X Flow)
    (d : BitVec 5) (w : Word)
    (hb : body (s.ctx (ctxOf at_)).pc (startRun s at_) = .ok .seq { startRun s at_ with s := s.wrReg (ctxOf at_) d w }) :
    ∃ t, fin s (issue at_ size long body s) = .next t ∧ WroteReg s (ctxOf at_) size d w t := by
  have hr := State.ready_iff s at_ size h
  have hw := wroteReg_retire hr d w (slotsOf (s.ctx (ctxOf at_)).pc size)
  refine ⟨_, ?_, hw⟩
  rw [issue_ready hr, hb]
  exact hw.toOnlyCtx.near.fin hr.calm

/-- A ready instruction whose body transfers control: the whole of what its row does. -/
theorem issue_went {s : State} {at_ : At} {size : Nat} (h : s.ready at_ size = true) (long : Bool) (body : Pay → X Flow)
    (pc : Pay) (hb : body (s.ctx (ctxOf at_)).pc (startRun s at_) = .ok (.jump pc) (startRun s at_)) :
    ∃ t, fin s (issue at_ size long body s) = .next t ∧ WentTo s (ctxOf at_) pc t := by
  have hr := State.ready_iff s at_ size h
  obtain ⟨t1, c1, w1⟩ := State.retireTo_plain s (ctxOf at_) pc hr.plain
  have hsp (n : Nat) : ((s.retireTo (ctxOf at_) pc).ctx (ctxOf at_)).sp n = if Sr.pc = n then pc else (s.ctx (ctxOf at_)).sp n := by
    rw [c1]
    show (((s.ctx (ctxOf at_)).setPc pc).sp n) = _
    rw [Ctx.setPc, Ctx.sp_setSp]
  refine ⟨s.retireTo (ctxOf at_) pc, ?_, ⟨⟨t1.rest, t1.others, ?_, t1.twins, by rw [w1]⟩, ?_, ?_, ?_⟩⟩
  · rw [issue_ready hr, hb]
    exact t1.fin hr.calm
  · rw [c1]; rfl
  · intro k; rw [c1]; rfl
  · rw [Ctx.pc, hsp, if_pos rfl]
  · intro n hn; rw [hsp, if_neg (fun h => hn h.symm)]

/-- A ready instruction whose body changes nothing and goes on in sequence. -/
theorem issue_passed {s : State} {at_ : At} {size : Nat} (h : s.ready at_ size = true) (long : Bool) (body : Pay → X Flow)
    (hb : body (s.ctx (ctxOf at_)).pc (startRun s at_) = .ok .seq (startRun s at_)) :
    ∃ t, fin s (issue at_ size long body s) = .next t ∧ WentTo s (ctxOf at_) ((s.ctx (ctxOf at_)).pc + p64 size) t := by
  have hr := State.ready_iff s at_ size h
  obtain ⟨t1, c1, w1⟩ := State.retire_plain s (ctxOf at_) (slotsOf (s.ctx (ctxOf at_)).pc size)
    ((s.ctx (ctxOf at_)).pc + p64 size) hr.plain hr.innermost
  have hsp (n : Nat) : ((s.retire (ctxOf at_) (slotsOf (s.ctx (ctxOf at_)).pc size) ((s.ctx (ctxOf at_)).pc + p64 size) none).ctx
      (ctxOf at_)).sp n = if Sr.pc = n then (s.ctx (ctxOf at_)).pc + p64 size else (s.ctx (ctxOf at_)).sp n := by
    rw [c1]
    show (((s.ctx (ctxOf at_)).setPc _).sp n) = _
    rw [Ctx.setPc, Ctx.sp_setSp]
  refine ⟨s.retire (ctxOf at_) (slotsOf (s.ctx (ctxOf at_)).pc size) ((s.ctx (ctxOf at_)).pc + p64 size) none, ?_,
    ⟨⟨t1.rest, t1.others, ?_, t1.twins, by rw [w1]⟩, ?_, ?_, ?_⟩⟩
  · rw [issue_ready hr, hb]
    exact t1.fin hr.calm
  · rw [c1]; rfl
  · intro k; rw [c1]; rfl
  · rw [Ctx.pc, hsp, if_pos rfl]
  · intro n hn; rw [hsp, if_neg (fun h => hn h.symm)]

end Sys2Proof.Machine
end

