-- ==== Sys2Proof/Laws/Arith.lean ====
section
/-!
SUPPORT. What the operand checks and the arithmetic of the register instructions answer on operands they accept.
-/
namespace Sys2Proof.Machine

theorem checks_ok (m : Meta) (at_ : At) (s : State) (hb : m.breaker = false) (hr : ((s.ctx (ctxOf at_)).ring ≤ m.ringMax)) :
    X.decodeChecks m true (startRun s at_) = .ok () (startRun s at_) := by
  unfold X.decodeChecks
  simp [bind, EStateM.bind, X.ctx_run, hb, Nat.not_lt.mpr hr]
theorem ring_le (c : Ctx) : c.ring ≤ 3 := by
  unfold Ctx.ring fld nfld; omega
theorem check2_ok (op a b oa ob) (r : Run) (h1 : oa a.tag = true) (h2 : ob b.tag = true) : X.check2 op a b oa ob r = .ok () r := by
  unfold X.check2 tagCheck; simp [h1, h2]
theorem check1_ok (op a oa) (r : Run) (h1 : oa a.tag = true) : X.check1 op a oa r = .ok () r := by
  unfold X.check1 tagCheck; simp [h1]
theorem rowR_two {s : State} {at_ : At} {f : RF} {maj min : Nat} {m : Meta} {g : Word → Word → X Word} {w : Word}
   (hm : rMeta maj min = some m) (h : s.ready at_ 4 = true) (hrsv : m.rsvR f = true) (hb : m.breaker = false) (hmax : m.ringMax = 3)
   (hg : g (s.gr (ctxOf at_) f.a) (s.gr (ctxOf at_) f.b) (startRun s at_) = .ok w (startRun s at_)) :
   ∃ t, fin s (s.rowR at_ f maj min false (fun _ => X.two f.d f.a f.b g)) = .next t ∧ WroteReg s (ctxOf at_) 4 f.d w t := by
  unfold State.rowR
  rw [hm]
  simp only [Option.getD_some]
  apply issue_wrote h false
  rw [hrsv, X.bind_ok (checks_ok m at_ s hb (hmax ▸ ring_le _))]
  exact X.two_run _ hg
theorem arith_ok {op fi ff a b w} {r : Run} (h : numTwo (fun x y => some (fi x y)) ff a b = some w) : X.arith op fi ff a b r = .ok w r := by
  unfold numTwo at h
  split at h
  · cases h
  · next hn =>
    simp only [Bool.not_eq_true', Bool.not_eq_false, Bool.and_eq_true] at hn
    unfold X.arith
    rw [X.bind_ok (check2_ok _ _ _ _ _ r hn.1 hn.2)]
    split at h
    · next hf =>
      rw [if_pos hf]
      simp only [Option.bind_some] at h
      unfold X.fixResult
      split at h
      · cases h; next hi => rw [if_pos hi]; rfl
      · cases h
    · next hf => rw [if_neg hf]; cases h; rfl
theorem div_ok {a b w} {r : Run} (h : numTwo fixDiv floDiv a b = some w) : X.div 3 a b r = .ok w r := by
  unfold numTwo at h
  split at h
  · cases h
  · next hn =>
    simp only [Bool.not_eq_true', Bool.not_eq_false, Bool.and_eq_true] at hn
    unfold X.div
    rw [X.bind_ok (check2_ok _ _ _ _ _ r hn.1 hn.2)]
    split at h
    · next hf =>
      rw [if_pos hf]
      unfold fixDiv at h
      split at h
      · cases h
      · next hz =>
        simp only [Option.bind_some] at h
        have : ¬ b.pay = 0 := by intro hb; apply hz; rw [hb]; rfl
        rw [if_neg this]
        unfold X.fixResult
        split at h
        · cases h; next hi => rw [if_pos hi]; rfl
        · cases h
    · next hf => rw [if_neg hf]; cases h; rfl
theorem compare_ok {op a b} {r : Run} (h : isNum a.tag = true ∧ isNum b.tag = true) : X.compare op a b r = .ok (cmpNum (numOf a) (numOf b)) r := by
  unfold X.compare
  rw [X.bind_ok (check2_ok _ _ _ _ _ r h.1 h.2)]; rfl
theorem shift_ok {op k f a b w} {r : Run} (h : shiftTwo f a b = some w) (hk : ∀ n p, shiftPay k n p = f p n) : X.shift op k a b r = .ok w r := by
  unfold shiftTwo at h
  split at h
  · next hn =>
    rw [Bool.and_eq_true] at hn
    cases h
    unfold X.shift
    rw [X.bind_ok (check2_ok _ _ _ _ _ r hn.1 hn.2), hk]; rfl
  · cases h
theorem rtag_ok {a b w} {r : Run} (h : (if b.tag = Tag.fix ∧ b.pay.toNat ≤ 0xFF then newTag (r.s.ctx r.x).ring a (BitVec.ofNat 8 b.pay.toNat) else none) = some w) : X.rtag a b r = .ok w r := by
  split at h
  · next hn =>
    unfold X.rtag
    rw [X.bind_ok (check2_ok _ _ _ _ _ r rfl (by simp [hn.1]))]
    rw [if_neg (by omega)]
    unfold X.retag
    simp only [X.bind_run, X.ring_run]
    unfold newTag at h
    split at h
    · cases h
    · next h1 =>
      cases h
      simp only [not_or, not_and] at h1
      rw [if_neg h1.1, if_neg (by intro hc; exact h1.2.1 hc.1 hc.2), if_neg (by intro hc; exact h1.2.2 hc.1 hc.2)]
      rfl
  · cases h
end Sys2Proof.Machine
end

