-- ==== Sys2Proof/Laws/Bits.lean ====
section
/-!
SUPPORT. Laws of bit fields: what a bit and a field of a value read after a field of it is replaced.
-/
namespace Sys2Proof.Machine

theorem bit_p64 (m n : Nat) : bit (p64 m) n = (decide (n < 64) && m.testBit n) := by
  simp [bit, p64, BitVec.getLsbD_ofNat]

theorem bit_maskFld (hi lo n : Nat) (h : hi < 64) (hl : lo ≤ hi) : bit (maskFld hi lo) n = decide (lo ≤ n ∧ n ≤ hi) := by
  rw [maskFld, bit_p64, Nat.testBit_shiftLeft, Nat.testBit_two_pow_sub_one]
  rw [Bool.eq_iff_iff]
  simp only [Bool.and_eq_true, decide_eq_true_eq, ge_iff_le]
  omega

/-- A bit of a value with a field replaced. -/
theorem bit_setFld (x : Pay) (hi lo v n : Nat) (h : hi < 64) (hl : lo ≤ hi) :
    bit (setFld x hi lo v) n = if lo ≤ n ∧ n ≤ hi then v.testBit (n - lo) else bit x n := by
  have hm := bit_maskFld hi lo n h hl
  unfold bit at hm ⊢
  unfold setFld
  rw [BitVec.getLsbD_or, BitVec.getLsbD_and, BitVec.getLsbD_not, hm, p64, BitVec.getLsbD_ofNat, Nat.testBit_shiftLeft,
    Nat.testBit_mod_two_pow]
  by_cases hn : lo ≤ n ∧ n ≤ hi
  · have h1 : n < 64 := by omega
    have h2 : n - lo < hi + 1 - lo := by omega
    simp [hn, h1, h2]
  · by_cases h1 : n < 64
    · by_cases h2 : lo ≤ n
      · have h3 : ¬ n ≤ hi := fun h => hn ⟨h2, h⟩
        have h4 : ¬ (n - lo < hi + 1 - lo) := by omega
        simp [h1, h3, h4]
      · simp [h1, h2]
    · have h3 : ¬ n ≤ hi := by omega
      have h4 : x.getLsbD n = false := BitVec.getLsbD_of_ge x n (by omega)
      simp [h1, h3, h4]

/-- A bit of a field. -/
theorem testBit_fld (x : Pay) (hi lo i : Nat) : (fld x hi lo).testBit i = (decide (i < hi + 1 - lo) && bit x (lo + i)) := by
  unfold fld nfld bit
  rw [Nat.testBit_mod_two_pow, Nat.testBit_shiftRight, BitVec.testBit_toNat]

theorem fld_lt (x : Pay) (hi lo : Nat) : fld x hi lo < 2 ^ (hi + 1 - lo) := Nat.mod_lt _ (Nat.two_pow_pos _)

/-- The field just replaced. -/
theorem fld_setFld_self (x : Pay) (hi lo v : Nat) (h : hi < 64) (hl : lo ≤ hi) :
    fld (setFld x hi lo v) hi lo = v % 2 ^ (hi + 1 - lo) := by
  apply Nat.eq_of_testBit_eq
  intro i
  rw [testBit_fld, bit_setFld _ _ _ _ _ h hl, Nat.testBit_mod_two_pow]
  by_cases hi' : i < hi + 1 - lo
  · have : lo ≤ lo + i ∧ lo + i ≤ hi := by omega
    simp [hi', this]
  · simp [hi']

/-- A field apart from the one replaced. -/
theorem fld_setFld_disjoint (x : Pay) (hi lo v a b : Nat) (h : hi < 64) (hl : lo ≤ hi) (hd : a < lo ∨ hi < b) :
    fld (setFld x hi lo v) a b = fld x a b := by
  apply Nat.eq_of_testBit_eq
  intro i
  rw [testBit_fld, testBit_fld, bit_setFld _ _ _ _ _ h hl]
  by_cases hi' : i < a + 1 - b
  · have : ¬ (lo ≤ b + i ∧ b + i ≤ hi) := by omega
    simp [hi', this]
  · simp [hi']

/-- A bit just set. -/
theorem bit_setBit_self (x : Pay) (n : Nat) (b : Bool) (h : n < 64) : bit (setBit x n b) n = b := by
  rw [setBit, bit_setFld _ _ _ _ _ h (Nat.le_refl n)]
  cases b <;> simp

/-- Another bit than the one set. -/
theorem bit_setBit_ne (x : Pay) (n m : Nat) (b : Bool) (h : n < 64) (hn : n ≠ m) : bit (setBit x n b) m = bit x m := by
  rw [setBit, bit_setFld _ _ _ _ _ h (Nat.le_refl n)]
  have : ¬ (n ≤ m ∧ m ≤ n) := by omega
  simp [this]

/-- A field that does not hold the bit set. -/
theorem fld_setBit_disjoint (x : Pay) (n : Nat) (b : Bool) (hi lo : Nat) (h : n < 64) (hd : hi < n ∨ n < lo) :
    fld (setBit x n b) hi lo = fld x hi lo :=
  fld_setFld_disjoint x n n b.toNat hi lo h (Nat.le_refl n) hd

/-- A bit outside the field replaced. -/
theorem bit_setFld_disjoint (x : Pay) (hi lo v n : Nat) (h : hi < 64) (hl : lo ≤ hi) (hd : n < lo ∨ hi < n) :
    bit (setFld x hi lo v) n = bit x n := by
  rw [bit_setFld _ _ _ _ _ h hl]
  have : ¬ (lo ≤ n ∧ n ≤ hi) := by omega
  simp [this]

end Sys2Proof.Machine
end

