-- ==== Sys2Proof/Laws/Memory.lean ====
section
/-!
SUPPORT. Every operation that writes memory keeps its canonical form and that of the tags: bytes and tags written one by
one, words, runs of words and bytes, the undo of a window, the return of a line's words, copies and removals of ranges.
-/
namespace Sys2Proof.Machine

variable {α : Type}

theorem Tbl.rising_filter (p : Nat × α → Bool) {t : Tbl α} {a : Nat} (h : Tbl.rising a t = true) :
    Tbl.rising a (t.filter p) = true := by
  induction t generalizing a with
  | nil => rfl
  | cons e t ih =>
    obtain ⟨i, v⟩ := e
    simp only [Tbl.rising, Bool.and_eq_true, decide_eq_true_eq] at h
    rw [List.filter_cons]
    split
    · simp only [Tbl.rising, Bool.and_eq_true, decide_eq_true_eq]
      exact ⟨h.1, ih h.2⟩
    · exact Tbl.rising_mono (by omega) (ih h.2)

/-- Removing entries keeps the canonical form. -/
theorem Tbl.wf_filter [DecidableEq α] (d : Nat → α) (p : Nat × α → Bool) {t : Tbl α} (h : Tbl.wf d t = true) :
    Tbl.wf d (t.filter p) = true := by
  simp only [Tbl.wf, Bool.and_eq_true, List.all_eq_true] at h ⊢
  exact ⟨Tbl.rising_filter p h.1, fun e he => h.2 e (List.mem_filter.mp he).1⟩

/-- A key listed with a value it would not read as unlisted keeps the canonical form. -/
theorem Tbl.wf_insert [DecidableEq α] (d : Nat → α) {t : Tbl α} (k : Nat) (v : α) (hv : v ≠ d k) (h : Tbl.wf d t = true) :
    Tbl.wf d (Tbl.insert t k v) = true := by
  have := Tbl.wf_set d k v h
  rwa [Tbl.set, if_neg hv] at this

/-- A range copied keeps the canonical form, where every unlisted key reads the same. -/
theorem wf_copyRange [DecidableEq α] (v0 : α) {t : Tbl α} (src dst len : Nat) (h : Tbl.wf (fun _ => v0) t = true) :
    Tbl.wf (fun _ => v0) (copyRange t src dst len) = true := by
  unfold copyRange
  have hv : ∀ e ∈ t.filter (fun e => src ≤ e.1 && e.1 < src + len), e.2 ≠ v0 := by
    intro e he
    simp only [Tbl.wf, Bool.and_eq_true, List.all_eq_true, decide_eq_true_eq] at h
    exact h.2 e (List.mem_filter.mp he).1
  revert hv
  generalize t.filter (fun e => src ≤ e.1 && e.1 < src + len) = l
  intro hv
  have hu := Tbl.wf_filter (fun _ => v0) (fun e => !(dst ≤ e.1 ∧ e.1 < dst + len)) h
  revert hu
  generalize t.filter (fun e => !(decide (dst ≤ e.1 ∧ e.1 < dst + len))) = u
  intro hu
  induction l generalizing u with
  | nil => exact hu
  | cons e l ih =>
    exact ih (fun e' he' => hv e' (List.mem_cons_of_mem _ he')) _
      (Tbl.wf_insert (fun _ => v0) _ _ (hv e List.mem_cons_self) hu)

namespace State

theorem memForm_reset : State.reset.memForm := ⟨rfl, rfl⟩

/-- The form depends on memory and tags only. -/
theorem memForm_congr {s t : State} (hm : t.mem = s.mem) (ht : t.tags = s.tags) (h : s.memForm) : t.memForm := by
  unfold State.memForm; rw [hm, ht]; exact h

theorem memForm_setByte {s : State} (k : Nat) (v : BitVec 8) (h : s.memForm) : (s.setByte k v).memForm :=
  ⟨Tbl.wf_set _ k v h.1, h.2⟩

theorem memForm_setTagAt {s : State} (k : Nat) (v : BitVec 8) (h : s.memForm) : (s.setTagAt k v).memForm :=
  ⟨h.1, Tbl.wf_set _ (k / 8) v h.2⟩

theorem memForm_forN (f : Nat → State → State) (hf : ∀ i s, s.memForm → (f i s).memForm) (n k : Nat) {s : State}
    (h : s.memForm) : (forN n k f s).memForm := by
  induction n generalizing k s with
  | zero => exact h
  | succ n ih => exact ih (k + 1) (hf k s h)

theorem memForm_foldl {β : Type} (f : State → β → State) (hf : ∀ s b, s.memForm → (f s b).memForm) (l : List β) {s : State}
    (h : s.memForm) : (l.foldl f s).memForm := by
  induction l generalizing s with
  | nil => exact h
  | cons b l ih => exact ih (hf s b h)

theorem memForm_setPay {s : State} (k : Nat) (p : Pay) (h : s.memForm) : (s.setPay k p).memForm := by
  rw [State.setPay]
  apply memForm_forN _ _ _ _ h
  intro b s hs
  exact memForm_setByte (k + b) (byteOf p b) hs

theorem memForm_setWord {s : State} (k : Nat) (w : Word) (h : s.memForm) : (s.setWord k w).memForm :=
  memForm_setTagAt _ w.tag (memForm_setPay _ w.pay h)

theorem memForm_setWordsFrom (ws : List Word) (k : Nat) {s : State} (h : s.memForm) : (setWordsFrom ws k s).memForm := by
  induction ws generalizing k s with
  | nil => exact h
  | cons w ws ih =>
    rw [setWordsFrom]
    exact ih (k + 8) (memForm_setWord k w h)

theorem memForm_setWords {s : State} (k : Nat) (ws : List Word) (h : s.memForm) : (s.setWords k ws).memForm :=
  memForm_setWordsFrom ws k h

theorem memForm_setBytesRaw {s : State} (k : Nat) (bs : List (BitVec 8)) (h : s.memForm) : (s.setBytesRaw k bs).memForm := by
  induction bs generalizing k s with
  | nil => exact h
  | cons b bs ih =>
    simp only [State.setBytesRaw]
    exact ih (k + 1) (memForm_setTagAt k Tag.raw (memForm_setByte k b h))

theorem memForm_discard {s : State} (line : Nat) (h : s.memForm) : (s.discard line).memForm := by
  unfold State.discard
  split
  · next ws _ => exact memForm_congr rfl rfl (memForm_setWords (line * 64) ws h)
  · exact h

theorem memForm_undoAll (us : List (Nat × Word)) {s : State} (h : s.memForm) : (undoAll us s).memForm := by
  induction us generalizing s with
  | nil => exact h
  | cons e us ih =>
    simp only [undoAll]
    exact ih (memForm_setWord e.1 e.2 h)

theorem memForm_copyMem {s : State} (src dst len : Nat) (h : s.memForm) : (s.copyMem src dst len).memForm :=
  ⟨wf_copyRange _ src dst len h.1, wf_copyRange _ (src / 8) (dst / 8) (len / 8) h.2⟩

theorem memForm_copyKeep {s : State} (fromB : Bool) (h : s.memForm) : (s.copyKeep fromB).memForm :=
  ⟨wf_copyRange _ _ _ _ h.1, wf_copyRange _ _ _ _ h.2⟩

/-- Bytes and tags removed, as a device reset and the clearing of a region's side area do. -/
theorem memForm_filter {s : State} (p : Nat × BitVec 8 → Bool) (q : Nat × BitVec 8 → Bool) (h : s.memForm) :
    ({ s with mem := s.mem.filter p, tags := s.tags.filter q } : State).memForm :=
  ⟨Tbl.wf_filter _ p h.1, Tbl.wf_filter _ q h.2⟩

end State

end Sys2Proof.Machine
end

