-- ==== Sys2Proof/Tests/Slice0.lean ====
section
/-!
SUPPORT. Tests. For each obligation, small states and operands that meet its hypotheses: a witness applies the obligation there and gets
that the command completes. Then an ill-formed command for each check of WellFormed, and results of single steps by hand from the rules.
-/
namespace Sys2Proof.Tests
open Sys2Proof.Machine

/-! The tests check one after the other, which keeps their memory small. -/
set_option Elab.async false

/-- The command completes with a next state. -/
def Completes (c : Instr) (s : State) : Prop := ∃ t, exec c s = .next t

/-- A clause of a statement says that the command completes. -/
theorem Completes.of {c : Instr} {s : State} {P : State → Prop} (h : ∃ t, exec c s = .next t ∧ P t) : Completes c s :=
  h.imp fun _ p => p.1

/-! ### A small machine

Context 0 at ring 0 with translation off, at the Boot ROM, in a twin that runs in split mode. -/

def split0 : Tbl Twin := [(0, { Twin.reset with mode := .split })]
def ctxWith (regs : Tbl Word) (sr : Tbl Pay) : Ctx := { Ctx.boot with regs := regs, sr := Tbl.insert sr Sr.pc 0x7FFFFFF00000 }
def base (regs : Tbl Word) (sr : Tbl Pay := []) : State := { State.reset with twins := split0, ctxs := [(0, ctxWith regs sr)] }
def at0 : At := { x := 0 }

/-! ### The queue and the register instructions -/

theorem noWindows_of {s : State} (h : s.twins.all (fun e => e.2.undo.isEmpty && e.2.hold.isEmpty) = true := by decide) : s.noWindows := by
  intro e he
  have := List.all_eq_true.mp h e he
  simpa [List.isEmpty_iff] using this

theorem unpoisoned_of {s : State} (h : s.clusters = [] := by rfl) : s.unpoisoned := by
  intro line
  simp only [State.poisoned, h, List.any_nil]

theorem witness_StepRunsFront (h : Obligations.StepRunsFront) :
    step { base [] with pending := [.nop at0 {}] } = exec (.nop at0 {}) (base []) := h _ [] _ rfl

theorem witness_QueueAndCompletion (h : Obligations.QueueAndCompletion) : Completes (.bcc at0 1 0 4 5) (base []) :=
  .of (h.1 _ (base []))

theorem witness_QueueAndCompletion_illFormed (h : Obligations.QueueAndCompletion) : Completes (.sourceAssert 0x74) (base []) :=
  .of (h.1 _ (base []))

theorem witness_RegisterFile (h : Obligations.RegisterFile) : ((Ctx.reset.wr 31 Word.t).rd 31 = Word.t) :=
  (h Ctx.reset 31 0 Word.t).2.2.1 (by decide)

def threeRegs : List Instr :=
  let f : RF := { d := 31, a := 1, b := 2 }
  [.add at0 f, .sub at0 f, .mul at0 f, .div at0 f, .rem at0 f, .cmp at0 f, .ceq at0 f, .clt at0 f, .cle at0 f, .eq at0 f, .and at0 f,
    .or at0 f, .xor at0 f, .andn at0 f, .shl at0 f, .shr at0 f, .sar at0 f, .rot at0 f, .ttst at0 f, .rtag at0 f]

/-- Each has a result for FIX : 6 and FIX : 3. -/
theorem witness_RegisterResults_each :
    (threeRegs.map fun i => (threeReg 0 i).bind fun e => e.2.2 (Word.fix 6) (Word.fix 3)).all Option.isSome = true := by decide

theorem witness_RegisterResults (h : Obligations.RegisterResults) :
    Completes (.add at0 { d := 31, a := 1, b := 2 }) (base [(1, Word.fix 6), (2, Word.fix 3)]) :=
  .of (h.1 _ _ at0 _ _ _ rfl (by decide) rfl rfl)

theorem witness_RegisterResults_one (h : Obligations.RegisterResults) :
    Completes (.neg at0 { d := 31, a := 1 }) (base [(1, Word.fix 6)]) :=
  .of (h.2 _ _ at0 _ _ _ rfl (by decide) rfl rfl rfl)

theorem witness_ImmediateResults (h : Obligations.ImmediateResults) :
    Completes (.addi at0 { d := 31, a := 1, imm := 0xFFFF }) (base [(1, Word.fix 0)]) :=
  .of (h.1 _ _ at0 _ _ _ rfl (by decide) (by decide) rfl)

theorem witness_ImmediateResults_ext (h : Obligations.ImmediateResults) :
    Completes (.ext at0 0x3D 31 0 0 0x80000000) (base []) :=
  .of (h.2 (base []) at0 0x3D 31 0 0x80000000 _ (by decide) (by decide) (by decide) rfl)

/-- The small machine with a ring 0 vector table at 0x8000 whose entry v is the handler 0x4000, and a stack below 0x10000. -/
def withVec (v : Nat) (regs : Tbl Word) (sr : Tbl Pay := []) : State :=
  ((base regs (Tbl.insert sr Sr.sp0 0x10000)).setReg (oSec + 0xE00) 0x8000).setWord (0x8000 + 8 * v) (Word.raw 0x4000)

theorem witness_ArithmeticTraps (h : Obligations.ArithmeticTraps) :
    Completes (.mul at0 { d := 3, a := 1, b := 1 }) (withVec 18 [(1, Word.fix 0x100000000)]) :=
  .of (h _ at0 { d := 3, a := 1, b := 1 } _ 2 _ 1 0 (.inr (.inr (.inl (by decide)))) rfl rfl (by decide) rfl (by decide) (by decide) rfl)

theorem witness_ArithmeticTraps_div (h : Obligations.ArithmeticTraps) :
    Completes (.div at0 { d := 3, a := 1, b := 2 }) (withVec 18 [(1, Word.fix 1), (2, Word.fix 0)]) :=
  .of (h _ at0 { d := 3, a := 1, b := 2 } _ 3 _ 3 2 (.inr (.inr (.inr (.inl (by decide))))) rfl rfl (by decide) rfl (by decide)
      (by decide) rfl)

/-! ### Loads and stores -/

/-- A pair at 0x1000, a vector of two words at 0x2000 and a byte object at 0x3000, with registers that point there. -/
def store0 : State :=
  let s := base [(1, Word.raw 0x1000), (2, Word.fix 1), (3, ⟨Tag.cons, 0x1000⟩), (4, ⟨Tag.vec, 0x2000⟩), (5, ⟨Tag.str, 0x3000⟩),
    (6, ⟨Tag.weak, 0x1000⟩), (7, Word.fix 0x5A)] [(Sr.sp0, 0x10000), (Sr.cbase, 0x5000), (Sr.clim, 0x6000)]
  ((((s.setWord 0x1000 (Word.fix 42)).setWord 0x1008 Word.t).setWord 0x2000 ⟨Tag.hdr, 0x4100000000000002⟩).setWord 0x2010
    (Word.fix 9)).setWord 0x3000 ⟨Tag.hdr, 0x4240000000000001⟩

def loadRows : List Instr :=
  [.ld at0 { d := 31, a := 1 }, .ldt at0 { d := 31, a := 1 }, .ldx at0 { d := 31, a := 1 }, .l8 at0 { d := 31, a := 1, imm := 7 },
    .l16 at0 { d := 31, a := 1 }, .l32 at0 { d := 31, a := 1, imm := 4 }, .car at0 { d := 31, a := 3 }, .cdr at0 { d := 31, a := 3 },
    .vref at0 { d := 31, a := 4, b := 2 }, .vlen at0 { d := 31, a := 4 }, .bref at0 { d := 31, a := 5, b := 2 },
    .unwk at0 { d := 31, a := 6 }, .ldw at0 { d := 31, a := 1 }]

/-- Each has a word to deliver. -/
theorem witness_LoadsAndTheirShadow_each : loadRows.all (fun i => (store0.loadRow i).isSome) = true := by decide

theorem witness_LoadsAndTheirShadow (h : Obligations.LoadsAndTheirShadow) : Completes (.vref at0 { d := 31, a := 4, b := 2 }) store0 :=
  .of (h.1 _ _ _ rfl (by decide))

/-- Entry 3 of the TLB maps the page of 0x1000 to itself, for loads and stores at every ring. -/
def tlb0 : State := store0.updCore 0 fun c => { c with tlb := [(3, ⟨0x0004000000001000, 0x1CC0⟩)] }

theorem witness_LoadsAndTheirShadow_ldwt (h : Obligations.LoadsAndTheirShadow) : Completes (.ldwt at0 { d := 31, a := 1 }) tlb0 :=
  .of (h.1 _ _ _ rfl (by decide))

theorem witness_LoadsAndTheirShadow_second (h : Obligations.LoadsAndTheirShadow) :
    Completes (.nop at0 {}) (store0.setCtx 0 { store0.ctx 0 with loads := [⟨1, 31, 0, Word.t⟩] }) :=
  .of (h.2 store0 at0 31 Word.t 1 (by decide) (by decide) (by decide) (.inr rfl))

theorem witness_LoadsAndTheirShadow_first (h : Obligations.LoadsAndTheirShadow) :
    Completes (.nop at0 {}) (store0.setCtx 0 { store0.ctx 0 with loads := [⟨2, 1, 0, Word.t⟩] }) :=
  .of (h.2 store0 at0 1 Word.t 2 (by decide) (by decide) (by decide) (.inl rfl))

def storeRows : List Instr :=
  [.st at0 { d := 2, a := 1 }, .stt at0 { d := 2, a := 1 }, .s8 at0 { d := 2, a := 1, imm := 7 }, .s16 at0 { d := 2, a := 1, imm := 6 },
    .s32 at0 { d := 2, a := 1, imm := 4 }, .rplaca at0 { a := 3, b := 2 }, .rplacd at0 { a := 3, b := 2 },
    .vset at0 { d := 2, a := 4, b := 2 }, .bset at0 { d := 7, a := 5, b := 2 }]

/-- Each has a word to leave in memory. -/
theorem witness_StoresAndObjects_each : storeRows.all (fun i => (store0.storeRow i).isSome) = true := by decide

theorem witness_StoresAndObjects (h : Obligations.StoresAndObjects) : Completes (.s16 at0 { d := 2, a := 1, imm := 6 }) store0 :=
  .of (h.1 _ _ _ rfl (by decide))

theorem witness_StoresAndObjects_zal (h : Obligations.StoresAndObjects) : Completes (.zal at0 { a := 1 }) store0 :=
  .of (h.2.1 store0 at0 { a := 1 } 0x1000 _ _ _ (by decide) rfl (by decide) (by decide) rfl)

theorem witness_StoresAndObjects_cons (h : Obligations.StoresAndObjects) : Completes (.cons at0 { d := 31, a := 2, b := 3 }) store0 :=
  .of (h.2.2 store0 at0 { d := 31, a := 2, b := 3 } _ _ _ _ _ _ (by decide) rfl (by decide) (by decide) (by decide) (by decide) (by decide)
    (by decide) (by decide) rfl rfl (by decide))

theorem witness_MemoryForm (h : Obligations.MemoryForm) : (State.reset.deviceReset 7).memForm :=
  (h.2 _ h.1).2.2.2.2.2.2.2.2.2.1 7

/-! ### Special registers, caches, customer slots and the TLB -/

theorem witness_SpecialRegisters_mfs (h : Obligations.SpecialRegisters) : Completes (.mfs at0 { d := 31, imm := 1 }) (base []) :=
  .of (h.1 (base []) at0 { d := 31, imm := 1 } _ _ (by decide) rfl (by decide) rfl (by decide))

theorem witness_SpecialRegisters_mts (h : Obligations.SpecialRegisters) :
    Completes (.mts at0 { a := 1, imm := 0x30 }) (base [(1, Word.raw 0x5000)]) :=
  .of (h.2.1 _ _ at0 1 Sr.cbase _ rfl (by decide) (by decide) (by decide) rfl (by decide) (by decide))

theorem witness_SpecialRegisters_ps (h : Obligations.SpecialRegisters) : Completes (.mtsPs at0 { a := 1 }) (base [(1, Word.raw 0x80)]) :=
  .of (h.2.1 _ _ at0 1 Sr.ps _ rfl (by decide) (by decide) (by decide) rfl (by decide) (by decide))

theorem witness_SpecialRegisters_le (h : Obligations.SpecialRegisters) : Completes (.mtsLe at0 2 { a := 1 }) (base [(1, Word.raw 0x80)]) :=
  .of (h.2.1 _ _ at0 1 (Sr.le0 + 2) _ rfl (by decide) (by decide) (by decide) rfl (by decide) (by decide))

theorem witness_SpecialRegisters_winb (h : Obligations.SpecialRegisters) :
    Completes (.mtsWinb at0 { a := 1 }) (base [(1, Word.raw 0x00100000)]) :=
  .of (h.2.1 _ _ at0 1 Sr.winb _ rfl (by decide) (by decide) (by decide) rfl (by decide) (by decide))

theorem witness_SpecialRegisters_sqt (h : Obligations.SpecialRegisters) :
    Completes (.mts at0 { a := 1, imm := 0x34 }) { base [(1, Word.raw 0x5000)] with twins := [] } :=
  .of (h.2.2.1 _ _ at0 1 rfl (by decide) (by decide) (by decide))

theorem witness_SpecialRegisters_tvb (h : Obligations.SpecialRegisters) :
    Completes (.mtsTvb at0 { a := 1 }) ((base [(1, Word.raw 0x8000)]).setWord 0x8200 (Word.raw 0x4000)) :=
  .of (h.2.2.2 _ _ at0 1 Sr.tvb rfl (by decide) (by decide) (.inl rfl))

theorem witness_CacheInstructions_cctl (h : Obligations.CacheInstructions) : Completes (.mtsCctl at0 { a := 1 }) (base [(1, Word.raw 3)]) :=
  .of ((h.1 (base [(1, Word.raw 3)]) at0 { a := 1 }).1 rfl rfl (by decide) (by decide) (by decide) (by decide) (by decide)
      (by decide) |>.1 (.inl (by decide)))

/-- The L1D is on and holds the line of 0x1000, which the L2 of cluster 0 holds too. -/
def cached0 (v : Word) : State :=
  ((base [(1, v), (2, Word.raw 0x1000), (3, Word.raw 0x1001)]).updCore 0 fun c =>
    { c with sr := [(Sr.cctl, 1)], l1d := [(0x40, ⟨0, true, 0⟩)] }).updCluster 0 fun c => { c with l2 := [(0x40, ⟨0, false, false⟩)] }

theorem witness_CacheInstructions_sweep (h : Obligations.CacheInstructions) : Completes (.mtsCctl at0 { a := 1 }) (cached0 (Word.raw 0)) :=
  .of ((h.1 (cached0 (Word.raw 0)) at0 { a := 1 }).1 rfl rfl (by decide) (by decide) (by decide) (by decide) (by decide) (by decide) |>.2
      (by decide) (by decide))

def sweeping : State :=
  ((cached0 (Word.raw 0)).updCore 0 fun c => { c with sr := [(Sr.cctl, 0x8001)] }).setCtx 0 { (base []).ctx 0 with run := .sweep 0 4 false }

theorem witness_CacheInstructions_sweepEnd (h : Obligations.CacheInstructions) : Completes (.l1dSweepEnd 0 []) sweeping :=
  .of ((h.1 sweeping at0 { a := 1 }).2 0 0 0 (by decide) (by decide) (by decide) rfl (by decide))

theorem witness_CacheInstructions_cwb (h : Obligations.CacheInstructions) : Completes (.cwb at0 { a := 2 }) (cached0 Word.nil) :=
  .of ((h.2.1 (cached0 Word.nil) at0 { a := 2 } 0x40 (by decide) rfl rfl rfl (by decide)).1 (by decide))

theorem witness_CacheInstructions_cinv (h : Obligations.CacheInstructions) :
    Completes (.cwbi at0 { a := 2 }) (cached0 Word.nil) ∧ Completes (.cinv at0 { a := 2 }) (cached0 Word.nil) :=
  have g := (h.2.1 (cached0 Word.nil) at0 { a := 2 } 0x40 (by decide) rfl rfl rfl (by decide)).2 (by decide) (by decide)
  ⟨.of g.1, .of g.2⟩

theorem witness_CacheInstructions_cinvr (h : Obligations.CacheInstructions) :
    Completes (.cinvr at0 { d := 31, a := 1, b := 2 }) (base [(1, Word.raw 0x1000), (2, Word.fix 2)]) ∧
    Completes (.cinvrNw at0 { d := 31, a := 1, b := 2 }) (base [(1, Word.raw 0x1000), (2, Word.fix 2)]) :=
  have g := h.2.2 (base [(1, Word.raw 0x1000), (2, Word.fix 2)]) at0 { d := 31, a := 1, b := 2 } (by decide) rfl (by decide) (by decide)
    (by decide) (by decide) (by decide) (by decide) (by decide) (by decide) (by decide)
  ⟨.of g.1, .of g.2⟩

theorem witness_SlotLoads_clr (h : Obligations.SlotLoads) : Completes (.ucsClr at0 { a := 1 }) (base [(1, Word.raw 2)]) :=
  .of (h.1 (base [(1, Word.raw 2)]) at0 { a := 1 } _ (.inr rfl) rfl rfl (by decide) (by decide) (by decide))

/-- The targets of that UCS_CLR are good. -/
theorem witness_SlotLoads_clr_targets : (base []).ucsTargets 2 = .ok [0] := by decide

theorem witness_SlotLoads_badImage (h : Obligations.SlotLoads) : Completes (.ucsGo at0 { a := 1 }) (base [(1, Word.raw 1)]) :=
  .of (h.1 (base [(1, Word.raw 1)]) at0 { a := 1 } _ (.inl rfl) rfl rfl (by decide) (by decide) (by decide))

/-- The image of that UCS_GO is none. -/
theorem witness_SlotLoads_badImage_code : (base []).ucsImage 0 0 = .error 3 := by decide

/-- One slot of two micro-operations: RAW : 7 into micro-register 3, which is D, and the end. -/
def image : List Word := [Word.raw 0xCA5E010808000002, Word.raw 0x2480101000000000, Word.raw 0x98C0000000000007, Word.raw 0]

def withImage : State := (base [(1, Word.raw 1)]).setWords keepBase image

theorem witness_SlotLoads_go (h : Obligations.SlotLoads) : Completes (.ucsGo at0 { a := 1 }) withImage :=
  .of (h.1 withImage at0 { a := 1 } _ (.inl rfl) rfl rfl (by decide) (by decide) (by decide))

/-- The image and the targets of that UCS_GO are good. -/
theorem witness_SlotLoads_go_image :
    withImage.ucsImage 0 0 = .ok ⟨false, 16, [0x2480101000000000], [0x98C0000000000007, 0], []⟩ ∧ withImage.ucsTargets 1 = .ok [0] :=
  ⟨by decide, by decide⟩

def loading : State :=
  (base []).updCore 0 fun c =>
    { c with sr := [(Sr.ucs, 0x8000000000000000)], ucsJob := some ⟨false, 16, [0x2480101000000000], [0x98C0000000000007, 0], [0]⟩ }

theorem witness_SlotLoads_end (h : Obligations.SlotLoads) : Completes (.ucsLoadComplete 0) loading :=
  .of (((h.2 loading 0 (by decide)).2 _ rfl).2 (by decide))

theorem witness_SlotLoads_none (h : Obligations.SlotLoads) : Completes (.ucsLoadComplete 0) (base []) :=
  .of ((h.2 (base []) 0 (by decide)).1 rfl)

/-- Context 1 is stopped inside a slot. -/
def insideOne : State := loading.setCtx 1 { (base []).ctx 1 with slot := some { u := [], uop := 0, held := [] } }

theorem witness_SlotLoads_inside (h : Obligations.SlotLoads) : Completes (.ucsLoadComplete 0) insideOne :=
  .of (((h.2 insideOne 0 (by decide)).2 _ rfl).1 (by decide))

def slotted : State := (base []).updCore 0 fun c => { c with decode := [(2, 0x2480101000000000)], cstore := [(16, 0x98C0000000000007)] }

theorem witness_CustomerSlots (h : Obligations.CustomerSlots) : Completes (.customerSlot at0 2 { d := 31 } 9) slotted :=
  .of (h slotted at0 2 { d := 31 } 9 0x2480101000000000 _ (by decide) rfl (by decide) rfl rfl (.inl (by decide)) (.inr rfl) (.inr rfl)
    (by decide) rfl)

theorem witness_TlbInstructions (h : Obligations.TlbInstructions) :
    Completes (.tlbr at0 { d := 31, a := 1 }) tlb0 ∧ Completes (.tlbs at0 { d := 31, a := 1 }) tlb0 :=
  have g := h.1 tlb0 at0 { d := 31, a := 1 } (by decide) rfl (by decide) (by decide) (by decide)
  ⟨.of g.1, .of g.2.1⟩

def tlbwState : State := base [(1, Word.raw 0x0004000000001000), (2, Word.raw 0x1CC0)]

theorem witness_TlbInstructions_write (h : Obligations.TlbInstructions) : Completes (.tlbw at0 { d := 31, a := 1, b := 2 }) tlbwState := by
  rcases hr : (tlbwState.core 0).tlbw (tlbwState.gr 0 1).pay (tlbwState.gr 0 2).pay with ⟨i, c⟩ | r
  · exact .of ((h.1 tlbwState at0 { d := 31, a := 1, b := 2 } (by decide) rfl (by decide) (by decide) (by decide)).2.2.2 i c hr)
  · have : (match (tlbwState.core 0).tlbw (tlbwState.gr 0 1).pay (tlbwState.gr 0 2).pay with
      | .wrote _ _ => true
      | .reject _ => false) = true := by decide
    rw [hr] at this
    cases this

theorem witness_TlbInstructions_reject (h : Obligations.TlbInstructions) :
    Completes (.tlbw at0 { d := 31, a := 1, b := 2 }) (base [(1, Word.raw 0x1D), (2, Word.raw 0)]) :=
  .of ((h.1 (base [(1, Word.raw 0x1D), (2, Word.raw 0)]) at0 { d := 31, a := 1, b := 2 } (by decide) rfl (by decide) (by decide)
    (by decide)).2.2.1 1 rfl)

def tlbiRows : List Instr :=
  [.tlbiA at0 { a := 1 }, .tlbiT at0 { a := 1 }, .tlbiTForce at0 { a := 1 }, .tlbiAll at0 {}, .tlbiAllForce at0 {}]

theorem witness_TlbInstructions_inval (h : Obligations.TlbInstructions) : ∀ i ∈ tlbiRows, Completes i tlb0 := by
  intro i hi
  simp only [tlbiRows, List.mem_cons, List.not_mem_nil, or_false] at hi
  rcases hi with rfl | rfl | rfl | rfl | rfl <;> exact .of (h.2 _ tlb0 at0 _ rfl (by decide) (by decide) (by decide) (by decide))

theorem witness_FencesPass (h : Obligations.FencesPass) :
    ∀ i ∈ [Instr.fenceL at0 {}, .fenceS at0 {}, .fence at0 {}, .fenceIo at0 {}, .isync at0 {}, .nop at0 {}, .ckpt at0 {}, .brk at0 {}],
      Completes i (base []) :=
  fun i hi => .of (h (base []) at0 i hi (by decide) (by decide) (by decide) (by decide) (fun _ => by decide) (fun _ => by decide))

/-! ### Control -/

def jumps : State := base [(1, Word.raw 0x4000), (2, Word.t), (3, Word.raw 0)] [(Sr.sp0, 0x10000)]

theorem witness_Branches (h : Obligations.Branches) :
    Completes (.br at0 0x3FFFFFF) jumps ∧ Completes (.bcc at0 0 0 0 1) jumps ∧ Completes (.bcc at0 0 0 1 1) jumps ∧
    Completes (.btag at0 2 false false Tag.bool 0x7FF) jumps ∧ Completes (.jmpr at0 { a := 1 }) jumps ∧ Completes (.loop at0 3 0 2) jumps :=
  ⟨.of (h _ _ at0 _ rfl (by decide)), .of (h _ _ at0 _ rfl (by decide)), .of (h _ _ at0 _ rfl (by decide)), .of (h _ _ at0 _ rfl
      (by decide)),
    .of (h _ _ at0 _ rfl (by decide)), .of (h _ _ at0 _ rfl (by decide))⟩

theorem witness_HardwareLoops (h : Obligations.HardwareLoops) : Completes (.loop at0 1 0 2) jumps :=
  .of ((h jumps at0 (by decide)).1 1 2 (by decide) (by decide))

/-- The machine at the end slot of level 0, whose count is n. -/
def looping (n : Pay) : State :=
  let c := jumps.ctx 0
  jumps.setCtx 0 (((c.setSp Sr.ls0 0x7FFFFFF00000).setSp Sr.le0 (c.pc ||| p64 c.ring)).setSp Sr.lc0 n)

theorem witness_HardwareLoops_again (h : Obligations.HardwareLoops) : Completes (.nop at0 {}) (looping 2) :=
  .of ((h jumps at0 (by decide)).2 0x7FFFFFF00000 2 _ (by decide) (by decide) rfl (by decide))

theorem witness_HardwareLoops_last (h : Obligations.HardwareLoops) : Completes (.nop at0 {}) (looping 1) :=
  .of ((h jumps at0 (by decide)).2 0x7FFFFFF00000 1 _ (by decide) (by decide) rfl (by decide))

theorem witness_Calls (h : Obligations.CallsReturnsAndGates) :
    Completes (.call at0 3) jumps ∧ Completes (.callr at0 { a := 1 }) jumps ∧ Completes (.ret at0 {}) jumps :=
  have g := h.1 jumps at0 (by decide) (by decide)
  ⟨.of (g.1 _ _ _ rfl (by decide) rfl), .of (g.1 _ _ _ rfl (by decide) rfl), .of (g.2 _ (by decide) rfl rfl (by decide))⟩

/-- Gate 0 of the ring 0 table enters ring 0 at 0x4000. -/
def gated : State :=
  ((base [(1, Word.raw 0)] [(Sr.sp0, 0x10000)]).setReg (oSec + 0xE08) 0x9000).setWord 0x9000 (Word.raw 0x0800000000004000)

theorem witness_Gates (h : Obligations.CallsReturnsAndGates) : Completes (.callg at0 { a := 1 }) gated :=
  .of ((h.2 gated at0 (by decide)).1 1 0x0800000000004000 _ _ (by decide) (by decide) (by decide) (by decide) (by decide)
      (by decide) rfl rfl (by decide))

theorem witness_Gates_return (h : Obligations.CallsReturnsAndGates) : Completes (.retg at0 {}) gated :=
  .of ((h.2 gated at0 (by decide)).2 (Word.raw 0) (Word.raw 0) (by decide) (by decide) rfl rfl rfl rfl (by decide) (by decide))

/-- A frame at 0x10000: to 0x4000, with IE set, and a pending load of register 5. -/
def framed : State :=
  ((((base [] [(Sr.sp0, 0x10000), (Sr.winb, 0x80000000)]).setWord 0x10000 (Word.raw 0x4000)).setWord 0x10008 (Word.raw 0x8080)).setWord 0x10028
    (Word.raw 0xA005)).setWord 0x10030 Word.t

theorem witness_ReturnFromException (h : Obligations.ReturnFromException) : Completes (.rete at0 {}) framed :=
  .of (h framed at0 (fun i => framed.word (0x10000 + 8 * i)) (by decide) (by decide) (by decide) (by decide) (by decide) (by decide)
    (fun _ => by decide) (by decide))

theorem witness_ExceptionEntries (h : Obligations.ExceptionEntries) :
    Completes (.trap at0 { imm := 127 }) (withVec 255 []) ∧ Completes (.illegalInstruction at0 (Word.raw 0)) (withVec 4 []) :=
  ⟨.of ((h.1 (withVec 255 []) at0 _ (by decide) (by decide)).1 127 (by decide) rfl),
    .of ((h.1 (withVec 4 []) at0 _ (by decide) (by decide)).2 (Word.raw 0) _ rfl rfl)⟩

/-- What context 0 of the machine with vector v has to take. -/
def toTake (v : Nat) (f : Ctx → Ctx) : State := (withVec v [] [(Sr.ps, 0x80)]).updCtx 0 f

theorem witness_ExceptionEntries_line (h : Obligations.ExceptionEntries) :
    Completes (.eventLineEntry 0 false) ((toTake 2 fun c => { c with lines := [⟨63, 5⟩] }).updCore 0 fun c =>
      { c with latch0 := [(127, Word.raw 0x4000)] }) :=
  .of ((h.2 ((toTake 2 fun c => { c with lines := [⟨63, 5⟩] }).updCore 0 fun c => { c with latch0 := [(127, Word.raw 0x4000)] })
    0 false _ (by decide) (by decide) (by decide) rfl (by decide)).1 _ _ (by decide) rfl rfl)

theorem witness_ExceptionEntries_sbe (h : Obligations.ExceptionEntries) :
    Completes (.storeBusError 0 false) (toTake 14 fun c => { c with sbes := [⟨1, 0x1000, 0x4000⟩] }) :=
  .of ((h.2 (toTake 14 fun c => { c with sbes := [⟨1, 0x1000, 0x4000⟩] }) 0 false _ (by decide) (by decide) (by decide) rfl
    (by decide)).2.1 _ _ (by decide) rfl rfl)

theorem witness_ExceptionEntries_mc (h : Obligations.ExceptionEntries) :
    Completes (.deferredMachineCheck 0 false) (toTake 2 fun c => { c with mcs := [⟨1, 0x1000⟩] }) :=
  .of ((h.2 (toTake 2 fun c => { c with mcs := [⟨1, 0x1000⟩] }) 0 false _ (by decide) (by decide) (by decide) rfl
    (by decide)).2.2.1 _ _ (by decide) rfl rfl)

/-- One record in the twin log. -/
def logged : State := (toTake 3 id).setReg (oTwin + 0x30) 1

theorem witness_ExceptionEntries_twin (h : Obligations.ExceptionEntries) : Completes (.twinEvent 0 false) logged := by
  have hs : (logged.entryOf 0 { vec := 3, cause := 0, x0 := Word.rawN 0 }).isSome = true := by decide
  obtain ⟨en, he⟩ := Option.isSome_iff_exists.mp hs
  exact .of ((h.2 logged 0 false en (by decide) (by decide) (by decide) rfl (by decide)).2.2.2 (by decide) he)

/-! ### Events and waits -/

def latched : State := (base [(1, Word.raw 0), (2, Word.raw 0x300)]).updCtx 0 fun c => { c with latch := true }
def unlatched : State := base [(1, Word.raw 0), (2, Word.raw 0x300), (3, Word.raw 1)]

theorem witness_WaitsAndEvents_latch (h : Obligations.WaitsAndEvents) :
    Completes (.wfe at0 {}) latched ∧ Completes (.waitt at0 { d := 31, a := 1 }) latched :=
  have g := (h.1.1 latched at0 { d := 31, a := 1 } (by decide) rfl rfl).1 rfl
  ⟨.of g.1, .of g.2⟩

theorem witness_WaitsAndEvents_wait (h : Obligations.WaitsAndEvents) :
    Completes (.wfe at0 {}) unlatched ∧ Completes (.waitt at0 { d := 31, a := 1 }) unlatched ∧
    Completes (.waitt at0 { d := 31, a := 3 }) unlatched :=
  have g := (h.1.1 unlatched at0 { d := 31, a := 1 } (by decide) rfl rfl).2 rfl
  have g' := (h.1.1 unlatched at0 { d := 31, a := 3 } (by decide) rfl rfl).2 rfl
  ⟨.of g.1, .of (g.2.1 (by decide) (by decide)), .of (g'.2.2 (by decide) (by decide))⟩

theorem witness_WaitsAndEvents_agree (h : Obligations.WaitsAndEvents) :
    Completes (.agree at0 { d := 31, a := 1 } none) unlatched ∧ Completes (.agree at0 { d := 31, a := 2 } none) unlatched :=
  ⟨.of (h.1.2 unlatched at0 { d := 31, a := 1 } _ (by decide) rfl (by decide) (by decide) (by decide) (.inl ⟨by decide, rfl⟩)),
    .of (h.1.2 unlatched at0 { d := 31, a := 2 } _ (by decide) rfl (by decide) (by decide)
        (by decide) (.inr (.inr (.inr (.inr ⟨by decide, rfl⟩)))))⟩

theorem witness_WaitsAndEvents_set (h : Obligations.WaitsAndEvents) :
    Completes (.eventLatchSet 0) unlatched ∧ Completes (.sev at0 { a := 1 }) unlatched :=
  have g := (h.2 unlatched 0 (by decide)).1 (by decide) (by decide) (by decide)
  ⟨.of g.1, .of (g.2 at0 1 (by decide) (by decide) (by decide) (by decide) (by decide) (by decide))⟩

def inWait (r : RunState) : State := unlatched.updCtx 0 fun c => { c with run := r }

theorem witness_WaitsAndEvents_goOn (h : Obligations.WaitsAndEvents) : Completes (.eventLatchSet 0) (inWait .wfe) :=
  .of ((h.2 (inWait .wfe) 0 (by decide)).2.1 (by decide) (by decide) (by decide) (by decide) (by decide) (by decide))

theorem witness_WaitsAndEvents_deadline (h : Obligations.WaitsAndEvents) : Completes (.waittDeadline 0) (inWait (.waitt 31 9)) :=
  .of ((h.2 (inWait (.waitt 31 9)) 0 (by decide)).2.2 31 9 (by decide) (by decide) (by decide) (by decide) (by decide) (by decide))

/-! ### Windows, long instructions and repeats -/

theorem witness_RegisterWindows (h : Obligations.RegisterWindows) :
    Completes (.callw at0 {}) (base []) ∧ Completes (.retw at0 {}) (base [] [(Sr.winb, 0x01000000)]) ∧
    Completes (.movwbF at0 { d := 31, a := 1 }) (base []) ∧ Completes (.movwbT at0 { d := 31, a := 1 }) (base []) :=
  have g := h (base []) at0 { d := 31, a := 1 } (by decide) rfl rfl
  have g' := h (base [] [(Sr.winb, 0x01000000)]) at0 { d := 31, a := 1 } (by decide) rfl rfl
  ⟨.of (g.1 (by decide)), .of (g'.2.1 (by decide) (by decide)), .of ((g.2.2 (by decide)).1 (by decide)), .of ((g.2.2 (by decide)).2
      (by decide))⟩

/-- D, A and B of a long instruction in registers 1, 2 and 3. -/
def long (d a b : Word) : State := ((base [(1, d), (2, a), (3, b)]).setWord 0x1000 Word.t).setWord 0x1008 (Word.fix 8)

def longF : RF := { d := 1, a := 2, b := 3 }

theorem witness_LongElements_none (h : Obligations.LongElements) :
    Completes (.movb at0 longF 0) (long (Word.raw 0x2000) (Word.raw 0x1000) (Word.fix 0)) ∧
    Completes (.fillb at0 longF 0) (long (Word.raw 0x2000) (Word.raw 0x1000) (Word.fix 0)) ∧
    Completes (.scanm at0 longF 0) (long (Word.raw 0x2000) (Word.raw 0x1000) (Word.fix 0)) :=
  have g := (h (long (Word.raw 0x2000) (Word.raw 0x1000) (Word.fix 0)) at0 longF (by decide) rfl rfl (by decide) (by decide) (by decide)
    (by decide) (by decide) (by decide) (by decide)).1 rfl (by decide) (by decide)
  ⟨.of g.1, .of g.2.1, .of g.2.2⟩

theorem witness_LongElements_move (h : Obligations.LongElements) :
    Completes (.fillb at0 longF 0) (long (Word.raw 0x2000) (Word.raw 0x1000) (Word.fix 2)) ∧
    Completes (.movb at0 longF 0) (long (Word.raw 0x2000) (Word.raw 0x1000) (Word.fix 2)) :=
  have g := (h (long (Word.raw 0x2000) (Word.raw 0x1000) (Word.fix 2)) at0 longF (by decide) rfl rfl (by decide) (by decide) (by decide)
    (by decide) (by decide) (by decide) (by decide)).2.1 _ _ _ (by decide) (by decide) rfl
  ⟨.of (g.1 (by decide) (by decide)), .of (g.2 _ (by decide) rfl (by decide) (by decide) (by decide))⟩

theorem witness_LongElements_scan (h : Obligations.LongElements) :
    Completes (.scanm at0 longF 0) (long Word.t (Word.raw 0x1000) (Word.fix 2)) ∧
    Completes (.scanm at0 longF 0) (long (Word.fix 0xFF00) (Word.raw 0x1000) (Word.fix 1)) ∧
    Completes (.scanc at0 longF 0) (long (Word.fix 0xFF03) (Word.raw 0x1000) (Word.fix 2)) ∧
    Completes (.scanc at0 longF 0) (long (Word.fix 0xFF00) (Word.raw 0x1000) (Word.fix 1)) :=
  have g := (h (long Word.t (Word.raw 0x1000) (Word.fix 2)) at0 longF (by decide) rfl rfl (by decide) (by decide) (by decide)
    (by decide) (by decide) (by decide) (by decide)).2.2 _ (by decide) (by decide) rfl
  have g' := (h (long (Word.fix 0xFF00) (Word.raw 0x1000) (Word.fix 1)) at0 longF (by decide) rfl rfl (by decide) (by decide) (by decide)
    (by decide) (by decide) (by decide) (by decide)).2.2 _ (by decide) (by decide) rfl
  have g'' := (h (long (Word.fix 0xFF03) (Word.raw 0x1000) (Word.fix 2)) at0 longF (by decide) rfl rfl (by decide) (by decide) (by decide)
    (by decide) (by decide) (by decide) (by decide)).2.2 _ (by decide) (by decide) rfl
  ⟨.of ((g.1 (by decide) (by decide)).1 (by decide)), .of ((g'.1 (by decide) (by decide)).2 (by decide)),
    .of ((g''.2 (by decide) (by decide)).1 (by decide)), .of ((g'.2 (by decide) (by decide)).2 (by decide))⟩

/-- SAVEH of the lower half at element e; the area is at 0x1000. -/
def saving (e : Nat) : State := (base [(1, Word.nil), (2, Word.raw 0x1000), (3, Word.fixN e)]).setWord 0x1000 ⟨Tag.link, 0x2000⟩

theorem witness_SaveAreas_save (h : Obligations.SaveAreas) :
    Completes (.saveh at0 longF 0) (saving 0) ∧ Completes (.saveh at0 longF 0) (saving 28) :=
  ⟨.of ((h (saving 0) at0 longF 0x1000 (by decide) rfl (by decide) (by decide) (by decide) (by decide) (by decide) (by decide)
      (by decide) (by decide)).1 _ _ _ rfl (by decide) (by decide) rfl),
    .of ((h (saving 28) at0 longF 0x1000 (by decide) rfl (by decide) (by decide) (by decide) (by decide) (by decide) (by decide)
      (by decide) (by decide)).1 _ _ _ rfl (by decide) (by decide) rfl)⟩

theorem witness_SaveAreas_restore (h : Obligations.SaveAreas) :
    Completes (.rest at0 longF 0) (saving 17) ∧ Completes (.rest at0 longF 0) (saving 29) :=
  ⟨.of (((h (saving 17) at0 longF 0x1000 (by decide) rfl (by decide) (by decide) (by decide) (by decide) (by decide) (by decide)
      (by decide) (by decide)).2 (Word.raw 0) rfl (by decide) (by decide)).1 (by decide) (by decide) rfl),
    .of (((h (saving 29) at0 longF 0x1000 (by decide) rfl (by decide) (by decide) (by decide) (by decide) (by decide) (by decide)
      (by decide) (by decide)).2 ⟨Tag.link, 0x2000⟩ rfl (by decide) (by decide)).2 (by decide) (by decide) (by decide) rfl)⟩

/-- The word of two NOPs. -/
def nops : Word := ⟨Tag.insn, 0xB4000000B4000000⟩

theorem witness_RepeatCounts (h : Obligations.RepeatCounts) :
    Completes (.rep at0 0 nops .clean 9) (base [] [(Sr.rpc, 3)]) :=
  .of ((h (base [] [(Sr.rpc, 3)]) at0 nops 9 (by decide) (by decide)).2 rfl (by decide) (fun _ => by decide) (by decide))

theorem witness_RepeatCounts_none (h : Obligations.RepeatCounts) : Completes (.rep at0 0 nops .clean 0) (base []) :=
  .of ((h (base []) at0 nops 0 (by decide) (by decide)).1 rfl (by decide) (by decide) (by decide))

/-! ### Reset, modes, clocks

Commands that write a register come from core 0, by context 0. -/

def core0 : Src := { code := 0 }
def inMode (m : Nat) : State := State.reset.setRf 0x10 2 0 m

theorem witness_IdleStepsPassTime (h : Obligations.IdleStepsPassTime) : ∃ t, step State.reset = .next t :=
  ((h State.reset rfl (by decide) (fun _ hu => by cases hu)).1 (fun _ he => by simp only [State.reset, List.mem_singleton] at he; subst he; nofun)).imp
    fun _ p => p.1

/-- Context 0 waits for CYC to reach 1, and waits alone. -/
def waiting1 : State := (base []).updCtx 0 fun c => { c with run := .waitt 31 1 }

theorem witness_IdleStepsPassTime_waitt (h : Obligations.IdleStepsPassTime) : ∃ t, step waiting1 = .next t :=
  ((h waiting1 rfl (by decide) (fun _ hu => by cases hu)).2 0 31 1 rfl (fun e he hx => by
    have : e = (0, waiting1.ctx 0) := List.mem_singleton.mp he
    exact absurd (by rw [this]) hx) (by decide) rfl (by decide) rfl rfl rfl (by decide) (by decide) (by decide)).imp fun _ p => p.1

theorem witness_WakesNeverWait (h : Obligations.WakesNeverWait) (t : State)
    (ht : step { base [] with pending := [.nop at0 {}] } = .next t) : ¬ t.wakeMissed :=
  h _ t (fun hp => by cases hp) ht

theorem witness_DeviceResetAndBoot (h : Obligations.DeviceResetAndBoot) :
    Completes (.powerOn true) State.reset ∧ Completes .rstNLow State.reset ∧ Completes .refclkLoss State.reset ∧
    Completes (.reset core0) State.reset ∧ Completes (.overtemperatureReset 7 229) State.reset ∧
        Completes .railOutOfTolerance State.reset :=
  have g := h.1 State.reset
  ⟨.of (g.1 true), .of (g.2.1 rfl rfl), .of g.2.2.1, .of (g.2.2.2.1 core0 (by decide) (by decide) (by decide) (by decide)),
    .of (g.2.2.2.2.2.1 7 229 (by decide)), .of (g.2.2.2.2.2.2 rfl)⟩

def resetDue : State := { State.reset with sys := { Sys.reset with resetAt := some 0 } }

theorem witness_DeviceResetAndBoot_delay (h : Obligations.DeviceResetAndBoot) : Completes .modeReqResetDelay resetDue :=
  .of ((h.1 resetDue).2.2.2.2.1 0 rfl (by decide))

def held (low : Bool) : State := { State.reset with sys := { Sys.reset with inReset := true, rstLow := low } }

theorem witness_DeviceResetAndBoot_end (h : Obligations.DeviceResetAndBoot) :
    Completes (.rstNRise 5 3 true) (held true) ∧ Completes .internalResetEnd (held false) ∧ Completes .ddrTrainingEnd State.reset :=
  ⟨.of ((h.2 (held true) (by decide)).1 5 3 true rfl rfl), .of ((h.2 (held false) (by decide)).2.1 rfl rfl rfl rfl rfl (by decide)),
    .of ((h.2 State.reset (by decide)).2.2 rfl)⟩

theorem witness_ModesAndQuiet_modes (h : Obligations.ModesAndQuiet) :
    Completes (.safehold core0) State.reset ∧ Completes (.service core0) (inMode mRun) ∧ Completes (.run core0) State.reset :=
  ⟨.of ((h.1 State.reset core0 (by decide) (by decide) (by decide)).1 (by decide) (by decide)),
    .of ((h.1 (inMode mRun) core0 (by decide) (by decide) (by decide)).2.1 (by decide) (by decide) (by decide)),
    .of ((h.1 State.reset core0 (by decide) (by decide) (by decide)).2.2 (by decide) (by decide) (by decide)
        (by decide) (fun _ => by decide)
      (by decide) rfl)⟩

/-- In mode m, with the Quiet entry or wake at q. -/
def quieting (m : Nat) (q : QuietSt) (wake : Bool := false) : State :=
  { inMode m with sys := { Sys.reset with quiet := q, wakeReq := wake } }

theorem witness_ModesAndQuiet_quiet (h : Obligations.ModesAndQuiet) :
    Completes (.quiet core0) (inMode mRun) ∧ Completes .quietDrainDone (quieting mRun .drain) ∧
    Completes .quietDrainTimeout (quieting mRun .drain) ∧ Completes .quietGated (quieting mRun .sweep) :=
  ⟨.of ((h.2 (inMode mRun)).1 core0 (by decide) (by decide) (by decide) (by decide) (by decide) (by decide)),
    .of ((h.2 (quieting mRun .drain)).2.1 (by decide) rfl (by decide) (fun _ => rfl)),
    .of ((h.2 (quieting mRun .drain)).2.2.1 (by decide) rfl rfl rfl rfl (by decide)),
    .of ((h.2 (quieting mRun .sweep)).2.2.2.1 (by decide) rfl rfl rfl (by decide) (fun _ he => by cases he))⟩

theorem witness_ModesAndQuiet_wake (h : Obligations.ModesAndQuiet) :
    Completes .quietWake (quieting mQuiet .none true) ∧ Completes .quietWakeDone (quieting mQuiet .waking) :=
  ⟨.of ((h.2 (quieting mQuiet .none true)).2.2.2.2.1 (by decide) (by decide) rfl rfl),
    .of ((h.2 (quieting mQuiet .waking)).2.2.2.2.2 (by decide) rfl rfl rfl rfl (by decide) (by decide))⟩

def watched : State := { State.reset with sys := { Sys.reset with armed := true, expiry := 7 } }

theorem witness_WatchAndTime_watch (h : Obligations.WatchAndTime) :
    Completes (.feed core0 1023) State.reset ∧ Completes (.watchPeriodWrite core0 1) watched ∧
    Completes (.watchPeriodWrite core0 1) State.reset ∧ Completes (.watchPeriodWrite core0 0) watched ∧ Completes .watchExpiry watched :=
  have g := h.1 State.reset (by decide) (by decide)
  have g' := h.1 watched (by decide) (by decide)
  ⟨.of ((g.1 core0 1023 (by decide)).1 (by decide) (by decide)), .of (((g'.1 core0 1 (by decide)).2 (by decide)).1 (by decide) rfl),
    .of (((g.1 core0 1 (by decide)).2 (by decide)).2.1 (by decide) rfl), .of (((g'.1 core0 0 (by decide)).2 (by decide)).2.2 rfl),
    .of (g'.2 rfl (by decide) (by decide))⟩

/-- Entry 0 of the ring 0 table is present, so that a context can start. -/
def startable : State := (State.reset.setReg (oSec + 0xE00) 0x8000).setWord 0x8000 (Word.raw 0x4000)

theorem witness_WatchAndTime_start (h : Obligations.WatchAndTime) : Completes (.sysStart core0 3) startable :=
  .of ((h.2 startable core0 (by decide) (by decide)).1 3 0x4000 (by decide) (by decide) rfl (by decide) rfl (by decide) rfl)

theorem witness_WatchAndTime_time (h : Obligations.WatchAndTime) :
    Completes (.sysTimeWrite core0 9) State.reset ∧ Completes (.sysTimeWrite core0 9) { State.reset with time := 10 } :=
  ⟨.of (((h.2 State.reset core0 (by decide) (by decide)).2 9 (by decide)).1 (by decide)),
    .of (((h.2 { State.reset with time := 10 } core0 (by decide) (by decide)).2 9 (by decide)).2 (by decide))⟩

def changing : State := { State.reset with sys := { Sys.reset with dvfs := [(1, 5)], unlocked := [1] } }
def derated : State := State.reset.setRf (clkReg 1) 18 18 1
def fencedCluster : State := { State.reset.setRf (clkReg 7) 16 16 0 with
  twins := [(28, { Twin.reset with mode := .fenced }), (29, { Twin.reset with mode := .fenced }), (30, { Twin.reset with mode := .fenced }),
    (31, { Twin.reset with mode := .fenced })] }

theorem witness_ClocksAndTemperature_points (h : Obligations.ClocksAndTemperature) :
    Completes (.dvfsPointWrite core0 1 3) State.reset ∧ Completes (.dvfsChangeEnd 1) changing ∧ Completes (.pllRelock 1) changing :=
  ⟨.of ((h State.reset 1 (by decide) rfl).1 core0 3 (by decide)), .of ((h changing 1 (by decide) rfl).2.1 5 rfl (by decide)),
    .of ((h changing 1 (by decide) rfl).2.2.2.2.1 (by decide))⟩

theorem witness_ClocksAndTemperature_sensors (h : Obligations.ClocksAndTemperature) :
    Completes (.thermalDerate 1 190) State.reset ∧ Completes (.derateClear 1 184) derated ∧ Completes (.temp 1 219) State.reset ∧
    Completes (.tempClear 1 214) State.reset :=
  have g := (h State.reset 1 (by decide) rfl).2.2.1
  ⟨.of ((g 190).1 (by decide)), .of (((h derated 1 (by decide) rfl).2.2.1 184).2.1 (by decide) (by decide)),
    .of ((g 219).2.2.1 (by decide) (by decide) (by decide) (by decide)),
    .of ((g 214).2.2.2 (by decide) (by decide) (by decide))⟩

theorem witness_ClocksAndTemperature_pll (h : Obligations.ClocksAndTemperature) :
    Completes (.clusterPllLoss 7) fencedCluster ∧ Completes .evclk State.reset :=
  ⟨.of ((h fencedCluster 7 (by decide) rfl).2.2.2.1 (by decide) (by decide) (by
      intro u hu
      have : u = 28 ∨ u = 29 ∨ u = 30 ∨ u = 31 := by
        have : u / 4 = 7 := hu
        omega
      rcases this with rfl | rfl | rfl | rfl <;> decide)),
    .of ((h State.reset 1 (by decide) rfl).2.2.2.2.2.1 (by decide) (by decide) (by decide))⟩

theorem witness_ClocksAndTemperature_calibration (h : Obligations.ClocksAndTemperature) :
    Completes (.pllCalibration [(1, 2)]) (inMode mRun) :=
  .of ((h (inMode mRun) 1 (by decide) rfl).2.2.2.2.2.2 [(1, 2)] (by decide))

/-! ### The fabric, the L2 and registers -/

/-- The request of context 0 for a load, and for a line, with an entry; one of context 36 that waits for an entry, and one held. -/
def loadTxn : Txn := ⟨0, 0, 0x80, 0, 0x1000, 8, .load, none, .reserved, 0, false⟩
def lineTxn : Txn := { loadTxn with kind := .line }
def waitTxn : Txn := ⟨1, 9, 0x80, 36, 0x1000, 8, .load, none, .waiting, 0, false⟩
def heldTxn : Txn := { waitTxn with id := 2, st := .held }
def onFabric (u : Txn) : State := { base [] with txns := [u, waitTxn], nextTxn := 9, ctxs := [(0, { Ctx.boot with run := .fabric 0 })] }

theorem onFabric_wait (u : Txn) (y : Nat) : ((onFabric u).ctx y).run = .fabric 0 ↔ y = 0 := by
  cases y with
  | zero => exact ⟨fun _ => rfl, fun _ => rfl⟩
  | succ n => exact ⟨nofun, nofun⟩

theorem onFabric_held (u : Txn) (hu : u.st = .reserved) :
    ∀ v ∈ (onFabric u).txns, v.st = .held → holderOf v.src ≠ holderOf u.src ∨ v.tgt ≠ u.tgt := by
  intro v hv hs
  simp only [onFabric, List.mem_cons, List.not_mem_nil, or_false] at hv
  rcases hv with rfl | rfl
  · rw [hu] at hs; cases hs
  · cases hs

theorem witness_FabricTransactions_load (h : Obligations.FabricTransactions) :
    Completes (.responseDelivery 0 .good) (onFabric loadTxn) ∧ Completes (.responseDelivery 0 .error) (onFabric loadTxn) ∧
    Completes (.responseDelivery 0 .doubleBit) (onFabric loadTxn) ∧ Completes (.fabricTimeout 0) (onFabric loadTxn) :=
  have g := (h (onFabric loadTxn) (by decide)).1 0 loadTxn (by decide) (by decide) (by decide) (by decide)
      (by decide) (onFabric_wait loadTxn)
    (by decide) (onFabric_held loadTxn rfl)
  ⟨.of (g.2.1 rfl (by decide) noWindows_of (by decide) (by decide)), .of g.2.2.1, .of g.2.2.2.1, .of g.2.2.2.2⟩

theorem witness_FabricTransactions_line (h : Obligations.FabricTransactions) :
    Completes (.responseDelivery 0 .good) (onFabric lineTxn) ∧ Completes (.responseDelivery 8 .good) (onFabric lineTxn) :=
  have g := h (onFabric lineTxn) (by decide)
  ⟨.of ((g.1 0 lineTxn (by decide) (by decide) (by decide) (by decide) (by decide) (onFabric_wait lineTxn) (by decide)
    (onFabric_held lineTxn rfl)).1 (by decide)), .of (g.2.1 8 (by decide) (by decide))⟩

theorem witness_FabricTransactions_entry (h : Obligations.FabricTransactions) : ∃ t, exec .transactionEntryGrant (onFabric loadTxn) = .next t := by
  obtain ⟨w, _, _, hw⟩ := (h (onFabric loadTxn) (by decide)).2.2.1 (by decide)
  exact ⟨_, hw⟩

/-- The request queue of cluster 1 to that target holds a line write and a load. -/
def crediting (txns : List Txn) : State := { base [] with txns := txns, queues := [(creditKey 0 1 0x80, [3, 1])] }

theorem witness_FabricTransactions_credit (h : Obligations.FabricTransactions) :
    Completes (.creditReturn 9 0x80 .req) (crediting []) ∧ Completes (.creditReturn 9 0x80 .req) (crediting [heldTxn]) :=
  ⟨.of ((h (crediting []) (by decide)).2.2.2.1 9 0x80 .req (fun _ ht => by cases ht)),
    .of ((h (crediting [heldTxn]) (by decide)).2.2.2.2 9 0x80 heldTxn (by decide) (by decide) (by decide) (by decide))⟩

theorem witness_CoherenceAndL2_request (h : Obligations.CoherenceAndL2) :
    Completes (.coherenceRequest 0x53 0x1000 true false) (cached0 Word.nil) ∧
    Completes (.coherenceRequest 0x40 0x1000 false false) (cached0 Word.nil) :=
  ⟨.of (h.1 (cached0 Word.nil) 0x53 0x1000 (by decide) (by decide) (by decide) (by decide) (by decide) (by decide) (by decide)
      (by decide)).1,
    .of (h.1 (cached0 Word.nil) 0x40 0x1000 (by decide) (by decide) (by decide) (by decide) (by decide) (by decide) (by decide)
        (by decide)).2⟩

def l2On : State := (cached0 Word.nil).setReg (oCl 0 + 0x1000) 1
def l2Sweeping : State := (cached0 Word.nil).setReg (oCl 0 + 0x1008) 0x8000000000000000
def l2Locking : State := l2On.updCluster 0 fun c => { c with lkJob := some (0x80, 2, 7) }

theorem l2On_hold (u : Nat) : (l2On.twin u).hold = [] := by
  have e : l2On.twins = [(0, (base []).twin 0)] := rfl
  simp only [State.twin, e, Tbl.get, Tbl.look]
  split <;> rfl

theorem witness_CoherenceAndL2_sweep (h : Obligations.CoherenceAndL2) :
    Completes (.l2Sweep core0 0 0) l2On ∧ Completes (.l2SweepEnd 0 []) l2Sweeping :=
  ⟨.of ((h.2 l2On 0 (by decide)).1 core0 0 (by decide) (by decide) (fun u _ => l2On_hold u)), .of ((h.2 l2Sweeping 0 (by decide)).2.1 (by decide))⟩

theorem witness_CoherenceAndL2_lock (h : Obligations.CoherenceAndL2) :
    Completes (.l2LockWrite core0 0 0x80) l2On ∧ Completes (.lockLoad core0 0 0x0007000000000001) l2On ∧
        Completes (.lockLoadEnd 0) l2Locking :=
  ⟨.of ((h.2 l2On 0 (by decide)).2.2.1 core0 0x80 (by decide)),
    .of ((h.2 l2On 0 (by decide)).2.2.2.1 core0 0x0007000000000001 (by decide) (by decide) (by decide)),
    .of ((h.2 l2Locking 0 (by decide)).2.2.2.2 0x80 2 7 (by decide) (by decide))⟩

def erred : State := State.reset.setReg (oEvr + 8) 0x8000000000000000

theorem witness_RegisterWrites (h : Obligations.RegisterWrites) :
    Completes (.registerWrite core0 0x0D1000 0xC000000000000100) State.reset ∧ Completes (.registerWrite core0 0x030FF8 0) State.reset ∧
    Completes (.registerWrite core0 0x0D0008 0x8000000000000000) erred :=
  ⟨.of ((h State.reset core0 0x0D1000 0xC000000000000100 (by decide) (by decide)).1 _ (by decide) (by decide) (by decide) rfl),
    .of (((h State.reset core0 0x030FF8 0 (by decide) (by decide)).2.1 (by decide) (by decide) (by decide) (by decide) (by decide)).2
        (by decide)),
    .of ((h erred core0 0x0D0008 0x8000000000000000 (by decide) (by decide)).2.2 (by decide) (by decide) (by decide))⟩

/-! ### The GC block

Heap 0 has two regions of 1 MiB from 0x10000000, at 0x100000; its Region Table is at 0, the side area of region 0 at 0x80000. -/

def heap0 (ctl rt0 : Pay) (rt1 : Pay := 0x200000000) : State :=
  (((((State.reset.setReg (oHeap 0) 0x10000000).setReg (oHeap 0 + 8) 0x100000).setReg (oHeap 0 + 0x10) 0x10000).setReg (oHeap 0 + 0x20)
    ctl).setWord 0 (Word.raw rt0)).setWord 8 (Word.raw rt1)

theorem witness_GcRegions_set (h : Obligations.GcRegions) :
    Completes (.gcRset core0 0xC000000000000000) (heap0 8 0x80000) ∧ Completes (.gcRset core0 0) (heap0 8 0x8000000000080000) ∧
    Completes (.gcRset core0 0x8000000000000000) State.reset :=
  ⟨.of (((h (heap0 8 0x80000) core0 (by decide) noWindows_of).1 0xC000000000000000 0 (by decide) (by decide) (by decide) (by decide)
      (by decide) (by decide) (by decide)).1 (by decide)),
    .of (((h (heap0 8 0x8000000000080000) core0 (by decide) noWindows_of).1 0 0 (by decide) (by decide) (by decide) (by decide)
        (by decide) (by decide) (by decide)).2
      (by decide) (.inl (by decide))),
    .of ((h State.reset core0 (by decide) noWindows_of).2.1 0x8000000000000000 (by decide) (.inl (by decide)))⟩

theorem witness_GcRegions_alloc (h : Obligations.GcRegions) :
    Completes (.gcRstatLoad core0) State.reset ∧ Completes (.gcHeapAlloc core0 0) (heap0 8 0x8000000000080000) ∧
    Completes (.heapEnable core0 0 8) (heap0 0 0) :=
  ⟨⟨_, (h State.reset core0 (by decide) noWindows_of).2.2.1 (by decide)⟩,
    .of ((h (heap0 8 0x8000000000080000) core0 (by decide) noWindows_of).2.2.2.1 0 0 (by decide) (by decide) (by decide) (by decide)
        (by decide)
      (.inl (by decide))),
    .of ((h (heap0 0 0) core0 (by decide) noWindows_of).2.2.2.2 0 8 (by decide) (by decide) (by decide) (by decide) (by decide) (.inl
        (by decide)))⟩

def ready0 (ctl : Pay) : State := (heap0 ctl 0x80000).setHeapStat 0 63 true

theorem witness_GcPhases_mark (h : Obligations.GcPhases) :
    Completes (.writeMark core0 0 8) (heap0 8 0x80000) ∧ Completes (.writeMark core0 0 8) (heap0 10 0x80000) :=
  ⟨.of (((h (heap0 8 0x80000) core0 0 8 (by decide) noWindows_of (by decide) (by decide)).1 (by decide)).1 (by decide) (by decide)),
    .of (((h (heap0 10 0x80000) core0 0 8 (by decide) noWindows_of (by decide) (by decide)).1 (by decide)).2 (by decide) (by decide)
      (by decide))⟩

theorem witness_GcPhases_next (h : Obligations.GcPhases) :
    Completes (.writeWeak core0 0 8) (ready0 9) ∧ Completes (.writeEvac core0 0 8) (ready0 10) ∧
        Completes (.writeIdle core0 0 8) (ready0 11) :=
  ⟨.of ((h (ready0 9) core0 0 8 (by decide) noWindows_of (by decide) (by decide)).2.1 (by decide) (by decide) (by decide) (by decide)),
    .of ((h (ready0 10) core0 0 8 (by decide) noWindows_of (by decide) (by decide)).2.2.1 (by decide) (by decide) (by decide) (by decide)),
    .of ((h (ready0 11) core0 0 8 (by decide) noWindows_of (by decide) (by decide)).2.2.2.1 (by decide) (by decide) (by decide)
        (by decide))⟩

theorem witness_GcPhases_active (h : Obligations.GcPhases) :
    Completes (.markActive 0) (heap0 9 0x80000) ∧ Completes (.rootsSet core0 0 9) (heap0 9 0x80000) :=
  have g := h (heap0 9 0x80000) core0 0 9 (by decide) noWindows_of (by decide) (by decide)
  ⟨.of (g.2.2.2.2.1 (by decide) (by decide)), .of (g.2.2.2.2.2.1 (by decide) (by decide) (.inl (by decide)))⟩

def rooted : State := heap0 0xC0000009 0x80000
def queued : State := rooted.updCtx 0 fun c => { c with sr := [(Sr.pc, 0x7FFFFFF00000), (Sr.sqb, 0x5000), (Sr.sql, 0x6000), (Sr.sqt, 0x5008)] }

theorem witness_GcPhases_termination (h : Obligations.GcPhases) :
    Completes (.terminationRound 0) rooted ∧ Completes (.terminationRound 0) queued :=
  ⟨.of (((h rooted core0 0 9 (by decide) noWindows_of (by decide) (by decide)).2.2.2.2.2.2.1 (by decide) (by decide) (by decide)
      (by decide)).1 (by decide) (by decide) (by decide)),
    .of (((h queued core0 0 9 (by decide) noWindows_of (by decide) (by decide)).2.2.2.2.2.2.1 (by decide) (by decide) (by decide)
      (by decide)).2 0 (by decide) (by decide) (by decide))⟩

theorem witness_GcPhases_weak (h : Obligations.GcPhases) :
    Completes (.weakEnd 0) (heap0 10 0x80000) ∧ Completes (.weakEnd 0) (heap0 0x10A 0x80000 0) :=
  ⟨.of (((h (heap0 10 0x80000) core0 0 8 (by decide) noWindows_of (by decide) (by decide)).2.2.2.2.2.2.2 (by decide) (by decide)
      (by decide)).1 (by decide)),
    .of (((h (heap0 0x10A 0x80000 0) core0 0 8 (by decide) noWindows_of (by decide) (by decide)).2.2.2.2.2.2.2 (by decide) (by decide)
      (by decide)).2 (by decide) (by decide) (fun _ hu => by cases hu))⟩

/-- Engine 0 is on, with what its queues hold. -/
def engine (s : State) (f : Cluster → Cluster) : State := (s.setReg (oSe 0) 1).updCluster 0 f

/-- A byte object at 0x10000000. -/
def marking : State :=
  engine ((heap0 9 0x80000).setWord 0x100000 ⟨Tag.hdr, 0x4240000000000001⟩) fun c => { c with markQ := [⟨Tag.str, 0x10000000⟩] }

theorem witness_GcEngines_mark (h : Obligations.GcEngines) : Completes (.markEntry 0 .clean) marking :=
  .of ((h marking 0 core0 (by decide) noWindows_of).1 ⟨Tag.str, 0x10000000⟩ [] 0 (by decide) (by decide) (by decide) (by decide) (by decide)
    (by decide) (by decide) (by decide) (by decide) (by decide) (by decide) (by decide) (by decide) (by decide) (by decide) (by decide)
        (by decide))

def carded (w : Word) : State := engine ((heap0 8 0x1000000000080000).setWord 0x100008 w) fun c => { c with cardQ := [(0, 0)] }

theorem witness_GcEngines_card (h : Obligations.GcEngines) :
    Completes (.cardScan 0 .clean) (carded Word.t) ∧ Completes (.cardScan 0 .clean) (carded ⟨Tag.vec, 0x10100000⟩) :=
  ⟨.of (((h (carded Word.t) 0 core0 (by decide) noWindows_of).2.1 0 0 [] 0 (by decide) (by decide) (by decide) (by decide) (by decide)
      (by decide)
      (.inl (by decide))).1 (by decide)),
    .of (((h (carded ⟨Tag.vec, 0x10100000⟩) 0 core0 (by decide) noWindows_of).2.1 0 0 [] 0 (by decide) (by decide) (by decide)
        (by decide) (by decide)
      (by decide) (.inl (by decide))).2.1 ⟨Tag.vec, 0x10100000⟩ 0 (by decide) (by decide) (by decide) (by decide))⟩

/-- The first object of region 0 has moved to 0x10100000. -/
def movedOn : State :=
  engine (((heap0 11 0x7000000000080000).setWord 0x100000 ⟨Tag.fwd, 0x10100000⟩).setWord 0x100008 ⟨Tag.str, 0x10000000⟩) fun c =>
    { c with cardQ := [(0, 0)] }

theorem witness_GcEngines_cardForwarded (h : Obligations.GcEngines) : Completes (.cardScan 0 .clean) movedOn :=
  .of (((h movedOn 0 core0 (by decide) noWindows_of).2.1 0 0 [] 0 (by decide) (by decide) (by decide) (by decide) (by decide)
      (by decide) (.inl (by decide))).2.2
    (by decide) (by decide) (by decide) (.inl (by decide)))

def weakening (mark : BitVec 8) : State :=
  engine (((heap0 10 0x80000).setWord 0x2000 ⟨Tag.weak, 0x10000000⟩).setByte 0x80000 mark) fun c => { c with weakL := [0x2000] }

theorem witness_GcEngines_weak (h : Obligations.GcEngines) :
    Completes (.weakClear ⟨0, .clean⟩) (weakening 0) ∧ Completes (.weakClear ⟨0, .clean⟩) (weakening 1) :=
  ⟨.of (((h (weakening 0) 0 core0 (by decide) noWindows_of).2.2.1 0x2000 0 (by decide) (by decide) (by decide) (by decide) (by decide)
      (by decide) (by decide) (by decide)).1 (by decide)),
    .of (((h (weakening 1) 0 core0 (by decide) noWindows_of).2.2.1 0x2000 0 (by decide) (by decide) (by decide) (by decide) (by decide)
      (by decide) (by decide) (by decide)).2 (by decide))⟩

/-- The marked byte object of region 0, of generation 3 and evacuated by engine 0, is wanted by context 0. -/
def copying : State :=
  (engine (((heap0 11 0x7000000000080000).setWord 0x100000 ⟨Tag.hdr, 0x4240000000000001⟩).setByte 0x80000 1) fun c =>
    { c with copyQ := [⟨0x10000000, 0, none⟩], toReg := [(3, ⟨1, 0⟩)] }).updCtx 0 fun c => { c with run := .copy 0x10000000 }

theorem witness_GcEngines_copy (h : Obligations.GcEngines) : Completes (.engineCopy 0 .clean) copying :=
  .of ((h copying 0 core0 (by decide) noWindows_of).2.2.2.1 0x10000000 0 0 1 0 (by decide) (by decide) (by decide) (by decide)
      (by decide) (by decide)
    (by decide) (by decide) (by decide) (by decide) (by decide) (by decide) (by decide) (by decide) (by decide) (by decide) (by decide)
        (by decide) (.inl (by decide))
    (by decide))

theorem witness_GcEngines_submit (h : Obligations.GcEngines) :
    Completes (.seSatbin core0 0 ⟨0x0000010000003000, .clean⟩) marking ∧ Completes (.seSatbdone core0 0) marking ∧
    Completes (.sePush core0 0 0x10000000) marking ∧ Completes (.seSplim core0 0 0x1000) State.reset ∧
        Completes (.seSplim core0 0 0) marking :=
  have g := h marking 0 core0 (by decide) noWindows_of
  ⟨.of (g.2.2.2.2.1 0x0000010000003000 1 (by decide) (by decide) (by decide) (by decide) (by decide) (by decide) (by decide)),
    ⟨_, g.2.2.2.2.2.1 (by decide) (by decide)⟩, .of (g.2.2.2.2.2.2.1 0x10000000 (by decide) (by decide) (by decide) (by decide)),
    .of (((h State.reset 0 core0 (by decide) noWindows_of).2.2.2.2.2.2.2.2.2 0x1000 (by decide)).1 (.inr (by decide))),
    .of ((g.2.2.2.2.2.2.2.2.2 0 (by decide)).2 (by decide) (by decide))⟩

theorem witness_GcEngines_evreq (h : Obligations.GcEngines) :
    Completes (.seEvreq core0 0 0x10) marking ∧ Completes (.seEvreq core0 0 0x10000000) copying :=
  ⟨.of (((h marking 0 core0 (by decide) noWindows_of).2.2.2.2.2.2.2.1 0x10 (by decide)).1 (by decide)),
    .of (((h copying 0 core0 (by decide) noWindows_of).2.2.2.2.2.2.2.1 0x10000000 (by decide)).2 0 (by decide) (by decide) (by decide))⟩

def evaced : State := engine State.reset fun c => { c with evreq := [(0, .ended 5)] }

theorem witness_GcEngines_evdone (h : Obligations.GcEngines) : Completes (.seEvdone core0 0) evaced :=
  ⟨_, (h evaced 0 core0 (by decide) noWindows_of).2.2.2.2.2.2.2.2.1 5 (by decide) rfl⟩

theorem witness_RegionsAndVectors (h : Obligations.RegionsAndVectors) :
    Completes (.prtWrite core0 63 true 0x20) State.reset ∧ Completes (.prtWrite core0 63 true 0x20) (State.reset.setReg (oSec + 0xF00) 1) ∧
    Completes (.prtLock core0) State.reset ∧ Completes (.prtCtlLoad core0) State.reset ∧
        Completes (.secR0tvbWrite core0 0x8000) State.reset :=
  have g := h State.reset core0 (by decide)
  have g' := h (State.reset.setReg (oSec + 0xF00) 1) core0 (by decide)
  ⟨.of ((g.1 63 true 0x20 _ (by decide) rfl).1 (by decide)), ⟨_, (g'.1 63 true 0x20 _ (by decide) rfl).2 (by decide)⟩,
    .of (g.2.1 (by decide)), ⟨_, g.2.2.1 (by decide)⟩, .of (g.2.2.2 0x8000 (by decide))⟩


/-! ### Twins -/

/-- Twin t is as w says. -/
def withTwin (t : Nat) (w : Twin) : State := { State.reset with twins := [(t, w)] }

/-- Twin 5 is in the mode m. -/
def twin5 (m : TwinMode) : State := withTwin 5 { Twin.reset with mode := m }

theorem witness_TwinTransitions_starts (h : Obligations.TwinTransitions) :
    Completes (.split core0 5) (twin5 .tight) ∧ Completes (.join core0 5 true) (twin5 .split) ∧
    Completes (.loose core0 1) (withTwin 1 Twin.reset) ∧ Completes (.solo core0 5 true) (twin5 .split) ∧
    Completes (.twinFence core0 5) (twin5 .tight) ∧ Completes (.unfence core0 5) (twin5 .fenced) :=
  ⟨.of (((h (twin5 .tight) (.split core0 5) core0 5 .split false false 1 (by decide) rfl).1 (by decide) (by decide)).1 (by decide) rfl rfl),
    .of (((h (twin5 .split) (.join core0 5 true) core0 5 .join false true 2 (by decide) rfl).1 (by decide) (by decide)).1
        (by decide) rfl rfl),
    .of (((h (withTwin 1 Twin.reset) (.loose core0 1) core0 1 .loose false false 3 (by decide) rfl).1 (by decide) (by decide)).1 (by decide)
      rfl rfl),
    .of (((h (twin5 .split) (.solo core0 5 true) core0 5 .solo true false 4 (by decide) rfl).1 (by decide) (by decide)).1
        (by decide) rfl rfl),
    .of (((h (twin5 .tight) (.twinFence core0 5) core0 5 .fence false false 5 (by decide) rfl).1 (by decide) (by decide)).1 (by decide)
      rfl rfl),
    .of (((h (twin5 .fenced) (.unfence core0 5) core0 5 .unfence false false 6 (by decide) rfl).1 (by decide) (by decide)).1 (by decide)
      rfl rfl)⟩

theorem witness_TwinTransitions_illegal (h : Obligations.TwinTransitions) : Completes (.split core0 5) (twin5 .split) :=
  .of (((h (twin5 .split) (.split core0 5) core0 5 .split false false 1 (by decide) rfl).1 (by decide) (by decide)).2 (by decide)
      (by decide)
    (by decide) (by decide))

/-- Twin 5 is on its way from one mode by an operation of TWIN_CMD. -/
def moving5 (op : TwinOp) (before : TwinMode) : State :=
  withTwin 5 { Twin.reset with mode := before, trans := some ⟨op, false, false, true, before, none⟩ }

theorem witness_TwinTransitions_complete (h : Obligations.TwinTransitions) :
    Completes (.twinTransitionComplete 5 true true) (moving5 .split .tight) ∧
    Completes (.twinTransitionComplete 5 true true) (moving5 .join .split) ∧
    Completes (.twinTransitionComplete 5 true false) (moving5 .unfence .fenced) :=
  ⟨.of ((h (moving5 .split .tight) (.split core0 5) core0 5 .split false false 1 (by decide) rfl).2.1 true true .tight rfl rfl rfl
      (by decide) (by decide) (by decide)),
    .of ((h (moving5 .join .split) (.join core0 5 false) core0 5 .join false false 2 (by decide) rfl).2.1 true true .split rfl rfl rfl
      (by decide) (by decide) (by decide)),
    .of ((h (moving5 .unfence .fenced) (.unfence core0 5) core0 5 .unfence false false 6 (by decide) rfl).2.1 true false .fenced rfl rfl rfl
      (by decide) (by decide) (by decide))⟩

/-- A JOIN of the running split twin 2 waits for context 16, which is in the middle of an instruction. -/
theorem witness_TwinTransitions_waits (h : Obligations.TwinTransitions) :
    let s := { withTwin 2 { Twin.reset with mode := .split, trans := some ⟨.join, false, false, true, .split, none⟩ } with
      ctxs := [(16, { Ctx.reset with started := true, inflight := true })] }
    exec (.twinTransitionComplete 2 true true) s = .next s :=
  (h _ (.join core0 2 false) core0 2 .join false false 2 (by decide) rfl).2.2 true true (by decide) rfl

/-- Twin 5 runs in tight mode, and its window is full. -/
def full5 : State := withTwin 5 { Twin.reset with groups := 1 <<< 15 }

theorem witness_TwinFaults_window (h : Obligations.TwinFaults) :
    Completes (.twinLogack core0 7) (twin5 .tight) ∧ Completes (.windowEnd 5 none) (twin5 .tight) ∧
    Completes (.windowEnd 5 none) full5 ∧ Completes (.windowEnd 5 (some 3)) full5 :=
  have g := (h full5 5 (by decide) rfl).2.1 rfl rfl
  have e := h (twin5 .tight) 5 (by decide) rfl
  ⟨.of (e.1 core0 7 (by decide)), ⟨_, (e.2.1 rfl rfl).1 none (by decide)⟩, .of (g.2.1 none (by decide) (.inl rfl) rfl),
    .of (g.2.2 3 (by decide) (by decide))⟩

/-- Loose twin 1: its leader (context 8) and its shadow (context 12) have presented l and m. -/
def loose1 (l m : List LooseReq) : State :=
  withTwin 1 { Twin.reset with mode := .loose, outL := l.map fun q => ⟨8, q⟩, outS := m.map fun q => ⟨12, q⟩ }

theorem witness_TwinFaults_loose (h : Obligations.TwinFaults) :
    Completes (.outputMatch 1 .good) (loose1 [.ckpt 4] [.ckpt 4]) ∧ Completes (.outputMatch 1 .good) (loose1 [.ckpt 4] [.ckpt 5]) ∧
    Completes (.partnerWaitTimeout 1 false) (loose1 [.ckpt 4] []) :=
  ⟨.of ((((h (loose1 [.ckpt 4] [.ckpt 4]) 1 (by decide) rfl).2.2.1 rfl rfl).1 ⟨8, .ckpt 4⟩ ⟨12, .ckpt 4⟩ [] [] rfl rfl).1 4 rfl rfl
      (by decide)),
    .of ((((h (loose1 [.ckpt 4] [.ckpt 5]) 1 (by decide) rfl).2.2.1 rfl rfl).1 ⟨8, .ckpt 4⟩ ⟨12, .ckpt 5⟩ [] [] rfl rfl).2.2 4 5 rfl rfl
      (by decide)),
    .of (((h (loose1 [.ckpt 4] []) 1 (by decide) rfl).2.2.1 rfl rfl).2 ⟨8, .ckpt 4⟩ [] rfl rfl)⟩

def stored : LooseReq := .store 0x1000 8 (Word.fix 5) 0

/-- The window premise of the store clause is met as well: no window is open. -/
theorem witness_TwinFaults_store (h : Obligations.TwinFaults) : Completes (.outputMatch 1 .good) (loose1 [stored] [stored]) :=
  .of ((((h (loose1 [stored] [stored]) 1 (by decide) rfl).2.2.1 rfl rfl).1 ⟨8, stored⟩ ⟨12, stored⟩ [] [] rfl rfl).2.1 0x1000 (Word.fix 5) 0 0 rfl rfl (by decide) (by decide) noWindows_of)

/-- Twin 5 recovers with cause c. -/
def recovering5 (c : Nat) : State :=
  withTwin 5 { Twin.reset with recov := some ⟨c, 0, Word.raw 0, Word.raw 0, 0, .tight, false⟩ }

theorem witness_TwinFaults_bist (h : Obligations.TwinFaults) :
    Completes (.bistEnd 5 true true) (recovering5 1) ∧ Completes (.bistEnd 5 true false) (recovering5 1) ∧
    Completes (.bistEnd 5 false false) (recovering5 8) :=
  ⟨.of ((h (recovering5 1) 5 (by decide) rfl).2.2.2.1 _ true true rfl rfl rfl rfl rfl),
    .of ((h (recovering5 1) 5 (by decide) rfl).2.2.2.1 _ true false rfl rfl rfl rfl rfl),
    .of ((h (recovering5 8) 5 (by decide) rfl).2.2.2.1 _ false false rfl rfl rfl rfl rfl)⟩

theorem witness_TwinFaults_comparator (h : Obligations.TwinFaults) :
    Completes (.comparatorTest 5 false) (twin5 .tight) ∧ Completes (.comparatorTest 5 true) (twin5 .tight) ∧
    Completes (.delayLineParity 5 true) (twin5 .tight) :=
  have g := (h (twin5 .tight) 5 (by decide) rfl).2.2.2.2
  ⟨⟨_, g.1⟩, .of (g.2.1 (by decide)), .of (g.2.2 true rfl rfl rfl)⟩

/-- A debug unit is attached, at context 20 of core 5 in a split twin 2, which is halted where `halt` says. -/
def debugging (halt : Bool) : State :=
  let c := { Ctx.reset with started := true, halted := halt, regs := [(3, Word.fix 4)] }
  { inMode mRun with sec := { Sec.reset with attached := true }, twins := [(2, { Twin.reset with mode := .split })], ctxs := [(20, c)] }

theorem witness_DebugAccess (h : Obligations.DebugAccess) :
    Completes .debugAttach State.reset ∧ Completes (.debugHalt 5) (debugging false) ∧ Completes (.debugResume 5) (debugging true) ∧
    Completes (.debugStep 20) (debugging true) ∧ Completes (.debugRegisterAccess 20 false 3 0 none) (debugging true) ∧
    Completes (.debugRegisterAccess 20 false 3 0 (some Word.t)) (debugging true) ∧
    Completes (.debugMemoryAccess 0x1000 none) (debugging true) ∧ Completes (.debugMemoryAccess 0x1000 (some Word.t)) (debugging true) :=
  have g := (h (debugging true) (by decide)).2 (by decide)
  have x := g.2.1 20 (by decide)
  have m := g.2.2 0x1000 (by decide) (by decide) (by decide) noWindows_of (by decide)
  ⟨.of ((h State.reset (by decide)).1 (by decide) rfl), .of ((((h (debugging false) (by decide)).2 (by decide)).1 5).1 (.inl rfl) rfl (by decide)),
    .of ((g.1 5).2 (by decide)),
    .of x.1, ⟨_, (x.2 3 0 (by decide)).1⟩, .of ((x.2 3 0 (by decide)).2 Word.t (by decide)), .of m.1, .of (m.2 Word.t)⟩

/-! ### The Command Engine and the Ledger -/

/-- A packet of a CRC stream (R528, R532). -/
def packet (stream op seq flags : Nat) (ps : List (BitVec 8)) : List (BitVec 8) :=
  let b := leBytes 2 0xC7A5 ++ leBytes 1 1 ++ leBytes 1 flags ++ leBytes 2 stream ++ leBytes 2 op ++ leBytes 6 seq ++ leBytes 2 ps.length
    ++ leBytes 16 0 ++ ps
  b ++ leBytes 4 (crc32c b)

def crcStream (transport : Nat) : Stream := { defaultStream 5 with st := 1, transport := transport, crc := true, credits := 4 }

/-- In Run, with JNV good and every transport on: CRC streams 5 by UDP and 6 by PCIe controller 0, which is an endpoint with its queue
pair 0 enabled; stream 4 is the Service Port's. -/
def ledger : State :=
  let pair := { QPair.empty with en := true, sqLog := 4, cqLog := 4 }
  let l := { Ldg.reset with live := { Led.empty with streams := [(5, crcStream 0), (6, crcStream 1)] }, pairs := [(0, pair)] }
  let s := ((((inMode mRun).setReg (oPwr + 0x18) 0x8000000000000000).setReg (oCe + 0x10) 0x1F).setReg (oPcie + 0x100)
    0x8000000000000000).setReg (oLdg + 0x18) 0x100000000
  { s with ldg := l }

theorem Completes.of2 {c : Instr} {s : State} {P : State → Reply → Prop} (h : ∃ t r, exec c s = .next t ∧ P t r) : Completes c s :=
  h.imp fun _ p => p.elim fun _ q => q.1

def peer : Peer := { port := 0, addr := [], udp := 4660, here := [] }

theorem witness_PacketsAndQueries_arrival (h : Obligations.PacketsAndQueries) :
    Completes (.udpDatagram peer (packet 5 0x1000 1 0 [7])) ledger ∧
    Completes (.sqTailDoorbell 0 0 1 [⟨packet 6 0x1000 1 0 [7], 37, 0, 0, 0⟩]) ledger ∧
    Completes (.spWritePacket (packet 4 0x20 1 0 [0, 0, 0, 0, 9])) ledger :=
  have g := h.1 ledger 0 (by decide +kernel)
  ⟨.of (g.1 peer _ (by decide +kernel) (by decide +kernel) (by decide +kernel)),
    .of (g.2.1 0 0 1 ⟨packet 6 0x1000 1 0 [7], 37, 0, 0, 0⟩ (by decide +kernel) (by decide +kernel) (by decide +kernel) (by decide +kernel) (by decide +kernel) (by decide +kernel)),
    .of (g.2.2.1 _ (by decide +kernel) (by decide +kernel) (by decide +kernel))⟩

def aReply : Reply := { stream := 4, opcode := 0, seq := 0, flags := 0, status := 0, credit := 0, lpos := 0, appcode := 0, result := [] }

def replying : State :=
  let pair := { QPair.empty with en := true, sqLog := 4, cqLog := 4, cqHead := 1, wait := [⟨.pcie 0 0 0 0 0, aReply⟩] }
  { ledger with ldg := { ledger.ldg with pairs := [(0, pair)], spQ := [⟨.sp, aReply⟩] } }

theorem witness_PacketsAndQueries_replies (h : Obligations.PacketsAndQueries) :
    Completes (.cqHeadDoorbell 0 0 0 []) replying ∧ Completes .spReadReply replying ∧ Completes .spReadReply ledger ∧
    Completes .spReadStatus ledger :=
  ⟨.of ((h.1 replying 0 (by decide)).2.2.2.1 0 0 0 _ (by decide) (by decide) rfl rfl (by decide)),
    .of ((h.1 replying 0 (by decide)).2.2.2.2.1 _ [] rfl rfl), ⟨_, (h.1 ledger 0 (by decide)).2.2.2.2.2.1 rfl⟩,
    ⟨_, (h.1 ledger 0 (by decide)).2.2.2.2.2.2⟩⟩

/-- The identity stands, and a report has been made. -/
def attested : State := { ledger.setSecStat 63 true with sec := { Sec.reset with report := [1, 2, 3] } }
def nonce : List (BitVec 8) := List.replicate 32 5

theorem witness_PacketsAndQueries_queries (h : Obligations.PacketsAndQueries) :
    Completes (.status .sp (packet 4 0 0 4 [])) attested ∧ Completes (.streamInfo .sp (packet 4 1 0 4 [5, 0])) attested ∧
    Completes (.telemRead .sp (packet 4 2 0 4 [0, 0, 0, 0, 1, 0])) attested ∧
    Completes (.attestRead .sp (packet 4 4 0 4 [1, 0, 0, 0])) attested ∧ Completes (.status .sp (packet 4 0 0 4 [1])) attested ∧
    Completes (.attest .sp (packet 4 3 0 4 nonce)) attested :=
  have g := fun i bs op (q : queryRow i = some (.sp, bs, op)) => (h.2 attested (by decide +kernel)).1 i .sp bs op q (by decide +kernel)
  ⟨.of2 ((g _ _ _ rfl (by decide +kernel) (by decide +kernel) (by decide +kernel)).1 _ rfl),
    .of2 ((g _ _ _ rfl (by decide +kernel) (by decide +kernel) (by decide +kernel)).1 _ rfl),
    .of2 ((g _ _ _ rfl (by decide +kernel) (by decide +kernel) (by decide +kernel)).1 _ rfl),
    .of2 ((g _ _ _ rfl (by decide +kernel) (by decide +kernel) (by decide +kernel)).1 _ rfl),
    .of2 ((g _ _ _ rfl (by decide +kernel) (by decide +kernel) (by decide +kernel)).2.1 (by decide +kernel) (by decide +kernel)),
    .of ((g _ _ _ rfl (by decide +kernel) (by decide +kernel) (by decide +kernel)).2.2 rfl (by decide +kernel) rfl (by decide +kernel) (by decide +kernel))⟩

theorem witness_PacketsAndQueries_signed (h : Obligations.PacketsAndQueries) :
    Completes .attestSigned { attested with sec := { Sec.reset with att := some ⟨.sp, 4, 4, nonce, [1]⟩ } } :=
  .of ((h.2 { attested with sec := { Sec.reset with att := some ⟨.sp, 4, 4, nonce, [1]⟩ } } (by decide)).2 _ rfl (by decide))

/-- Command 1 of a stream waits in slot 3. -/
def cmdOf (stream op : Nat) (ps : List (BitVec 8)) : Slot :=
  { stream := stream, seq := 1, hdr := (packet stream op 1 0 ps).take 32, params := ps, trailer := [], gen := 2, page := false,
    accepted := 0, attempt := 0, emit := 0, replay := false, st := .waiting, status := 0, appcode := 0, result := [], effs := [],
    next := 0, bytes := 0, replied := false, mirrorWait := false, via := .sp }

/-- The Ledger holds this command alone, in slot 3; stream 5 is a CRC stream, and index 9 has a key. -/
def withCmd (v : Slot) : State :=
  let l := { Led.empty with streams := [(5, crcStream 0)], slots := [(3, v)], keys := [(9, ⟨some false, [1]⟩)] }
  { ledger with ldg := { Ldg.reset with live := l } }

theorem alone_withCmd (v : Slot) (hv : v.effs = []) : (withCmd v).alone 3 v :=
  ⟨rfl, hv, (by decide : ∀ e ∈ [(5, crcStream 0)], e.2.st ≠ 2), rfl, rfl, rfl⟩

/-- Stream 9, by transport 0, with 4 credits, contexts 1 and 2, STRM allowed. -/
def openParams : List (BitVec 8) := [9, 0, 0, 0, 4, 0, 1, 2, 1, 0, 0, 0, 0, 0, 0, 0]

theorem witness_ManagementCommands_streams (h : Obligations.ManagementCommands) :
    Completes (.streamOpen 3) (withCmd (cmdOf 4 0x10 openParams)) ∧ Completes (.streamOpen 3) (withCmd (cmdOf 4 0x10 [])) ∧
    Completes (.streamClose 3) (withCmd (cmdOf 4 0x11 [5, 0])) ∧ Completes (.streamClose 3) (withCmd (cmdOf 4 0x11 [4, 0])) :=
  have g := fun op ps c => h (withCmd (cmdOf 4 op ps)) 3 (cmdOf 4 op ps) c (alone_withCmd _ rfl)
  ⟨.of (((g 0x10 openParams (by decide)).1 (by decide)).1 (by decide) (by decide) (by decide) (by decide) (by decide) (by decide)
      (by decide) (by decide) (by decide) (by decide)),
    .of (((g 0x10 [] (by decide)).1 (by decide)).2 (by decide)),
    .of (((g 0x11 [5, 0] (by decide)).2.1 (by decide) rfl).1 (by decide) (by decide) (by decide)),
    .of (((g 0x11 [4, 0] (by decide)).2.1 (by decide) rfl).2 (by decide))⟩

theorem keyBlob_empty (s : State) (h : s.ldg.blobLen = 0) (n : Nat) : s.keyBlob n = (apBadParam, none, none) := by
  unfold State.keyBlob
  exact if_pos (.inl (by omega))

theorem witness_ManagementCommands_keys (h : Obligations.ManagementCommands) :
    Completes (.blobPut 3) (withCmd (cmdOf 4 0x20 [0, 1, 0, 0, 7, 8])) ∧ Completes (.keySet 3) (withCmd (cmdOf 4 0x21 [])) :=
  have g := fun op ps c => h (withCmd (cmdOf 4 op ps)) 3 (cmdOf 4 op ps) c (alone_withCmd _ rfl)
  ⟨.of ((g 0x20 [0, 1, 0, 0, 7, 8] (by decide)).2.2.1 (by decide) (by decide) (by decide)),
    .of (((g 0x21 [] (by decide)).2.2.2.1 (by decide) rfl).2 apBadParam none none (keyBlob_empty _ rfl _) (by decide))⟩

theorem witness_ManagementCommands_modes (h : Obligations.ManagementCommands) :
    Completes (.modeReq 3) (withCmd (cmdOf 4 0x30 [4])) ∧
    Completes (.modeReq 3) ((withCmd (cmdOf 4 0x30 [0])).setReg 0x20 1) :=
  ⟨.of (((h (withCmd (cmdOf 4 0x30 [4])) 3 (cmdOf 4 0x30 [4]) (by decide) (alone_withCmd _ rfl)).2.2.2.2 (by decide) rfl (by decide)).1
      (by decide) (by decide) rfl),
    .of (((h ((withCmd (cmdOf 4 0x30 [0])).setReg 0x20 1) 3 (cmdOf 4 0x30 [0]) (by decide)
      ⟨rfl, rfl, by decide, rfl, rfl, rfl⟩).2.2.2.2 (by decide) rfl (by decide)).2 (by decide) (by decide))⟩

/-- Command 1 of stream 5 waits in slot 3, and dispatch is on; core 0 is in split mode. -/
def dispatching : State :=
  { (withCmd (cmdOf 5 0x1000 [7])).setReg (oLdg + 0x10) 1 with twins := split0 }

theorem witness_DispatchAndCommit_dispatch (h : Obligations.DispatchAndCommit) : Completes (.dispatch 3) dispatching :=
  .of ((h dispatching core0 0 3 (cmdOf 5 0x1000 [7]) (by decide) noWindows_of).1 rfl rfl (by decide) (by decide) (by decide) (by decide)
    (by decide) rfl (by decide) rfl (by decide) rfl rfl rfl (by decide))

/-- Context 0 has the command of slot 3, whose LPOS is 0x40003, in its mailbox; m is the mailbox. -/
def mailing (m : Mail) (v : Slot) : State := { withCmd v with ldg := { (withCmd v).ldg with mail := [(0, m)] } }
def sentCmd : Slot := { cmdOf 5 0x1000 [7] with st := .sent 0 }
def runningCmd : Slot := { cmdOf 5 0x1000 [7] with st := .running 0 }

theorem witness_DispatchAndCommit_next (h : Obligations.DispatchAndCommit) :
    Completes (.ldgNext core0 0) (mailing { Mail.empty with next := some 0x40003 } sentCmd) ∧
    Completes (.ldgNext core0 0) (mailing Mail.empty runningCmd) ∧
    Completes (.ldgAck core0 0) (mailing { Mail.empty with ack := some 5 } runningCmd) ∧
    Completes (.ldgImgbaseWrite core0 0x40000) (mailing Mail.empty runningCmd) :=
  have g := h (mailing Mail.empty runningCmd) core0 0 3 runningCmd (by decide) noWindows_of
  ⟨.of (((h (mailing { Mail.empty with next := some 0x40003 } sentCmd) core0 0 3 sentCmd (by decide) noWindows_of).2.1
      (by decide)).1 0x40003 rfl
      (by decide)),
    ⟨_, (g.2.1 (by decide)).2 rfl⟩,
    .of ((h (mailing { Mail.empty with ack := some 5 } runningCmd) core0 0 3 runningCmd (by decide) noWindows_of).2.2.2.1 (by decide) rfl),
    .of (g.2.2.2.2.1 0x40000 (by decide) rfl)⟩

/-- A descriptor at 0x1000. -/
def described (s : State) (w0 w1 w2 w3 : Pay) : State :=
  (((s.setWord 0x1000 (Word.raw w0)).setWord 0x1008 (Word.raw w1)).setWord 0x1010 (Word.raw w2)).setWord 0x1018 (Word.raw w3)
/-- An EFFPUT of a word to register 8 of PLS, held. -/
def putting (v : Slot) : State := described (withCmd v) 0x3000000000040003 8 0x2000 8
/-- A COMMIT, DONE (1) or FAILED (2), with code 6 and a result of one byte. -/
def committing (kind : Pay) (v : Slot) : State := described (withCmd v) (kind <<< 62 ||| 0x40003) 6 0x2000 1

theorem witness_DispatchAndCommit_effput (h : Obligations.DispatchAndCommit) :
    Completes (.ldgEffput core0 0 0x1000) (putting runningCmd) ∧ Completes (.ldgEffput core0 0 0x1000) (putting sentCmd) :=
  ⟨.of ((((h (putting runningCmd) core0 0 3 runningCmd (by decide) noWindows_of).2.2.1 0x1000 (by decide)).1 (by decide)).1 (by decide)
      (by decide) (by decide) (by decide) (by decide) (by decide) (by decide)),
    .of ((((h (putting sentCmd) core0 0 3 sentCmd (by decide) noWindows_of).2.2.1 0x1000 (by decide)).1 (by decide)).2 (by decide))⟩

theorem witness_DispatchAndCommit_commit (h : Obligations.DispatchAndCommit) :
    Completes (.ldgCommit core0 0 0x1000) (committing 1 runningCmd) ∧ Completes (.ldgCommit core0 0 0x1000) (committing 2 runningCmd) ∧
    Completes (.ldgCommit core0 0 0x1000) (committing 1 sentCmd) :=
  have al : ∀ k, (committing k runningCmd).alone 3 runningCmd := fun _ => ⟨rfl, rfl, (by decide : ∀ e ∈ [(5, crcStream 0)], e.2.st ≠ 2), rfl, rfl, rfl⟩
  ⟨.of ((((h (committing 1 runningCmd) core0 0 3 runningCmd (by decide) noWindows_of).2.2.1 0x1000 (by decide)).2 (by decide)).1 (by decide)
      (al 1) (by decide) (by decide) (by decide) (by decide) (by decide) (by decide) (by decide) (by decide) |>.1 (by decide)),
    .of ((((h (committing 2 runningCmd) core0 0 3 runningCmd (by decide) noWindows_of).2.2.1 0x1000 (by decide)).2 (by decide)).1
        (by decide)
      (al 2) (by decide) (by decide) (by decide) (by decide) (by decide) (by decide) (by decide) (by decide) |>.2 (by decide)),
    .of ((((h (committing 1 sentCmd) core0 0 3 sentCmd (by decide) noWindows_of).2.2.1 0x1000 (by decide)).2 (by decide)).2 (by decide))⟩

def dueCmd : Slot := { cmdOf 5 0x1000 [] with hdr := (cmdOf 5 0x1000 []).hdr.take 16 ++ leBytes 16 7 }
def anEff : Eff := ⟨0, 3, 8, false, 0, 8, [], .released⟩
def endedCmd : Slot := { cmdOf 5 0x1000 [] with st := .ended, replied := true, status := 2, effs := [anEff] }

theorem witness_DispatchAndCommit_ends (h : Obligations.DispatchAndCommit) :
    Completes (.deadline 3) (withCmd dueCmd) ∧ Completes (.effectComplete 3 2 0) (withCmd endedCmd) :=
  ⟨.of ((h (withCmd dueCmd) core0 0 3 dueCmd (by decide) noWindows_of).2.2.2.2.2.1 (alone_withCmd _ rfl) (by decide) rfl),
    .of ((h (withCmd endedCmd) core0 0 3 endedCmd (by decide) noWindows_of).2.2.2.2.2.2 anEff 2 0 rfl
        (by decide) ⟨rfl, rfl, rfl⟩ rfl rfl rfl rfl
      rfl rfl rfl)⟩

/-! The journal and the mirror -/

def booting : State := { State.reset with ldg := { Ldg.reset with trained := true } }
def rebuilding : State := booting.setLdgStat 63 true

theorem witness_JournalAndMirror_journal (h : Obligations.JournalAndMirror) :
    Completes (.journalDrain []) State.reset ∧ Completes .ledgerRebuild booting ∧ Completes .ledgerRebuildEnd rebuilding ∧
    Completes (.restore core0 (some Led.empty)) State.reset :=
  have g := h State.reset 0 (by decide)
  ⟨.of g.1, .of ((h booting 0 (by decide)).2.1 (by decide) rfl (by decide) (by decide)),
    .of ((h rebuilding 0 (by decide)).2.2.1 (by decide) rfl (by decide)),
    .of (g.2.2.2.2.2.2.2 core0 Led.empty (by decide) (by decide) (by decide) rfl)⟩

def waitingCmd : Slot := { cmdOf 5 0x1000 [] with mirrorWait := true }
/-- A mirror is on, with its key; slot 3 has been sent to it. -/
def mirrored (l : Led) : State :=
  { State.reset.setReg (oLdg + 0x28) 1 with ldg := { Ldg.reset with live := { l with keys := [(kMirror, ⟨some false, [1]⟩)] }, mirQ := [(3, 0)], resync := true } }

theorem witness_JournalAndMirror_mirror (h : Obligations.JournalAndMirror) :
    Completes (.mirrorWrite true 0x1000 [Word.raw 9]) (mirrored Led.empty) ∧
    Completes (.mirrorWrite false 0x1000 [Word.raw 9]) (mirrored Led.empty) ∧
    Completes (.mirrorAck 3) (mirrored { Led.empty with slots := [(3, waitingCmd)] }) ∧ Completes (.mirrorTimeout 3) (mirrored Led.empty) ∧
    Completes .mirrorResyncDone (mirrored Led.empty) :=
  have g := h (mirrored Led.empty) 3 (by decide)
  have m := g.2.2.2.1 0x1000 (Word.raw 9) (by decide) (by decide) (by decide) (by decide) noWindows_of
  ⟨.of m.1, ⟨_, m.2⟩,
    .of2 ((h (mirrored { Led.empty with slots := [(3, waitingCmd)] }) 3 (by decide)).2.2.2.2.1 waitingCmd 0 rfl rfl rfl rfl (by decide)),
    .of (g.2.2.2.2.2.1 0 rfl rfl), .of (g.2.2.2.2.2.2.1 rfl)⟩

/-! ### The Store Engine

A store of 16 blocks is mounted on drive 0: its map stands at 0x100000, its frames at 0x200000, its transfer queue, of one descriptor, at
0x1000. Block 5 is in frame 0 where `fr` says how. -/

def store (nfr : Nat) (frames : Tbl FrameSt) (m : Pay) (f : Sto → Sto := id) : State :=
  let t := { Sto.reset with mapBase := 0x100000, frpBase := 0x200000, nfr := nfr, drives := 1, frames := frames }
  let s := ((((State.reset.setReg (oSto + 0x18) 0x8000000000000000).setReg (oSto + 0x10) 0x8000003200000001).setReg (oSto + 0x20)
    (atFld 54 28 8191 ||| 15)).setReg (oSto + 0x48) 0x1000).setWord 0x100028 (Word.raw m)
  { s with sto := f t }

def reading (t : Sto) : Sto := { t with reads := [⟨5, [], [], 0, true⟩] }
def goodBlock : DriveBlock := { done := true, magic := true, vg := 0, block := 5, digest := true, words := [(7, Word.t)] }
def twoFrames : State := store 2 [(0, ⟨5, .clean, 0⟩), (1, ⟨6, .clean, 0⟩)] (atFld 62 62 1)

theorem witness_StoreFrames (h : Obligations.StoreFrames) :
    Completes (.driveReadComplete 5 false goodBlock) (store 300 [] 0 reading) ∧
    Completes (.zeroBlockFill 5) (store 300 [] (atFld 63 63 1) reading) ∧ Completes .frameEviction twoFrames ∧
    Completes (.driveReady true) twoFrames :=
  ⟨.of ((((h (store 300 [] 0 reading) (by decide)).1 noWindows_of unpoisoned_of rfl).1 5 0 0 (by decide) (by decide) (by decide) rfl
      (by decide) (by decide) (by decide)).1
      false goodBlock (by decide) (by decide) rfl rfl rfl (by decide) (by decide) rfl),
    .of ((((h (store 300 [] (atFld 63 63 1) reading) (by decide)).1 noWindows_of unpoisoned_of rfl).1 5 0 0 (by decide) (by decide)
        (by decide) rfl (by decide)
      (by decide) (by decide)).2 (by decide)),
    .of (((h twoFrames (by decide)).1 noWindows_of unpoisoned_of rfl).2 0 ⟨5, .clean, 0⟩ (by decide) (by decide) (by decide) (by decide)
        (by decide) (by decide)),
    .of ((h twoFrames (by decide)).2 true)⟩

/-- The store with block 5 in frame 0 under `own`, and in the queue the operation op on it, with the words w1 and w2; command 9 runs. -/
def queue (own : FrameOwn) (pins : Nat) (w0 w1 w2 : Pay) (f : Sto → Sto := id) : State :=
  let s := (store 300 [(0, ⟨5, own, pins⟩)] (atFld 62 62 1) f).setReg (oSto + 0x50) 1
  let s := ((s.setWord 0x1000 (Word.raw (w0 ||| 5))).setWord 0x1008 (Word.raw w1)).setWord 0x1010 (Word.raw w2)
  { s.setReg (oSto + 0x48) 0x1000000001000 with runs := [(0, 9)] }

theorem witness_TransferQueue (h : Obligations.TransferQueue) :
    Completes (.stoXqtail core0 0) ((store 300 [] 0).setWord 0x1000 (Word.raw (atFld 63 60 1))) ∧
    Completes (.read 0 ⟨.clean, .clean⟩) (queue .clean 0 (atFld 63 60 1) 0x20003 0x3000) ∧
    Completes (.fetch 0 .clean) (queue .clean 0 (atFld 63 60 2) 0 0) ∧ Completes (.pin 0 .clean) (queue .clean 0 (atFld 63 60 3) 0 0) ∧
    Completes (.unpin 0 .clean) (queue .clean 1 (atFld 63 60 4) 0 0) :=
  have g := fun own pins w0 w1 w2 c w => (h (queue own pins w0 w1 w2) c w unpoisoned_of).2 0 0 ⟨5, own, pins⟩
  ⟨.of ((h ((store 300 [] 0).setWord 0x1000 (Word.raw (atFld 63 60 1))) (by decide) noWindows_of unpoisoned_of).1 core0 0 (by decide)
      (by decide)),
    .of ((g .clean 0 (atFld 63 60 1) 0x20003 0x3000 (by decide) noWindows_of (by decide) (by decide)).1 (by decide) rfl (by decide)
        (by decide)
      (by decide) (by decide) (.inr (by decide))),
    .of ((g .clean 0 (atFld 63 60 2) 0 0 (by decide) noWindows_of (by decide) (by decide)).2.1 (by decide)),
    .of ((g .clean 0 (atFld 63 60 3) 0 0 (by decide) noWindows_of (by decide) (by decide)).2.2.1 (by decide) (.inr (by decide))),
    .of ((g .clean 1 (atFld 63 60 4) 0 0 (by decide) noWindows_of (by decide) (by decide)).2.2.2.1 (by decide))⟩

/-- The write of slot 0 for a SEAL is under way. -/
def sealing (t : Sto) : Sto := { t with seals := [⟨0, 5, 9, 0, [0]⟩], slots := [(0, 5)], taken := [0] }

theorem witness_TransferQueue_seal (h : Obligations.TransferQueue) :
    Completes (.seal 0 ⟨.clean, .clean⟩) (queue (.opened 9) 0 0x5800000000000000 0x900000000 0) ∧
    Completes (.seal 0 ⟨.clean, .clean⟩) (queue (.opened 9) 0 0x5000000000000000 0x900000000 0) ∧
    Completes (.sealComplete 0) (queue (.opened 9) 0 0x5000000000000000 0x900000000 0 sealing) :=
  have g := fun w0 f c w u => (h (queue (.opened 9) 0 w0 0x900000000 0 f) c w u).2 0 0 ⟨5, .opened 9, 0⟩
  ⟨.of (((g 0x5800000000000000 id (by decide) noWindows_of unpoisoned_of (by decide) rfl).2.2.2.2.1 (by decide) (by decide)
      (by decide)).1 (by decide) (by decide)),
    .of (((g 0x5000000000000000 id (by decide) noWindows_of unpoisoned_of (by decide) rfl).2.2.2.2.1 (by decide) (by decide)
        (by decide)).2 0 (by decide) (by decide) (by decide) (by decide)),
    .of ((g 0x5000000000000000 sealing (by decide) noWindows_of unpoisoned_of (by decide) rfl).2.2.2.2.2 _ rfl rfl
      (by decide) (by decide) (by decide) (by decide) rfl rfl (by decide))⟩

/-- The journal holds n records of seals of a command that has been retired. -/
def journaled (s : State) (n : Nat) : State := s.setJournal (List.replicate n (.sealed 5 (some 0) 9))

theorem witness_StoreVolume_checkpoint (h : Obligations.StoreVolume) :
    Completes .checkpoint (journaled (store 300 [] 0) 1310) ∧
    Completes .checkpointEnd (journaled ((store 300 [] 0).setStoStat 56 true) 3) :=
  ⟨.of ((h (journaled (store 300 [] 0) 1310) (by decide) (by decide)).1 (by decide) (by decide) (by decide +kernel)),
    .of ((h (journaled ((store 300 [] 0).setStoStat 56 true) 3) (by decide) (by decide)).2.1 (by decide) rfl rfl)⟩

/-- No store is mounted; a volume of one block and 8192 slots is set up. -/
def unmounted : State := (State.reset.setReg (oSto + 0x10) 0x8000000000000000).setReg (oSto + 0x20) (atFld 54 28 8191)
def degraded : State := (store 300 [] 0).setStoStat 60 true

theorem witness_StoreVolume_control (h : Obligations.StoreVolume) :
    Completes (.mount core0 0x8000000000000001) unmounted ∧ Completes (.format core0 0x8000000000000001) unmounted ∧
    Completes (.resync core0 0x8000000000000001) degraded ∧ Completes (.stoDisable core0 0x8000000000000001) degraded :=
  have g := (h unmounted (by decide) (by decide)).2.2.1 core0 0x8000000000000001 rfl (by decide) (by decide) (by decide) (by decide)
  have g' := (h degraded (by decide) (by decide)).2.2.1 core0 0x8000000000000001 rfl (by decide) (by decide) (by decide) (by decide)
  ⟨.of (g.1 (by decide) (by decide) (by decide) (by decide)), .of (g.2.1 (by decide) (by decide) (by decide) (by decide) (by decide)),
    .of (g'.2.2.1 (by decide) (by decide) (by decide)), .of (g'.2.2.2 (by decide) (by decide) (by decide) rfl rfl)⟩

/-- A job of the Store Engine runs, with the drives d; drive 1 has been reset. -/
def working (j : StoJob) (d : Nat) : State :=
  { unmounted with sto := { Sto.reset with job := j, drives := d, mapBase := 0x100000, awaiting := [(1, 50)] } }

theorem witness_StoreVolume_ends (h : Obligations.StoreVolume) :
    Completes (.mountEnd (.sb 0x80000 3 15 8191 2 true) .absent (some ⟨[], [(4, 6)]⟩)) (working .mount 1) ∧
    Completes .formatEnd (working .format 1) ∧
    Completes .resyncEnd (working .resync 3) ∧
    Completes (.driveFault true) (working .none 3) ∧ Completes (.driveCommandTimeout true) (working .none 3) :=
  have g := (h (working .none 3) (by decide) (by decide)).2.2.2.2.2.2 true rfl (by decide) (by decide) rfl rfl rfl
  ⟨.of ((h (working .mount 1) (by decide) (by decide)).2.2.2.1 0x80000 3 15 8191 2 true .absent ⟨[], [(4, 6)]⟩ noWindows_of unpoisoned_of
      (by decide) (by decide) rfl rfl (by decide) rfl rfl),
    .of ((h (working .format 1) (by decide) (by decide)).2.2.2.2.1 rfl), .of ((h (working .resync 3) (by decide)
        (by decide)).2.2.2.2.2.1 rfl), .of g.1, .of (g.2 50 rfl)⟩

/-! ### Security -/

/-- An image of one word that is loaded at the start of Keep SRAM and entered there, with key 3, 3, …. -/
def anImage : Image :=
  let hdr := ascii "HR7264IM" ++ [1, 1, 0, 0] ++ leBytes 4 0 ++ leBytes 8 keepBase ++ leBytes 4 1 ++ leBytes 4 0 ++ List.replicate 32 0
    ++ List.replicate 64 3 ++ List.replicate 32 0
  { hdr := hdr, sig := [], body := [1, 2, 3, 4, 5, 6, 7, 8, 5], readErr := false }
def noImage : Image := { hdr := [], sig := [], body := [], readErr := false }
def aKey : List (BitVec 8) := List.replicate 64 3

def keyed : State := { State.reset with sec := { Sec.reset with kslots := [(0, ⟨Config.shake256 aKey 32, 7, true, false⟩)] } }

theorem slotFor_keyed : (keyed.sec.slotFor ((anImage.hdr.drop 64).take 64) 0).isSome = true := by
  have e : (anImage.hdr.drop 64).take 64 = aKey := by decide +kernel
  simp only [e, keyed, Sec.slotFor, Sec.kslot, Tbl.get, Tbl.look, List.find?_isSome, Bool.and_eq_true, decide_eq_true_eq]
  exact ⟨0, by simp, by decide, rfl⟩

theorem witness_BootAndMeasurement_rom (h : Obligations.BootAndMeasurement) :
    Completes (.bootRom true true true anImage anImage) State.reset ∧
    Completes (.bootRom false true true anImage anImage) { State.reset with sec := { Sec.reset with life := 0 } } ∧
    Completes (.bootRom false false true anImage anImage) State.reset ∧ Completes (.bootRom false true true anImage noImage) keyed ∧
    Completes (.bootRom false true true anImage noImage) State.reset :=
  have g := fun fl => (h State.reset (by decide)).1 fl true anImage noImage (by decide) (by decide) (by decide) (by decide)
  ⟨.of ((h State.reset (by decide)).1 true true anImage anImage (by decide) (by decide) (by decide) (by decide)).1,
    .of (((h { State.reset with sec := { Sec.reset with life := 0 } } (by decide)).1 true true anImage anImage (by decide) (by decide)
        (by decide)
      (by decide)).2.1 (by decide)),
    .of (((h State.reset (by decide)).1 true true anImage anImage (by decide) (by decide) (by decide) (by decide)).2.2.1 (by decide)),
    .of (((h keyed (by decide)).1 true true anImage noImage (by decide) (by decide) (by decide) (by decide)).2.2.2.1 (by decide)
      (by decide +kernel) slotFor_keyed (Nat.zero_le _) rfl (by decide)),
    .of ((g true).2.2.2.2 (by decide) (by decide) (by decide +kernel) (Nat.zero_le _) rfl rfl)⟩

theorem witness_BootAndMeasurement_identity (h : Obligations.BootAndMeasurement) :
    Completes (.identityDerivation true) State.reset ∧ Completes (.identityDerivation false) State.reset ∧
    Completes (.secMeasext core0 5) State.reset :=
  have g := (h State.reset (by decide)).2
  ⟨.of (g.1 (by decide) (by decide)).1, .of ((g.1 (by decide) (by decide)).2 rfl), .of (g.2 core0 5 (by decide))⟩

/-- Slot 3 holds the command 0x40003, ended DONE, and index 9 has a key. -/
def doneKey : State := withCmd { cmdOf 4 0x21 [] with st := .ended, status := 2 }

theorem witness_KeysAndFuses_keys (h : Obligations.KeysAndFuses) :
    Completes (.install core0 0x400040009) doneKey ∧ Completes (.install core0 0x400030009) doneKey ∧ Completes (.erase core0 9) doneKey :=
  have g := h doneKey (by decide)
  ⟨.of (((g.1 core0 0x400040009 (by decide)).1 (by decide)).1 rfl),
    .of (((g.1 core0 0x400030009 (by decide)).1 (by decide)).2 _ rfl rfl rfl rfl rfl), .of ((g.1 core0 9 (by decide)).2 (by decide))⟩

def blowing (op : Nat) : State := { State.reset with sec := { Sec.reset with fuse := some ⟨op, 2, 7, 3, [1]⟩ } }

theorem witness_KeysAndFuses_fuses (h : Obligations.KeysAndFuses) :
    Completes (.revokeSlot core0 0x20000) keyed ∧ Completes (.revokeSlot core0 0) keyed ∧ Completes (.rollback core0 3) State.reset ∧
    Completes (.debuglock core0 0) State.reset ∧ Completes (.life core0 3) State.reset ∧ Completes (.progkey core0 0x20000) State.reset ∧
    Completes (.fuseOperationComplete true) (blowing 5) ∧ Completes (.fuseOperationComplete false) (blowing 5) :=
  have g := (h State.reset (by decide)).2.1
  have k := (h keyed (by decide)).2.1
  ⟨.of ((k (.revokeSlot core0 0x20000) core0 _ 1 rfl (by decide) (by decide)).1 (by decide)),
    .of ((k (.revokeSlot core0 0) core0 _ 1 rfl (by decide) (by decide)).2 (by decide)),
    .of ((g (.rollback core0 3) core0 _ 2 rfl (by decide) (by decide)).1 (by decide)),
    .of ((g (.debuglock core0 0) core0 _ 3 rfl (by decide) (by decide)).1 (by decide)),
    .of ((g (.life core0 3) core0 _ 4 rfl (by decide) (by decide)).1 (by decide)),
    .of ((g (.progkey core0 0x20000) core0 _ 5 rfl (by decide) (by decide)).1 (by decide)),
    .of ((h (blowing 5) (by decide)).2.2 _ rfl).1, .of ((h (blowing 5) (by decide)).2.2 _ rfl).2⟩

/-- Sentinel's queue, of two descriptors, at 0x2000: the operation op on 8 bytes at 0x3000, out at 0x4000, key at 0x3100. -/
def keccak (op : Nat) (n : Pay) : State :=
  let s := (State.reset.setReg (oSec + 0x50) 0x1000000002001).setWord 0x2000 (Word.raw 1)
  let s := ((s.setWord 0x2040 (Word.raw (atFld 63 60 op))).setWord 0x2048 (Word.raw 0x3000)).setWord 0x2050 (Word.raw 8)
  ((s.setWord 0x2058 (Word.raw 0x4000)).setWord 0x2060 (Word.raw n)).setWord 0x2068 (Word.raw 0x3100)

theorem witness_KeccakEngine_tail (h : Obligations.KeccakEngine) : Completes (.keccakTail true 0) (keccak 1 32) :=
  .of ((h (keccak 1 32) true (by decide) noWindows_of unpoisoned_of).1 0 (by decide) (by decide) (by decide))

theorem witness_KeccakEngine (h : Obligations.KeccakEngine) :
    Completes (.shake256 true .clean) (keccak 1 32) ∧ Completes (.kmac256 true .clean) (keccak 2 32) ∧
    Completes (.verifySlhDsaShake256s true .clean) (keccak 3 0) ∧ Completes (.verifySlhDsaShake256f true .clean) (keccak 4 0) ∧
    Completes (.shake256 true .bad) (keccak 1 32) :=
  have g := fun op n c => (h (keccak op n) true c (noWindows_of rfl) (unpoisoned_of rfl)).2
  ⟨.of ((g 1 32 (by decide) (1, fun e => .shake256 true e) (by simp) (by decide) (by decide) (by decide) (by decide) (by decide)).2.2
      (by decide)
      (by decide)),
    .of ((g 2 32 (by decide) (2, fun e => .kmac256 true e) (by simp) (by decide) (by decide) (by decide) (by decide) (by decide)).2.2
        (by decide)
      (by decide)),
    .of ((g 3 0 (by decide) (3, fun e => .verifySlhDsaShake256s true e) (by simp) (by decide) (by decide) (by decide) (by decide)
        (by decide)).2.1
      (by decide)),
    .of ((g 4 0 (by decide) (4, fun e => .verifySlhDsaShake256f true e) (by simp) (by decide) (by decide) (by decide) (by decide)
        (by decide)).2.1
      (by decide)),
    .of (g 1 32 (by decide) (1, fun e => .shake256 true e) (by simp) (by decide) (by decide) (by decide) (by decide) (by decide)).1⟩

/-! ### The reserve and the background services -/

/-- In a Reserve that came from Run, with VHOLD at v; FLUSHED where `done` says. -/
def reserved (v : Nat) (pfw done : Bool) : State :=
  { ((inMode mReserve).setPwrStat 60 done).setRf (oPwr + 0x18) 47 32 v with pwr := { Pwr.reset with glaze := some mRun, pfw := pfw } }

theorem witness_Reserve (h : Obligations.ReserveAndCertification) :
    Completes .pfwNAssert (inMode mRun) ∧ Completes .pfwNRelease (reserved 1200 true true) ∧
    Completes .flushComplete (reserved 1200 false false) ∧ Completes .resume (reserved 1200 false true) ∧
    Completes .cutOff (reserved 600 true true) ∧ Completes (.vholdSample 900) (inMode mRun) ∧
    Completes (.vholdSample 600) (reserved 700 true false) :=
  ⟨.of ((h.1 (inMode mRun) (by decide)).1 rfl rfl rfl rfl rfl (by decide) noWindows_of (by decide)),
    .of ((h.1 (reserved 1200 true true) (by decide)).2.1 rfl),
    .of ((h.1 (reserved 1200 false false) (by decide)).2.2.1 mRun rfl (by decide) rfl rfl (by decide) (by decide) (by decide)),
    .of ((h.1 (reserved 1200 false true) (by decide)).2.2.2.1 mRun rfl (by decide) rfl (by decide) rfl (by decide) rfl rfl (by decide)
      (by decide) (by decide)),
    .of ((h.1 (reserved 600 true true) (by decide)).2.2.2.2.1 mRun rfl),
    .of (((h.1 (inMode mRun) (by decide)).2.2.2.2.2 900).1 (.inr rfl) rfl),
    .of (((h.1 (reserved 700 true false) (by decide)).2.2.2.2.2 600).2 mRun (by decide) rfl)⟩

def testing (f : Pwr → Pwr) : State := { inMode mRun with pwr := f Pwr.reset }

theorem witness_Certification (h : Obligations.ReserveAndCertification) :
    Completes (.testgo core0 0) (inMode mRun) ∧ Completes .certTestDue (testing ({ · with okSince := some 5 })) ∧
    Completes .certTestRetry (testing ({ · with retryAt := some 5 })) ∧
    Completes (.certTestEnd 500000 1150) (testing ({ · with test := some ⟨1200, 0⟩ })) ∧
    Completes (.certTestEnd 500000 1190) (testing ({ · with test := some ⟨1200, 0⟩ })) :=
  have g := (h.2 (testing ({ · with test := some ⟨1200, 0⟩ })) (by decide) rfl).2 ⟨1200, 0⟩ 500000
  ⟨.of (((h.2 (inMode mRun) (by decide) rfl).1 rfl rfl rfl).1 core0 0 (by decide) (by decide)),
    .of (((h.2 (testing ({ · with okSince := some 5 })) (by decide) rfl).1 rfl rfl rfl).2.1 5 rfl rfl),
    .of (((h.2 (testing ({ · with retryAt := some 5 })) (by decide) rfl).1 rfl rfl rfl).2.2 5 rfl),
    .of ((g 1150 rfl).1 (by decide) (by decide)), .of ((g 1190 rfl).2 (.inl (by decide)))⟩

/-- In Run with the background services on, the patrol at line n. -/
def serving (n : Nat) : State := ((inMode mRun).setReg (oBgs + 0x10) 7).setReg (oBgs + 0x20) (p64 (64 * n))

theorem witness_BackgroundServices_scrubs (h : Obligations.BackgroundServices) :
    Completes (.patrolRead .clean) (serving 5) ∧ Completes (.patrolRead .clean) (serving 0x7FFFFFF) ∧
    Completes (.patrolRead .bad) (serving 5) ∧ Completes (.l2Scrub 3 .clean) (serving 5) ∧
    Completes (.keepCompare .clean .clean) (serving 5) :=
  have g := h (serving 5) (by decide) (by decide)
  ⟨.of ((g.1 (by decide) (by decide)).1 (by decide)), .of (((h (serving 0x7FFFFFF) (by decide) (by decide)).1 (by decide)
      (by decide)).2.1 (by decide)),
    .of ((g.1 (by decide) (by decide)).2.2 (by decide)), .of (g.2.1 3 (by decide) (by decide) (by decide)), .of (g.2.2.1 (by decide) rfl)⟩

/-- The Keep compare has seen NIL and T at the start of Keep SRAM, which holds a there. -/
def differing (a : Word) : State :=
  { (((serving 5).setWord keepBase a).setWord (keepBase + copyB) Word.t) with bgs := { Bgs.reset with keepDiff := some (0, Word.nil, Word.t) } }

theorem witness_BackgroundServices_recheck (h : Obligations.BackgroundServices) :
    Completes .keepRecheck (differing Word.t) ∧ Completes .keepRecheck (differing Word.nil) :=
  ⟨.of (((h (differing Word.t) (by decide) (by decide)).2.2.2.1 0 Word.nil Word.t rfl).1 (.inl (by decide))),
    .of (((h (differing Word.nil) (by decide) (by decide)).2.2.2.1 0 Word.nil Word.t rfl).2 (by decide) (by decide) (by decide))⟩

def wearing (ws : List Out) : State := { serving 5 with bgs := { Bgs.reset with move := some ⟨3, ws⟩, holds := [(1, 70)] } }

theorem witness_BackgroundServices_moves (h : Obligations.BackgroundServices) :
    Completes (.jnvWearRotation 3) (serving 5) ∧ Completes .jnvMoveSwitch (wearing []) ∧
    Completes .jnvMoveSwitch (wearing [.store 0 0 0x7E0010000000 8 Word.t 0]) ∧ Completes (.zqCalibration 0) (wearing []) ∧
    Completes (.dqsRetraining 0 true) (wearing []) ∧ Completes (.dqsRetraining 0 false) (wearing []) ∧
    Completes (.retrainingHoldEnd 1) (wearing []) ∧ Completes (.mr4Read 1 4) (wearing []) :=
  have g := (h (wearing []) (by decide) (by decide)).2.2.2.2.2
  ⟨.of ((h (serving 5) (by decide) (by decide)).2.2.2.2.1 3 rfl), .of ((g.1 _ rfl).1 rfl),
    .of (((h (wearing [.store 0 0 0x7E0010000000 8 Word.t 0]) (by decide)
        (by decide)).2.2.2.2.2.1 _ rfl).2 0 0 0x7E0010000000 Word.t 0 noWindows_of rfl
      (by decide)),
    .of ((g.2 0).1 rfl rfl).1, .of ((g.2 0).1 rfl rfl).2, ⟨_, (g.2 0).2.1⟩, .of ((g.2 1).2.2.1 70 rfl), .of ((g.2 1).2.2.2 4)⟩

/-! ### Plant interfaces -/

/-- Port 1 is on, with its receive ring at 0x100000 and its transmit ring, of four descriptors each, at 0x1000, whose first descriptor has
a frame of 60 bytes at 0x3000 for queue 2; its address is 10.0.0.1, and the Command Engine takes port 7. -/
def port1 (q : EthPort) (txidx : Pay) : State :=
  let e := oPort 1
  let s := (((State.reset.setReg e 0x8000000000000000).setReg (e + 0x20) 0x8B02000000100000).setReg (e + 0x28) 0x8002000000001000).setReg
    (e + 0x70) txidx
  let s := (s.setReg (e + 0x10) 0x800000000A000001).setReg (oCe + 0x10) 0x70000001F
  { (s.setWord 0x1000 (Word.raw 0x3000)).setWord 0x1008 (Word.raw 0x20000000000003C) with eth := [(1, q)] }

def aFrame : List (BitVec 8) := List.replicate 64 9
/-- A frame with a UDP datagram of 3 bytes from port 8 at 10.0.0.2 to port 7 at 10.0.0.1. -/
def udpFrame : List (BitVec 8) :=
  List.replicate 12 9 ++ [8, 0, 0x45, 0, 0, 31, 0, 0, 0, 0, 64, 17, 0, 0, 10, 0, 0, 2, 10, 0, 0, 1, 0, 8, 0, 7, 0, 11, 0, 0, 1, 2, 3]
    ++ List.replicate 20 0

theorem witness_Ethernet_receive (h : Obligations.EthernetAndPcie) :
    Completes (.ethFrameReceived 1 aFrame (some 5) false) (port1 EthPort.reset 0) ∧
    exec (.ethFrameReceived 1 udpFrame none false) (port1 EthPort.reset 0) =
      exec (.udpDatagram ⟨1, [10, 0, 0, 2], 8, [10, 0, 0, 1]⟩ [1, 2, 3]) (port1 EthPort.reset 0) :=
  have g := h (port1 EthPort.reset 0) 1 (by decide) noWindows_of rfl (by decide)
  ⟨.of ((g.1 aFrame (some 5) (by decide) (by decide) (by decide)).1 (by decide +kernel) (by decide) (by decide) (by decide) (by decide)
      (by decide)),
    (g.1 udpFrame none (by decide) (by decide) (by decide)).2 ⟨false, 8, 7, [10, 0, 0, 2], [10, 0, 0, 1], [1, 2, 3]⟩ (by decide +kernel)
      (by decide) (by decide) rfl⟩

def queued1 : EthPort := { EthPort.reset with queues := [(2, [⟨.ring 0, []⟩])] }

theorem witness_Ethernet_send (h : Obligations.EthernetAndPcie) :
    Completes (.ethTxTail core0 1 0x100000000) (port1 EthPort.reset 0) ∧
        Completes (.ethTxComplete 1 2 .clean) (port1 queued1 0x100000000) :=
  ⟨.of ((h (port1 EthPort.reset 0) 1 (by decide) noWindows_of rfl (by decide)).2.1 core0 0x100000000 (by decide) (by decide) (by decide)
      (by decide)
      (by decide) (by decide) (by decide) (by decide)),
    .of ((h (port1 queued1 0x100000000) 1 (by decide) noWindows_of rfl (by decide)).2.2.1 2 [] (by decide) (by decide) (by decide)
        (by decide) (by decide)
      (by decide) (by decide) (by decide) (by decide))⟩

def aList : GateList := ⟨[(255, 100), (1, 200)], 70⟩
def gated1 : State := port1 { EthPort.reset with standby := some aList, active := some aList, entryEnd := 90 } 0

theorem list0 : ((port1 EthPort.reset 0).words 0 1).map (·.pay) = [0] := by decide

theorem witness_Ethernet_gates (h : Obligations.EthernetAndPcie) :
    Completes (.ethGbaseWrite core0 1 70) (port1 EthPort.reset 0) ∧ Completes (.gateListSwitch 1) gated1 ∧
    Completes (.gateEntryExpiry 1) gated1 :=
  have g := (h gated1 1 (by decide) noWindows_of rfl (by decide)).2.2.2.2
  ⟨.of ((h (port1 EthPort.reset 0) 1 (by decide) noWindows_of rfl (by decide)).2.2.2.1 core0 70 (by decide)
      (fun w hw => by rw [List.mem_singleton.mp (list0 ▸ hw : w ∈ [(0 : Pay)])]; rfl) (by decide)),
    .of (g.1 aList rfl (by decide)), .of (g.2.1 aList rfl)⟩

def rooted0 : State := ((State.reset.setReg (oPcieC 0) 0x8000000000000100).setReg (oPcieC 0 + 8) 0x1000).setReg (oPcieC 0 + 0x10) 0x9000

theorem witness_Pcie (h : Obligations.EthernetAndPcie) :
    Completes (.pcieInboundRequest 0 0x2000 true [1, 2, 3] ⟨0, .clean⟩) rooted0 ∧
    Completes (.pcieInboundRequest 0 0xFFFF false [] ⟨64, .clean⟩) rooted0 ∧
        Completes (.pcieInboundRequest 0 0x2000 false [] ⟨64, .bad⟩) rooted0 ∧
    Completes (.pcieInboundRequest 0 0x2000 false [] ⟨64, .clean⟩) rooted0 ∧ Completes (.pcieLinkEvent 0) rooted0 :=
  have g := (h rooted0 0 (by decide) noWindows_of rfl (by decide)).2.2.2.2.2.2 0
  ⟨.of ((g 0x2000 [1, 2, 3] 0 (by decide) (by decide)).1 (by decide) (by decide) (by decide) (by decide)),
    .of ((g 0xFFFF [] 64 (by decide) (by decide)).2.1 (by decide) (.inr (by decide))),
    .of ((g 0x2000 [] 64 (by decide) (by decide)).2.2.1 (by decide) (by decide) (by decide) (by decide)).1,
    .of (((g 0x2000 [] 64 (by decide) (by decide)).2.2.1 (by decide) (by decide) (by decide) (by decide)).2 (by decide)),
    ⟨_, (g 0 [] 0 (by decide) (by decide)).2.2.2.1 (by decide)⟩⟩

/-- Channel 2 is on, with its receive ring, of two entries, at 0x8000 where `ring` says, and the status st. -/
def chan2 (ring : Bool) (st : Pay) : State :=
  let o := oChan 2
  ((State.reset.setReg o 0x8800000000000000).setReg (o + 0x18) (if ring then 0x8001000000008000 else 0)).setReg (o + 0x28) st

def canEff : Eff := { anEff with kind := 2, target := 2, data := List.replicate 8 1 }
def canCmd : Slot := { endedCmd with effs := [canEff] }
def sending2 : State :=
  { withCmd canCmd with can := [(2, { CanCh.reset with txq := [(3, 2, 0)] })] } |>.setReg (oChan 2) 0x8000000000000000

theorem witness_CanChannels (h : Obligations.CanChannels) :
    Completes (.canFrameReceived 2 0x200000123 false false [1, 2]) (chan2 true 0) ∧
    Completes (.canFrameReceived 2 0x200000123 false false [1, 2]) (chan2 false 0) ∧ Completes (.canFrameSent 2) sending2 ∧
    Completes (.canBusOff 2) (chan2 true 0) ∧ Completes (.canBusOffRecovery 2) (chan2 true 0x8000000000000000) ∧
    Completes (.canErrorPassive 2 130 7) (chan2 true 0) :=
  have g := h (chan2 true 0) 2 (by decide) noWindows_of rfl (by decide) (by decide)
  ⟨.of ((g.1 0x200000123 false false [1, 2] (by decide) (by decide) rfl (.inr (by decide))).1 (by decide) (by decide) (by decide)
      (by decide)),
    .of (((h (chan2 false 0) 2 (by decide) noWindows_of rfl (by decide) (by decide)).1 0x200000123 false false [1, 2] (by decide)
        (by decide) rfl
      (.inr (by decide))).2 (by decide)),
    .of ((h sending2 2 (by decide) noWindows_of rfl (by decide) (by decide)).2.1 3 canCmd canEff [] rfl
        (by decide) ⟨rfl, rfl, rfl⟩ rfl rfl rfl rfl rfl
      (by decide) rfl),
    .of (g.2.2.1 (by decide)),
    .of ((h (chan2 true 0x8000000000000000) 2 (by decide) noWindows_of rfl (by decide) (by decide)).2.2.2.1 (by decide) (.inl (by decide))),
    .of (g.2.2.2.2 130 7 (by decide))⟩

def uart1 (a : Uart) : State := { State.reset.setReg (oUart 1) 0x8000000000000003 with sio := { Sio.reset with uarts := [(1, a)] } }

theorem calm_uart (a : Uart) : (uart1 a).calm = true := rfl
theorem unbound_uart (a : Uart) : (uart1 a).unbound 0x6F = true :=
  (by decide : (State.reset.setReg (oUart 1) 0x8000000000000003).unbound 0x6F = true)

theorem witness_SerialPorts_uart (h : Obligations.SerialPorts) :
    Completes (.uartByteReceived 1 0x41 false false false) (uart1 Uart.reset) ∧ Completes (.uartDataWrite core0 1 0x41) (uart1 Uart.reset) ∧
    Completes (.uartDataWrite core0 1 0x41) (uart1 { Uart.reset with shift := some 7 }) ∧
    Completes (.uartDataRead core0 1) (uart1 { Uart.reset with rx := [7, 8] }) ∧ Completes (.uartDataRead core0 1) (uart1 Uart.reset) ∧
    Completes (.uartTxEmpty 1) (uart1 { Uart.reset with shift := some 7 }) ∧
    Completes (.uartByteSent 1) (uart1 { Uart.reset with shift := some 7, tx := [8] }) ∧
    Completes (.uartCtsChange 1 true) (uart1 { Uart.reset with cts := false, tx := [8] }) :=
  have g := fun a => (h (uart1 a) core0 (calm_uart a) rfl).1 1 (unbound_uart a)
  ⟨.of ((g Uart.reset).1 0x41 false false false (by decide) (by decide)), .of (((g Uart.reset).2.1 0x41 (by decide)).1 rfl rfl (by decide)),
    .of (((g { Uart.reset with shift := some 7 }).2.1 0x41 (by decide)).2 (by decide) (by decide)),
    .of (((g { Uart.reset with rx := [7, 8] }).2.2.1 (by decide)).1 7 [8] rfl), ⟨_, ((g Uart.reset).2.2.1 (by decide)).2 rfl⟩,
    .of (((g { Uart.reset with shift := some 7 }).2.2.2.1 7 rfl).1 rfl),
    .of (((g { Uart.reset with shift := some 7, tx := [8] }).2.2.2.1 7 rfl).2 8 [] rfl (by decide)),
    .of ((g { Uart.reset with cts := false, tx := [8] }).2.2.2.2 8 [] rfl rfl (by decide))⟩

/-- I2C unit 0 is on, a target where `tgt` says, and runs the commands c. -/
def i2c0 (tgt : Bool) (c : Tbl Pay) : State :=
  { State.reset.setReg (oI2c 0) (if tgt then 0xC000000000000000 else 0x8000000000000000) with sio := { Sio.reset with i2c := c } }

theorem witness_SerialPorts_i2c (h : Obligations.SerialPorts) :
    Completes (.i2cGo core0 0 5) (i2c0 false []) ∧ Completes (.i2cTransferDone 0 false false 5 [1, 2]) (i2c0 false [(0, 5)]) ∧
    Completes (.i2cTargetTransaction 0 true [1, 2, 3] 0) (i2c0 true []) :=
  ⟨.of (((h (i2c0 false []) core0 (by decide) rfl).2.1 0 (by decide)).1 5 (by decide) (by decide) (by decide) (by decide)),
    .of (((h (i2c0 false [(0, 5)]) core0 (by decide) rfl).2.1 0 (by decide)).2.1 5 false false 5 [1, 2] rfl),
    .of (((h (i2c0 true []) core0 (by decide) rfl).2.1 0 (by decide)).2.2 [1, 2, 3] 0 (by decide) (by decide) (by decide) (by decide))⟩

def qspi1 : State := { State.reset with sio := { Sio.reset with qspi := some 3 } }

theorem witness_SerialPorts_qspi (h : Obligations.SerialPorts) :
    Completes (.qspiGo core0 3) State.reset ∧ Completes (.qspiDone [1, 2, 3]) qspi1 :=
  ⟨.of ((h State.reset core0 (by decide) rfl).2.2.1 3 (by decide) (by decide)),
    .of ((h qspi1 core0 (by decide) rfl).2.2.2 3 [1, 2, 3] rfl (by decide) (by decide) (by decide) noWindows_of)⟩

/-- Source 0x20 is bound to line 9 of context 0, and to its latch. -/
def bound : State := State.reset.setReg (oEvr + 0x1100) 0xE000090000000000

theorem witness_EventsAndPulses_sources (h : Obligations.EventsAndPulses) :
    Completes (.sourceAssert 0x20) State.reset ∧ Completes (.sourceAssert 0x20) bound ∧ Completes (.evtEdge 3 true) State.reset :=
  ⟨⟨_, ((h State.reset (by decide) rfl).1 0x20 (by decide)).1 (by decide)⟩,
    .of (((h bound (by decide) rfl).1 0x20 (by decide)).2 (by decide) (by decide) (by decide) (by decide) (by decide)),
    .of ((h State.reset (by decide) rfl).2.1 3 true (.inr (by decide)))⟩

/-- Channel 5 of the Pulse Unit is in the mode m, with a period of 100, and counts both edges; a STEP train of 3 runs. -/
def pulsing (m : Pay) : State :=
  let s := ((State.reset.setReg (oCh 5) (0x8000000000000300 ||| m)).setReg (oCh 5 + 8) 100).setReg (oCh 5 + 0x18) 3
  { s with pls := [(5, { PlsCh.reset with stepping := true })] }

theorem witness_EventsAndPulses_pulses (h : Obligations.EventsAndPulses) :
    Completes (.pwmPeriodBoundary 5) (pulsing 1) ∧ Completes (.captureEdge 5 true) (pulsing 2) ∧ Completes (.countEdge 5 true) (pulsing 3) ∧
    Completes (.stepPulseEnd 5) (pulsing 4) ∧ Completes (.plsCntWrite core0 5 7) (pulsing 4) :=
  ⟨.of (((h (pulsing 1) (by decide) rfl).2.2 5 (by decide)).1 (.inl (by decide))),
    .of ((((h (pulsing 2) (by decide) rfl).2.2 5 (by decide)).2.1 true (by decide)).1 (by decide)),
    .of ((((h (pulsing 3) (by decide) rfl).2.2 5 (by decide)).2.1 true (by decide)).2 (by decide)),
    .of (((h (pulsing 4) (by decide) rfl).2.2 5 (by decide)).2.2.1 (by decide) rfl),
    .of (((h (pulsing 4) (by decide) rfl).2.2 5 (by decide)).2.2.2 core0 7 (by decide))⟩

/-! The panel -/

/-- The panel scans with thresholds of 10, a ring of four slots at 0x10000, and STUCK at 3 s; it stands as f says. -/
def panel (f : Pnl → Pnl) : State :=
  let s := (((State.reset.setReg (oPnl + 0x18) 0x8000000000000000).setReg (oPnl + 0x10) 1).setReg (oPnl + 0x28) 0x00A00A0000000000).setReg
    (oPnl + 0x20) 0x300
  { s with pnl := f { Pnl.reset with ring := 0x2000000010000 }, sys := { Sys.reset with pnlLock := true } }

/-- A finger at node 0: its count falls by 100, and those of its two lines rise by 100. -/
def finger : Scan := { raw := [(960, 100), (984, 100)], noise := 0, cand := 0 }
def based (p : Pnl) : Pnl := { p with base := [(0, 100)] }
def peak0 : Peak := ⟨0, 0, 0, 100, false⟩
def touch0 : Touch := ⟨0, 10, 10, 10, 10, 90, false, 0, 0⟩
def touched (p : Pnl) : Pnl := { based p with touches := [touch0] }
def noScan : Scan := { raw := [], noise := 0, cand := 0 }

theorem witness_PanelSense_frames (h : Obligations.PanelSense) :
    Completes (.panelFrame noScan) (panel ({ · with learn := [(0, 5)] })) ∧ Completes (.panelFrame finger) (panel based) ∧
    Completes (.stuckRelease finger) (panel touched) :=
  ⟨.of (((h (panel ({ · with learn := [(0, 5)] })) (by decide) noWindows_of rfl (by decide) (by decide)).1 (by decide)
      (by decide)).1 noScan 0 5 [] rfl
      (by decide)),
    .of ((((h (panel based) (by decide) noWindows_of rfl (by decide) (by decide)).1 (by decide) (by decide)).2 finger peak0 rfl rfl
      (by decide +kernel)).1 rfl (by decide)),
    .of ((((h (panel touched) (by decide) noWindows_of rfl (by decide) (by decide)).1 (by decide) (by decide)).2 finger peak0 rfl rfl
      (by decide +kernel)).2 touch0 rfl (by decide) (by decide) (by decide))⟩

/-- The panel is off, as after a loss of the PLL where `lock` is false. -/
def panelOff (ctl : Pay) (lock : Bool) : State :=
  { State.reset.setReg (oPnl + 0x10) ctl with sys := { Sys.reset with pnlLock := lock } }

theorem witness_PanelSense_control (h : Obligations.PanelSense) :
    Completes .frameRecordAck (panel ({ · with unacked := [false] })) ∧ Completes (.breset core0 1) (panel id) ∧
    Completes (.panelEnable core0 0) (panelOff 0 true) ∧ Completes (.panelDisable core0 0) (panel id) ∧ Completes .panelPllLoss (panel id) ∧
    Completes .panelPllRelock (panelOff 1 false) :=
  have g := (h (panel id) (by decide) noWindows_of rfl (by decide) (by decide)).2.2
  ⟨.of ((h (panel ({ · with unacked := [false] })) (by decide) noWindows_of rfl (by decide) (by decide)).2.1 false [] rfl),
    .of ((g.1 core0 1).1 (by decide) (by decide) (by decide) (by decide)),
    .of (((h (panelOff 0 true) (by decide) noWindows_of rfl (by decide) (by decide)).2.2.1 core0 0).2.1 (by decide) (by decide) rfl
        (by decide)),
    .of ((g.1 core0 0).2.2 (by decide) (by decide) (by decide)), .of (g.2.1 rfl (by decide)),
    .of ((h (panelOff 1 false) (by decide) noWindows_of rfl (by decide) (by decide)).2.2.2.2 rfl (by decide) (by decide))⟩

/-- A blob that installs the KEK, by the key of 64 zeros, with counter 1. -/
def kekBlob : Tbl (BitVec 8) := ((ascii "HR7264KB" ++ [1, 3]).zipIdx.map fun (e : BitVec 8 × Nat) => (e.2, e.1)) ++ [(24, 1)]
def zeroKey : List (BitVec 8) := List.replicate 64 0
def kekState : State :=
  let s := withCmd (cmdOf 4 0x21 [])
  { s with ldg := { s.ldg with blob := kekBlob, blobLen := 29952 },
           sec := { Sec.reset with kslots := [(0, ⟨Config.shake256 zeroKey 32, 7, true, false⟩)] } }
def kekBytes : List (BitVec 8) := (List.range 29952).map fun i => Tbl.get (fun _ => 0) kekBlob i

theorem slotFor_kek : (kekState.sec.slotFor ((kekBytes.drop 96).take 64) 2).isSome = true := by
  have e : (kekBytes.drop 96).take 64 = zeroKey := by decide +kernel
  simp only [e, kekState, Sec.slotFor, Sec.kslot, Tbl.get, Tbl.look, List.find?_isSome, Bool.and_eq_true, decide_eq_true_eq]
  exact ⟨0, by simp, by decide, rfl⟩

/-- A good blob there is wherever the scheme accepts a signature under that key, which Config leaves open. -/
theorem keyBlob_kek (hv : Config.slhVerify true ((kekBytes.drop 96).take 64) (kekBytes.take 160) ((kekBytes.drop 160).take 29792) = true) :
    kekState.keyBlob 4 = (0, some (kKek, (kekBytes.drop 64).take 32), none) := by
  unfold State.keyBlob
  rw [show (List.range 29952).map (fun i => Tbl.get (fun _ => 0) kekState.ldg.blob i) = kekBytes from rfl]
  rw [if_neg (by decide +kernel), if_neg]
  · simp only [show leAt kekBytes 9 1 = 3 by decide +kernel]
    rfl
  · rw [hv]
    have := slotFor_kek
    intro h
    rcases h with h | h | h | h
    · rw [Option.isSome_iff_ne_none] at this
      exact this (by simpa using h)
    · simp at h
    · exact h (by decide +kernel)
    · exact absurd h (by decide +kernel)

theorem witness_ManagementCommands_keySet (h : Obligations.ManagementCommands)
    (hv : Config.slhVerify true ((kekBytes.drop 96).take 64) (kekBytes.take 160) ((kekBytes.drop 160).take 29792) = true) :
    Completes (.keySet 3) kekState :=
  .of (((h kekState 3 (cmdOf 4 0x21 []) (by decide) ⟨rfl, rfl, (by decide : ∀ e ∈ [(5, crcStream 0)], e.2.st ≠ 2), rfl, rfl, rfl⟩).2.2.2.1
    (by decide) rfl).1 kKek _ (keyBlob_kek hv) rfl)

/-! ### Ill-formed commands -/

def badSrc : Src := { code := 0x54 }

/-- One ill-formed command for each check of WellFormed: the check finds it, and it leaves the machine as it is (assumption 94). -/
theorem test_illFormed :
    ([.run badSrc, .gcRset badSrc 0, .registerWrite badSrc 0x10 0, .coherenceRequest 0x54 0 false false,
      .debugRegisterAccess 0 false 32 0 none, .debugMemoryAccess 0x1004 none, .sqTailDoorbell 3 0 0 [],
      .cqHeadDoorbell 3 0 0 [], .mirrorWrite true 0x14 [], .pcieInboundRequest 3 0 true [] ⟨0, .clean⟩, .sourceAssert 0x74, .pcieLinkEvent 3] :
      List Instr).all (fun i => !i.wf && (match exec i State.reset with | .next t => decide (t = State.reset) | _ => false)) = true := by decide

/-! ### Results

What one step leaves in a register, by hand from the rule named. -/

def leaves (c : Instr) (s : State) (r : BitVec 5) : Option Word :=
  match exec c s with
  | .next t => some ((t.ctx 0).rd r)
  | _ => none

def two (a b : Word) : State := base [(1, a), (2, b)]
def rrr : RF := { d := 3, a := 1, b := 2 }
def rr : RF := { d := 3, a := 1 }

/-- Division and remainder truncate toward zero, and the remainder has the dividend's sign (R140). -/
theorem test_div : leaves (.div at0 rrr) (two (Word.fix (-7)) (Word.fix 2)) 3 = some (Word.fix (-3)) := by decide
theorem test_rem : leaves (.rem at0 rrr) (two (Word.fix (-7)) (Word.fix 2)) 3 = some (Word.fix (-1)) := by decide
theorem test_rem_min : leaves (.rem at0 rrr) (two (Word.fix 0x8000000000000000) (Word.fix (-1))) 3 = some (Word.fix 0) := by decide
/-- The largest FIX plus 1 does not fit: the instruction traps, and its destination keeps its value (R139). -/
theorem test_add_overflow : leaves (.add at0 rrr) (two (Word.fix 0x7FFFFFFFFFFFFFFF) (Word.fix 1)) 3 = some Word.nil := by decide
/-- 82.5 + 1 is 83.5 (R139). -/
theorem test_add_flo : leaves (.add at0 rrr) (two ⟨Tag.flo, 0x4054A00000000000⟩ (Word.fix 1)) 3 = some ⟨Tag.flo, 0x4054E00000000000⟩ := by decide +kernel
/-- CLT of the hospital flight washer's example: 80 < 82, and 82.5 is not below 82 (R138, R143). -/
theorem test_clt_fix : leaves (.clt at0 rrr) (two (Word.fix 80) (Word.fix 82)) 3 = some Word.t := by decide +kernel
theorem test_clt_flo : leaves (.clt at0 rrr) (two ⟨Tag.flo, 0x4054A00000000000⟩ (Word.fix 82)) 3 = some Word.nil := by decide +kernel
/-- A shift takes the low six bits of its amount, and keeps the tag of a (R150). -/
theorem test_shl_amount : leaves (.shl at0 rrr) (two (Word.raw 3) (Word.fix 65)) 3 = some (Word.raw 6) := by decide
theorem test_sar : leaves (.sar at0 rrr) (two (Word.fix (-8)) (Word.raw 1)) 3 = some (Word.fix (-4)) := by decide
theorem test_rot : leaves (.rot at0 rrr) (two (Word.raw 0x8000000000000001) (Word.fix 1)) 3 = some (Word.raw 3) := by decide
/-- The result of a logical operation is RAW when either operand is (R150). -/
theorem test_and_tag : leaves (.and at0 rrr) (two (Word.fix 6) (Word.raw 3)) 3 = some (Word.raw 2) := by decide
theorem test_andn : leaves (.andn at0 rrr) (two (Word.fix 7) (Word.fix 2)) 3 = some (Word.fix 5) := by decide
/-- ANDI takes its immediate zero-extended, ADDI sign-extended (R139, R150). -/
theorem test_andi : leaves (.andi at0 { d := 3, a := 1, imm := 0xFFFF }) (two (Word.fix (-1)) Word.nil) 3 = some (Word.fix 0xFFFF) := by decide
theorem test_addi : leaves (.addi at0 { d := 3, a := 1, imm := 0xFFFF }) (two (Word.fix 5) Word.nil) 3 = some (Word.fix 4) := by decide
theorem test_clz : leaves (.clz at0 rr) (two (Word.raw 1) Word.nil) 3 = some (Word.fix 63) := by decide
theorem test_tcls : leaves (.tcls at0 rr) (two ⟨0x85, 0⟩ Word.nil) 3 = some (Word.fix 2) := by decide
/-- EQ compares tag and payload (R144). -/
theorem test_eq : leaves (.eq at0 rrr) (two (Word.fix 5) (Word.raw 5)) 3 = some Word.nil := by decide

end Sys2Proof.Tests
end

section
/-!
PROOFS. Words, bytes and tags of memory, and what caches do to them (R54, R86, R388, R391, R392).
-/
namespace Sys2Proof.Machine

/-! ### A word written and read -/

/-- The number of a payload's eight bytes, the lowest first, is the payload (R54). -/
theorem p64_leNat_byteOf (p : Pay) :
    p64 (leNat [byteOf p 0, byteOf p 1, byteOf p 2, byteOf p 3, byteOf p 4, byteOf p 5, byteOf p 6, byteOf p 7]) = p := by
  apply BitVec.eq_of_toNat_eq
  have hp : p.toNat < 2 ^ 64 := p.isLt
  simp only [leNat, byteOf, BitVec.toNat_ofNat, Nat.shiftRight_eq_div_pow, Nat.reduceMul, Nat.reducePow] at hp ⊢
  omega

namespace State

variable (s : State)

/-- Bytes i to i + n − 1 of a payload written one by one from key k. -/
theorem byte_forN_setByte (k : Nat) (p : Pay) (n i j : Nat) :
    (forN n i (fun b s => s.setByte (k + b) (byteOf p b)) s).byte j =
      if k + i ≤ j ∧ j < k + i + n then byteOf p (j - k) else s.byte j := by
  induction n generalizing i s with
  | zero =>
    have : ¬ (k + i ≤ j ∧ j < k + i + 0) := by omega
    simp only [forN, this, if_false]
  | succ n ih =>
    rw [forN, ih, byte_setByte]
    by_cases hj : k + i = j
    · have h1 : ¬ (k + (i + 1) ≤ j ∧ j < k + (i + 1) + n) := by omega
      have h2 : k + i ≤ j ∧ j < k + i + (n + 1) := by omega
      have h3 : j - k = i := by omega
      rw [if_neg h1, if_pos hj, if_pos h2, h3]
    · have h1 : (k + (i + 1) ≤ j ∧ j < k + (i + 1) + n) ↔ (k + i ≤ j ∧ j < k + i + (n + 1)) := by omega
      simp only [h1, hj, if_false]

theorem byte_setPay (k : Nat) (p : Pay) (j : Nat) :
    (s.setPay k p).byte j = if k ≤ j ∧ j < k + 8 then byteOf p (j - k) else s.byte j :=
  byte_forN_setByte s k p 8 0 j

@[simp] theorem tagAt_setPay (k : Nat) (p : Pay) (j : Nat) : (s.setPay k p).tagAt j = s.tagAt j := rfl

/-- The word written gives its own eight bytes; the bytes of other words stay. -/
theorem byte_setWord (k : Nat) (w : Word) (j : Nat) :
    (s.setWord k w).byte j = if j / 8 = k / 8 then byteOf w.pay (j % 8) else s.byte j := by
  rw [setWord, byte_setTagAt, byte_setPay]
  by_cases hj : j / 8 = k / 8
  · have h1 : k / 8 * 8 ≤ j ∧ j < k / 8 * 8 + 8 := by omega
    have h2 : j - k / 8 * 8 = j % 8 := by omega
    rw [if_pos h1, if_pos hj, h2]
  · have h1 : ¬ (k / 8 * 8 ≤ j ∧ j < k / 8 * 8 + 8) := by omega
    rw [if_neg h1, if_neg hj]

/-- Byte b of a word written is bits [8b+7:8b] of its payload (R54). -/
theorem byte_setWord_of_lt (k : Nat) (w : Word) {b : Nat} (hb : b < 8) :
    (s.setWord k w).byte (k / 8 * 8 + b) = byteOf w.pay b := by
  have h1 : (k / 8 * 8 + b) / 8 = k / 8 := by omega
  have h2 : (k / 8 * 8 + b) % 8 = b := by omega
  rw [byte_setWord, if_pos h1, h2]

/-- A word written leaves its tag, and the tags of other words as they were (R86). -/
theorem tagAt_setWord (k : Nat) (w : Word) (j : Nat) :
    (s.setWord k w).tagAt j = if j / 8 = k / 8 then w.tag else s.tagAt j := by
  rw [setWord, tagAt_setTagAt, tagAt_setPay, Nat.mul_div_cancel _ (by decide : 0 < 8)]
  simp only [eq_comm]

/-- A payload is made of the eight bytes from its key up. -/
theorem payAt_of_bytes {k : Nat} {f : Nat → BitVec 8} (h : ∀ b < 8, s.byte (k + b) = f b) :
    s.payAt k = p64 (leNat [f 0, f 1, f 2, f 3, f 4, f 5, f 6, f 7]) := by
  have h0 : s.byte k = f 0 := h 0 (by decide)
  rw [payAt, h0, h 1 (by decide), h 2 (by decide), h 3 (by decide), h 4 (by decide), h 5 (by decide), h 6 (by decide),
    h 7 (by decide)]

/-- A word written is read with its payload and its tag. -/
@[simp] theorem word_setWord_self (k : Nat) (w : Word) : (s.setWord k w).word k = w := by
  have ht : (s.setWord k w).tagAt (k / 8 * 8) = w.tag := by
    rw [tagAt_setWord, if_pos (Nat.mul_div_cancel _ (by decide))]
  rw [word, ht, payAt_of_bytes _ (fun _ => s.byte_setWord_of_lt k w), p64_leNat_byteOf]

/-- Another word than the one written is read as before. -/
theorem word_setWord_ne {k j : Nat} (w : Word) (h : j / 8 ≠ k / 8) : (s.setWord k w).word j = s.word j := by
  have hb : ∀ b < 8, (s.setWord k w).byte (j / 8 * 8 + b) = s.byte (j / 8 * 8 + b) := by
    intro b hb
    have h1 : (j / 8 * 8 + b) / 8 ≠ k / 8 := by omega
    rw [byte_setWord, if_neg h1]
  have ht : (s.setWord k w).tagAt (j / 8 * 8) = s.tagAt (j / 8 * 8) := by
    rw [tagAt_setWord, if_neg (by omega)]
  rw [word, ht, payAt_of_bytes _ hb]
  rfl

/-! ### Moves between caches leave memory alone

A byte of memory stands with its present contents also while a cache holds it dirty (what memory itself holds is set aside
in `backing`), so a line that is filled, dropped, evicted or handed over changes no byte and no tag (R391, R392, R396). -/

/-- The bytes and the tags of memory. -/
def contents (s : State) : Tbl (BitVec 8) × Tbl (BitVec 8) := (s.mem, s.tags)

theorem byte_of_contents {s t : State} (h : t.contents = s.contents) (j : Nat) : t.byte j = s.byte j :=
  congrArg (fun c : Tbl (BitVec 8) × Tbl (BitVec 8) => Tbl.get (fun _ => 0#8) c.1 j) h

theorem tagAt_of_contents {s t : State} (h : t.contents = s.contents) (j : Nat) : t.tagAt j = s.tagAt j :=
  congrArg (fun c : Tbl (BitVec 8) × Tbl (BitVec 8) => Tbl.get (fun _ => Tag.raw) c.2 (j / 8)) h

/-- A run of changes that each leave memory alone leaves it alone. -/
theorem contents_foldl {β : Type} (f : State → β → State) (hf : ∀ s b, (f s b).contents = s.contents) (l : List β) :
    (l.foldl f s).contents = s.contents := by
  induction l generalizing s with
  | nil => rfl
  | cons b l ih => rw [List.foldl_cons, ih, hf]

@[simp] theorem contents_setCore (k : Nat) (c : Core) : (s.setCore k c).contents = s.contents := rfl
@[simp] theorem contents_setCluster (n : Nat) (c : Cluster) : (s.setCluster n c).contents = s.contents := rfl
@[simp] theorem contents_cancelEvict (line : Nat) : (s.cancelEvict line).contents = s.contents := rfl
@[simp] theorem contents_writeBack (line : Nat) : (s.writeBack line).contents = s.contents := rfl

@[simp] theorem contents_saveBacking (line : Nat) : (s.saveBacking line).contents = s.contents := by
  unfold saveBacking
  split <;> rfl

@[simp] theorem contents_sendReq (src x pa width : Nat) (kind : TxnKind) (out : Option Out) :
    (s.sendReq src x pa width kind out).2.contents = s.contents := by
  unfold sendReq contents
  dsimp only
  split <;> rfl

@[simp] theorem contents_evictLine (n line : Nat) : (s.evictLine n line).contents = s.contents := by
  unfold evictLine
  split <;> simp

@[simp] theorem contents_l1dDrop (k line : Nat) : (s.l1dDrop k line).contents = s.contents := by
  unfold l1dDrop
  split
  · rfl
  · dsimp only
    split
    · simp
    · split <;> simp

@[simp] theorem contents_l1dDropAll (n line : Nat) : (s.l1dDropAll n line).contents = s.contents :=
  contents_foldl s _ (fun s k => s.contents_l1dDrop k line) _

@[simp] theorem contents_l1iDropAll (n line : Nat) : (s.l1iDropAll n line).contents = s.contents :=
  contents_foldl s _ (fun s k => s.contents_setCore k _) _

@[simp] theorem contents_l2Drop (n line : Nat) (toMemory : Bool) : (s.l2Drop n line toMemory).contents = s.contents := by
  unfold l2Drop
  dsimp only
  split
  · simp
  · split <;> split <;> simp

@[simp] theorem contents_l2Fill (n line : Nat) : (s.l2Fill n line).contents = s.contents := by
  unfold l2Fill
  split
  · rfl
  · split
    · rfl
    · split
      · rfl
      · dsimp only
        split <;> split <;> simp

@[simp] theorem contents_l1dFill (k line : Nat) : (s.l1dFill k line).contents = s.contents := by
  unfold l1dFill
  dsimp only
  split
  · simp
  · split
    · simp
    · split
      · simp
      · split
        · simp
        · split <;> simp

@[simp] theorem contents_cohRead (n : Option Nat) (line : Nat) : (s.cohRead n line).contents = s.contents := by
  refine contents_foldl _ _ (fun s m => ?_) _
  split
  · rfl
  · split
    · rfl
    · dsimp only
      split
      · split <;> simp
      · simp

@[simp] theorem contents_cohWrite (k n : Option Nat) (line : Nat) : (s.cohWrite k n line).contents = s.contents := by
  unfold cohWrite
  dsimp only
  have hl1 : ((s.cores.map (·.1)).foldl (fun s j => if some j = k then s else s.l1dDrop j line) s).contents = s.contents := by
    refine contents_foldl s _ (fun s j => ?_) _
    split <;> simp
  rw [contents_foldl]
  · split
    · split <;> simp [hl1]
    · exact hl1
  · intro s m
    split
    · rfl
    · split
      · rfl
      · split <;> split <;> simp

/-- A cached read changes no byte and no tag of memory (R391, R392). -/
@[simp] theorem contents_cacheRead (k key : Nat) : (s.cacheRead k key).contents = s.contents := by
  unfold cacheRead
  dsimp only
  split <;> simp

/-- A cached write by a core is a write of the word alone, to memory as it stands (R388, R392). -/
theorem cacheWrite_eq_setWord (k key x : Nat) (w : Word) (prov : Bool) :
    ∃ u : State, s.cacheWrite k key x w prov = u.setWord key w ∧ u.contents = s.contents := by
  refine ⟨_, rfl, ?_⟩
  split
  · split
    · split
      · simp
      · split <;> simp
    · simp
  · split <;> simp

end State

/-- Settles O9: a word written is read back byte by byte, and all that a cached access does beside its one word are moves
between caches, which leave the contents of memory alone. -/
theorem memoryWordsAndCaches : Obligations.MemoryWordsAndCaches := by
  unfold Obligations.MemoryWordsAndCaches
  constructor
  · intro s k j w b
    refine ⟨s.word_setWord_self k w, s.byte_setWord_of_lt k w, fun hj => ⟨s.word_setWord_ne w hj, ?_⟩⟩
    rw [State.byte_setWord, if_neg hj]
  · intro s k key x a w prov
    obtain ⟨u, hw, hu⟩ := s.cacheWrite_eq_setWord k key x w prov
    obtain ⟨hmem, htags⟩ := Prod.mk.inj (s.contents_cacheRead k key)
    refine ⟨?_, fun ha => ⟨?_, ?_⟩, hmem, htags⟩
    · rw [hw, State.word_setWord_self]
    · rw [hw, State.byte_setWord, if_neg ha, State.byte_of_contents hu]
    · rw [hw, State.tagAt_setWord, if_neg ha, State.tagAt_of_contents hu]

end Sys2Proof.Machine
end

section
/-!
PROOFS. Rows that go on in sequence or wait, when their instruction is ready: what the body leaves, retired (R109, R166, R180).
-/
namespace Sys2Proof.Machine

/-! ### Retirement in sequence, from any wait -/

/-- The context after the bookkeeping of a retirement. -/
def Ctx.marked (c : Ctx) : Ctx :=
  { c.stepEnd with fresh := false, grants := [], obs := [], inflight := false, slot := none, run := .run }

/-- The bookkeeping leaves a plain context as it was, but for a return's mark. -/
theorem Ctx.Plain.marked {c : Ctx} (h : c.Plain) : c.marked = { c with fresh := false } := by
  rw [Ctx.marked, Ctx.stepEnd_of _ h.stepping, ← h.grants, ← h.obs, ← h.inflight, ← h.slot, ← h.run]

theorem Ctx.Plain.marked_setPc {c : Ctx} (h : c.Plain) (next : Pay) : c.marked.setPc next = c.retired next := by
  rw [h.marked]; rfl

theorem Ctx.sp_retired (c : Ctx) (next : Pay) (m : Nat) : (c.retired next).sp m = if Sr.pc = m then next else c.sp m :=
  Ctx.sp_setSp c Sr.pc m next

theorem Ctx.pc_setPc (c : Ctx) (v : Pay) : (c.setPc v).pc = v := Ctx.sp_setSp_self c Sr.pc v

theorem Ctx.pc_retired (c : Ctx) (next : Pay) : (c.retired next).pc = next := Ctx.sp_setSp_self c Sr.pc next

theorem Ctx.marked_same (c : Ctx) : c.marked.sr = c.sr ∧ c.marked.regs = c.regs ∧ c.marked.latch = c.latch := by
  unfold Ctx.marked Ctx.stepEnd
  split <;> exact ⟨rfl, rfl, rfl⟩

/-- No loop level ends at the addresses of an instruction: PC goes on. -/
theorem Ctx.endAction_apart {c : Ctx} {slots : List Pay} (next : Pay) (h : ∀ j, c.innermost = some j → c.leAddr j ∉ slots) :
    c.endAction slots next = c.setPc next := by
  unfold Ctx.endAction
  cases hj : c.innermost with
  | none => rfl
  | some j =>
    have hn : slots.contains (c.leAddr j) = false := by simpa using h j hj
    simp only [hn, Bool.false_eq_true, false_and, if_false]

theorem Ctx.leAddr_congr {c e : Ctx} (h : c.sr = e.sr) (j : Nat) : c.leAddr j = e.leAddr j := by
  simp only [Ctx.leAddr, Ctx.sp, h]

theorem State.retireMark_marks (s : State) (x : Nat) :
    Near s x (s.retireMark x) ∧ (s.retireMark x).ctx x = (s.ctx x).marked ∧
      (s.retireMark x).twin (twinOf x) = { s.twin (twinOf x) with groups := ((s.retireMark x).twin (twinOf x)).groups } := by
  unfold State.retireMark
  rw [State.updCtx_eq]
  simp only
  split
  · refine ⟨(near_setCtx s x _).trans (near_setTwin _ x _), ?_, ?_⟩
    · rw [State.updTwin_eq, State.ctx_setTwin, State.ctx_setCtx_self]; rfl
    · rw [State.updTwin_eq, State.twin_setTwin_self]; rfl
  · exact ⟨near_setCtx s x _, State.ctx_setCtx_self _ _ _, rfl⟩

/-- Retirement in sequence with no load pending and no loop end at hand: the context is marked and goes on at `next`. -/
theorem State.retire_seq (s : State) (x : Nat) (slots : List Pay) (next : Pay) (hl : (s.ctx x).loads = [])
    (hi : ∀ j, (s.ctx x).innermost = some j → (s.ctx x).leAddr j ∉ slots) :
    Near s x (s.retire x slots next none) ∧ (s.retire x slots next none).ctx x = (s.ctx x).marked.setPc next ∧
      (s.retire x slots next none).twin (twinOf x) =
        { s.twin (twinOf x) with groups := ((s.retire x slots next none).twin (twinOf x)).groups } := by
  obtain ⟨t1, c1, w1⟩ := State.landLoads_plain s x hl
  obtain ⟨t2, c2, w2⟩ := State.retireMark_marks (s.landLoads x) x
  rw [c1] at c2
  obtain ⟨hsr, -, -⟩ := Ctx.marked_same (s.ctx x)
  have hi' : ∀ j, (s.ctx x).marked.innermost = some j → (s.ctx x).marked.leAddr j ∉ slots := by
    intro j hj
    rw [Ctx.innermost_congr hsr] at hj
    rw [Ctx.leAddr_congr hsr]
    exact hi j hj
  have e : s.retire x slots next none = ((s.landLoads x).retireMark x).setCtx x ((s.ctx x).marked.setPc next) := by
    simp only [State.retire, State.updCtx_eq, c2, Ctx.endAction_apart next hi']
  rw [e]
  refine ⟨(t1.trans t2).trans (near_setCtx _ x _), State.ctx_setCtx_self _ _ _, ?_⟩
  rw [State.twin_setCtx, w2, w1]

/-- Outside tight mode a retirement without pending loads leaves the twins alone. -/
theorem State.retire_twins (s : State) (x : Nat) (slots : List Pay) (next : Pay) (hl : (s.ctx x).loads = [])
    (ht : s.isTight x = false) : (s.retire x slots next none).twins = s.twins := by
  have hland : (s.landLoads x).twins = s.twins := by
    simp only [State.landLoads, hl, List.map_nil, List.filter_nil, List.foldl_nil, State.updCtx_eq, State.setCtx_twins]
  have ht' : ((s.landLoads x).setCtx x ((s.landLoads x).ctx x).marked).isTight x = false := by
    obtain ⟨-, -, hw⟩ := State.landLoads_plain s x hl
    unfold State.isTight at ht ⊢
    rw [State.twin_setCtx, hw, ht]
  have hmark : ((s.landLoads x).retireMark x).twins = (s.landLoads x).twins := by
    unfold State.retireMark
    rw [State.updCtx_eq]
    show (if ((s.landLoads x).setCtx x ((s.landLoads x).ctx x).marked).isTight x then _ else _ : State).twins = _
    rw [ht', if_neg (by decide)]
    rfl
  calc (s.retire x slots next none).twins = ((s.landLoads x).retireMark x).twins := rfl
    _ = s.twins := hmark.trans hland

/-- With no loop active no instruction stands at a loop's end. -/
theorem Ctx.noLoopEnd_of {c e : Ctx} (hi : c.innermost = none) (hsr : e.sr = c.sr) (slots : List Pay) (j : Nat)
    (hj : e.innermost = some j) : e.leAddr j ∉ slots := by
  rw [Ctx.innermost_congr hsr, hi] at hj
  exact absurd hj (by simp)

theorem Ready.noLoopEnd {s : State} {at_ : At} {size : Nat} (h : Ready s at_ size) {u : State}
    (hu : (u.ctx (ctxOf at_)).sr = (s.ctx (ctxOf at_)).sr) (slots : List Pay) :
    ∀ j, (u.ctx (ctxOf at_)).innermost = some j → (u.ctx (ctxOf at_)).leAddr j ∉ slots :=
  Ctx.noLoopEnd_of h.innermost hu slots

/-! ### Rows -/

/-- The checks before a body pass. -/
theorem X.decodeChecks_ok (m : Meta) (r : Run) (hring : (r.s.ctx r.x).ring ≤ m.ringMax)
    (hb : m.breaker = false ∨ (r.s.ctx r.x).loads = []) : X.decodeChecks m true r = .ok () r := by
  unfold X.decodeChecks
  rw [X.bind_ok (X.ctx_run r)]
  rcases hb with hb | hb <;> simp [hb, Nat.not_lt.mpr hring]

/-- A row whose instruction is ready, and whose body leaves u and goes on: u is retired. -/
theorem issue_seq {s : State} {at_ : At} {size : Nat} (h : s.ready at_ size = true) (long : Bool) {body : Pay → X Flow} {u : State}
    (hb : body (s.ctx (ctxOf at_)).pc (startRun s at_) = .ok .seq { startRun s at_ with s := u })
    (hl : (u.ctx (ctxOf at_)).loads = [])
    (hi : ∀ j, (u.ctx (ctxOf at_)).innermost = some j → (u.ctx (ctxOf at_)).leAddr j ∉ slotsOf (s.ctx (ctxOf at_)).pc size)
    (hc : u.calm = true) (hq : u.pending = s.pending) :
    fin s (issue at_ size long body s) =
      .next (u.retire (ctxOf at_) (slotsOf (s.ctx (ctxOf at_)).pc size) ((s.ctx (ctxOf at_)).pc + p64 size) none) := by
  obtain ⟨t1, -, -⟩ := State.retire_seq u (ctxOf at_) _ ((s.ctx (ctxOf at_)).pc + p64 size) hl hi
  rw [issue_ready (State.ready_iff s at_ size h), hb]
  show fin s (u.retire (ctxOf at_) _ _ none).settle = _
  rw [← t1.fin hc, fin, fin, hq]

/-- A row whose instruction is ready, and whose body waits, to run anew: the context waits, and all else is as before. -/
theorem issue_parks {s : State} {at_ : At} {size : Nat} (h : s.ready at_ size = true) (long : Bool) {body : Pay → X Flow}
    {p : RunState} (hb : body (s.ctx (ctxOf at_)).pc (startRun s at_) = .error (.park p) (startRun s at_))
    (hw : p.within = false) (hp : parkedAs size p = p) :
    fin s (issue at_ size long body s) = .next (s.setCtx (ctxOf at_) { s.ctx (ctxOf at_) with run := p }) := by
  have hr := State.ready_iff s at_ size h
  have hsame : ({ s.ctx (ctxOf at_) with run := p, obs := [], inflight := false, slot := none } : Ctx) =
      { s.ctx (ctxOf at_) with run := p } := by
    rw [← hr.obs, ← hr.inflight, ← hr.slot]
  rw [issue_ready hr, hb]
  simp only [hw, hp, Bool.and_false, Bool.false_eq_true, if_false, State.updCtx_eq, hsame]
  exact (near_setCtx s (ctxOf at_) _).fin hr.calm

theorem Near.pending {s t : State} {x : Nat} (h : Near s x t) : t.pending = s.pending := by rw [h.rest]

theorem Near.core {s t : State} {x : Nat} (h : Near s x t) (j : Nat) : t.core j = s.core j := by
  rw [h.rest]; rfl

end Sys2Proof.Machine
end

section
/-!
PROOFS. MFS and MTS (R113 to R118, R188, R189, R242, R243, R314, R437, R443).
-/
namespace Sys2Proof.Machine

/-! ### The loop levels and a written special register -/

/-- Where no level was active, a write of a special register activates at most the level whose count it writes. -/
theorem Ctx.innermost_setSp {c : Ctx} {n j : Nat} {v : Pay} (hc : c.innermost = none) (hj : (c.setSp n v).innermost = some j) :
    n = Sr.lc0 + j ∧ j ≤ 2 := by
  have hz : c.sp Sr.lc0 = 0 ∧ c.sp (Sr.lc0 + 1) = 0 ∧ c.sp (Sr.lc0 + 2) = 0 := by
    unfold Ctx.innermost at hc
    split at hc
    · cases hc
    · next h2 =>
      split at hc
      · cases hc
      · next h1 =>
        split at hc
        · cases hc
        · next h0 => exact ⟨not_not.mp h0, not_not.mp h1, not_not.mp h2⟩
  have hsp (i : Nat) (hi : c.sp (Sr.lc0 + i) = 0) (hne : (c.setSp n v).sp (Sr.lc0 + i) ≠ 0) : n = Sr.lc0 + i := by
    rw [Ctx.sp_setSp] at hne
    by_contra hn
    rw [if_neg hn] at hne
    exact hne hi
  obtain ⟨h0, h1, h2⟩ := hz
  unfold Ctx.innermost at hj
  split at hj
  · next hne => cases hj; exact ⟨hsp 2 h2 hne, by omega⟩
  · split at hj
    · next hne => cases hj; exact ⟨hsp 1 h1 hne, by omega⟩
    · split at hj
      · next hne => cases hj; exact ⟨hsp 0 h0 hne, by omega⟩
      · cases hj

theorem Ctx.leAddr_setSp {c : Ctx} {n j : Nat} (v : Pay) (h : n ≠ Sr.le0 + j) : (c.setSp n v).leAddr j = c.leAddr j := by
  rw [Ctx.leAddr, Ctx.leAddr, Ctx.sp_setSp, if_neg h]

/-- A written special register brings no loop end to the instruction, but for a count written at its own end slot. -/
theorem Ctx.noLoopEnd_setSp {c : Ctx} {n : Nat} {v pc : Pay} (hc : c.innermost = none)
    (hlc : Sr.lc0 ≤ n → n ≤ Sr.lc0 + 2 → c.leAddr (n - Sr.lc0) ≠ pc) (j : Nat) (hj : (c.setSp n v).innermost = some j) :
    (c.setSp n v).leAddr j ∉ slotsOf pc 4 := by
  obtain ⟨rfl, hj2⟩ := Ctx.innermost_setSp hc hj
  have hne : c.leAddr j ≠ pc := by simpa using hlc (by omega) (by omega)
  have hle : Sr.lc0 + j ≠ Sr.le0 + j := by show 0x26 + j ≠ 0x23 + j; omega
  rw [Ctx.leAddr_setSp v hle]
  simpa [slotsOf] using hne

/-! ### The machine with a special register written -/

theorem State.sign_near (s : State) (x : Nat) (ws : List Pay) :
    Near s x (s.sign (twinOf x) ws) ∧ (s.sign (twinOf x) ws).ctx x = s.ctx x ∧
      (s.sign (twinOf x) ws).twin (twinOf x) =
        { s.twin (twinOf x) with misr := ((s.sign (twinOf x) ws).twin (twinOf x)).misr } := by
  unfold State.sign
  rw [State.updTwin_eq]
  refine ⟨near_setTwin s x _, rfl, ?_⟩
  rw [State.twin_setTwin_self]

/-- A register held per context, other than SQT of a tight twin: the context's register, and the signature. -/
theorem State.putSpec_ctx (s : State) (x n : Nat) (v : Pay) (hn : srPerCtx n = true) (hq : n = Sr.sqt → s.isTight x = false) :
    Near s x (s.putSpec x n v) ∧ (s.putSpec x n v).ctx x = (s.ctx x).setSp n v ∧
      (s.putSpec x n v).twin (twinOf x) = { s.twin (twinOf x) with misr := ((s.putSpec x n v).twin (twinOf x)).misr } := by
  have hnote : (if n = Sr.sqt then s.noteSqt x else s) = s := by
    split
    · next h => rw [State.noteSqt, hq h, if_neg (by decide)]
    · rfl
  have hput : s.putSpec x n v = if s.isTight x
      then (s.setCtx x ((s.ctx x).setSp n v)).sign (twinOf x) (signReg x (0x1000 + n) 0 ⟨srTag n, v⟩)
      else s.setCtx x ((s.ctx x).setSp n v) := by
    simp only [State.putSpec, hnote, hn, if_true, State.updCtx_eq]
  have hset := near_setCtx s x ((s.ctx x).setSp n v)
  rw [hput]
  split
  · obtain ⟨h1, h2, h3⟩ := State.sign_near (s.setCtx x ((s.ctx x).setSp n v)) x (signReg x (0x1000 + n) 0 ⟨srTag n, v⟩)
    exact ⟨hset.trans h1, h2.trans (State.ctx_setCtx_self _ _ _), h3⟩
  · exact ⟨hset, State.ctx_setCtx_self _ _ _, rfl⟩

/-- SQT of a tight twin: the value of the last confirmed window stands in the twin (R314). -/
theorem State.putSpec_sqt (s : State) (x : Nat) (v : Pay) (ht : s.isTight x = true) :
    Near s x (s.putSpec x Sr.sqt v) ∧ (s.putSpec x Sr.sqt v).ctx x = (s.ctx x).setSp Sr.sqt v ∧
      Tbl.look ((s.putSpec x Sr.sqt v).twin (twinOf x)).sqtConf x =
        some ((Tbl.look (s.twin (twinOf x)).sqtConf x).getD ((s.ctx x).sp Sr.sqt)) := by
  have hn1 : Near s x (s.noteSqt x) := by
    rw [State.noteSqt, ht, if_pos rfl]
    exact near_setTwin s x _
  have hc1 : (s.noteSqt x).ctx x = s.ctx x := by
    rw [State.noteSqt, ht, if_pos rfl]; rfl
  have hw1 : Tbl.look ((s.noteSqt x).twin (twinOf x)).sqtConf x =
      some ((Tbl.look (s.twin (twinOf x)).sqtConf x).getD ((s.ctx x).sp Sr.sqt)) := by
    rw [State.noteSqt, ht, if_pos rfl, State.updTwin_eq, State.twin_setTwin_self]
    cases hl : Tbl.look (s.twin (twinOf x)).sqtConf x with
    | none => exact Tbl.look_insert_self _ _ _
    | some q => exact hl
  have hput : s.putSpec x Sr.sqt v = if (s.noteSqt x).isTight x
      then ((s.noteSqt x).setCtx x ((s.ctx x).setSp Sr.sqt v)).sign (twinOf x) (signReg x (0x1000 + Sr.sqt) 0 ⟨srTag Sr.sqt, v⟩)
      else (s.noteSqt x).setCtx x ((s.ctx x).setSp Sr.sqt v) := by
    rw [← hc1]; rfl
  have hset := hn1.trans (near_setCtx (s.noteSqt x) x ((s.ctx x).setSp Sr.sqt v))
  rw [hput]
  split
  · obtain ⟨h1, h2, h3⟩ := State.sign_near ((s.noteSqt x).setCtx x ((s.ctx x).setSp Sr.sqt v)) x
      (signReg x (0x1000 + Sr.sqt) 0 ⟨srTag Sr.sqt, v⟩)
    refine ⟨hset.trans h1, h2.trans (State.ctx_setCtx_self _ _ _), ?_⟩
    rw [h3]; exact hw1
  · exact ⟨hset, State.ctx_setCtx_self _ _ _, hw1⟩

/-! ### The bodies -/

/-- A field from bit 0 up, alone in a payload. -/
theorem atFld_low {hi v : Nat} (h : v < 2 ^ (hi + 1)) : atFld hi 0 v = p64 v := by
  simp only [atFld, setFld, Nat.sub_zero, Nat.shiftLeft_zero, Nat.mod_eq_of_lt h, BitVec.zero_and, BitVec.zero_or]

theorem X.srCheck_read {n rd : Nat} {wr : Option Nat} (r : Run) (hs : srRings n = some (rd, wr)) (hr : (r.s.ctx r.x).ring ≤ rd) :
    X.srCheck n false r = .ok () r := by
  unfold X.srCheck
  rw [X.bind_ok (X.ring_run r), hs]
  simp only [Bool.false_eq_true, if_false, gt_iff_lt, Nat.not_lt.mpr hr]
  rfl

theorem Ctx.atFld_ring (c : Ctx) : atFld 1 0 c.ring = p64 c.ring := atFld_low (fld_lt _ 1 0)

/-- MTS past its checks (R115, R116) is the write of its source's payload. -/
theorem opMts_run {s : State} {at_ : At} {a : BitVec 5} {n : Nat} (h : s.mtsOk (ctxOf at_) n (s.gr (ctxOf at_) a).tag = true) :
    opMts a n (startRun s at_) = X.mtsWrite n (s.gr (ctxOf at_) a).pay (startRun s at_) := by
  obtain ⟨htag, hring⟩ := Bool.and_eq_true_iff.mp h
  have hcheck : X.srCheck n true (startRun s at_) = .ok () (startRun s at_) := by
    unfold X.srCheck
    rw [X.bind_ok (X.ring_run _)]
    cases hs : srRings n with
    | none => simp only [hs] at hring; cases hring
    | some p =>
      obtain ⟨rd, _ | m⟩ := p
      · simp only [hs] at hring; cases hring
      · simp only [hs, decide_eq_true_eq] at hring
        simp only [if_true, gt_iff_lt, Nat.not_lt.mpr hring, if_false]
        rfl
  unfold opMts
  rw [X.bind_ok hcheck, X.bind_ok (X.rd_run _ a)]
  show (if mtsTag (s.gr (ctxOf at_) a).tag then _ else _ : X Flow) _ = _
  rw [htag, if_pos rfl]
  rfl

/-- A write of a register held per context leaves the value that `mtsValue` gives in it. -/
theorem X.mtsWrite_ctx {n : Nat} {v w : Pay} (r : Run) (hn : srPerCtx n = true) (hv : (r.s.ctx r.x).mtsValue n v = some w) :
    X.mtsWrite n v r = .ok .seq { r with s := r.s.putSpec r.x n w } := by
  have hcctl : n ≠ Sr.cctl := by rintro rfl; exact absurd hn (by decide)
  have hucs : n ≠ Sr.ucs := by rintro rfl; exact absurd hn (by decide)
  have htvb : n ≠ Sr.tvb := by rintro rfl; exact absurd hn (by decide)
  unfold X.mtsWrite
  rw [X.bind_ok (X.ctxNo_run r), X.bind_ok (X.ctx_run r), X.bind_ok (X.core_run r)]
  unfold Ctx.mtsValue at hv
  split at hv
  · next hps =>
    rw [if_pos hps, hv]
    rfl
  · next hps =>
    rw [if_neg hps, if_neg hcctl, if_neg hucs]
    split at hv
    · next hw => cases hv; rw [if_pos hw]; rfl
    · next hw =>
      rw [if_neg hw]
      split at hv
      · next hle =>
        cases hv
        rw [if_pos hle, ← Ctx.atFld_ring]
        rfl
      · next hle =>
        cases hv
        rw [if_neg hle, if_neg htvb]
        rfl

/-- A write of a plain register held per core. -/
theorem X.mtsWrite_core {n : Nat} (v : Pay) (r : Run) (hn : n = Sr.gtb ∨ n = Sr.rtb ∨ n = Sr.ckm ∨ n = Sr.cyc) :
    X.mtsWrite n v r = .ok .seq { r with s := r.s.putSpec r.x n (v &&& srMask n) } := by
  obtain rfl | rfl | rfl | rfl := hn <;> rfl

theorem X.mtsWrite_tvb (v : Pay) (r : Run) :
    X.mtsWrite Sr.tvb v r =
      .ok .seq { r with s := (r.s.putSpec r.x Sr.tvb (v &&& srMask Sr.tvb)).reloadTvb (r.s.coreOf r.x) } := rfl

/-! ### The rows -/

/-- The checks of a format I row pass before its body. -/
theorem rowI_body {s : State} {at_ : At} {f : IF} {maj : Nat} {m : Meta} (hm : iMeta maj = some m)
    (hrsv : (m.rsvI f && immOk maj f.imm.toNat) = true) (hmax : m.ringMax = 3) (hb : m.breaker = false) (body : Pay → X Flow) :
    (do X.decodeChecks ((iMeta maj).getD (metaR maj 0)) (((iMeta maj).getD (metaR maj 0)).rsvI f && immOk maj f.imm.toNat)
        body (immPay maj 16 f.imm.toNat) : X Flow) (startRun s at_) = body (immPay maj 16 f.imm.toNat) (startRun s at_) := by
  rw [hm, Option.getD_some, hrsv, X.bind_ok (X.decodeChecks_ok m (startRun s at_) (hmax ▸ ring_le _) (.inl hb))]

/-- A ready format I row whose body leaves u and goes on. -/
theorem rowI_seq {s : State} {at_ : At} {f : IF} {maj : Nat} {m : Meta} (hm : iMeta maj = some m)
    (hrsv : (m.rsvI f && immOk maj f.imm.toNat) = true) (hmax : m.ringMax = 3) (hbr : m.breaker = false) {body : Pay → X Flow} {u : State}
    (h : s.ready at_ 4 = true)
    (hb : body (immPay maj 16 f.imm.toNat) (startRun s at_) = .ok .seq { startRun s at_ with s := u })
    (hl : (u.ctx (ctxOf at_)).loads = [])
    (hi : ∀ j, (u.ctx (ctxOf at_)).innermost = some j → (u.ctx (ctxOf at_)).leAddr j ∉ slotsOf (s.ctx (ctxOf at_)).pc 4)
    (hc : u.calm = true) (hq : u.pending = s.pending) :
    fin s (s.rowI at_ f maj body) =
      .next (u.retire (ctxOf at_) (slotsOf (s.ctx (ctxOf at_)).pc 4) ((s.ctx (ctxOf at_)).pc + p64 4) none) :=
  issue_seq h false ((rowI_body hm hrsv hmax hbr body).trans hb) hl hi hc hq

theorem immPay_unsigned {maj v : Nat} (hm : immUnsigned maj = true) (hv : v < 2 ^ 64) : (immPay maj 16 v).toNat = v := by
  rw [immPay, if_pos hm, BitVec.toNat_ofNat, Nat.mod_eq_of_lt hv]

/-- Every MTS row is an MTS to the register it names: a body that leaves u is retired. -/
theorem mtsRow_seq {i : Instr} {s : State} {at_ : At} {a : BitVec 5} {n : Nat} {u : State} (hrow : mtsRow i = some (at_, a, n))
    (h : s.ready at_ 4 = true) (hok : s.mtsOk (ctxOf at_) n (s.gr (ctxOf at_) a).tag = true)
    (hb : X.mtsWrite n (s.gr (ctxOf at_) a).pay (startRun s at_) = .ok .seq { startRun s at_ with s := u })
    (hl : (u.ctx (ctxOf at_)).loads = [])
    (hi : ∀ j, (u.ctx (ctxOf at_)).innermost = some j → (u.ctx (ctxOf at_)).leAddr j ∉ slotsOf (s.ctx (ctxOf at_)).pc 4)
    (hc : u.calm = true) (hq : u.pending = s.pending) :
    exec i s = .next (u.retire (ctxOf at_) (slotsOf (s.ctx (ctxOf at_)).pc 4) ((s.ctx (ctxOf at_)).pc + p64 4) none) := by
  have hop : opMts a n (startRun s at_) = .ok .seq { startRun s at_ with s := u } := (opMts_run hok).trans hb
  have named (g : SF) (hd : g.d = 0) (hhi : g.hi = 0) (hga : g.a = a) (hn : n < 4096) :
      fin s (s.rowMts at_ g n) =
        .next (u.retire (ctxOf at_) (slotsOf (s.ctx (ctxOf at_)).pc 4) ((s.ctx (ctxOf at_)).pc + p64 4) none) := by
    have himm : (BitVec.ofNat 16 (g.hi.toNat * 4096 + n)).toNat < 4096 := by
      rw [hhi, BitVec.toNat_ofNat]
      exact Nat.lt_of_le_of_lt (Nat.mod_le _ _) (by simpa using hn)
    have hrsv : (metaR 0x1F 0).onlyA.rsvI ⟨g.d, g.a, BitVec.ofNat 16 (g.hi.toNat * 4096 + n)⟩ = true := by
      simp [Meta.rsvI, Meta.onlyA, metaR, hd]
    subst hga
    exact rowI_seq (maj := 0x1F) rfl (Bool.and_eq_true_iff.mpr ⟨hrsv, decide_eq_true himm⟩) rfl rfl h hop hl hi hc hq
  unfold mtsRow at hrow
  split at hrow
  case h_1 f =>
    obtain ⟨⟨hd, himm⟩, hx⟩ := Option.ite_none_right_eq_some.mp hrow
    cases hx
    have hrsv : (metaR 0x1F 0).onlyA.rsvI f = true := by simp [Meta.rsvI, Meta.onlyA, metaR, hd]
    have hv : (immPay 0x1F 16 f.imm.toNat).toNat = f.imm.toNat := immPay_unsigned rfl (by omega)
    exact rowI_seq (maj := 0x1F) rfl (Bool.and_eq_true_iff.mpr ⟨hrsv, decide_eq_true himm⟩) rfl rfl h (by rw [hv]; exact hop) hl hi hc hq
  case h_3 k f =>
    obtain ⟨⟨hd, hhi, -⟩, hx⟩ := Option.ite_none_right_eq_some.mp hrow
    cases hx
    exact named f hd hhi rfl (by have := k.isLt; show 0x23 + k.toNat < 4096; omega)
  case h_9 => cases hrow
  all_goals
    obtain ⟨⟨hd, hhi⟩, hx⟩ := Option.ite_none_right_eq_some.mp hrow
    cases hx
    exact named _ hd hhi rfl (by decide)

/-! ### What the retirement leaves -/

theorem Ctx.Plain.setSp {c : Ctx} (h : c.Plain) (n : Nat) (v : Pay) : (c.setSp n v).Plain :=
  ⟨h.run, h.slot, h.grants, h.obs, h.inflight, h.loads, h.stepping⟩

/-- A written register that is not PC: MTS writes no read-only register (R114). -/
theorem State.mtsOk_ne_pc {s : State} {x n : Nat} {t : BitVec 8} (h : s.mtsOk x n t = true) : n ≠ Sr.pc := by
  rintro rfl
  obtain ⟨-, h⟩ := Bool.and_eq_true_iff.mp h
  exact absurd h (by simp [srRings])

/-- MTS to a register held per context. -/
theorem mts_ctx {i : Instr} {s : State} {at_ : At} {a : BitVec 5} {n : Nat} {v : Pay} (hrow : mtsRow i = some (at_, a, n))
    (h : s.ready at_ 4 = true) (hok : s.mtsOk (ctxOf at_) n (s.gr (ctxOf at_) a).tag = true) (hn : srPerCtx n = true)
    (hv : (s.ctx (ctxOf at_)).mtsValue n (s.gr (ctxOf at_) a).pay = some v)
    (hlc : Sr.lc0 ≤ n → n ≤ Sr.lc0 + 2 → (s.ctx (ctxOf at_)).leAddr (n - Sr.lc0) ≠ (s.ctx (ctxOf at_)).pc)
    (hu : Near s (ctxOf at_) (s.putSpec (ctxOf at_) n v))
    (hctx : (s.putSpec (ctxOf at_) n v).ctx (ctxOf at_) = (s.ctx (ctxOf at_)).setSp n v) :
    ∃ t, exec i s = .next t ∧ Near s (ctxOf at_) t ∧
      t.ctx (ctxOf at_) = ((s.ctx (ctxOf at_)).setSp n v).retired ((s.ctx (ctxOf at_)).pc + 4) ∧
      t.twin (twinOf (ctxOf at_)) = { (s.putSpec (ctxOf at_) n v).twin (twinOf (ctxOf at_)) with
        groups := (t.twin (twinOf (ctxOf at_))).groups } := by
  have hr := State.ready_iff s at_ 4 h
  have hl : ((s.putSpec (ctxOf at_) n v).ctx (ctxOf at_)).loads = [] := by rw [hctx]; exact hr.loads
  have hi : ∀ j, ((s.putSpec (ctxOf at_) n v).ctx (ctxOf at_)).innermost = some j →
      ((s.putSpec (ctxOf at_) n v).ctx (ctxOf at_)).leAddr j ∉ slotsOf (s.ctx (ctxOf at_)).pc 4 := by
    rw [hctx]; exact Ctx.noLoopEnd_setSp hr.innermost hlc
  obtain ⟨t1, c1, w1⟩ := State.retire_seq _ _ _ ((s.ctx (ctxOf at_)).pc + p64 4) hl hi
  refine ⟨_, mtsRow_seq hrow h hok (X.mtsWrite_ctx _ hn hv) hl hi (hu.calm.trans hr.calm) hu.pending, hu.trans t1, ?_, w1⟩
  rw [c1, hctx, (hr.plain.setSp n v).marked_setPc]
  rfl

theorem Ctx.sp_retired_setSp (c : Ctx) {n m : Nat} (v next : Pay) (hm : m ≠ Sr.pc) :
    ((c.setSp n v).retired next).sp m = if n = m then v else c.sp m := by
  rw [Ctx.sp_retired, if_neg (Ne.symm hm), Ctx.sp_setSp]

/-- The retired write of a register held per context changes nothing else. -/
theorem wroteSpec_of_retired {s t : State} {x n : Nat} {v : Pay} (hn : n ≠ Sr.pc) (near : Near s x t)
    (hctx : t.ctx x = ((s.ctx x).setSp n v).retired ((s.ctx x).pc + 4))
    (htwin : t.twin (twinOf x) = { s.twin (twinOf x) with misr := (t.twin (twinOf x)).misr, groups := (t.twin (twinOf x)).groups }) :
    WroteSpec s x n v t where
  rest := near.rest
  others := near.others
  own := by rw [hctx]; rfl
  twins := near.twins
  twin := htwin
  value := by rw [hctx, Ctx.sp_retired_setSp _ _ _ hn, if_pos rfl]
  regs _ := by rw [hctx]; rfl
  pc := by rw [hctx, Ctx.pc_retired]
  spec m hm hp := by rw [hctx, Ctx.sp_retired_setSp _ _ _ hp, if_neg (Ne.symm hm)]

/-! ### Registers held per core -/

/-- What a core latches of a vector table rests on memory, device registers and caches alone. -/
theorem State.latchOf_congr {s t : State} (h : t = { s with ctxs := t.ctxs, twins := t.twins, cores := t.cores })
    (k base : Nat) (ring0 : Bool) :
    t.latchOf k base ring0 = s.latchOf k base ring0 := by
  rw [h]; rfl

/-- u is s with core k as c, and perhaps a new signature in the window of context x's twin. -/
structure CoreSet (s : State) (x k : Nat) (c : Core) (u : State) : Prop where
  rest : u = { s with ctxs := u.ctxs, twins := u.twins, cores := u.cores }
  ctxs : ∀ y, u.ctx y = s.ctx y
  core : u.core k = c
  cores : ∀ j, j ≠ k → u.core j = s.core j
  twins : ∀ w, w ≠ twinOf x → u.twin w = s.twin w
  twin : u.twin (twinOf x) = { s.twin (twinOf x) with misr := (u.twin (twinOf x)).misr }

theorem CoreSet.calm {s u : State} {x k : Nat} {c : Core} (h : CoreSet s x k c u) : u.calm = s.calm := by
  rw [h.rest]; rfl

theorem CoreSet.pending {s u : State} {x k : Nat} {c : Core} (h : CoreSet s x k c u) : u.pending = s.pending := by
  rw [h.rest]

theorem CoreSet.setCore {s u : State} {x k : Nat} {c : Core} (h : CoreSet s x k c u) (d : Core) : CoreSet s x k d (u.setCore k d) where
  rest := by rw [h.rest]; rfl
  ctxs := h.ctxs
  core := State.core_setCore_self u k d
  cores j hj := by rw [State.core_setCore, if_neg (Ne.symm hj), h.cores j hj]
  twins := h.twins
  twin := h.twin

/-- A register held per core: the core's register, and the signature. -/
theorem State.putSpec_core (s : State) (x n : Nat) (v : Pay) (hn : srPerCtx n = false) :
    CoreSet s x (s.coreOf x) ((s.core (s.coreOf x)).setSp n v) (s.putSpec x n v) := by
  have hsqt : n ≠ Sr.sqt := by rintro rfl; exact absurd hn (by decide)
  have hput : s.putSpec x n v = if s.isTight x
      then (s.setCore (s.coreOf x) ((s.core (s.coreOf x)).setSp n v)).sign (twinOf x) (signReg x (0x1000 + n) 0 ⟨srTag n, v⟩)
      else s.setCore (s.coreOf x) ((s.core (s.coreOf x)).setSp n v) := by
    simp only [State.putSpec, if_neg hsqt, hn, Bool.false_eq_true, if_false, State.updCore_eq]
  have hset : CoreSet s x (s.coreOf x) ((s.core (s.coreOf x)).setSp n v)
      (s.setCore (s.coreOf x) ((s.core (s.coreOf x)).setSp n v)) :=
    CoreSet.setCore ⟨rfl, fun _ => rfl, rfl, fun _ _ => rfl, fun _ _ => rfl, rfl⟩ _
  rw [hput]
  split
  · exact ⟨rfl, hset.ctxs, hset.core, hset.cores,
      fun w hw => by rw [State.sign, State.updTwin_eq, State.twin_setTwin, if_neg (Ne.symm hw)]; rfl,
      by rw [State.sign, State.updTwin_eq, State.twin_setTwin_self]; rfl⟩
  · exact hset

/-- The retirement of an instruction that changed its core alone. -/
theorem onlyCore_retire {s u : State} {at_ : At} {k : Nat} {c : Core} (h : Ready s at_ 4) (hu : CoreSet s (ctxOf at_) k c u) :
    let t := u.retire (ctxOf at_) (slotsOf (s.ctx (ctxOf at_)).pc 4) ((s.ctx (ctxOf at_)).pc + p64 4) none
    OnlyCore s (ctxOf at_) k t ∧ (∀ r, (t.ctx (ctxOf at_)).rdKey r = (s.ctx (ctxOf at_)).rdKey r) ∧ t.core k = c := by
  intro t
  obtain ⟨t1, c1, w1⟩ : Near u (ctxOf at_) t ∧ t.ctx (ctxOf at_) = (u.ctx (ctxOf at_)).marked.setPc ((s.ctx (ctxOf at_)).pc + p64 4) ∧
      t.twin (twinOf (ctxOf at_)) = { u.twin (twinOf (ctxOf at_)) with groups := (t.twin (twinOf (ctxOf at_))).groups } :=
    State.retire_seq u _ _ _ (by rw [hu.ctxs]; exact h.loads) (h.noLoopEnd (by rw [hu.ctxs]) _)
  rw [hu.ctxs, h.plain.marked_setPc] at c1
  clear_value t
  refine ⟨⟨?_, ?_, ?_, ?_, ?_, ?_, ?_, ?_⟩, ?_, ?_⟩
  · rw [t1.rest, hu.rest]
  · intro y hy; rw [t1.others y hy, hu.ctxs]
  · rw [c1]; rfl
  · rw [c1, Ctx.pc_retired]; rfl
  · intro n hn; rw [c1, Ctx.sp_retired, if_neg (Ne.symm hn)]
  · intro j hj; rw [t1.core, hu.cores j hj]
  · intro w hw; rw [t1.twins w hw, hu.twins w hw]
  · rw [w1, hu.twin]
  · intro r; rw [c1]; rfl
  · rw [t1.core, hu.core]

/-- A field of a payload masked to that field. -/
theorem fld_and_maskFld (v : Pay) {hi lo : Nat} (h : hi < 64) (hl : lo ≤ hi) : fld (v &&& maskFld hi lo) hi lo = fld v hi lo := by
  apply Nat.eq_of_testBit_eq
  intro i
  have hand : bit (v &&& maskFld hi lo) (lo + i) = (bit v (lo + i) && bit (maskFld hi lo) (lo + i)) := by
    simp only [bit, BitVec.getLsbD_and]
  rw [testBit_fld, testBit_fld, hand, bit_maskFld _ _ _ h hl]
  by_cases hi' : i < hi + 1 - lo
  · have : lo ≤ lo + i ∧ lo + i ≤ hi := by omega
    simp [this]
  · simp [hi']

/-- TVB reloads the latch of the ring 1 table from the base just written (R443). -/
theorem State.reloadTvb_putSpec (s : State) (x : Nat) (v : Pay) :
    CoreSet s x (s.coreOf x)
      { (s.core (s.coreOf x)).setSp Sr.tvb (v &&& srMask Sr.tvb) with
        latch1 := s.latchOf (s.coreOf x) (fld v 47 11 * 2048) false }
      ((s.putSpec x Sr.tvb (v &&& srMask Sr.tvb)).reloadTvb (s.coreOf x)) := by
  have hu := State.putSpec_core s x Sr.tvb (v &&& srMask Sr.tvb) rfl
  have hbase : fld ((s.core (s.coreOf x)).setSp Sr.tvb (v &&& srMask Sr.tvb) |>.sp Sr.tvb) 47 11 = fld v 47 11 := by
    rw [Core.sp_setSp_self]
    exact fld_and_maskFld v (by decide) (by decide)
  rw [State.reloadTvb, State.updCore_eq, hu.core, hbase, State.latchOf_congr hu.rest]
  exact hu.setCore _

theorem Core.sp_setSp_ne (c : Core) {n m : Nat} (v : Pay) (h : m ≠ n) : (c.setSp n v).sp m = c.sp m := by
  rw [Core.sp_setSp, if_neg (Ne.symm h)]

/-- MTS to a register held per core. -/
theorem mts_core {i : Instr} {s : State} {at_ : At} {a : BitVec 5} {n : Nat} (hrow : mtsRow i = some (at_, a, n))
    (h : s.ready at_ 4 = true) (hok : s.mtsOk (ctxOf at_) n (s.gr (ctxOf at_) a).tag = true)
    (hn : n = Sr.tvb ∨ n = Sr.gtb ∨ n = Sr.rtb ∨ n = Sr.ckm ∨ n = Sr.cyc) :
    ∃ t, exec i s = .next t ∧ OnlyCore s (ctxOf at_) (s.coreOf (ctxOf at_)) t ∧
      (∀ r, (t.ctx (ctxOf at_)).rdKey r = (s.ctx (ctxOf at_)).rdKey r) ∧
      t.core (s.coreOf (ctxOf at_)) =
        { (s.core (s.coreOf (ctxOf at_))).setSp n ((s.gr (ctxOf at_) a).pay &&& srMask n) with
          latch1 := if n = Sr.tvb then s.latchOf (s.coreOf (ctxOf at_)) (fld (s.gr (ctxOf at_) a).pay 47 11 * 2048) false
            else (s.core (s.coreOf (ctxOf at_))).latch1 } := by
  have hr := State.ready_iff s at_ 4 h
  have goes {u : State} {c : Core} (hu : CoreSet s (ctxOf at_) (s.coreOf (ctxOf at_)) c u)
      (hb : X.mtsWrite n (s.gr (ctxOf at_) a).pay (startRun s at_) = .ok .seq { startRun s at_ with s := u }) :
      ∃ t, exec i s = .next t ∧ OnlyCore s (ctxOf at_) (s.coreOf (ctxOf at_)) t ∧
        (∀ r, (t.ctx (ctxOf at_)).rdKey r = (s.ctx (ctxOf at_)).rdKey r) ∧ t.core (s.coreOf (ctxOf at_)) = c :=
    ⟨_, mtsRow_seq hrow h hok hb (by rw [hu.ctxs]; exact hr.loads) (hr.noLoopEnd (by rw [hu.ctxs]) _) (hu.calm.trans hr.calm) hu.pending,
      onlyCore_retire hr hu⟩
  rcases hn with rfl | hn
  · rw [if_pos rfl]
    exact goes (State.reloadTvb_putSpec _ _ _) (X.mtsWrite_tvb _ _)
  · have htvb : n ≠ Sr.tvb := by obtain rfl | rfl | rfl | rfl := hn <;> decide
    have hper : srPerCtx n = false := by obtain rfl | rfl | rfl | rfl := hn <;> rfl
    rw [if_neg htvb]
    exact goes (State.putSpec_core _ _ _ _ hper) (X.mtsWrite_core _ _ hn)

/-- MFS: the register read is written to D. -/
theorem mfs_wrote {s : State} {at_ : At} {f : IF} {rd : Nat} {wr : Option Nat} (h : s.ready at_ 4 = true) (ha : f.a = 0)
    (himm : f.imm.toNat < 4096) (hs : srRings f.imm.toNat = some (rd, wr)) (hring : (s.ctx (ctxOf at_)).ring ≤ rd) :
    ∃ t, exec (.mfs at_ f) s = .next t ∧ WroteReg s (ctxOf at_) 4 f.d (s.readSpec (ctxOf at_) f.imm.toNat) t := by
  have hv : (immPay 0x1E 16 f.imm.toNat).toNat = f.imm.toNat := immPay_unsigned rfl (by omega)
  have hrsv : ({ metaR 0x1E 0 with useA := false, useB := false } : Meta).rsvI f = true := by simp [Meta.rsvI, metaR, ha]
  refine issue_wrote h false _ f.d _ ?_
  refine (rowI_body (maj := 0x1E) rfl (Bool.and_eq_true_iff.mpr ⟨hrsv, decide_eq_true himm⟩) rfl rfl (fun v => opMfs f.d v.toNat)).trans ?_
  show opMfs f.d (immPay 0x1E 16 f.imm.toNat).toNat (startRun s at_) = _
  rw [hv, opMfs, X.bind_ok (X.srCheck_read (startRun s at_) hs hring)]
  rfl

/-! ### The statement -/

/-- Settles O11: MFS by the checks it passes; every MTS row as one write, whose register is the context's (the loop levels
being such that the instruction is no end slot), SQT with what the twin keeps of it, or the core's. -/
theorem specialRegisters : Obligations.SpecialRegisters := by
  unfold Obligations.SpecialRegisters
  refine ⟨fun s at_ f rd wr h ha himm hs hring => mfs_wrote h ha himm hs hring, ?_, ?_, ?_⟩
  · intro i s at_ a n v hrow h hok hn hv hlc hq
    obtain ⟨hu, hctx, hw⟩ := State.putSpec_ctx s (ctxOf at_) n v hn hq
    obtain ⟨t, he, near, hc, ht⟩ := mts_ctx hrow h hok hn hv hlc hu hctx
    exact ⟨t, he, wroteSpec_of_retired (State.mtsOk_ne_pc hok) near hc (by rw [ht, hw])⟩
  · intro i s at_ a x c hrow h hok ht
    obtain ⟨hu, hctx, hw⟩ := State.putSpec_sqt s x ((s.gr x a).pay &&& srMask Sr.sqt) ht
    obtain ⟨t, he, near, hc, htw⟩ := mts_ctx hrow h hok rfl rfl (fun _ hle => absurd hle (by decide)) hu hctx
    refine ⟨t, he, near.rest, near.others, ?_, ?_, ?_, ?_⟩
    · rw [hc, Ctx.sp_retired_setSp _ _ _ (by decide), if_pos rfl]
    · rw [hc, Ctx.pc_retired]
    · intro r; rw [hc]; rfl
    · rw [htw, ← hw]
  · intro i s at_ a n x k v hrow h hok hn
    obtain ⟨t, he, honly, hregs, hcore⟩ := mts_core hrow h hok hn
    refine ⟨t, he, honly, hregs, ?_, ?_, ?_, ?_⟩
    · rw [hcore]; exact Core.sp_setSp_self _ _ _
    · intro m hm; rw [hcore]; exact Core.sp_setSp_ne _ _ hm
    · rw [hcore]; rfl
    · rw [hcore]

end Sys2Proof.Machine
end

section
/-!
PROOFS. Events and waits: WFE, WAITT, AGREE, SEV and the event latch (R197 to R213).
-/
namespace Sys2Proof.Machine

/-! ### Registers of a context that goes on -/

theorem regKey_ne_zero (bank : Nat) {d : BitVec 5} (hd : d ≠ 0) : regKey bank d ≠ 0 := by
  unfold regKey
  split
  · intro h; exact hd (BitVec.eq_of_toNat_eq (by simpa using h))
  · omega

theorem Ctx.rdKey_congr {c e : Ctx} (h : e.regs = c.regs) (k : Nat) : e.rdKey k = c.rdKey k := by
  simp only [Ctx.rdKey, h]

theorem Ctx.bank_congr {c e : Ctx} (h : e.sp Sr.winb = c.sp Sr.winb) : e.bank = c.bank := by
  unfold Ctx.bank Ctx.tb Ctx.home
  rw [h]

/-- A register write leaves the other registers alone. -/
theorem Ctx.rdKey_wr_ne (c : Ctx) {d : BitVec 5} (w : Word) {k : Nat} (hk : k ≠ regKey c.bank d) : (c.wr d w).rdKey k = c.rdKey k := by
  rw [Ctx.wr, Ctx.rdKey_wrKey, if_neg (Ne.symm hk)]
  split
  · next h0 => rw [h0]; rfl
  · rfl

/-- A context with the registers that a write to d left, its bank being as before, reads the word written. -/
theorem Ctx.rd_of_written {c e : Ctx} {d : BitVec 5} {w : Word} (hd : d ≠ 0) (hregs : e.regs = (c.wr d w).regs)
    (hw : e.sp Sr.winb = c.sp Sr.winb) : e.rd d = w := by
  rw [Ctx.rd, Ctx.bank_congr hw, Ctx.rdKey_congr hregs, Ctx.wr, Ctx.rdKey_wrKey, if_neg (regKey_ne_zero _ hd), if_pos rfl]

theorem Ctx.sr_wr (c : Ctx) (d : BitVec 5) (w : Word) : (c.wr d w).sr = c.sr := by rw [Ctx.wr_same]

theorem Ctx.sp_congr {c e : Ctx} (h : e.sr = c.sr) (n : Nat) : e.sp n = c.sp n := by rw [Ctx.sp, Ctx.sp, h]

/-! ### The end of a wait -/

/-- What a context holds once it is marked and goes on. -/
theorem Ctx.marked_setPc_same (c : Ctx) (next : Pay) :
    (c.marked.setPc next).run = .run ∧ (c.marked.setPc next).latch = c.latch ∧ (c.marked.setPc next).pc = next ∧
      (c.marked.setPc next).regs = c.regs ∧ (c.marked.setPc next).sp Sr.winb = c.sp Sr.winb := by
  obtain ⟨hsr, hregs, hlatch⟩ := Ctx.marked_same c
  refine ⟨rfl, hlatch, Ctx.pc_setPc _ _, hregs, ?_⟩
  rw [Ctx.setPc, Ctx.sp_setSp, if_neg (by decide)]
  exact Ctx.sp_congr hsr _

/-- The latch of a context takes no part in what asynchronous exception it takes. -/
theorem State.async_latch (s : State) (x : Nat) (b : Bool) : (s.setCtx x { s.ctx x with latch := b }).async x = s.async x := by
  unfold State.async
  rw [State.ctx_setCtx_self]
  rfl

/-- The latch of a context that runs is set (R197). -/
theorem State.latchCtx_run {s : State} {x : Nat} (h : (s.ctx x).run = .run) :
    s.latchCtx x = s.setCtx x { s.ctx x with latch := true } := by
  rw [State.latchCtx, State.updCtx_eq, State.wakeWait]
  simp only [State.ctx_setCtx_self, h]
  split
  · rfl
  · split <;> rfl

/-- A context that waits in WFE consumes its set latch and retires, unless it takes an exception (R199). -/
theorem State.wakeWait_wfe {s : State} {x : Nat} (hl : (s.ctx x).latch = true) (h : (s.ctx x).run = .wfe) (ha : s.async x = none) :
    s.wakeWait x = (s.setCtx x { s.ctx x with latch := false }).retire x [(s.ctx x).pc] ((s.ctx x).pc + 4) none := by
  rw [State.wakeWait]
  simp only [hl, ha, h, State.updCtx_eq]
  rfl

/-- The latch set at a context that waits in WFE ends the wait, with the latch clear again. -/
theorem State.latchCtx_wfe {s : State} {x : Nat} (h : (s.ctx x).run = .wfe) (hloads : (s.ctx x).loads = [])
    (hi : (s.ctx x).innermost = none) (ha : s.async x = none) :
    Near s x (s.latchCtx x) ∧
      (s.latchCtx x).ctx x = ({ s.ctx x with latch := false } : Ctx).marked.setPc ((s.ctx x).pc + 4) := by
  have hu := State.ctx_setCtx_self s x { s.ctx x with latch := true }
  have near := near_setCtx s x { s.ctx x with latch := true }
  have hau := (State.async_latch s x true).trans ha
  rw [State.latchCtx, State.updCtx_eq]
  generalize s.setCtx x { s.ctx x with latch := true } = u at hu near hau
  rw [State.wakeWait_wfe (by rw [hu]) (by rw [hu]; exact h) hau]
  have hv : (u.setCtx x { u.ctx x with latch := false }).ctx x = { s.ctx x with latch := false } := by
    rw [State.ctx_setCtx_self, hu]
  have hpc : (u.ctx x).pc = (s.ctx x).pc := by rw [hu]; rfl
  obtain ⟨nearV, hctx, -⟩ := State.retire_seq (u.setCtx x { u.ctx x with latch := false }) x [(u.ctx x).pc] ((u.ctx x).pc + 4)
    (by rw [hv]; exact hloads) (by rw [hv]; exact Ctx.noLoopEnd_of hi rfl _)
  exact ⟨(near.trans (near_setCtx u x _)).trans nearV, hctx.trans (by rw [hv, hpc])⟩

/-- An event for a presented context that runs on a core reaches that context alone, out of loose mode (R477, R497). -/
theorem State.setLatch_one {s : State} {y : Nat} (hp : s.powered (s.presented y) = true) (hl : s.isLoose (s.presented y) = false) :
    s.setLatch y = s.latchCtx (s.presented y) := by
  simp only [State.setLatch, hp, if_true, State.reached, hl, Bool.false_eq_true, if_false, List.foldl_cons, List.foldl_nil]

/-! ### Outputs that leave at once -/

theorem settleN_empty {s : State} (h : s.outbox = []) (n : Nat) : settleN n s = s := by
  cases n with
  | zero => rfl
  | succ n => simp only [settleN, h]

/-- One output of a machine at rest is carried out, and nothing follows when the machine is then at rest again. -/
theorem State.settle_one {s : State} {o : Out} (hc : s.calm = true) (hp : (s.perform o).calm = true) :
    ({ s with outbox := s.outbox ++ [o] } : State).settle = s.perform o := by
  have empty {u : State} (h : u.calm = true) : u.outbox = [] := by
    simp only [State.calm, Bool.and_eq_true, List.isEmpty_iff] at h
    exact h.1.1.1
  have hsame : ({ s with outbox := [] } : State) = s := by rw [← empty hc]
  have hfirst : settleN 4096 { s with outbox := s.outbox ++ [o] } = settleN 4095 (({ s with outbox := [] } : State).perform o) := by
    rw [empty hc]; rfl
  have hrest : (s.perform o).absorbAll.restartDue.checkWake = s.perform o := by
    have h := State.settle_of_calm _ hp
    rwa [State.settle, settleN_empty (empty hp)] at h
  rw [State.settle, hfirst, hsame, settleN_empty (empty hp), hrest]

/-! ### The bodies -/

theorem X.rdUsed_run {a : BitVec 5} (r : Run) (h : immForm ((r.s.ctx r.x).rd a) = true) :
    X.rdUsed a r = .ok ((r.s.ctx r.x).rd a) r := by
  unfold X.rdUsed
  rw [X.bind_ok (X.rd_run r a), X.used, h]
  rfl

/-- The checks of a format R row pass before its body. -/
theorem rowR_body {s : State} {at_ : At} {f : RF} {maj min : Nat} {m : Meta} (hm : rMeta maj min = some m) (hrsv : m.rsvR f = true)
    (hmax : m.ringMax = 3) (hl : (s.ctx (ctxOf at_)).loads = []) (body : Pay → X Flow) (pc : Pay) :
    (do X.decodeChecks ((rMeta maj min).getD (metaR maj min)) (((rMeta maj min).getD (metaR maj min)).rsvR f); body pc : X Flow)
      (startRun s at_) = body pc (startRun s at_) := by
  rw [hm, Option.getD_some, hrsv, X.bind_ok (X.decodeChecks_ok m (startRun s at_) (hmax ▸ ring_le _) (.inr hl))]

theorem opWfe_latched {s : State} {at_ : At} (h : (s.ctx (ctxOf at_)).latch = true) :
    opWfe (startRun s at_) =
      .ok .seq { startRun s at_ with s := s.setCtx (ctxOf at_) { s.ctx (ctxOf at_) with latch := false } } := by
  rw [opWfe, X.bind_ok (X.ctx_run _)]
  show (if (s.ctx (ctxOf at_)).latch then _ else _ : X Flow) _ = _
  rw [h]
  rfl

theorem opWfe_waits {s : State} {at_ : At} (h : (s.ctx (ctxOf at_)).latch = false) :
    opWfe (startRun s at_) = .error (.park .wfe) (startRun s at_) := by
  rw [opWfe, X.bind_ok (X.ctx_run _)]
  show (if (s.ctx (ctxOf at_)).latch then _ else _ : X Flow) _ = _
  rw [h]
  rfl

theorem opWaitt_latched {s : State} {at_ : At} (d a : BitVec 5) (h : (s.ctx (ctxOf at_)).latch = true) :
    opWaitt d a (startRun s at_) =
      .ok .seq { startRun s at_ with
        s := (s.setCtx (ctxOf at_) { s.ctx (ctxOf at_) with latch := false }).wrReg (ctxOf at_) d (Word.fix 1) } := by
  rw [opWaitt, X.bind_ok (X.ctx_run _), X.bind_ok (X.st_run _), X.bind_ok (X.core_run _), X.bind_ok (X.rd_run _ a)]
  show (if (s.ctx (ctxOf at_)).latch then _ else _ : X Flow) _ = _
  rw [h]
  rfl

/-- With the latch clear WAITT goes by its deadline (R205). -/
theorem opWaitt_unlatched {s : State} {at_ : At} (d a : BitVec 5) (h : (s.ctx (ctxOf at_)).latch = false)
    (ha : immForm (s.gr (ctxOf at_) a) = true) :
    opWaitt d a (startRun s at_) =
      if (s.core (s.coreOf (ctxOf at_))).sp Sr.cyc ≥ (s.gr (ctxOf at_) a).pay
      then .ok .seq { startRun s at_ with s := s.wrReg (ctxOf at_) d (Word.fix 0) }
      else .error (.park (.waitt d (s.gr (ctxOf at_) a).pay)) (startRun s at_) := by
  have hused : X.used (s.gr (ctxOf at_) a) (startRun s at_) = .ok () (startRun s at_) := by rw [X.used, ha]; rfl
  rw [opWaitt, X.bind_ok (X.ctx_run _), X.bind_ok (X.st_run _), X.bind_ok (X.core_run _), X.bind_ok (X.rd_run _ a)]
  show (if (s.ctx (ctxOf at_)).latch then _ else _ : X Flow) _ = _
  rw [h, if_neg (by decide)]
  refine (X.bind_ok hused _).trans ?_
  show (if (s.core (s.coreOf (ctxOf at_))).sp Sr.cyc ≥ (s.gr (ctxOf at_) a).pay then _ else _ : X Flow) _ = _
  split <;> rfl

theorem disagrees_self (v tol : Pay) : disagrees v v tol = false := by
  simp [disagrees]

/-- AGREE out of loose mode, without a skew between the cores, returns the input that its selector names (R210, R212). -/
theorem opAgree_run {s : State} {at_ : At} {d a b : BitVec 5} {v : Pay} (hloose : s.isLoose (ctxOf at_) = false)
    (ha : immForm (s.gr (ctxOf at_) a) = true) (hb : immForm (s.gr (ctxOf at_) b) = true)
    (hv : s.agreeInput (fld (s.gr (ctxOf at_) a).pay 15 0) = some v) :
    opAgree d a b none (startRun s at_) =
      .ok .seq { startRun s at_ with
        s := s.wrReg (ctxOf at_) d ⟨agreeTag (fld (s.gr (ctxOf at_) a).pay 15 0), v⟩ } := by
  rw [opAgree, X.bind_ok (X.rdUsed_run (startRun s at_) ha), X.bind_ok (X.rdUsed_run (startRun s at_) hb), X.bind_ok (X.st_run _),
    X.bind_ok (X.ctxNo_run _)]
  have hv' : (startRun s at_).s.agreeInput (fld (((startRun s at_).s.ctx (startRun s at_).x).rd a).pay 15 0) = some v := hv
  have hloose' : (startRun s at_).s.isLoose (startRun s at_).x = false := hloose
  simp only [hv', hloose', Option.getD_none, disagrees_self, Bool.and_false, Bool.false_eq_true, if_false]
  rfl

/-- The inputs by their selectors (R210). -/
theorem State.agreeInput_of {s : State} {sel : Nat} {v : Pay}
    (h : (sel < 16 ∧ v = p64 (b2n (s.evt.getLsbD sel))) ∨ (sel = 0x10 ∧ v = p64 s.evt.toNat)
      ∨ (0x100 ≤ sel ∧ sel < 0x140 ∧ v = p64 (s.rf (oPls + 0x1000 + 0x20 * (sel - 0x100) + 0x18) 31 0))
      ∨ (0x200 ≤ sel ∧ sel < 0x240 ∧ v = p64 (s.rf (oPls + 0x1000 + 0x20 * (sel - 0x200)) 61 61))
      ∨ (sel = 0x300 ∧ v = s.time)) : s.agreeInput sel = some v := by
  unfold State.agreeInput
  obtain ⟨h1, rfl⟩ | ⟨rfl, rfl⟩ | ⟨h1, h2, rfl⟩ | ⟨h1, h2, rfl⟩ | ⟨rfl, rfl⟩ := h
  · rw [if_pos h1]
  · rfl
  · rw [if_neg (by omega), if_neg (by omega), if_pos ⟨h1, h2⟩]
  · rw [if_neg (by omega), if_neg (by omega), if_neg (by omega), if_pos ⟨h1, h2⟩]
  · rfl

/-- SEV in split or solo mode, with its context's stores acknowledged, sets the latch it names (R202, R427). -/
theorem opSev_run {s : State} {at_ : At} {a : BitVec 5} (hc : s.calm = true) (ht : s.isTight (ctxOf at_) = false)
    (hl : s.isLoose (ctxOf at_) = false) (ha : immForm (s.gr (ctxOf at_) a) = true) (hp : s.lastPosted (ctxOf at_) = none)
    (hset : (s.setLatch (fld (s.gr (ctxOf at_) a).pay 7 0)).calm = true) :
    opSev a (startRun s at_) = .ok .seq { startRun s at_ with s := s.setLatch (fld (s.gr (ctxOf at_) a).pay 7 0) } := by
  rw [opSev, X.bind_ok (X.rdUsed_run (startRun s at_) ha), X.bind_ok (X.ctxNo_run _), X.bind_ok (X.core_run _), X.bind_ok (X.st_run _)]
  have hp' : (startRun s at_).s.lastPosted (startRun s at_).x = none := hp
  simp only [hp']
  have hleave : s.leaveCore (ctxOf at_) (.sev (s.coreOf (ctxOf at_)) (fld (s.gr (ctxOf at_) a).pay 7 0)) =
      { s with outbox := s.outbox ++ [.sev (s.coreOf (ctxOf at_)) (fld (s.gr (ctxOf at_) a).pay 7 0)] } := by
    simp only [State.leaveCore, ht, hl, Bool.false_eq_true, if_false]
  have hclose : X.closeWindow { startRun s at_ with
        s := s.leaveCore (ctxOf at_) (.sev (s.coreOf (ctxOf at_)) (fld (s.gr (ctxOf at_) a).pay 7 0)) } =
      .ok () { startRun s at_ with s := s.setLatch (fld (s.gr (ctxOf at_) a).pay 7 0) } := by
    rw [hleave]
    unfold X.closeWindow
    show (if s.isTight (ctxOf at_) = true then _ else _) = _
    rw [ht, if_neg (by decide)]
    show EStateM.Result.ok () _ = _
    rw [State.settle_one (o := .sev _ (fld (s.gr (ctxOf at_) a).pay 7 0)) hc hset]
    rfl
  exact (X.bind_ok (X.upd_run _ _) _).trans (X.bind_ok hclose _)

/-! ### The rows -/

theorem Ctx.Plain.setLatch {c : Ctx} (h : c.Plain) (b : Bool) : ({ c with latch := b } : Ctx).Plain :=
  ⟨h.run, h.slot, h.grants, h.obs, h.inflight, h.loads, h.stepping⟩

theorem Ctx.Plain.wr {c : Ctx} (h : c.Plain) (d : BitVec 5) (w : Word) : (c.wr d w).Plain := by
  rw [Ctx.wr_same]
  exact ⟨h.run, h.slot, h.grants, h.obs, h.inflight, h.loads, h.stepping⟩

/-- A ready format R row whose body leaves u, with the context plain and its special registers as before: the context goes
on, and outside tight mode no twin changes. -/
theorem rowR_goes {s : State} {at_ : At} {f : RF} {maj min : Nat} {m : Meta} (hm : rMeta maj min = some m) (hrsv : m.rsvR f = true)
    (hmax : m.ringMax = 3) (h : s.ready at_ 4 = true) {body : Pay → X Flow} {u : State}
    (hb : body (s.ctx (ctxOf at_)).pc (startRun s at_) = .ok .seq { startRun s at_ with s := u })
    (hp : (u.ctx (ctxOf at_)).Plain) (hsr : (u.ctx (ctxOf at_)).sr = (s.ctx (ctxOf at_)).sr)
    (hc : u.calm = true) (hq : u.pending = s.pending) :
    ∃ t, fin s (s.rowR at_ f maj min false body) = .next t ∧ Near u (ctxOf at_) t ∧
      t.ctx (ctxOf at_) = (u.ctx (ctxOf at_)).retired ((s.ctx (ctxOf at_)).pc + 4) ∧
      (u.isTight (ctxOf at_) = false → t.twins = u.twins) := by
  have hr := State.ready_iff s at_ 4 h
  have hi := hr.noLoopEnd hsr (slotsOf (s.ctx (ctxOf at_)).pc 4)
  obtain ⟨near, hctx, -⟩ := State.retire_seq u (ctxOf at_) _ ((s.ctx (ctxOf at_)).pc + p64 4) hp.loads hi
  refine ⟨_, issue_seq h false ((rowR_body hm hrsv hmax hr.loads body _).trans hb) hp.loads hi hc hq, near, ?_,
    State.retire_twins _ _ _ _ hp.loads⟩
  rw [hctx, hp.marked_setPc]
  rfl

/-- A ready format R row whose body waits, to run anew. -/
theorem rowR_parks {s : State} {at_ : At} {f : RF} {maj min : Nat} {m : Meta} (hm : rMeta maj min = some m) (hrsv : m.rsvR f = true)
    (hmax : m.ringMax = 3) (h : s.ready at_ 4 = true) {body : Pay → X Flow} {p : RunState}
    (hb : body (s.ctx (ctxOf at_)).pc (startRun s at_) = .error (.park p) (startRun s at_))
    (hw : p.within = false) (hp : parkedAs 4 p = p) :
    fin s (s.rowR at_ f maj min false body) = .next (s.setCtx (ctxOf at_) { s.ctx (ctxOf at_) with run := p }) :=
  issue_parks h false ((rowR_body hm hrsv hmax (State.ready_iff s at_ 4 h).loads body _).trans hb) hw hp

/-- A ready format R row whose body writes one register. -/
theorem rowR_wrote {s : State} {at_ : At} {f : RF} {maj min : Nat} {m : Meta} (hm : rMeta maj min = some m) (hrsv : m.rsvR f = true)
    (hmax : m.ringMax = 3) (h : s.ready at_ 4 = true) {body : Pay → X Flow} {d : BitVec 5} {w : Word}
    (hb : body (s.ctx (ctxOf at_)).pc (startRun s at_) = .ok .seq { startRun s at_ with s := s.wrReg (ctxOf at_) d w }) :
    ∃ t, fin s (s.rowR at_ f maj min false body) = .next t ∧ WroteReg s (ctxOf at_) 4 d w t :=
  issue_wrote h false _ d w ((rowR_body hm hrsv hmax (State.ready_iff s at_ 4 h).loads body _).trans hb)

/-- WFE uses no field. -/
theorem wfe_rsv : (metaR 0x26 0).bare.breaks.rsvR {} = true := rfl

/-- WAITT uses D and A (R100). -/
theorem waitt_rsv {f : RF} (hb : f.b = 0) (hr : f.rsv = 0) : (metaR 0x26 2).da.breaks.rsvR f = true := by
  simp [Meta.rsvR, Meta.da, Meta.breaks, metaR, hb, hr]

/-- WFE on a set latch consumes it and goes on (R199). -/
theorem wfe_latched {s : State} {at_ : At} (h : s.ready at_ 4 = true) (hl : (s.ctx (ctxOf at_)).latch = true) :
    ∃ t, exec (.wfe at_ {}) s = .next t ∧ Near s (ctxOf at_) t ∧
      t.ctx (ctxOf at_) = ({ s.ctx (ctxOf at_) with latch := false } : Ctx).retired ((s.ctx (ctxOf at_)).pc + 4) := by
  have hr := State.ready_iff s at_ 4 h
  have hn := near_setCtx s (ctxOf at_) { s.ctx (ctxOf at_) with latch := false }
  have hctx := State.ctx_setCtx_self s (ctxOf at_) { s.ctx (ctxOf at_) with latch := false }
  obtain ⟨t, he, near, ht, -⟩ := rowR_goes (maj := 0x26) (min := 0) (body := fun _ => opWfe) rfl wfe_rsv rfl h (opWfe_latched hl)
    (by rw [hctx]; exact hr.plain.setLatch false) (by rw [hctx]) (hn.calm.trans hr.calm) hn.pending
  exact ⟨t, he, hn.trans near, by rw [ht, hctx]⟩

/-- WAITT on a set latch consumes it and returns FIX : 1 (R205, R206). -/
theorem waitt_latched {s : State} {at_ : At} {f : RF} (h : s.ready at_ 4 = true) (hb : f.b = 0) (hrsv : f.rsv = 0)
    (hl : (s.ctx (ctxOf at_)).latch = true) :
    ∃ t, exec (.waitt at_ f) s = .next t ∧ Near s (ctxOf at_) t ∧
      t.ctx (ctxOf at_) =
        (({ s.ctx (ctxOf at_) with latch := false } : Ctx).wr f.d (Word.fix 1)).retired ((s.ctx (ctxOf at_)).pc + 4) := by
  have hr := State.ready_iff s at_ 4 h
  have hn := near_setCtx s (ctxOf at_) { s.ctx (ctxOf at_) with latch := false }
  obtain ⟨hw, hctx, -⟩ := State.wrReg_plain (s.setCtx (ctxOf at_) { s.ctx (ctxOf at_) with latch := false }) (ctxOf at_) f.d (Word.fix 1)
  rw [State.ctx_setCtx_self] at hctx
  have hu := hn.trans hw
  obtain ⟨t, he, near, ht, -⟩ := rowR_goes (maj := 0x26) (min := 2) (body := fun _ => opWaitt f.d f.a) rfl (waitt_rsv hb hrsv) rfl h
    (opWaitt_latched f.d f.a hl) (by rw [hctx]; exact (hr.plain.setLatch false).wr _ _) (by rw [hctx, Ctx.sr_wr])
    (hu.calm.trans hr.calm) hu.pending
  exact ⟨t, he, hu.trans near, by rw [ht, hctx]⟩

/-- WFE with the latch clear waits (R199). -/
theorem wfe_waits {s : State} {at_ : At} (h : s.ready at_ 4 = true) (hl : (s.ctx (ctxOf at_)).latch = false) :
    exec (.wfe at_ {}) s = .next (s.setCtx (ctxOf at_) { s.ctx (ctxOf at_) with run := .wfe }) :=
  rowR_parks (maj := 0x26) (min := 0) (body := fun _ => opWfe) rfl wfe_rsv rfl h (opWfe_waits hl) rfl rfl

/-- WAITT with the latch clear, its deadline reached, returns FIX : 0 (R205). -/
theorem waitt_reached {s : State} {at_ : At} {f : RF} (h : s.ready at_ 4 = true) (hb : f.b = 0) (hrsv : f.rsv = 0)
    (hl : (s.ctx (ctxOf at_)).latch = false) (ha : immForm (s.gr (ctxOf at_) f.a) = true)
    (hle : (s.gr (ctxOf at_) f.a).pay ≤ (s.core (s.coreOf (ctxOf at_))).sp Sr.cyc) :
    ∃ t, exec (.waitt at_ f) s = .next t ∧ WroteReg s (ctxOf at_) 4 f.d (Word.fix 0) t :=
  rowR_wrote (maj := 0x26) (min := 2) (body := fun _ => opWaitt f.d f.a) rfl (waitt_rsv hb hrsv) rfl h
    ((opWaitt_unlatched f.d f.a hl ha).trans (if_pos hle))

/-- WAITT with the latch clear, its deadline ahead, waits for it (R205). -/
theorem waitt_waits {s : State} {at_ : At} {f : RF} (h : s.ready at_ 4 = true) (hb : f.b = 0) (hrsv : f.rsv = 0)
    (hl : (s.ctx (ctxOf at_)).latch = false) (ha : immForm (s.gr (ctxOf at_) f.a) = true)
    (hlt : (s.core (s.coreOf (ctxOf at_))).sp Sr.cyc < (s.gr (ctxOf at_) f.a).pay) :
    exec (.waitt at_ f) s =
      .next (s.setCtx (ctxOf at_) { s.ctx (ctxOf at_) with run := .waitt f.d (s.gr (ctxOf at_) f.a).pay }) :=
  rowR_parks (maj := 0x26) (min := 2) (body := fun _ => opWaitt f.d f.a) rfl (waitt_rsv hb hrsv) rfl h
    ((opWaitt_unlatched f.d f.a hl ha).trans (if_neg (BitVec.not_le.mpr hlt))) rfl rfl

/-- A context retired after a write to d has the word there, and its other registers as before. -/
theorem Ctx.retired_wr (c : Ctx) (d : BitVec 5) (w : Word) (next : Pay) :
    (d ≠ 0 → ((c.wr d w).retired next).rd d = w) ∧
      ∀ k, k ≠ regKey c.bank d → ((c.wr d w).retired next).rdKey k = c.rdKey k := by
  refine ⟨fun hd => Ctx.rd_of_written hd rfl ?_, fun k hk => Ctx.rdKey_wr_ne c w hk⟩
  rw [Ctx.sp_retired, if_neg (by decide)]
  exact Ctx.sp_congr (Ctx.sr_wr c d w) _

/-- An event for a presented context that runs sets its latch. -/
theorem eventLatchSet_run {s : State} {y : BitVec 8} (hc : s.calm = true) (hp : s.powered (s.presented y.toNat) = true)
    (hl : s.isLoose (s.presented y.toNat) = false) (hrun : (s.ctx (s.presented y.toNat)).run = .run) :
    exec (.eventLatchSet y) s =
      .next (s.setCtx (s.presented y.toNat) { s.ctx (s.presented y.toNat) with latch := true }) := by
  have hset := (State.setLatch_one hp hl).trans (State.latchCtx_run hrun)
  have near := near_setCtx s (s.presented y.toNat) { s.ctx (s.presented y.toNat) with latch := true }
  show fin s (s.setLatch y.toNat) = _
  rw [hset, ← near.fin hc, near.settle hc]

/-- An event for a presented context that waits in WFE ends the wait (R199). -/
theorem eventLatchSet_wfe {s : State} {y : BitVec 8} (hc : s.calm = true) (hp : s.powered (s.presented y.toNat) = true)
    (hl : s.isLoose (s.presented y.toNat) = false) (hrun : (s.ctx (s.presented y.toNat)).run = .wfe)
    (hloads : (s.ctx (s.presented y.toNat)).loads = []) (hi : (s.ctx (s.presented y.toNat)).innermost = none)
    (ha : s.async (s.presented y.toNat) = none) :
    ∃ t, exec (.eventLatchSet y) s = .next t ∧
      t.ctx (s.presented y.toNat) =
        ({ s.ctx (s.presented y.toNat) with latch := false } : Ctx).marked.setPc ((s.ctx (s.presented y.toNat)).pc + 4) := by
  obtain ⟨near, hctx⟩ := State.latchCtx_wfe hrun hloads hi ha
  refine ⟨_, ?_, hctx⟩
  show fin s (s.setLatch y.toNat) = _
  rw [State.setLatch_one hp hl, ← near.fin hc, near.settle hc]

/-- SEV to a presented context p that runs: the latch of p is set, and the executing context goes on. -/
theorem sev_run {s : State} {at_ : At} {a : BitVec 5} {y p : Nat} (h : s.ready at_ 4 = true) (ht : s.isTight (ctxOf at_) = false)
    (hl : s.isLoose (ctxOf at_) = false) (ha : immForm (s.gr (ctxOf at_) a) = true) (hy : fld (s.gr (ctxOf at_) a).pay 7 0 = y)
    (hpost : s.lastPosted (ctxOf at_) = none) (hpy : s.presented y = p) (hp : s.powered p = true) (hlp : s.isLoose p = false)
    (hrun : (s.ctx p).run = .run) :
    ∃ t, exec (.sev at_ { a := a }) s = .next t ∧ t = { s with ctxs := t.ctxs } ∧
      t.ctx (ctxOf at_) = ((s.setCtx p { s.ctx p with latch := true }).ctx (ctxOf at_)).retired ((s.ctx (ctxOf at_)).pc + 4) ∧
      ∀ z, z ≠ ctxOf at_ → t.ctx z = (s.setCtx p { s.ctx p with latch := true }).ctx z := by
  subst hpy
  have hr := State.ready_iff s at_ 4 h
  have hset := (State.setLatch_one hp hlp).trans (State.latchCtx_run hrun)
  generalize s.presented y = p at *
  have hcalm := (near_setCtx s p { s.ctx p with latch := true }).calm.trans hr.calm
  have hop := opSev_run hr.calm ht hl ha hpost (by rw [hy, hset]; exact hcalm)
  rw [hy, hset] at hop
  have hplain : ((s.setCtx p { s.ctx p with latch := true }).ctx (ctxOf at_)).Plain ∧
      ((s.setCtx p { s.ctx p with latch := true }).ctx (ctxOf at_)).sr = (s.ctx (ctxOf at_)).sr := by
    rw [State.ctx_setCtx]
    split
    · next hx => rw [hx]; exact ⟨hr.plain.setLatch true, rfl⟩
    · exact ⟨hr.plain, rfl⟩
  obtain ⟨t, he, near, hctx, htw⟩ := rowR_goes (maj := 0x26) (min := 1) (f := { a := a }) (body := fun _ => opSev a) rfl rfl rfl h hop
    hplain.1 hplain.2 hcalm rfl
  refine ⟨t, he, ?_, hctx, near.others⟩
  have hrest := near.rest
  rw [htw ht] at hrest
  exact hrest

/-- What such a SEV leaves at p, at its own context, and elsewhere. -/
theorem sev_sets {s : State} {at_ : At} {a : BitVec 5} {y p : Nat} (h : s.ready at_ 4 = true) (ht : s.isTight (ctxOf at_) = false)
    (hl : s.isLoose (ctxOf at_) = false) (ha : immForm (s.gr (ctxOf at_) a) = true) (hy : fld (s.gr (ctxOf at_) a).pay 7 0 = y)
    (hpost : s.lastPosted (ctxOf at_) = none) (hpy : s.presented y = p) (hp : s.powered p = true) (hlp : s.isLoose p = false)
    (hrun : (s.ctx p).run = .run) :
    ∃ t, exec (.sev at_ { a := a }) s = .next t ∧ t = { s with ctxs := t.ctxs } ∧ (t.ctx p).latch = true ∧
      (t.ctx (ctxOf at_)).pc = (s.ctx (ctxOf at_)).pc + 4 ∧ (∀ k z, (t.ctx z).rdKey k = (s.ctx z).rdKey k) ∧
      ∀ z, z ≠ p → z ≠ ctxOf at_ → t.ctx z = s.ctx z := by
  obtain ⟨t, he, hrest, hx, hz⟩ := sev_run h ht hl ha hy hpost hpy hp hlp hrun
  have hlatch : ((s.setCtx p { s.ctx p with latch := true }).ctx p).latch = true := by rw [State.ctx_setCtx_self]
  have hregs (z : Nat) : ((s.setCtx p { s.ctx p with latch := true }).ctx z).regs = (s.ctx z).regs := by
    rw [State.ctx_setCtx]
    split
    · next hpz => rw [← hpz]
    · rfl
  have hother (z : Nat) (hzp : z ≠ p) := (near_setCtx s p { s.ctx p with latch := true }).others z hzp
  generalize s.setCtx p { s.ctx p with latch := true } = u at *
  refine ⟨t, he, hrest, ?_, by rw [hx, Ctx.pc_retired], fun k z => Ctx.rdKey_congr ?_ k,
    fun z hzp hzx => (hz z hzx).trans (hother z hzp)⟩
  · by_cases hpx : p = ctxOf at_
    · rw [hpx] at hlatch ⊢; rw [hx]; exact hlatch
    · rw [hz p hpx]; exact hlatch
  · by_cases hzx : z = ctxOf at_
    · rw [hzx, hx]; exact hregs _
    · rw [hz z hzx]; exact hregs z

/-- At its deadline a WAITT writes FIX : 0 and retires, on a machine on which CYC of its core has reached the deadline. -/
theorem State.waittDeadline_eq {s : State} {x : Nat} {d : BitVec 5} {dl : Pay} (hrun : (s.ctx x).run = .waitt d dl)
    (hp : s.powered x = true) (hlatch : (s.ctx x).latch = false) (ha : s.async x = none) :
    ∃ s1 : State, s.waittDeadline x = (s1.wrReg x d (Word.fix 0)).retire x [(s.ctx x).pc] ((s.ctx x).pc + 4) none ∧
      (∀ y, s1.ctx y = s.ctx y) ∧ s1.calm = s.calm ∧ s1.pending = s.pending ∧ dl ≤ (s1.core (s.coreOf x)).sp Sr.cyc := by
  have heq : s.waittDeadline x =
      ((if (s.core (s.coreOf x)).sp Sr.cyc < dl
        then s.setCore (s.coreOf x) ((s.core (s.coreOf x)).setSp Sr.cyc dl) else s).wrReg x d (Word.fix 0)).retire x
          [(s.ctx x).pc] ((s.ctx x).pc + 4) none := by
    simp only [State.waittDeadline, hrun, hlatch, ha, hp, Option.isSome_none, Bool.not_true, Bool.false_eq_true, or_self, if_false,
      State.updCore_eq]
  by_cases hlt : (s.core (s.coreOf x)).sp Sr.cyc < dl
  · rw [if_pos hlt] at heq
    refine ⟨_, heq, fun _ => rfl, rfl, rfl, ?_⟩
    rw [State.core_setCore_self, Core.sp_setSp_self]
    exact BitVec.le_refl dl
  · rw [if_neg hlt] at heq
    exact ⟨s, heq, fun _ => rfl, rfl, rfl, BitVec.not_lt.mp hlt⟩

/-- The deadline of a WAITT ends it with FIX : 0 (R205, R206). -/
theorem waittDeadline_ends {s : State} {x : Nat} {d : BitVec 5} {dl : Pay} (hc : s.calm = true) (hrun : (s.ctx x).run = .waitt d dl)
    (hp : s.powered x = true) (hlatch : (s.ctx x).latch = false) (hloads : (s.ctx x).loads = []) (hi : (s.ctx x).innermost = none)
    (ha : s.async x = none) :
    ∃ t, fin s (s.waittDeadline x) = .next t ∧ t.ctx x = ((s.ctx x).wr d (Word.fix 0)).marked.setPc ((s.ctx x).pc + 4) ∧
      dl ≤ (t.core (s.coreOf x)).sp Sr.cyc := by
  obtain ⟨s1, heq, hsame, hcalm, hpend, hcyc⟩ := State.waittDeadline_eq hrun hp hlatch ha
  obtain ⟨nearW, hw, -⟩ := State.wrReg_plain s1 x d (Word.fix 0)
  rw [hsame] at hw
  have hsr : ((s1.wrReg x d (Word.fix 0)).ctx x).sr = (s.ctx x).sr := by rw [hw, Ctx.sr_wr]
  have hl : ((s1.wrReg x d (Word.fix 0)).ctx x).loads = [] := by rw [hw, Ctx.wr_same]; exact hloads
  obtain ⟨nearR, hctx, -⟩ := State.retire_seq _ x [(s.ctx x).pc] ((s.ctx x).pc + 4) hl (Ctx.noLoopEnd_of hi hsr _)
  have near := nearW.trans nearR
  refine ⟨_, ?_, hctx.trans (by rw [hw]), ?_⟩
  · rw [heq, fin, ← hpend]
    exact (congrArg (fun t => fin s1 t) (near.settle (hcalm.trans hc)).symm).trans (near.fin (hcalm.trans hc))
  · rw [near.core]
    exact hcyc

/-! ### The statement -/

/-- Settles O22: each row by what its body does with the latch, the deadline or the selector's input; an event by what the
context it reaches is doing. -/
theorem waitsAndEvents : Obligations.WaitsAndEvents := by
  unfold Obligations.WaitsAndEvents
  refine ⟨⟨?_, ?_⟩, ?_⟩
  · intro s at_ f x c h hb hrsv
    have hr := State.ready_iff s at_ 4 h
    refine ⟨fun hl => ⟨?_, ?_⟩, fun hl => ⟨?_, fun ha hle => ?_, fun ha hlt => ?_⟩⟩
    · obtain ⟨t, he, near, hc⟩ := wfe_latched h hl
      exact ⟨t, he, by rw [hc]; rfl, by rw [hc, Ctx.pc_retired], by rw [hc]; exact hr.run, near.rest, fun k => by rw [hc]; rfl⟩
    · obtain ⟨t, he, near, hc⟩ := waitt_latched h hb hrsv hl
      obtain ⟨hdest, hregs⟩ := Ctx.retired_wr { c with latch := false } f.d (Word.fix 1) (c.pc + 4)
      refine ⟨t, he, ?_, by rw [hc, Ctx.pc_retired], near.rest, fun hd => ?_, fun k hk => ?_⟩
      · rw [hc, Ctx.wr_same]; rfl
      · exact (congrArg (Ctx.rd · f.d) hc).trans (hdest hd)
      · rw [hc]; exact hregs k hk
    · exact ⟨_, wfe_waits h hl, rfl, State.ctx_setCtx_self _ _ _⟩
    · exact waitt_reached h hb hrsv hl ha hle
    · exact ⟨_, waitt_waits h hb hrsv hl ha hlt, rfl, State.ctx_setCtx_self _ _ _⟩
  · intro s at_ f v sel h hrsv hloose ha hb hv
    have hm : (metaR 0x26 3).rsvR f = true := by simp [Meta.rsvR, metaR, hrsv]
    exact rowR_wrote (maj := 0x26) (min := 3) (body := fun _ => opAgree f.d f.a f.b none) rfl hm rfl h
      (opAgree_run hloose ha hb (State.agreeInput_of hv))
  · intro s y p c hc
    refine ⟨fun hp hl hrun => ⟨?_, ?_⟩, fun hp hl hrun hloads hi ha => ?_, fun d dl => ?_⟩
    · exact ⟨_, eventLatchSet_run hc hp hl hrun, rfl, State.ctx_setCtx_self _ _ _,
        fun z hz => (near_setCtx s p _).others z hz⟩
    · exact fun at_ a h ht hla ha hy hpost => sev_sets h ht hla ha hy hpost rfl hp hl hrun
    · obtain ⟨t, he, hctx⟩ := eventLatchSet_wfe hc hp hl hrun hloads hi ha
      obtain ⟨hrun', hlatch, hpc, hregs, -⟩ := Ctx.marked_setPc_same { c with latch := false } (c.pc + 4)
      rw [← hctx] at hrun' hlatch hpc hregs
      exact ⟨t, he, hrun', hlatch, hpc, Ctx.rdKey_congr hregs⟩
    · intro e hrun hp hlatch hloads hi ha
      obtain ⟨t, he, hctx, hcyc⟩ := waittDeadline_ends hc hrun hp hlatch hloads hi ha
      obtain ⟨hrun', -, hpc, hregs, hwinb⟩ := Ctx.marked_setPc_same (e.wr d (Word.fix 0)) (e.pc + 4)
      rw [← hctx] at hrun' hpc hregs hwinb
      exact ⟨t, he, hrun', hpc, fun hd => Ctx.rd_of_written hd hregs (hwinb.trans (Ctx.sp_congr (Ctx.sr_wr e d _) _)), hcyc⟩

end Sys2Proof.Machine
end

section
/-!
PROOFS. A plain load that goes through: what it meets, which neither the caches nor the signature of a tight window change (R391,
R394 to R398, R486, R491).
-/
namespace Sys2Proof.Machine

/-! ### A read that finds the caches as it leaves them -/

/-- With no way barred a fill finds a way. -/
theorem fillWay_isSome (lfsr : Nat) (used : List Nat) : (fillWay 4 lfsr used (fun _ => false)).isSome = true := by
  unfold fillWay
  split
  · rfl
  · rfl

theorem State.bypassL2_of_cached {s : State} {k key : Nat} {cache : Bool} (h : s.uncached k key cache = false) :
    s.bypassL2 k key cache = false := by
  simp only [State.uncached, State.l1dEn, State.bypassL2, Bool.or_eq_false_iff, Bool.not_eq_false', Bool.and_eq_true] at h ⊢
  obtain ⟨⟨hc, -, hl2⟩, hset⟩ := h
  exact ⟨⟨hc, hl2⟩, hset⟩

/-- A fill of the L2 changes nothing, or leaves the line there. -/
theorem State.l2Fill_same {s v : State} {n line : Nat} (h : v.l2Fill n line = s) : v = s ∨ (s.l2At n line).isSome = true := by
  unfold State.l2Fill at h
  split at h
  · exact .inl h
  · split at h
    · exact .inl h
    · split at h
      · exact .inl h
      · refine .inr ?_
        rw [← h, State.updCluster_eq, State.l2At, State.cluster_setCluster_self]
        simp only [Tbl.look_insert_self, Option.isSome_some]

/-- A fill of an L2 that is on takes a line that is not there in, unless no way is free for it (R398, R399). -/
theorem State.l2Way_of_l2Fill_same {s : State} {n line : Nat} (h : s.l2Fill n line = s) (hk : isKeepLine line = false)
    (he : s.l2En n = true) (hl : (s.l2At n line).isNone = true) : (s.l2Way n line).isNone = true := by
  cases hw : s.l2Way n line with
  | none => rfl
  | some w =>
    exfalso
    have hat : s.l2At n line = none := Option.isNone_iff_eq_none.mp hl
    have hin : ((s.l2Fill n line).l2At n line).isSome = true := by
      simp only [State.l2Fill, hk, he, hat, hw, Bool.not_true, Bool.false_eq_true, or_self, if_false, State.updCluster_eq]
      rw [State.l2At, State.cluster_setCluster_self]
      simp only [Tbl.look_insert_self, Option.isSome_some]
    rw [h, hat] at hin
    cases hin

/-- A fill of the L1D leaves the line there, or is no more than the fill of the L2, into which it could not follow. -/
theorem State.l1dFill_same {s v : State} {k line : Nat} (h : v.l1dFill k line = s) :
    (s.l1dAt k line).isSome = true ∨ (v.l2Fill (clusterOfCore k) line = s ∧
      (s.l1dEn k = false ∨ (isKeepLine line = false ∧ (s.l2At (clusterOfCore k) line).isNone = true))) := by
  unfold State.l1dFill at h
  generalize v.l2Fill (clusterOfCore k) line = u at h
  simp only at h
  split at h
  · next hen => subst h; exact .inr ⟨rfl, .inl (by simpa using hen)⟩
  · split at h
    · next hno => subst h; exact .inr ⟨rfl, .inr (by simpa using hno)⟩
    · split at h
      · next l hl => subst h; exact .inl (by rw [hl]; rfl)
      · split at h
        · next hw =>
          have := fillWay_isSome ((u.core k).lfsrD % 4) (waysUsed 128 (line % 128) ((u.core k).l1d.map (fun e => (e.1, e.2.way))))
          rw [State.l1dWay] at hw
          rw [hw] at this
          cases this
        · refine .inl ?_
          rw [← h, State.updCore_eq, State.l1dAt, State.core_setCore_self]
          simp only [Tbl.look_insert_self, Option.isSome_some]

/-- A cached read that leaves the caches as they are found its line in the L1D (R391, R398). -/
theorem State.hit_of_cacheRead_same {s : State} {k key : Nat} {cache : Bool} (hc : s.uncached k key cache = false)
    (h : s.cacheRead k key = s) : (s.l1dAt k (key / 64)).isSome = true := by
  by_contra hmiss
  simp only [State.cacheRead, hmiss, if_false] at h
  simp only [State.uncached, Bool.or_eq_false_iff, Bool.not_eq_false', Bool.and_eq_false_iff, Bool.not_eq_false'] at hc
  obtain ⟨⟨-, hen⟩, hset⟩ := hc
  have hl2 : s.l2En (clusterOfCore k) = true := (Bool.and_eq_true_iff.mp hen).2
  obtain hin | ⟨hfill, hoff | ⟨hkeep, hnone⟩⟩ := State.l1dFill_same h
  · exact hmiss hin
  · rw [hen] at hoff; cases hoff
  · obtain hv | hin := State.l2Fill_same hfill
    · rw [hv] at hfill
      have hway := State.l2Way_of_l2Fill_same hfill hkeep hl2 hnone
      simp [hkeep, hnone, hway] at hset
    · rw [Option.isNone_iff_eq_none.mp hnone] at hin
      cases hin

/-! ### What a load that goes through meets -/

/-- A held output that touches the line of pa (R491). -/
def Out.onLine (pa : Nat) : Out → Bool
  | .store _ _ p _ _ _ | .heal _ _ p _ _ _ => p / 64 = pa / 64
  | .sev _ _ => false

/-- The memory key of an access of context x through `tr`. -/
abbrev State.keyOf (s : State) (x : Nat) (tr : Tr) : Nat := s.key (s.coreOf x) tr.pa
/-- The access bypasses the L1D (R491). -/
abbrev State.far (s : State) (x : Nat) (tr : Tr) : Bool := s.uncached (s.coreOf x) (s.keyOf x tr) tr.cache
/-- The access finds its line in the L1D. -/
abbrev State.l1dHit (s : State) (x : Nat) (tr : Tr) : Bool := (s.l1dAt (s.coreOf x) (s.keyOf x tr / 64)).isSome

/-- What a load from DRAM, Staging SRAM, JNV or the Boot ROM finds on its way there when it goes through: room for its request,
and no held output on its line. -/
structure ReadsMemory (s : State) (x : Nat) (tr : Tr) : Prop where
  range : s.region tr.pa = .dram ∨ s.region tr.pa = .staging ∨ s.region tr.pa = .jnv ∨ s.region tr.pa = .rom
  sends : s.far x tr = true → s.canSend (s.coreOf x) tr.pa .load 8 = true ∧ s.behindStores (s.coreOf x) tr.pa = false
  fetches : s.far x tr = false → s.l1dHit x tr = true ∨ ((s.missOf (s.coreOf x) tr.pa).isNone = true ∧
    s.missRoom (s.coreOf x) false = true ∧ s.canSend (s.coreOf x) tr.pa .line 64 = true)
  unheld : s.isTight x = true → (s.twin (twinOf x)).hold.any (Out.onLine tr.pa) = false

/-- What a load of context x through `tr` meets when `State.reads` holds of it, one field per condition. -/
structure Reads (s : State) (x : Nat) (tr : Tr) : Prop where
  notLoose : s.isLoose x = false
  notSwept : bit ((s.core (s.coreOf x)).sp Sr.cctl) 15 = false
  l2NotSwept : (s.l2Sweeping (clusterOfCore (s.coreOf x)) && tr.cache) = false
  forwarded : s.forwarded x tr.pa (s.word (s.keyOf x tr)) = s.word (s.keyOf x tr)
  unpoisoned : s.poisoned (s.keyOf x tr / 64) = false
  cached : s.isTight x = true → s.far x tr = false
  confirmed : ∀ e ∈ s.twins, e.1 ≠ twinOf x → e.2.provisional (s.keyOf x tr / 64) = false
  bypass : s.bypassL2 (s.coreOf x) (s.keyOf x tr) tr.cache = true → s.cohRead none (s.keyOf x tr / 64) = s
  fills : s.bypassL2 (s.coreOf x) (s.keyOf x tr) tr.cache = false → s.l1dHit x tr = true ∨
    ((s.evicting (s.keyOf x tr / 64)).isNone = true ∧ s.easyFill (s.coreOf x) (s.keyOf x tr / 64) = true ∧
      s.cacheRead (s.coreOf x) (s.keyOf x tr) = s)
  reach : (s.region tr.pa = .keep ∧ keepSource (s.coreOf x) = true) ∨ ReadsMemory s x tr

/-- No held output on the line, as `State.reads` says it. -/
theorem Out.onLine_none {os : List Out} {pa : Nat}
    (h : os.all (fun o => match o with
      | .store _ _ p _ _ _ | .heal _ _ p _ _ _ => decide (p / 64 ≠ pa / 64)
      | .sev _ _ => true) = true) : os.any (Out.onLine pa) = false := by
  rw [List.any_eq_false]
  intro o ho
  have := List.all_eq_true.mp h o ho
  cases o with
  | store => simpa [Out.onLine] using this
  | sev => simp [Out.onLine]
  | heal => simpa [Out.onLine] using this

/-- `ReadsMemory` from what `State.reads` says of these ranges. -/
theorem readsMemory_of {s : State} {x : Nat} {tr : Tr}
    (hr : s.region tr.pa = .dram ∨ s.region tr.pa = .staging ∨ s.region tr.pa = .jnv ∨ s.region tr.pa = .rom)
    (h : ((if s.far x tr then s.canSend (s.coreOf x) tr.pa .load 8 && !s.behindStores (s.coreOf x) tr.pa
        else s.l1dHit x tr || ((s.missOf (s.coreOf x) tr.pa).isNone && s.missRoom (s.coreOf x) false &&
          s.canSend (s.coreOf x) tr.pa .line 64))
      && (!s.isTight x || (s.twin (twinOf x)).hold.all (fun o => match o with
        | .store _ _ p _ _ _ | .heal _ _ p _ _ _ => decide (p / 64 ≠ tr.pa / 64)
        | .sev _ _ => true))) = true) : ReadsMemory s x tr := by
  obtain ⟨hsend, hhold⟩ := Bool.and_eq_true_iff.mp h
  refine ⟨hr, fun hu => ?_, fun hu => ?_, fun ht => ?_⟩
  · simpa [hu] using hsend
  · simpa [hu, and_assoc] using hsend
  · rw [ht] at hhold
    exact Out.onLine_none hhold

theorem State.reads_of {s : State} {x : Nat} {tr : Tr} (h : s.reads x tr = true) : Reads s x tr := by
  unfold State.reads at h
  simp only [Bool.and_eq_true, Bool.not_eq_true', decide_eq_true_eq] at h
  obtain ⟨⟨⟨⟨⟨⟨⟨⟨hloose, hcctl⟩, hl2⟩, hfwd⟩, hpoison⟩, hfar⟩, htwins⟩, hcaches⟩, hreach⟩ := h
  refine ⟨hloose, hcctl, hl2, hfwd, hpoison, ?_, ?_, ?_, ?_, ?_⟩
  · intro ht
    simpa [ht] using hfar
  · intro e he hne
    simpa [hne] using List.all_eq_true.mp htwins e he
  · intro hb
    rw [if_pos hb] at hcaches
    exact of_decide_eq_true hcaches
  · intro hb
    rw [hb, if_neg (by decide)] at hcaches
    simpa [and_assoc] using hcaches
  · cases hr : s.region tr.pa with
    | keep => rw [hr] at hreach; exact .inl ⟨rfl, hreach⟩
    | dram => rw [hr] at hreach; exact .inr (readsMemory_of (.inl hr) hreach)
    | staging => rw [hr] at hreach; exact .inr (readsMemory_of (.inr (.inl hr)) hreach)
    | jnv => rw [hr] at hreach; exact .inr (readsMemory_of (.inr (.inr (.inl hr))) hreach)
    | rom => rw [hr] at hreach; exact .inr (readsMemory_of (.inr (.inr (.inr hr))) hreach)
    | _ => rw [hr] at hreach; cases hreach

/-- In tight mode such a load finds its line in the L1D (R491). -/
theorem Reads.hit {s : State} {x : Nat} {tr : Tr} (h : Reads s x tr) (ht : s.isTight x = true) : s.l1dHit x tr = true := by
  obtain hit | ⟨-, -, hsame⟩ := h.fills (State.bypassL2_of_cached (h.cached ht))
  · exact hit
  · exact State.hit_of_cacheRead_same (h.cached ht) hsame

/-! ### The signature of a tight window -/

/-- u is s but, in tight mode, for the signature of the window of context x's twin (R486). -/
structure Signed (s : State) (x : Nat) (u : State) : Prop where
  rest : u = { s with twins := u.twins }
  untight : s.isTight x = false → u = s
  twin : u.twin (twinOf x) = { s.twin (twinOf x) with misr := (u.twin (twinOf x)).misr }
  others : ∀ t, t ≠ twinOf x → u.twin t = s.twin t
  listed : ∀ e ∈ u.twins, e.1 ≠ twinOf x → e ∈ s.twins

theorem Signed.refl (s : State) (x : Nat) : Signed s x s := ⟨rfl, fun _ => rfl, rfl, fun _ _ => rfl, fun _ he _ => he⟩

theorem Tbl.mem_set {α : Type} [DecidableEq α] {d : Nat → α} {t : Tbl α} {k : Nat} {v : α} {e : Nat × α}
    (h : e ∈ Tbl.set d t k v) (hk : e.1 ≠ k) : e ∈ t := by
  unfold Tbl.set at h
  split at h
  · exact Tbl.mem_erase h
  · obtain rfl | h := Tbl.mem_insert h
    · exact absurd rfl hk
    · exact h

/-- What a load of context x at pa adds to the signature in tight mode. -/
def State.signedLoad (s : State) (x pa width : Nat) : State :=
  if s.isTight x then s.sign (twinOf x) (signLoad pa width) else s

theorem signed_signedLoad (s : State) (x pa width : Nat) : Signed s x (s.signedLoad x pa width) := by
  unfold State.signedLoad
  split
  · next ht =>
    obtain ⟨-, -, htwin⟩ := State.sign_near s x (signLoad pa width)
    refine ⟨rfl, fun h => absurd ht (by rw [h]; decide), htwin, fun t hne => ?_, fun e he hne => ?_⟩
    · rw [State.sign, State.updTwin_eq, State.twin_setTwin, if_neg (Ne.symm hne)]
    · exact Tbl.mem_set (d := fun _ => Twin.reset) (k := twinOf x) (v := _) he hne
  · exact Signed.refl s x

section
variable {s u : State} {x : Nat}

theorem Signed.mode (h : Signed s x u) : (u.twin (twinOf x)).mode = (s.twin (twinOf x)).mode := by rw [h.twin]

theorem Signed.isTight (h : Signed s x u) : u.isTight x = s.isTight x := by rw [State.isTight, State.isTight, h.mode]

theorem Signed.isLoose (h : Signed s x u) : u.isLoose x = s.isLoose x := by rw [State.isLoose, State.isLoose, h.mode]

theorem Signed.coreOf (h : Signed s x u) : u.coreOf x = s.coreOf x := by
  unfold State.coreOf
  rw [h.twin]

theorem Signed.ctx (h : Signed s x u) (y : Nat) : u.ctx y = s.ctx y := by rw [h.rest]; rfl

theorem Signed.calm (h : Signed s x u) : u.calm = s.calm := by rw [h.rest]; rfl

theorem Signed.near (h : Signed s x u) : Near s x u :=
  ⟨by rw [h.rest], fun y _ => h.ctx y, h.others⟩

theorem Signed.trans {v : State} (h : Signed s x u) (g : Signed u x v) : Signed s x v where
  rest := by rw [g.rest, h.rest]
  untight ht := (g.untight (h.isTight.trans ht)).trans (h.untight ht)
  twin := by rw [g.twin, h.twin]
  others t ht := (g.others t ht).trans (h.others t ht)
  listed e he hne := h.listed e (g.listed e he hne) hne

theorem Signed.hen (h : Signed s x u) : u.hen x = s.hen x := by
  funext n
  rw [State.hen, State.hen, h.isLoose, h.coreOf, h.rest]
  rfl

theorem Signed.heapAt (h : Signed s x u) (va : Nat) : u.heapAt (u.hen x) va = s.heapAt (s.hen x) va := by
  rw [h.hen, h.rest]
  rfl

theorem Signed.translate (h : Signed s x u) (ring : Nat) (k : AccKind) (va : Pay) :
    u.translate x ring k va = s.translate x ring k va := by
  unfold State.translate
  rw [h.coreOf, h.rest]
  rfl

theorem Signed.keyOf (h : Signed s x u) (tr : Tr) : u.keyOf x tr = s.keyOf x tr := by
  rw [State.keyOf, h.coreOf, h.rest]
  rfl

theorem Signed.word (h : Signed s x u) (tr : Tr) : u.word (u.keyOf x tr) = s.word (s.keyOf x tr) := by
  rw [h.keyOf, h.rest]
  rfl

theorem Signed.far (h : Signed s x u) (tr : Tr) : u.far x tr = s.far x tr := by
  rw [State.far, h.keyOf, h.coreOf, h.rest]
  rfl

theorem Signed.l1dHit (h : Signed s x u) (tr : Tr) : u.l1dHit x tr = s.l1dHit x tr := by
  rw [State.l1dHit, h.keyOf, h.coreOf, h.rest]
  rfl

theorem Signed.region (h : Signed s x u) (pa : Nat) : u.region pa = s.region pa := by
  rw [h.rest]
  rfl

theorem Signed.poisoned (h : Signed s x u) (line : Nat) : u.poisoned line = s.poisoned line := by
  rw [h.rest]
  rfl

theorem Signed.forwarded (h : Signed s x u) (pa : Nat) (w : Word) : u.forwarded x pa w = s.forwarded x pa w := by
  rw [h.rest]
  rfl

/-- The signature takes no part in what a load meets. -/
theorem Signed.reads (h : Signed s x u) {tr : Tr} (hr : Reads s x tr) : Reads u x tr := by
  cases ht : s.isTight x with
  | false => rw [h.untight ht]; exact hr
  | true =>
    have hfar : u.far x tr = false := (h.far tr).trans (hr.cached ht)
    have hhit : u.l1dHit x tr = true := (h.l1dHit tr).trans (hr.hit ht)
    have hbypass := State.bypassL2_of_cached hfar
    exact {
      notLoose := h.isLoose.trans hr.notLoose
      notSwept := by rw [h.coreOf, h.rest]; exact hr.notSwept
      l2NotSwept := by rw [h.coreOf, h.rest]; exact hr.l2NotSwept
      forwarded := by rw [h.word, h.forwarded]; exact hr.forwarded
      unpoisoned := by rw [h.keyOf, h.poisoned]; exact hr.unpoisoned
      cached := fun _ => hfar
      confirmed := fun e he hne => by rw [h.keyOf]; exact hr.confirmed e (h.listed e he hne) hne
      bypass := fun hb => by rw [hbypass] at hb; cases hb
      fills := fun _ => .inl hhit
      reach := by
        obtain ⟨hkeep, hsource⟩ | hmem := hr.reach
        · exact .inl ⟨(h.region _).trans hkeep, by rw [h.coreOf]; exact hsource⟩
        · exact .inr {
            range := by rw [h.region]; exact hmem.range
            sends := fun hf => by rw [hfar] at hf; cases hf
            fetches := fun _ => .inl hhit
            unheld := fun _ => by rw [h.twin]; exact hmem.unheld ht } }

/-- A load of context x at ring r and `va`, outside every heap, goes through and meets w (R172). -/
def Pops (s : State) (x r : Nat) (va : Pay) (w : Word) : Prop :=
  s.heapAt (s.hen x) va.toNat = none ∧ ∃ tr, s.translate x r .load va = .ok tr ∧ Reads s x tr ∧ s.word (s.keyOf x tr) = w

theorem pops_of_popAt {r : Nat} {va : Pay} {w : Word} (h : s.popAt x r va = some w) : Pops s x r va w := by
  unfold State.popAt at h
  split at h
  · cases h
  · next hheap =>
    refine ⟨not_not.mp hheap, ?_⟩
    cases htr : s.translate x r .load va with
    | error e => rw [htr] at h; cases h
    | ok tr =>
      rw [htr] at h
      obtain ⟨hreads, hw⟩ := Option.ite_none_right_eq_some.mp h
      exact ⟨tr, rfl, State.reads_of hreads, Option.some.inj hw⟩

/-- What is met does not rest on the signature. -/
theorem Signed.pops (h : Signed s x u) {r : Nat} {va : Pay} {w : Word} (hp : Pops s x r va w) : Pops u x r va w := by
  obtain ⟨hheap, tr, htr, hreads, hw⟩ := hp
  exact ⟨(h.heapAt _).trans hheap, tr, (h.translate _ _ _).trans htr, h.reads hreads, (h.word tr).trans hw⟩

end

end Sys2Proof.Machine
end

section
/-!
PROOFS. A plain load that goes through, run: it gives the word of memory, and leaves the machine as it was but for the signature
(R159, R172).
-/
namespace Sys2Proof.Machine

/-! ### The load runs -/

/-- A run whose accesses meet nothing by themselves: the command brings nothing, the context has no answer and no finding to
use, no store is held, and nothing waits to be carried out. -/
structure Undisturbed (r : Run) : Prop where
  met : r.at_.met = .clean
  obs : (r.s.ctx r.x).obs = []
  grants : (r.s.ctx r.x).grants = []
  held : r.held = none
  calm : r.s.calm = true

/-- q is the run r after loads that went through. -/
structure Looked (r q : Run) : Prop where
  x : q.x = r.x
  at_ : q.at_ = r.at_
  held : q.held = r.held
  signed : Signed r.s r.x q.s

theorem Looked.refl (r : Run) : Looked r r := ⟨rfl, rfl, rfl, Signed.refl _ _⟩

theorem Looked.trans {r q p : Run} (h : Looked r q) (g : Looked q p) : Looked r p :=
  ⟨g.x.trans h.x, g.at_.trans h.at_, g.held.trans h.held, h.signed.trans (h.x ▸ g.signed)⟩

theorem Looked.undisturbed {r q : Run} (h : Looked r q) (hu : Undisturbed r) : Undisturbed q where
  met := by rw [h.at_]; exact hu.met
  obs := by rw [h.x, h.signed.ctx]; exact hu.obs
  grants := by rw [h.x, h.signed.ctx]; exact hu.grants
  held := h.held.trans hu.held
  calm := h.signed.calm.trans hu.calm

section
variable {r : Run}

theorem X.met_clean (h : Undisturbed r) : X.met r = .ok .clean { r with acc := r.acc + 1 } := by
  simp only [X.met, h.met, ite_self]

theorem X.grant_none (h : Undisturbed r) : X.grant r = .ok none r := by
  simp only [X.grant, h.obs, h.grants, List.getElem?_nil]

/-- Outside tight mode the window's close carries out nothing, where nothing waits. -/
theorem X.closeWindow_untight (h : Undisturbed r) (ht : r.s.isTight r.x = false) : X.closeWindow r = .ok () r := by
  simp only [X.closeWindow, ht, Bool.false_eq_true, if_false, State.settle_of_calm _ h.calm]

/-- A stack or frame access outside every heap keeps its address (R304). -/
theorem X.accessCheck_raw {va : Pay} {store : Bool} (h : r.s.heapAt (r.s.hen r.x) va.toNat = none) :
    X.accessCheck (Word.raw va) va store r = .ok va r := by
  have hbase : isBasePtr (Word.raw va).tag = false := by
    show isBasePtr Tag.raw = false
    decide
  unfold X.accessCheck
  rw [hbase, if_neg (by decide), X.bind_ok (X.pure_run r none)]
  show (X.st >>= _) r = _
  rw [X.bind_ok (X.st_run r), X.bind_ok (X.ctxNo_run r)]
  simp only [h]
  rfl

/-- A translation that succeeds is noted as a finding (R360, R382). -/
theorem X.translate_load {ring : Nat} {va : Pay} {tr : Tr} (h : Undisturbed r) (ht : r.s.translate r.x ring .load va = .ok tr)
    (hr : Reads r.s r.x tr) :
    X.translate ring .load va .clean r = .ok tr { r with seen := r.seen ++ [.tr tr.pa tr.cache] } := by
  have hl : X.lookup ring .load va .clean r = .ok tr r := by
    have hsweep := hr.l2NotSwept
    unfold X.lookup
    simp only [hr.notSwept, ht, Bool.false_eq_true, false_and, if_false]
    rw [if_neg]
    simpa [Bool.and_eq_false_iff] using hsweep
  have honce : X.once (do let t ← X.lookup ring .load va .clean; pure (.tr t.pa t.cache)) r =
      .ok (.tr tr.pa tr.cache) { r with seen := r.seen ++ [.tr tr.pa tr.cache] } := by
    simp only [X.once, h.obs, List.getElem?_nil, X.bind_ok hl, X.pure_run]
  exact X.bind_ok honce _

end

/-! ### The word of memory that a load gives -/

/-- What a load does once its response may come: the caches look, and the word comes from memory as it stands (`X.loadPhys`). -/
def X.memWord (tr : Tr) (va : Pay) (m : Met) (x k : Nat) : X Word := do
  X.respond m tr.pa va
  let s ← X.st
  let key := s.key k tr.pa
  X.cacheErrors m k key tr.pa
  let s ← X.st
  X.put ((s.twins.filter (fun e => e.1 ≠ twinOf x && e.2.provisional (key / 64))).foldl (fun s e => s.confirm e.1) s)
  let s ← X.st
  if s.bypassL2 k key tr.cache then X.put (s.cohRead none (key / 64)) else X.demand k key (fun s => s.cacheRead k key)
  let s ← X.st
  X.overlaid tr.pa (s.word key)

section
variable {α : Type} {r q : Run} {c : Prop} [Decidable c] {m n : X Unit} {j : Unit → X α}

/-- A step that is made only where c holds, before what follows it. -/
theorem X.when_run (h : (if c then m else pure ()) r = .ok () q) : (if c then m >>= j else j ()) r = j () q := by
  split at h
  · next hc => rw [if_pos hc, X.bind_ok h]
  · next hc => cases h; rw [if_neg hc]

/-- A step that is one or the other, before what follows it. -/
theorem X.either_run (h : (if c then m else n) r = .ok () q) : (if c then m >>= j else n >>= j) r = j () q := by
  split at h
  · next hc => rw [if_pos hc, X.bind_ok h]
  · next hc => rw [if_neg hc, X.bind_ok h]

end

section
variable {r : Run} {tr : Tr}

theorem X.cacheErrors_clean {k key pa : Nat} (h : r.s.poisoned (key / 64) = false) : X.cacheErrors .clean k key pa r = .ok () r := by
  simp only [X.cacheErrors, h, Bool.false_eq_true, if_false]

/-- A demand access that hits, or whose miss leaves the caches as they are, changes nothing. -/
theorem X.demand_same {k key : Nat} (h : (r.s.l1dAt k (key / 64)).isSome = true ∨ ((r.s.evicting (key / 64)).isNone = true ∧
      r.s.easyFill k (key / 64) = true ∧ r.s.cacheRead k key = r.s)) :
    X.demand k key (fun s => s.cacheRead k key) r = .ok () r := by
  unfold X.demand
  rw [X.bind_ok (X.st_run r)]
  by_cases hit : (r.s.l1dAt k (key / 64)).isSome = true
  · simp only [hit, if_true, X.upd_run, State.cacheRead]
  · obtain ⟨hev, heasy, hsame⟩ := h.resolve_left hit
    have hupd : X.upd (fun s => s.cacheRead k key) r = .ok () r := by rw [X.upd_run, hsame]
    simp only [hit, Bool.false_eq_true, if_false, Option.isNone_iff_eq_none.mp hev]
    refine (X.bind_ok (X.evictRoom_easy r k _ heasy) _).trans ((X.bind_ok (X.freeVictims_easy r k _ heasy) _).trans
      ((X.bind_ok hupd _).trans ((X.bind_ok (X.st_run r) _).trans ?_)))
    simp only [hit, Bool.false_eq_true, if_false, X.pure_run]

/-- A load that goes through gives the word of memory, and leaves the machine as it is. -/
theorem X.memWord_run {va : Pay} (h : Undisturbed r) (hr : Reads r.s r.x tr) :
    X.memWord tr va .clean r.x (r.s.coreOf r.x) r = .ok (r.s.word (r.s.keyOf r.x tr)) r := by
  have hnone : r.s.twins.filter (fun e => e.1 ≠ twinOf r.x && e.2.provisional (r.s.keyOf r.x tr / 64)) = [] := by
    rw [List.filter_eq_nil_iff]
    intro e he hp
    obtain ⟨hne, hp⟩ := Bool.and_eq_true_iff.mp hp
    rw [hr.confirmed e he (of_decide_eq_true hne)] at hp
    cases hp
  have hcaches : (if r.s.bypassL2 (r.s.coreOf r.x) (r.s.keyOf r.x tr) tr.cache
      then X.put (r.s.cohRead none (r.s.keyOf r.x tr / 64))
      else X.demand (r.s.coreOf r.x) (r.s.keyOf r.x tr) (fun s => s.cacheRead (r.s.coreOf r.x) (r.s.keyOf r.x tr)) : X Unit) r =
      .ok () r := by
    split
    · next hb => rw [X.put_run, hr.bypass hb]
    · next hb => exact X.demand_same (hr.fills (by simpa using hb))
  have hover : X.overlaid tr.pa (r.s.word (r.s.keyOf r.x tr)) r = .ok (r.s.word (r.s.keyOf r.x tr)) r := by
    simp only [X.overlaid, h.held, Option.getD_none, hr.forwarded, overlay, List.foldl_nil]
  unfold X.memWord
  refine (X.bind_ok (show X.respond .clean tr.pa va r = .ok () r from rfl) _).trans ((X.bind_ok (X.st_run r) _).trans
    ((X.bind_ok (X.cacheErrors_clean hr.unpoisoned) _).trans ((X.bind_ok (X.st_run r) _).trans ?_)))
  rw [hnone]
  exact (X.bind_ok (X.put_run r r.s) _).trans ((X.bind_ok (X.st_run r) _).trans ((X.either_run hcaches).trans
    ((X.bind_ok (X.st_run r) _).trans hover)))

/-- A load past the L1D whose request finds room is made at once. -/
theorem X.answered_run {pa k : Nat} {va : Pay} {go : X Word} (h : Undisturbed r) (hk : r.s.coreOf r.x = k)
    (hs : r.s.canSend k pa .load 8 = true) (hb : r.s.behindStores k pa = false) :
    X.answered pa 8 va go .clean r = go r := by
  unfold X.answered
  rw [X.bind_ok (X.grant_none h)]
  refine (X.bind_ok (X.st_run r) _).trans ((X.bind_ok (X.core_run r) _).trans ?_)
  rw [hk, hs, hb]
  rfl

/-- A cached load that hits, or whose miss finds its register and can be sent, is made at once. -/
theorem X.missed_run {k pa : Nat} {va : Pay} {hit : Bool} {go : X Word} (h : Undisturbed r)
    (hm : hit = true ∨ ((r.s.missOf k pa).isNone = true ∧ r.s.missRoom k false = true ∧ r.s.canSend k pa .line 64 = true)) :
    X.missed k pa 8 va hit go .clean r = go r := by
  unfold X.missed
  rw [X.bind_ok (X.grant_none h)]
  refine (X.bind_ok (X.st_run r) _).trans ?_
  obtain rfl | ⟨hmiss, hroom, hsend⟩ := hm
  · rfl
  · cases hit with
    | true => rfl
    | false =>
      rw [Option.isNone_iff_eq_none.mp hmiss, hroom, hsend]
      rfl

/-- How a load from DRAM, Staging SRAM, JNV or the Boot ROM of a core that is not loose comes to what it does then
(`X.loadPhys`). -/
def X.fromMemory (s : State) (x : Nat) (tr : Tr) (va : Pay) (m : Met) (go : X Word) : X Word := do
  if s.far x tr then do
    X.closeWindow
    X.answered tr.pa 8 va go m
  else do
    if (s.twin (twinOf x)).hold.any (Out.onLine tr.pa) then X.closeWindow
    X.missed (s.coreOf x) tr.pa 8 va (s.l1dHit x tr) go m

/-- In tight mode a load is signed before it is made (R486). -/
theorem X.signLoad_run (r : Run) (pa width : Nat) :
    ∃ q, (if r.s.isTight r.x then X.upd (fun s => s.sign (twinOf r.x) (signLoad pa width)) else pure () : X Unit) r = .ok () q ∧
      Looked r q := by
  refine ⟨{ r with s := r.s.signedLoad r.x pa width }, ?_, rfl, rfl, rfl, signed_signedLoad _ _ _ _⟩
  unfold State.signedLoad
  split <;> rfl

section
variable {q : Run}

theorem Looked.memWord {va : Pay} (hl : Looked r q) (h : Undisturbed r) (hr : Reads r.s r.x tr) :
    X.memWord tr va .clean r.x (r.s.coreOf r.x) q = .ok (r.s.word (r.s.keyOf r.x tr)) q := by
  have hrq : Reads q.s q.x tr := by rw [hl.x]; exact hl.signed.reads hr
  have hrun := X.memWord_run (va := va) (hl.undisturbed h) hrq
  rw [hl.x, hl.signed.word, hl.signed.coreOf] at hrun
  exact hrun

/-- An access past the L1D is made outside tight mode only, where the window's close carries out nothing (R491). -/
theorem Looked.closeWindow (hl : Looked r q) (h : Undisturbed r) (hr : Reads r.s r.x tr) (hf : r.s.far r.x tr = true) :
    X.closeWindow q = .ok () q := by
  have ht : r.s.isTight r.x = false := by
    by_contra ht
    rw [hr.cached (by simpa using ht)] at hf
    cases hf
  exact X.closeWindow_untight (hl.undisturbed h) (by rw [hl.x, hl.signed.isTight, ht])

/-- A cached access finds no output on its line held in a window, or closes a window that is none (R491). -/
theorem Looked.closeHeld (hl : Looked r q) (h : Undisturbed r) (hm : ReadsMemory r.s r.x tr) :
    (if (r.s.twin (twinOf r.x)).hold.any (Out.onLine tr.pa) then X.closeWindow else pure () : X Unit) q = .ok () q := by
  cases ht : r.s.isTight r.x with
  | true => rw [hm.unheld ht]; rfl
  | false =>
    split
    · exact X.closeWindow_untight (hl.undisturbed h) (by rw [hl.x, hl.signed.isTight, ht])
    · rfl

/-- A request of a load from memory, and what it does then, meets what `ReadsMemory` says whatever the signature. -/
theorem Looked.fromMemory {va : Pay} {go : X Word} {w : Word} (hl : Looked r q) (h : Undisturbed r) (hr : Reads r.s r.x tr)
    (hm : ReadsMemory r.s r.x tr) (hgo : go q = .ok w q) : X.fromMemory r.s r.x tr va .clean go q = .ok w q := by
  have hu := hl.undisturbed h
  have hcore : q.s.coreOf q.x = r.s.coreOf r.x := by rw [hl.x, hl.signed.coreOf]
  have hrest := hl.signed.rest
  unfold X.fromMemory
  cases hf : r.s.far r.x tr with
  | true =>
    obtain ⟨hsend, hfree⟩ := hm.sends hf
    refine (X.bind_ok (hl.closeWindow h hr hf) _).trans ((X.answered_run hu hcore ?_ ?_).trans hgo)
    · rw [hrest]; exact hsend
    · rw [hrest]; exact hfree
  | false =>
    have hmissed : X.missed (r.s.coreOf r.x) tr.pa 8 va (r.s.l1dHit r.x tr) go .clean q = go q := by
      refine X.missed_run hu ?_
      rw [hrest]
      exact hm.fetches hf
    rw [if_neg (by decide)]
    refine (X.when_run (hl.closeHeld h hm)).trans ?_
    exact hmissed.trans hgo

end

/-- A load by physical address that goes through gives the word of memory; in tight mode it is signed (R159, R486). -/
theorem X.loadPhys_run {va : Pay} (h : Undisturbed r) (hr : Reads r.s r.x tr) :
    ∃ q, X.loadPhys tr 8 va .clean r = .ok (r.s.word (r.s.keyOf r.x tr)) q ∧ Looked r q := by
  obtain ⟨q, hsign, hl⟩ := X.signLoad_run r tr.pa 8
  refine ⟨q, ?_, hl⟩
  have hword := hl.memWord (va := va) h hr
  unfold X.loadPhys
  refine (X.bind_ok (X.st_run r) _).trans ((X.bind_ok (X.ctxNo_run r) _).trans ((X.bind_ok (X.core_run r) _).trans
    ((X.when_run hsign).trans ?_)))
  obtain ⟨hkeep, hsource⟩ | hmem := hr.reach
  · have hclose : (if r.s.far r.x tr then X.closeWindow else pure () : X Unit) q = .ok () q := by
      split
      · next hf => exact hl.closeWindow h hr hf
      · rfl
    have hfrom : (do
          if r.s.far r.x tr then X.closeWindow
          X.memWord tr va .clean r.x (r.s.coreOf r.x) : X Word) q = .ok (r.s.word (r.s.keyOf r.x tr)) q := by
      refine (X.when_run hclose).trans ?_
      exact hword
    simp only [hkeep, hsource]
    exact hfrom
  · have hfrom := hl.fromMemory (va := va) h hr hmem hword
    obtain hreg | hreg | hreg | hreg := hmem.range
    all_goals
      simp only [hreg, hr.notLoose]
      exact hfrom
end

end Sys2Proof.Machine
end

section
/-!
PROOFS. RETE (R136, R234, R463).
-/
namespace Sys2Proof.Machine

/-! ### The words of a frame -/

/-- A word popped is the word that the load meets (R172). -/
theorem X.popWord_run {r : Run} {ring : Nat} {va : Pay} {w : Word} (h : Undisturbed r) (hp : Pops r.s r.x ring va w) :
    ∃ q, X.popWord ring va r = .ok w q ∧ Looked r q := by
  obtain ⟨hheap, tr, htr, hreads, rfl⟩ := hp
  have hacc : Looked r { r with acc := r.acc + 1 } := ⟨rfl, rfl, rfl, Signed.refl _ _⟩
  have hseen : Looked r { r with acc := r.acc + 1, seen := r.seen ++ [.tr tr.pa tr.cache] } := ⟨rfl, rfl, rfl, Signed.refl _ _⟩
  obtain ⟨q, hload, hq⟩ := X.loadPhys_run (va := va) (hseen.undisturbed h) hreads
  refine ⟨q, ?_, hseen.trans hq⟩
  unfold X.popWord
  exact (X.bind_ok (X.accessCheck_raw hheap) _).trans ((X.bind_ok (X.met_clean h) _).trans
    ((X.bind_ok (X.translate_load (hacc.undisturbed h) htr hreads) _).trans hload))

/-- The words of a frame, each at its place (R463). -/
theorem X.frameWords_run {ring : Nat} (n : Nat) {r : Run} {base : Pay} {w : Nat → Word} (h : Undisturbed r)
    (hp : ∀ i, i < n → Pops r.s r.x ring (base + p64 (8 * i)) (w i)) :
    ∃ q, X.frameWords ring base n r = .ok ((List.range n).map w) q ∧ Looked r q := by
  induction n generalizing r base w with
  | zero => exact ⟨r, rfl, Looked.refl r⟩
  | succ n ih =>
    have hfirst : Pops r.s r.x ring base (w 0) := by simpa [p64] using hp 0 (Nat.succ_pos n)
    obtain ⟨q, hpop, hq⟩ := X.popWord_run h hfirst
    have hrest : ∀ i, i < n → Pops q.s q.x ring (base + 8 + p64 (8 * i)) (w (i + 1)) := by
      intro i hi
      have hva : base + 8 + p64 (8 * i) = base + p64 (8 * (i + 1)) := by
        simp only [p64]
        rw [BitVec.add_assoc, Nat.mul_add, Nat.add_comm, BitVec.ofNat_add]
        rfl
      rw [hva, hq.x]
      exact hq.signed.pops (hp (i + 1) (Nat.succ_lt_succ hi))
    obtain ⟨q', hwords, hq'⟩ := ih (hq.undisturbed h) hrest
    refine ⟨q', ?_, hq.trans hq'⟩
    unfold X.frameWords
    refine (X.bind_ok hpop _).trans ((X.bind_ok hwords _).trans ?_)
    rw [List.range_succ_eq_map, List.map_cons, List.map_map]
    rfl

/-! ### RETE -/

/-- The stack pointer of a frame is in form (R172). -/
theorem spBad_of_goodSp {p : Pay} (h : goodSp p = true) : spBad p = false := by
  obtain ⟨hhi, hlo⟩ := Bool.and_eq_true_iff.mp h
  simp only [spBad, of_decide_eq_true hhi, of_decide_eq_true hlo, ne_eq, not_true_eq_false, decide_false, Bool.or_self]

theorem X.checkTarget_ok {t : Pay} (r : Run) (h : goodTarget t = true) : X.checkTarget t r = .ok () r := by
  obtain ⟨hhi, hlo⟩ := Bool.and_eq_true_iff.mp h
  simp only [X.checkTarget, of_decide_eq_true hhi, of_decide_eq_true hlo, ne_eq, not_true_eq_false, if_false]
  rfl

/-- A shadow frame holds at most two pending loads (R135). -/
theorem length_shadowLoads (d : Pay) (v0 v1 : Word) : (shadowLoads d v0 v1).length ≤ 2 := by
  unfold shadowLoads
  split <;> split <;> simp

/-- The stack pointer that RETE takes its frame from (R446, R463). -/
abbrev Ctx.frameSp (c : Ctx) : Pay := c.sp (spNo c.ring c.em)

/-- What RETE restores of PS: at ring 2 or 3 SGO and TE stay (R463). -/
def Ctx.rtePs (c : Ctx) (p : Pay) : Pay :=
  if c.ring ≤ 1 then psRestore p (bit p 9) else setFld (psRestore p (bit p 9)) 5 4 (fld (c.sp Sr.ps) 5 4)

/-- The pending loads that the frame w reinstates (R136). -/
def frameLoads (w : Nat → Word) : List PendLoad :=
  if bit (w 1).pay 15 then shadowLoads (w 5).pay (w 6) (w 7) else []

/-- The context after RETE with frame w (R136, R234, R463). -/
def Ctx.returned (c : Ctx) (w : Nat → Word) : Ctx :=
  { (((c.setSp (spNo c.ring c.em) (c.frameSp + 64)).setSp Sr.ps (c.rtePs (w 1).pay)).setTb false).setPc (w 0).pay with
    loads := frameLoads w, fresh := true }

/-- What a frame holds that RETE at ring r accepts (R136, R463). -/
structure GoodFrame (r : Nat) (w : Nat → Word) : Prop where
  raw : ∀ i, i < 4 → (w i).tag = Tag.raw
  ring : r ≤ fld (w 1).pay 1 0
  shadow : bit (w 1).pay 15 = true →
    shadowOk (w 5).pay = true ∧ ∀ l ∈ shadowLoads (w 5).pay (w 6) (w 7), isReservedTag l.val.tag = false
  target : goodTarget (w 0).pay = true

theorem length_frameLoads (w : Nat → Word) : (frameLoads w).length ≤ 2 := by
  unfold frameLoads
  split
  · exact length_shadowLoads _ _ _
  · exact Nat.zero_le 2

/-- A check that finds nothing wrong. -/
theorem X.check_passed {α : Type} {c : Prop} [Decidable c] {m n : X α} {r : Run} (h : ¬ c) : (if c then m else n) r = n r := by
  rw [if_neg h]

theorem GoodFrame.ring_not_lt {ring : Nat} {w : Nat → Word} (h : GoodFrame ring w) : ¬ fld (w 1).pay 1 0 < ring :=
  Nat.not_lt.mpr h.ring

theorem GoodFrame.words_raw {ring : Nat} {w : Nat → Word} (h : GoodFrame ring w) :
    ¬ ([w 0, w 1, w 2, w 3].any (fun v => v.tag ≠ Tag.raw)) = true := by
  simp [h.raw 0, h.raw 1, h.raw 2, h.raw 3]

theorem GoodFrame.shadow_ok {ring : Nat} {w : Nat → Word} (h : GoodFrame ring w) :
    ¬ (bit (w 1).pay 15 = true ∧ (!shadowOk (w 5).pay) = true) := by
  rintro ⟨hb, hno⟩
  rw [(h.shadow hb).1] at hno
  cases hno

theorem GoodFrame.shadow_tags {ring : Nat} {w : Nat → Word} (h : GoodFrame ring w) :
    ¬ (bit (w 1).pay 15 = true ∧ (shadowLoads (w 5).pay (w 6) (w 7)).any (fun l => isReservedTag l.val.tag) = true) := by
  rintro ⟨hb, hany⟩
  obtain ⟨l, hl, hres⟩ := List.any_eq_true.mp hany
  rw [(h.shadow hb).2 l hl] at hres
  cases hres

/-- t is s after RETE of context x with frame w: the context returned, and one more group of its twin's window. -/
structure Returned (s : State) (x : Nat) (w : Nat → Word) (t : State) : Prop where
  near : Near s x t
  ctx : t.ctx x = (s.ctx x).returned w
  twin : t.twin (twinOf x) = { s.twin (twinOf x) with groups := (t.twin (twinOf x)).groups }

/-- What RETE, run at a context as c with frame w, does to the machine at its end (`opRete`). -/
def State.rete (s : State) (x : Nat) (c : Ctx) (w : Nat → Word) : State :=
  let s1 := (s.landLoads x).retireMark x
  let s2 := if ((s1.ctx x).loads ++ frameLoads w).length > 2 then (forN 2 0 (fun _ s => s.landLoads x) s1) else s1
  s2.updCtx x (fun c2 =>
    let c1 := (((c2.setSp (spNo c.ring c.em) (c.frameSp + 64)).setSp Sr.ps (c.rtePs (w 1).pay)).setTb false).setPc (w 0).pay
    { c1 with loads := c1.loads ++ frameLoads w, fresh := true })

/-- With no load of its own pending the context returns. -/
theorem State.rete_plain {s : State} {x : Nat} (w : Nat → Word) (h : (s.ctx x).Plain) :
    Returned s x w (s.rete x (s.ctx x) w) := by
  obtain ⟨t1, c1, w1⟩ := State.landLoads_plain s x h.loads
  obtain ⟨t2, c2, w2⟩ := State.retireMark_plain (s.landLoads x) x (c1 ▸ h)
  rw [c1] at c2
  unfold State.rete
  generalize (s.landLoads x).retireMark x = u at t2 c2 w2 ⊢
  have hloads : (u.ctx x).loads = [] := by rw [c2]; exact h.loads
  have hfew : ¬ ((u.ctx x).loads ++ frameLoads w).length > 2 := by
    rw [hloads, List.nil_append]
    exact Nat.not_lt.mpr (length_frameLoads w)
  simp only [if_neg hfew, State.updCtx_eq]
  refine ⟨(t1.trans t2).trans (near_setCtx u x _), ?_, ?_⟩
  · rw [State.ctx_setCtx_self]
    simp only [Ctx.setPc, Ctx.setTb, Ctx.setSp, hloads, List.nil_append]
    rw [c2]
    rfl
  · rw [State.twin_setCtx, w2, w1]

/-- RETE with a good frame on its stack, all of whose loads go through, returns (R463). -/
theorem opRete_run {r : Run} {w : Nat → Word} (h : Undisturbed r)
    (hsp : goodSp (r.s.ctx r.x).frameSp = true) (hmax : (r.s.ctx r.x).frameSp.toNat ≤ 2 ^ 48 - 64)
    (hp : ∀ i, i < 8 → Pops r.s r.x (r.s.ctx r.x).ring ((r.s.ctx r.x).frameSp + p64 (8 * i)) (w i))
    (hf : GoodFrame (r.s.ctx r.x).ring w) :
    ∃ q, Looked r q ∧ opRete r = .ok .stay { q with s := q.s.rete r.x (r.s.ctx r.x) w } := by
  obtain ⟨q, hwords, hq⟩ := X.frameWords_run 8 h hp
  have hsp' : ¬ (spBad (r.s.ctx r.x).frameSp = true ∨ (r.s.ctx r.x).frameSp.toNat > 2 ^ 48 - 64) := by
    rw [spBad_of_goodSp hsp]
    simpa using hmax
  refine ⟨q, hq, ?_⟩
  unfold opRete
  refine (X.bind_ok (X.ctx_run r) _).trans ((X.bind_ok (X.ctxNo_run r) _).trans ?_)
  refine (X.check_passed hsp').trans ?_
  refine (X.bind_ok hwords _).trans ?_
  refine (X.check_passed hf.words_raw).trans ?_
  refine (X.check_passed hf.ring_not_lt).trans ?_
  refine (X.check_passed hf.shadow_ok).trans ?_
  refine (X.check_passed hf.shadow_tags).trans ?_
  refine (X.bind_ok (X.checkTarget_ok q hf.target) _).trans ?_
  exact X.bind_ok (X.upd_run q _) _

/-- The stack pointers stand apart from PC, PS and WINB (R114). -/
theorem spNo_apart (c : Ctx) : Sr.pc ≠ spNo c.ring c.em ∧ Sr.ps ≠ spNo c.ring c.em ∧ Sr.winb ≠ spNo c.ring c.em := by
  have hr := ring_le c
  have hno : spNo c.ring c.em = 0x008 + c.ring ∨ spNo c.ring c.em = 0x00C + c.ring := by
    unfold spNo
    split
    · exact .inr rfl
    · exact .inl rfl
  simp only [Sr.pc, Sr.ps, Sr.winb]
  omega

/-- The special registers after RETE. -/
theorem Ctx.sp_returned (c : Ctx) (w : Nat → Word) (n : Nat) :
    (c.returned w).sp n =
      if Sr.pc = n then (w 0).pay
      else if Sr.winb = n then setBit (c.sp Sr.winb) 31 false
      else if Sr.ps = n then c.rtePs (w 1).pay
      else if spNo c.ring c.em = n then c.frameSp + 64
      else c.sp n := by
  obtain ⟨-, -, hwinb⟩ := spNo_apart c
  show (((((c.setSp (spNo c.ring c.em) (c.frameSp + 64)).setSp Sr.ps (c.rtePs (w 1).pay)).setTb false).setPc (w 0).pay).sp n) = _
  rw [Ctx.setPc, Ctx.setTb]
  simp only [Ctx.sp_setSp, if_neg hwinb.symm, if_neg (show Sr.ps ≠ Sr.winb by decide)]

/-- An instruction that sets every field of its context itself, and changes nothing else but its twin. -/
theorem issue_stays {s : State} {at_ : At} {size : Nat} (h : s.ready at_ size = true) (long : Bool) {body : Pay → X Flow} {q : Run}
    (hb : body (s.ctx (ctxOf at_)).pc (startRun s at_) = .ok .stay q) (hn : Near s (ctxOf at_) q.s) :
    fin s (issue at_ size long body s) = .next q.s := by
  have hr := State.ready_iff s at_ size h
  rw [issue_ready hr, hb]
  exact hn.fin hr.calm

/-- A ready instruction's body begins undisturbed. -/
theorem Ready.undisturbed {s : State} {at_ : At} {size : Nat} (h : Ready s at_ size) : Undisturbed (startRun s at_) :=
  ⟨h.met, h.obs, h.grants, rfl, h.calm⟩

/-- RETE with a good frame, whose words loads at the current ring meet, returns (R463). -/
theorem rete_returns {s : State} {at_ : At} {w : Nat → Word} (h : s.ready at_ 4 = true)
    (hsp : goodSp (s.ctx (ctxOf at_)).frameSp = true) (hmax : (s.ctx (ctxOf at_)).frameSp.toNat ≤ 2 ^ 48 - 64)
    (hp : ∀ i, i < 8 → s.popAt (ctxOf at_) (s.ctx (ctxOf at_)).ring ((s.ctx (ctxOf at_)).frameSp + p64 (8 * i)) = some (w i))
    (hf : GoodFrame (s.ctx (ctxOf at_)).ring w) :
    ∃ u t, Signed s (ctxOf at_) u ∧ exec (.rete at_ {}) s = .next t ∧ Returned u (ctxOf at_) w t := by
  have hr := State.ready_iff s at_ 4 h
  obtain ⟨q, hq, hrun⟩ := opRete_run (r := startRun s at_) hr.undisturbed hsp hmax (fun i hi => pops_of_popAt (hp i hi)) hf
  have hsigned : Signed s (ctxOf at_) q.s := hq.signed
  have hctx := hsigned.ctx (ctxOf at_)
  have hret : Returned q.s (ctxOf at_) w (q.s.rete (ctxOf at_) (s.ctx (ctxOf at_)) w) := by
    rw [← hctx]
    exact State.rete_plain w (hctx ▸ hr.plain)
  have hrow := rowR_body (maj := 0x2A) (min := 2) (f := {}) rfl rfl rfl hr.loads (fun _ => opRete) (s.ctx (ctxOf at_)).pc
  exact ⟨q.s, _, hsigned, issue_stays h false (hrow.trans hrun) (hsigned.near.trans hret.near), hret⟩

/-- Settles O20: RETE pops the eight words with loads that go through, one after the other, and then sets the fields of its
context; beyond that it changes the window of its twin alone. -/
theorem returnFromException : Obligations.ReturnFromException := by
  unfold Obligations.ReturnFromException
  intro s at_ w x c no sp p ps h hsp hmax hp hraw hring hshadow htarget
  obtain ⟨u, t, hu, he, hret⟩ := rete_returns h hsp hmax hp ⟨hraw, hring, hshadow, htarget⟩
  have hctx : t.ctx x = c.returned w := by rw [hret.ctx, hu.ctx]
  have hsr (n : Nat) := (congrArg (Ctx.sp · n) hctx).trans (Ctx.sp_returned c w n)
  have near := hu.near.trans hret.near
  obtain ⟨hpc, hps, hwinb⟩ := spNo_apart c
  have hset : ∀ e ∈ [(no, sp + 64), (Sr.ps, if c.ring ≤ 1 then ps else setFld ps 5 4 (fld (c.sp Sr.ps) 5 4)),
      (Sr.winb, setBit (c.sp Sr.winb) 31 false)], (t.ctx x).sp e.1 = e.2 := by
    simp only [List.forall_mem_cons, List.not_mem_nil, false_imp_iff, implies_true, and_true]
    refine ⟨(hsr no).trans ?_, hsr Sr.ps, hsr Sr.winb⟩
    rw [if_neg hpc, if_neg hwinb, if_neg hps, if_pos rfl]
  refine ⟨t, he, ⟨?_, near.others, ?_, ?_, hset, ?_, near.twins, ?_, ?_⟩, ?_, ?_⟩
  · rw [near.rest]
  · intro k; rw [hctx]; rfl
  · exact hsr Sr.pc
  · intro n hn hlist
    simp only [List.map_cons, List.map_nil, List.mem_cons, List.not_mem_nil, or_false, not_or] at hlist
    obtain ⟨hne, hnps, hnwinb⟩ := hlist
    rw [hsr, if_neg (Ne.symm hn), if_neg (Ne.symm hnwinb), if_neg (Ne.symm hnps), if_neg (Ne.symm hne)]
  · rw [hret.twin, hu.twin]
  · intro a _
    rw [near.rest]
    exact ⟨rfl, rfl⟩
  · exact (congrArg (bit · 31) (hsr Sr.winb)).trans (bit_setBit_self _ 31 false (by decide))
  · rw [hctx]; rfl

end Sys2Proof.Machine
end

section
/-!
PROOFS. Stores that go straight to memory: posted one after another, and carried out in order at the end of the command (R47,
R391, R392, R427, R447).
-/
namespace Sys2Proof.Machine

/-! ### Words written one after another -/

/-- The words listed written to memory, each at its key, in order. -/
def State.setEach (s : State) (l : List (Nat × Word)) : State := l.foldl (fun s e => s.setWord e.1 e.2) s

section
variable (s : State)

/-- Bytes written one by one are a change of memory alone. -/
theorem State.forN_setByte_eq (k : Nat) (p : Pay) (n i : Nat) :
    forN n i (fun b s => s.setByte (k + b) (byteOf p b)) s =
      { s with mem := forN n i (fun b m => Tbl.set (fun _ => 0#8) m (k + b) (byteOf p b)) s.mem } := by
  induction n generalizing i s with
  | zero => rfl
  | succ n ih => exact ih (s.setByte (k + i) (byteOf p i)) (i + 1)

/-- Memory with the eight bytes of a payload written from key k up. -/
def payMem (m : List Host.Cell) (k : Nat) (p : Pay) : List Host.Cell :=
  forN 8 0 (fun b m => Tbl.set (fun _ => 0#8) m (k + b) (byteOf p b)) m

/-- A word written is a change of memory and of one tag. -/
theorem State.setWord_eq (k : Nat) (w : Word) :
    s.setWord k w =
      { s with mem := payMem s.mem (k / 8 * 8) w.pay, tags := Tbl.set (fun _ => Tag.raw) s.tags (k / 8 * 8 / 8) w.tag } := by
  rw [State.setWord, State.setPay, State.forN_setByte_eq]
  rfl

theorem State.setEach_cons (e : Nat × Word) (l : List (Nat × Word)) : s.setEach (e :: l) = (s.setWord e.1 e.2).setEach l := by
  rw [State.setEach, List.foldl_cons, State.setEach]

theorem State.setEach_rest (l : List (Nat × Word)) : ∃ m t, s.setEach l = { s with mem := m, tags := t } := by
  induction l generalizing s with
  | nil => exact ⟨s.mem, s.tags, rfl⟩
  | cons e l ih =>
    obtain ⟨m, t, hl⟩ := ih (s.setWord e.1 e.2)
    refine ⟨m, t, ?_⟩
    rw [State.setEach_cons, hl, State.setWord_eq]

/-- Words apart from those written keep their bytes and their tags. -/
theorem State.bytes_setEach {l : List (Nat × Word)} {a : Nat} (h : a / 8 ∉ l.map (fun e => e.1 / 8)) :
    (s.setEach l).byte a = s.byte a ∧ (s.setEach l).tagAt a = s.tagAt a := by
  induction l generalizing s with
  | nil => exact ⟨rfl, rfl⟩
  | cons e l ih =>
    obtain ⟨hne, hl⟩ := not_or.mp (mt List.mem_cons.mpr h)
    obtain ⟨hbyte, htag⟩ := ih (s.setWord e.1 e.2) hl
    rw [State.setEach_cons, hbyte, htag, State.byte_setWord, State.tagAt_setWord, if_neg hne, if_neg hne]
    exact ⟨rfl, rfl⟩

theorem State.word_setEach_ne {l : List (Nat × Word)} {j : Nat} (h : j / 8 ∉ l.map (fun e => e.1 / 8)) :
    (s.setEach l).word j = s.word j := by
  induction l generalizing s with
  | nil => rfl
  | cons e l ih =>
    obtain ⟨hne, hl⟩ := not_or.mp (mt List.mem_cons.mpr h)
    rw [State.setEach_cons, ih _ hl, State.word_setWord_ne s e.2 hne]

/-- Words written at keys of different words all stand there. -/
theorem State.words_setEach {l : List (Nat × Word)} (h : (l.map (fun e => e.1 / 8)).Nodup) :
    l.map (fun e => (s.setEach l).word e.1) = l.map (·.2) := by
  induction l generalizing s with
  | nil => rfl
  | cons e l ih =>
    obtain ⟨hne, hl⟩ := List.nodup_cons.mp h
    rw [List.map_cons, List.map_cons, State.setEach_cons, ih _ hl, State.word_setEach_ne _ hne, State.word_setWord_self]

end

/-! ### A store that goes straight to memory -/

/-- u differs from s in contexts, in what memory holds and in what is on its way out only. -/
def Beside (s u : State) : Prop := u = { s with ctxs := u.ctxs, mem := u.mem, tags := u.tags, outbox := u.outbox }

/-- What makes a store of context x through `tr` go straight to memory, of the conditions that `State.writes` sets: the mode, no
cache, buffer or window that has the line, and a range that takes it. -/
structure Straight (s : State) (x : Nat) (tr : Tr) : Prop where
  notLoose : s.isLoose x = false
  notTight : s.isTight x = false
  far : s.far x tr = true
  unpoisoned : s.poisoned (s.keyOf x tr / 64) = false
  unevicted : s.evicting (s.keyOf x tr / 64) = none
  confirmed : ∀ e ∈ s.twins, e.2.provisional (s.keyOf x tr / 64) = false
  offL1d : ∀ e ∈ s.cores, s.l1dAt e.1 (s.keyOf x tr / 64) = none
  offL2 : ∀ e ∈ s.clusters, s.l2At e.1 (s.keyOf x tr / 64) = none
  range : s.region tr.pa = .dram ∨ s.region tr.pa = .staging ∨ (s.region tr.pa = .jnv ∧ s.bgs.move = none)

theorem State.straight_of {s : State} {x : Nat} {tr : Tr} (h : s.writes x tr = true) : Straight s x tr := by
  unfold State.writes at h
  simp only [Bool.and_eq_true, Bool.not_eq_true', List.all_eq_true, Option.isNone_iff_eq_none] at h
  obtain ⟨⟨⟨⟨⟨⟨⟨⟨⟨⟨⟨⟨hloose, htight⟩, -⟩, -⟩, hfar⟩, hpoison⟩, hevict⟩, -⟩, -⟩, htwins⟩, hl1d⟩, hl2⟩, hrange⟩ := h
  refine ⟨hloose, htight, hfar, hpoison, hevict, htwins, hl1d, hl2, ?_⟩
  cases hr : s.region tr.pa with
  | dram => exact .inl rfl
  | staging => exact .inr (.inl rfl)
  | jnv =>
    rw [hr] at hrange
    exact .inr (.inr ⟨rfl, Option.isNone_iff_eq_none.mp hrange⟩)
  | _ => rw [hr] at hrange; cases hrange

theorem Straight.beside {s u : State} {x : Nat} {tr : Tr} (h : Straight s x tr) (hu : Beside s u) : Straight u x tr := by
  rw [hu]
  exact ⟨h.notLoose, h.notTight, h.far, h.unpoisoned, h.unevicted, h.confirmed, h.offL1d, h.offL2, h.range⟩

theorem beside_outbox (s : State) (o : List Out) : Beside s { s with outbox := o } := rfl

theorem beside_setWord (s : State) (k : Nat) (w : Word) : Beside s (s.setWord k w) := by
  rw [State.setWord_eq]
  rfl

theorem foldl_fixed {α β : Type} {f : β → α → β} {b : β} {l : List α} (h : ∀ a ∈ l, f b a = b) : l.foldl f b = b :=
  List.foldlRecOn (motive := (· = b)) l f rfl fun _ hb a ha => hb ▸ h a ha

/-- A write to a line that no cache and no eviction buffer has moves nothing between caches. -/
theorem State.cohWrite_off {s : State} {line : Nat} (he : s.evicting line = none) (h1 : ∀ e ∈ s.cores, s.l1dAt e.1 line = none)
    (h2 : ∀ e ∈ s.clusters, s.l2At e.1 line = none) : s.cohWrite none none line = s := by
  have hcores : (s.cores.map (·.1)).foldl (fun s j => if some j = none then s else s.l1dDrop j line) s = s := by
    refine foldl_fixed fun j hj => ?_
    obtain ⟨e, hmem, rfl⟩ := List.mem_map.mp hj
    rw [if_neg (by simp), State.l1dDrop, h1 e hmem]
  unfold State.cohWrite
  simp only [hcores, he]
  refine foldl_fixed fun m hm => ?_
  obtain ⟨e, hmem, rfl⟩ := List.mem_map.mp (List.mem_filter.mp hm).1
  rw [h2 e hmem]

/-- Such a store, once it reaches memory, writes its word there and does nothing else. -/
theorem Straight.memStore {s : State} {x : Nat} {tr : Tr} (h : Straight s x tr) (w : Word) :
    s.memStore (s.coreOf x) tr.pa 8 w = s.setWord (s.keyOf x tr) w := by
  have hline : s.keyOf x tr / 8 * 8 / 64 = s.keyOf x tr / 64 := by omega
  have hkey : s.keyOf x tr / 8 * 8 / 8 * 8 = s.keyOf x tr / 8 * 8 := by omega
  have hwindows : s.twins.filter (fun e => e.2.provisional (s.keyOf x tr / 64)) = [] :=
    List.filter_eq_nil_iff.mpr fun e he => by rw [h.confirmed e he]; exact Bool.false_ne_true
  show (s.confirmLine (s.keyOf x tr / 8 * 8 / 64)).extWrite (s.keyOf x tr / 8 * 8) w = _
  rw [hline, State.confirmLine, hwindows, List.foldl_nil, State.extWrite, hline, State.cohWrite_off h.unevicted h.offL1d h.offL2,
    State.setWord, State.setWord, hkey]

/-- A store of a word as it leaves its core, for the word and where it goes. -/
abbrev storeOut (x k : Nat) (pc : Pay) (e : Word × Tr) : Out := .store x k e.2.pa 8 e.1 pc

theorem Straight.perform {s : State} {x : Nat} {e : Word × Tr} (h : Straight s x e.2) (pc : Pay) :
    s.perform (storeOut x (s.coreOf x) pc e) = s.setWord (s.keyOf x e.2) e.1 := by
  rw [← h.memStore]
  obtain hr | hr | ⟨hr, hmove⟩ := h.range
  · simp only [State.perform, hr]
  · simp only [State.perform, hr]
  · simp only [State.perform, hr, hmove]

/-- A word of a frame, pushed where stores go straight to memory, is on its way out (R47, R447). -/
theorem Straight.pushOne {s : State} {x : Nat} {e : Word × Tr} (h : Straight s x e.2) (pc : Pay) :
    s.pushOne x e.1 e.2 pc = { s with outbox := s.outbox ++ [storeOut x (s.coreOf x) pc e] } := by
  have hpost : s.postStore x e.2 8 e.1 pc = s.leaveCore x (storeOut x (s.coreOf x) pc e) := by
    have hfar := h.far
    obtain hr | hr | ⟨hr, -⟩ := h.range
    all_goals simp only [State.postStore, hr, h.notTight, h.notLoose, Bool.false_eq_true, if_false, hfar, if_true]
  rw [State.pushOne, h.unpoisoned, if_neg Bool.false_ne_true, hpost]
  simp only [State.leaveCore, h.notTight, h.notLoose, Bool.false_eq_true, if_false]

/-! ### Stores posted, and carried out -/

theorem State.outbox_of_calm {s : State} (h : s.calm = true) : s.outbox = [] := by
  simp only [State.calm, Bool.and_eq_true, List.isEmpty_iff] at h
  obtain ⟨⟨⟨hout, -⟩, -⟩, -⟩ := h
  exact hout

/-- The words of a frame, all pushed. -/
theorem pushes_post {s : State} {x : Nat} {l : List (Word × Tr)} (pc : Pay) (h : ∀ e ∈ l, Straight s x e.2) :
    l.foldl (fun s e => s.pushOne x e.1 e.2 pc) s = { s with outbox := s.outbox ++ l.map (storeOut x (s.coreOf x) pc) } := by
  induction l generalizing s with
  | nil => simp
  | cons e l ih =>
    rw [List.foldl_cons, (h e List.mem_cons_self).pushOne pc,
      ih fun d hd => (h d (List.mem_cons_of_mem e hd)).beside (beside_outbox s _), List.map_cons]
    show ({ s with outbox := (s.outbox ++ [_]) ++ _ } : State) = _
    rw [List.append_assoc]
    rfl

/-- Posted stores are carried out one after the other. -/
theorem settleN_posts {n : Nat} {s : State} {x : Nat} {l : List (Word × Tr)} (pc : Pay) (hn : l.length ≤ n)
    (h : ∀ e ∈ l, Straight s x e.2) :
    settleN n { s with outbox := l.map (storeOut x (s.coreOf x) pc) } =
      ({ s with outbox := [] } : State).setEach (l.map fun e => (s.keyOf x e.2, e.1)) := by
  induction l generalizing n s with
  | nil => exact settleN_empty rfl n
  | cons e l ih =>
    obtain ⟨m, rfl⟩ := Nat.exists_eq_add_of_le' (Nat.lt_of_lt_of_le (Nat.succ_pos _) hn)
    have hcons := h e List.mem_cons_self
    have hrest : ∀ d ∈ l, Straight (s.setWord (s.keyOf x e.2) e.1) x d.2 :=
      fun d hd => (h d (List.mem_cons_of_mem e hd)).beside (beside_setWord s _ _)
    have hfirst := (hcons.beside (beside_outbox s (l.map (storeOut x (s.coreOf x) pc)))).perform pc
    have hnext := ih (Nat.le_of_succ_le_succ hn) hrest
    rw [State.setWord_eq] at hfirst hnext
    rw [List.map_cons, List.map_cons, State.setEach_cons, State.setWord_eq]
    exact (congrArg (settleN m) hfirst).trans hnext

/-- At the end of a command that posted stores and left nothing else to carry out, the words stand in memory (R427). -/
theorem State.settle_posts {s : State} {x : Nat} {l : List (Word × Tr)} (pc : Pay) (hc : s.calm = true) (hn : l.length ≤ 4096)
    (h : ∀ e ∈ l, Straight s x e.2) :
    ({ s with outbox := l.map (storeOut x (s.coreOf x) pc) } : State).settle = s.setEach (l.map fun e => (s.keyOf x e.2, e.1)) := by
  have hout := State.outbox_of_calm hc
  have hsame : ({ s with outbox := [] } : State) = s := by rw [← hout]
  obtain ⟨m, t, hset⟩ := s.setEach_rest (l.map fun e => (s.keyOf x e.2, e.1))
  have hcalm : (s.setEach (l.map fun e => (s.keyOf x e.2, e.1))).calm = true := by rw [hset]; exact hc
  have hrest := State.settle_of_calm _ hcalm
  rw [State.settle, settleN_posts pc hn h, hsame]
  rwa [State.settle, settleN_empty (by rw [hset]; exact hout)] at hrest

end Sys2Proof.Machine
end

section
/-!
PROOFS. Taking an exception whose frame goes straight to memory: TRAP, ILLEGAL_INSTRUCTION and the asynchronous exceptions (R438 to
R447, R455 to R458, R464, R470, R516).
-/
namespace Sys2Proof.Machine

/-! ### What an entry rests on -/

theorem length_of_mapM_some {α β : Type} {f : α → Option β} {l : List α} {m : List β} (h : l.mapM f = some m) :
    m.length = l.length := by
  induction l generalizing m with
  | nil => cases h; rfl
  | cons a l ih =>
    rw [List.mapM_cons] at h
    obtain ⟨b, -, h⟩ := Option.bind_eq_some_iff.mp h
    obtain ⟨bs, hl, h⟩ := Option.bind_eq_some_iff.mp h
    cases h
    rw [List.length_cons, List.length_cons, ih hl]

/-- The frame has eight words (R447). -/
theorem State.length_pushPlan {s : State} {x t : Nat} {sp : Pay} {plan : List Tr} (h : s.pushPlan x t sp = some plan) :
    plan.length = 8 := by
  unfold State.pushPlan at h
  split at h
  · cases h
  · split at h
    · cases h
    · exact (length_of_mapM_some h).trans List.length_range

/-- What `State.entryOf` finds: the handler, the stack, and the eight words of the frame, which go straight to memory. -/
structure Entry.Plan (s : State) (x : Nat) (e : Exc) (en : Entry) (plan : List Tr) : Prop where
  vec : e.vec ≠ 16 ∧ e.vec ≠ 17
  free : s.pushWaits x = false
  target : s.target x e.vec (s.ctx x).ring = .handler en.ring en.handler
  em : en.em = if en.ring = (s.ctx x).ring then (s.ctx x).em else false
  spNo : en.spNo = Machine.spNo en.ring en.em
  push : s.pushPlan x en.ring ((s.ctx x).sp en.spNo) = some plan
  keys : en.keys = plan.map (s.keyOf x)
  straight : ∀ tr ∈ plan, Straight s x tr
  apart : (en.keys.map (· / 8)).Nodup

theorem State.plan_of_entryOf {s : State} {x : Nat} {e : Exc} {en : Entry} (h : s.entryOf x e = some en) :
    ∃ plan, en.Plan s x e plan := by
  unfold State.entryOf at h
  simp only at h
  split at h
  · cases h
  · next hfree =>
    split at h
    · cases h
    · next r a htarget =>
      split at h
      · next plan hplan =>
        obtain ⟨⟨hall, hnodup⟩, hen⟩ := Option.ite_none_right_eq_some.mp h
        cases hen
        obtain ⟨h16, h17, hwaits⟩ : e.vec ≠ 16 ∧ e.vec ≠ 17 ∧ s.pushWaits x = false := by simpa [not_or] using hfree
        exact ⟨plan, ⟨h16, h17⟩, hwaits, htarget, rfl, rfl, hplan, rfl,
          fun tr htr => State.straight_of (List.all_eq_true.mp hall tr htr), hnodup⟩
      · cases h

section
variable {s : State} {x : Nat} {e : Exc} {en : Entry} {plan : List Tr}

theorem Entry.Plan.length (h : en.Plan s x e plan) : plan.length = 8 := State.length_pushPlan h.push

/-- A context whose frame goes straight to memory runs on a core that is not tight. -/
theorem Entry.Plan.notTight (h : en.Plan s x e plan) : s.isTight x = false := by
  obtain ⟨tr, htr⟩ := List.exists_mem_of_length_pos (Nat.lt_of_lt_of_eq (Nat.succ_pos 7) h.length.symm)
  exact (h.straight tr htr).notTight

/-- The ring entered is one of the four (R441). -/
theorem Entry.Plan.ring_lt (h : en.Plan s x e plan) : en.ring < 4 := by
  have htarget := h.target
  have hring := ring_le (s.ctx x)
  unfold State.target at htarget
  simp only at htarget
  split at htarget
  · split at htarget
    · injection htarget with hr
      omega
    · cases htarget
  · split at htarget
    · cases htarget
    · split at htarget
      · split at htarget
        · injection htarget with hr
          omega
        · cases htarget
      · injection htarget with hr
        omega

/-- The stack pointers stand apart from PC, PS and WINB (R114). -/
theorem Entry.Plan.spNo_apart (h : en.Plan s x e plan) : en.spNo ≠ Sr.pc ∧ en.spNo ≠ Sr.ps ∧ en.spNo ≠ Sr.winb := by
  have hr := h.ring_lt
  have hno : en.spNo = 0x008 + en.ring ∨ en.spNo = 0x00C + en.ring := by
    rw [h.spNo, Machine.spNo]
    split
    · exact .inr rfl
    · exact .inl rfl
  simp only [Sr.pc, Sr.ps, Sr.winb]
  omega

end

/-! ### The context and the frame of an entry -/

/-- PS of an entry: the ring entered, IE and SGO clear, EM by the stack used (R447). -/
def Ctx.entryPs (c : Ctx) (en : Entry) : Pay :=
  setBit (setBit (setBit (setFld (c.sp Sr.ps) 1 0 en.ring) 7 false) 5 false) 9 en.em

/-- The context that has entered its handler (R447). -/
def Ctx.entered (c : Ctx) (en : Entry) : Ctx :=
  { (((c.stepEnd.setSp en.spNo (c.sp en.spNo - 64)).setSp Sr.ps (c.entryPs en)).setTb true).setPc en.handler with
    loads := [], run := .run, fresh := false, slot := none, grants := [], obs := [], inflight := false }

/-- The frame of an exception taken with no load pending (R444). -/
def Ctx.plainFrame (c : Ctx) (pc : Pay) (e : Exc) : List Word :=
  [Word.raw pc, Word.raw (setBit (c.sp Sr.ps) 15 false), Word.raw e.cause, Word.raw e.fa, e.x0, e.x1, e.x2, e.x3]

theorem Ctx.frame_plain {c : Ctx} (h : c.loads = []) (pc : Pay) (e : Exc) (g : Nat) : c.frame pc e g = c.plainFrame pc e := by
  unfold Ctx.frame
  rw [h]
  rfl

/-- The machine in which context x has entered e's handler, its frame in memory. -/
def State.entered (s : State) (x : Nat) (pc : Pay) (e : Exc) (en : Entry) : State :=
  (s.setCtx x ((s.ctx x).entered en)).setEach (en.keys.zip ((s.ctx x).plainFrame pc e))

theorem Ctx.stepEnd_same (c : Ctx) : c.stepEnd = { c with stepping := c.stepEnd.stepping, halted := c.stepEnd.halted } := by
  unfold Ctx.stepEnd
  split <;> rfl

/-- What stands pending at a context besides what was taken, and its registers, stay. -/
theorem Ctx.entered_same (c : Ctx) (en : Entry) :
    (c.entered en).regs = c.regs ∧ (c.entered en).lines = c.lines ∧ (c.entered en).sbes = c.sbes ∧
      (c.entered en).mcs = c.mcs := by
  unfold Ctx.entered
  rw [Ctx.stepEnd_same]
  exact ⟨rfl, rfl, rfl, rfl⟩

/-- The special registers of a context that has entered its handler. -/
theorem Ctx.sp_entered (c : Ctx) {en : Entry} (hw : en.spNo ≠ Sr.winb) (n : Nat) :
    (c.entered en).sp n =
      if Sr.pc = n then en.handler
      else if Sr.winb = n then setBit (c.sp Sr.winb) 31 true
      else if Sr.ps = n then c.entryPs en
      else if en.spNo = n then c.sp en.spNo - 64
      else c.sp n := by
  have hend (m : Nat) : c.stepEnd.sp m = c.sp m := by rw [Ctx.stepEnd_same]; rfl
  show (((((c.stepEnd.setSp en.spNo (c.sp en.spNo - 64)).setSp Sr.ps (c.entryPs en)).setTb true).setPc en.handler).sp n) = _
  rw [Ctx.setPc, Ctx.setTb]
  simp only [Ctx.sp_setSp, hend, if_neg hw, if_neg (show Sr.ps ≠ Sr.winb by decide)]

/-! ### The entry carried out -/

section
variable {s : State} {x : Nat} {pc : Pay} {e : Exc} {en : Entry}

/-- The frame pushed, and the handler entered, once what was posted is carried out (R447). -/
theorem Entry.Plan.pushEnter_settle {plan : List Tr} (h : en.Plan s x e plan) (hc : s.calm = true) (hl : (s.ctx x).loads = []) :
    (s.pushEnter x en.ring en.em en.handler pc e plan).settle = s.entered x pc e en := by
  have hout := State.outbox_of_calm hc
  have hlen : ((s.ctx x).plainFrame pc e).length = plan.length := h.length.symm
  have hstraight : ∀ p ∈ ((s.ctx x).plainFrame pc e).zip plan, Straight s x p.2 :=
    fun p hp => h.straight p.2 (List.of_mem_zip hp).2
  have hposts := pushes_post (s := s) pc hstraight
  rw [hout, List.nil_append] at hposts
  have hpush : s.pushEnter x en.ring en.em en.handler pc e plan =
      { s.setCtx x ((s.ctx x).entered en) with
        outbox := (((s.ctx x).plainFrame pc e).zip plan).map (storeOut x (s.coreOf x) pc) } := by
    unfold State.pushEnter
    simp only [hl, List.any_nil, Bool.false_eq_true, if_false, Ctx.frame_plain hl, hposts, ← h.spNo]
    rfl
  have hbeside : Beside s (s.setCtx x ((s.ctx x).entered en)) := rfl
  have hkeys : (((s.ctx x).plainFrame pc e).zip plan).map (fun p => (s.keyOf x p.2, p.1)) =
      en.keys.zip ((s.ctx x).plainFrame pc e) := by
    rw [h.keys, List.zip_map_left, ← List.zip_swap, List.map_map]
    rfl
  have hsettle := State.settle_posts (s := s.setCtx x ((s.ctx x).entered en)) pc hc
    (by rw [List.length_zip, hlen, Nat.min_self, h.length]; decide) (fun p hp => (hstraight p hp).beside hbeside)
  rw [hpush, State.entered, ← hkeys]
  exact hsettle

end

/-! ### A context that stands elsewhere, or has something taken from it -/

/-- u differs from s in context x only, whose registers and special registers but PC are as before. -/
structure Aside (s : State) (x : Nat) (u : State) : Prop where
  rest : u = { s with ctxs := u.ctxs }
  others : ∀ y, y ≠ x → u.ctx y = s.ctx y
  regs : (u.ctx x).regs = (s.ctx x).regs
  sp : ∀ n, n ≠ Sr.pc → (u.ctx x).sp n = (s.ctx x).sp n

section
variable {s u : State} {x : Nat}

theorem aside_setCtx (s : State) (x : Nat) {c : Ctx} (hregs : c.regs = (s.ctx x).regs)
    (hsp : ∀ n, n ≠ Sr.pc → c.sp n = (s.ctx x).sp n) : Aside s x (s.setCtx x c) where
  rest := rfl
  others y hy := by rw [State.ctx_setCtx, if_neg (Ne.symm hy)]
  regs := by rw [State.ctx_setCtx_self, hregs]
  sp n hn := by rw [State.ctx_setCtx_self, hsp n hn]

theorem Aside.refl (s : State) (x : Nat) : Aside s x s := ⟨rfl, fun _ _ => rfl, rfl, fun _ _ => rfl⟩

theorem Aside.trans {v : State} (h : Aside s x u) (g : Aside u x v) : Aside s x v where
  rest := by rw [g.rest, h.rest]
  others y hy := (g.others y hy).trans (h.others y hy)
  regs := g.regs.trans h.regs
  sp n hn := (g.sp n hn).trans (h.sp n hn)

theorem Aside.beside (h : Aside s x u) : Beside s u := by
  rw [h.rest]
  rfl

theorem Aside.calm (h : Aside s x u) : u.calm = s.calm := by
  rw [h.rest]
  rfl

theorem Aside.pending (h : Aside s x u) : u.pending = s.pending := by rw [h.rest]

theorem Aside.ps (h : Aside s x u) : (u.ctx x).sp Sr.ps = (s.ctx x).sp Sr.ps := h.sp _ (by decide)

theorem Aside.ring (h : Aside s x u) : (u.ctx x).ring = (s.ctx x).ring := by rw [Ctx.ring, Ctx.ring, h.ps]

theorem Aside.translate (h : Aside s x u) (ring : Nat) (k : AccKind) (va : Pay) :
    u.translate x ring k va = s.translate x ring k va := by
  have hte : (u.ctx x).te = (s.ctx x).te := by rw [Ctx.te, Ctx.te, h.ps]
  have hsgo : (u.ctx x).sgo = (s.ctx x).sgo := by rw [Ctx.sgo, Ctx.sgo, h.ps]
  unfold State.translate
  simp only [hte, hsgo, h.sp Sr.asid (by decide)]
  rw [h.rest]
  rfl

theorem Aside.intoEvac (h : Aside s x u) (va : Nat) : u.intoEvac x va = s.intoEvac x va := by
  rw [h.rest]
  rfl

theorem Aside.keyOf (h : Aside s x u) (tr : Tr) : u.keyOf x tr = s.keyOf x tr := by
  rw [h.rest]
  rfl

theorem Aside.pushPlan (h : Aside s x u) (t : Nat) (sp : Pay) : u.pushPlan x t sp = s.pushPlan x t sp := by
  simp only [State.pushPlan, h.translate, h.intoEvac]

/-- What an exception entry finds does not rest on PC, nor on what stands pending at the context. -/
theorem Aside.plan (h : Aside s x u) {e : Exc} {en : Entry} {plan : List Tr} (hp : en.Plan s x e plan) : en.Plan u x e plan where
  vec := hp.vec
  free := by rw [h.rest]; exact hp.free
  target := by rw [h.ring, h.rest]; exact hp.target
  em := by rw [h.ring, Ctx.em, h.ps]; exact hp.em
  spNo := hp.spNo
  push := by
    obtain ⟨hpc, -, -⟩ := hp.spNo_apart
    rw [h.pushPlan, h.sp _ hpc]
    exact hp.push
  keys := by rw [hp.keys]; exact List.map_congr_left fun tr _ => (h.keyOf tr).symm
  straight tr htr := (hp.straight tr htr).beside h.beside
  apart := hp.apart

/-- An entry made from u is one made from s. -/
theorem Aside.entered (h : Aside s x u) {pc : Pay} {e : Exc} {en : Entry} {t : State} (hpc : en.spNo ≠ Sr.pc)
    (ht : Entered u x pc e en t) : Entered s x pc e en t where
  rest := by rw [ht.rest, h.rest]
  others y hy := (ht.others y hy).trans (h.others y hy)
  regs k := (ht.regs k).trans (Ctx.rdKey_congr h.regs k)
  handler := ht.handler
  tb := ht.tb
  winb := by rw [ht.winb, h.sp Sr.winb (by decide)]
  ring := ht.ring
  ie := ht.ie
  sgo := ht.sgo
  em := ht.em
  te := by rw [ht.te, Ctx.te, h.ps]; rfl
  sp := by rw [ht.sp, h.sp _ hpc]
  spec n hn hps hw hsp := (ht.spec n hn hps hw hsp).trans (h.sp n hn)
  frame := by rw [ht.frame, h.ps]
  bytes a ha := by
    obtain ⟨hbyte, htag⟩ := ht.bytes a ha
    rw [hbyte, htag, h.rest]
    exact ⟨rfl, rfl⟩

end

/-! ### The entry carried out -/

section
variable {s : State} {x : Nat} {pc : Pay} {e : Exc} {en : Entry} {plan : List Tr}

theorem State.ctx_entered (s : State) (x : Nat) (pc : Pay) (e : Exc) (en : Entry) (y : Nat) :
    (s.entered x pc e en).ctx y = if x = y then (s.ctx x).entered en else s.ctx y := by
  obtain ⟨m, t, h⟩ := (s.setCtx x ((s.ctx x).entered en)).setEach_rest (en.keys.zip ((s.ctx x).plainFrame pc e))
  rw [State.entered, h]
  exact State.ctx_setCtx s x y _

/-- Beside the context and the frame an entry changes nothing. -/
theorem Entry.Plan.entered (h : en.Plan s x e plan) (pc : Pay) : Entered s x pc e en (s.entered x pc e en) := by
  obtain ⟨hpc, hps, hwinb⟩ := h.spNo_apart
  have hctx : (s.entered x pc e en).ctx x = (s.ctx x).entered en := by rw [State.ctx_entered, if_pos rfl]
  have hsp (n : Nat) := (congrArg (Ctx.sp · n) hctx).trans (Ctx.sp_entered (s.ctx x) hwinb n)
  have hpsv : ((s.entered x pc e en).ctx x).sp Sr.ps = (s.ctx x).entryPs en := hsp Sr.ps
  have hwv : ((s.entered x pc e en).ctx x).sp Sr.winb = setBit ((s.ctx x).sp Sr.winb) 31 true := hsp Sr.winb
  have hlen : en.keys.length = ((s.ctx x).plainFrame pc e).length := by rw [h.keys, List.length_map, h.length]; rfl
  have hkeys : (en.keys.zip ((s.ctx x).plainFrame pc e)).map (·.1) = en.keys := List.map_fst_zip hlen.le
  have hline : (en.keys.zip ((s.ctx x).plainFrame pc e)).map (fun p => p.1 / 8) = en.keys.map (· / 8) := by
    rw [← hkeys, List.map_map, hkeys]
    rfl
  refine ⟨?_, ?_, ?_, hsp Sr.pc, ?_, hwv, ?_, ?_, ?_, ?_, ?_, ?_, ?_, ?_, ?_⟩
  · obtain ⟨m, t, hset⟩ := (s.setCtx x ((s.ctx x).entered en)).setEach_rest (en.keys.zip ((s.ctx x).plainFrame pc e))
    rw [State.entered, hset]
    rfl
  · intro y hy
    rw [State.ctx_entered, if_neg (Ne.symm hy)]
  · intro k
    rw [hctx]
    exact Ctx.rdKey_congr (Ctx.entered_same _ _).1 k
  · rw [Ctx.tb, hwv, bit_setBit_self _ _ _ (by decide)]
  · rw [Ctx.ring, hpsv, Ctx.entryPs, fld_setBit_disjoint _ _ _ _ _ (by decide) (by decide),
      fld_setBit_disjoint _ _ _ _ _ (by decide) (by decide), fld_setBit_disjoint _ _ _ _ _ (by decide) (by decide),
      fld_setFld_self _ _ _ _ (by decide) (by decide)]
    exact Nat.mod_eq_of_lt h.ring_lt
  · rw [Ctx.ie, hpsv, Ctx.entryPs, bit_setBit_ne _ _ _ _ (by decide) (by decide), bit_setBit_ne _ _ _ _ (by decide) (by decide),
      bit_setBit_self _ _ _ (by decide)]
  · rw [Ctx.sgo, hpsv, Ctx.entryPs, bit_setBit_ne _ _ _ _ (by decide) (by decide), bit_setBit_self _ _ _ (by decide)]
  · rw [Ctx.em, hpsv, Ctx.entryPs, bit_setBit_self _ _ _ (by decide)]
  · rw [Ctx.te, hpsv, Ctx.entryPs, bit_setBit_ne _ _ _ _ (by decide) (by decide), bit_setBit_ne _ _ _ _ (by decide) (by decide),
      bit_setBit_ne _ _ _ _ (by decide) (by decide), bit_setFld_disjoint _ _ _ _ _ (by decide) (by decide) (by decide)]
    rfl
  · rw [hsp, if_neg (Ne.symm hpc), if_neg (Ne.symm hwinb), if_neg (Ne.symm hps), if_pos rfl]
  · intro n hn hnps hnw hnsp
    rw [hsp, if_neg (Ne.symm hn), if_neg (Ne.symm hnw), if_neg (Ne.symm hnps), if_neg (Ne.symm hnsp)]
  · have hwords := (s.setCtx x ((s.ctx x).entered en)).words_setEach (hline ▸ h.apart)
    rw [List.map_snd_zip hlen.ge] at hwords
    calc en.keys.map (s.entered x pc e en).word
        = ((en.keys.zip ((s.ctx x).plainFrame pc e)).map (·.1)).map (s.entered x pc e en).word := by rw [hkeys]
      _ = (s.ctx x).plainFrame pc e := List.map_map.trans hwords
  · intro a ha
    exact State.bytes_setEach _ (hline ▸ ha)

/-- An exception that a context with no load pending takes enters its handler, its frame in memory (R447). -/
theorem Entry.Plan.deliver_settle (h : en.Plan s x e plan) (hc : s.calm = true) (hl : (s.ctx x).loads = []) :
    (s.deliver x pc e).settle = (s.setCtx x (s.ctx x)).entered x pc e en := by
  have haside := aside_setCtx s x (c := s.ctx x) rfl fun _ _ => rfl
  have hplan := haside.plan h
  have hctx : (s.setCtx x (s.ctx x)).ctx x = s.ctx x := State.ctx_setCtx_self _ _ _
  have hact : (s.ctx x).entryAction e.vec = s.ctx x := by
    obtain ⟨h16, h17⟩ := h.vec
    rw [Ctx.entryAction, if_neg h16, if_neg h17]
  have hpush := hplan.push
  rw [hctx, h.spNo] at hpush
  have hdeliver : s.deliver x pc e = (s.setCtx x (s.ctx x)).pushEnter x en.ring en.em en.handler pc e plan := by
    simp only [State.deliver, h.target, State.updCtx_eq, hact, hpush, ← h.em]
  rw [hdeliver]
  exact hplan.pushEnter_settle (haside.calm.trans hc) (by rw [hctx]; exact hl)

/-- Exception e taken at u, which has gone on or had something taken from it since s, by a context without pending loads. -/
theorem Aside.deliver {u : State} (h : Aside s x u) (hs : s.entryOf x e = some en) (hc : s.calm = true)
    (hl : (u.ctx x).loads = []) :
    ∃ t, (u.deliver x pc e).settle = t ∧ t.calm = true ∧ t.pending = s.pending ∧ Entered s x pc e en t ∧
      t.ctx x = (u.ctx x).entered en := by
  obtain ⟨plan, hplan⟩ := State.plan_of_entryOf hs
  obtain ⟨hpc, -, -⟩ := hplan.spNo_apart
  have hv := h.trans (aside_setCtx u x (c := u.ctx x) rfl fun _ _ => rfl)
  have hent := hv.entered hpc ((hv.plan hplan).entered pc)
  refine ⟨_, (h.plan hplan).deliver_settle (h.calm.trans hc) hl, ?_, ?_, hent, ?_⟩
  · rw [hent.rest]; exact hc
  · rw [hent.rest]
  · rw [State.ctx_entered, if_pos rfl, State.ctx_setCtx_self]

end

/-! ### Asynchronous exceptions -/

theorem fin_settled {s v t : State} (h : v.settle = t) (hc : t.calm = true) (hp : t.pending = s.pending) :
    fin s v = .next t ∧ fin s v.settle = .next t := by
  rw [fin, fin, h, State.settle_of_calm t hc, ← hp]
  exact ⟨rfl, rfl⟩

/-- No load is pending where an asynchronous exception is taken (R456). -/
theorem State.loads_of_async {s : State} {x : Nat} {a : Async} (h : s.async x = some a) : (s.ctx x).loads = [] := by
  by_contra hl
  have hno : (s.ctx x).admits = false := by simp [Ctx.admits, hl]
  simp [State.async, hno] at h

/-- A context stands at a boundary, to take an asynchronous exception of the given kind (R456, R458). -/
structure Takes (s : State) (x : Nat) (kind : Async) (longNext : Bool) : Prop where
  calm : s.calm = true
  powered : s.powered x = true
  boundary : (s.ctx x).atBoundary = true
  notFirst : ((s.ctx x).fresh && longNext) = false
  async : s.async x = some kind

section
variable {s : State} {x : Nat} {kind : Async} {longNext : Bool}

theorem Takes.asyncRow (h : Takes s x kind longNext) : s.asyncRow x kind longNext = s.takeAsync x kind := by
  simp [State.asyncRow, h.powered, h.boundary, h.notFirst, h.async]

/-- The exception taken enters its handler; the context is otherwise as u has it. -/
theorem Takes.entered (h : Takes s x kind longNext) {u : State} (hu : Aside s x u) (hl : (u.ctx x).loads = (s.ctx x).loads)
    {e : Exc} {en : Entry} (ht : s.takeAsync x kind = u.deliver x (s.ctx x).pc e) (he : s.entryOf x e = some en) :
    ∃ t, fin s (s.asyncRow x kind longNext) = .next t ∧ t.ctx x = (u.ctx x).entered en ∧ Entered s x (s.ctx x).pc e en t := by
  obtain ⟨t, hsettle, hcalm, hpending, hent, hctx⟩ :=
    hu.deliver (pc := (s.ctx x).pc) he h.calm (hl.trans (State.loads_of_async h.async))
  refine ⟨t, ?_, hctx, hent⟩
  rw [h.asyncRow, ht]
  exact (fin_settled hsettle hcalm hpending).1

/-- An exception whose pending entry is taken from its context. -/
theorem Takes.popped (h : Takes s x kind longNext) {c : Ctx} (hregs : c.regs = (s.ctx x).regs) (hsr : c.sr = (s.ctx x).sr)
    (hl : c.loads = (s.ctx x).loads) {e : Exc} {en : Entry}
    (ht : s.takeAsync x kind = (s.setCtx x c).deliver x (s.ctx x).pc e) (he : s.entryOf x e = some en) :
    ∃ t, fin s (s.asyncRow x kind longNext) = .next t ∧ t.ctx x = c.entered en ∧ Entered s x (s.ctx x).pc e en t := by
  obtain ⟨t, hrow, hctx, hent⟩ := h.entered (aside_setCtx s x hregs fun n _ => Ctx.sp_congr hsr n)
    (by rw [State.ctx_setCtx_self, hl]) ht he
  rw [State.ctx_setCtx_self] at hctx
  exact ⟨t, hrow, hctx, hent⟩

end

/-! What each kind takes from its context (R455 to R457, R470). -/

section
variable {s : State} {x : Nat}

theorem State.takeAsync_line {l : LineEv} {ls : List LineEv} (h : (s.ctx x).lines = l :: ls) :
    s.takeAsync x .line = (s.setCtx x { s.ctx x with lines := ls }).deliver x (s.ctx x).pc
      { vec := 64 + l.n, cause := p64 l.n, x0 := ⟨Tag.tick, l.time⟩ } := by
  simp only [State.takeAsync, h, State.updCtx_eq]

theorem State.takeAsync_sbe {b : StoreErr} {bs : List StoreErr} (h : (s.ctx x).sbes = b :: bs) :
    s.takeAsync x .sbe = (s.setCtx x { s.ctx x with sbes := bs }).deliver x (s.ctx x).pc
      { vec := 14, cause := p64 b.cause, fa := b.addr, x0 := Word.raw b.pc } := by
  simp only [State.takeAsync, h, State.updCtx_eq]

theorem State.takeAsync_mcheck {m : DefMc} {ms : List DefMc} (h : (s.ctx x).mcs = m :: ms) :
    s.takeAsync x .mcheck = (s.setCtx x { s.ctx x with mcs := ms }).deliver x (s.ctx x).pc
      { vec := 2, cause := p64 m.cause, fa := m.addr } := by
  have hexc : Exc.mcheck m.cause m.addr.toNat = { vec := 2, cause := p64 m.cause, fa := m.addr } :=
    congrArg (Exc.mk 2 (p64 m.cause) · (Word.raw 0) (Word.raw 0) (Word.raw 0) (Word.raw 0))
      ((BitVec.ofNat_toNat 64 m.addr).trans (BitVec.setWidth_eq _))
  simp only [State.takeAsync, h, State.updCtx_eq, hexc]

end

/-! ### TRAP and ILLEGAL_INSTRUCTION -/

/-- With TB = 0 an instruction whose entry meets no error has its exception delivered (R447). -/
theorem State.enterExc_deliver {s : State} {x : Nat} {at_ : At} (pc : Pay) (e : Exc) (hv : at_.vecBad = false)
    (hp : at_.pushPar = false) (htb : (s.ctx x).tb = false) : s.enterExc x pc e at_ = s.deliver x pc e := by
  simp [State.enterExc, State.takeExc, hv, hp, htb]

/-- The Illegal Instruction exceptions of R109 enter vector 4. -/
theorem vec_of_decodeFault {loaded : Nat → Bool} {w : Word} {upper : Bool} {e : Exc} (h : decodeFault loaded w upper = some e) :
    e.vec = 4 := by
  unfold decodeFault at h
  simp only at h
  split_ifs at h <;> cases h <;> rfl

section
variable {s : State} {at_ : At} {en : Entry}

/-- An instruction whose body raises e, with the push free to go on, enters e's handler with its own address (R438, R447, R454). -/
theorem issue_raises {e : Exc} {body : Pay → X Flow} (h : s.ready at_ 4 = true) (htb : (s.ctx (ctxOf at_)).tb = false)
    (hb : body (s.ctx (ctxOf at_)).pc (startRun s at_) = .error (.exc e id false) (startRun s at_)) (hvec : e.vec ≠ 18)
    (he : s.entryOf (ctxOf at_) e = some en) :
    ∃ t, fin s (issue at_ 4 false body s) = .next t ∧ Entered s (ctxOf at_) (s.ctx (ctxOf at_)).pc e en t := by
  have hr := State.ready_iff s at_ 4 h
  obtain ⟨plan, hplan⟩ := State.plan_of_entryOf he
  obtain ⟨t, hsettle, hcalm, hpending, hent, -⟩ :=
    (Aside.refl s (ctxOf at_)).deliver (pc := (s.ctx (ctxOf at_)).pc) he hr.calm hr.loads
  refine ⟨t, ?_, hent⟩
  have htag : s.tagTrapEntry (startRun s at_) (s.ctx (ctxOf at_)).pc e = s.deliver (ctxOf at_) (s.ctx (ctxOf at_)).pc e := by
    rw [State.tagTrapEntry, if_pos (.inl hvec)]
    exact State.enterExc_deliver _ _ hr.vecBad hr.pushPar htb
  have hissue : issue at_ 4 false body s = (s.deliver (ctxOf at_) (s.ctx (ctxOf at_)).pc e).settle := by
    rw [issue_ready hr, hb]
    simp only [hplan.free, Bool.false_eq_true, if_false, id_eq, htag]
  rw [hissue]
  exact (fin_settled hsettle hcalm hpending).2

/-- Out of tight mode an instruction that transfers control leaves all but its context alone. -/
theorem aside_retireTo {x : Nat} (target : Pay) (h : (s.ctx x).Plain) (ht : s.isTight x = false) :
    Aside s x (s.retireTo x target) := by
  obtain ⟨near, hctx, -⟩ := State.retireTo_plain s x target h
  have htwins : (s.retireTo x target).twins = s.twins := by
    have hretire := s.retire_twins x [] target h.loads ht
    simp only [State.retire, State.updCtx_eq, State.setCtx_twins] at hretire
    simp only [State.retireTo, State.updCtx_eq, State.setCtx_twins, hretire]
  generalize s.retireTo x target = t at near hctx htwins ⊢
  refine ⟨?_, near.others, ?_, ?_⟩
  · rw [near.rest, htwins]
  · rw [hctx]; rfl
  · intro n hn
    rw [hctx, Ctx.sp_retired, if_neg (Ne.symm hn)]

/-- TRAP retires, and then its exception is delivered (R438, R464). -/
theorem opTrap_run {n : Nat} {pc : Pay} (hw : s.pushWaits (ctxOf at_) = false) :
    opTrap n pc (startRun s at_) =
      .ok .stay { startRun s at_ with
        s := (s.retireTo (ctxOf at_) (pc + 4)).enterExc (ctxOf at_) (pc + 4) { vec := 128 + n, cause := p64 n } at_ } := by
  unfold opTrap
  refine (X.bind_ok (X.ctxNo_run _) _).trans ((X.bind_ok (X.st_run _) _).trans ?_)
  refine (X.check_passed (by rw [show (startRun s at_).s.pushWaits (startRun s at_).x = false from hw]; decide)).trans ?_
  rfl

/-- TRAP past its checks retires, and enters its handler with the next instruction's address (R438, R464). -/
theorem trap_entered {n : BitVec 16} (h : s.ready at_ 4 = true) (htb : (s.ctx (ctxOf at_)).tb = false) (hn : n.toNat < 128)
    (he : s.entryOf (ctxOf at_) { vec := 128 + n.toNat, cause := p64 n.toNat } = some en) :
    ∃ t, exec (.trap at_ { imm := n }) s = .next t ∧
      Entered s (ctxOf at_) ((s.ctx (ctxOf at_)).pc + 4) { vec := 128 + n.toNat, cause := p64 n.toNat } en t := by
  have hr := State.ready_iff s at_ 4 h
  obtain ⟨plan, hplan⟩ := State.plan_of_entryOf he
  have haside := aside_retireTo ((s.ctx (ctxOf at_)).pc + 4) hr.plain hplan.notTight
  obtain ⟨-, hctx, -⟩ := State.retireTo_plain s (ctxOf at_) ((s.ctx (ctxOf at_)).pc + 4) hr.plain
  have hloads : ((s.retireTo (ctxOf at_) ((s.ctx (ctxOf at_)).pc + 4)).ctx (ctxOf at_)).loads = [] := by rw [hctx]; exact hr.loads
  have htb' : ((s.retireTo (ctxOf at_) ((s.ctx (ctxOf at_)).pc + 4)).ctx (ctxOf at_)).tb = false := by
    rw [Ctx.tb, haside.sp Sr.winb (by decide)]
    exact htb
  obtain ⟨t, hsettle, hcalm, hpending, hent, -⟩ := haside.deliver (pc := (s.ctx (ctxOf at_)).pc + 4) he hr.calm hloads
  refine ⟨t, ?_, hent⟩
  have hrsv : immOk 0x29 n.toNat = true := decide_eq_true hn
  have hchecks := X.decodeChecks_ok (metaR 0x29 0) (startRun s at_) (ring_le _) (.inl rfl)
  have hbody := opTrap_run (n := n.toNat) (pc := (s.ctx (ctxOf at_)).pc) hplan.free
  rw [State.enterExc_deliver _ _ hr.vecBad hr.pushPar htb'] at hbody
  have hissue : s.rowX at_ 0x29 (immOk 0x29 n.toNat) (fun pc => opTrap n.toNat pc) =
      ((s.retireTo (ctxOf at_) ((s.ctx (ctxOf at_)).pc + 4)).deliver (ctxOf at_) ((s.ctx (ctxOf at_)).pc + 4)
        { vec := 128 + n.toNat, cause := p64 n.toNat }).settle := by
    rw [State.rowX, hrsv, issue_ready hr, (X.bind_ok hchecks _).trans hbody]
  calc exec (.trap at_ { imm := n }) s
      = fin s (s.rowX at_ 0x29 (immOk 0x29 n.toNat) (fun pc => opTrap n.toNat pc)) := rfl
    _ = .next t := by rw [hissue]; exact (fin_settled hsettle hcalm hpending).2

/-- A word that R109 refuses raises the exception of its first check (R106, R109). -/
theorem opIllegal_run {pc : Pay} {w : Word} {e : Exc}
    (h : decodeFault (fun n => (Tbl.look (s.core (s.coreOf (ctxOf at_))).decode n).isSome) w (bit pc 2) = some e) :
    opIllegal pc w (startRun s at_) = .error (.exc e id false) (startRun s at_) := by
  unfold opIllegal
  refine (X.bind_ok (X.st_run _) _).trans ((X.bind_ok (X.core_run _) _).trans ?_)
  rw [h]
  rfl

end

/-- Settles O21: each row delivers its exception once it has retired or taken what was pending; the frame's eight stores go
straight to memory, so that all of the entry beside them stands in the context. -/
theorem exceptionEntries : Obligations.ExceptionEntries := by
  unfold Obligations.ExceptionEntries
  refine ⟨?_, ?_⟩
  · intro s at_ en x pc h htb
    exact ⟨fun n hn he => trap_entered h htb hn he,
      fun w e hfault he => issue_raises h htb (opIllegal_run hfault) (by rw [vec_of_decodeFault hfault]; decide) he⟩
  · intro s x longNext en c hc hp hb _ hf
    have takes {kind : Async} (ha : s.async x.toNat = some kind) : Takes s x.toNat kind longNext := ⟨hc, hp, hb, hf, ha⟩
    refine ⟨?_, ?_, ?_, ?_⟩
    · intro l ls ha hlines he
      obtain ⟨t, hrow, hctx, hent⟩ := (takes ha).popped (c := { c with lines := ls }) rfl rfl rfl (State.takeAsync_line hlines) he
      obtain ⟨-, hleft, -, -⟩ := Ctx.entered_same { c with lines := ls } en
      exact ⟨t, hrow, hctx ▸ hleft, hent⟩
    · intro b bs ha hsbes he
      obtain ⟨t, hrow, hctx, hent⟩ := (takes ha).popped (c := { c with sbes := bs }) rfl rfl rfl (State.takeAsync_sbe hsbes) he
      obtain ⟨-, -, hleft, -⟩ := Ctx.entered_same { c with sbes := bs } en
      exact ⟨t, hrow, hctx ▸ hleft, hent⟩
    · intro m ms ha hmcs he
      obtain ⟨t, hrow, hctx, hent⟩ := (takes ha).popped (c := { c with mcs := ms }) rfl rfl rfl (State.takeAsync_mcheck hmcs) he
      obtain ⟨-, -, -, hleft⟩ := Ctx.entered_same { c with mcs := ms } en
      exact ⟨t, hrow, hctx ▸ hleft, hent⟩
    · intro ha w he
      obtain ⟨t, hrow, -, hent⟩ := (takes ha).entered (Aside.refl s _) rfl rfl he
      exact ⟨t, hrow, hent⟩

end Sys2Proof.Machine
end

section
/-!
PROOFS. Every command ends in `fin`, with the queue as it was and no wake request left standing in Quiet (R673).
-/
namespace Sys2Proof.Machine

/-- Every row's meaning ends a command: it settles some machine and puts the queue back. -/
theorem exec_eq_fin (c : Instr) (s : State) : ∃ u : State, exec c s = fin s u := by
  cases c <;> exact ⟨_, rfl⟩

/-! ### No wake request is left standing (R673) -/

namespace State

variable (s : State)

/-- A wake request stands by SYS_STAT's mode, the Quiet sequence and the request alone. -/
theorem wakeMissed_congr {s t : State} (hd : t.dev = s.dev) (hq : t.sys = s.sys) : t.wakeMissed ↔ s.wakeMissed := by
  simp only [wakeMissed, mode, rf, reg, hd, hq]

theorem startWake_wakeReq : s.startWake.sys.wakeReq = false := rfl

theorem checkWake_answers : ¬ s.checkWake.wakeMissed := by
  unfold checkWake
  split
  · intro h
    exact absurd h.2.2 (by rw [startWake_wakeReq]; decide)
  · next h => exact h

theorem settle_answers : ¬ s.settle.wakeMissed := checkWake_answers _

/-- What every round of a loop keeps, the loop keeps. -/
theorem forN_keeps {P : State → Prop} (f : Nat → State → State) (hf : ∀ i u, P u → P (f i u)) (n k : Nat) {u : State} (h : P u) :
    P (forN n k f u) := by
  induction n generalizing k u with
  | zero => exact h
  | succ n ih => exact ih (k + 1) (hf k u h)

/-- A clock cycle changes neither registers nor what SYS holds. -/
theorem refTick_dev : s.refTick.dev = s.dev ∧ s.refTick.sys = s.sys := by
  unfold refTick
  split
  · exact ⟨rfl, rfl⟩
  · apply forN_keeps (P := fun u => u.dev = s.dev ∧ u.sys = s.sys)
    · intro i u hu
      split <;> exact hu
    · exact ⟨rfl, rfl⟩

theorem tick_answers (h : ¬ s.wakeMissed) : ¬ s.tick.wakeMissed := by
  unfold tick
  split
  · rwa [wakeMissed_congr s.refTick_dev.1 s.refTick_dev.2]
  · exact settle_answers _

end State

/-- Settles O29: a command's last act answers a wake request that stands, and so does a clock cycle out of reset; in reset the
clocks leave mode and request alone. -/
theorem wakesNeverWait : Obligations.WakesNeverWait := by
  unfold Obligations.WakesNeverWait
  intro s t hs ht
  unfold step at ht
  split at ht
  · next he =>
    cases ht
    exact s.tick_answers (hs he)
  · next c cs _ =>
    obtain ⟨u, hu⟩ := exec_eq_fin c { s with pending := cs }
    rw [hu] at ht
    cases ht
    exact fun h => State.settle_answers u ((State.wakeMissed_congr rfl rfl).mp h)

end Sys2Proof.Machine
end

section
/-!
PROOFS. The queue of waiting commands: no operation that the passing of time calls on touches it, one lemma per operation in the
order of the model, and so a step takes one command off its front and adds none (R649, assumption 10).
-/
namespace Sys2Proof.Machine

@[simp] theorem State.pending_foldl {β : Type} (f : State → β → State) (hf : ∀ s b, (f s b).pending = s.pending) (l : List β) (s : State) :
    (l.foldl f s).pending = s.pending := by
  induction l generalizing s with
  | nil => rfl
  | cons b l ih => exact (ih _).trans (hf s b)

@[simp] theorem State.pending_forN (f : Nat → State → State) (hf : ∀ i s, (f i s).pending = s.pending) (n k : Nat) (s : State) :
    (forN n k f s).pending = s.pending := by
  induction n generalizing k s with
  | zero => rfl
  | succ n ih => exact (ih (k+1) _).trans (hf k s)

theorem State.pending_ite {c : Prop} [Decidable c] {a b : State} {p : List Instr} (ha : a.pending = p) (hb : b.pending = p) :
    (if c then a else b).pending = p := by
  split
  · exact ha
  · exact hb


/-! ### Machine/Regs -/

theorem State.setRf_pending (s : State) (off hi lo v : Nat) : (s.setRf off hi lo v).pending = s.pending := rfl
@[simp] theorem State.recErr_pending (s : State) (off src code : Nat) : (s.recErr off src code).pending = s.pending :=
  State.pending_ite (State.setReg_pending s _ _) (State.setReg_pending s _ _)
@[simp] theorem State.plainWrite_pending (s : State) (off : Nat) (v : Pay) : (s.plainWrite off v).pending = s.pending := by
  unfold State.plainWrite
  (repeat' split) <;> simp

/-! ### Machine/Access -/

@[simp] theorem State.free_pending (s : State) : (s.free).2.pending = s.pending := rfl
@[simp] theorem State.sign_pending (s : State) (t : Nat) (ws : List Pay) : (s.sign t ws).pending = s.pending := rfl
@[simp] theorem State.wrReg_pending (s : State) (x : Nat) (r : BitVec 5) (w : Word) : (s.wrReg x r w).pending = s.pending := by
  simp [State.wrReg, apply_ite State.pending]
@[simp] theorem State.wrRegBank_pending (s : State) (x : Nat) (r : BitVec 5) (bank : Nat) (w : Word) :
    (s.wrRegBank x r bank w).pending = s.pending := by
  simp [State.wrRegBank, apply_ite State.pending]

/-! ### Machine/Mesh -/

@[simp] theorem State.enter_pending (s : State) (id : Nat) (st : TxnSt) : (s.enter id st).pending = s.pending := rfl
@[simp] theorem State.enqueue_pending (s : State) (key n : Nat) : (s.enqueue key n).pending = s.pending := rfl
@[simp] theorem State.sendReq_pending (s : State) (src x pa width : Nat) (kind : TxnKind) (out : Option Out) :
    (s.sendReq src x pa width kind out).2.pending = s.pending := by
  simp [State.sendReq, apply_ite State.pending]
@[simp] theorem State.cancelEvict_pending (s : State) (line : Nat) : (s.cancelEvict line).pending = s.pending := rfl

/-! ### Machine/Phys -/

@[simp] theorem State.setPay_pending (s : State) (k : Nat) (p : Pay) : (s.setPay k p).pending = s.pending :=
  State.pending_forN _ (fun _ _ => by rfl) _ _ _
@[simp] theorem State.setWord_pending (s : State) (k : Nat) (w : Word) : (s.setWord k w).pending = s.pending :=
  (State.setTagAt_pending _ _ _).trans (State.setPay_pending _ _ _)
@[simp] theorem setWordsFrom_pending (ws : List Word) (k : Nat) (s : State) : (setWordsFrom ws k s).pending = s.pending := by
  induction ws generalizing k s with
  | nil => rfl
  | cons w ws ih => exact (ih (k + 8) (s.setWord k w)).trans (s.setWord_pending k w)
@[simp] theorem State.setWords_pending (s : State) (k : Nat) (ws : List Word) : (s.setWords k ws).pending = s.pending := by
  simp [State.setWords]
@[simp] theorem State.setBytesRaw_pending (s : State) (k : Nat) (bs : List (BitVec 8)) : (s.setBytesRaw k bs).pending = s.pending := by
  induction bs generalizing k s with
  | nil => rfl
  | cons b bs ih => exact ih _ _
@[simp] theorem State.writeBack_pending (s : State) (line : Nat) : (s.writeBack line).pending = s.pending := rfl
@[simp] theorem State.discard_pending (s : State) (line : Nat) : (s.discard line).pending = s.pending := by
  unfold State.discard
  split <;> simp
@[simp] theorem State.evictLine_pending (s : State) (n line : Nat) : (s.evictLine n line).pending = s.pending := by
  simp [State.evictLine, apply_ite State.pending]
@[simp] theorem State.l1dDrop_pending (s : State) (k line : Nat) : (s.l1dDrop k line).pending = s.pending := by
  unfold State.l1dDrop
  dsimp only
  (repeat' split) <;> simp
@[simp] theorem State.l1dDropAll_pending (s : State) (n line : Nat) : (s.l1dDropAll n line).pending = s.pending := by
  simp [State.l1dDropAll]
@[simp] theorem State.l1iDropAll_pending (s : State) (n line : Nat) : (s.l1iDropAll n line).pending = s.pending := by
  refine State.pending_foldl _ (fun _ _ => ?_) _ _
  rfl
@[simp] theorem State.l2Drop_pending (s : State) (n line : Nat) (toMemory : Bool) :
    (s.l2Drop n line toMemory).pending = s.pending := by
  unfold State.l2Drop
  dsimp only
  (repeat' split) <;> simp
@[simp] theorem State.cohRead_pending (s : State) (n : Option Nat) (line : Nat) : (s.cohRead n line).pending = s.pending := by
  refine State.pending_foldl _ (fun u m => ?_) _ _
  split
  · rfl
  · dsimp only
    (repeat' split) <;> simp
@[simp] theorem State.cohWrite_pending (s : State) (k n : Option Nat) (line : Nat) : (s.cohWrite k n line).pending = s.pending := by
  have hdrop : ∀ u : State, ((u.cores.map (·.1)).foldl (fun s j => if some j = k then s else s.l1dDrop j line) u).pending = u.pending :=
    fun u => State.pending_foldl _ (fun u j => by split <;> simp) _ _
  refine (State.pending_foldl _ (fun u m => ?_) _ _).trans ?_
  · split
    · rfl
    · dsimp only
      (repeat' split) <;> simp
  · (repeat' split) <;> simp [hdrop]
@[simp] theorem State.extWrite_pending (s : State) (k : Nat) (w : Word) : (s.extWrite k w).pending = s.pending := by
  simp [State.extWrite]
@[simp] theorem State.extRead_pending (s : State) (k : Nat) : (s.extRead k).2.pending = s.pending := by simp [State.extRead]

/-! ### Machine/Ops -/

@[simp] theorem State.landLoads_pending (s : State) (x : Nat) : (s.landLoads x).pending = s.pending := by simp [State.landLoads]
@[simp] theorem State.retireMark_pending (s : State) (x : Nat) : (s.retireMark x).pending = s.pending := by
  simp [State.retireMark, apply_ite State.pending]
@[simp] theorem State.retire_pending (s : State) (x : Nat) (slots : List Pay) (next : Pay) (ld : Option PendLoad) :
    (s.retire x slots next ld).pending = s.pending := by
  simp [State.retire]
@[simp] theorem State.wakeWindow_pending (s : State) (t : Nat) : (s.wakeWindow t).pending = s.pending := by
  refine State.pending_foldl _ (fun _ _ => ?_) _ _
  rfl
@[simp] theorem State.confirm_pending (s : State) (t : Nat) : (s.confirm t).pending = s.pending := by simp [State.confirm]
@[simp] theorem State.confirmLine_pending (s : State) (line : Nat) : (s.confirmLine line).pending = s.pending := by
  simp [State.confirmLine]
@[simp] theorem State.busWrite_pending (s : State) (k : Nat) (w : Word) : (s.busWrite k w).pending = s.pending := by
  simp [State.busWrite]
@[simp] theorem State.engWrite_pending (s : State) (k : Nat) (w : Word) : (s.engWrite k w).pending = s.pending := by
  simp [State.engWrite, apply_ite State.pending]
@[simp] theorem State.engRead_pending (s : State) (k : Nat) : (s.engRead k).2.pending = s.pending := by simp [State.engRead]
@[simp] theorem State.engWords_pending (s : State) (k : Nat) (ws : List Word) : (s.engWords k ws).pending = s.pending := by
  simp [State.engWords]
@[simp] theorem State.recSbe_pending (s : State) (x cause pa : Nat) (pc : Pay) : (s.recSbe x cause pa pc).pending = s.pending := by
  simp [State.recSbe, apply_ite State.pending]
@[simp] theorem State.memStore_pending (s : State) (src pa width : Nat) (v : Word) :
    (s.memStore src pa width v).pending = s.pending := by
  simp [State.memStore, apply_ite State.pending]
@[simp] theorem State.memHeal_pending (s : State) (k : Nat) (old new : Word) : (s.memHeal k old new).pending = s.pending := by
  simp [State.memHeal, apply_ite State.pending]
@[simp] theorem State.mirrorKeep_pending (s : State) (t pa width : Nat) : (s.mirrorKeep t pa width).pending = s.pending := by
  simp [State.mirrorKeep]
@[simp] theorem State.keepStore_pending (s : State) (x src pa width : Nat) (v : Word) :
    (s.keepStore x src pa width v).pending = s.pending := by
  simp [State.keepStore, apply_ite State.pending]
@[simp] theorem State.intake_pending (s : State) (c x base n : Nat) : (s.intake c x base n).pending = s.pending := rfl
@[simp] theorem State.submitSatb_pending (s : State) (x : Nat) : (s.submitSatb x).pending = s.pending := by
  simp [State.submitSatb, apply_ite State.pending]
@[simp] theorem State.confirmedSqt_pending (s : State) (x : Nat) : (s.confirmedSqt x).pending = s.pending := by
  unfold State.confirmedSqt
  split <;> simp
@[simp] theorem State.ctxReset_pending (s : State) (x : Nat) : (s.ctxReset x).pending = s.pending := by
  unfold State.ctxReset
  dsimp only
  (repeat' split) <;> simp
@[simp] theorem State.wakeWait_pending (s : State) (x : Nat) : (s.wakeWait x).pending = s.pending := by
  unfold State.wakeWait
  dsimp only
  (repeat' split) <;> simp
@[simp] theorem State.latchCtx_pending (s : State) (x : Nat) : (s.latchCtx x).pending = s.pending := by simp [State.latchCtx]
@[simp] theorem State.wantWake_pending (s : State) (x : Nat) : (s.wantWake x).pending = s.pending := by
  simp [State.wantWake, apply_ite State.pending]
@[simp] theorem State.setLatch_pending (s : State) (x0 : Nat) : (s.setLatch x0).pending = s.pending := by
  simp [State.setLatch, apply_ite State.pending]
@[simp] theorem State.setLine_pending (s : State) (x0 n : Nat) (tm : Pay) : (s.setLine x0 n tm).pending = s.pending := by
  unfold State.setLine
  dsimp only
  split
  · refine State.pending_foldl _ (fun _ _ => ?_) _ _
    rfl
  · simp
@[simp] theorem State.deliverHeld_pending (s : State) (x : Nat) : (s.deliverHeld x).pending = s.pending := by
  simp [State.deliverHeld, apply_ite State.pending]
@[simp] theorem State.assertSource_pending (s : State) (i : Nat) : (s.assertSource i).pending = s.pending := by
  simp [State.assertSource, apply_ite State.pending]

/-! ### Machine/Pref -/

@[simp] theorem State.fillSlots_pending (fuel : Nat) (s : State) : (State.fillSlots fuel s).pending = s.pending := by
  induction fuel generalizing s with
  | zero => rfl
  | succ fuel ih =>
    unfold State.fillSlots
    dsimp only
    (repeat' split) <;> simp [ih]
@[simp] theorem State.askBlock_pending (s : State) (src b : Nat) (xq : Option Nat) : (s.askBlock src b xq).pending = s.pending := by
  simp [State.askBlock, apply_ite State.pending]
@[simp] theorem State.mapLost_pending (s : State) (b : Nat) : (s.mapLost b).pending = s.pending := rfl
@[simp] theorem State.wakeBlock_pending (s : State) (b : Nat) (g : List Grant) : (s.wakeBlock b g).pending = s.pending := by
  refine State.pending_foldl _ (fun _ _ => ?_) _ _
  rfl

/-! ### Machine/Status -/

@[simp] theorem State.bump_pending (s : State) (off hi lo : Nat) : (s.bump off hi lo).pending = s.pending := rfl
@[simp] theorem State.count_pending (s : State) (off : Nat) : (s.count off).pending = s.pending := rfl
@[simp] theorem State.telem_pending (s : State) (src code : Nat) (addr extra : Pay) :
    (s.telem src code addr extra).pending = s.pending := by
  simp [State.telem, apply_ite State.pending]
@[simp] theorem State.eccSeen_pending (s : State) (src pa : Nat) (e : Ecc) : (s.eccSeen src pa e).pending = s.pending := by
  simp [State.eccSeen, apply_ite State.pending]
@[simp] theorem State.poison_pending (s : State) (n line : Nat) : (s.poison n line).pending = s.pending := by
  unfold State.poison
  split <;> simp
@[simp] theorem State.l2Uncorr_pending (s : State) (src n line : Nat) (dirty : Bool) :
    (s.l2Uncorr src n line dirty).pending = s.pending := by
  simp [State.l2Uncorr, apply_ite State.pending]
@[simp] theorem State.l2Corrected_pending (s : State) (src n line : Nat) : (s.l2Corrected src n line).pending = s.pending := by
  simp [State.l2Corrected]
@[simp] theorem State.setMode_pending (s : State) (m : Nat) : (s.setMode m).pending = s.pending := rfl
@[simp] theorem State.modeResult_pending (s : State) (r : Nat) : (s.modeResult r).pending = s.pending := rfl
@[simp] theorem State.sysStat_pending (s : State) (b : Nat) (v : Bool) : (s.sysStat b v).pending = s.pending := rfl
@[simp] theorem State.showDegraded_pending (s : State) : s.showDegraded.pending = s.pending := rfl
@[simp] theorem State.autoSafeHold_pending (s : State) : s.autoSafeHold.pending = s.pending := by
  simp [State.autoSafeHold, apply_ite State.pending]
@[simp] theorem State.checkKeep_pending (s : State) : s.checkKeep.pending = s.pending := by
  simp [State.checkKeep, apply_ite State.pending]
@[simp] theorem State.refresh_pending (s0 : State) : s0.refresh.pending = s0.pending := by
  simp [State.refresh, apply_ite State.pending]
@[simp] theorem State.engPutBytes_pending (s : State) (pa : Nat) (bs : List (BitVec 8)) :
    (s.engPutBytes pa bs).pending = s.pending := by
  simp [State.engPutBytes]

/-! ### Machine/Store -/

@[simp] theorem State.setStoStat_pending (s : State) (b : Nat) (v : Bool) : (s.setStoStat b v).pending = s.pending := rfl
@[simp] theorem State.updSto_pending (s : State) (f : Sto → Sto) : (s.updSto f).pending = s.pending := rfl
@[simp] theorem State.mountResult_pending (s : State) (r : Nat) : (s.mountResult r).pending = s.pending := rfl
@[simp] theorem State.setJournal_pending (s : State) (j : List JRec) : (s.setJournal j).pending = s.pending := rfl
@[simp] theorem State.stoSync_pending (s : State) : s.stoSync.pending = s.pending := rfl
@[simp] theorem State.sendDrives_pending (s : State) (ns : List Nat) (c : Nat → DriveCmd) :
    (s.sendDrives ns c).pending = s.pending :=
  rfl
@[simp] theorem State.setMapWord_pending (s : State) (b : Nat) (v : Pay) : (s.setMapWord b v).pending = s.pending := by
  simp [State.setMapWord]
@[simp] theorem State.orcDrop_pending (s : State) (b : Nat) : (s.orcDrop b).pending = s.pending := by
  refine State.pending_foldl _ (fun _ _ => ?_) _ _
  rfl
@[simp] theorem State.orcClear_pending (s : State) : s.orcClear.pending = s.pending := by
  refine State.pending_foldl _ (fun _ _ => ?_) _ _
  rfl
@[simp] theorem State.freeFrame_pending (s : State) (f : Nat) : (s.freeFrame f).pending = s.pending := by
  unfold State.freeFrame
  split <;> simp
@[simp] theorem advanceHead_pending (fuel : Nat) (s : State) : (advanceHead fuel s).pending = s.pending := by
  induction fuel generalizing s with
  | zero => rfl
  | succ fuel ih =>
    unfold advanceHead
    dsimp only
    split <;> simp [ih]
@[simp] theorem State.xqDone_pending (s : State) (i code result : Nat) : (s.xqDone i code result).pending = s.pending := by
  simp [State.xqDone, apply_ite State.pending]
@[simp] theorem State.sealFrame_pending (s : State) (f l : Nat) (slot : Option Nat) :
    (s.sealFrame f l slot).pending = s.pending := by
  unfold State.sealFrame
  split <;> simp
@[simp] theorem State.slotWrite_pending (s : State) (ns : List Nat) (f b l n : Nat) :
    (s.slotWrite ns f b l n).pending = s.pending :=
  rfl
@[simp] theorem State.xqRead_pending (s : State) (i f : Nat) (e : Ecc) : (s.xqRead i f e).pending = s.pending := by
  simp [State.xqRead, apply_ite State.pending]
@[simp] theorem State.xqSeal_pending (s : State) (i f b l : Nat) (fr : FrameSt) (e : Ecc) :
    (s.xqSeal i f b l fr e).pending = s.pending := by
  unfold State.xqSeal
  dsimp only
  (repeat' split) <;> simp
@[simp] theorem State.xqRun_pending (s : State) (i : Nat) (e m : Ecc) : (s.xqRun i e m).pending = s.pending := by
  unfold State.xqRun
  extract_lets s1 op b w1
  have h : s1.pending = s.pending := rfl
  have hd : ∀ c n, (s1.xqDone i c n).pending = s.pending := fun c n => (State.xqDone_pending s1 i c n).trans h
  clear_value s1 op b w1
  refine State.pending_ite h (State.pending_ite (hd _ _) (State.pending_ite (hd _ _) (State.pending_ite (hd _ _)
    (State.pending_ite (hd _ _) (State.pending_ite (hd _ _) (State.pending_ite (hd _ _) (State.pending_ite (hd _ _)
      (State.pending_ite ?_ ?_))))))))
  · simp [h]
  · next s2 =>
    have h2 : s2.pending = s.pending := (State.eccSeen_pending ..).trans h
    clear_value s2
    split
    · split <;> simp [h2]
    · split
      · exact h2
      · refine State.pending_ite ?_ (State.pending_ite ?_ (State.pending_ite ?_ (State.pending_ite ?_ ?_)))
        · split <;> simp [h2]
        · simp [h2]
        · split <;> simp [h2]
        · simp [h2]
        · simp [h2]
@[simp] theorem State.xqRetry_pending (s : State) : s.xqRetry.pending = s.pending := by simp [State.xqRetry]
@[simp] theorem State.freeParked_pending (s : State) (b : Nat) : (s.freeParked b).pending = s.pending := by simp [State.freeParked]
@[simp] theorem State.dropFrames_pending (s : State) (l : Nat) : (s.dropFrames l).pending = s.pending := by simp [State.dropFrames]
@[simp] theorem State.retireFrames_pending (s : State) (l : Nat) : (s.retireFrames l).pending = s.pending := by
  simp [State.retireFrames]
@[simp] theorem State.commitEntry_pending (s : State) (stream stamp b : Nat) :
    (s.commitEntry stream stamp b).pending = s.pending := by
  unfold State.commitEntry
  (repeat' split) <;> simp
@[simp] theorem State.commitSealed_pending (s : State) (stream stamp l b : Nat) :
    (s.commitSealed stream stamp l b).pending = s.pending := by
  unfold State.commitSealed
  split <;> simp
theorem State.storeRelease_pending (s : State) (stream seq idx l : Nat) (blocks : List Nat) {t : State}
    (h : s.storeRelease stream seq idx l blocks = some t) : t.pending = s.pending := by
  unfold State.storeRelease at h
  (repeat' split at h) <;> cases h
  · rfl
  · simp [apply_ite State.pending]
@[simp] theorem State.unmount_pending (s : State) : s.unmount.pending = s.pending := by simp [State.unmount]
@[simp] theorem State.tryDisable_pending (s : State) : s.tryDisable.pending = s.pending := by
  simp [State.tryDisable, apply_ite State.pending]
@[simp] theorem State.startMount_pending (s : State) : s.startMount.pending = s.pending := by
  simp [State.startMount, apply_ite State.pending]
@[simp] theorem State.startFormat_pending (s : State) : s.startFormat.pending = s.pending := by
  simp [State.startFormat, apply_ite State.pending]
@[simp] theorem State.startResync_pending (s : State) : s.startResync.pending = s.pending := by
  simp [State.startResync, apply_ite State.pending]
@[simp] theorem State.stoCtlWrite_pending (s : State) (v : Pay) : (s.stoCtlWrite v).pending = s.pending := by
  simp [State.stoCtlWrite, apply_ite State.pending]
@[simp] theorem State.xqTailWrite_pending (s : State) (v : Pay) : (s.xqTailWrite v).pending = s.pending := by
  simp [State.xqTailWrite, apply_ite State.pending]
@[simp] theorem State.stoStore_pending (s : State) (o : Nat) (v : Pay) : (s.stoStore o v).pending = s.pending := by
  simp [State.stoStore, apply_ite State.pending]

/-! ### Machine/SecBlk -/

@[simp] theorem State.updSec_pending (s : State) (f : Sec → Sec) : (s.updSec f).pending = s.pending := rfl
@[simp] theorem State.setSecStat_pending (s : State) (b : Nat) (v : Bool) : (s.setSecStat b v).pending = s.pending := rfl
@[simp] theorem State.fuseWrite_pending (s : State) (v : Pay) : (s.fuseWrite v).pending = s.pending := by
  simp [State.fuseWrite, apply_ite State.pending]
@[simp] theorem State.putDigest_pending (s : State) (off : Nat) (d : List (BitVec 8)) : (s.putDigest off d).pending = s.pending :=
  rfl
@[simp] theorem State.extend_pending (s : State) (i : Nat) (d : List (BitVec 8)) : (s.extend i d).pending = s.pending := rfl
@[simp] theorem State.updLdg_pending (s : State) (f : Ldg → Ldg) : (s.updLdg f).pending = s.pending := rfl
@[simp] theorem State.updLive_pending (s : State) (f : Led → Led) : (s.updLive f).pending = s.pending := rfl
@[simp] theorem State.eraseKey_pending (s : State) (i : Nat) : (s.eraseKey i).pending = s.pending := rfl
@[simp] theorem State.keysCurrent_pending (s : State) (l : Nat) : (s.keysCurrent l).pending = s.pending := by
  unfold State.keysCurrent
  exact (State.updSec_pending _ _).trans (State.pending_foldl _ (fun _ _ => by rfl) _ _)
@[simp] theorem State.keysDropped_pending (s : State) (l : Nat) : (s.keysDropped l).pending = s.pending := rfl
@[simp] theorem State.keyCmd_pending (s : State) (v : Pay) : (s.keyCmd v).pending = s.pending := by
  unfold State.keyCmd
  dsimp only
  (repeat' split) <;> simp
@[simp] theorem State.reloadLatch0_pending (s : State) : s.reloadLatch0.pending = s.pending := by
  refine State.pending_foldl _ (fun u k => ?_) _ _
  split <;> rfl
@[simp] theorem State.secStore_pending (s : State) (o : Nat) (v : Pay) : (s.secStore o v).pending = s.pending := by
  simp [State.secStore, apply_ite State.pending]

/-! ### Machine/Ledger -/

@[simp] theorem State.setStream_pending (s : State) (n : Nat) (v : Stream) : (s.setStream n v).pending = s.pending := rfl
@[simp] theorem State.putSlot_pending (s : State) (n : Nat) (v : Slot) : (s.putSlot n v).pending = s.pending := rfl
@[simp] theorem State.ldgSync_pending (s : State) : s.ldgSync.pending = s.pending := rfl
@[simp] theorem State.setLdgStat_pending (s : State) (b : Nat) (v : Bool) : (s.setLdgStat b v).pending = s.pending := rfl
@[simp] theorem State.front_pending (s : State) (n : Nat) : (s.front n).pending = s.pending := rfl
@[simp] theorem State.setQpair_pending (s : State) (k : Nat) (p : QPair) : (s.setQpair k p).pending = s.pending := rfl
@[simp] theorem pumpPair_pending (k fuel : Nat) (s : State) : (pumpPair k fuel s).pending = s.pending := by
  induction fuel generalizing s with
  | zero => rfl
  | succ fuel ih =>
    unfold pumpPair
    dsimp only
    (repeat' split) <;> simp [ih]
@[simp] theorem State.pumpSp_pending (s : State) : s.pumpSp.pending = s.pending := rfl
@[simp] theorem State.sendReply_pending (s : State) (via : Via) (r : Reply) : (s.sendReply via r).pending = s.pending := by
  unfold State.sendReply
  (repeat' split) <;> simp
@[simp] theorem State.setEth_pending (s : State) (p : Nat) (v : EthPort) : (s.setEth p v).pending = s.pending := rfl
@[simp] theorem State.setCan_pending (s : State) (h : Nat) (v : CanCh) : (s.setCan h v).pending = s.pending := rfl
theorem State.handOver_pending (s : State) (n : Nat) (v : Slot) (e : Eff) {p : State × EffSt} (h : s.handOver n v e = some p) :
    p.1.pending = s.pending := by
  unfold State.handOver at h
  (repeat' split at h) <;> try (cases h; rfl)
  obtain ⟨t, ht, rfl⟩ := Option.map_eq_some_iff.mp h
  exact s.storeRelease_pending _ _ _ _ _ ht
@[simp] theorem pumpEffs_pending (n fuel : Nat) (s : State) : (pumpEffs n fuel s).1.pending = s.pending := by
  induction fuel generalizing s with
  | zero => rfl
  | succ fuel ih =>
    unfold pumpEffs
    split
    · rfl
    · next v _ =>
      split
      · rfl
      · next e _ =>
        split
        · rfl
        · next s1 st h1 =>
          have h2 : s1.pending = s.pending := s.handOver_pending n v e h1
          split <;> simp [ih, h2]
@[simp] theorem State.finalReply_pending (s : State) (n : Nat) : (s.finalReply n).pending = s.pending := by
  unfold State.finalReply
  split <;> simp [apply_ite State.pending]
@[simp] theorem State.retire?_pending (s : State) (n : Nat) : (s.retire? n).pending = s.pending := by
  unfold State.retire?
  split <;> simp [apply_ite State.pending]
@[simp] theorem pumpList_pending (l : List (Nat × Slot)) (s : State) : (pumpList l s).pending = s.pending := by
  induction l generalizing s with
  | nil => rfl
  | cons e l ih =>
    unfold pumpList
    dsimp only
    (repeat' split) <;> simp [ih]
@[simp] theorem State.endSlot_pending (s : State) (n status app : Nat) (res : List (BitVec 8)) :
    (s.endSlot n status app res).pending = s.pending := by
  unfold State.endSlot
  split <;> simp [apply_ite State.pending]
@[simp] theorem State.tryClose_pending (s : State) (n : Nat) : (s.tryClose n).pending = s.pending := by
  simp [State.tryClose, apply_ite State.pending]
@[simp] theorem State.pumpStream_pending (s : State) (n : Nat) : (s.pumpStream n).pending = s.pending := by simp [State.pumpStream]
@[simp] theorem State.pump_pending (s : State) : s.pump.pending = s.pending := by simp [State.pump]
@[simp] theorem State.holdStream_pending (s : State) (n : Nat) (img : Bool) : (s.holdStream n img).pending = s.pending := by
  simp [State.holdStream, apply_ite State.pending]
@[simp] theorem State.dispatch_pending (s : State) (n : Nat) : (s.dispatch n).pending = s.pending := by
  unfold State.dispatch
  dsimp only
  (repeat' split) <;> simp
@[simp] theorem State.retryHeld_pending (s : State) : s.retryHeld.pending = s.pending := by simp [State.retryHeld]
@[simp] theorem State.setMail_pending (s : State) (x : Nat) (m : Mail) : (s.setMail x m).pending = s.pending := rfl
@[simp] theorem State.takeNext_pending (s : State) (x : Nat) : (s.takeNext x).2.pending = s.pending := by
  unfold State.takeNext
  (repeat' split) <;> simp
@[simp] theorem State.wakeReg_pending (s : State) (off : Nat) : (s.wakeReg off).pending = s.pending := by
  refine State.pending_foldl _ (fun _ _ => ?_) _ _
  rfl
@[simp] theorem State.ack_pending (s : State) (x : Nat) (commit : Bool) (idx code : Nat) :
    (s.ack x commit idx code).pending = s.pending := by
  simp [State.ack]
@[simp] theorem State.effput_pending (s : State) (x pa : Nat) : (s.effput x pa).pending = s.pending := by
  unfold State.effput
  dsimp only
  (repeat' split) <;> simp
@[simp] theorem State.commitReq_pending (s : State) (x pa : Nat) : (s.commitReq x pa).pending = s.pending := by
  unfold State.commitReq
  dsimp only
  (repeat' split) <;> simp
@[simp] theorem State.clearWait_pending (s : State) (x : Nat) : (s.clearWait x).pending = s.pending := rfl
@[simp] theorem State.restartSlot_pending (s : State) (n : Nat) (replay : Bool) : (s.restartSlot n replay).pending = s.pending := by
  unfold State.restartSlot
  (repeat' split) <;> simp
@[simp] theorem State.restartCmds_pending (s : State) (xs : List Nat) : (s.restartCmds xs).pending = s.pending := by
  simp [State.restartCmds]
theorem State.ldgLoad_pending (s : State) (o : Nat) {p : Pay × State} (h : s.ldgLoad o = some p) : p.2.pending = s.pending := by
  have hack : ∀ x, (if (s.mail x).wait.isSome then none else some ((s.mail x).ack.getD 0, s.setMail x { s.mail x with ack := none }))
      = some p → p.2.pending = s.pending := by
    intro x hx
    split at hx
    · cases hx
    · cases hx
      simp
  unfold State.ldgLoad at h
  dsimp only at h
  split at h
  · split at h
    · cases h
      simp
    · split at h
      · exact hack _ h
      · cases h
        rfl
  · cases h
    rfl
@[simp] theorem State.ldgStore_pending (s : State) (o : Nat) (v : Pay) : (s.ldgStore o v).pending = s.pending := by
  simp [State.ldgStore, apply_ite State.pending]

/-! ### Machine/Twins -/

@[simp] theorem State.passRole_pending (s : State) (t : Nat) : (s.passRole t).pending = s.pending := by
  simp [State.passRole, apply_ite State.pending]
@[simp] theorem State.cmdResult_pending (s : State) (t r : Nat) : (s.cmdResult t r).pending = s.pending := rfl
@[simp] theorem State.startTrans_pending (s : State) (t : Nat) (op : TwinOp) (keepShadow ksync byCmd : Bool) (haltCore : Option Nat) :
    (s.startTrans t op keepShadow ksync byCmd haltCore).pending = s.pending := by
  simp [State.startTrans, apply_ite State.pending]
@[simp] theorem State.twinCommand_pending (s : State) (t : Nat) (op : TwinOp) (keepShadow ksync : Bool) :
    (s.twinCommand t op keepShadow ksync).pending = s.pending := by
  unfold State.twinCommand
  split <;> simp [apply_ite State.pending]
@[simp] theorem State.twinCmd_pending (s : State) (v : Pay) : (s.twinCmd v).pending = s.pending := by
  unfold State.twinCmd
  (repeat' split) <;> simp
@[simp] theorem State.logAck_pending (s : State) (v : Pay) : (s.logAck v).pending = s.pending := rfl
@[simp] theorem State.twinStore_pending (s : State) (o : Nat) (v : Pay) : (s.twinStore o v).pending = s.pending := by
  simp [State.twinStore, apply_ite State.pending]

/-! ### Machine/Modes -/

theorem State.updSys_pending (s : State) (f : Sys → Sys) : (s.updSys f).pending = s.pending := rfl
@[simp] theorem State.deviceReset_pending (s0 : State) (cause : Nat) : (s0.deviceReset cause).pending = s0.pending := by
  simp [State.deviceReset]
@[simp] theorem State.enterQuiet_pending (s : State) : s.enterQuiet.pending = s.pending := rfl
@[simp] theorem State.startWake_pending (s : State) : s.startWake.pending = s.pending := by
  unfold State.startWake
  exact ((State.updSys_pending _ _).trans (State.setRf_pending _ _ _ _ _)).trans (State.pending_foldl _ (fun _ _ => by rfl) _ _)
@[simp] theorem State.checkWake_pending (s : State) : s.checkWake.pending = s.pending := by
  simp [State.checkWake, apply_ite State.pending]
@[simp] theorem State.askRun_pending (s : State) : (s.askRun).1.pending = s.pending := by
  unfold State.askRun
  dsimp only
  (repeat' split) <;> simp
@[simp] theorem State.askSafe_pending (s : State) : (s.askSafe).1.pending = s.pending := by
  unfold State.askSafe
  dsimp only
  (repeat' split) <;> simp
@[simp] theorem State.askService_pending (s : State) : (s.askService).1.pending = s.pending := by
  unfold State.askService
  dsimp only
  (repeat' split) <;> simp
@[simp] theorem State.askQuiet_pending (s : State) : (s.askQuiet).1.pending = s.pending := by
  unfold State.askQuiet
  dsimp only
  (repeat' split) <;> simp
@[simp] theorem State.answerMode_pending (p : State × Nat) : (State.answerMode p).pending = p.1.pending := by
  unfold State.answerMode
  split <;> simp
@[simp] theorem State.modeCmd_pending (s : State) (op : Nat) : (s.modeCmd op).pending = s.pending := by
  unfold State.modeCmd
  (repeat' split) <;> simp
@[simp] theorem State.watchWrite_pending (s : State) (v : Pay) : (s.watchWrite v).pending = s.pending := by
  simp [State.watchWrite, apply_ite State.pending]
@[simp] theorem State.startCtx_pending (s : State) (x : Nat) : (s.startCtx x).pending = s.pending := by
  simp [State.startCtx, apply_ite State.pending]
@[simp] theorem State.timeWrite_pending (s : State) (v : Pay) : (s.timeWrite v).pending = s.pending := by
  simp [State.timeWrite, apply_ite State.pending]
@[simp] theorem State.pointWrite_pending (s : State) (n : Nat) (v : Pay) : (s.pointWrite n v).pending = s.pending := by
  unfold State.pointWrite
  split <;> simp
@[simp] theorem State.sysStatWrite_pending (s : State) (v : Pay) : (s.sysStatWrite v).pending = s.pending := by
  simp [State.sysStatWrite]
@[simp] theorem State.sysStore_pending (s : State) (src o : Nat) (v : Pay) : (s.sysStore src o v).pending = s.pending := by
  simp [State.sysStore, apply_ite State.pending]
@[simp] theorem State.refclk_pending (s : State) : s.refclk.pending = s.pending := rfl
@[simp] theorem State.refTick_pending (s : State) : s.refTick.pending = s.pending := by
  simp [State.refTick, apply_ite State.pending]

/-! ### Machine/Panel -/

@[simp] theorem State.updPnl_pending (s : State) (f : Pnl → Pnl) : (s.updPnl f).pending = s.pending := rfl
@[simp] theorem State.setPnlBit_pending (s : State) (b : Nat) (v : Bool) : (s.setPnlBit b v).pending = s.pending := rfl
@[simp] theorem State.pnlSync_pending (s : State) : s.pnlSync.pending = s.pending := rfl
@[simp] theorem State.pnlRecord_pending (s : State) (w0 w2 w3 : Pay) (recs : List Pay) (deltas : Option (List Pay)) (e50 : Bool) :
    (s.pnlRecord w0 w2 w3 recs deltas e50).pending = s.pending := by
  have hrecs : ∀ u : State, ((List.range 10).foldl (fun s i => s.setReg (oPnl + 0x300 + 8 * i) (recs.getD i 0)) u).pending = u.pending :=
    fun u => State.pending_foldl _ (fun _ _ => by rfl) _ _
  unfold State.pnlRecord
  dsimp only
  split
  · split <;> simp only [State.pnlSync_pending, State.assertSource_pending, State.count_pending, hrecs, State.setRf_eq, State.setReg_pending]
  · split <;> simp only [State.pnlSync_pending, State.updPnl_pending, State.engWords_pending, hrecs, State.setRf_eq, State.setReg_pending]
@[simp] theorem State.pnlLearn_pending (s : State) : s.pnlLearn.pending = s.pending := rfl
@[simp] theorem State.pnlStart_pending (s : State) : s.pnlStart.pending = s.pending := by
  simp [State.pnlStart, apply_ite State.pending]
@[simp] theorem State.pnlStop_pending (s : State) (e50 : Bool) : (s.pnlStop e50).pending = s.pending := by
  simp [State.pnlStop, apply_ite State.pending]
@[simp] theorem State.pnlCtl_pending (s : State) (v : Pay) : (s.pnlCtl v).pending = s.pending := by
  simp [State.pnlCtl, apply_ite State.pending]
@[simp] theorem State.pnlStore_pending (s : State) (o : Nat) (v : Pay) : (s.pnlStore o v).pending = s.pending := by
  simp [State.pnlStore, apply_ite State.pending]

/-! ### Machine/Reserve -/

@[simp] theorem State.setPwrStat_pending (s : State) (b : Nat) (v : Bool) : (s.setPwrStat b v).pending = s.pending := rfl
@[simp] theorem State.certSync_pending (s : State) : s.certSync.pending = s.pending := by
  simp [State.certSync, apply_ite State.pending]
@[simp] theorem State.testStarts_pending (s : State) : s.testStarts.pending = s.pending := by
  simp [State.testStarts, apply_ite State.pending]
@[simp] theorem State.pwrStore_pending (s : State) (src o : Nat) (v : Pay) : (s.pwrStore src o v).pending = s.pending := by
  simp [State.pwrStore, apply_ite State.pending]

/-! ### Machine/Bgs -/

@[simp] theorem State.updBgs_pending (s : State) (f : Bgs → Bgs) : (s.updBgs f).pending = s.pending := rfl
@[simp] theorem State.bgsStore_pending (s : State) (src o : Nat) (v : Pay) : (s.bgsStore src o v).pending = s.pending := by
  simp [State.bgsStore, apply_ite State.pending]

/-! ### Machine/GcBlk -/

@[simp] theorem State.gcWrite_pending (s : State) (pa : Nat) (w : Word) : (s.gcWrite pa w).pending = s.pending := by
  simp [State.gcWrite, apply_ite State.pending]
@[simp] theorem State.setRt0_pending (s : State) (i : Nat) (w : Pay) : (s.setRt0 i w).pending = s.pending := by simp [State.setRt0]
@[simp] theorem State.setRt1_pending (s : State) (i : Nat) (w : Pay) : (s.setRt1 i w).pending = s.pending := by simp [State.setRt1]
@[simp] theorem State.setHeapSt_pending (s : State) (h : Nat) (v : HeapSt) : (s.setHeapSt h v).pending = s.pending := rfl
@[simp] theorem State.setHeapStat_pending (s : State) (h b : Nat) (v : Bool) : (s.setHeapStat h b v).pending = s.pending := rfl
@[simp] theorem State.gcEvent_pending (s : State) (h : Nat) : (s.gcEvent h).pending = s.pending := by simp [State.gcEvent]
@[simp] theorem State.raiseHeap_pending (s : State) (h b : Nat) : (s.raiseHeap h b).pending = s.pending := by
  simp [State.raiseHeap, apply_ite State.pending]
@[simp] theorem State.syncHeap_pending (s : State) (h : Nat) : (s.syncHeap h).pending = s.pending := by
  simp [State.syncHeap, apply_ite State.pending]
@[simp] theorem State.clearRange_pending (s : State) (pa len : Nat) : (s.clearRange pa len).pending = s.pending := by
  simp [State.clearRange]
@[simp] theorem State.leaveTo_pending (s : State) (n g : Nat) : (s.leaveTo n g).pending = s.pending := by
  unfold State.leaveTo
  (repeat' split) <;> simp
@[simp] theorem State.leaveRegion_pending (s : State) (i : Nat) : (s.leaveRegion i).pending = s.pending := by
  simp [State.leaveRegion]
@[simp] theorem State.landStores_pending (s : State) : s.landStores.pending = s.pending := by simp [State.landStores]
@[simp] theorem State.setRegion_pending (s0 : State) (h i : Nat) (w : Pay) : (s0.setRegion h i w).pending = s0.pending := by
  simp [State.setRegion, apply_ite State.pending]
@[simp] theorem State.setSatb_pending (s : State) (h : Nat) (v : Bool) : (s.setSatb h v).pending = s.pending := by
  refine State.pending_foldl _ (fun _ _ => ?_) _ _
  rfl
@[simp] theorem State.setPhase_pending (s : State) (h p : Nat) : (s.setPhase h p).pending = s.pending := rfl
@[simp] theorem State.cycleEnds_pending (s : State) (h : Nat) : (s.cycleEnds h).pending = s.pending := by simp [State.cycleEnds]
@[simp] theorem State.checkEvac_pending (s : State) (h : Nat) : (s.checkEvac h).pending = s.pending := by
  simp [State.checkEvac, apply_ite State.pending]
@[simp] theorem State.startEvac_pending (s : State) (h : Nat) : (s.startEvac h).pending = s.pending := by simp [State.startEvac]
@[simp] theorem State.startMark_pending (s : State) (h : Nat) : (s.startMark h).pending = s.pending := rfl
@[simp] theorem State.enableHeap_pending (s : State) (h : Nat) : (s.enableHeap h).pending = s.pending := by
  unfold State.enableHeap
  extract_lets s1 base s2 s3
  have h1 : s1.pending = s.pending := State.pending_foldl _ (fun _ _ => by rfl) _ _
  have h3 : s3.pending = s2.pending := State.pending_foldl _ (fun _ _ => by simp) _ _
  simp [h3, s2, h1]
@[simp] theorem State.writePhase_pending (s : State) (h p : Nat) : (s.writePhase h p).pending = s.pending := by
  simp [State.writePhase, apply_ite State.pending]
@[simp] theorem State.heapCfgWrite_pending (s : State) (h r : Nat) (v : Pay) : (s.heapCfgWrite h r v).pending = s.pending := by
  simp [State.heapCfgWrite, apply_ite State.pending]
@[simp] theorem State.rset_pending (s : State) (v : Pay) : (s.rset v).pending = s.pending := by
  unfold State.rset
  dsimp only
  (repeat' split) <;> simp
theorem State.takeRegion_pending (s : State) (h gen : Nat) {p : Nat × State} (hp : s.takeRegion h gen = some p) :
    p.2.pending = s.pending := by
  unfold State.takeRegion at hp
  split at hp
  · cases hp
  · cases hp
    dsimp only
    split <;> simp
@[simp] theorem State.allocLoad_pending (s : State) (h : Nat) : (s.allocLoad h).2.pending = s.pending := by
  unfold State.allocLoad
  split
  · next i s1 hs =>
    split at hs
    · exact s.takeRegion_pending h 0 hs
    · cases hs
  · simp
@[simp] theorem State.setSeStat_pending (s : State) (n b : Nat) (v : Bool) : (s.setSeStat n b v).pending = s.pending :=
  State.setReg_pending s _ _
@[simp] theorem State.spCheck_pending (s : State) (n : Nat) : (s.spCheck n).pending = s.pending := by
  unfold State.spCheck
  (repeat' split) <;> simp
@[simp] theorem State.spillMark_pending (s : State) (n : Nat) (w : Word) : (s.spillMark n w).pending = s.pending := by
  simp [State.spillMark, apply_ite State.pending]
@[simp] theorem State.pushMark_pending (s : State) (n : Nat) (ws : List Word) : (s.pushMark n ws).pending = s.pending := by
  simp [State.pushMark]
@[simp] theorem State.seUnsound_pending (s : State) (n h pa : Nat) : (s.seUnsound n h pa).pending = s.pending := by
  simp [State.seUnsound]
@[simp] theorem State.seLost_pending (s : State) (n phase pa : Nat) : (s.seLost n phase pa).pending = s.pending := by
  unfold State.seLost
  split <;> simp
@[simp] theorem absorbN_pending (n fuel : Nat) (s : State) : (absorbN n fuel s).pending = s.pending := by
  induction fuel generalizing s with
  | zero => rfl
  | succ fuel ih =>
    unfold absorbN
    (repeat' split) <;> simp [ih]
@[simp] theorem State.absorbAll_pending (s : State) : s.absorbAll.pending = s.pending := by simp [State.absorbAll]
@[simp] theorem State.evacSelected_pending (s0 : State) (h : Nat) : (s0.evacSelected h).pending = s0.pending := by
  simp [State.evacSelected]
@[simp] theorem State.autoAdvance_pending (s : State) (h : Nat) : (s.autoAdvance h).pending = s.pending := by
  simp [State.autoAdvance, apply_ite State.pending]
@[simp] theorem State.heapCtlWrite_pending (s : State) (h : Nat) (v : Pay) : (s.heapCtlWrite h v).pending = s.pending := by
  simp [State.heapCtlWrite, apply_ite State.pending]
@[simp] theorem State.gcLoad_pending (s : State) (o : Nat) : (s.gcLoad o).2.pending = s.pending := by
  unfold State.gcLoad
  split <;> simp
@[simp] theorem State.gcStore_pending (s : State) (o : Nat) (v : Pay) : (s.gcStore o v).pending = s.pending := by
  simp [State.gcStore, apply_ite State.pending]
@[simp] theorem State.evreq_pending (s : State) (n x obj : Nat) : (s.evreq n x obj).pending = s.pending := by
  unfold State.evreq
  dsimp only
  (repeat' split) <;> simp
@[simp] theorem State.splimWrite_pending (s : State) (n : Nat) (v : Pay) : (s.splimWrite n v).pending = s.pending := by
  simp [State.splimWrite, apply_ite State.pending]
@[simp] theorem State.seStore_pending (s : State) (n x o : Nat) (v : Pay) : (s.seStore n x o v).pending = s.pending := by
  simp [State.seStore, apply_ite State.pending]

/-! ### Machine/L2Blk -/

@[simp] theorem State.wakeHold_pending (s : State) : s.wakeHold.pending = s.pending := by
  refine State.pending_foldl _ (fun _ _ => ?_) _ _
  rfl
@[simp] theorem State.setL2Stat_pending (s : State) (n b : Nat) (v : Bool) : (s.setL2Stat n b v).pending = s.pending :=
  State.setReg_pending s _ _
@[simp] theorem State.l2CtlWrite_pending (s : State) (n : Nat) (v : Pay) : (s.l2CtlWrite n v).pending = s.pending := by
  simp [State.l2CtlWrite, apply_ite State.pending]
@[simp] theorem State.l2LockWrite_pending (s : State) (n : Nat) (v : Pay) : (s.l2LockWrite n v).pending = s.pending := by
  simp [State.l2LockWrite]
@[simp] theorem State.lockCtlWrite_pending (s : State) (n : Nat) (v : Pay) : (s.lockCtlWrite n v).pending = s.pending := by
  simp [State.lockCtlWrite, apply_ite State.pending]
@[simp] theorem State.l2Store_pending (s : State) (n o : Nat) (v : Pay) : (s.l2Store n o v).pending = s.pending := by
  simp [State.l2Store, apply_ite State.pending]

/-! ### Machine/Plant -/

@[simp] theorem State.ioWrite_pending (s : State) (pa : Nat) (bs : List (BitVec 8)) : (s.ioWrite pa bs).pending = s.pending := by
  simp [State.ioWrite, apply_ite State.pending]
@[simp] theorem State.txDone_pending (s : State) (p : Nat) (err ue : Bool) : (s.txDone p err ue).pending = s.pending := by
  simp [State.txDone, apply_ite State.pending]
@[simp] theorem txSkip_pending (p fuel : Nat) (s : State) : (txSkip p fuel s).pending = s.pending := by
  induction fuel generalizing s with
  | zero => rfl
  | succ fuel ih =>
    unfold txSkip
    split <;> simp [ih]
@[simp] theorem State.txTail_pending (s : State) (p : Nat) (v : Pay) : (s.txTail p v).pending = s.pending := by
  simp [State.txTail, apply_ite State.pending]
@[simp] theorem State.switchGates_pending (s : State) (p : Nat) : (s.switchGates p).pending = s.pending := by
  unfold State.switchGates
  split <;> simp [apply_ite State.pending]
@[simp] theorem State.gbaseWrite_pending (s : State) (src p : Nat) (v : Pay) : (s.gbaseWrite src p v).pending = s.pending := by
  simp [State.gbaseWrite, apply_ite State.pending]
@[simp] theorem State.ethRing_pending (s : State) (p r idx : Nat) (v : Pay) : (s.ethRing p r idx v).pending = s.pending := by
  simp [State.ethRing, apply_ite State.pending]
@[simp] theorem State.ethStore_pending (s : State) (src o : Nat) (v : Pay) : (s.ethStore src o v).pending = s.pending := by
  simp [State.ethStore, apply_ite State.pending]
@[simp] theorem canDrain_pending (h fuel : Nat) (s : State) : (canDrain h fuel s).pending = s.pending := by
  induction fuel generalizing s with
  | zero => rfl
  | succ fuel ih =>
    unfold canDrain
    dsimp only
    split
    · rfl
    · split
      · rfl
      · simp [ih, apply_ite State.pending]
@[simp] theorem State.canStore_pending (s : State) (o : Nat) (v : Pay) : (s.canStore o v).pending = s.pending := by
  simp [State.canStore, apply_ite State.pending]
@[simp] theorem State.updSio_pending (s : State) (f : Sio → Sio) : (s.updSio f).pending = s.pending := rfl
@[simp] theorem State.setUart_pending (s : State) (u : Nat) (v : Uart) : (s.setUart u v).pending = s.pending := rfl
@[simp] theorem State.uartNext_pending (s : State) (u : Nat) : (s.uartNext u).pending = s.pending := by
  unfold State.uartNext
  dsimp only
  (repeat' split) <;> simp
@[simp] theorem State.uartWrite_pending (s : State) (u : Nat) (b : BitVec 8) : (s.uartWrite u b).pending = s.pending := by
  simp [State.uartWrite, apply_ite State.pending]
@[simp] theorem State.uartRead_pending (s : State) (u : Nat) : (s.uartRead u).2.pending = s.pending := by
  unfold State.uartRead
  dsimp only
  (repeat' split) <;> simp
@[simp] theorem State.i2cCmd_pending (s : State) (i : Nat) (v : Pay) : (s.i2cCmd i v).pending = s.pending := by
  simp [State.i2cCmd, apply_ite State.pending]
@[simp] theorem State.qspiCmd_pending (s : State) (v : Pay) : (s.qspiCmd v).pending = s.pending := by
  simp [State.qspiCmd, apply_ite State.pending]
@[simp] theorem State.sioStore_pending (s : State) (o : Nat) (v : Pay) : (s.sioStore o v).pending = s.pending := by
  simp [State.sioStore, apply_ite State.pending]
@[simp] theorem State.sioLoad_pending (s : State) (o : Nat) : (s.sioLoad o).2.pending = s.pending := by
  unfold State.sioLoad
  (repeat' split) <;> simp
@[simp] theorem State.setPls_pending (s : State) (n : Nat) (c : PlsCh) : (s.setPls n c).pending = s.pending := rfl
@[simp] theorem State.plsEvent_pending (s : State) (n : Nat) : (s.plsEvent n).pending = s.pending := by
  simp [State.plsEvent, apply_ite State.pending]
@[simp] theorem State.plsCntWrite_pending (s : State) (n : Nat) (v : Pay) : (s.plsCntWrite n v).pending = s.pending := by
  simp [State.plsCntWrite, apply_ite State.pending]
@[simp] theorem State.plsCtlWrite_pending (s : State) (n : Nat) (v : Pay) : (s.plsCtlWrite n v).pending = s.pending := by
  simp [State.plsCtlWrite, apply_ite State.pending]
@[simp] theorem State.plsStore_pending (s : State) (o : Nat) (v : Pay) : (s.plsStore o v).pending = s.pending := by
  simp [State.plsStore, apply_ite State.pending]

/-! ### Machine/Dev -/

theorem State.blockLoad_pending (s : State) (src x off : Nat) {v : Pay} {t : State} (h : s.blockLoad src x off = .val v t) :
    t.pending = s.pending := by
  have hopt : ∀ o : Option Pay, RdRes.ofOpt s o = .val v t → t.pending = s.pending := by
    intro o ho
    cases o <;> cases ho
    rfl
  have hval : ∀ (w : Pay) (u : State), u.pending = s.pending → RdRes.val w u = .val v t → t.pending = s.pending := by
    intro w u hu he
    cases he
    exact hu
  unfold State.blockLoad at h
  dsimp only at h
  split at h
  · exact hval _ _ rfl h
  · split at h
    · split at h
      · exact hopt _ h
      · split at h
        · exact hopt _ h
        · exact hval _ _ rfl h
    · split at h
      case h_3 =>
        split at h
        · next r hr => exact hval _ _ (s.ldgLoad_pending _ hr) h
        · cases h
      all_goals exact hval _ _ (by simp) h
@[simp] theorem State.blockStore_pending (s : State) (src x off : Nat) (v : Pay) :
    (s.blockStore src x off v).pending = s.pending := by
  unfold State.blockStore
  dsimp only
  (repeat' split) <;> simp
theorem State.devLoad_pending (s : State) (src x off : Nat) {v : Pay} {t : State} (h : s.devLoad src x off = .val v t) :
    t.pending = s.pending := by
  unfold State.devLoad at h
  split at h
  · cases h
    simp
  · exact s.blockLoad_pending src x off h
@[simp] theorem State.devStore_pending (s : State) (src x off : Nat) (v : Pay) : (s.devStore src x off v).pending = s.pending := by
  unfold State.devStore
  split <;> simp [apply_ite State.pending]
@[simp] theorem State.perform_pending (s : State) (o : Out) : (s.perform o).pending = s.pending := by
  unfold State.perform
  (repeat' split) <;> simp
@[simp] theorem settleN_pending (fuel : Nat) (s : State) : (settleN fuel s).pending = s.pending := by
  induction fuel generalizing s with
  | zero => rfl
  | succ fuel ih =>
    unfold settleN
    split <;> simp [ih]
@[simp] theorem State.restartDue_pending (s : State) : s.restartDue.pending = s.pending := by
  simp [State.restartDue, apply_ite State.pending]
@[simp] theorem State.settle_pending (s : State) : s.settle.pending = s.pending := by simp [State.settle]

/-! ### Machine/Control -/

@[simp] theorem State.waittDeadline_pending (s : State) (x : Nat) : (s.waittDeadline x).pending = s.pending := by
  unfold State.waittDeadline
  dsimp only
  (repeat' split) <;> simp

/-! ### Machine/Fabric -/

@[simp] theorem State.wakeTxn_pending (s : State) (id : Nat) (g : Option Grant) : (s.wakeTxn id g).pending = s.pending := by
  refine State.pending_foldl _ (fun _ _ => ?_) _ _
  rfl
@[simp] theorem State.respSide_pending (s : State) (t : Txn) (r : Resp) : (s.respSide t r).pending = s.pending := by
  unfold State.respSide
  dsimp only
  (repeat' split) <;> simp
@[simp] theorem State.loadAnswer_pending (s : State) (t : Txn) : (s.loadAnswer t).2.pending = s.pending := by
  unfold State.loadAnswer
  split
  · next off _ =>
    split
    · next v s1 h => exact s.devLoad_pending t.src t.x off h
    · rfl
  · rfl
  · dsimp only
    split <;> simp
@[simp] theorem State.storeAck_pending (s : State) (o : Out) (r : Resp) (arrived : Bool) :
    (s.storeAck o r arrived).pending = s.pending := by
  unfold State.storeAck
  (repeat' split) <;> simp
@[simp] theorem State.arriveBefore_pending (s : State) (src tgt id : Nat) : (s.arriveBefore src tgt id).pending = s.pending := by
  simp [State.arriveBefore]
@[simp] theorem State.sendHeld_pending (h tgt fuel : Nat) (s : State) : (State.sendHeld h tgt fuel s).pending = s.pending := by
  induction fuel generalizing s with
  | zero => rfl
  | succ fuel ih =>
    unfold State.sendHeld
    split <;> simp [ih]
@[simp] theorem State.complete_pending (s : State) (t : Txn) (r : Resp) : (s.complete t r).pending = s.pending := by
  have hgot : ∀ (u : State) (a : Option Out) (q : Bool), ((a.map (fun o => u.storeAck o r q)).getD u).pending = u.pending := by
    intro u a q
    cases a <;> simp
  unfold State.complete
  simp only [State.wakeHold_pending, State.sendHeld_pending]
  (repeat' split) <;> simp [hgot]
@[simp] theorem State.expire_pending (s : State) (t : Txn) : (s.expire t).pending = s.pending := by simp [State.expire]
@[simp] theorem State.expireDue_pending (fuel : Nat) (s : State) : (State.expireDue fuel s).pending = s.pending := by
  induction fuel generalizing s with
  | zero => rfl
  | succ fuel ih =>
    unfold State.expireDue
    split <;> simp [ih]

/-! ### A step (assumption 10) -/

theorem State.tick_pending (s : State) : s.tick.pending = s.pending := by
  have hwaits : ∀ (l : List (Nat × Ctx)) (u : State), (l.foldl (fun s e => s.waittDeadline e.1) u).pending = u.pending :=
    State.pending_foldl _ (fun _ _ => State.waittDeadline_pending _ _)
  unfold State.tick
  split
  · exact s.refTick_pending
  · exact (State.settle_pending _).trans ((State.expireDue_pending _ _).trans ((hwaits _ _).trans s.refTick_pending))

/-- Settles O2: a command ends in `fin`, which puts the queue back, and no operation of a clock cycle touches the queue. -/
theorem queueAndCompletion : Obligations.QueueAndCompletion := by
  unfold Obligations.QueueAndCompletion
  have hexec : ∀ (c : Instr) (s : State), ∃ t, exec c s = .next t ∧ t.pending = s.pending := by
    intro c s
    obtain ⟨u, hu⟩ := exec_eq_fin c s
    exact ⟨_, hu, rfl⟩
  refine ⟨hexec, fun s t ht => ?_⟩
  unfold step at ht
  split at ht
  · next he =>
    cases ht
    rw [s.tick_pending, he]
    rfl
  · next c cs he =>
    obtain ⟨u, hu, hp⟩ := hexec c { s with pending := cs }
    rw [hu] at ht
    cases ht
    rw [hp, he]
    rfl

end Sys2Proof.Machine
end

section
/-!
PROOFS. The step of a waiting command, the register file, and the machine right after a power-on reset (R98, R656, R659).
-/
namespace Sys2Proof.Machine

/-- Settles O1: this is how a step takes a command off the queue. -/
theorem stepRunsFront : Obligations.StepRunsFront := by
  unfold Obligations.StepRunsFront
  intro c cs s h
  simp only [step, h]

/-- In one bank, two fields name one register only when they are equal. -/
theorem regKey_inj {b : Nat} {r q : BitVec 5} (h : regKey b r = regKey b q) : r = q := by
  unfold regKey at h
  apply BitVec.eq_of_toNat_eq
  split at h <;> split at h <;> omega

theorem Ctx.bank_wr (c : Ctx) (r : BitVec 5) (w : Word) : (c.wr r w).bank = c.bank :=
  Ctx.bank_congr (Ctx.sp_congr (c.sr_wr r w) Sr.winb)

theorem Ctx.wr_zero (c : Ctx) (w : Word) : c.wr 0 w = c := by
  have h : regKey c.bank 0 = 0 := rfl
  rw [Ctx.wr, h, Ctx.wrKey, if_pos rfl]

/-- Settles O3: a register is a key of the current bank; G0 is key 0, which holds nothing. -/
theorem registerFile : Obligations.RegisterFile := by
  unfold Obligations.RegisterFile
  intro c r q w
  refine ⟨rfl, c.wr_zero w, fun hr => ?_, fun hq => ?_⟩
  · exact Ctx.rd_of_written hr rfl (Ctx.sp_congr (c.sr_wr r w) Sr.winb)
  · have hk : regKey c.bank q ≠ regKey c.bank r := fun h => hq (regKey_inj h)
    rw [Ctx.rd, Ctx.bank_wr, Ctx.rdKey_wr_ne c w hk]
    rfl

/-! ### Reset (R656, R659) -/

theorem State.ctx_reset (x : Nat) : State.reset.ctx x = if x = 0 then Ctx.boot else Ctx.reset := by
  cases x <;> rfl

/-- Boot leaves only the cause of reset and the cluster clocks off their reset values. -/
theorem State.reg_reset {off : Nat} (h38 : off ≠ 0x38) (hclk : off < 0x100 ∨ 0x138 < off) : State.reset.reg off = regReset off := by
  have hlook : Tbl.look (bootRegs 1 0) off = none := by
    simp only [bootRegs, Tbl.look_cons, Tbl.look_nil]
    (repeat' rw [if_neg (by omega)])
  rw [State.reg, Tbl.get, show State.reset.dev = bootRegs 1 0 from rfl, hlook]
  rfl

/-- Settles O27: the reset machine lists context 0 and the registers that Boot sets, and nothing else. -/
theorem resetState : Obligations.ResetState := by
  unfold Obligations.ResetState
  have hmode : State.reset.mode = mBoot := by
    rw [State.mode, State.rf, State.reg_reset (by decide) (by decide)]
    decide
  refine ⟨hmode, by decide, by decide, fun _ => rfl, rfl, rfl, by decide, by decide, by decide, by decide, fun x hx => ?_, fun x r => ?_,
    rfl, rfl, fun h => ?_, fun off => State.reg_reset⟩
  · rw [State.ctx_reset, if_neg hx]
    rfl
  · rw [State.ctx_reset, Ctx.rd, Ctx.rdKey]
    split <;> split <;> rfl
  · exact absurd (hmode.symm.trans h.1) (by decide)

end Sys2Proof.Machine
end

section
/-!
PROOFS. Register and immediate instructions on operands they accept (R101 to R105, R139 to R151).
-/
namespace Sys2Proof.Machine

/-! ### What each operation answers on the operands it accepts -/

section
variable {a b w : Word} {r : Run}

theorem X.rem_ok (h : numTwo fixRem floRem a b = some w) : X.rem 4 a b r = .ok w r := by
  unfold numTwo at h
  split at h
  · cases h
  · next hn =>
    simp only [Bool.not_eq_true', Bool.not_eq_false, Bool.and_eq_true] at hn
    unfold X.rem
    rw [X.bind_ok (check2_ok _ _ _ _ _ r hn.1 hn.2)]
    split at h
    · next hf =>
      rw [if_pos hf]
      unfold fixRem at h
      split at h
      · cases h
      · next hz =>
        have hb : ¬ b.pay = 0 := fun hb => hz (by rw [hb]; rfl)
        rw [if_neg hb]
        simp only [Option.bind_some] at h
        split at h
        · cases h
          rfl
        · cases h
    · next hf =>
      rw [if_neg hf]
      cases h
      rfl

/-- A comparison's answer follows from the exact comparison. -/
theorem X.compared_ok {op : Nat} {f : Cmp → Word} (h : cmpTwo f a b = some w) :
    (do return f (← X.compare op a b) : X Word) r = .ok w r := by
  unfold cmpTwo at h
  split at h
  · next hn =>
    cases h
    rw [X.bind_ok (compare_ok (by simpa using hn))]
    rfl
  · cases h

theorem X.eqw_ok (h : (if isClass10 a.tag || isClass10 b.tag then none else some (Word.ofBool (decide (a = b)))) = some w) :
    X.eqw 11 a b r = .ok w r := by
  split at h
  · cases h
  · next hc =>
    cases h
    simp only [Bool.or_eq_true, not_or, Bool.not_eq_true] at hc
    unfold X.eqw
    rw [X.bind_ok (check2_ok _ _ _ _ _ r (by simp [hc.1]) (by simp [hc.2]))]
    rfl

theorem X.bits2_ok {op : Nat} {f : Pay → Pay → Pay} (h : logicTwo f a b = some w) : X.bits2 op f a b r = .ok w r := by
  unfold logicTwo at h
  split at h
  · next hn =>
    rw [Bool.and_eq_true] at hn
    cases h
    unfold X.bits2
    rw [X.bind_ok (check2_ok _ _ _ _ _ r hn.1 hn.2)]
    rfl
  · cases h

theorem X.bits1_ok {op : Nat} {f : Pay → Pay} (h : (if isRawFix a.tag then some (⟨a.tag, f a.pay⟩ : Word) else none) = some w) :
    X.bits1 op f a r = .ok w r := by
  split at h
  · next hn =>
    cases h
    unfold X.bits1
    rw [X.bind_ok (check1_ok _ _ _ r hn)]
    rfl
  · cases h

theorem X.count_ok {op : Nat} {f : Pay → Nat} (h : countOne f a = some w) : X.count op f a r = .ok w r := by
  unfold countOne at h
  split at h
  · next hn =>
    cases h
    unfold X.count
    rw [X.bind_ok (check1_ok _ _ _ r hn)]
    rfl
  · cases h

theorem X.ttst_ok (h : (if b.tag = Tag.fix ∧ b.pay.toNat ≤ 0xFFFF then some (tagTest a b.pay) else none) = some w) :
    X.ttst a b r = .ok w r := by
  split at h
  · next hb =>
    cases h
    unfold X.ttst
    rw [X.bind_ok (check2_ok _ _ _ _ _ r rfl (by simp [hb.1])), if_neg (by omega)]
    rfl
  · cases h

theorem X.retag_ok {t : BitVec 8} (h : newTag (r.s.ctx r.x).ring a t = some w) : X.retag a t r = .ok w r := by
  unfold newTag at h
  split at h
  · cases h
  · next hn =>
    cases h
    simp only [not_or] at hn
    unfold X.retag
    rw [X.bind_ok (X.ring_run r), if_neg hn.1, if_neg hn.2.1, if_neg hn.2.2]
    rfl

theorem X.fixResult_ok {op : Nat} {t : Option (BitVec 8)} {v : Int}
    (h : (if inFix v then some (Word.fix (fixPay v)) else none) = some w) : X.fixResult op a t v r = .ok w r := by
  unfold X.fixResult
  split at h
  · next hv =>
    cases h
    rw [if_pos hv]
    rfl
  · cases h

/-- NEG and ABS: the FIX result in range, else the FLO operand by its sign bit. -/
theorem X.one_number {op : Nat} {fi : Int → Int} {ff : Pay → Pay} (h : numOne fi ff a = some w) :
    (do X.check1 op a isNum
        if a.tag = Tag.fix then X.fixResult op a none (fi (fixVal a.pay))
        else pure (Word.flo (if floVal a.pay = .nan then floNaN else ff a.pay)) : X Word) r = .ok w r := by
  unfold numOne at h
  split at h
  · cases h
  · next hn =>
    simp only [Bool.not_eq_true', Bool.not_eq_false] at hn
    rw [X.bind_ok (check1_ok _ _ _ r hn)]
    split at h
    · next hf =>
      rw [if_pos hf]
      exact X.fixResult_ok h
    · next hf =>
      cases h
      rw [if_neg hf]
      rfl

theorem X.abs_ok (h : numOne (fun a => (a.natAbs : Int)) (fun p => p &&& 0x7FFFFFFFFFFFFFFF#64) a = some w) :
    X.abs 6 a r = .ok w r := by
  have habs : (if fixVal a.pay < 0 then -(fixVal a.pay) else fixVal a.pay) = ((fixVal a.pay).natAbs : Int) := by
    split <;> omega
  unfold X.abs
  rw [habs]
  exact X.one_number (fi := fun a => (a.natAbs : Int)) h

theorem X.mov_ok (h : (if isReservedTag a.tag then none else some a) = some w) :
    (do X.writable a; return a : X Word) r = .ok w r := by
  split at h
  · cases h
  · next ht =>
    cases h
    rw [X.bind_run, X.writable, if_neg ht]
    rfl

theorem X.cvtf_ok (h : (if a.tag = Tag.fix then some (Word.flo (floOfFix a.pay)) else if a.tag = Tag.flo then some a else none) = some w) :
    X.cvtf 14 a r = .ok w r := by
  have hn : isNum a.tag = true := by
    unfold isNum
    split at h
    · next hf => simp [hf]
    · split at h
      · next hf => simp [hf]
      · cases h
  unfold X.cvtf
  rw [X.bind_ok (check1_ok _ _ _ r hn)]
  split at h
  · next hf =>
    cases h
    rw [if_pos hf]
    rfl
  · next hf =>
    rw [if_neg hf]
    split at h
    · cases h
      rfl
    · cases h

theorem X.cvti_ok (h : (if a.tag = Tag.fix then some a
    else if a.tag = Tag.flo then
      (match floVal a.pay with
      | .fin n m => if inFix (truncFlo n m) then some (Word.fix (fixPay (truncFlo n m))) else none
      | _ => none)
    else none) = some w) : X.cvti 15 a r = .ok w r := by
  unfold X.cvti
  split at h
  · next hf =>
    cases h
    rw [X.bind_ok (check1_ok _ _ _ r (by simp [isNum, hf])), if_pos hf]
    rfl
  · next hf =>
    split at h
    · next hl =>
      rw [X.bind_ok (check1_ok _ _ _ r (by simp [isNum, hl])), if_neg hf]
      cases hv : floVal a.pay with
      | fin n m =>
        rw [hv] at h
        dsimp only at h ⊢
        split at h
        · next hi =>
          cases h
          rw [if_pos hi]
          rfl
        · cases h
      | _ => simp [hv] at h
    · cases h

/-- FTOR and RTOF: a word of one tag comes back under another. -/
theorem X.recode_ok {op : Nat} {t : BitVec 8} {u : Word} (h : (if a.tag = t then some u else none) = some w) :
    (do X.check1 op a (fun x => decide (x = t)); return u : X Word) r = .ok w r := by
  split at h
  · next ht =>
    cases h
    rw [X.bind_ok (check1_ok _ _ _ r (by simp [ht]))]
    rfl
  · cases h

end

/-! ### Registers (R139 to R151) -/

/-- Format R with one source. -/
theorem rowR_one {s : State} {at_ : At} {f : RF} {maj min : Nat} {m : Meta} {g : Word → X Word} {w : Word}
    (hm : rMeta maj min = some m) (h : s.ready at_ 4 = true) (hrsv : m.rsvR f = true) (hmax : m.ringMax = 3)
    (hg : g (s.gr (ctxOf at_) f.a) (startRun s at_) = .ok w (startRun s at_)) :
    ∃ t, fin s (s.rowR at_ f maj min false (fun _ => X.one f.d f.a g)) = .next t ∧ WroteReg s (ctxOf at_) 4 f.d w t :=
  rowR_wrote hm hrsv hmax h (X.one_run _ hg)

theorem rsvR_three {f : RF} (maj min : Nat) (h : f.rsv = 0) : (metaR maj min).rsvR f = true := by
  simp [Meta.rsvR, metaR, h]

theorem rsvR_two {f : RF} (maj min : Nat) (h : f.rsv = 0) (hb : f.b = 0) : (metaR maj min).da.rsvR f = true := by
  simp [Meta.rsvR, metaR, Meta.da, h, hb]

theorem threeReg_writes {i : Instr} {s : State} {at_ : At} {f : RF} {g : Word → Word → Option Word} {w : Word}
    (hi : threeReg (s.ctx (ctxOf at_)).ring i = some (at_, f, g)) (h : s.ready at_ 4 = true) (hrsv : f.rsv = 0)
    (hg : g (s.gr (ctxOf at_) f.a) (s.gr (ctxOf at_) f.b) = some w) :
    ∃ t, exec i s = .next t ∧ WroteReg s (ctxOf at_) 4 f.d w t := by
  have row (maj min : Nat) (hm : rMeta maj min = some (metaR maj min)) {g : Word → Word → X Word}
      (hg : g (s.gr (ctxOf at_) f.a) (s.gr (ctxOf at_) f.b) (startRun s at_) = .ok w (startRun s at_)) :
      ∃ t, fin s (s.rowR at_ f maj min false (fun _ => X.two f.d f.a f.b g)) = .next t ∧ WroteReg s (ctxOf at_) 4 f.d w t :=
    rowR_two hm h (rsvR_three maj min hrsv) rfl rfl hg
  cases i <;> simp only [threeReg, Option.some.injEq, Prod.mk.injEq, reduceCtorEq] at hi <;> obtain ⟨rfl, rfl, rfl⟩ := hi
  case add => exact row 0 0 rfl (arith_ok hg)
  case sub => exact row 0 1 rfl (arith_ok hg)
  case mul => exact row 0 2 rfl (arith_ok hg)
  case div => exact row 0 3 rfl (div_ok hg)
  case rem => exact row 0 4 rfl (X.rem_ok hg)
  case cmp => exact row 2 0 rfl (X.compared_ok (f := cmpFix) hg)
  case ceq => exact row 2 1 rfl (X.compared_ok hg)
  case clt => exact row 2 2 rfl (X.compared_ok hg)
  case cle => exact row 2 3 rfl (X.compared_ok (f := fun c => Word.ofBool (c = .lt || c = .eq)) (by rw [← hg]; simp))
  case eq => exact row 2 4 rfl (X.eqw_ok hg)
  case and => exact row 1 0 rfl (X.bits2_ok hg)
  case or => exact row 1 1 rfl (X.bits2_ok hg)
  case xor => exact row 1 2 rfl (X.bits2_ok hg)
  case andn => exact row 1 3 rfl (X.bits2_ok hg)
  case shl => exact row 1 5 rfl (shift_ok hg (fun _ _ => rfl))
  case shr => exact row 1 6 rfl (shift_ok hg (fun _ _ => rfl))
  case sar => exact row 1 7 rfl (shift_ok hg (fun _ _ => rfl))
  case rot => exact row 1 8 rfl (shift_ok hg (fun _ _ => rfl))
  case ttst => exact row 3 2 rfl (X.ttst_ok hg)
  case rtag => exact row 3 3 rfl (rtag_ok hg)

theorem twoReg_writes {i : Instr} {s : State} {at_ : At} {f : RF} {g : Word → Option Word} {w : Word}
    (hi : twoReg i = some (at_, f, g)) (h : s.ready at_ 4 = true) (hrsv : f.rsv = 0) (hb : f.b = 0)
    (hg : g (s.gr (ctxOf at_) f.a) = some w) : ∃ t, exec i s = .next t ∧ WroteReg s (ctxOf at_) 4 f.d w t := by
  have row (maj min : Nat) (hm : rMeta maj min = some (metaR maj min).da) {g : Word → X Word}
      (hg : g (s.gr (ctxOf at_) f.a) (startRun s at_) = .ok w (startRun s at_)) :
      ∃ t, fin s (s.rowR at_ f maj min false (fun _ => X.one f.d f.a g)) = .next t ∧ WroteReg s (ctxOf at_) 4 f.d w t :=
    rowR_one hm h (rsvR_two maj min hrsv hb) rfl hg
  cases i <;> simp only [twoReg, Option.some.injEq, Prod.mk.injEq, reduceCtorEq] at hi <;> obtain ⟨rfl, rfl, rfl⟩ := hi
  case neg => exact row 0 5 rfl (X.one_number (fi := fun a => -a) hg)
  case abs => exact row 0 6 rfl (X.abs_ok hg)
  case not => exact row 1 4 rfl (X.bits1_ok hg)
  case popc => exact row 1 9 rfl (X.count_ok hg)
  case clz => exact row 1 10 rfl (X.count_ok hg)
  case ctz => exact row 1 11 rfl (X.count_ok hg)
  case tag => cases hg; exact row 3 0 rfl rfl
  case tcls => cases hg; exact row 3 1 rfl rfl
  case mov => exact row 6 0 rfl (X.mov_ok hg)
  case cvtf => exact row 6 1 rfl (X.cvtf_ok hg)
  case cvti => exact row 6 2 rfl (X.cvti_ok hg)
  case ftor => exact row 6 3 rfl (X.recode_ok hg)
  case rtof => exact row 6 4 rfl (X.recode_ok hg)

/-- Settles O4: each row's operation answers the result its operands have, and the row writes it to D. -/
theorem registerResults : Obligations.RegisterResults :=
  ⟨fun _ _ _ _ _ _ hi h hrsv hg => threeReg_writes hi h hrsv hg, fun _ _ _ _ _ _ hi h hrsv hb hg => twoReg_writes hi h hrsv hb hg⟩

/-! ### Immediates (R101 to R105) -/

theorem ofInt_signedOf_16 (v : BitVec 16) : BitVec.ofInt 64 (signedOf 16 v.toNat) = sext16 v := by
  rw [sext16, BitVec.signExtend, BitVec.toInt_eq_toNat_cond, signedOf]
  have := v.isLt
  congr 1
  split <;> split <;> omega

theorem ofInt_signedOf_32 (v : BitVec 32) : BitVec.ofInt 64 (signedOf 32 v.toNat) = sext32 v := by
  rw [sext32, BitVec.signExtend, BitVec.toInt_eq_toNat_cond, signedOf]
  have := v.isLt
  congr 1
  split <;> split <;> omega

theorem immPay_eq (maj : Nat) {width : Nat} {v : Nat} {se : Pay} (hse : BitVec.ofInt 64 (signedOf width v) = se) :
    immPay maj width v = if immUnsigned maj then p64 v else se := by
  rw [immPay, hse]

/-- The majors of the instructions with an immediate and one destination. -/
def immMajors : List Nat := [0x07, 0x08, 0x09, 0x0A, 0x0B, 0x0C, 0x0D, 0x0E, 0x0F, 0x2E, 0x2F, 0x3C, 0x3D]

theorem shiftPay_eq (k n : Nat) (p : Pay) : shiftPay k n p = shiftKind p k n := by
  unfold shiftPay shiftKind
  match k with
  | 0 => rfl
  | 1 => rfl
  | 2 => rfl
  | k + 3 => rfl

/-- The body of an instruction with an immediate writes the result to D. -/
theorem iBody_writes {maj : Nat} {r : Run} {d a : BitVec 5} {se : Pay} {v : Nat} {w : Word}
    (hg : immResult (r.s.ctx r.x).ring maj se (p64 v) ((r.s.ctx r.x).rd a) = some w) :
    iBody maj d a (if immUnsigned maj then p64 v else se) r = .ok .seq { r with s := r.s.wrReg r.x d w } := by
  unfold immResult at hg
  split at hg
  · exact X.one_run r (arith_ok hg)
  · exact X.one_run r (arith_ok hg)
  · exact X.one_run r (X.compared_ok hg)
  · exact X.one_run r (X.compared_ok hg)
  · exact X.one_run r (X.bits1_ok hg)
  · exact X.one_run r (X.bits1_ok (f := fun p => p ||| p64 v) hg)
  · exact X.one_run r (X.bits1_ok (f := fun p => p ^^^ p64 v) hg)
  · refine X.one_run r (X.bits1_ok (f := shiftPay (fld (p64 v) 7 6) (fld (p64 v) 5 0)) ?_)
    split at hg
    · next hv => rw [if_pos hv.2, shiftPay_eq, hg]
    · cases hg
  · cases hg
    rfl
  · refine X.one_run r (X.retag_ok ?_)
    split at hg
    · next hv =>
      have hlow : fld (p64 v) 7 0 = (p64 v).toNat := by
        show (p64 v).toNat >>> 0 % 2 ^ 8 = _
        exact Nat.mod_eq_of_lt hv
      show newTag _ _ (BitVec.ofNat 8 (fld (p64 v) 7 0)) = _
      rw [hlow, hg]
    · cases hg
  · cases hg
    exact X.one_run r rfl
  · split at hg
    · next hc =>
      cases hg
      show opLdc d (p64 v) r = _
      rw [opLdc, hc]
      rfl
    · cases hg
  · cases hg
    rfl
  · cases hg

theorem immResult_major {ring maj : Nat} {se ze : Pay} {a w : Word} (h : immResult ring maj se ze a = some w) : maj ∈ immMajors := by
  unfold immResult at h
  split at h
  case h_14 => cases h
  all_goals decide

/-- Their decode: at any ring, breaking no shadow; LDI, LDC and LDR alone use no A. -/
theorem immMajors_meta {maj : Nat} (h : maj ∈ immMajors) :
    ∃ m, iMeta maj = some m ∧ m.ringMax = 3 ∧ m.breaker = false ∧ ∀ f : IF, (noA maj = true → f.a = 0) → m.rsvI f = true := by
  simp only [immMajors, List.mem_cons, List.not_mem_nil, or_false] at h
  rcases h with rfl | rfl | rfl | rfl | rfl | rfl | rfl | rfl | rfl | rfl | rfl | rfl | rfl <;>
    exact ⟨_, rfl, rfl, rfl, fun f hf => by simp_all [Meta.rsvI, metaR, Meta.da, noA]⟩

theorem immResult_immOk {ring maj v : Nat} {se : Pay} {a w : Word} (hv : v < 2 ^ 64) (h : immResult ring maj se (p64 v) a = some w) :
    immOk maj v = true := by
  have hp : (p64 v).toNat = v := Nat.mod_eq_of_lt hv
  have hlow : maj = 0x0E ∨ maj = 0x2E → v < 256 := by
    rintro (rfl | rfl) <;> simp only [immResult, hp] at h <;> split at h
    · next hc => exact hc.1
    · cases h
    · next hc => exact hc
    · cases h
  have hm := immResult_major h
  unfold immOk
  split
  · next hs => exact decide_eq_true (hlow hs)
  · simp only [immMajors, List.mem_cons, List.not_mem_nil, or_false] at hm
    rw [if_neg (by omega), if_neg (by omega)]

/-- Each of these instructions is its major's body on the extended immediate. -/
theorem exec_immReg {i : Instr} {s : State} {at_ : At} {f : IF} {maj : Nat} (hi : immReg i = some (at_, f, maj)) :
    exec i s = fin s (s.rowI at_ f maj (fun v => iBody maj f.d f.a v)) := by
  cases i <;> simp only [immReg, Option.some.injEq, Prod.mk.injEq, reduceCtorEq] at hi <;> obtain ⟨rfl, rfl, rfl⟩ := hi <;> rfl

theorem immReg_writes {i : Instr} {s : State} {at_ : At} {f : IF} {maj : Nat} {w : Word} (hi : immReg i = some (at_, f, maj))
    (h : s.ready at_ 4 = true) (hA : noA maj = true → f.a = 0)
    (hg : immResult (s.ctx (ctxOf at_)).ring maj (sext16 f.imm) (p64 f.imm.toNat) (s.gr (ctxOf at_) f.a) = some w) :
    ∃ t, exec i s = .next t ∧ WroteReg s (ctxOf at_) 4 f.d w t := by
  obtain ⟨m, hm, hmax, hbr, hrsv⟩ := immMajors_meta (immResult_major hg)
  have hok := immResult_immOk (by have := f.imm.isLt; omega) hg
  rw [exec_immReg hi]
  refine issue_wrote h false _ f.d w ((rowI_body hm (by rw [hrsv f hA, hok]; rfl) hmax hbr _).trans ?_)
  rw [immPay_eq maj (ofInt_signedOf_16 f.imm)]
  exact iBody_writes hg

theorem ext_writes {s : State} {at_ : At} {inner : BitVec 6} {d a : BitVec 5} {imm : BitVec 32} {w : Word}
    (he : extInner inner.toNat = true) (h : s.ready at_ 8 = true) (hA : noA inner.toNat = true → a = 0)
    (hg : immResult (s.ctx (ctxOf at_)).ring inner.toNat (sext32 imm) (p64 imm.toNat) (s.gr (ctxOf at_) a) = some w) :
    ∃ t, exec (.ext at_ inner d a 0 imm) s = .next t ∧ WroteReg s (ctxOf at_) 8 d w t := by
  obtain ⟨m, hm, hmax, hbr, hrsv⟩ := immMajors_meta (immResult_major hg)
  have hok := immResult_immOk (by have := imm.isLt; omega) hg
  refine issue_wrote h false _ d w ?_
  simp only [he, Bool.not_true, Bool.false_eq_true, if_false]
  rw [hm, Option.getD_some, hrsv ⟨d, a, 0⟩ hA, hok]
  refine (X.bind_ok (X.decodeChecks_ok m (startRun s at_) (hmax ▸ ring_le _) (.inl hbr)) _).trans ?_
  rw [immPay_eq inner.toNat (ofInt_signedOf_32 imm)]
  exact iBody_writes hg

/-- Settles O5: each row, and EXT, runs its major's body on the immediate as that major takes it. -/
theorem immediateResults : Obligations.ImmediateResults :=
  ⟨fun _ _ _ _ _ _ hi h hA hg => immReg_writes hi h hA hg, fun _ _ _ _ _ _ _ he h hA hg => ext_writes he h hA hg⟩

end Sys2Proof.Machine
end

section
/-!
PROOFS. Tag Traps of FIX arithmetic (O6), the fences (O16) and the transfers of control without memory (O17, O18).
-/
namespace Sys2Proof.Machine

section
variable {s : State} {at_ : At}

/-! ### Tag Traps with tag dispatch off (R140, R145 to R147) -/

/-- With tag dispatch off, a Tag Trap enters vector 18 as any exception does (R149). -/
theorem issue_tagTraps {e : Exc} {en : Entry} {body : Pay → X Flow} (h : s.ready at_ 4 = true) (htb : (s.ctx (ctxOf at_)).tb = false)
    (hoff : bit ((s.ctx (ctxOf at_)).sp Sr.tdb) 0 = false)
    (hb : body (s.ctx (ctxOf at_)).pc (startRun s at_) = .error (.exc e id false) (startRun s at_))
    (he : s.entryOf (ctxOf at_) e = some en) :
    ∃ t, fin s (issue at_ 4 false body s) = .next t ∧ Entered s (ctxOf at_) (s.ctx (ctxOf at_)).pc e en t := by
  have hr := State.ready_iff s at_ 4 h
  obtain ⟨plan, hplan⟩ := State.plan_of_entryOf he
  obtain ⟨t, hsettle, hcalm, hpending, hent, -⟩ :=
    (Aside.refl s (ctxOf at_)).deliver (pc := (s.ctx (ctxOf at_)).pc) he hr.calm hr.loads
  refine ⟨t, ?_, hent⟩
  have htag : s.tagTrapEntry (startRun s at_) (s.ctx (ctxOf at_)).pc e = s.deliver (ctxOf at_) (s.ctx (ctxOf at_)).pc e := by
    rw [State.tagTrapEntry, if_pos (.inr (.inl (by rw [hoff]; rfl)))]
    exact State.enterExc_deliver _ _ hr.vecBad hr.pushPar htb
  have hissue : issue at_ 4 false body s = (s.deliver (ctxOf at_) (s.ctx (ctxOf at_)).pc e).settle := by
    rw [issue_ready hr, hb]
    simp only [hplan.free, Bool.false_eq_true, if_false, id_eq, htag]
  rw [hissue]
  exact (fin_settled hsettle hcalm hpending).2

/-- The Tag Trap of an operation on two FIX operands (R147): both tags are 0, so the first extra word is 0. -/
def fixTrap (op reason mask : Nat) : Exc :=
  { vec := 18, cause := atFld 23 16 mask ||| atFld 15 8 op ||| atFld 7 0 reason, x0 := Word.raw 0 }

theorem X.tagTrap_fix {α : Type} {op reason mask : Nat} {a b : Word} {r : Run} (ha : a.tag = Tag.fix) (hb : b.tag = Tag.fix) :
    (X.tagTrap op reason mask (some a.tag) (some b.tag) : X α) r = .error (.exc (fixTrap op reason mask) id false) r := by
  have htags : (atFld 15 8 Tag.fix.toNat ||| atFld 7 0 Tag.fix.toNat : Pay) = 0 := by decide
  have htrap : Exc.tagTrap op reason mask Tag.fix Tag.fix = fixTrap op reason mask := by rw [Exc.tagTrap, htags, fixTrap]
  rw [← htrap, ha, hb, X.tagTrap]
  simp only [Option.isSome_some, and_self, if_true]
  rfl

section
variable {a b : Word} {r : Run} (ha : a.tag = Tag.fix) (hb : b.tag = Tag.fix)
include ha hb

theorem X.check2_fix {op : Nat} : X.check2 op a b isNum isNum r = .ok () r :=
  check2_ok op a b isNum isNum r (by rw [ha]; rfl) (by rw [hb]; rfl)

/-- ADD, SUB and MUL on FIX operands whose exact result is out of range (R140). -/
theorem X.arith_ovf {op : Nat} {fi : Int → Int → Int} {ff : FloVal → FloVal → Pay}
    (h : inFix (fi (fixVal a.pay) (fixVal b.pay)) = false) :
    X.arith op fi ff a b r = .error (.exc (fixTrap op rOvf 0) id false) r := by
  unfold X.arith
  rw [X.bind_ok (X.check2_fix ha hb), if_pos ⟨ha, hb⟩, X.fixResult, if_neg (by rw [h]; decide)]
  exact X.tagTrap_fix ha hb

/-- DIV on FIX operands with divisor 0 (R140). -/
theorem X.div_zero {op : Nat} (h : b.pay = 0) : X.div op a b r = .error (.exc (fixTrap op rDivz 2) id false) r := by
  unfold X.div
  rw [X.bind_ok (X.check2_fix ha hb), if_pos ⟨ha, hb⟩, if_pos h]
  exact X.tagTrap_fix ha hb

/-- REM on FIX operands with divisor 0 (R140). -/
theorem X.rem_zero {op : Nat} (h : b.pay = 0) : X.rem op a b r = .error (.exc (fixTrap op rDivz 2) id false) r := by
  unfold X.rem
  rw [X.bind_ok (X.check2_fix ha hb), if_pos ⟨ha, hb⟩, if_pos h]
  exact X.tagTrap_fix ha hb

end

/-- A row of two registers whose operation traps enters the trap's handler. -/
theorem rowR_traps {f : RF} {maj min : Nat} {g : Word → Word → X Word} {e : Exc} {en : Entry} (hm : rMeta maj min = some (metaR maj min))
    (h : s.ready at_ 4 = true) (hrsv : f.rsv = 0) (htb : (s.ctx (ctxOf at_)).tb = false)
    (hoff : bit ((s.ctx (ctxOf at_)).sp Sr.tdb) 0 = false)
    (hg : g (s.gr (ctxOf at_) f.a) (s.gr (ctxOf at_) f.b) (startRun s at_) = .error (.exc e id false) (startRun s at_))
    (he : s.entryOf (ctxOf at_) e = some en) :
    ∃ t, fin s (s.rowR at_ f maj min false (fun _ => X.two f.d f.a f.b g)) = .next t ∧
      Entered s (ctxOf at_) (s.ctx (ctxOf at_)).pc e en t := by
  have hl := (State.ready_iff s at_ 4 h).loads
  refine issue_tagTraps h htb hoff ((rowR_body hm (rsvR_three maj min hrsv) rfl hl (fun _ => X.two f.d f.a f.b g) (s.ctx (ctxOf at_)).pc).trans ?_) he
  exact (X.bind_ok (X.rd_run _ f.a) _).trans ((X.bind_ok (X.rd_run _ f.b) _).trans (X.bind_error hg _))

end

/-- Settles O6: on two FIX operands the operation raises the trap, and with tag dispatch off the row enters vector 18. -/
theorem arithmeticTraps : Obligations.ArithmeticTraps := by
  intro s at_ f en op i reason mask x a b e hcase ha hb h hrsv htb hoff he
  have row (maj min : Nat) (hm : rMeta maj min = some (metaR maj min)) {g : Word → Word → X Word}
      (hg : g a b (startRun s at_) = .error (.exc e id false) (startRun s at_)) :
      ∃ t, fin s (s.rowR at_ f maj min false (fun _ => X.two f.d f.a f.b g)) = .next t ∧
        Entered s (ctxOf at_) (s.ctx (ctxOf at_)).pc e en t :=
    rowR_traps hm h hrsv htb hoff hg he
  rcases hcase with ⟨rfl, rfl, rfl, rfl, hv⟩ | ⟨rfl, rfl, rfl, rfl, hv⟩ | ⟨rfl, rfl, rfl, rfl, hv⟩ | ⟨rfl, rfl, rfl, rfl, hv⟩ |
    ⟨rfl, rfl, rfl, rfl, hv⟩
  · exact row 0 0 rfl (X.arith_ovf ha hb hv)
  · exact row 0 1 rfl (X.arith_ovf ha hb hv)
  · exact row 0 2 rfl (X.arith_ovf ha hb hv)
  · exact row 0 3 rfl (X.div_zero ha hb hv)
  · exact row 0 4 rfl (X.rem_zero ha hb hv)

end Sys2Proof.Machine
end

section
/-!
PROOFS. Fences and the like (O16), branches (O17) and hardware loops (O18).
-/
namespace Sys2Proof.Machine

section
variable {s : State} {at_ : At}

/-! ### Rows past their decode checks -/

/-- The checks of a format R row that its fields, its ring and its shadow pass (R109). -/
theorem rowR_checked {f : RF} {maj min : Nat} {m : Meta} (h : Ready s at_ 4) (hm : rMeta maj min = some m) (hrsv : m.rsvR f = true)
    (hring : (s.ctx (ctxOf at_)).ring ≤ m.ringMax) (body : Pay → X Flow) (pc : Pay) :
    (do X.decodeChecks ((rMeta maj min).getD (metaR maj min)) (((rMeta maj min).getD (metaR maj min)).rsvR f); body pc : X Flow)
      (startRun s at_) = body pc (startRun s at_) := by
  rw [hm, Option.getD_some, hrsv]
  exact X.bind_ok (X.decodeChecks_ok m (startRun s at_) hring (.inr h.loads)) _

/-- The checks of a row of another format (R109). -/
theorem rowX_checked {ok : Bool} (maj : Nat) (hok : ok = true) (body : Pay → X Flow) (pc : Pay) :
    (do X.decodeChecks (metaR maj 0) ok; body pc : X Flow) (startRun s at_) = body pc (startRun s at_) := by
  rw [hok]
  exact X.bind_ok (X.decodeChecks_ok (metaR maj 0) (startRun s at_) (ring_le _) (.inl rfl)) _

/-- A format R row whose body changes nothing and goes on in sequence. -/
theorem rowR_passes {f : RF} {maj min : Nat} {m : Meta} {body : Pay → X Flow} (hm : rMeta maj min = some m) (hrsv : m.rsvR f = true)
    (hring : (s.ctx (ctxOf at_)).ring ≤ m.ringMax) (h : s.ready at_ 4 = true) (long : Bool)
    (hb : body (s.ctx (ctxOf at_)).pc (startRun s at_) = .ok .seq (startRun s at_)) :
    ∃ t, fin s (s.rowR at_ f maj min long body) = .next t ∧ WentTo s (ctxOf at_) ((s.ctx (ctxOf at_)).pc + 4) t :=
  issue_passed h long _ ((rowR_checked (State.ready_iff s at_ 4 h) hm hrsv hring body _).trans hb)

/-! ### Fences (R412, R424, R498, R512) -/

section
variable (ht : s.isTight (ctxOf at_) = false) (hl : s.isLoose (ctxOf at_) = false) (hp : s.lastPosted (ctxOf at_) = none)
include ht

theorem X.heldDone_untight : X.heldDone (startRun s at_) = .ok () (startRun s at_) := by
  have hheld : s.heldBy (ctxOf at_) = false := by rw [State.heldBy, ht]; rfl
  unfold X.heldDone
  refine (X.bind_ok (X.st_run _) _).trans ((X.bind_ok (X.ctxNo_run _) _).trans ?_)
  exact X.check_passed (by rw [show (startRun s at_).s.heldBy (startRun s at_).x = false from hheld]; decide)

theorem opCkpt_run (hl : s.isLoose (ctxOf at_) = false) : opCkpt (startRun s at_) = .ok .seq (startRun s at_) := by
  unfold opCkpt
  refine (X.bind_ok (X.st_run _) _).trans ((X.bind_ok (X.ctxNo_run _) _).trans ?_)
  rw [show (startRun s at_).s.isTight (startRun s at_).x = false from ht,
    show (startRun s at_).s.isLoose (startRun s at_).x = false from hl]
  rfl

omit ht in
include hl hp in
theorem X.storesDone_acknowledged : X.storesDone (startRun s at_) = .ok () (startRun s at_) := by
  unfold X.storesDone
  refine (X.bind_ok (X.st_run _) _).trans ((X.bind_ok (X.ctxNo_run _) _).trans ?_)
  refine (X.check_passed (by rw [show (startRun s at_).s.isLoose (startRun s at_).x = false from hl]; simp)).trans ?_
  rw [show (startRun s at_).s.lastPosted (startRun s at_).x = none from hp]
  rfl

include hl hp in
theorem opFence_run : opFence (startRun s at_) = .ok .seq (startRun s at_) :=
  (X.bind_ok (X.heldDone_untight ht) _).trans (X.bind_ok (X.storesDone_acknowledged hl hp) _)

include hl hp in
theorem opFenceIo_run (h : Ready s at_ 4) : opFenceIo (startRun s at_) = .ok .seq (startRun s at_) :=
  (X.bind_ok (X.closeWindow_untight h.undisturbed ht) _).trans (X.bind_ok (X.storesDone_acknowledged hl hp) _)

end

theorem opBrk_run (h : (s.sec.attached && s.debugAllowed) = false) : opBrk (startRun s at_) = .ok .seq (startRun s at_) := by
  unfold opBrk
  refine (X.bind_ok (X.st_run _) _).trans ((X.bind_ok (X.core_run _) _).trans ((X.bind_ok (X.ctxNo_run _) _).trans
    ((X.bind_ok (X.ctx_run _) _).trans ?_)))
  exact X.check_passed (by rw [show ((startRun s at_).s.sec.attached && (startRun s at_).s.debugAllowed) = false from h]; decide)

end

/-- Settles O16: each body changes nothing, since there is nothing to wait for and no window to close. -/
theorem fencesPass : Obligations.FencesPass := by
  intro s at_ i x hi h ht hl hp hckpt hbrk
  have row (maj min : Nat) {m : Meta} {op : X Flow} (hm : rMeta maj min = some m) (hrsv : m.rsvR {} = true)
      (hring : (s.ctx x).ring ≤ m.ringMax) (hb : op (startRun s at_) = .ok .seq (startRun s at_)) :
      ∃ t, fin s (s.rowR at_ {} maj min false (fun _ => op)) = .next t ∧ WentTo s x ((s.ctx x).pc + 4) t :=
    rowR_passes hm hrsv hring h false hb
  have hr := State.ready_iff s at_ 4 h
  simp only [List.mem_cons, List.not_mem_nil, or_false] at hi
  rcases hi with rfl | rfl | rfl | rfl | rfl | rfl | rfl | rfl
  · exact row 0x2C 0 rfl rfl (ring_le _) rfl
  · exact row 0x2C 1 rfl rfl (ring_le _) (opFence_run ht hl hp)
  · exact row 0x2C 2 rfl rfl (ring_le _) (opFence_run ht hl hp)
  · exact row 0x2C 3 rfl rfl (ring_le _) (opFenceIo_run ht hl hp hr)
  · exact row 0x2C 4 rfl rfl (ring_le _) rfl
  · exact row 0x2D 0 rfl rfl (ring_le _) rfl
  · exact row 0x2D 1 rfl rfl (hckpt rfl).le (opCkpt_run ht hl)
  · exact row 0x2D 2 rfl rfl (ring_le _) (opBrk_run (hbrk rfl))

/-! ### Branches (R167 to R173, R179) -/

section
variable {s : State} {at_ : At}

/-- A body goes to t: it jumps there, or it goes on in sequence and t is the next instruction. -/
def GoesTo (s : State) (at_ : At) (m : X Flow) (t : Pay) : Prop :=
  m (startRun s at_) = .ok (.jump t) (startRun s at_) ∨
    (m (startRun s at_) = .ok .seq (startRun s at_) ∧ t = (s.ctx (ctxOf at_)).pc + 4)

theorem issue_goesTo {t : Pay} {body : Pay → X Flow} (h : s.ready at_ 4 = true) (hb : GoesTo s at_ (body (s.ctx (ctxOf at_)).pc) t) :
    ∃ u, fin s (issue at_ 4 false body s) = .next u ∧ WentTo s (ctxOf at_) t u := by
  rcases hb with hb | ⟨hb, rfl⟩
  · exact issue_went h false body t hb
  · exact issue_passed h false body hb

theorem rowX_goesTo {ok : Bool} {t : Pay} {body : Pay → X Flow} (maj : Nat) (hok : ok = true) (h : s.ready at_ 4 = true)
    (hb : GoesTo s at_ (body (s.ctx (ctxOf at_)).pc) t) :
    ∃ u, fin s (s.rowX at_ maj ok body) = .next u ∧ WentTo s (ctxOf at_) t u := by
  refine issue_goesTo h ?_
  rw [GoesTo, rowX_checked maj hok]
  exact hb

theorem X.relTarget_ok {pc t : Pay} {w disp : Nat} (h : relTo pc w disp = some t) (r : Run) : X.relTarget pc w disp r = .ok t r := by
  unfold relTo at h
  unfold X.relTarget
  dsimp only at h ⊢
  split at h
  · cases h
  · next hin =>
    cases h
    exact X.check_passed (by omega)

theorem X.branch_taken {pc t : Pay} {w disp : Nat} (h : relTo pc w disp = some t) (r : Run) :
    X.branch pc w disp true r = .ok (.jump t) r := X.bind_ok (X.relTarget_ok h r) _

/-- A branch with displacement disp goes where `relTo` says when it is taken, and on when it is not. -/
theorem branch_goesTo {w disp : Nat} {taken : Bool} {t : Pay}
    (h : (if taken = true then (relTo (s.ctx (ctxOf at_)).pc w disp).map (fun t => (at_, t)) else some (at_, (s.ctx (ctxOf at_)).pc + 4)) =
      some (at_, t)) : GoesTo s at_ (X.branch (s.ctx (ctxOf at_)).pc w disp taken) t := by
  cases taken with
  | true =>
    simp only [if_true, Option.map_eq_some_iff, Prod.mk.injEq, true_and, exists_eq_right] at h
    exact .inl (X.branch_taken h _)
  | false =>
    simp only [Bool.false_eq_true, if_false, Option.some.injEq, Prod.mk.injEq, true_and] at h
    exact .inr ⟨rfl, h.symm⟩

/-- Whether BCC is taken, for the conditions and fields it takes (R170). -/
def bccOn (cond : BitVec 4) (b : BitVec 5) (p q : Word) : Option Bool :=
  if cond = 0 ∧ b = 0 then some (decide (p = Word.nil))
  else if cond = 1 ∧ b = 0 then some (decide (p ≠ Word.nil))
  else if cond = 2 ∧ b = 0 then some (decide (p = Word.t))
  else if cond = 3 then some (decide (p = q))
  else if cond = 4 then some (decide (p ≠ q))
  else none

theorem bccOn_some {cond : BitVec 4} {b : BitVec 5} {p q : Word} {on : Bool} (h : bccOn cond b p q = some on) :
    bccRsv cond b = true ∧ bccTaken cond.toNat p q = on := by
  unfold bccOn at h
  split_ifs at h with h0 h1 h2 h3 h4 <;> cases h
  · obtain ⟨rfl, rfl⟩ := h0; exact ⟨rfl, rfl⟩
  · obtain ⟨rfl, rfl⟩ := h1; exact ⟨rfl, rfl⟩
  · obtain ⟨rfl, rfl⟩ := h2; exact ⟨rfl, rfl⟩
  · subst h3; exact ⟨rfl, rfl⟩
  · subst h4; exact ⟨rfl, rfl⟩

/-- The instruction a branch row is of. -/
theorem at_of_branchRow {i : Instr} {pc : Pay} (h : s.branchRow i = some (at_, pc)) :
    (∃ disp, i = .br at_ disp) ∨ (∃ a b cond disp, i = .bcc at_ a b cond disp) ∨
      (∃ a neg cls val disp, i = .btag at_ a neg cls val disp) ∨ (∃ f, i = .jmpr at_ f) ∨ ∃ a rsv ns, i = .loop at_ a rsv ns := by
  cases i <;> simp only [State.branchRow, reduceCtorEq] at h
  case br a disp =>
    obtain ⟨t, -, heq⟩ := Option.map_eq_some_iff.mp h
    cases heq
    exact .inl ⟨disp, rfl⟩
  case bcc a ra rb cond disp =>
    refine .inr (.inl ⟨ra, rb, cond, disp, ?_⟩)
    split at h
    · obtain ⟨t, -, heq⟩ := Option.map_eq_some_iff.mp h
      cases heq
      rfl
    · cases h; rfl
    · cases h
  case btag a ra neg cls val disp =>
    refine .inr (.inr (.inl ⟨ra, neg, cls, val, disp, ?_⟩))
    split at h
    · cases h
    · generalize (if cls = true then _ else _ : Bool) = hit at h
      split at h
      · obtain ⟨t, -, heq⟩ := Option.map_eq_some_iff.mp h
        cases heq
        rfl
      · cases h; rfl
  case jmpr a f =>
    refine .inr (.inr (.inr (.inl ⟨f, ?_⟩)))
    split at h
    · cases h; rfl
    · cases h
  case loop a ra rsv ns =>
    refine .inr (.inr (.inr (.inr ⟨ra, rsv, ns, ?_⟩)))
    split at h
    · cases h; rfl
    · cases h

theorem br_goes {disp : BitVec 26} {t : Pay} (h : s.branchRow (.br at_ disp) = some (at_, t)) (hr : s.ready at_ 4 = true) :
    ∃ u, exec (.br at_ disp) s = .next u ∧ WentTo s (ctxOf at_) t u :=
  rowX_goesTo 0x20 rfl hr (branch_goesTo (taken := true) h)

theorem bcc_goes {a b : BitVec 5} {cond : BitVec 4} {disp : BitVec 12} {t : Pay}
    (h : s.branchRow (.bcc at_ a b cond disp) = some (at_, t)) (hr : s.ready at_ 4 = true) :
    ∃ u, exec (.bcc at_ a b cond disp) s = .next u ∧ WentTo s (ctxOf at_) t u := by
  cases hon : bccOn cond b (s.gr (ctxOf at_) a) (s.gr (ctxOf at_) b) with
  | none =>
    have hnone : s.branchRow (.bcc at_ a b cond disp) = none := by
      show (match bccOn cond b (s.gr (ctxOf at_) a) (s.gr (ctxOf at_) b) with | some true => _ | some false => _ | none => _) = _
      rw [hon]
    rw [hnone] at h
    cases h
  | some on =>
    obtain ⟨hrsv, htaken⟩ := bccOn_some hon
    have hrow : s.branchRow (.bcc at_ a b cond disp) = if on = true then (relTo (s.ctx (ctxOf at_)).pc 12 disp.toNat).map
        (fun t => (at_, t)) else some (at_, (s.ctx (ctxOf at_)).pc + 4) := by
      show (match bccOn cond b (s.gr (ctxOf at_) a) (s.gr (ctxOf at_) b) with | some true => _ | some false => _ | none => _) = _
      rw [hon]
      cases on <;> rfl
    rw [hrow, ← htaken] at h
    exact rowX_goesTo 0x22 hrsv hr (branch_goesTo h)

theorem btag_goes {a : BitVec 5} {neg cls : Bool} {val : BitVec 8} {disp : BitVec 11} {t : Pay}
    (h : s.branchRow (.btag at_ a neg cls val disp) = some (at_, t)) (hr : s.ready at_ 4 = true) :
    ∃ u, exec (.btag at_ a neg cls val disp) s = .next u ∧ WentTo s (ctxOf at_) t u := by
  simp only [State.branchRow] at h
  split at h
  · cases h
  · next hrsv =>
    have hlt (hc : cls = true) : val.toNat < 4 := by
      by_contra hv
      exact hrsv ⟨hc, by omega⟩
    have hmatch : btagMatch cls val (s.gr (ctxOf at_) a).tag =
        if cls = true then decide ((s.gr (ctxOf at_) a).tag.toNat / 64 = val.toNat) else decide ((s.gr (ctxOf at_) a).tag = val) := by
      cases cls with
      | false => rfl
      | true => rw [btagMatch, if_pos rfl, if_pos rfl, Nat.mod_eq_of_lt (hlt rfl)]
    rw [← hmatch] at h
    refine rowX_goesTo 0x23 ?_ hr (branch_goesTo h)
    cases cls with
    | false => rfl
    | true => exact decide_eq_true (hlt rfl)

theorem opJmpr_run {a : BitVec 5} (hform : immForm (s.gr (ctxOf at_) a) = true) (hgood : goodTarget (s.gr (ctxOf at_) a).pay = true) :
    opJmpr a (startRun s at_) = .ok (.jump (s.gr (ctxOf at_) a).pay) (startRun s at_) := by
  unfold opJmpr
  rw [X.bind_ok (X.rdUsed_run (startRun s at_) hform)]
  exact X.bind_ok (X.checkTarget_ok (startRun s at_) hgood) _

theorem jmpr_goes {f : RF} {t : Pay} (h : s.branchRow (.jmpr at_ f) = some (at_, t)) (hr : s.ready at_ 4 = true) :
    ∃ u, exec (.jmpr at_ f) s = .next u ∧ WentTo s (ctxOf at_) t u := by
  simp only [State.branchRow] at h
  split at h
  · next hc =>
    obtain ⟨hrsv, hd, hb, hform, hgood⟩ := hc
    cases h
    show ∃ u, fin s (s.rowR at_ f 0x25 0 false (fun _ => opJmpr f.a)) = .next u ∧ _
    have hfields : (metaR 0x25 0).onlyA.rsvR f = true := by simp [Meta.rsvR, metaR, Meta.onlyA, hrsv, hd, hb]
    exact issue_went hr false _ _ ((rowR_checked (State.ready_iff s at_ 4 hr) rfl hfields (ring_le _) (fun _ => opJmpr f.a) (s.ctx (ctxOf at_)).pc).trans
      (opJmpr_run hform hgood))
  · cases h

/-- With no level active LOOP passes its first checks (R179, R184). -/
theorem opLoop_checked (h : Ready s at_ 4) {a : BitVec 5} (ns : BitVec 16) (hform : immForm (s.gr (ctxOf at_) a) = true) (pc : Pay) :
    opLoop pc a ns (startRun s at_) =
      if fld (s.gr (ctxOf at_) a).pay 31 0 = 0 then .ok (.jump (pc + p64 (4 * (ns.toNat + 2)))) (startRun s at_)
      else .ok .seq { startRun s at_ with s := s.updCtx (ctxOf at_) (fun c =>
        ((c.setSp Sr.ls0 ((pc + 4) &&& maskFld 47 2)).setSp Sr.le0 (((pc + p64 (4 * (ns.toNat + 1))) &&& maskFld 47 2) ||| p64 c.ring)).setSp
          Sr.lc0 (p64 (fld (s.gr (ctxOf at_) a).pay 31 0))) } := by
  have hdepth : (s.ctx (ctxOf at_)).depth = 0 := by rw [Ctx.depth, h.innermost]
  have hend : (s.ctx (ctxOf at_)).atLoopEnd pc = false := by rw [Ctx.atLoopEnd, h.innermost]
  unfold opLoop
  refine (X.bind_ok (X.ctx_run _) _).trans ((X.bind_ok (X.rd_run _ a) _).trans ?_)
  show (if (s.ctx (ctxOf at_)).atLoopEnd pc = true then _ else if (s.ctx (ctxOf at_)).depth = 3 then _ else
    if (!immForm (s.gr (ctxOf at_) a)) = true then _ else if fld (s.gr (ctxOf at_) a).pay 31 0 = 0 then _ else _ : X Flow) _ = _
  rw [hend, hdepth, hform]
  simp only [Bool.false_eq_true, if_false, Bool.not_true, OfNat.zero_ne_ofNat]
  split <;> rfl

theorem loop_goes {a rsv : BitVec 5} {ns : BitVec 16} {t : Pay} (h : s.branchRow (.loop at_ a rsv ns) = some (at_, t))
    (hr : s.ready at_ 4 = true) : ∃ u, exec (.loop at_ a rsv ns) s = .next u ∧ WentTo s (ctxOf at_) t u := by
  simp only [State.branchRow] at h
  split at h
  · next hc =>
    obtain ⟨hrsv, hform, hzero⟩ := hc
    cases h
    refine rowX_goesTo 0x24 (decide_eq_true hrsv) hr (.inl ?_)
    rw [opLoop_checked (State.ready_iff s at_ 4 hr) ns hform, if_pos hzero]
  · cases h

end

/-- Settles O17: each branch row's body jumps to the target or goes on in sequence. -/
theorem branches : Obligations.Branches := by
  intro i s at_ pc h hr
  obtain ⟨disp, rfl⟩ | ⟨a, b, cond, disp, rfl⟩ | ⟨a, neg, cls, val, disp, rfl⟩ | ⟨f, rfl⟩ | ⟨a, rsv, ns, rfl⟩ := at_of_branchRow h
  · exact br_goes h hr
  · exact bcc_goes h hr
  · exact btag_goes h hr
  · exact jmpr_goes h hr
  · exact loop_goes h hr

end Sys2Proof.Machine
end

section
/-!
PROOFS. What a retirement leaves of the machine in general, and hardware loops (O18).
-/
namespace Sys2Proof.Machine

/-! ### What stays within a context and its twin's window -/

/-- Only context x and the open window of its twin may differ. -/
structure Within (s : State) (x : Nat) (t : State) : Prop extends Near s x t where
  twin : t.twin (twinOf x) = { s.twin (twinOf x) with misr := (t.twin (twinOf x)).misr, groups := (t.twin (twinOf x)).groups }

section
variable {s t u : State} {x : Nat}

theorem Within.refl (s : State) (x : Nat) : Within s x s := ⟨Near.refl s x, rfl⟩

theorem Within.trans (h : Within s x t) (g : Within t x u) : Within s x u :=
  ⟨h.toNear.trans g.toNear, g.twin.trans (by rw [h.twin])⟩

theorem within_setCtx (s : State) (x : Nat) (c : Ctx) : Within s x (s.setCtx x c) := ⟨near_setCtx s x c, rfl⟩

theorem within_sign (s : State) (x : Nat) (ws : List Pay) : Within s x (s.sign (twinOf x) ws) := by
  obtain ⟨near, -, htwin⟩ := State.sign_near s x ws
  refine ⟨near, ?_⟩
  rw [htwin]

theorem within_retireMark (s : State) (x : Nat) : Within s x (s.retireMark x) := by
  obtain ⟨near, -, htwin⟩ := State.retireMark_marks s x
  refine ⟨near, ?_⟩
  rw [htwin]

theorem State.ctx_retireMark (s : State) (x : Nat) : (s.retireMark x).ctx x = (s.ctx x).marked := (State.retireMark_marks s x).2.1

theorem within_wrReg (s : State) (x : Nat) (d : BitVec 5) (w : Word) : Within s x (s.wrReg x d w) := by
  obtain ⟨near, -, htwin⟩ := State.wrReg_plain s x d w
  refine ⟨near, ?_⟩
  rw [htwin]

theorem State.ctx_wrReg (s : State) (x : Nat) (d : BitVec 5) (w : Word) : (s.wrReg x d w).ctx x = (s.ctx x).wr d w :=
  (State.wrReg_plain s x d w).2.1

theorem within_wrRegBank (s : State) (x : Nat) (d : BitVec 5) (bank : Nat) (w : Word) : Within s x (s.wrRegBank x d bank w) := by
  unfold State.wrRegBank
  rw [State.updCtx_eq]
  dsimp only
  split
  · exact (within_setCtx s x _).trans (within_sign _ x _)
  · exact within_setCtx s x _

theorem State.ctx_wrRegBank (s : State) (x : Nat) (d : BitVec 5) (bank : Nat) (w : Word) :
    (s.wrRegBank x d bank w).ctx x = (s.ctx x).wrKey (regKey bank d) w := by
  unfold State.wrRegBank
  rw [State.updCtx_eq]
  dsimp only
  split
  · rw [(State.sign_near _ x _).2.1, State.ctx_setCtx_self]
  · exact State.ctx_setCtx_self _ _ _

theorem within_foldl {β : Type} {f : State → β → State} (h : ∀ s b, Within s x (f s b)) (l : List β) (s : State) :
    Within s x (l.foldl f s) := by
  induction l generalizing s with
  | nil => exact Within.refl s x
  | cons b l ih => exact (h s b).trans (ih _)

theorem within_landLoads (s : State) (x : Nat) : Within s x (s.landLoads x) := by
  unfold State.landLoads
  rw [State.updCtx_eq]
  exact (within_foldl (fun s (p : PendLoad) => within_wrRegBank s x p.reg p.bank p.val) _ s).trans (within_setCtx _ x _)

/-- A retirement, with or without a load of its own. -/
theorem within_retire (s : State) (x : Nat) (slots : List Pay) (next : Pay) (ld : Option PendLoad) :
    Within s x (s.retire x slots next ld) := by
  unfold State.retire
  rw [State.updCtx_eq]
  exact ((within_landLoads s x).trans (within_retireMark _ x)).trans (within_setCtx _ x _)

theorem State.ctx_retire (s : State) (x : Nat) (slots : List Pay) (next : Pay) :
    (s.retire x slots next none).ctx x = ((s.landLoads x).ctx x).marked.endAction slots next := by
  unfold State.retire
  rw [State.updCtx_eq, State.ctx_setCtx_self, State.ctx_retireMark]

theorem Within.fin (h : Within s x t) (hc : s.calm = true) : fin s t.settle = .next t := h.toNear.fin hc

theorem State.ctx_landLoads_empty (s : State) (x : Nat) (h : (s.ctx x).loads = []) : (s.landLoads x).ctx x = s.ctx x :=
  (State.landLoads_plain s x h).2.1

theorem Within.onlyCtx (h : Within s x t) {c : Ctx} (hctx : t.ctx x = c) (hc : c = { s.ctx x with regs := c.regs, sr := c.sr, fresh := false }) :
    OnlyCtx s x t := by
  subst hctx
  exact ⟨h.rest, h.others, hc, h.twins, h.twin⟩

/-- What moves control and changes no memory. -/
theorem Within.moved (h : Within s x t) {pc : Pay} {sp : List (Nat × Pay)} (hregs : (t.ctx x).regs = (s.ctx x).regs)
    (hpc : (t.ctx x).pc = pc) (hset : ∀ e ∈ sp, (t.ctx x).sp e.1 = e.2)
    (hspec : ∀ n, n ≠ Sr.pc → n ∉ sp.map (·.1) → (t.ctx x).sp n = (s.ctx x).sp n) : Moved s x pc sp [] t where
  rest := by rw [h.rest]
  others := h.others
  regs := Ctx.rdKey_congr hregs
  pc := hpc
  set := hset
  spec := hspec
  twins := h.twins
  twin := h.twin
  bytes a _ := by rw [h.rest]; exact ⟨rfl, rfl⟩

end

/-! ### An instruction that may go through although loads are pending or a loop is active -/

/-- The instruction of `size` bytes at the context is fetched and begins, undisturbed. -/
structure Issuable (s : State) (at_ : At) (size : Nat) : Prop where
  calm : s.calm = true
  powered : s.powered (ctxOf at_) = true
  run : (s.ctx (ctxOf at_)).run = .run
  slot : (s.ctx (ctxOf at_)).slot = none
  grants : (s.ctx (ctxOf at_)).grants = []
  obs : (s.ctx (ctxOf at_)).obs = []
  inflight : (s.ctx (ctxOf at_)).inflight = false
  async : s.async (ctxOf at_) = none
  fetch : at_.fetch = .clean
  regPar : at_.regPar = false
  fetches : s.fetches (ctxOf at_) (s.ctx (ctxOf at_)).pc = true
  aligned : ¬ (size = 8 ∧ bit (s.ctx (ctxOf at_)).pc 2 = true)

section
variable {s : State} {at_ : At}

/-- An issuable instruction whose body leaves u and goes on: u is retired. -/
theorem Issuable.issue_seq (h : Issuable s at_ 4) (long : Bool) {body : Pay → X Flow} {u : State}
    (hb : body (s.ctx (ctxOf at_)).pc (startRun s at_) = .ok .seq { startRun s at_ with s := u }) :
    issue at_ 4 long body s = (u.retire (ctxOf at_) [(s.ctx (ctxOf at_)).pc] ((s.ctx (ctxOf at_)).pc + 4) none).settle := by
  have hfetch := X.fetch_ready s at_ h.fetch h.obs h.grants h.fetches
  unfold issue
  simp only [h.powered, h.run, h.slot, h.grants, h.async, h.inflight, Bool.not_true, Bool.false_eq_true, ne_eq, not_true_eq_false,
    or_self, if_false, ite_self, List.isEmpty_nil, h.regPar, h.aligned]
  rw [X.bind_ok (f := fun _ => _) (show (do pure (); X.fetch (s.ctx (ctxOf at_)).pc : X Unit) (fetchRun s at_) = .ok () (fetchRun s at_)
    from hfetch), X.bind_ok (show (modify (fun r => { r with fetched := true }) : X Unit) (fetchRun s at_) = .ok () (startRun s at_) from rfl)]
  rw [hb]
  rfl

/-- A context that may go on, with other special registers or pending loads, may still go on. -/
theorem State.powered_setCtx {x : Nat} {c : Ctx} (h : s.powered x = true) (hl : (s.ctx x).loads = [])
    (hc : c = { s.ctx x with sr := c.sr, loads := c.loads }) (htb : c.tb = (s.ctx x).tb) : (s.setCtx x c).powered x = true := by
  have hstarted : c.started = (s.ctx x).started := by rw [hc]
  have hhalted : c.halted = (s.ctx x).halted := by rw [hc]
  have hfrozen : c.frozen = (s.ctx x).frozen := by rw [hc]
  have hdead : c.dead = (s.ctx x).dead := by rw [hc]
  have hboundary : c.atBoundary = (s.ctx x).atBoundary := by rw [hc]; rfl
  have hstop : (s.ctx x).joinStop = false → c.joinStop = false := by
    simp only [Ctx.joinStop, hstarted, hhalted, hfrozen, hdead, hboundary, htb, hl, List.isEmpty_nil, Bool.and_true]
    intro h
    simp only [Bool.or_eq_false_iff] at h ⊢
    obtain ⟨hrest, hstand⟩ := h
    exact ⟨hrest, by rw [hstand]; rfl⟩
  have hmay (m j : Bool) (h : (!m || (j && !(s.ctx x).joinStop)) = true) : (!m || (j && !c.joinStop)) = true := by
    simp only [Bool.or_eq_true, Bool.and_eq_true, Bool.not_eq_true'] at h ⊢
    exact h.imp_right (And.imp_right hstop)
  unfold State.powered at h ⊢
  rw [State.ctx_setCtx_self, State.twin_setCtx]
  dsimp only at h ⊢
  rw [hstarted, hhalted, hfrozen, hdead]
  simp only [Bool.and_eq_true] at h ⊢
  obtain ⟨⟨⟨⟨hfirst, hmoves⟩, hmode⟩, hwho⟩, hfence⟩ := h
  exact ⟨⟨⟨⟨hfirst, hmay _ _ hmoves⟩, hmode⟩, hwho⟩, hfence⟩

/-- Neither makes an exception one to be taken. -/
theorem State.async_setCtx {x : Nat} {c : Ctx} (h : s.async x = none) (hl : (s.ctx x).loads = [])
    (hc : c = { s.ctx x with sr := c.sr, loads := c.loads }) (htb : c.tb = (s.ctx x).tb) (hie : c.ie = (s.ctx x).ie) :
    (s.setCtx x c).async x = none := by
  have hmcs : c.mcs = (s.ctx x).mcs := by rw [hc]
  have hsbes : c.sbes = (s.ctx x).sbes := by rw [hc]
  have hlines : c.lines = (s.ctx x).lines := by rw [hc]
  unfold State.async Ctx.admits at h ⊢
  rw [State.ctx_setCtx_self]
  dsimp only at h ⊢
  rw [hl] at h
  rw [htb, hie, hmcs, hsbes, hlines]
  cases hloads : c.loads with
  | nil => exact h
  | cons p ps => simp

/-- A ready context stays issuable when its special registers but WINB and PS, or its pending loads, are others. -/
theorem Ready.issuable_setCtx (h : Ready s at_ 4) {c : Ctx} (hc : c = { s.ctx (ctxOf at_) with sr := c.sr, loads := c.loads })
    (hpc : c.pc = (s.ctx (ctxOf at_)).pc) (hw : c.sp Sr.winb = (s.ctx (ctxOf at_)).sp Sr.winb)
    (hps : c.sp Sr.ps = (s.ctx (ctxOf at_)).sp Sr.ps)
    (hf : (s.setCtx (ctxOf at_) c).fetches (ctxOf at_) (s.ctx (ctxOf at_)).pc = true) : Issuable (s.setCtx (ctxOf at_) c) at_ 4 := by
  have hctx : (s.setCtx (ctxOf at_) c).ctx (ctxOf at_) = c := State.ctx_setCtx_self _ _ _
  have htb : c.tb = (s.ctx (ctxOf at_)).tb := by rw [Ctx.tb, hw]; rfl
  have hie : c.ie = (s.ctx (ctxOf at_)).ie := by rw [Ctx.ie, hps]; rfl
  have hfield (p : Ctx → Prop) (hp : p (s.ctx (ctxOf at_))) (hcongr : ∀ sr loads, p { s.ctx (ctxOf at_) with sr := sr, loads := loads } = p (s.ctx (ctxOf at_))) :
      p ((s.setCtx (ctxOf at_) c).ctx (ctxOf at_)) := by
    rw [hctx, hc, hcongr]
    exact hp
  exact {
    calm := (near_setCtx s (ctxOf at_) c).calm.trans h.calm
    powered := State.powered_setCtx h.powered h.loads hc htb
    run := hfield (·.run = .run) h.run fun _ _ => rfl
    slot := hfield (·.slot = none) h.slot fun _ _ => rfl
    grants := hfield (·.grants = []) h.grants fun _ _ => rfl
    obs := hfield (·.obs = []) h.obs fun _ _ => rfl
    inflight := hfield (·.inflight = false) h.inflight fun _ _ => rfl
    async := State.async_setCtx h.async h.loads hc htb hie
    fetch := h.fetch
    regPar := h.regPar
    fetches := by rw [hctx, hpc]; exact hf
    aligned := by simp }

/-- A NOP at an issuable context retires, and does nothing else (R107). -/
theorem nop_retires (h : Issuable s at_ 4) :
    exec (.nop at_ {}) s =
      .next (s.retire (ctxOf at_) [(s.ctx (ctxOf at_)).pc] ((s.ctx (ctxOf at_)).pc + 4) none) := by
  have hchecks := X.decodeChecks_ok (metaR 0x2D 0).bare (startRun s at_) (ring_le _) (.inl rfl)
  have hbody : (do X.decodeChecks (metaR 0x2D 0).bare true; opNop : X Flow) (startRun s at_) = .ok .seq (startRun s at_) :=
    (X.bind_ok hchecks _).trans rfl
  calc exec (.nop at_ {}) s = fin s (issue at_ 4 false (fun _ => do X.decodeChecks (metaR 0x2D 0).bare true; opNop) s) := rfl
    _ = _ := by rw [h.issue_seq false hbody]; exact (within_retire s (ctxOf at_) _ _ none).fin h.calm

end

end Sys2Proof.Machine
end

section
/-!
PROOFS. Hardware loops (O18).
-/
namespace Sys2Proof.Machine

/-! ### The addresses that a loop's registers hold (R189) -/

theorem bit_three (n : Nat) (h : 2 ≤ n) : bit 3#64 n = false := by
  rw [bit, BitVec.getLsbD_ofNat, Nat.testBit_lt_two_pow (i := n) (lt_of_lt_of_le (by decide : 3 < 2 ^ 2) (Nat.pow_le_pow_right (by decide) h)),
    Bool.and_false]

theorem bit_ring (c : Ctx) (n : Nat) (h : 2 ≤ n) : bit (p64 c.ring) n = false := by
  rw [bit_p64, Nat.testBit_lt_two_pow (i := n) (lt_of_lt_of_le (lt_of_le_of_lt (ring_le c) (by decide : 3 < 2 ^ 2))
    (Nat.pow_le_pow_right (by decide) h)), Bool.and_false]

/-- Bits of LE without its ring. -/
theorem bit_leAddr (v : Pay) (c : Ctx) (n : Nat) : bit ((v ||| p64 c.ring) &&& ~~~3#64) n = (decide (2 ≤ n) && bit v n) := by
  by_cases hn : 2 ≤ n
  · have hthree := bit_three n hn
    have hring := bit_ring c n hn
    unfold bit at hthree hring ⊢
    rw [BitVec.getLsbD_and, BitVec.getLsbD_or, BitVec.getLsbD_not, hthree, hring, decide_eq_true hn, Bool.true_and, Bool.or_false,
      Bool.not_false, Bool.and_true]
    by_cases h64 : n < 64
    · rw [decide_eq_true h64, Bool.and_true]
    · rw [BitVec.getLsbD_of_ge v n (by omega), Bool.false_and]
  · have hthree : bit 3#64 n = true := by
      obtain rfl | rfl : n = 0 ∨ n = 1 := by omega
      · rfl
      · rfl
    unfold bit at hthree ⊢
    rw [BitVec.getLsbD_and, BitVec.getLsbD_not, hthree, decide_eq_false hn]
    simp

/-- An end slot ahead of a LOOP is not the LOOP's own address. -/
theorem endSlot_ne (pc : Pay) (c : Ctx) (ns : BitVec 16) :
    (((pc + p64 (4 * (ns.toNat + 1))) &&& maskFld 47 2) ||| p64 c.ring) &&& ~~~3#64 ≠ pc := by
  intro h
  have hbits (n : Nat) (h2 : 2 ≤ n) (h47 : n ≤ 47) : bit pc n = bit (pc + p64 (4 * (ns.toNat + 1))) n := by
    have hmask := bit_maskFld 47 2 n (by decide) (by decide)
    rw [← h, bit_leAddr, decide_eq_true h2, Bool.true_and, h]
    unfold bit at hmask ⊢
    rw [BitVec.getLsbD_and, hmask, decide_eq_true ⟨h2, h47⟩, Bool.and_true]
  have hfld : fld pc 47 2 = fld (pc + p64 (4 * (ns.toNat + 1))) 47 2 := by
    apply Nat.eq_of_testBit_eq
    intro i
    rw [testBit_fld, testBit_fld]
    by_cases hi : i < 46
    · rw [hbits (2 + i) (by omega) (by omega)]
    · simp [hi]
  have hns := ns.isLt
  unfold fld nfld at hfld
  rw [BitVec.toNat_add, BitVec.toNat_ofNat, Nat.shiftRight_eq_div_pow, Nat.shiftRight_eq_div_pow] at hfld
  omega

/-- An aligned address with a ring beside it is read back as the two. -/
theorem leAddr_of_good {pc : Pay} (h : goodTarget pc = true) (c : Ctx) : (pc ||| p64 c.ring) &&& ~~~3#64 = pc := by
  simp only [goodTarget, Bool.and_eq_true, decide_eq_true_eq] at h
  obtain ⟨-, hlow⟩ := h
  apply BitVec.eq_of_getLsbD_eq
  intro n _
  have hbit := bit_leAddr pc c n
  unfold bit at hbit
  rw [hbit]
  by_cases hn : 2 ≤ n
  · rw [decide_eq_true hn, Bool.true_and]
  · have hz := testBit_fld pc 1 0 n
    rw [hlow, Nat.zero_testBit, decide_eq_true (by omega), Bool.true_and, Nat.zero_add] at hz
    unfold bit at hz
    rw [decide_eq_false hn, Bool.false_and, hz]

theorem leRing_of_good {pc : Pay} (h : goodTarget pc = true) (c : Ctx) : fld (pc ||| p64 c.ring) 1 0 = c.ring := by
  simp only [goodTarget, Bool.and_eq_true, decide_eq_true_eq] at h
  obtain ⟨-, hlow⟩ := h
  have hring := ring_le c
  apply Nat.eq_of_testBit_eq
  intro i
  have hz := testBit_fld pc 1 0 i
  rw [hlow, Nat.zero_testBit] at hz
  rw [testBit_fld]
  by_cases hi : i < 2
  · rw [decide_eq_true hi, Bool.true_and, Nat.zero_add] at hz ⊢
    have hr := bit_p64 c.ring i
    unfold bit at hz hr ⊢
    rw [BitVec.getLsbD_or, ← hz, hr, decide_eq_true (by omega), Bool.false_or, Bool.true_and]
  · rw [decide_eq_false hi, Bool.false_and]
    exact (Nat.testBit_lt_two_pow (lt_of_lt_of_le (lt_of_le_of_lt hring (by decide : 3 < 2 ^ 2))
      (Nat.pow_le_pow_right (by decide) (by omega)))).symm

/-! ### Opening and counting a level (R177 to R180) -/

section
variable {s : State} {at_ : At}

/-- A context with level 0 set to repeat from `ls` to `le` another `n` times. -/
def Ctx.loopSet (c : Ctx) (ls le n : Pay) : Ctx := ((c.setSp Sr.ls0 ls).setSp Sr.le0 le).setSp Sr.lc0 n

theorem Ctx.sp_loopSet (c : Ctx) (ls le n : Pay) (m : Nat) :
    (c.loopSet ls le n).sp m = if Sr.lc0 = m then n else if Sr.le0 = m then le else if Sr.ls0 = m then ls else c.sp m := by
  rw [Ctx.loopSet, Ctx.sp_setSp, Ctx.sp_setSp, Ctx.sp_setSp]

theorem Ctx.pc_loopSet (c : Ctx) (ls le n : Pay) : (c.loopSet ls le n).pc = c.pc := Ctx.sp_loopSet c ls le n Sr.pc

/-- With no level active, level 0 is the innermost once its count is written. -/
theorem Ctx.innermost_loopSet {c : Ctx} (h : c.innermost = none) (ls le : Pay) {n : Pay} (hn : n ≠ 0) :
    (c.loopSet ls le n).innermost = some 0 := by
  have h2 : (c.loopSet ls le n).sp (Sr.lc0 + 2) = c.sp (Sr.lc0 + 2) := Ctx.sp_loopSet c ls le n _
  have h1 : (c.loopSet ls le n).sp (Sr.lc0 + 1) = c.sp (Sr.lc0 + 1) := Ctx.sp_loopSet c ls le n _
  have h0 : (c.loopSet ls le n).sp Sr.lc0 = n := Ctx.sp_loopSet c ls le n _
  unfold Ctx.innermost at h ⊢
  rw [h2, h1, h0, if_pos hn]
  split at h
  · cases h
  · next hz2 =>
    split at h
    · cases h
    · next hz1 => rw [if_neg hz2, if_neg hz1]

theorem Ctx.leAddr_loopSet (c : Ctx) (ls le n : Pay) : (c.loopSet ls le n).leAddr 0 = le &&& ~~~3#64 :=
  congrArg (· &&& ~~~3#64) (Ctx.sp_loopSet c ls le n Sr.le0)

theorem Ctx.leRing_loopSet (c : Ctx) (ls le n : Pay) : (c.loopSet ls le n).leRing 0 = fld le 1 0 :=
  congrArg (fld · 1 0) (Ctx.sp_loopSet c ls le n Sr.le0)

theorem Ctx.ring_loopSet (c : Ctx) (ls le n : Pay) : (c.loopSet ls le n).ring = c.ring :=
  congrArg (fld · 1 0) (Ctx.sp_loopSet c ls le n Sr.ps)

/-- LOOP with a count other than 0 opens level 0 and goes on (R179). -/
theorem loop_opens (h : s.ready at_ 4 = true) {a : BitVec 5} (ns : BitVec 16) (hform : immForm (s.gr (ctxOf at_) a) = true)
    (hn : fld (s.gr (ctxOf at_) a).pay 31 0 ≠ 0) :
    let c := s.ctx (ctxOf at_)
    ∃ t, exec (.loop at_ a 0 ns) s = .next t ∧ Moved s (ctxOf at_) (c.pc + 4)
      [(Sr.ls0, (c.pc + 4) &&& maskFld 47 2),
       (Sr.le0, ((c.pc + p64 (4 * (ns.toNat + 1))) &&& maskFld 47 2) ||| p64 c.ring), (Sr.lc0, p64 (fld (s.gr (ctxOf at_) a).pay 31 0))] [] t := by
  intro c
  have hr := State.ready_iff s at_ 4 h
  generalize hls : (c.pc + 4) &&& maskFld 47 2 = ls
  generalize hle : ((c.pc + p64 (4 * (ns.toNat + 1))) &&& maskFld 47 2) ||| p64 c.ring = le
  generalize hlc : p64 (fld (s.gr (ctxOf at_) a).pay 31 0) = n
  have hn0 : n ≠ 0 := by
    rw [← hlc]
    intro h0
    have hlt := fld_lt (s.gr (ctxOf at_) a).pay 31 0
    have hz := congrArg BitVec.toNat h0
    rw [p64, BitVec.toNat_ofNat, Nat.mod_eq_of_lt (by omega)] at hz
    exact hn hz
  have hbody := opLoop_checked hr ns hform c.pc
  rw [if_neg hn, State.updCtx_eq] at hbody
  have hu : (s.setCtx (ctxOf at_) (c.loopSet ls le n)).ctx (ctxOf at_) = c.loopSet ls le n := State.ctx_setCtx_self _ _ _
  have hinner := Ctx.innermost_loopSet hr.innermost ls le hn0
  have hend : ∀ j, (c.loopSet ls le n).innermost = some j → (c.loopSet ls le n).leAddr j ∉ slotsOf c.pc 4 := by
    intro j hj
    rw [hinner] at hj
    cases hj
    rw [Ctx.leAddr_loopSet, ← hle]
    simpa [slotsOf] using endSlot_ne c.pc c ns
  have hplain : (c.loopSet ls le n).Plain := ((hr.plain.setSp _ _).setSp _ _).setSp _ _
  have hexec : exec (.loop at_ a 0 ns) s = .next ((s.setCtx (ctxOf at_) (c.loopSet ls le n)).retire (ctxOf at_) (slotsOf c.pc 4) (c.pc + 4) none) := by
    refine issue_seq h false (u := s.setCtx (ctxOf at_) (c.loopSet ls le n)) ((rowX_checked 0x24 rfl (fun pc => opLoop pc a ns) c.pc).trans
      (hbody.trans ?_)) (by rw [hu]; exact hplain.loads) (by rw [hu]; exact hend) hr.calm rfl
    rw [← hls, ← hle, ← hlc]
    rfl
  obtain ⟨-, hctx, -⟩ := State.retire_seq (s.setCtx (ctxOf at_) (c.loopSet ls le n)) (ctxOf at_) (slotsOf c.pc 4) (c.pc + 4)
    (by rw [hu]; exact hplain.loads) (by rw [hu]; exact hend)
  have hwithin := (within_setCtx s (ctxOf at_) (c.loopSet ls le n)).trans (within_retire _ (ctxOf at_) (slotsOf c.pc 4) (c.pc + 4) none)
  rw [hu, hplain.marked_setPc] at hctx
  refine ⟨_, hexec, hwithin.moved ?_ ?_ ?_ ?_⟩
  · rw [hctx]; rfl
  · rw [hctx, Ctx.pc_retired]
  · intro e he
    simp only [List.mem_cons, List.not_mem_nil, or_false] at he
    rw [hctx, Ctx.sp_retired, Ctx.sp_loopSet]
    rcases he with rfl | rfl | rfl <;> rfl
  · intro m hm hne
    simp only [List.map_cons, List.map_nil, List.mem_cons, List.not_mem_nil, or_false, not_or] at hne
    obtain ⟨hls0, hle0, hlc0⟩ := hne
    rw [hctx, Ctx.sp_retired, if_neg (Ne.symm hm), Ctx.sp_loopSet, if_neg (Ne.symm hlc0), if_neg (Ne.symm hle0), if_neg (Ne.symm hls0)]

/-- An instruction in the end slot of level 0 counts the level down, or closes it (R180). -/
theorem Ctx.endAction_loopSet {c : Ctx} (hi : c.innermost = none) (ls : Pay) {n : Pay} (hn : n ≠ 0) (hgood : goodTarget c.pc = true) (next : Pay) :
    ∀ e : Ctx, e.sr = (c.loopSet ls (c.pc ||| p64 c.ring) n).sr →
      e.endAction [c.pc] next = (e.setSp Sr.lc0 (if 1#64 < n then n - 1 else 0)).setPc (if 1#64 < n then ls else next) := by
  intro e he
  have hinner : e.innermost = some 0 := (Ctx.innermost_congr he).trans (Ctx.innermost_loopSet hi ls _ hn)
  have haddr : e.leAddr 0 = c.pc := (Ctx.leAddr_congr he 0).trans ((Ctx.leAddr_loopSet c ls _ n).trans (leAddr_of_good hgood c))
  have hring : e.leRing 0 = e.ring := by
    rw [Ctx.leRing, Ctx.ring, Ctx.sp_congr he, Ctx.sp_congr he]
    exact (Ctx.leRing_loopSet c ls _ n).trans ((leRing_of_good hgood c).trans (Ctx.ring_loopSet c ls _ n).symm)
  have hcount : e.sp Sr.lc0 = n := (Ctx.sp_congr he _).trans (Ctx.sp_loopSet c ls _ n Sr.lc0)
  have hstart : e.sp Sr.ls0 = ls := (Ctx.sp_congr he _).trans (Ctx.sp_loopSet c ls _ n Sr.ls0)
  rw [Ctx.endAction, hinner]
  simp only [haddr, hring, List.contains_cons, BEq.rfl, Bool.true_or, true_and, if_true, Ctx.endLevel, hcount, hstart, gt_iff_lt]
  split <;> rfl

/-- A NOP in the end slot of level 0 (R180). -/
theorem loop_counts (h : s.ready at_ 4 = true) (ls : Pay) {n : Pay} (hn : n ≠ 0) (hgood : goodTarget (s.ctx (ctxOf at_)).pc = true) :
    let c := s.ctx (ctxOf at_)
    let u := s.setCtx (ctxOf at_) (c.loopSet ls (c.pc ||| p64 c.ring) n)
    u.fetches (ctxOf at_) c.pc = true →
    ∃ t, exec (.nop at_ {}) u = .next t ∧
      Moved u (ctxOf at_) (if 1#64 < n then ls else c.pc + 4) [(Sr.lc0, if 1#64 < n then n - 1 else 0)] [] t := by
  intro c u hf
  have hr := State.ready_iff s at_ 4 h
  have hu : u.ctx (ctxOf at_) = c.loopSet ls (c.pc ||| p64 c.ring) n := State.ctx_setCtx_self _ _ _
  have hpc : (u.ctx (ctxOf at_)).pc = c.pc := by rw [hu, Ctx.pc_loopSet]
  have hissuable : Issuable u at_ 4 :=
    hr.issuable_setCtx rfl (Ctx.pc_loopSet _ _ _ _) (Ctx.sp_loopSet c ls _ n Sr.winb) (Ctx.sp_loopSet c ls _ n Sr.ps) hf
  have hexec := nop_retires hissuable
  have hloads : (u.ctx (ctxOf at_)).loads = [] := by rw [hu]; exact hr.loads
  have hctx := State.ctx_retire u (ctxOf at_) [c.pc] (c.pc + 4)
  obtain ⟨hsr, hregs, -⟩ := Ctx.marked_same (u.ctx (ctxOf at_))
  rw [State.ctx_landLoads_empty u _ hloads, Ctx.endAction_loopSet hr.innermost ls hn hgood _ _ (hsr.trans (by rw [hu]))] at hctx
  rw [hpc] at hexec
  refine ⟨_, hexec, (within_retire u (ctxOf at_) _ _ none).moved ?_ ?_ ?_ ?_⟩
  · rw [hctx]; exact hregs
  · rw [hctx, Ctx.pc_setPc]
  · intro e he
    rw [List.mem_singleton] at he
    subst he
    rw [hctx, Ctx.setPc, Ctx.sp_setSp, if_neg (show Sr.pc ≠ Sr.lc0 by decide), Ctx.sp_setSp_self]
  · intro m hm hne
    simp only [List.map_cons, List.map_nil, List.mem_singleton] at hne
    rw [hctx, Ctx.setPc, Ctx.sp_setSp, if_neg (Ne.symm hm), Ctx.sp_setSp, if_neg (Ne.symm hne)]
    exact Ctx.sp_congr hsr m

end

/-- Settles O18: LOOP writes level 0 and its end slot lies ahead of it, so it retires in sequence; a NOP in the end slot retires
with the level's end action. -/
theorem hardwareLoops : Obligations.HardwareLoops := by
  intro s at_ x c h
  refine ⟨fun a ns hform hn => loop_opens h ns hform hn, ?_⟩
  rintro ls n u hn hgood rfl hf
  exact loop_counts h ls hn hgood hf

end Sys2Proof.Machine
end

section
/-!
PROOFS. Register windows and MOVWB (O23).
-/
namespace Sys2Proof.Machine

section
variable {s : State} {at_ : At}

/-! ### Rows that leave the machine within their context and go on -/

theorem Within.calm {t : State} {x : Nat} (h : Within s x t) : t.calm = s.calm := h.toNear.calm

theorem Within.pending {t : State} {x : Nat} (h : Within s x t) : t.pending = s.pending := h.toNear.pending

/-- A ready instruction whose body stays within its context, and leaves it with nothing begun and no loop active, retires there. -/
theorem issue_leaves {size : Nat} (h : s.ready at_ size = true) (long : Bool) {body : Pay → X Flow} {u : State}
    (hb : body (s.ctx (ctxOf at_)).pc (startRun s at_) = .ok .seq { startRun s at_ with s := u }) (hu : Within s (ctxOf at_) u)
    (hp : (u.ctx (ctxOf at_)).Plain) (hi : (u.ctx (ctxOf at_)).innermost = none) :
    ∃ t, fin s (issue at_ size long body s) = .next t ∧ Within s (ctxOf at_) t ∧
      t.ctx (ctxOf at_) = (u.ctx (ctxOf at_)).retired ((s.ctx (ctxOf at_)).pc + p64 size) := by
  have hr := State.ready_iff s at_ size h
  have hend : ∀ j, (u.ctx (ctxOf at_)).innermost = some j → (u.ctx (ctxOf at_)).leAddr j ∉ slotsOf (s.ctx (ctxOf at_)).pc size := by
    intro j hj
    rw [hi] at hj
    cases hj
  obtain ⟨-, hctx, -⟩ := State.retire_seq u (ctxOf at_) (slotsOf (s.ctx (ctxOf at_)).pc size) ((s.ctx (ctxOf at_)).pc + p64 size) hp.loads hend
  refine ⟨_, issue_seq h long hb hp.loads hend (hu.calm.trans hr.calm) hu.pending, hu.trans (within_retire u _ _ _ none), ?_⟩
  rw [hctx, hp.marked_setPc]

/-- The same of a format R row. -/
theorem rowR_leaves {f : RF} {maj min : Nat} {m : Meta} {long : Bool} {body : Pay → X Flow} {u : State} (hm : rMeta maj min = some m)
    (hrsv : m.rsvR f = true) (hring : (s.ctx (ctxOf at_)).ring ≤ m.ringMax) (h : s.ready at_ 4 = true)
    (hb : body (s.ctx (ctxOf at_)).pc (startRun s at_) = .ok .seq { startRun s at_ with s := u }) (hu : Within s (ctxOf at_) u)
    (hp : (u.ctx (ctxOf at_)).Plain) (hi : (u.ctx (ctxOf at_)).innermost = none) :
    ∃ t, fin s (s.rowR at_ f maj min long body) = .next t ∧ Within s (ctxOf at_) t ∧
      t.ctx (ctxOf at_) = (u.ctx (ctxOf at_)).retired ((s.ctx (ctxOf at_)).pc + 4) :=
  issue_leaves h long ((rowR_checked (State.ready_iff s at_ 4 h) hm hrsv hring body _).trans hb) hu hp hi

/-! ### The window register and the banks (R226, R229, R242) -/

/-- A context with another window register. -/
theorem Ctx.innermost_setWinb (c : Ctx) (v : Pay) : (c.setSp Sr.winb v).innermost = c.innermost := by
  have hsp (n : Nat) (hn : Sr.winb ≠ n) : (c.setSp Sr.winb v).sp n = c.sp n := by rw [Ctx.sp_setSp, if_neg hn]
  unfold Ctx.innermost
  rw [hsp _ (by decide), hsp _ (by decide), hsp _ (by decide)]

theorem Ctx.sp_setHome (c : Ctx) (h n : Nat) : (c.setHome h).sp n = if Sr.winb = n then setFld (c.sp Sr.winb) 26 24 h else c.sp n :=
  Ctx.sp_setSp c Sr.winb n _

theorem Ctx.sp_setTb (c : Ctx) (b : Bool) (n : Nat) : (c.setTb b).sp n = if Sr.winb = n then setBit (c.sp Sr.winb) 31 b else c.sp n :=
  Ctx.sp_setSp c Sr.winb n _

theorem Ctx.home_setHome (c : Ctx) {h : Nat} (hh : h < 7) : (c.setHome h).home = h := by
  rw [Ctx.home, Ctx.sp_setHome, if_pos rfl, fld_setFld_self _ _ _ _ (by decide) (by decide), Nat.mod_eq_of_lt (by omega)]

theorem Ctx.old_setHome (c : Ctx) (h : Nat) : (c.setHome h).old = c.old := by
  rw [Ctx.old, Ctx.sp_setHome, if_pos rfl, fld_setFld_disjoint _ _ _ _ _ _ (by decide) (by decide) (by decide), Ctx.old]

theorem Ctx.home_setTb (c : Ctx) (b : Bool) : (c.setTb b).home = c.home := by
  rw [Ctx.home, Ctx.sp_setTb, if_pos rfl, fld_setBit_disjoint _ _ _ _ _ (by decide) (by decide), Ctx.home]

theorem Ctx.old_setTb (c : Ctx) (b : Bool) : (c.setTb b).old = c.old := by
  rw [Ctx.old, Ctx.sp_setTb, if_pos rfl, fld_setBit_disjoint _ _ _ _ _ (by decide) (by decide), Ctx.old]

theorem Ctx.tb_setTb (c : Ctx) (b : Bool) : (c.setTb b).tb = b := by
  rw [Ctx.tb, Ctx.sp_setTb, if_pos rfl, bit_setBit_self _ _ _ (by decide)]

/-- The window fields depend on WINB alone. -/
theorem Ctx.window_congr {c e : Ctx} (h : e.sp Sr.winb = c.sp Sr.winb) :
    e.home = c.home ∧ e.old = c.old ∧ e.tb = c.tb ∧ e.bank = c.bank := by
  refine ⟨?_, ?_, ?_, Ctx.bank_congr h⟩
  · rw [Ctx.home, h, Ctx.home]
  · rw [Ctx.old, h, Ctx.old]
  · rw [Ctx.tb, h, Ctx.tb]

theorem Ctx.window_retired (c : Ctx) (next : Pay) :
    (c.retired next).home = c.home ∧ (c.retired next).old = c.old ∧ (c.retired next).tb = c.tb ∧ (c.retired next).bank = c.bank :=
  Ctx.window_congr ((Ctx.sp_retired c next Sr.winb).trans (if_neg (by decide)))

theorem Tbl.look_filter {α : Type} (p : Nat → Bool) (t : Tbl α) (k : Nat) :
    Tbl.look (t.filter (fun e => p e.1)) k = if p k then Tbl.look t k else none := by
  induction t with
  | nil => simp [Tbl.look]
  | cons e t ih =>
    obtain ⟨i, v⟩ := e
    rw [Tbl.look]
    by_cases hk : i = k
    · subst hk
      by_cases hp : p i = true
      · rw [List.filter_cons_of_pos (by simpa using hp), Tbl.look, if_pos rfl, if_pos rfl, if_pos hp]
      · rw [List.filter_cons_of_neg (by simpa using hp), ih, if_neg hp, if_neg hp]
    · by_cases hp : p i = true
      · rw [List.filter_cons_of_pos (by simpa using hp), Tbl.look, if_neg hk, if_neg hk, ih]
      · rw [List.filter_cons_of_neg (by simpa using hp), if_neg hk, ih]

/-- A bank cleared reads NIL, and the other registers as before (R229). -/
theorem Ctx.rdKey_clearBank (c : Ctx) (b k : Nat) :
    (c.clearBank b).rdKey k = if 16 + 16 * b ≤ k ∧ k < 32 + 16 * b then Word.nil else c.rdKey k := by
  have hlook := Tbl.look_filter (fun n => !decide (16 + 16 * b ≤ n ∧ n < 32 + 16 * b)) c.regs k
  have hregs : (c.clearBank b).regs = c.regs.filter (fun e => !decide (16 + 16 * b ≤ e.1 ∧ e.1 < 32 + 16 * b)) := rfl
  unfold Ctx.rdKey Tbl.get
  rw [hregs, hlook]
  by_cases hin : 16 + 16 * b ≤ k ∧ k < 32 + 16 * b
  · simp [hin]
  · simp [hin]

/-! ### CALLW and RETW (R229, R230) -/

/-- The context after CALLW. -/
def Ctx.callw (c : Ctx) : Ctx := ((c.setHome ((c.home + 1) % 7)).setTb false).clearBank ((c.home + 1) % 7)

theorem Ctx.plain_callw {c : Ctx} (h : c.Plain) : c.callw.Plain :=
  have := (h.setSp Sr.winb (setFld (c.sp Sr.winb) 26 24 ((c.home + 1) % 7))).setSp Sr.winb
    (setBit ((c.setHome ((c.home + 1) % 7)).sp Sr.winb) 31 false)
  ⟨this.run, this.slot, this.grants, this.obs, this.inflight, this.loads, this.stepping⟩

theorem Ctx.innermost_callw (c : Ctx) : c.callw.innermost = c.innermost :=
  (Ctx.innermost_congr (c := c.callw) (e := (c.setHome ((c.home + 1) % 7)).setTb false) rfl).trans
    ((Ctx.innermost_setWinb _ _).trans (Ctx.innermost_setWinb _ _))

/-- The fields of the context after CALLW. -/
theorem Ctx.window_callw (c : Ctx) : c.callw.home = (c.home + 1) % 7 ∧ c.callw.old = c.old ∧ c.callw.tb = false := by
  obtain ⟨hhome, hold, htb, -⟩ := Ctx.window_congr (c := (c.setHome ((c.home + 1) % 7)).setTb false) (e := c.callw) rfl
  refine ⟨?_, ?_, ?_⟩
  · rw [hhome, Ctx.home_setTb, Ctx.home_setHome c (Nat.mod_lt _ (by decide))]
  · rw [hold, Ctx.old_setTb, Ctx.old_setHome]
  · rw [htb, Ctx.tb_setTb]

theorem Ctx.rdKey_callw (c : Ctx) (k : Nat) :
    c.callw.rdKey k =
      if 16 + 16 * ((c.home + 1) % 7) ≤ k ∧ k < 32 + 16 * ((c.home + 1) % 7) then Word.nil else c.rdKey k :=
  Ctx.rdKey_clearBank _ _ _

/-- The machine after CALLW's body. -/
def State.callw (s : State) (x : Nat) : State :=
  let u := s.setCtx x (s.ctx x).callw
  if u.isTight x then
    u.sign (twinOf x) ((List.range 16).flatMap (fun r => signReg x (16 + r) (((s.ctx x).home + 1) % 7) Word.nil)) else u

theorem State.within_callw (s : State) (x : Nat) : Within s x (s.callw x) ∧ (s.callw x).ctx x = (s.ctx x).callw := by
  unfold State.callw
  dsimp only
  split
  · refine ⟨(within_setCtx s x _).trans (within_sign _ x _), ?_⟩
    rw [(State.sign_near _ x _).2.1, State.ctx_setCtx_self]
  · exact ⟨within_setCtx s x _, State.ctx_setCtx_self _ _ _⟩

theorem opCallw_run (h : (s.ctx (ctxOf at_)).nres ≠ 7) :
    opCallw (startRun s at_) = .ok .seq { startRun s at_ with s := s.callw (ctxOf at_) } := by
  unfold opCallw
  refine (X.bind_ok (X.ctx_run _) _).trans ((X.bind_ok (X.ctxNo_run _) _).trans ?_)
  refine (X.check_passed h).trans ?_
  rw [State.callw, ← State.updCtx_eq]
  rfl

theorem callw_run (h : s.ready at_ 4 = true) (hn : (s.ctx (ctxOf at_)).nres ≠ 7) :
    ∃ t, exec (.callw at_ {}) s = .next t ∧ Within s (ctxOf at_) t ∧
      t.ctx (ctxOf at_) = (s.ctx (ctxOf at_)).callw.retired ((s.ctx (ctxOf at_)).pc + 4) := by
  have hr := State.ready_iff s at_ 4 h
  obtain ⟨hwithin, hctx⟩ := State.within_callw s (ctxOf at_)
  have hrow := rowR_leaves (long := false) (body := fun _ => opCallw) (f := {}) (maj := 0x27) (min := 0) rfl rfl (ring_le _) h
    (opCallw_run hn) hwithin (by rw [hctx]; exact Ctx.plain_callw hr.plain) (by rw [hctx, Ctx.innermost_callw, hr.innermost])
  rw [hctx] at hrow
  exact hrow

theorem opRetw_run (htb : (s.ctx (ctxOf at_)).tb = false) (hn : (s.ctx (ctxOf at_)).nres ≠ 1) :
    opRetw (startRun s at_) = .ok .seq { startRun s at_ with
      s := s.setCtx (ctxOf at_) ((s.ctx (ctxOf at_)).setHome (((s.ctx (ctxOf at_)).home + 6) % 7)) } := by
  unfold opRetw
  refine (X.bind_ok (X.ctx_run _) _).trans ?_
  refine (X.check_passed (by rw [show ((startRun s at_).s.ctx (startRun s at_).x).tb = false from htb]; decide)).trans ?_
  refine (X.check_passed hn).trans ?_
  exact X.bind_ok (X.updCtx_run _ _) _

theorem retw_run (h : s.ready at_ 4 = true) (htb : (s.ctx (ctxOf at_)).tb = false) (hn : (s.ctx (ctxOf at_)).nres ≠ 1) :
    ∃ t, exec (.retw at_ {}) s = .next t ∧ Within s (ctxOf at_) t ∧
      t.ctx (ctxOf at_) = ((s.ctx (ctxOf at_)).setHome (((s.ctx (ctxOf at_)).home + 6) % 7)).retired ((s.ctx (ctxOf at_)).pc + 4) := by
  have hr := State.ready_iff s at_ 4 h
  have hctx : (s.setCtx (ctxOf at_) ((s.ctx (ctxOf at_)).setHome (((s.ctx (ctxOf at_)).home + 6) % 7))).ctx (ctxOf at_) =
      (s.ctx (ctxOf at_)).setHome (((s.ctx (ctxOf at_)).home + 6) % 7) := State.ctx_setCtx_self _ _ _
  have hrow := rowR_leaves (long := false) (body := fun _ => opRetw) (f := {}) (maj := 0x27) (min := 1) rfl rfl (ring_le _) h
    (opRetw_run htb hn) (within_setCtx _ _ _) (by rw [hctx]; exact hr.plain.setSp _ _)
    (by rw [hctx]; exact (Ctx.innermost_setWinb _ _).trans hr.innermost)
  rw [hctx] at hrow
  exact hrow

/-! ### MOVWB (R244) -/

theorem X.writable_ok {w : Word} (h : isReservedTag w.tag = false) (r : Run) : X.writable w r = .ok () r := by
  unfold X.writable
  exact X.check_passed (by rw [h]; decide)

theorem movwb_rsv {f : RF} (hb : f.b = 0) (hr : f.rsv = 0) (min : Nat) : (metaR 0x27 min).da.priv.rsvR f = true := by
  simp [Meta.rsvR, Meta.da, Meta.priv, metaR, hb, hr]

theorem movwbF_wrote {f : RF} (h : s.ready at_ 4 = true) (hb : f.b = 0) (hrsv : f.rsv = 0) (hring : (s.ctx (ctxOf at_)).ring ≤ 1) :
    let c := s.ctx (ctxOf at_)
    let w := (s.ctx (ctxOf at_ / 4 * 4 + c.sctx)).rdKey (regKey c.sbank f.a)
    isReservedTag w.tag = false → ∃ t, exec (.movwbF at_ f) s = .next t ∧ WroteReg s (ctxOf at_) 4 f.d w t := by
  intro c w hw
  have hbody : opMovwbF f.d f.a (startRun s at_) = .ok .seq { startRun s at_ with s := s.wrReg (ctxOf at_) f.d w } := by
    unfold opMovwbF
    refine (X.bind_ok (X.ctx_run _) _).trans ((X.bind_ok (X.ctxNo_run _) _).trans ((X.bind_ok (X.st_run _) _).trans ?_))
    exact X.bind_ok (X.writable_ok hw (startRun s at_)) _
  exact issue_wrote h false _ f.d w ((rowR_checked (State.ready_iff s at_ 4 h) (rfl : rMeta 0x27 4 = _) (movwb_rsv hb hrsv 4) hring
    (fun _ => opMovwbF f.d f.a) c.pc).trans hbody)

theorem opMovwbT_run {d a : BitVec 5} (hw : isReservedTag (s.gr (ctxOf at_) a).tag = false) :
    opMovwbT d a (startRun s at_) = .ok .seq { startRun s at_ with
      s := s.wrRegBank (ctxOf at_ / 4 * 4 + (s.ctx (ctxOf at_)).sctx) d (s.ctx (ctxOf at_)).sbank (s.gr (ctxOf at_) a) } := by
  unfold opMovwbT
  refine (X.bind_ok (X.ctx_run _) _).trans ((X.bind_ok (X.ctxNo_run _) _).trans ((X.bind_ok (X.rd_run _ a) _).trans ?_))
  exact X.bind_ok (X.writable_ok hw (startRun s at_)) _

/-- A register write by bank at one context, seen from any context. -/
theorem State.ctx_wrRegBank_any (s : State) (y z : Nat) (d : BitVec 5) (bank : Nat) (w : Word) :
    (s.wrRegBank y d bank w).ctx z = if z = y then (s.ctx y).wrKey (regKey bank d) w else s.ctx z := by
  by_cases hz : z = y
  · rw [if_pos hz, hz, State.ctx_wrRegBank]
  · rw [if_neg hz, (within_wrRegBank s y d bank w).others z hz]

/-- A register written in another bank or context leaves a context that differs in registers only. -/
theorem Ctx.wrKey_same (c : Ctx) (k : Nat) (w : Word) : c.wrKey k w = { c with regs := (c.wrKey k w).regs } := by
  unfold Ctx.wrKey
  split <;> rfl

theorem movwbT_wrote {f : RF} (h : s.ready at_ 4 = true) (hb : f.b = 0) (hrsv : f.rsv = 0) (hring : (s.ctx (ctxOf at_)).ring ≤ 1)
    (hw : isReservedTag (s.gr (ctxOf at_) f.a).tag = false) :
    let x := ctxOf at_
    let c := s.ctx x
    let y := x / 4 * 4 + c.sctx
    ∃ t, exec (.movwbT at_ f) s = .next t ∧ t = { s with ctxs := t.ctxs, twins := t.twins } ∧
      (f.d ≠ 0 → (t.ctx y).rdKey (regKey c.sbank f.d) = s.gr x f.a) ∧
      (∀ k, k ≠ regKey c.sbank f.d → (t.ctx y).rdKey k = (s.ctx y).rdKey k) ∧
      (∀ z, z ≠ x → z ≠ y → t.ctx z = s.ctx z) ∧ (t.ctx x).pc = c.pc + 4 := by
  intro x c y
  have hr := State.ready_iff s at_ 4 h
  generalize hu : s.wrRegBank y f.d c.sbank (s.gr x f.a) = u
  have hctx (z : Nat) : u.ctx z = if z = y then (s.ctx y).wrKey (regKey c.sbank f.d) (s.gr x f.a) else s.ctx z := by
    rw [← hu]; exact State.ctx_wrRegBank_any s y z f.d c.sbank _
  have hwithin : Within s y u := by rw [← hu]; exact within_wrRegBank s y f.d c.sbank _
  have hown : u.ctx x = { c with regs := (u.ctx x).regs } := by
    rw [hctx]
    split
    · next hxy => rw [← hxy]; exact Ctx.wrKey_same _ _ _
    · rfl
  have hplain : (u.ctx x).Plain := by
    rw [hown]
    exact ⟨hr.run, hr.slot, hr.grants, hr.obs, hr.inflight, hr.loads, hr.stepping⟩
  have hend := hr.noLoopEnd (u := u) (by rw [hown]) (slotsOf c.pc 4)
  have hbody : opMovwbT f.d f.a (startRun s at_) = .ok .seq { startRun s at_ with s := u } := by rw [← hu]; exact opMovwbT_run hw
  obtain ⟨-, hretired, -⟩ := State.retire_seq u x (slotsOf c.pc 4) (c.pc + 4) hplain.loads hend
  rw [hplain.marked_setPc] at hretired
  have hretire := within_retire u x (slotsOf c.pc 4) (c.pc + 4) none
  have hexec : exec (.movwbT at_ f) s = .next (u.retire x (slotsOf c.pc 4) (c.pc + 4) none) :=
    issue_seq h false ((rowR_checked hr (rfl : rMeta 0x27 5 = _) (movwb_rsv hb hrsv 5) hring (fun _ => opMovwbT f.d f.a) c.pc).trans hbody)
      hplain.loads hend (hwithin.calm.trans hr.calm) hwithin.pending
  generalize u.retire x (slotsOf c.pc 4) (c.pc + 4) none = t at hexec hretired hretire
  have hregs (z : Nat) : (t.ctx z).regs = (u.ctx z).regs := by
    by_cases hz : z = x
    · rw [hz, hretired]; rfl
    · rw [hretire.others z hz]
  have hy : u.ctx y = (s.ctx y).wrKey (regKey c.sbank f.d) (s.gr x f.a) := (hctx y).trans (if_pos rfl)
  refine ⟨t, hexec, by rw [hretire.rest, hwithin.rest], ?_, ?_, ?_, ?_⟩
  · intro hd
    rw [Ctx.rdKey_congr (hregs y), hy, Ctx.rdKey_wrKey, if_neg (regKey_ne_zero _ hd), if_pos rfl]
  · intro k hk
    rw [Ctx.rdKey_congr (hregs y), hy, Ctx.rdKey_wrKey, if_neg (Ne.symm hk)]
    split
    · next h0 => rw [h0]; rfl
    · rfl
  · intro z hzx hzy
    rw [hretire.others z hzx, hctx, if_neg hzy]
  · rw [hretired, Ctx.pc_retired]

end

/-- Settles O23: CALLW and RETW turn WINB, and the bank that CALLW enters is cleared; MOVWB moves one register by its bank's key. -/
theorem registerWindows : Obligations.RegisterWindows := by
  intro s at_ f x c h y hready hb hrsv
  refine ⟨?_, ?_, ?_⟩
  · intro hn
    obtain ⟨t, hexec, hwithin, hctx⟩ := callw_run hready hn
    obtain ⟨hhome, hold, htb, hbank⟩ := Ctx.window_retired c.callw (c.pc + 4)
    obtain ⟨hcHome, hcOld, hcTb⟩ := Ctx.window_callw c
    have hrd (k : Nat) : (t.ctx x).rdKey k = c.callw.rdKey k := by rw [hctx]; rfl
    refine ⟨t, hexec, hwithin.onlyCtx hctx rfl, by rw [hctx, hhome, hcHome], by rw [hctx, htb, hcTb], by rw [hctx, hold, hcOld], ?_, ?_, ?_⟩
    · intro r hr16
      have hb : (t.ctx x).bank = h := by rw [hctx, hbank, Ctx.bank, hcTb, if_neg (by decide), hcHome]
      have hlt := r.isLt
      show (t.ctx x).rdKey (regKey (t.ctx x).bank r) = Word.nil
      rw [hrd, hb, regKey, if_neg (by omega), Ctx.rdKey_callw, if_pos (by omega)]
    · intro k hk
      rw [hrd, Ctx.rdKey_callw, if_neg (by omega)]
    · rw [hctx, Ctx.pc_retired]
  · intro htb hn
    obtain ⟨t, hexec, hwithin, hctx⟩ := retw_run hready htb hn
    obtain ⟨hhome, hold, -, -⟩ := Ctx.window_retired (c.setHome ((c.home + 6) % 7)) (c.pc + 4)
    refine ⟨t, hexec, hwithin.onlyCtx hctx rfl, ?_, ?_, ?_, ?_⟩
    · rw [hctx, hhome, Ctx.home_setHome c (Nat.mod_lt _ (by decide))]
    · rw [hctx, hold, Ctx.old_setHome]
    · intro k; rw [hctx]; rfl
    · rw [hctx, Ctx.pc_retired]
  · intro hring
    exact ⟨fun hw => movwbF_wrote hready hb hrsv hring hw, fun hw => movwbT_wrote hready hb hrsv hring hw⟩

end Sys2Proof.Machine
end

section
/-!
PROOFS. Repeats (O26).
-/
namespace Sys2Proof.Machine

/-! ### A fetch that goes through, at any address and in any run -/

section
variable {r : Run}

theorem X.fetchWait_undisturbed {k pa : Nat} (h : Undisturbed r) (pc : Pay)
    (hf : ((Tbl.look (r.s.core k).l1i (r.s.key k pa / 64)).isSome
      || (!r.s.loosened r.x pa && (r.s.missOf k pa).isNone && r.s.missRoom k true && r.s.canSend k pa .fetch 64)) = true) :
    X.fetchWait .clean k pa pc r = .ok () r := by
  unfold X.fetchWait
  rw [X.bind_ok (X.grant_none h)]
  show (X.st >>= _) r = _
  rw [X.bind_ok (X.st_run r), X.bind_ok (X.ctxNo_run r)]
  by_cases hhit : (Tbl.look (r.s.core k).l1i (r.s.key k pa / 64)).isSome = true
  · simp [hhit]
  · simp only [Bool.or_eq_true, Bool.and_eq_true, Option.isNone_iff_eq_none, Bool.not_eq_true'] at hf
    obtain ⟨⟨⟨hown, hmiss⟩, hroom⟩, hsend⟩ := hf.resolve_left hhit
    simp [hhit, hown, hmiss, hroom, hsend]

theorem X.fetchErrors_undisturbed {k pa : Nat} (h : r.s.poisoned (r.s.key k pa / 64) = false) : X.fetchErrors .clean k pa r = .ok () r := by
  unfold X.fetchErrors
  rw [X.bind_ok (X.st_run r)]
  simp [X.cacheErrors, h]

/-- The ranges that a fetch reaches memory in (R37, R39, R46). -/
def fetchable (k : Nat) (g : Region) : Bool :=
  match g with
  | .dram | .staging | .jnv | .rom => true
  | .keep => keepSource k
  | _ => false

theorem X.fetchRegion_undisturbed {k pa : Nat} (pc : Pay) (h : fetchable k (r.s.region pa) = true) : X.fetchRegion k pa pc r = .ok () r := by
  unfold X.fetchRegion
  rw [X.bind_ok (X.st_run r)]
  generalize r.s.region pa = g at h ⊢
  cases g with
  | keep =>
    rw [fetchable] at h
    simp [h]
  | dram | staging | jnv | rom => rfl
  | unmapped | dev | pcie => cases h

/-- An undisturbed fetch of an address that a fetch goes through at changes nothing. -/
theorem X.fetch_undisturbed {pc : Pay} (h : Undisturbed r) (hc : r.at_.fetch = .clean) (hf : r.s.fetches r.x pc = true) :
    X.fetch pc r = .ok () r := by
  unfold State.fetches at hf
  generalize ht : r.s.translate r.x (r.s.ctx r.x).ring .fetch pc = q at hf
  cases q with
  | error e => cases hf
  | ok tr =>
    simp only [Bool.and_eq_true, Bool.not_eq_true'] at hf
    obtain ⟨⟨⟨⟨hregion, hpoison⟩, hsweep⟩, hwait⟩, hfill⟩ := hf
    have hregion : fetchable (r.s.coreOf r.x) (r.s.region tr.pa) = true := hregion
    unfold X.fetch
    rw [X.bind_ok (X.ctx_run r), X.bind_ok (X.core_run r), X.bind_ok (X.get_run r)]
    simp only [hc, reduceCtorEq, if_false]
    rw [X.bind_ok (X.lookup_fetch _ _ _ _ ht hsweep), X.bind_ok (X.fetchRegion_undisturbed pc hregion),
      X.bind_ok (X.fetchWait_undisturbed h pc hwait), X.bind_ok (show X.fetchRespond .clean tr.pa pc r = .ok () r from rfl),
      X.bind_ok (X.st_run r)]
    have hfilled : (do
        let s ← X.st
        if tr.cache && !s.loosened (← X.ctxNo) tr.pa then X.fetchFill (r.s.coreOf r.x) (s.key (r.s.coreOf r.x) tr.pa / 64)
        else pure () : X Unit) r = .ok () r := by
      rw [X.bind_ok (X.st_run r), X.bind_ok (X.ctxNo_run r)]
      split
      · next hcache =>
        rw [Bool.and_eq_true] at hcache
        rw [hcache.1, Bool.not_true, Bool.false_or] at hfill
        exact X.fetchFill_same r _ _ hfill
      · rfl
    generalize hg : r.s.region tr.pa = g at hregion
    cases g with
    | dev | pcie | unmapped => cases hregion
    | dram | staging | jnv | rom | keep => exact (X.bind_ok (X.fetchErrors_undisturbed hpoison) _).trans hfilled

end

/-! ### The context while its instruction runs -/

section
variable {s t : State} {x : Nat}

/-- The exceptions that a context takes do not look at what an element leaves of it. -/
theorem Within.async (h : Within s x t) {c : Ctx} (hctx : t.ctx x = c)
    (hc : c = { s.ctx x with regs := c.regs, sr := c.sr, fresh := c.fresh }) (hw : c.sp Sr.winb = (s.ctx x).sp Sr.winb)
    (hps : c.sp Sr.ps = (s.ctx x).sp Sr.ps) : t.async x = s.async x := by
  have htb : c.tb = (s.ctx x).tb := by rw [Ctx.tb, hw]; rfl
  have hie : c.ie = (s.ctx x).ie := by rw [Ctx.ie, hps]; rfl
  have hloads : c.loads = (s.ctx x).loads := by rw [hc]
  have hmcs : c.mcs = (s.ctx x).mcs := by rw [hc]
  have hsbes : c.sbes = (s.ctx x).sbes := by rw [hc]
  have hlines : c.lines = (s.ctx x).lines := by rw [hc]
  have hloose : t.isLoose x = s.isLoose x := by rw [State.isLoose, h.twin]; rfl
  have hsentinel : t.sentinelCtx = s.sentinelCtx := by rw [h.rest]; rfl
  have htwin : t.twinEventPending = s.twinEventPending := by rw [h.rest]; rfl
  unfold State.async Ctx.admits State.isSentinelCtx
  rw [hctx, hloose, hsentinel, htwin]
  dsimp only
  rw [htb, hie, hloads, hmcs, hsbes, hlines]

end

/-! ### REP (R190 to R195) -/

section
variable {s : State} {at_ : At}

theorem Ready.atLoopEnd {size : Nat} (h : Ready s at_ size) (pc : Pay) : (s.ctx (ctxOf at_)).atLoopEnd pc = false := by
  rw [Ctx.atLoopEnd, h.innermost]

theorem X.fetchMeets_clean {size : Nat} (h : Ready s at_ size) : X.fetchMeets .clean (startRun s at_) = .ok () (startRun s at_) := by
  have hat : ({ at_ with fetch := .clean } : At) = at_ := by rw [← h.fetch]
  show EStateM.Result.ok () { startRun s at_ with at_ := { at_ with fetch := .clean } } = _
  rw [hat]

/-- What a REP finds at its target: the fetch goes through, and the target is decoded, and may be repeated (R191, R192). -/
structure RepTarget (s : State) (at_ : At) (w : Word) (i size : Nat) : Prop where
  fetches : s.fetches (ctxOf at_) ((s.ctx (ctxOf at_)).pc + 4) = true
  word : halfOf w.pay (bit ((s.ctx (ctxOf at_)).pc + 4) 2) = i
  size : (if insMajor i = 0x3F then 8 else 4) = size
  decodes : decodeFault (fun n => (Tbl.look (s.core (s.coreOf (ctxOf at_))).decode n).isSome) w (bit ((s.ctx (ctxOf at_)).pc + 4) 2) = none
  fields : reservedOk (Tbl.look (s.core (s.coreOf (ctxOf at_))).decode) i (fld w.pay 63 32) = true
  allowed : repForbids (Tbl.look (s.core (s.coreOf (ctxOf at_))).decode) i (fld w.pay 63 32) = false

/-- The end of a REP: it retires behind its target. -/
def X.repDone (x : Nat) (pc : Pay) (size : Nat) : X Flow := do
  X.upd (fun s => s.retire x (slotsOf (pc + 4) size) (pc + 4 + p64 size) none)
  return .stay

/-- A REP past its checks runs its target RPC times. -/
theorem opRep_checked (h : Ready s at_ 4) {w : Word} {i size lim : Nat} (ht : RepTarget s at_ w i size) :
    let pc := (s.ctx (ctxOf at_)).pc
    opRep pc w .clean lim (startRun s at_) =
      (if (s.ctx (ctxOf at_)).sp Sr.rpc = 0 then X.repDone (ctxOf at_) pc size
      else do
        match (← X.burst (X.iteration pc i (fld w.pay 63 32) size) lim) with
        | .seq => X.repDone (ctxOf at_) pc size
        | f => pure f : X Flow) (startRun s at_) := by
  intro pc
  unfold opRep
  rw [X.bind_ok (X.ctx_run _)]
  refine (X.check_passed (by rw [show ((startRun s at_).s.ctx (startRun s at_).x).atLoopEnd pc = false from h.atLoopEnd pc]; decide)).trans ?_
  refine (X.bind_ok (X.fetchMeets_clean h) _).trans ?_
  refine (X.bind_ok (X.fetch_undisturbed h.undisturbed h.fetch ht.fetches) _).trans ?_
  refine (X.bind_ok (X.st_run _) _).trans ((X.bind_ok (X.core_run _) _).trans ((X.bind_ok (X.ctxNo_run _) _).trans ?_))
  dsimp only
  rw [show decodeFault (fun n => (Tbl.look ((startRun s at_).s.core ((startRun s at_).s.coreOf (startRun s at_).x)).decode n).isSome) w
    (bit (pc + 4) 2) = none from ht.decodes]
  dsimp only
  have hfields := ht.fields
  have hallowed := ht.allowed
  have hsize := ht.size
  rw [← ht.word] at hfields hallowed hsize ⊢
  refine (X.check_passed (by rw [show reservedOk (fun n => Tbl.look ((startRun s at_).s.core ((startRun s at_).s.coreOf (startRun s at_).x)).decode n)
    (halfOf w.pay (bit (pc + 4) 2)) (fld w.pay 63 32) = true from hfields]; decide)).trans ?_
  refine (X.check_passed (by rw [show repForbids (fun n => Tbl.look ((startRun s at_).s.core ((startRun s at_).s.coreOf (startRun s at_).x)).decode n)
    (halfOf w.pay (bit (pc + 4) 2)) (fld w.pay 63 32) = false from hallowed]; decide)).trans ?_
  rw [hsize]
  rfl

/-- A REP that ends goes on behind its target. -/
theorem rep_ends (h : s.ready at_ 4 = true) {w : Word} {i size lim : Nat} (ht : RepTarget s at_ w i size) {q : Run}
    (hq : (if (s.ctx (ctxOf at_)).sp Sr.rpc = 0 then (.ok .seq (startRun s at_) : EStateM.Result Stop Run Flow)
      else X.burst (X.iteration (s.ctx (ctxOf at_)).pc i (fld w.pay 63 32) size) lim (startRun s at_)) = .ok .seq q)
    (hwithin : Within s (ctxOf at_) q.s) :
    exec (.rep at_ 0 w .clean lim) s =
      .next (q.s.retire (ctxOf at_) (slotsOf ((s.ctx (ctxOf at_)).pc + 4) size) ((s.ctx (ctxOf at_)).pc + 4 + p64 size) none) := by
  have hr := State.ready_iff s at_ 4 h
  have hchecks := X.decodeChecks_ok (metaR 0x3E 0).breaks (startRun s at_) (ring_le _) (.inr hr.loads)
  have hrep := opRep_checked (lim := lim) hr ht
  have hbody : opRep (s.ctx (ctxOf at_)).pc w .clean lim (startRun s at_) =
      X.repDone (ctxOf at_) (s.ctx (ctxOf at_)).pc size q := by
    rw [hrep]
    split at hq
    · next hz =>
      cases hq
      rw [if_pos hz]
    · next hz =>
      rw [if_neg hz]
      exact X.bind_ok hq _
  generalize hu : q.s.retire (ctxOf at_) (slotsOf ((s.ctx (ctxOf at_)).pc + 4) size) ((s.ctx (ctxOf at_)).pc + 4 + p64 size) none = u
  have hend : X.repDone (ctxOf at_) (s.ctx (ctxOf at_)).pc size q = .ok .stay { q with s := u } := by rw [← hu]; rfl
  have hnear : Near s (ctxOf at_) u := by rw [← hu]; exact (hwithin.trans (within_retire q.s _ _ _ none)).toNear
  exact issue_stays (q := { q with s := u }) h true ((X.bind_ok hchecks _).trans (hbody.trans hend)) hnear

/-- With RPC at 0 the target is passed (R193). -/
theorem rep_passes (h : s.ready at_ 4 = true) {w : Word} {i size lim : Nat} (ht : RepTarget s at_ w i size)
    (hrpc : (s.ctx (ctxOf at_)).sp Sr.rpc = 0) :
    ∃ t, exec (.rep at_ 0 w .clean lim) s = .next t ∧ WentTo s (ctxOf at_) ((s.ctx (ctxOf at_)).pc + 4 + p64 size) t := by
  have hr := State.ready_iff s at_ 4 h
  refine ⟨_, rep_ends h ht (q := startRun s at_) (if_pos hrpc) (Within.refl s _), ?_⟩
  obtain ⟨-, hctx, -⟩ := State.retire_plain s (ctxOf at_) (slotsOf ((s.ctx (ctxOf at_)).pc + 4) size)
    ((s.ctx (ctxOf at_)).pc + 4 + p64 size) hr.plain hr.innermost
  refine ⟨(within_retire s (ctxOf at_) _ _ none).onlyCtx hctx rfl, ?_, ?_, ?_⟩
  · intro k; rw [hctx]; rfl
  · rw [hctx, Ctx.pc_retired]
  · intro n hn; rw [hctx, Ctx.sp_retired, if_neg (Ne.symm hn)]

/-! ### Repeats of a NOP -/

/-- The machine during a REP at a context of s: its special registers but RPC are as before, and RPC stands at n. -/
structure Repeating (s : State) (x : Nat) (n : Pay) (u : State) : Prop where
  within : Within s x u
  own : u.ctx x = { s.ctx x with sr := (u.ctx x).sr, fresh := (u.ctx x).fresh }
  rpc : (u.ctx x).sp Sr.rpc = n
  spec : ∀ m, m ≠ Sr.rpc → (u.ctx x).sp m = (s.ctx x).sp m

variable {x : Nat} {n : Pay}

theorem Repeating.refl (s : State) (x : Nat) : Repeating s x ((s.ctx x).sp Sr.rpc) s := ⟨Within.refl s x, rfl, rfl, fun _ _ => rfl⟩

/-- A count of one iteration: the PC goes to the target and back (R194). -/
def Ctx.iterated (c : Ctx) (pc : Pay) : Ctx :=
  ((c.setPc (pc + 4)).setPc pc).setSp Sr.rpc (c.sp Sr.rpc - 1)

theorem Ctx.sp_iterated (c : Ctx) (m : Nat) : (c.iterated c.pc).sp m = if Sr.rpc = m then c.sp Sr.rpc - 1 else c.sp m := by
  rw [Ctx.iterated, Ctx.sp_setSp, Ctx.setPc, Ctx.setPc, Ctx.sp_setSp, Ctx.sp_setSp]
  split
  · rfl
  · split
    · next hpc => rw [← hpc]; rfl
    · rfl

theorem Repeating.iterated {u v : State} (h : Repeating s x n u) (hv : Within u x v) (hctx : v.ctx x = (u.ctx x).iterated (s.ctx x).pc) :
    Repeating s x (n - 1) v := by
  have hpc : (s.ctx x).pc = (u.ctx x).pc := (h.spec Sr.pc (by decide)).symm
  refine ⟨h.within.trans hv, ?_, ?_, ?_⟩
  · rw [hctx, Ctx.iterated, Ctx.setPc, Ctx.setPc, Ctx.setSp, Ctx.setSp, Ctx.setSp, h.own]
  · rw [hctx, hpc, Ctx.sp_iterated, if_pos rfl, h.rpc]
  · intro m hm
    rw [hctx, hpc, Ctx.sp_iterated, if_neg (Ne.symm hm), h.spec m hm]

theorem X.target_nop (imm : Nat) (r : Run) : X.target 0xB4000000 imm r = .ok .seq r := by
  show (do X.decodeChecks (metaR 0x2D 0).bare true; opNop : X Flow) r = _
  exact X.bind_ok (X.decodeChecks_ok (metaR 0x2D 0).bare r (ring_le _) (.inl rfl)) _

/-- One iteration of a NOP counts RPC down (R193). -/
theorem X.iteration_nop {imm size : Nat} {r : Run} (h : Repeating s r.x n r.s) :
    ∃ u, X.iteration (s.ctx r.x).pc 0xB4000000 imm size r = .ok (decide (n - 1 = 0)) { r with s := u } ∧ Repeating s r.x (n - 1) u := by
  generalize hpc : (s.ctx r.x).pc = pc
  generalize hv : (r.s.setCtx r.x ((r.s.ctx r.x).setPc (pc + 4))).setCtx r.x (((r.s.ctx r.x).setPc (pc + 4)).setPc pc) = v
  have hctx : v.ctx r.x = ((r.s.ctx r.x).setPc (pc + 4)).setPc pc := by rw [← hv, State.ctx_setCtx_self]
  have hwithin : Within r.s r.x v := by rw [← hv]; exact (within_setCtx _ _ _).trans (within_setCtx _ _ _)
  have hrpc : (v.ctx r.x).sp Sr.rpc = (r.s.ctx r.x).sp Sr.rpc := by
    rw [hctx, Ctx.setPc, Ctx.setPc, Ctx.sp_setSp, if_neg (by decide), Ctx.sp_setSp, if_neg (by decide)]
  have htarget : X.atTarget pc size (X.target 0xB4000000 imm) r = .ok .seq { r with s := v } := by
    unfold X.atTarget
    dsimp only
    rw [X.target_nop]
    dsimp only
    rw [State.updCtx_eq, State.updCtx_eq, State.ctx_setCtx_self, hv]
  have hcounted : (v.ctx r.x).setSp Sr.rpc ((v.ctx r.x).sp Sr.rpc - 1) = (r.s.ctx r.x).iterated pc := by rw [hrpc, hctx, Ctx.iterated]
  have hnext := h.iterated (v := v.setCtx r.x ((r.s.ctx r.x).iterated pc)) (hwithin.trans (within_setCtx v r.x _))
    (by rw [hpc, State.ctx_setCtx_self])
  refine ⟨_, ?_, hnext⟩
  unfold X.iteration
  refine (X.bind_ok htarget _).trans ?_
  dsimp only
  refine (X.bind_ok (X.ctxNo_run _) _).trans ((X.bind_ok (X.upd_run _ _) _).trans ((X.bind_ok (X.ctx_run _) _).trans ?_))
  dsimp only
  rw [State.updCtx_eq, hcounted, hnext.rpc]
  rfl

theorem X.element_ok {α : Type} {m : X α} {r q : Run} {a : α} (h : m r = .ok a q) : X.element m r = .ok a q := by
  unfold X.element
  rw [h]

/-- The bookkeeping between two iterations leaves the repeat as it is. -/
theorem Repeating.elementEnd {r : Run} (h : Repeating s r.x n r.s) (hg : (s.ctx r.x).grants = []) (ho : (s.ctx r.x).obs = [])
    (hf : (s.ctx r.x).inflight = false) :
    ∃ u, X.elementEnd r = .ok () { r with s := u, seen := [] } ∧ Repeating s r.x n u := by
  have hfresh : ({ r.s.ctx r.x with fresh := false, grants := [], obs := [], inflight := false } : Ctx) = { r.s.ctx r.x with fresh := false } := by
    conv_rhs => rw [h.own]
    conv_lhs => rw [h.own]
    rw [← hg, ← ho, ← hf]
  have hset : Repeating s r.x n (r.s.setCtx r.x { r.s.ctx r.x with fresh := false }) := by
    refine ⟨h.within.trans (within_setCtx _ _ _), ?_, ?_, ?_⟩
    · rw [State.ctx_setCtx_self]
      conv_lhs => rw [h.own]
    · rw [State.ctx_setCtx_self]; exact h.rpc
    · intro m hm; rw [State.ctx_setCtx_self]; exact h.spec m hm
  have hcount (w : Twin → Twin) (hw : ∀ v, w v = { v with groups := (w v).groups }) :
      Repeating s r.x n ((r.s.setCtx r.x { r.s.ctx r.x with fresh := false }).updTwin (twinOf r.x) w) := by
    have hin : Within (r.s.setCtx r.x { r.s.ctx r.x with fresh := false }) r.x
        ((r.s.setCtx r.x { r.s.ctx r.x with fresh := false }).updTwin (twinOf r.x) w) := by
      rw [State.updTwin_eq]
      exact ⟨near_setTwin _ _ _, by rw [State.twin_setTwin_self, hw]⟩
    exact ⟨hset.within.trans hin, hset.own, hset.rpc, hset.spec⟩
  unfold X.elementEnd
  rw [State.updCtx_eq, hfresh]
  dsimp only
  split
  · exact ⟨_, rfl, hcount _ fun _ => rfl⟩
  · exact ⟨_, rfl, hset⟩

/-- A repeated NOP runs as often as RPC says. -/
theorem burst_nop (h : Ready s at_ 4) (imm size : Nat) :
    ∀ (lim : Nat) (n : Pay) (r : Run), r.x = ctxOf at_ → Repeating s r.x n r.s → n ≠ 0 → n.toNat ≤ lim + 1 →
      ∃ q, X.burst (X.iteration (s.ctx r.x).pc 0xB4000000 imm size) lim r = .ok .seq q ∧ Repeating s r.x 0 q.s := by
  intro lim
  induction lim with
  | zero =>
    intro n r hx hrep hn hle
    have hone : n - 1 = 0 := by bv_omega
    obtain ⟨u, hiter, hu⟩ := X.iteration_nop (imm := imm) (size := size) hrep
    rw [hone] at hiter hu
    exact ⟨{ r with s := u }, X.bind_ok (X.element_ok hiter) _, hu⟩
  | succ lim ih =>
    intro n r hx hrep hn hle
    obtain ⟨u, hiter, hu⟩ := X.iteration_nop (imm := imm) (size := size) hrep
    by_cases hone : n - 1 = 0
    · rw [hone] at hiter hu
      exact ⟨{ r with s := u }, X.bind_ok (X.element_ok hiter) _, hu⟩
    · rw [decide_eq_false hone] at hiter
      obtain ⟨v, hend, hv⟩ := Repeating.elementEnd (n := n - 1) (r := { r with s := u }) hu (by rw [hx]; exact h.grants)
        (by rw [hx]; exact h.obs) (by rw [hx]; exact h.inflight)
      have hasync : v.async r.x = none :=
        (hv.within.async rfl (by rw [hv.own]) (hv.spec Sr.winb (by decide)) (hv.spec Sr.ps (by decide))).trans (by rw [hx]; exact h.async)
      obtain ⟨q, hburst, hq⟩ := ih (n - 1) { r with s := v, seen := [] } hx hv hone (by bv_omega)
      refine ⟨q, ?_, hq⟩
      rw [X.burst]
      refine (X.bind_ok (X.element_ok hiter) _).trans ((X.check_passed (by decide)).trans ?_)
      refine (X.bind_ok hend _).trans ((X.bind_ok (X.st_run _) _).trans ((X.bind_ok (X.ctxNo_run _) _).trans ?_))
      exact (X.check_passed (by rw [hasync]; decide)).trans hburst

/-- REP of a NOP (R190, R193). -/
theorem rep_nop (h : s.ready at_ 4 = true) {w : Word} {lim : Nat} (ht : RepTarget s at_ w 0xB4000000 4)
    (hle : ((s.ctx (ctxOf at_)).sp Sr.rpc).toNat ≤ lim + 1) :
    ∃ u, exec (.rep at_ 0 w .clean lim) s =
      .next (u.retire (ctxOf at_) (slotsOf ((s.ctx (ctxOf at_)).pc + 4) 4) ((s.ctx (ctxOf at_)).pc + 4 + p64 4) none) ∧
      Repeating s (ctxOf at_) 0 u := by
  have hr := State.ready_iff s at_ 4 h
  have hrefl := Repeating.refl s (ctxOf at_)
  by_cases hz : (s.ctx (ctxOf at_)).sp Sr.rpc = 0
  · rw [hz] at hrefl
    exact ⟨s, rep_ends h ht (q := startRun s at_) (if_pos hz) (Within.refl s _), hrefl⟩
  · obtain ⟨q, hburst, hq⟩ := burst_nop hr (fld w.pay 63 32) 4 lim _ (startRun s at_) rfl hrefl hz hle
    exact ⟨q.s, rep_ends h ht ((if_neg hz).trans hburst) hq.within, hq⟩

/-- A word of the NOP's code is a target that REP takes. -/
theorem repTarget_nop {w : Word} (hf : s.fetches (ctxOf at_) ((s.ctx (ctxOf at_)).pc + 4) = true) (hw : w.tag = Tag.insn)
    (hi : halfOf w.pay (bit ((s.ctx (ctxOf at_)).pc + 4) 2) = 0xB4000000)
    (hext : bit ((s.ctx (ctxOf at_)).pc + 4) 2 = true → insMajor (fld w.pay 31 0) ≠ 0x3F) : RepTarget s at_ w 0xB4000000 4 where
  fetches := hf
  word := hi
  size := rfl
  decodes := by
    have hlow : ¬ (bit ((s.ctx (ctxOf at_)).pc + 4) 2 = true ∧ insMajor (halfOf w.pay false) = 0x3F) := fun hc => hext hc.1 hc.2
    unfold decodeFault
    rw [hi]
    dsimp only
    have hnot (p : Prop) : ¬ (p ∧ insMajor 0xB4000000 = 0x3F) := fun hc => absurd hc.2 (by decide)
    rw [if_neg (not_not.mpr hw), if_neg hlow, if_neg (hnot _), if_neg (by decide), if_neg (by decide), if_neg (by decide), if_neg (by decide)]
  fields := rfl
  allowed := rfl

end

/-- Settles O26: with RPC at 0 the REP retires behind its target at once; a repeated NOP counts RPC down to 0 first. -/
theorem repeatCounts : Obligations.RepeatCounts := by
  intro s at_ w lim x pc slot i size h hf
  have hr := State.ready_iff s at_ 4 h
  refine ⟨fun hdec hfields hallowed hrpc => rep_passes h ⟨hf, rfl, rfl, hdec, hfields, hallowed⟩ hrpc, ?_⟩
  intro hw hi hext hle
  obtain ⟨u, hexec, hu⟩ := rep_nop h (repTarget_nop hf hw hi hext) hle
  have hplain : (u.ctx x).Plain := by
    rw [hu.own]
    exact ⟨hr.run, hr.slot, hr.grants, hr.obs, hr.inflight, hr.loads, hr.stepping⟩
  have hinner : (u.ctx x).innermost = none := by
    have hnone := hr.innermost
    unfold Ctx.innermost at hnone ⊢
    rw [hu.spec _ (by decide), hu.spec _ (by decide), hu.spec _ (by decide)]
    exact hnone
  obtain ⟨-, hctx, -⟩ := State.retire_plain u x (slotsOf (pc + 4) 4) (pc + 4 + p64 4) hplain hinner
  have hregs (k : Nat) : ((u.ctx x).retired (pc + 4 + p64 4)).rdKey k = (s.ctx x).rdKey k := by
    show (u.ctx x).rdKey k = _
    rw [hu.own]
    rfl
  refine ⟨_, hexec, (hu.within.trans (within_retire u x _ _ none)).onlyCtx hctx ?_, ?_, ?_, ?_, ?_⟩
  · rw [Ctx.retired, Ctx.setPc, Ctx.setSp, hu.own]
  · rw [hctx, Ctx.sp_retired, if_neg (by decide), hu.rpc]
  · rw [hctx, Ctx.pc_retired, BitVec.add_assoc]
    rfl
  · intro k; rw [hctx, hregs]
  · intro n hn hpc
    rw [hctx, Ctx.sp_retired, if_neg (Ne.symm hpc), hu.spec n hn]

end Sys2Proof.Machine
end

section
/-!
PROOFS. Addresses, and the loads of any width that go through (R157 to R160, R303).
-/
namespace Sys2Proof.Machine

/-! ### Loads of any width -/

/-- The width of a load takes no part in whether its request can be sent (R16). -/
theorem State.canSend_load (s : State) (src pa width : Nat) : s.canSend src pa .load width = s.canSend src pa .load 8 := by
  have hflits : reqFlits .load width = reqFlits .load 8 := by simp [reqFlits]
  rw [State.canSend, State.canSend, State.hasCredit, State.hasCredit, hflits]

section
variable {r q : Run} {tr : Tr}

theorem X.answered_wide {pa k : Nat} (width : Nat) {va : Pay} {go : X Word} (h : Undisturbed r) (hk : r.s.coreOf r.x = k)
    (hs : r.s.canSend k pa .load 8 = true) (hb : r.s.behindStores k pa = false) :
    X.answered pa width va go .clean r = go r := by
  unfold X.answered
  rw [X.bind_ok (X.grant_none h)]
  refine (X.bind_ok (X.st_run r) _).trans ((X.bind_ok (X.core_run r) _).trans ?_)
  rw [hk, State.canSend_load, hs, hb]
  rfl

theorem X.missed_wide {k pa : Nat} (width : Nat) {va : Pay} {hit : Bool} {go : X Word} (h : Undisturbed r)
    (hm : hit = true ∨ ((r.s.missOf k pa).isNone = true ∧ r.s.missRoom k false = true ∧ r.s.canSend k pa .line 64 = true)) :
    X.missed k pa width va hit go .clean r = go r := by
  refine Eq.trans ?_ (X.missed_run (va := va) (go := go) h hm)
  unfold X.missed
  rw [X.bind_ok (X.grant_none h), X.bind_ok (X.grant_none h)]
  refine (X.bind_ok (X.st_run r) _).trans (Eq.trans ?_ (X.bind_ok (X.st_run r) _).symm)
  obtain rfl | ⟨hmiss, hroom, hsend⟩ := hm
  · rfl
  · cases hit with
    | true => rfl
    | false =>
      rw [Option.isNone_iff_eq_none.mp hmiss, hroom, hsend]
      rfl

/-- How a load of `width` bytes from DRAM, Staging SRAM, JNV or the Boot ROM comes to the caches, at a core that is not loose. -/
def X.memoryLoad (s : State) (x : Nat) (tr : Tr) (width : Nat) (va : Pay) (m : Met) (go : X Word) : X Word := do
  if s.far x tr then do
    X.closeWindow
    X.answered tr.pa width va go m
  else do
    if (s.twin (twinOf x)).hold.any (Out.onLine tr.pa) then X.closeWindow
    X.missed (s.coreOf x) tr.pa width va (s.l1dHit x tr) go m

theorem Looked.memoryLoad (width : Nat) {va : Pay} {go : X Word} {w : Word} (hl : Looked r q) (h : Undisturbed r)
    (hr : Reads r.s r.x tr) (hm : ReadsMemory r.s r.x tr) (hgo : go q = .ok w q) :
    X.memoryLoad r.s r.x tr width va .clean go q = .ok w q := by
  have hu := hl.undisturbed h
  have hcore : q.s.coreOf q.x = r.s.coreOf r.x := by rw [hl.x, hl.signed.coreOf]
  have hrest := hl.signed.rest
  unfold X.memoryLoad
  cases hf : r.s.far r.x tr with
  | true =>
    obtain ⟨hsend, hfree⟩ := hm.sends hf
    refine (X.bind_ok (hl.closeWindow h hr hf) _).trans ((X.answered_wide width hu hcore ?_ ?_).trans hgo)
    · rw [hrest]; exact hsend
    · rw [hrest]; exact hfree
  | false =>
    have hmissed : X.missed (r.s.coreOf r.x) tr.pa width va (r.s.l1dHit r.x tr) go .clean q = go q := by
      refine X.missed_wide width hu ?_
      rw [hrest]
      exact hm.fetches hf
    rw [if_neg (by decide)]
    refine (X.when_run (hl.closeHeld h hm)).trans ?_
    exact hmissed.trans hgo

/-- A load of `width` bytes that goes through gives the word of memory that holds them; in tight mode it is signed. -/
theorem X.loadPhys_wide (width : Nat) {va : Pay} (h : Undisturbed r) (hr : Reads r.s r.x tr) :
    ∃ q, X.loadPhys tr width va .clean r = .ok (r.s.word (r.s.keyOf r.x tr)) q ∧ Looked r q := by
  obtain ⟨q, hsign, hl⟩ := X.signLoad_run r tr.pa width
  refine ⟨q, ?_, hl⟩
  have hword := hl.memWord (va := va) h hr
  unfold X.loadPhys
  refine (X.bind_ok (X.st_run r) _).trans ((X.bind_ok (X.ctxNo_run r) _).trans ((X.bind_ok (X.core_run r) _).trans
    ((X.when_run hsign).trans ?_)))
  obtain ⟨hkeep, hsource⟩ | hmem := hr.reach
  · have hclose : (if r.s.far r.x tr then X.closeWindow else pure () : X Unit) q = .ok () q := by
      split
      · next hf => exact hl.closeWindow h hr hf
      · rfl
    have hfrom : (do
          if r.s.far r.x tr then X.closeWindow
          X.memWord tr va .clean r.x (r.s.coreOf r.x) : X Word) q = .ok (r.s.word (r.s.keyOf r.x tr)) q := by
      refine (X.when_run hclose).trans ?_
      exact hword
    simp only [hkeep, hsource]
    exact hfrom
  · have hfrom := hl.memoryLoad width (va := va) h hr hmem hword
    obtain hreg | hreg | hreg | hreg := hmem.range
    all_goals
      simp only [hreg, hr.notLoose]
      exact hfrom

end

/-! ### The word that a plain load meets -/

/-- A load of context x at `va`, at its own ring, goes through and meets w. -/
def Meets (s : State) (x : Nat) (va : Pay) (w : Word) : Prop :=
  ∃ tr, s.translate x (s.ctx x).ring .load va = .ok tr ∧ Reads s x tr ∧ s.word (s.keyOf x tr) = w

theorem State.translate_of_trOf {s : State} {x : Nat} {k : AccKind} {va : Pay} {tr : Tr} (h : s.trOf x k va = some tr) :
    s.translate x (s.ctx x).ring k va = .ok tr := by
  unfold State.trOf at h
  cases ht : s.translate x (s.ctx x).ring k va with
  | error e => rw [ht] at h; cases h
  | ok t => rw [ht] at h; exact congrArg Except.ok (Option.some.inj h)

theorem meets_of_metAt {s : State} {x : Nat} {va : Pay} {w : Word} (h : s.metAt x va = some w) : Meets s x va w := by
  unfold State.metAt at h
  split at h
  · next tr htr =>
    obtain ⟨hreads, hw⟩ := Option.ite_none_right_eq_some.mp h
    exact ⟨tr, State.translate_of_trOf htr, State.reads_of hreads, Option.some.inj hw⟩
  · cases h

/-- What is met does not rest on the signature. -/
theorem Signed.meets {s u : State} {x : Nat} {va : Pay} {w : Word} (h : Signed s x u) (hm : Meets s x va w) : Meets u x va w := by
  obtain ⟨tr, htr, hreads, hw⟩ := hm
  exact ⟨tr, by rw [h.ctx, h.translate]; exact htr, h.reads hreads, (h.word tr).trans hw⟩

/-- A load at `va` of `width` bytes. -/
theorem X.elemLoad_run {r : Run} {va : Pay} {w : Word} (width : Nat) (h : Undisturbed r) (hm : Meets r.s r.x va w) :
    ∃ q, X.elemLoad va width r = .ok w q ∧ Looked r q := by
  obtain ⟨tr, htr, hreads, rfl⟩ := hm
  have hacc : Looked r { r with acc := r.acc + 1 } := ⟨rfl, rfl, rfl, Signed.refl _ _⟩
  have hseen : Looked r { r with acc := r.acc + 1, seen := r.seen ++ [.tr tr.pa tr.cache] } := ⟨rfl, rfl, rfl, Signed.refl _ _⟩
  obtain ⟨q, hload, hq⟩ := X.loadPhys_wide width (va := va) (hseen.undisturbed h) hreads
  refine ⟨q, ?_, hseen.trans hq⟩
  unfold X.elemLoad
  exact (X.bind_ok (X.ring_run r) _).trans ((X.bind_ok (X.met_clean h) _).trans
    ((X.bind_ok (X.translate_load (hacc.undisturbed h) htr hreads) _).trans hload))

/-! ### Effective addresses -/

section
variable {r : Run} {a : Word} {disp va : Pay} {width : Nat} {store : Bool}

theorem isBasePtr_ne {t : BitVec 8} (h : isBasePtr t = true) : t ≠ Tag.pref ∧ t ≠ Tag.raw := by
  constructor <;> rintro rfl <;> revert h <;> decide

theorem grantIs_none (h : Undisturbed r) (g : Grant) : X.grantIs g r = .ok false r := by
  simp only [X.grantIs, h.obs, h.grants, List.getElem?_nil]

/-- The base of an access with an address has the tag and the form that R157 asks. -/
theorem X.baseTag_ok {op : Nat} {tb : Option (BitVec 8)} (h : r.s.ea r.x a disp width store = some va) :
    X.baseTag op a tb r = .ok () r := by
  unfold X.baseTag
  refine (X.bind_ok (X.ring_run r) _).trans ?_
  unfold State.ea at h
  split at h
  · next hpref =>
    have hbase : isBasePtr a.tag = false := by rw [hpref]; decide
    simp only at h
    split at h
    · cases h
    · next hok =>
      simp only [not_or, not_not] at hok
      rw [hbase, if_neg (by decide), if_pos hpref]
      exact X.check_passed (not_not.mpr hok.1)
  · next hpref =>
    split at h
    · next hbase =>
      obtain ⟨hptr, hform⟩ | ⟨hraw, hring⟩ := hbase
      · rw [if_pos hptr, hform]; rfl
      · have hptr : isBasePtr a.tag = false := by rw [hraw]; decide
        rw [hptr, if_neg (by decide), if_neg hpref, if_pos hraw]
        exact X.check_passed hring
    · cases h

theorem X.eaForm_ok (h : r.s.ea r.x a disp width store = some va) : X.eaForm a disp width r = .ok () r := by
  unfold X.eaForm
  unfold State.ea at h
  split at h
  · next hpref =>
    simp only at h
    split at h
    · cases h
    · next hok =>
      simp only [not_or, not_not] at hok
      obtain ⟨-, hlo, hhi, halign⟩ := hok
      rw [if_pos hpref]
      exact (X.check_passed (not_or.mpr ⟨hlo, hhi⟩)).trans (X.check_passed (not_not.mpr halign))
  · next hpref =>
    split at h
    · split at h
      · cases h
      · next hok =>
        simp only [not_or, not_not] at hok
        rw [if_neg hpref]
        exact (X.check_passed (not_not.mpr hok.1)).trans (X.check_passed (not_not.mpr hok.2))
    · cases h

theorem X.eaAddr_ok (hu : Undisturbed r) (h : r.s.ea r.x a disp width store = some va) : X.eaAddr a disp store r = .ok va r := by
  unfold X.eaAddr
  unfold State.ea at h
  split at h
  · next hpref =>
    simp only at h
    split at h
    · cases h
    · split at h
      · next v s1 hres =>
        obtain ⟨hs1, hva⟩ := Option.ite_none_right_eq_some.mp h
        cases hva
        subst hs1
        rw [if_pos hpref]
        refine (X.bind_ok (grantIs_none hu .noBlock) _).trans ((X.bind_ok (X.st_run r) _).trans ((X.bind_ok (X.ctxNo_run r) _).trans
          ((X.bind_ok (X.get_run r) _).trans ?_)))
        simp only [hu.met, reduceCtorEq, false_and, if_false, hres]
        rfl
      · cases h
  · next hpref =>
    rw [if_neg hpref]
    split at h
    · split at h
      · cases h
      · cases h; rfl
    · cases h

/-- An access whose base and address no enabled heap holds keeps its address (R303). -/
theorem X.accessCheck_plain (hp : r.s.heapPtr (r.s.hen r.x) a = none) (ha : r.s.heapAt (r.s.hen r.x) va.toNat = none) :
    X.accessCheck a va store r = .ok va r := by
  have hheap : (if isBasePtr a.tag then X.heapOf a else pure none : X (Option Nat)) r = .ok none r := by
    split
    · exact congrArg (EStateM.Result.ok · r) hp
    · rfl
  have haddr : (X.st >>= fun s => X.ctxNo >>= fun x => (match s.heapAt (s.hen x) va.toNat with
      | none => pure va
      | some h => do
        let idx := s.regionIdx h va.toNat
        let rt ← X.regionWord idx
        if rtState rt = rgEvac then X.raise (evacuate 5 va idx va) else pure va : X Pay)) r = .ok va r := by
    rw [X.bind_ok (X.st_run r), X.bind_ok (X.ctxNo_run r), ha]
    rfl
  unfold X.accessCheck
  refine (X.bind_ok hheap _).trans ?_
  exact haddr

/-- The address of an access, checked where the instruction checks it. -/
theorem X.effective_ok {op : Nat} {checked : Bool} {chk : X Unit} {tb : Option (BitVec 8)} (hu : Undisturbed r)
    (h : r.s.ea r.x a disp width store = some va) (hchk : chk r = .ok () r)
    (hplain : checked = true → r.s.heapPtr (r.s.hen r.x) a = none ∧ r.s.heapAt (r.s.hen r.x) va.toNat = none) :
    X.effective op a disp width store checked chk tb r = .ok va r := by
  unfold X.effective
  refine (X.bind_ok (X.baseTag_ok h) _).trans ((X.bind_ok hchk _).trans ((X.bind_ok (X.eaForm_ok h) _).trans
    ((X.bind_ok (X.eaAddr_ok hu h) _).trans ?_)))
  cases checked with
  | false => rfl
  | true =>
    obtain ⟨hp, ha⟩ := hplain rfl
    exact X.accessCheck_plain hp ha

theorem State.ea_of_eaPlain {s : State} {x : Nat} (h : s.eaPlain x a disp width store = some va) :
    s.ea x a disp width store = some va ∧ s.heapPtr (s.hen x) a = none ∧ s.heapAt (s.hen x) va.toNat = none := by
  unfold State.eaPlain at h
  split at h
  · next v hv =>
    obtain ⟨hplain, heq⟩ := Option.ite_none_right_eq_some.mp h
    cases heq
    exact ⟨hv, hplain⟩
  · cases h

theorem State.metAt_of_metWord {s : State} {x : Nat} {w : Word} (h : s.metWord x a disp width = some (va, w)) :
    s.eaPlain x a disp width false = some va ∧ s.metAt x va = some w := by
  unfold State.metWord at h
  split at h
  · next v hv =>
    obtain ⟨u, hu, heq⟩ := Option.map_eq_some_iff.mp h
    cases heq
    exact ⟨hv, hu⟩
  · cases h

/-- A load up to the word it meets. -/
theorem X.loadAt_run {op : Nat} {w : Word} (checked : Bool) (hu : Undisturbed r) (h : r.s.metWord r.x a disp width = some (va, w)) :
    ∃ q, X.loadAt op a disp width checked r = .ok (w, va) q ∧ Looked r q := by
  obtain ⟨hplain, hmet⟩ := State.metAt_of_metWord h
  obtain ⟨hea, hheap⟩ := State.ea_of_eaPlain hplain
  obtain ⟨q, hload, hq⟩ := X.elemLoad_run width hu (meets_of_metAt hmet)
  refine ⟨q, ?_, hq⟩
  have heff := X.effective_ok (op := op) (checked := checked) (chk := pure ()) (tb := none) hu hea rfl (fun _ => hheap)
  unfold X.loadAt
  unfold X.elemLoad at hload
  refine (X.bind_ok heff _).trans ?_
  have hpair : ((do
      let ring ← X.ring
      let m ← X.met
      let tr ← X.translate ring .load va m
      X.loadPhys tr width va m : X Word) >>= fun w => pure (w, va)) r = .ok (w, va) q := X.bind_ok hload _
  simp only [bind_assoc] at hpair
  exact hpair

end

end Sys2Proof.Machine
end

section
/-!
PROOFS. Loads and their shadow (O7).
-/
namespace Sys2Proof.Machine

/-! ### What a load that goes through leaves -/

section
variable {s : State} {at_ : At}

theorem State.ctx_retire_load (s : State) (x : Nat) (slots : List Pay) (next : Pay) (p : PendLoad) :
    (s.retire x slots next (some p)).ctx x =
      { (s.retire x slots next none).ctx x with loads := ((s.retire x slots next none).ctx x).loads ++ [p] } := by
  rw [State.ctx_retire]
  unfold State.retire
  rw [State.updCtx_eq, State.ctx_setCtx_self, State.ctx_retireMark]

/-- A load at a state that differs from s in the signature alone, retired. -/
theorem loaded_retire {u : State} (h : Ready s at_ 4) (hu : Signed s (ctxOf at_) u) (d : BitVec 5) (w : Word) (slots : List Pay) :
    Loaded s (ctxOf at_) 4 d w (u.retire (ctxOf at_) slots ((s.ctx (ctxOf at_)).pc + p64 4)
      (some ⟨2, d, (s.ctx (ctxOf at_)).bank, w⟩)) := by
  have hctx := hu.ctx (ctxOf at_)
  have hown := State.retire_plain u (ctxOf at_) slots ((s.ctx (ctxOf at_)).pc + p64 4) (hctx ▸ h.plain) (by rw [hctx]; exact h.innermost)
  obtain ⟨-, hret, -⟩ := hown
  have hin : Within s (ctxOf at_) u := ⟨hu.near, by rw [hu.twin]⟩
  have hwithin := hin.trans (within_retire u (ctxOf at_) slots ((s.ctx (ctxOf at_)).pc + p64 4) (some ⟨2, d, (s.ctx (ctxOf at_)).bank, w⟩))
  have hload := State.ctx_retire_load u (ctxOf at_) slots ((s.ctx (ctxOf at_)).pc + p64 4) ⟨2, d, (s.ctx (ctxOf at_)).bank, w⟩
  rw [hret, hctx] at hload
  have hloads : ((s.ctx (ctxOf at_)).retired ((s.ctx (ctxOf at_)).pc + p64 4)).loads = [] := h.loads
  rw [hloads, List.nil_append] at hload
  generalize u.retire (ctxOf at_) slots ((s.ctx (ctxOf at_)).pc + p64 4) (some ⟨2, d, (s.ctx (ctxOf at_)).bank, w⟩) = t at *
  have hsp (n : Nat) : (t.ctx (ctxOf at_)).sp n = if Sr.pc = n then (s.ctx (ctxOf at_)).pc + p64 4 else (s.ctx (ctxOf at_)).sp n := by
    rw [hload]
    exact Ctx.sp_setSp _ _ _ _
  exact {
    rest := hwithin.rest
    others := hwithin.others
    own := by rw [hload]; rfl
    pc := by rw [Ctx.pc, hsp, if_pos rfl]
    spec := fun n hn => by rw [hsp, if_neg (Ne.symm hn)]
    twins := hwithin.twins
    twin := hwithin.twin }

/-- A ready instruction whose body gives a word to load, having made loads that went through. -/
theorem issue_loads {d : BitVec 5} {w : Word} {body : Pay → X Flow} (h : s.ready at_ 4 = true)
    (hb : ∃ q, body (s.ctx (ctxOf at_)).pc (startRun s at_) = .ok (.load d w) q ∧ Looked (startRun s at_) q) :
    ∃ t, fin s (issue at_ 4 false body s) = .next t ∧ Loaded s (ctxOf at_) 4 d w t := by
  have hr := State.ready_iff s at_ 4 h
  obtain ⟨q, hrun, hq⟩ := hb
  have hl := loaded_retire hr hq.signed d w (slotsOf (s.ctx (ctxOf at_)).pc 4)
  refine ⟨_, ?_, hl⟩
  rw [issue_ready hr, hrun]
  exact (Near.mk hl.rest hl.others hl.twins).fin hr.calm

theorem rowR_loads {f : RF} {maj min : Nat} {m : Meta} {d : BitVec 5} {w : Word} {op : X Flow} (hm : rMeta maj min = some m)
    (hrsv : m.rsvR f = true) (hring : m.ringMax = 3) (h : s.ready at_ 4 = true)
    (hb : ∃ q, op (startRun s at_) = .ok (.load d w) q ∧ Looked (startRun s at_) q) :
    ∃ t, fin s (s.rowR at_ f maj min false (fun _ => op)) = .next t ∧ Loaded s (ctxOf at_) 4 d w t := by
  obtain ⟨q, hrun, hq⟩ := hb
  exact issue_loads h ⟨q, (rowR_checked (State.ready_iff s at_ 4 h) hm hrsv (hring ▸ ring_le _) (fun _ => op)
    (s.ctx (ctxOf at_)).pc).trans hrun, hq⟩

/-- The checks of a format I row whose fields and ring pass (R109). -/
theorem rowI_checked {f : IF} {maj : Nat} {m : Meta} (hm : iMeta maj = some m) (hrsv : m.rsvI f = true) (himm : immOk maj f.imm.toNat = true)
    (hring : (s.ctx (ctxOf at_)).ring ≤ m.ringMax) (hb : m.breaker = false) (body : Pay → X Flow) :
    (do X.decodeChecks ((iMeta maj).getD (metaR maj 0)) (((iMeta maj).getD (metaR maj 0)).rsvI f && immOk maj f.imm.toNat)
        body (immPay maj 16 f.imm.toNat) : X Flow) (startRun s at_) = body (immPay maj 16 f.imm.toNat) (startRun s at_) := by
  rw [hm, Option.getD_some, hrsv, himm, Bool.and_self, X.bind_ok (X.decodeChecks_ok m (startRun s at_) hring (.inl hb))]

/-- The immediate of the load and store instructions is signed (R101). -/
theorem immPay_signed {maj : Nat} (hm : immUnsigned maj = false) (v : BitVec 16) : immPay maj 16 v.toNat = sext16 v := by
  rw [immPay_eq maj (ofInt_signedOf_16 v), hm]
  rfl

theorem rowI_loads {f : IF} {maj : Nat} {m : Meta} {d : BitVec 5} {w : Word} {op : Pay → X Flow} (hm : iMeta maj = some m)
    (hrsv : m.rsvI f = true) (himm : immOk maj f.imm.toNat = true) (hsigned : immUnsigned maj = false)
    (hring : (s.ctx (ctxOf at_)).ring ≤ m.ringMax) (hbr : m.breaker = false) (h : s.ready at_ 4 = true)
    (hb : ∃ q, op (sext16 f.imm) (startRun s at_) = .ok (.load d w) q ∧ Looked (startRun s at_) q) :
    ∃ t, fin s (s.rowI at_ f maj op) = .next t ∧ Loaded s (ctxOf at_) 4 d w t := by
  obtain ⟨q, hrun, hq⟩ := hb
  refine issue_loads h ⟨q, (rowI_checked hm hrsv himm hring hbr op).trans ?_, hq⟩
  rw [immPay_signed hsigned]
  exact hrun

end

/-! ### The words that the load instructions give -/

theorem Signed.heapPtr {s u : State} {x : Nat} (h : Signed s x u) (w : Word) : u.heapPtr (u.hen x) w = s.heapPtr (s.hen x) w := by
  rw [h.hen, h.rest]
  rfl

section
variable {r : Run} {a w : Word} {disp va : Pay}

/-- A word that is delivered as it is passes the checks of R58 and R76, and the read barrier has nothing to do (R305). -/
theorem X.delivered_ok {op : Nat} {tb : Option (BitVec 8)} (h : r.s.delivers r.x w = true) :
    (do X.deliverable op a w va tb; X.readBarrier w va : X Word) r = .ok w r := by
  simp only [State.delivers, Bool.and_eq_true, Bool.not_eq_true', decide_eq_true_eq, Option.isNone_iff_eq_none] at h
  obtain ⟨⟨hres, htrap⟩, hheap⟩ := h
  have hdel : X.deliverable op a w va tb r = .ok () r := by
    unfold X.deliverable
    rw [hres, if_neg (by decide), if_neg htrap]
    rfl
  have hof : X.heapOf w r = .ok none r := congrArg (EStateM.Result.ok · r) hheap
  refine (X.bind_ok hdel _).trans ?_
  unfold X.readBarrier
  rw [X.bind_ok hof]
  rfl

theorem Looked.delivers {q : Run} (h : Looked r q) (hd : r.s.delivers r.x w = true) : q.s.delivers q.x w = true := by
  rw [State.delivers, h.x, h.signed.heapPtr]
  exact hd

theorem X.ld_run {op : Nat} (hu : Undisturbed r) (h : r.s.metWord r.x a disp 8 = some (va, w)) (hd : r.s.delivers r.x w = true) :
    ∃ q, X.ld op a disp r = .ok w q ∧ Looked r q := by
  obtain ⟨q, hload, hq⟩ := X.loadAt_run (op := op) true hu h
  exact ⟨q, (X.bind_ok hload _).trans (X.delivered_ok (hq.delivers hd)), hq⟩

theorem X.ldt_run {op : Nat} (hu : Undisturbed r) (h : r.s.metWord r.x a disp 8 = some (va, w)) :
    ∃ q, X.ldt op a disp r = .ok (Word.fixN w.tag.toNat) q ∧ Looked r q := by
  obtain ⟨q, hload, hq⟩ := X.loadAt_run (op := op) true hu h
  exact ⟨q, X.bind_ok hload _, hq⟩

theorem X.lpart_run {op width : Nat} (hu : Undisturbed r) (h : r.s.metWord r.x a disp width = some (va, w)) (ht : w.tag ≠ Tag.trap) :
    ∃ q, X.lpart op a disp width r = .ok (Word.fix (getBytes w.pay (va.toNat % 8) width)) q ∧ Looked r q := by
  obtain ⟨q, hload, hq⟩ := X.loadAt_run (op := op) true hu h
  exact ⟨q, (X.bind_ok hload _).trans (X.check_passed ht), hq⟩

/-- The header of an object that fits, and its address (R156). -/
theorem X.header_run {op : Nat} {p : Word} {fmts : List Nat} {tb : Option (BitVec 8)} {h : Pay} (hu : Undisturbed r)
    (hh : r.s.headerOf r.x p fmts = some h) : ∃ q, X.header op p false fmts tb r = .ok (h, p.pay) q ∧ Looked r q := by
  unfold State.headerOf at hh
  split at hh
  · cases hh
  · next hok =>
    simp only [not_or, not_not] at hok
    obtain ⟨hform, hptr, haddr⟩ := hok
    split at hh
    · next w hw =>
      obtain ⟨⟨htag, hhdr, hotag, hfmt⟩, heq⟩ := Option.ite_none_right_eq_some.mp hh
      cases heq
      obtain ⟨q, hload, hq⟩ := X.elemLoad_run 8 hu (meets_of_metAt hw)
      refine ⟨q, ?_, hq⟩
      have hcheck : X.orRaise (ptrForm p.pay) r = .ok () r := by rw [hform]; rfl
      have hjudged : (if w.tag ≠ Tag.hdr ∨ (!hdrOk w.pay) = true then X.raise (Exc.reserved 4)
          else if hdrOtag w.pay ≠ p.tag then X.tagTrap op rOtag 1 (some p.tag) tb p.pay
          else if (!fmts.contains (hdrFmt w.pay)) = true then X.tagTrap op rFmt 1 (some p.tag) tb p.pay
          else return (w.pay, p.pay) : X (Pay × Pay)) q = .ok (w.pay, p.pay) q := by
        rw [if_neg (by simp [htag, hhdr]), if_neg (not_not.mpr hotag), hfmt]
        rfl
      have hall : (X.elemLoad p.pay 8 >>= fun w =>
          if w.tag ≠ Tag.hdr ∨ (!hdrOk w.pay) = true then X.raise (Exc.reserved 4)
          else if hdrOtag w.pay ≠ p.tag then X.tagTrap op rOtag 1 (some p.tag) tb p.pay
          else if (!fmts.contains (hdrFmt w.pay)) = true then X.tagTrap op rFmt 1 (some p.tag) tb p.pay
          else return (w.pay, p.pay) : X (Pay × Pay)) r = .ok (w.pay, p.pay) q := (X.bind_ok hload _).trans hjudged
      unfold X.elemLoad at hall
      simp only [bind_assoc] at hall
      unfold X.header
      exact (X.bind_ok hcheck _).trans ((X.bind_ok (X.accessCheck_plain hptr haddr) _).trans hall)
    · cases hh

/-- The operand check of an object instruction passes on tags that it accepts (R155). -/
theorem X.objCheck_ok {op : Nat} {p : Word} {okP : BitVec 8 → Bool} {i : Option Word} {v : Option (Word × (BitVec 8 → Bool))}
    (hp : okP p.tag = true) (hweak : okP Tag.weak = false) (hi : ∀ w ∈ i, w.tag = Tag.fix) (hv : ∀ w ∈ v, w.2 w.1.tag = true) :
    X.objCheck op p okP i v r = .ok () r := by
  have hne : p.tag ≠ Tag.weak := by
    intro h
    rw [h, hweak] at hp
    cases hp
  unfold X.objCheck
  refine (X.check_passed hne).trans ?_
  have hnone : tagCheck ([(1, p.tag, okP p.tag)] ++ (i.map (fun w => (2, w.tag, decide (w.tag = Tag.fix)))).toList
      ++ (v.map (fun w => (4, w.1.tag, w.2 w.1.tag))).toList) = none := by
    unfold tagCheck
    cases i with
    | none =>
      cases v with
      | none => simp [hp]
      | some v => simp [hp, hv v rfl]
    | some i =>
      cases v with
      | none => simp [hp, hi i rfl]
      | some v => simp [hp, hi i rfl, hv v rfl]
  rw [hnone]
  rfl

theorem X.vref_run {op : Nat} {p i : Word} {h : Pay} (hu : Undisturbed r) (hp : vrefTags p.tag = true) (hi : i.tag = Tag.fix)
    (hh : r.s.headerOf r.x p [fmtScan] = some h) (hin : i.pay.toNat < hdrLen h)
    (hw : r.s.metAt r.x (p.pay + p64 (8 * (i.pay.toNat + 1))) = some w) (hd : r.s.delivers r.x w = true) :
    ∃ q, X.vref op p i r = .ok w q ∧ Looked r q := by
  have hcheck : X.objCheck op p vrefTags (some i) none r = .ok () r := X.objCheck_ok hp rfl (by simpa using hi) (by simp)
  obtain ⟨q, hhead, hq⟩ := X.header_run (op := op) (tb := some i.tag) hu hh
  obtain ⟨q', hload, hq'⟩ := X.elemLoad_run 8 (hq.undisturbed hu) (hq.x ▸ hq.signed.meets (meets_of_metAt hw))
  have hlook := hq.trans hq'
  refine ⟨q', ?_, hlook⟩
  unfold X.vref
  exact (X.bind_ok hcheck _).trans ((X.bind_ok hhead _).trans ((X.check_passed (Nat.not_le.mpr hin)).trans
    ((X.bind_ok hload _).trans (X.delivered_ok (hlook.delivers hd)))))

theorem X.vlen_run {op : Nat} {p : Word} {h : Pay} (hu : Undisturbed r) (hp : vlenTags p.tag = true)
    (hh : r.s.headerOf r.x p [fmtScan, fmtBytes, fmtCode] = some h) :
    ∃ q, X.vlen op p r = .ok (Word.fixN (if hdrFmt h = fmtBytes then hdrBytes h else hdrLen h)) q ∧ Looked r q := by
  have hcheck : X.objCheck op p vlenTags none none r = .ok () r := X.objCheck_ok hp (by decide) (by simp) (by simp)
  obtain ⟨q, hhead, hq⟩ := X.header_run (op := op) (tb := none) hu hh
  exact ⟨q, (X.bind_ok hcheck _).trans (X.bind_ok hhead _), hq⟩

theorem X.bref_run {op : Nat} {p i : Word} {h : Pay} (hu : Undisturbed r) (hp : brefTags p.tag = true) (hi : i.tag = Tag.fix)
    (hh : r.s.headerOf r.x p [fmtBytes] = some h) (hin : i.pay.toNat < hdrBytes h)
    (hw : r.s.metAt r.x (p.pay + 8 + i.pay) = some w) (ht : w.tag ≠ Tag.trap) :
    ∃ q, X.bref op p i r = .ok (Word.fix (getBytes w.pay ((p.pay + 8 + i.pay).toNat % 8) 1)) q ∧ Looked r q := by
  have hcheck : X.objCheck op p brefTags (some i) none r = .ok () r := X.objCheck_ok hp rfl (by simpa using hi) (by simp)
  obtain ⟨q, hhead, hq⟩ := X.header_run (op := op) (tb := some i.tag) hu hh
  obtain ⟨q', hload, hq'⟩ := X.elemLoad_run 1 (hq.undisturbed hu) (hq.x ▸ hq.signed.meets (meets_of_metAt hw))
  refine ⟨q', ?_, hq.trans hq'⟩
  unfold X.bref
  exact (X.bind_ok hcheck _).trans ((X.bind_ok hhead _).trans ((X.check_passed (Nat.not_le.mpr hin)).trans
    ((X.bind_ok hload _).trans (X.check_passed ht))))

/-- UNWK of a WEAK word outside every heap (R307). -/
theorem X.unwk_run {op : Nat} (hu : Undisturbed r) (hnil : a ≠ Word.nil) (htag : a.tag = Tag.weak) (hform : ptrForm a.pay = none)
    (hptr : r.s.heapPtr (r.s.hen r.x) a = none) (hw : r.s.metAt r.x a.pay = some w) (hok : ¬ (w.tag = Tag.hdr ∧ hdrOk w.pay = false)) :
    ∃ q, X.unwk op a r = .ok (if w.tag = Tag.hdr then ⟨hdrOtag w.pay, a.pay⟩ else ⟨Tag.cons, a.pay⟩) q ∧ Looked r q := by
  obtain ⟨q, hload, hq⟩ := X.elemLoad_run 8 hu (meets_of_metAt hw)
  refine ⟨q, ?_, hq⟩
  have hcheck : X.orRaise (ptrForm a.pay) r = .ok () r := by rw [hform]; rfl
  have hof : X.heapOf a r = .ok none r := congrArg (EStateM.Result.ok · r) hptr
  unfold X.unwk
  refine (X.check_passed hnil).trans ((X.check_passed (not_not.mpr htag)).trans ((X.bind_ok hcheck _).trans ((X.bind_ok hof _).trans ?_)))
  refine (X.bind_ok (X.pure_run r a.pay) _).trans ((X.bind_ok (X.pure_run r false) _).trans ((X.check_passed (by decide)).trans
    ((X.bind_ok hload _).trans ?_)))
  refine (X.check_passed ?_).trans rfl
  simpa using hok

/-- A walk load by physical address (R377). -/
theorem X.walkPhys_run {tr : Tr} (hu : Undisturbed r) (h : r.s.walkWord r.x tr = some w) :
    ∃ q, X.walkPhys va tr.pa tr.cache .clean r = .ok w q ∧ Looked r q := by
  unfold State.walkWord at h
  obtain ⟨hc, h⟩ := Option.ite_none_right_eq_some.mp h
  obtain ⟨hres, h⟩ := Option.ite_none_left_eq_some.mp h
  cases h
  simp only [Bool.and_eq_true, Bool.not_eq_true'] at hc
  obtain ⟨⟨hprt, hse⟩, hreads⟩ := hc
  have hmapped : r.s.region tr.pa ≠ .unmapped := by
    intro hun
    obtain ⟨hkeep, -⟩ | hmem := (State.reads_of hreads).reach
    · rw [hun] at hkeep; cases hkeep
    · exact absurd hmem.range (by simp [hun])
  obtain ⟨q, hload, hq⟩ := X.loadPhys_wide 8 (va := va) hu (State.reads_of hreads)
  refine ⟨q, ?_, hq⟩
  have hon : X.onBusError (walkFault 1 va (some tr.pa)) (X.loadPhys tr 8 va .clean) r = .ok (r.s.word (r.s.keyOf r.x tr)) q := by
    simp only [X.onBusError, hload]
  unfold X.walkPhys
  refine (X.bind_ok (X.st_run r) _).trans ((X.bind_ok (X.ring_run r) _).trans ((X.check_passed (by rw [hprt]; decide)).trans
    ((X.check_passed (by rw [hse]; decide)).trans ((X.check_passed hmapped).trans ((X.bind_ok hon _).trans ?_)))))
  exact X.check_passed hres

end

end Sys2Proof.Machine
end

section
/-!
PROOFS. The load instructions, row by row, and the shadow of a load (O7).
-/
namespace Sys2Proof.Machine

section
variable {s : State} {at_ : At} {r : LoadRow}

/-- A load whose row says what it delivers goes through. -/
abbrev Delivers (s : State) (i : Instr) (r : LoadRow) : Prop :=
  s.loadRow i = some r → s.ready r.at_ 4 = true → ∃ t, exec i s = .next t ∧ Loaded s (ctxOf r.at_) 4 r.d r.w t

/-- An operation that gives a word for a register's word, as the body of a load. -/
theorem load_run {d a : BitVec 5} {w : Word} {g : Word → X Word} (h : ∃ q, g (s.gr (ctxOf at_) a) (startRun s at_) = .ok w q ∧ Looked (startRun s at_) q) :
    ∃ q, (do return .load d (← g (← X.rd a)) : X Flow) (startRun s at_) = .ok (.load d w) q ∧ Looked (startRun s at_) q := by
  obtain ⟨q, hrun, hq⟩ := h
  exact ⟨q, (X.bind_ok (X.rd_run _ a) _).trans (X.bind_ok hrun _), hq⟩

theorem load_run₂ {d a b : BitVec 5} {w : Word} {g : Word → Word → X Word}
    (h : ∃ q, g (s.gr (ctxOf at_) a) (s.gr (ctxOf at_) b) (startRun s at_) = .ok w q ∧ Looked (startRun s at_) q) :
    ∃ q, (do return .load d (← g (← X.rd a) (← X.rd b)) : X Flow) (startRun s at_) = .ok (.load d w) q ∧ Looked (startRun s at_) q := by
  obtain ⟨q, hrun, hq⟩ := h
  exact ⟨q, (X.bind_ok (X.rd_run _ a) _).trans ((X.bind_ok (X.rd_run _ b) _).trans (X.bind_ok hrun _)), hq⟩

theorem Ready.starts (h : s.ready at_ 4 = true) : Undisturbed (startRun s at_) := (State.ready_iff s at_ 4 h).undisturbed

/-! ### Plain loads (R160) -/

/-- A format I load of majors 0x10 to 0x1A that any ring may issue. -/
theorem loadI_loads {f : IF} {maj : Nat} {w : Word} {op : Pay → X Flow} (hm : iMeta maj = some (metaR maj 0).da)
    (himm : immOk maj f.imm.toNat = true) (hsigned : immUnsigned maj = false) (h : s.ready at_ 4 = true)
    (hb : ∃ q, op (sext16 f.imm) (startRun s at_) = .ok (.load f.d w) q ∧ Looked (startRun s at_) q) :
    ∃ t, fin s (s.rowI at_ f maj op) = .next t ∧ Loaded s (ctxOf at_) 4 f.d w t :=
  rowI_loads hm rfl himm hsigned (ring_le _) rfl h hb

theorem ld_delivers (f : IF) : Delivers s (.ld at_ f) r := by
  intro h hr
  simp only [State.loadRow] at h
  split at h
  · next va w hw =>
    obtain ⟨hd, heq⟩ := Option.ite_none_right_eq_some.mp h
    cases heq
    exact loadI_loads (maj := 0x10) rfl rfl rfl hr (load_run (g := fun a => X.ld opLS a (sext16 f.imm)) (X.ld_run (Ready.starts hr) hw hd))
  · cases h

theorem ldt_delivers (f : IF) : Delivers s (.ldt at_ f) r := by
  intro h hr
  simp only [State.loadRow] at h
  split at h
  · next va w hw =>
    cases h
    exact loadI_loads (maj := 0x12) rfl rfl rfl hr (load_run (g := fun a => X.ldt opLS a (sext16 f.imm)) (X.ldt_run (Ready.starts hr) hw))
  · cases h

theorem ldx_delivers (f : IF) : Delivers s (.ldx at_ f) r := by
  intro h hr
  simp only [State.loadRow] at h
  split at h
  · next va w hw =>
    obtain ⟨⟨hring, hres⟩, heq⟩ := Option.ite_none_right_eq_some.mp h
    cases heq
    obtain ⟨q, hload, hq⟩ := X.loadAt_run (op := opLS) false (Ready.starts hr) hw
    refine rowI_loads (maj := 0x14) (m := (metaR 0x14 0).da.priv) (op := fun v => opLdx f.d f.a v) rfl rfl rfl rfl hring rfl hr ⟨q, ?_, hq⟩
    exact (X.bind_ok (X.rd_run _ f.a) _).trans ((X.bind_ok hload _).trans (X.check_passed (by rw [hres]; decide)))
  · cases h

theorem partWord_delivers {f : IF} {maj width : Nat} {op : Pay → X Flow} (hm : iMeta maj = some (metaR maj 0).da)
    (himm : immOk maj f.imm.toNat = true) (hsigned : immUnsigned maj = false)
    (hop : op (sext16 f.imm) = do return .load f.d (← X.lpart opLS (← X.rd f.a) (sext16 f.imm) width))
    (h : s.partWord at_ f width = some r) (hr : s.ready r.at_ 4 = true) :
    ∃ t, fin s (s.rowI at_ f maj op) = .next t ∧ Loaded s (ctxOf r.at_) 4 r.d r.w t := by
  unfold State.partWord at h
  split at h
  · next va w hw =>
    obtain ⟨ht, heq⟩ := Option.ite_none_left_eq_some.mp h
    cases heq
    refine loadI_loads hm himm hsigned hr ?_
    rw [hop]
    exact load_run (g := fun a => X.lpart opLS a (sext16 f.imm) width) (X.lpart_run (Ready.starts hr) hw ht)
  · cases h

/-! ### Lists and objects (R152, R155, R307) -/

/-- CAR and CDR. -/
theorem pairWord_delivers {f : RF} {min op : Nat} {off : Pay} (hm : rMeta 0x04 min = some (metaR 0x04 min).da)
    (h : s.pairWord at_ f off = some r) (hr : s.ready r.at_ 4 = true) :
    ∃ t, fin s (s.rowR at_ f 0x04 min false (fun _ => do return .load f.d (← X.carCdr op off (← X.rd f.a)))) = .next t ∧
      Loaded s (ctxOf r.at_) 4 r.d r.w t := by
  unfold State.pairWord at h
  dsimp only at h
  split at h
  · cases h
  · next hfields =>
    simp only [not_or, not_not] at hfields
    have hrsv : (metaR 0x04 min).da.rsvR f = true := by simp [Meta.rsvR, metaR, Meta.da, hfields.1, hfields.2]
    split at h
    · next hnil =>
      cases h
      exact rowR_loads hm hrsv rfl hr (load_run (g := X.carCdr op off) ⟨startRun s at_, by rw [X.carCdr, if_pos hnil]; rfl, Looked.refl _⟩)
    · next hnil =>
      split at h
      · cases h
      · next htag =>
        split at h
        · next va w hw =>
          obtain ⟨hd, heq⟩ := Option.ite_none_right_eq_some.mp h
          cases heq
          obtain ⟨q, hload, hq⟩ := X.ld_run (op := op) (Ready.starts hr) hw hd
          refine rowR_loads hm hrsv rfl hr (load_run (g := X.carCdr op off) ⟨q, ?_, hq⟩)
          rw [X.carCdr, if_neg hnil, if_pos (not_not.mp htag)]
          exact hload
        · cases h

theorem vref_delivers (f : RF) : Delivers s (.vref at_ f) r := by
  intro h hr
  simp only [State.loadRow] at h
  split at h
  · cases h
  · next hfields =>
    simp only [not_or, Bool.not_eq_false, not_not] at hfields
    obtain ⟨hrsv, hp, hi⟩ := hfields
    split at h
    · next hd hh =>
      obtain ⟨hin, h⟩ := Option.ite_none_left_eq_some.mp h
      split at h
      · next w hw =>
        obtain ⟨hdel, heq⟩ := Option.ite_none_right_eq_some.mp h
        cases heq
        exact rowR_loads (maj := 0x05) (min := 0) (m := metaR 0x05 0) rfl (by simp [Meta.rsvR, metaR, hrsv]) rfl hr
          (load_run₂ (g := X.vref 21) (X.vref_run (Ready.starts hr) hp hi hh (Nat.not_le.mp hin) hw hdel))
      · cases h
    · cases h

theorem vlen_delivers (f : RF) : Delivers s (.vlen at_ f) r := by
  intro h hr
  simp only [State.loadRow] at h
  split at h
  · cases h
  · next hfields =>
    simp only [not_or, Bool.not_eq_false, not_not] at hfields
    obtain ⟨hrsv, hb, hp⟩ := hfields
    split at h
    · next hd hh =>
      cases h
      exact rowR_loads (maj := 0x05) (min := 2) (m := (metaR 0x05 2).da) rfl (by simp [Meta.rsvR, metaR, Meta.da, hrsv, hb]) rfl hr
        (load_run (g := X.vlen 23) (X.vlen_run (Ready.starts hr) hp hh))
    · cases h

theorem bref_delivers (f : RF) : Delivers s (.bref at_ f) r := by
  intro h hr
  simp only [State.loadRow] at h
  split at h
  · cases h
  · next hfields =>
    simp only [not_or, Bool.not_eq_false, not_not] at hfields
    obtain ⟨hrsv, hp, hi⟩ := hfields
    split at h
    · next hd hh =>
      obtain ⟨hin, h⟩ := Option.ite_none_left_eq_some.mp h
      split at h
      · next w hw =>
        obtain ⟨ht, heq⟩ := Option.ite_none_left_eq_some.mp h
        cases heq
        exact rowR_loads (maj := 0x05) (min := 3) (m := metaR 0x05 3) rfl (by simp [Meta.rsvR, metaR, hrsv]) rfl hr
          (load_run₂ (g := X.bref 24) (X.bref_run (Ready.starts hr) hp hi hh (Nat.not_le.mp hin) hw ht))
      · cases h
    · cases h

theorem unwk_delivers (f : RF) : Delivers s (.unwk at_ f) r := by
  intro h hr
  simp only [State.loadRow] at h
  split at h
  · cases h
  · next hfields =>
    simp only [not_or, not_not] at hfields
    have hrsv : (metaR 0x05 5).da.rsvR f = true := by simp [Meta.rsvR, metaR, Meta.da, hfields.1, hfields.2]
    have row {w : Word} (hrdy : s.ready at_ 4 = true)
        (hb : ∃ q, X.unwk 26 (s.gr (ctxOf at_) f.a) (startRun s at_) = .ok w q ∧ Looked (startRun s at_) q) :
        ∃ t, exec (.unwk at_ f) s = .next t ∧ Loaded s (ctxOf at_) 4 f.d w t :=
      rowR_loads (maj := 0x05) (min := 5) rfl hrsv rfl hrdy (load_run (g := X.unwk 26) hb)
    split at h
    · next hnil =>
      cases h
      exact row hr ⟨startRun s at_, by rw [X.unwk, if_pos hnil]; rfl, Looked.refl _⟩
    · next hnil =>
      split at h
      · cases h
      · next hweak =>
        simp only [not_or, not_not] at hweak
        obtain ⟨htag, hform, hptr⟩ := hweak
        split at h
        · next w hw =>
          obtain ⟨hok, heq⟩ := Option.ite_none_left_eq_some.mp h
          cases heq
          exact row hr (X.unwk_run (Ready.starts hr) hnil htag hform hptr hw hok)
        · cases h

/-! ### Walk loads (R376, R377) -/

theorem walk_rsvI (maj : Nat) (f : IF) : (metaR maj 0).da.priv.rsvI f = true := rfl

theorem ldw_delivers (f : IF) : Delivers s (.ldw at_ f) r := by
  intro h hr
  simp only [State.loadRow] at h
  obtain ⟨hring, h⟩ := Option.ite_none_left_eq_some.mp h
  split at h
  · next va hea =>
    obtain ⟨w, hw, heq⟩ := Option.map_eq_some_iff.mp h
    cases heq
    have hu := Ready.starts hr
    have heff : X.effective opLS (s.gr (ctxOf at_) f.a) (sext16 f.imm) 8 false false (pure ()) none (startRun s at_) =
        .ok va (startRun s at_) := X.effective_ok hu hea rfl (by simp)
    have hacc : Looked (startRun s at_) { startRun s at_ with acc := (startRun s at_).acc + 1 } := ⟨rfl, rfl, rfl, Signed.refl _ _⟩
    obtain ⟨q, hwalk, hq⟩ := X.walkPhys_run (va := va) (hacc.undisturbed hu) hw
    refine rowI_loads (maj := 0x1B) (op := fun v => opLdw f.d f.a v) rfl (walk_rsvI _ f) rfl rfl (Nat.not_lt.mp hring) rfl hr
      ⟨q, ?_, hacc.trans hq⟩
    exact (X.bind_ok (X.rd_run _ f.a) _).trans ((X.bind_ok heff _).trans ((X.bind_ok (X.met_clean hu) _).trans
      ((X.bind_ok (X.st_run _) _).trans (X.bind_ok hwalk _))))
  · cases h

theorem ldwt_delivers (f : IF) : Delivers s (.ldwt at_ f) r := by
  intro h hr
  simp only [State.loadRow] at h
  obtain ⟨hring, h⟩ := Option.ite_none_left_eq_some.mp h
  split at h
  · next va hea =>
    split at h
    · next i hi =>
      obtain ⟨hden, h⟩ := Option.ite_none_right_eq_some.mp h
      obtain ⟨w, hw, heq⟩ := Option.map_eq_some_iff.mp h
      cases heq
      have hu := Ready.starts hr
      have heff : X.effective opLS (s.gr (ctxOf at_) f.a) (sext16 f.imm) 8 false false (pure ()) none (startRun s at_) =
          .ok va (startRun s at_) := X.effective_ok hu hea rfl (by simp)
      have hacc : Looked (startRun s at_) { startRun s at_ with acc := (startRun s at_).acc + 1 } := ⟨rfl, rfl, rfl, Signed.refl _ _⟩
      obtain ⟨q, hwalk, hq⟩ := X.walkPhys_run (va := va) (hacc.undisturbed hu) hw
      refine rowI_loads (maj := 0x1C) (op := fun v => opLdwt f.d f.a v) rfl (walk_rsvI _ f) rfl rfl (Nat.not_lt.mp hring) rfl hr
        ⟨q, ?_, hacc.trans hq⟩
      refine (X.bind_ok (X.rd_run _ f.a) _).trans ((X.bind_ok heff _).trans ((X.bind_ok (X.met_clean hu) _).trans
        ((X.bind_ok (X.ctx_run _) _).trans ((X.bind_ok (X.st_run _) _).trans ((X.bind_ok (X.core_run _) _).trans ?_)))))
      dsimp only
      rw [hi]
      refine (X.check_passed (by decide)).trans ?_
      rw [hden]
      exact X.bind_ok hwalk _
    · cases h
  · cases h

end

/-- The first clause of O7. -/
theorem loads_deliver (i : Instr) (s : State) (r : LoadRow) : Delivers s i r := by
  cases i
  case ld at_ f => exact ld_delivers f
  case ldt at_ f => exact ldt_delivers f
  case ldx at_ f => exact ldx_delivers f
  case l8 at_ f => exact partWord_delivers (maj := 0x15) rfl rfl rfl rfl
  case l16 at_ f => exact partWord_delivers (maj := 0x16) rfl rfl rfl rfl
  case l32 at_ f => exact partWord_delivers (maj := 0x17) rfl rfl rfl rfl
  case car at_ f => exact pairWord_delivers (min := 0) rfl
  case cdr at_ f => exact pairWord_delivers (min := 1) rfl
  case vref at_ f => exact vref_delivers f
  case vlen at_ f => exact vlen_delivers f
  case bref at_ f => exact bref_delivers f
  case unwk at_ f => exact unwk_delivers f
  case ldw at_ f => exact ldw_delivers f
  case ldwt at_ f => exact ldwt_delivers f
  all_goals exact fun h => by cases h

/-! ### The shadow (R127) -/

section
variable {s : State} {x : Nat} {p : PendLoad}

/-- A load with more than one instruction still to retire stays pending. -/
theorem State.ctx_landLoads_waits (h : (s.ctx x).loads = [p]) (hn : p.rem = 2) :
    (s.landLoads x).ctx x = { s.ctx x with loads := [{ p with rem := 1 }] } := by
  unfold State.landLoads
  simp only [h, List.map_cons, List.map_nil, hn, State.updCtx_eq, State.ctx_setCtx_self]
  rfl

/-- A load with one instruction still to retire is written. -/
theorem State.ctx_landLoads_lands (h : (s.ctx x).loads = [p]) (hn : p.rem = 1) :
    (s.landLoads x).ctx x = { (s.ctx x).wrKey (regKey p.bank p.reg) p.val with loads := [] } := by
  unfold State.landLoads
  simp only [h, List.map_cons, List.map_nil, hn, State.updCtx_eq, State.ctx_setCtx_self]
  show ({ (s.wrRegBank x p.reg p.bank p.val).ctx x with loads := [] } : Ctx) = _
  rw [State.ctx_wrRegBank]

end

/-- A context with a pending load, once the next instruction has retired in sequence. -/
theorem Ctx.retired_fields {c : Ctx} (hs : c.stepping = false) (hi : c.innermost = none) (slots : List Pay) (next : Pay) :
    (c.marked.endAction slots next).regs = c.regs ∧ (c.marked.endAction slots next).loads = c.loads ∧
      (c.marked.endAction slots next).sp Sr.winb = c.sp Sr.winb := by
  have hinner : c.marked.innermost = none := by
    rw [Ctx.marked, Ctx.stepEnd_of _ hs, ← hi]
    exact Ctx.innermost_congr rfl
  rw [Ctx.endAction, hinner, Ctx.marked, Ctx.stepEnd_of _ hs]
  exact ⟨rfl, rfl, (Ctx.sp_setSp _ _ _ _).trans (if_neg (by decide))⟩

theorem Ctx.regs_wrKey_loads (c : Ctx) (l : List PendLoad) (k : Nat) (w : Word) :
    ({ c with loads := l }.wrKey k w).regs = (c.wrKey k w).regs := by
  unfold Ctx.wrKey
  split <;> rfl

/-- A NOP while one load is pending, as the second clause of O7 says it. -/
theorem nop_shadow {s : State} {at_ : At} {d : BitVec 5} {w : Word} {n : Nat} (h : s.ready at_ 4 = true)
    (hf : (s.setCtx (ctxOf at_) { s.ctx (ctxOf at_) with loads := [⟨n, d, (s.ctx (ctxOf at_)).bank, w⟩] }).fetches (ctxOf at_)
      (s.ctx (ctxOf at_)).pc = true) (hd : d ≠ 0) :
    ∃ t, exec (.nop at_ {}) (s.setCtx (ctxOf at_) { s.ctx (ctxOf at_) with loads := [⟨n, d, (s.ctx (ctxOf at_)).bank, w⟩] }) = .next t ∧
      (n = 2 → (t.ctx (ctxOf at_)).rd d = (s.ctx (ctxOf at_)).rd d ∧
        (t.ctx (ctxOf at_)).loads = [⟨1, d, (s.ctx (ctxOf at_)).bank, w⟩]) ∧
      (n = 1 → (t.ctx (ctxOf at_)).rd d = w ∧ (t.ctx (ctxOf at_)).loads = []) := by
  have hr := State.ready_iff s at_ 4 h
  have hissue := hr.issuable_setCtx (c := { s.ctx (ctxOf at_) with loads := [⟨n, d, (s.ctx (ctxOf at_)).bank, w⟩] }) rfl rfl rfl rfl hf
  have hctx := State.ctx_setCtx_self s (ctxOf at_) { s.ctx (ctxOf at_) with loads := [⟨n, d, (s.ctx (ctxOf at_)).bank, w⟩] }
  generalize s.setCtx (ctxOf at_) { s.ctx (ctxOf at_) with loads := [⟨n, d, (s.ctx (ctxOf at_)).bank, w⟩] } = u at *
  refine ⟨_, nop_retires hissue, fun hn => ?_, fun hn => ?_⟩
  · have hland := State.ctx_landLoads_waits (s := u) (x := ctxOf at_) (congrArg Ctx.loads hctx) hn
    rw [hctx] at hland
    obtain ⟨hregs, hloads, hwinb⟩ := Ctx.retired_fields (c := (u.landLoads (ctxOf at_)).ctx (ctxOf at_)) (by rw [hland]; exact hr.stepping)
      (by rw [hland, ← hr.innermost]; exact Ctx.innermost_congr rfl) [(u.ctx (ctxOf at_)).pc] ((u.ctx (ctxOf at_)).pc + 4)
    rw [State.ctx_retire, Ctx.rd, Ctx.bank_congr hwinb, Ctx.rdKey_congr hregs, hloads, hland]
    exact ⟨rfl, rfl⟩
  · have hland := State.ctx_landLoads_lands (s := u) (x := ctxOf at_) (congrArg Ctx.loads hctx) hn
    rw [hctx] at hland
    have hsr : ((u.landLoads (ctxOf at_)).ctx (ctxOf at_)).sr = (s.ctx (ctxOf at_)).sr := by
      rw [hland]
      dsimp only
      rw [Ctx.wrKey_same]
    obtain ⟨hregs, hloads, hwinb⟩ := Ctx.retired_fields (c := (u.landLoads (ctxOf at_)).ctx (ctxOf at_))
      (by rw [hland]; dsimp only; rw [Ctx.wrKey_same]; exact hr.stepping)
      (by rw [← hr.innermost]; exact Ctx.innermost_congr hsr) [(u.ctx (ctxOf at_)).pc] ((u.ctx (ctxOf at_)).pc + 4)
    rw [State.ctx_retire]
    refine ⟨Ctx.rd_of_written (c := s.ctx (ctxOf at_)) hd ?_ ?_, ?_⟩
    · rw [hregs, hland]
      exact Ctx.regs_wrKey_loads (s.ctx (ctxOf at_)) _ _ _
    · rw [hwinb, Ctx.sp, hsr]; rfl
    · rw [hloads, hland]

/-- Settles O7: each row's body loads words that go through and gives the row's word, which its retirement makes pending; a
NOP then counts the load down, and the second one lands it. -/
theorem loadsAndTheirShadow : Obligations.LoadsAndTheirShadow := by
  unfold Obligations.LoadsAndTheirShadow
  exact ⟨fun i s r => loads_deliver i s r, fun s at_ d w n h hf hd _ => nop_shadow h hf hd⟩

end Sys2Proof.Machine
end

section
/-!
PROOFS. ZAL through a frame that does not begin at a line (O8).

The statement ranges over every state, so also over one whose resident frames begin at an address that is no multiple of 64. An
offset that is a multiple of 64 within such a frame gives a physical address that is none, and the eight words that ZAL writes from
there up then lie in two lines. That no cache holds the first line says nothing about the second.
-/
namespace Sys2Proof.Machine

/-- Context 0 of a split twin 0 that fetches from the Boot ROM, with block 0 of a mounted store resident in frame 0, G1 a PREF to its
first word, and the frames beginning at 0x1008; the L2 of cluster 0 holds line 0x41. -/
def skewedFrame : State :=
  { State.reset with
    twins := [(0, { Twin.reset with mode := .split })]
    ctxs := [(0, { Ctx.boot with regs := [(1, ⟨Tag.pref, 0⟩)] })]
    clusters := [(0, { Cluster.reset with orc := [(0, 0)], l2 := [(0x41, ⟨0, false, false⟩)] })]
    dev := Tbl.insert State.reset.dev (oSto + 0x18) (1 <<< 63)
    sto := { State.reset.sto with frvBase := 0x1008 } }

/-- ZAL there zeroes words of line 0x41 too, so the L2 loses its copy. -/
theorem zal_skewedFrame :
    (match exec (.zal { x := 0 } { a := 1 }) skewedFrame with
      | .next t => (t.cluster 0).l2.isEmpty
      | _ => false) = true := by decide

/-- Refutes O8: ZAL at a PREF whose frame begins at 0x1008 writes into two lines, and the cluster that holds the second loses it, so
that more than a context and memory has changed. -/
theorem not_storesAndObjects : ¬ Obligations.StoresAndObjects := by
  unfold Obligations.StoresAndObjects
  intro ⟨_, hzal, _⟩
  obtain ⟨t, hexec, hstored, -⟩ := hzal skewedFrame { x := 0 } { a := 1 } 0x1008 0x1008 0x1008 (Word.raw 0) (by decide) rfl (by decide)
    (by decide) (by decide)
  have hdropped := zal_skewedFrame
  rw [hexec] at hdropped
  have hkept : t.cluster 0 = skewedFrame.cluster 0 := by rw [hstored.rest]; rfl
  simp only [hkept] at hdropped
  exact absurd hdropped (by decide)

end Sys2Proof.Machine
end

section
/-!
PROOFS. Stores of a word that go straight to memory: how one runs, and what the end of the command leaves (R159, R172, R427).
-/
namespace Sys2Proof.Machine

/-! ### A store runs -/

/-- What `State.writes` says of a store: that it goes straight to memory, and that no earlier store or sweep is in its way. -/
structure Writes (s : State) (x : Nat) (tr : Tr) : Prop extends Straight s x tr where
  notSwept : bit ((s.core (s.coreOf x)).sp Sr.cctl) 15 = false
  l2NotSwept : (s.l2Sweeping (clusterOfCore (s.coreOf x)) && tr.cache) = false
  unbuffered : s.bufferedAt (s.coreOf x) tr.pa = false
  forwarded : s.forwarded x tr.pa (s.word (s.keyOf x tr)) = s.word (s.keyOf x tr)

theorem State.writes_of {s : State} {x : Nat} {tr : Tr} (h : s.writes x tr = true) : Writes s x tr := by
  have hstraight := State.straight_of h
  unfold State.writes at h
  simp only [Bool.and_eq_true, Bool.not_eq_true', decide_eq_true_eq] at h
  obtain ⟨⟨⟨⟨⟨⟨⟨⟨⟨⟨⟨⟨-, -⟩, hcctl⟩, hl2⟩, -⟩, -⟩, -⟩, hbuffered⟩, hforwarded⟩, -⟩, -⟩, -⟩, -⟩ := h
  exact { hstraight with notSwept := hcctl, l2NotSwept := hl2, unbuffered := hbuffered, forwarded := hforwarded }

theorem Writes.outbox {s : State} {x : Nat} {tr : Tr} (h : Writes s x tr) (o : List Out) : Writes { s with outbox := o } x tr :=
  { h.toStraight.beside (beside_outbox s o) with
    notSwept := h.notSwept, l2NotSwept := h.l2NotSwept, unbuffered := h.unbuffered, forwarded := h.forwarded }

/-- A run whose accesses meet nothing by themselves, whatever is on its way out. -/
structure Steady (r : Run) : Prop where
  met : r.at_.met = .clean
  obs : (r.s.ctx r.x).obs = []
  held : r.held = none

theorem Undisturbed.steady {r : Run} (h : Undisturbed r) : Steady r := ⟨h.met, h.obs, h.held⟩

/-- q is the run r after it has posted the stores of l. -/
structure Emitted (r : Run) (l : List (Word × Tr)) (q : Run) : Prop where
  x : q.x = r.x
  at_ : q.at_ = r.at_
  held : q.held = r.held
  s : q.s = { r.s with outbox := r.s.outbox ++ l.map (storeOut r.x (r.s.coreOf r.x) (r.s.ctx r.x).pc) }

section
variable {r q : Run} {l : List (Word × Tr)}

theorem Emitted.ctx (h : Emitted r l q) (y : Nat) : q.s.ctx y = r.s.ctx y := by rw [h.s]; rfl

theorem Emitted.steady (h : Emitted r l q) (hr : Steady r) : Steady q :=
  ⟨by rw [h.at_]; exact hr.met, by rw [h.x, h.ctx]; exact hr.obs, h.held.trans hr.held⟩

theorem Emitted.writes (h : Emitted r l q) {tr : Tr} (hw : Writes r.s r.x tr) : Writes q.s q.x tr := by
  rw [h.x, h.s]
  exact hw.outbox _

theorem Emitted.trans {m : List (Word × Tr)} {p : Run} (h : Emitted r l q) (g : Emitted q m p) : Emitted r (l ++ m) p where
  x := g.x.trans h.x
  at_ := g.at_.trans h.at_
  held := g.held.trans h.held
  s := by
    rw [g.s, h.x, h.ctx, h.s, List.map_append, ← List.append_assoc]
    rfl

end

section
variable {r : Run} {tr : Tr}

theorem X.met_steady (h : Steady r) : X.met r = .ok .clean { r with acc := r.acc + 1 } := by
  simp only [X.met, h.met, ite_self]

theorem X.translate_store {ring : Nat} {va : Pay} (h : Steady r) (ht : r.s.translate r.x ring .store va = .ok tr)
    (hw : Writes r.s r.x tr) : X.translate ring .store va .clean r = .ok tr { r with seen := r.seen ++ [.tr tr.pa tr.cache] } := by
  have hl : X.lookup ring .store va .clean r = .ok tr r := by
    have hsweep := hw.l2NotSwept
    unfold X.lookup
    simp only [hw.notSwept, ht, Bool.false_eq_true, false_and, if_false]
    rw [if_neg]
    simpa [Bool.and_eq_false_iff] using hsweep
  have honce : X.once (do let t ← X.lookup ring .store va .clean; pure (.tr t.pa t.cache)) r =
      .ok (.tr tr.pa tr.cache) { r with seen := r.seen ++ [.tr tr.pa tr.cache] } := by
    simp only [X.once, h.obs, List.getElem?_nil, X.bind_ok hl, X.pure_run]
  exact X.bind_ok honce _

/-- Such a store is not kept in the store buffer. -/
theorem Writes.not_buffers {s : State} {x : Nat} (h : Writes s x tr) : s.buffers x tr .clean = false := by
  obtain hr | hr | ⟨hr, -⟩ := h.range
  all_goals
    simp only [State.buffers, h.notTight, h.notLoose, h.unbuffered, hr]
    rfl

/-- Such a store meets the word of memory that it replaces. -/
theorem X.storeMeets_run (h : Steady r) (hw : Writes r.s r.x tr) :
    X.storeMeets tr .clean r = .ok (some (r.s.word (r.s.keyOf r.x tr))) r := by
  have hroom : X.bufferRoom tr .clean r = .ok () r := by
    unfold X.bufferRoom
    refine (X.bind_ok (X.st_run r) _).trans ((X.bind_ok (X.ctxNo_run r) _).trans ((X.bind_ok (X.core_run r) _).trans ?_))
    exact X.check_passed (by rw [hw.not_buffers]; exact Bool.false_ne_true)
  have hram : ((r.s.region tr.pa).isRam && (decide (r.s.region tr.pa ≠ .keep) || keepSource (r.s.coreOf r.x))) = true := by
    obtain hr | hr | ⟨hr, -⟩ := hw.range <;> rw [hr] <;> rfl
  have hover : X.overlaid tr.pa (r.s.word (r.s.keyOf r.x tr)) r = .ok (r.s.word (r.s.keyOf r.x tr)) r := by
    simp only [X.overlaid, h.held, Option.getD_none, hw.forwarded, overlay, List.foldl_nil]
  have hdemand : (if (!r.s.uncached (r.s.coreOf r.x) (r.s.keyOf r.x tr) tr.cache) = true
      then X.demand (r.s.coreOf r.x) (r.s.keyOf r.x tr) (fun s => s.cacheRead (r.s.coreOf r.x) (r.s.keyOf r.x tr)) else pure () : X Unit) r =
      .ok () r := X.check_passed (by rw [show r.s.uncached (r.s.coreOf r.x) (r.s.keyOf r.x tr) tr.cache = true from hw.far]; decide)
  unfold X.storeMeets
  refine (X.bind_ok (X.st_run r) _).trans ((X.bind_ok (X.core_run r) _).trans ((X.bind_ok hroom _).trans ?_))
  rw [hram, if_pos rfl]
  refine (X.bind_ok (X.cacheErrors_clean hw.unpoisoned) _).trans ((X.bind_ok (X.st_run r) _).trans ((X.when_run hdemand).trans ?_))
  exact (X.bind_ok (X.st_run r) _).trans (X.bind_ok hover _)

/-- It is posted, and on its way out (R47). -/
theorem X.emit_run (hw : Writes r.s r.x tr) (v : Word) : ∃ q, X.emit tr 8 v .clean r = .ok () q ∧ Emitted r [(v, tr)] q := by
  have hpost : r.s.postStore r.x tr 8 v (r.s.ctx r.x).pc =
      { r.s with outbox := r.s.outbox ++ [storeOut r.x (r.s.coreOf r.x) (r.s.ctx r.x).pc (v, tr)] } := by
    have hpush := hw.pushOne (e := (v, tr)) (r.s.ctx r.x).pc
    rwa [State.pushOne, hw.unpoisoned, if_neg Bool.false_ne_true] at hpush
  refine ⟨{ r with s := { r.s with outbox := r.s.outbox ++ [storeOut r.x (r.s.coreOf r.x) (r.s.ctx r.x).pc (v, tr)] } }, ?_, rfl, rfl, rfl, rfl⟩
  unfold X.emit
  refine (X.bind_ok (X.ctxNo_run r) _).trans ((X.bind_ok (X.core_run r) _).trans ((X.bind_ok (X.ctx_run r) _).trans ?_))
  show EStateM.Result.ok () { r with s := if r.s.buffers r.x tr .clean = true then _ else r.s.postStore r.x tr 8 v (r.s.ctx r.x).pc } = _
  rw [hw.not_buffers, if_neg Bool.false_ne_true, hpost]

/-- A store at a ring and address, outside every heap, that goes straight to memory. -/
def Pushes (s : State) (x ring : Nat) (va : Pay) (tr : Tr) : Prop :=
  s.heapAt (s.hen x) va.toNat = none ∧ s.translate x ring .store va = .ok tr ∧ Writes s x tr

theorem pushes_of_pushAt {s : State} {x ring key : Nat} {va : Pay} (h : s.pushAt x ring va = some key) :
    ∃ tr, Pushes s x ring va tr ∧ s.keyOf x tr = key := by
  unfold State.pushAt at h
  split at h
  · cases h
  · next hheap =>
    cases htr : s.translate x ring .store va with
    | error e => rw [htr] at h; cases h
    | ok tr =>
      rw [htr] at h
      obtain ⟨hw, hkey⟩ := Option.ite_none_right_eq_some.mp h
      exact ⟨tr, ⟨not_not.mp hheap, htr, State.writes_of hw⟩, Option.some.inj hkey⟩

theorem Emitted.pushes {q : Run} {l : List (Word × Tr)} (h : Emitted r l q) {ring : Nat} {va : Pay} (hp : Pushes r.s r.x ring va tr) :
    Pushes q.s q.x ring va tr := by
  obtain ⟨hheap, htr, hw⟩ := hp
  refine ⟨?_, ?_, h.writes hw⟩
  · rw [h.x, h.s]; exact hheap
  · rw [h.x, h.s]; exact htr

/-- A run that has counted an access and noted a finding. -/
abbrev Run.noted (r : Run) (tr : Tr) : Run := { r with acc := r.acc + 1, seen := r.seen ++ [.tr tr.pa tr.cache] }

/-- A word stored without a barrier (R172, R468). -/
theorem X.pushWord_run {ring : Nat} {va : Pay} (h : Steady r) (hp : Pushes r.s r.x ring va tr) (w : Word) :
    ∃ q, X.pushWord ring va w r = .ok () q ∧ Emitted r [(w, tr)] q := by
  obtain ⟨hheap, htr, hw⟩ := hp
  have hacc : Steady { r with acc := r.acc + 1 } := ⟨h.met, h.obs, h.held⟩
  have hseen : Steady (r.noted tr) := ⟨h.met, h.obs, h.held⟩
  obtain ⟨q, hemit, hq⟩ := X.emit_run (r := r.noted tr) hw w
  refine ⟨q, ?_, hq.x, hq.at_, hq.held, hq.s⟩
  unfold X.pushWord
  exact (X.bind_ok (X.accessCheck_raw hheap) _).trans ((X.bind_ok (X.met_steady h) _).trans
    ((X.bind_ok (X.translate_store hacc htr hw) _).trans ((X.bind_ok (X.storeMeets_run hseen hw) _).trans hemit)))

end

/-! ### The end of a command that posted stores -/

/-- t is s with its context x changed and the stores of l posted. -/
structure Posting (s : State) (x : Nat) (pc : Pay) (l : List (Word × Tr)) (t : State) : Prop where
  rest : t = { s with ctxs := t.ctxs, outbox := l.map (storeOut x (s.coreOf x) pc) }
  others : ∀ y, y ≠ x → t.ctx y = s.ctx y

/-- t is u with the stores of l made, from s. -/
structure Landed (s : State) (x : Nat) (l : List (Word × Tr)) (u t : State) : Prop where
  rest : t = { s with ctxs := u.ctxs, mem := t.mem, tags := t.tags }
  ctx : ∀ y, t.ctx y = u.ctx y
  words : ((l.map (fun e => s.keyOf x e.2 / 8)).Nodup) → l.map (fun e => t.word (s.keyOf x e.2)) = l.map (·.1)
  bytes : ∀ a, a / 8 ∉ l.map (fun e => s.keyOf x e.2 / 8) → t.byte a = s.byte a ∧ t.tagAt a = s.tagAt a

section
variable {s u t : State} {x : Nat} {pc : Pay} {l : List (Word × Tr)}

/-- What stands at a run that has posted stores at the beginning of its command. -/
theorem Emitted.posting {r q : Run} (h : Emitted r l q) (hc : r.s.calm = true) : Posting r.s r.x (r.s.ctx r.x).pc l q.s where
  rest := by rw [h.s, State.outbox_of_calm hc]; rfl
  others y _ := h.ctx y

theorem Posting.setCtx (h : Posting s x pc l t) (c : Ctx) : Posting s x pc l (t.setCtx x c) where
  rest := by
    conv_lhs => rw [h.rest]
    rfl
  others y hy := by rw [State.ctx_setCtx, if_neg (Ne.symm hy)]; exact h.others y hy

theorem Posting.isTight (h : Posting s x pc l t) : t.isTight x = s.isTight x := by rw [h.rest]; rfl

/-- Whatever changes context x alone keeps the posted stores. -/
theorem Posting.near (h : Posting s x pc l t) (hn : Near t x u) (ht : u.twins = t.twins) : Posting s x pc l u where
  rest := by
    rw [hn.rest, ht]
    conv_lhs => rw [h.rest]
  others y hy := (hn.others y hy).trans (h.others y hy)

theorem Posting.wrReg (h : Posting s x pc l t) (htight : s.isTight x = false) (d : BitVec 5) (w : Word) : Posting s x pc l (t.wrReg x d w) := by
  have heq : t.wrReg x d w = t.setCtx x ((t.ctx x).wr d w) := by
    unfold State.wrReg
    simp only [State.updCtx_eq, h.isTight, htight, Bool.false_eq_true]
    rfl
  rw [heq]
  exact h.setCtx _

theorem Posting.retire (h : Posting s x pc l t) (htight : s.isTight x = false) (hp : (t.ctx x).Plain) (hi : (t.ctx x).innermost = none)
    (slots : List Pay) (next : Pay) :
    Posting s x pc l (t.retire x slots next none) ∧ (t.retire x slots next none).ctx x = (t.ctx x).retired next := by
  obtain ⟨hn, hctx, -⟩ := State.retire_plain t x slots next hp hi
  exact ⟨h.near hn (State.retire_twins t x slots next hp.loads (h.isTight.trans htight)), hctx⟩

theorem Posting.retireTo (h : Posting s x pc l t) (htight : s.isTight x = false) (hp : (t.ctx x).Plain) (target : Pay) :
    Posting s x pc l (t.retireTo x target) ∧ (t.retireTo x target).ctx x = (t.ctx x).retired target := by
  obtain ⟨hn, hctx, -⟩ := State.retireTo_plain t x target hp
  have haside := aside_retireTo target hp (h.isTight.trans htight)
  exact ⟨h.near hn (by rw [haside.rest]), hctx⟩

/-- At the end of the command the stores stand in memory, and nothing is left to carry out. -/
theorem Posting.lands (h : Posting s x pc l u) (hc : s.calm = true) (hn : l.length ≤ 4096) (hw : ∀ e ∈ l, Straight s x e.2) :
    ∃ t, fin s u.settle = .next t ∧ Landed s x l u t := by
  have hout := State.outbox_of_calm hc
  have hv : ({ u with outbox := [] } : State) = { s with ctxs := u.ctxs } := by
    rw [h.rest, ← hout]
  have hbeside : Beside s { u with outbox := [] } := by rw [hv]; rfl
  have hcalm : ({ u with outbox := [] } : State).calm = true := by rw [hv]; exact hc
  have hposts := State.settle_posts (s := { u with outbox := [] }) (x := x) (l := l) pc hcalm hn (fun e he => (hw e he).beside hbeside)
  have hcore : ({ u with outbox := [] } : State).coreOf x = s.coreOf x := by rw [hv]; rfl
  have hkey (tr : Tr) : ({ u with outbox := [] } : State).keyOf x tr = s.keyOf x tr := by rw [hv]; rfl
  have hu : ({ ({ u with outbox := [] } : State) with outbox := l.map (storeOut x (({ u with outbox := [] } : State).coreOf x) pc) } : State) = u := by
    rw [hcore]
    conv_rhs => rw [h.rest]
    conv_lhs => rw [h.rest]
  rw [hu] at hposts
  simp only [hkey] at hposts
  obtain ⟨m, g, hset⟩ := State.setEach_rest { u with outbox := [] } (l.map fun e => (s.keyOf x e.2, e.1))
  have hkeys : (l.map fun e => (s.keyOf x e.2, e.1)).map (fun e => e.1 / 8) = l.map (fun e => s.keyOf x e.2 / 8) := by
    rw [List.map_map]; rfl
  refine ⟨_, (fin_settled hposts ?_ ?_).2, ⟨?_, ?_, ?_, ?_⟩⟩
  · rw [hset]; exact hcalm
  · rw [hset]
    show u.pending = s.pending
    rw [h.rest]
  · rw [hset, hv]
  · intro y
    rw [hset]
    rfl
  · intro hnodup
    have hwords := State.words_setEach { u with outbox := [] } (l := l.map fun e => (s.keyOf x e.2, e.1)) (by rw [hkeys]; exact hnodup)
    rw [List.map_map, List.map_map] at hwords
    exact hwords
  · intro a ha
    have hbytes := State.bytes_setEach { u with outbox := [] } (l := l.map fun e => (s.keyOf x e.2, e.1)) (a := a) (by rw [hkeys]; exact ha)
    refine hbytes.imp (fun hb => ?_) (fun hb => ?_)
    · rw [hb, hv]; rfl
    · rw [hb, hv]; rfl

end

end Sys2Proof.Machine
end

section
/-!
PROOFS. Calls, returns and gates (O19).
-/
namespace Sys2Proof.Machine

/-! ### Transfers of control -/

section
variable {s : State} {at_ : At} {l : List (Word × Tr)} {target : Pay} {body : Pay → X Flow} {q : Run}

/-- A plain context with other special registers is plain. -/
theorem Ctx.Plain.withSr {c e : Ctx} (h : c.Plain) (he : e = { c with sr := e.sr }) : e.Plain := by
  rw [he]
  exact ⟨h.run, h.slot, h.grants, h.obs, h.inflight, h.loads, h.stepping⟩

theorem within_retireTo (s : State) (x : Nat) (target : Pay) : Within s x (s.retireTo x target) := by
  unfold State.retireTo
  rw [State.updCtx_eq]
  exact ((within_landLoads s x).trans (within_retireMark _ x)).trans (within_setCtx _ x _)

/-- An instruction that posts stores and transfers control. -/
theorem issue_posts_jumps (h : s.ready at_ 4 = true) (hb : body (s.ctx (ctxOf at_)).pc (startRun s at_) = .ok (.jump target) q)
    (hp : Posting s (ctxOf at_) (s.ctx (ctxOf at_)).pc l q.s) (hplain : (q.s.ctx (ctxOf at_)).Plain) (hn : l.length ≤ 4096)
    (hw : ∀ e ∈ l, Straight s (ctxOf at_) e.2) (ht : s.isTight (ctxOf at_) = false) :
    ∃ u t, fin s (issue at_ 4 false body s) = .next t ∧ Posting s (ctxOf at_) (s.ctx (ctxOf at_)).pc l u ∧ Landed s (ctxOf at_) l u t ∧
      t.ctx (ctxOf at_) = (q.s.ctx (ctxOf at_)).retired target := by
  have hr := State.ready_iff s at_ 4 h
  obtain ⟨hpost, hctx⟩ := hp.retireTo ht hplain target
  obtain ⟨t, hfin, hland⟩ := hpost.lands hr.calm hn hw
  refine ⟨_, t, ?_, hpost, hland, (hland.ctx _).trans hctx⟩
  rw [issue_ready hr, hb]
  exact hfin

/-- An instruction that stays within its context and its window, and transfers control. -/
theorem issue_jumps (h : s.ready at_ 4 = true) (hb : body (s.ctx (ctxOf at_)).pc (startRun s at_) = .ok (.jump target) q)
    (hq : Within s (ctxOf at_) q.s) (hplain : (q.s.ctx (ctxOf at_)).Plain) :
    ∃ t, fin s (issue at_ 4 false body s) = .next t ∧ Within s (ctxOf at_) t ∧ t.ctx (ctxOf at_) = (q.s.ctx (ctxOf at_)).retired target := by
  have hr := State.ready_iff s at_ 4 h
  obtain ⟨-, hctx, -⟩ := State.retireTo_plain q.s (ctxOf at_) target hplain
  have hw := hq.trans (within_retireTo q.s (ctxOf at_) target)
  refine ⟨_, ?_, hw, hctx⟩
  rw [issue_ready hr, hb]
  exact hw.fin hr.calm

theorem rowR_jumps {f : RF} {maj min : Nat} {m : Meta} (hm : rMeta maj min = some m) (hrsv : m.rsvR f = true) (hring : m.ringMax = 3)
    (h : s.ready at_ 4 = true) (hb : body (s.ctx (ctxOf at_)).pc (startRun s at_) = .ok (.jump target) q)
    (hq : Within s (ctxOf at_) q.s) (hplain : (q.s.ctx (ctxOf at_)).Plain) :
    ∃ t, fin s (s.rowR at_ f maj min false body) = .next t ∧ Within s (ctxOf at_) t ∧
      t.ctx (ctxOf at_) = (q.s.ctx (ctxOf at_)).retired target :=
  issue_jumps (body := fun pc => do X.decodeChecks ((rMeta maj min).getD (metaR maj min)) (((rMeta maj min).getD (metaR maj min)).rsvR f); body pc)
    h ((rowR_checked (State.ready_iff s at_ 4 h) hm hrsv (hring ▸ ring_le _) body _).trans hb) hq hplain

theorem rowR_posts_jumps {f : RF} {maj min : Nat} {m : Meta} (hm : rMeta maj min = some m) (hrsv : m.rsvR f = true) (hring : m.ringMax = 3)
    (h : s.ready at_ 4 = true) (hb : body (s.ctx (ctxOf at_)).pc (startRun s at_) = .ok (.jump target) q)
    (hp : Posting s (ctxOf at_) (s.ctx (ctxOf at_)).pc l q.s) (hplain : (q.s.ctx (ctxOf at_)).Plain) (hn : l.length ≤ 4096)
    (hw : ∀ e ∈ l, Straight s (ctxOf at_) e.2) (ht : s.isTight (ctxOf at_) = false) :
    ∃ u t, fin s (s.rowR at_ f maj min false body) = .next t ∧ Posting s (ctxOf at_) (s.ctx (ctxOf at_)).pc l u ∧
      Landed s (ctxOf at_) l u t ∧ t.ctx (ctxOf at_) = (q.s.ctx (ctxOf at_)).retired target :=
  issue_posts_jumps (body := fun pc => do X.decodeChecks ((rMeta maj min).getD (metaR maj min)) (((rMeta maj min).getD (metaR maj min)).rsvR f); body pc)
    h ((rowR_checked (State.ready_iff s at_ 4 h) hm hrsv (hring ▸ ring_le _) body _).trans hb) hp hplain hn hw ht

/-- Control moved, and the words of the stores in memory. -/
theorem Landed.moved {u t : State} {pc : Pay} {sp : List (Nat × Pay)} {x : Nat} {c : Ctx} (h : Landed s x l u t)
    (hu : ∀ y, y ≠ x → u.ctx y = s.ctx y) (hctx : t.ctx x = c.retired pc) (hregs : c.regs = (s.ctx x).regs)
    (hset : ∀ e ∈ sp, e.1 ≠ Sr.pc ∧ c.sp e.1 = e.2) (hspec : ∀ n, n ∉ sp.map (·.1) → c.sp n = (s.ctx x).sp n) :
    Moved s x pc sp (l.map (fun e => s.keyOf x e.2)) t := by
  have hsp (n : Nat) : (t.ctx x).sp n = if Sr.pc = n then pc else c.sp n := by rw [hctx, Ctx.sp_retired]
  have htwins : t.twins = s.twins := by rw [h.rest]
  exact {
    rest := by
      conv_lhs => rw [h.rest]
      rw [htwins, show t.ctxs = u.ctxs by rw [h.rest]]
    others := fun y hy => (h.ctx y).trans (hu y hy)
    regs := fun k => by rw [hctx]; exact Ctx.rdKey_congr hregs k
    pc := by rw [Ctx.pc, hsp, if_pos rfl]
    set := fun e he => by rw [hsp, if_neg (Ne.symm (hset e he).1), (hset e he).2]
    spec := fun n hn hnot => by rw [hsp, if_neg (Ne.symm hn), hspec n hnot]
    twins := fun y _ => by rw [State.twin, htwins]; rfl
    twin := by rw [State.twin, htwins]; rfl
    bytes := fun a ha => h.bytes a (by rwa [List.map_map] at ha) }

end

/-! ### CALL and CALLR (R172) -/

section
variable {s : State} {at_ : At}

theorem Ctx.sp_ring_ne (r : Nat) (hr : r ≤ 3) : Sr.sp0 + r ≠ Sr.pc ∧ Sr.sp0 + r ≠ Sr.ps := by
  simp only [Sr.sp0, Sr.pc, Sr.ps]
  omega

/-- A call whose stack pointer is in form and whose word goes straight to memory (R172). -/
theorem call_moves {body : Pay → X Flow} {target : Pay} {key : Nat} {chk : X Unit} (h : s.ready at_ 4 = true)
    (hgood : goodSp ((s.ctx (ctxOf at_)).sp (Sr.sp0 + (s.ctx (ctxOf at_)).ring)) = true)
    (hroom : 8 ≤ ((s.ctx (ctxOf at_)).sp (Sr.sp0 + (s.ctx (ctxOf at_)).ring)).toNat)
    (hpush : s.pushAt (ctxOf at_) (s.ctx (ctxOf at_)).ring ((s.ctx (ctxOf at_)).sp (Sr.sp0 + (s.ctx (ctxOf at_)).ring) - 8) = some key)
    (hchk : chk (startRun s at_) = .ok () (startRun s at_))
    (hb : body (s.ctx (ctxOf at_)).pc (startRun s at_) = X.call (s.ctx (ctxOf at_)).pc target chk (startRun s at_)) :
    ∃ t, fin s (issue at_ 4 false body s) = .next t ∧
      Moved s (ctxOf at_) target [(Sr.sp0 + (s.ctx (ctxOf at_)).ring, (s.ctx (ctxOf at_)).sp (Sr.sp0 + (s.ctx (ctxOf at_)).ring) - 8)]
        [key] t ∧ t.word key = Word.raw ((s.ctx (ctxOf at_)).pc + 4) := by
  have hr := State.ready_iff s at_ 4 h
  generalize hsp : (s.ctx (ctxOf at_)).sp (Sr.sp0 + (s.ctx (ctxOf at_)).ring) = sp at *
  obtain ⟨tr, hpushes, rfl⟩ := pushes_of_pushAt hpush
  obtain ⟨-, -, hw⟩ := id hpushes
  obtain ⟨q, hrun, hq⟩ := X.pushWord_run hr.undisturbed.steady hpushes (Word.raw ((s.ctx (ctxOf at_)).pc + 4))
  have hpost := hq.posting hr.calm
  have hqctx : q.s.ctx (ctxOf at_) = s.ctx (ctxOf at_) := hq.ctx _
  have hbody : X.call (s.ctx (ctxOf at_)).pc target chk (startRun s at_) =
      .ok (.jump target) { q with s := q.s.setCtx (ctxOf at_) ((s.ctx (ctxOf at_)).setSp (Sr.sp0 + (s.ctx (ctxOf at_)).ring) (sp - 8)) } := by
    unfold X.call
    refine (X.bind_ok (X.ring_run _) _).trans ((X.bind_ok (X.ctx_run _) _).trans ((X.bind_ok (X.ctxNo_run _) _).trans ?_))
    dsimp only
    rw [hsp]
    refine (X.check_passed (by rw [spBad_of_goodSp hgood]; exact Bool.false_ne_true)).trans ((X.check_passed (Nat.not_lt.mpr hroom)).trans
      ((X.bind_ok hchk _).trans ((X.bind_ok hrun _).trans ?_)))
    show EStateM.Result.ok _ { q with s := q.s.updCtx (ctxOf at_) _ } = _
    rw [State.updCtx_eq, hqctx]
  have hplain : ((s.ctx (ctxOf at_)).setSp (Sr.sp0 + (s.ctx (ctxOf at_)).ring) (sp - 8)).Plain := hr.plain.withSr rfl
  have hset := State.ctx_setCtx_self q.s (ctxOf at_) ((s.ctx (ctxOf at_)).setSp (Sr.sp0 + (s.ctx (ctxOf at_)).ring) (sp - 8))
  have hrow := hb.trans hbody
  obtain ⟨u, t, hfin, hu, hland, hctx⟩ := issue_posts_jumps h hrow (hpost.setCtx _) (by rw [hset]; exact hplain) (by simp)
    (by simpa using hw.toStraight) hw.notTight
  rw [hset] at hctx
  refine ⟨t, hfin, ?_, ?_⟩
  · refine hland.moved hu.others hctx rfl ?_ ?_
    · simpa using (Ctx.sp_ring_ne _ (ring_le _)).1
    · intro n hn
      rw [Ctx.sp_setSp, if_neg (by simpa [eq_comm] using hn)]
  · have := hland.words (by simp)
    simpa using this

theorem X.used_ok {w : Word} (r : Run) (h : immForm w = true) : X.used w r = .ok () r := by rw [X.used, if_pos h]; rfl

theorem call_row_moves {i : Instr} {target : Pay} {key : Nat} (hrow : s.callRow i = some (at_, target)) (h : s.ready at_ 4 = true)
    (hgood : goodSp ((s.ctx (ctxOf at_)).sp (Sr.sp0 + (s.ctx (ctxOf at_)).ring)) = true)
    (hroom : 8 ≤ ((s.ctx (ctxOf at_)).sp (Sr.sp0 + (s.ctx (ctxOf at_)).ring)).toNat)
    (hpush : s.pushAt (ctxOf at_) (s.ctx (ctxOf at_)).ring ((s.ctx (ctxOf at_)).sp (Sr.sp0 + (s.ctx (ctxOf at_)).ring) - 8) = some key) :
    ∃ t, exec i s = .next t ∧
      Moved s (ctxOf at_) target [(Sr.sp0 + (s.ctx (ctxOf at_)).ring, (s.ctx (ctxOf at_)).sp (Sr.sp0 + (s.ctx (ctxOf at_)).ring) - 8)]
        [key] t ∧ t.word key = Word.raw ((s.ctx (ctxOf at_)).pc + 4) := by
  cases i
  case call a disp =>
    obtain ⟨t, ht, heq⟩ := Option.map_eq_some_iff.mp hrow
    cases heq
    have hto : BitVec.ofInt 64 (((s.ctx (ctxOf at_)).pc.toNat : Int) + 4 * signedOf 26 disp.toNat) = target := by
      unfold relTo at ht
      dsimp only at ht
      split at ht
      · cases ht
      · exact Option.some.inj ht
    have hchk : (do let _ ← X.relTarget (s.ctx (ctxOf at_)).pc 26 disp.toNat; pure () : X Unit) (startRun s at_) = .ok () (startRun s at_) :=
      X.bind_ok (X.relTarget_ok ht (startRun s at_)) _
    refine call_moves h hgood hroom hpush hchk ?_
    have hrow : opCall (s.ctx (ctxOf at_)).pc disp (startRun s at_) = X.call (s.ctx (ctxOf at_)).pc target
        (do let _ ← X.relTarget (s.ctx (ctxOf at_)).pc 26 disp.toNat; pure ()) (startRun s at_) := by rw [opCall, ← hto]
    exact (rowX_checked 0x21 rfl (fun pc => opCall pc disp) _).trans hrow
  case callr a f =>
    simp only [State.callRow] at hrow
    obtain ⟨⟨hrsv, hd, hb, hform, htarget⟩, heq⟩ := Option.ite_none_right_eq_some.mp hrow
    cases heq
    have hchk : (do X.used (s.gr (ctxOf at_) f.a); X.checkTarget (s.gr (ctxOf at_) f.a).pay : X Unit) (startRun s at_) =
        .ok () (startRun s at_) := (X.bind_ok (X.used_ok _ hform) _).trans (X.checkTarget_ok _ htarget)
    refine call_moves h hgood hroom hpush hchk ?_
    have hchecked := rowR_checked (maj := 0x25) (min := 1) (f := f) (State.ready_iff s at_ 4 h) rfl
      (by simp [Meta.rsvR, metaR, Meta.onlyA, hrsv, hd, hb]) (ring_le _) (fun pc => opCallr pc f.a) (s.ctx (ctxOf at_)).pc
    exact hchecked.trans (X.bind_ok (X.rd_run _ f.a) _)
  all_goals cases hrow

/-! ### RET (R172) -/

theorem ret_moves {w : Word} (h : s.ready at_ 4 = true)
    (hgood : goodSp ((s.ctx (ctxOf at_)).sp (Sr.sp0 + (s.ctx (ctxOf at_)).ring)) = true)
    (hmax : ((s.ctx (ctxOf at_)).sp (Sr.sp0 + (s.ctx (ctxOf at_)).ring)).toNat ≤ 2 ^ 48 - 8)
    (hpop : s.popAt (ctxOf at_) (s.ctx (ctxOf at_)).ring ((s.ctx (ctxOf at_)).sp (Sr.sp0 + (s.ctx (ctxOf at_)).ring)) = some w)
    (hraw : w.tag = Tag.raw) (htarget : goodTarget w.pay = true) :
    ∃ t, exec (.ret at_ {}) s = .next t ∧
      Moved s (ctxOf at_) w.pay [(Sr.sp0 + (s.ctx (ctxOf at_)).ring, (s.ctx (ctxOf at_)).sp (Sr.sp0 + (s.ctx (ctxOf at_)).ring) + 8)] [] t := by
  have hr := State.ready_iff s at_ 4 h
  generalize hsp : (s.ctx (ctxOf at_)).sp (Sr.sp0 + (s.ctx (ctxOf at_)).ring) = sp at *
  obtain ⟨q, hrun, hq⟩ := X.popWord_run hr.undisturbed (pops_of_popAt hpop)
  have hqx : q.x = ctxOf at_ := hq.x
  have hsigned : Signed s (ctxOf at_) q.s := hq.signed
  have hqctx : q.s.ctx (ctxOf at_) = s.ctx (ctxOf at_) := hsigned.ctx _
  have hbody : opRet (startRun s at_) =
      .ok (.jump w.pay) { q with s := q.s.setCtx (ctxOf at_) ((s.ctx (ctxOf at_)).setSp (Sr.sp0 + (s.ctx (ctxOf at_)).ring) (sp + 8)) } := by
    unfold opRet
    refine (X.bind_ok (X.ring_run _) _).trans ((X.bind_ok (X.ctx_run _) _).trans ((X.bind_ok (X.ctxNo_run _) _).trans ?_))
    dsimp only
    rw [hsp]
    refine (X.check_passed (by rw [spBad_of_goodSp hgood]; exact Bool.false_ne_true)).trans ((X.check_passed (Nat.not_lt.mpr hmax)).trans
      ((X.bind_ok hrun _).trans ((X.check_passed (not_not.mpr hraw)).trans ((X.bind_ok (X.checkTarget_ok q htarget) _).trans ?_))))
    show EStateM.Result.ok _ { q with s := q.s.updCtx (ctxOf at_) _ } = _
    rw [State.updCtx_eq, hqctx]
  have hset := State.ctx_setCtx_self q.s (ctxOf at_) ((s.ctx (ctxOf at_)).setSp (Sr.sp0 + (s.ctx (ctxOf at_)).ring) (sp + 8))
  have hwithin : Within s (ctxOf at_) q.s := ⟨hsigned.near, by rw [hsigned.twin]⟩
  obtain ⟨t, hfin, ht, hctx⟩ := rowR_jumps (f := {}) (maj := 0x25) (min := 2) (body := fun _ => opRet) rfl rfl rfl h hbody (hwithin.trans (within_setCtx _ _ _))
    (by rw [hset]; exact hr.plain.withSr rfl)
  rw [hset] at hctx
  refine ⟨t, hfin, ht.moved ?_ ?_ ?_ ?_⟩
  · rw [hctx]; rfl
  · rw [hctx, Ctx.pc, Ctx.sp_retired, if_pos rfl]
  · have hne := (Ctx.sp_ring_ne (s.ctx (ctxOf at_)).ring (ring_le _)).1
    simp [hctx, Ctx.sp_retired_setSp _ _ _ hne]
  · intro n hn hnot
    rw [hctx, Ctx.sp_retired_setSp _ _ _ hn, if_neg (by simpa [eq_comm] using hnot)]

/-! ### Gates (R468, R469) -/

/-- Neither the stack pointer of a ring nor PS is PC, and they differ. -/
theorem Ctx.sp_retired_gate (c : Ctx) {no : Nat} (v ps next : Pay) (hno : no ≠ Sr.pc) (hps : no ≠ Sr.ps) :
    (∀ e ∈ [(no, v), (Sr.ps, ps)], (((c.setSp no v).setSp Sr.ps ps).retired next).sp e.1 = e.2) ∧
      ∀ n, n ≠ Sr.pc → n ∉ [(no, v), (Sr.ps, ps)].map (·.1) → (((c.setSp no v).setSp Sr.ps ps).retired next).sp n = c.sp n := by
  constructor
  · intro e he
    simp only [List.mem_cons, List.not_mem_nil, or_false] at he
    obtain rfl | rfl := he
    · rw [Ctx.sp_retired, if_neg (Ne.symm hno), Ctx.sp_setSp, if_neg (Ne.symm hps), Ctx.sp_setSp_self]
    · rw [Ctx.sp_retired, if_neg (show Sr.pc ≠ Sr.ps by decide), Ctx.sp_setSp_self]
  · intro n hn hnot
    simp only [List.map_cons, List.map_nil, List.mem_cons, List.not_mem_nil, or_false, not_or] at hnot
    rw [Ctx.sp_retired, if_neg (Ne.symm hn), Ctx.sp_setSp, if_neg (Ne.symm hnot.2), Ctx.sp_setSp, if_neg (Ne.symm hnot.1)]

theorem retg_moves {ps pc : Word} (h : s.ready at_ 4 = true)
    (hgood : goodSp ((s.ctx (ctxOf at_)).sp (Sr.sp0 + (s.ctx (ctxOf at_)).ring)) = true)
    (hmax : ((s.ctx (ctxOf at_)).sp (Sr.sp0 + (s.ctx (ctxOf at_)).ring)).toNat ≤ 2 ^ 48 - 16)
    (hps : s.popAt (ctxOf at_) (s.ctx (ctxOf at_)).ring ((s.ctx (ctxOf at_)).sp (Sr.sp0 + (s.ctx (ctxOf at_)).ring)) = some ps)
    (hpc : s.popAt (ctxOf at_) (s.ctx (ctxOf at_)).ring ((s.ctx (ctxOf at_)).sp (Sr.sp0 + (s.ctx (ctxOf at_)).ring) + 8) = some pc)
    (hraw : ps.tag = Tag.raw) (hraw' : pc.tag = Tag.raw) (hring : (s.ctx (ctxOf at_)).ring ≤ fld ps.pay 1 0)
    (htarget : goodTarget pc.pay = true) :
    ∃ t, exec (.retg at_ {}) s = .next t ∧
      Moved s (ctxOf at_) pc.pay [(Sr.sp0 + (s.ctx (ctxOf at_)).ring, (s.ctx (ctxOf at_)).sp (Sr.sp0 + (s.ctx (ctxOf at_)).ring) + 16),
        (Sr.ps, psRestore ps.pay (s.ctx (ctxOf at_)).em)] [] t := by
  have hr := State.ready_iff s at_ 4 h
  generalize hsp : (s.ctx (ctxOf at_)).sp (Sr.sp0 + (s.ctx (ctxOf at_)).ring) = sp at *
  obtain ⟨p, hrun, hp⟩ := X.popWord_run hr.undisturbed (pops_of_popAt hps)
  obtain ⟨q, hrun', hq'⟩ := X.popWord_run (hp.undisturbed hr.undisturbed) (hp.x ▸ hp.signed.pops (pops_of_popAt hpc))
  have hq := hp.trans hq'
  have hqx : q.x = ctxOf at_ := hq.x
  have hsigned : Signed s (ctxOf at_) q.s := hq.signed
  have hqctx : q.s.ctx (ctxOf at_) = s.ctx (ctxOf at_) := hsigned.ctx _
  obtain ⟨c, hc⟩ : ∃ c, ((s.ctx (ctxOf at_)).setSp (Sr.sp0 + (s.ctx (ctxOf at_)).ring) (sp + 16)).setSp Sr.ps
    (psRestore ps.pay (s.ctx (ctxOf at_)).em) = c := ⟨_, rfl⟩
  have hbody : opRetg (startRun s at_) = .ok (.jump pc.pay) { q with s := q.s.setCtx (ctxOf at_) c } := by
    unfold opRetg
    refine (X.bind_ok (X.ctx_run _) _).trans ?_
    dsimp only
    rw [hsp]
    refine (X.check_passed (by simpa [spBad_of_goodSp hgood] using hmax)).trans ((X.bind_ok hrun _).trans ((X.bind_ok hrun' _).trans
      ((X.check_passed (by simp [hraw, hraw'])).trans ((X.check_passed (Nat.not_lt.mpr hring)).trans
      ((X.bind_ok (X.checkTarget_ok q htarget) _).trans ?_)))))
    show EStateM.Result.ok _ { q with s := q.s.updCtx q.x _ } = _
    rw [State.updCtx_eq, hqx, hqctx, ← hc]
  have hset := State.ctx_setCtx_self q.s (ctxOf at_) c
  have hwithin : Within s (ctxOf at_) q.s := ⟨hsigned.near, by rw [hsigned.twin]⟩
  obtain ⟨t, hfin, ht, hctx⟩ := rowR_jumps (f := {}) (maj := 0x2A) (min := 1) (body := fun _ => opRetg) rfl rfl rfl h hbody (hwithin.trans (within_setCtx _ _ _))
    (by rw [hset]; exact hr.plain.withSr (by rw [← hc]; rfl))
  rw [hset] at hctx
  obtain ⟨hne, hneps⟩ := Ctx.sp_ring_ne (s.ctx (ctxOf at_)).ring (ring_le _)
  obtain ⟨hvals, hrest⟩ := Ctx.sp_retired_gate (s.ctx (ctxOf at_)) (sp + 16) (psRestore ps.pay (s.ctx (ctxOf at_)).em) pc.pay hne hneps
  rw [hc] at hvals hrest
  refine ⟨t, hfin, ht.moved ?_ ?_ ?_ ?_⟩
  · rw [hctx, ← hc]; rfl
  · rw [hctx, Ctx.pc, Ctx.sp_retired, if_pos rfl]
  · rw [hctx]; exact hvals
  · rw [hctx]; exact hrest

/-- A gate's descriptor is read without an error. -/
theorem X.readFails_clean {r : Run} (h : Steady r) (pa : Nat) : X.readFails pa r = .ok false { r with acc := r.acc + 1 } := by
  unfold X.readFails
  exact (X.bind_ok (X.core_run r) _).trans (X.bind_ok (X.met_steady h) _)

theorem callg_moves {a : BitVec 5} {d : Pay} {k0 k1 : Nat} (h : s.ready at_ 4 = true) (hform : immForm (s.gr (ctxOf at_) a) = true)
    (hgate : s.gate (ctxOf at_) (fld (s.gr (ctxOf at_) a).pay 9 0) = some d) (huse : (s.ctx (ctxOf at_)).ring ≤ fld d 61 60)
    (hring : fld d 63 62 ≤ (s.ctx (ctxOf at_)).ring) (hgood : goodSp ((s.ctx (ctxOf at_)).sp (Sr.sp0 + fld d 63 62)) = true)
    (hroom : 16 ≤ ((s.ctx (ctxOf at_)).sp (Sr.sp0 + fld d 63 62)).toNat)
    (h0 : s.pushAt (ctxOf at_) (fld d 63 62) ((s.ctx (ctxOf at_)).sp (Sr.sp0 + fld d 63 62) - 8) = some k0)
    (h1 : s.pushAt (ctxOf at_) (fld d 63 62) ((s.ctx (ctxOf at_)).sp (Sr.sp0 + fld d 63 62) - 16) = some k1) (hne : k0 / 8 ≠ k1 / 8) :
    ∃ t, exec (.callg at_ { a := a }) s = .next t ∧
      Moved s (ctxOf at_) (atFld 47 2 (fld d 47 2)) [(Sr.sp0 + fld d 63 62, (s.ctx (ctxOf at_)).sp (Sr.sp0 + fld d 63 62) - 16),
        (Sr.ps, setFld ((s.ctx (ctxOf at_)).sp Sr.ps) 1 0 (fld d 63 62))] [k0, k1] t ∧
      t.word k0 = Word.raw ((s.ctx (ctxOf at_)).pc + 4) ∧ t.word k1 = Word.raw ((s.ctx (ctxOf at_)).sp Sr.ps) := by
  have hr := State.ready_iff s at_ 4 h
  generalize hsp : (s.ctx (ctxOf at_)).sp (Sr.sp0 + fld d 63 62) = sp at *
  obtain ⟨tr0, hp0, rfl⟩ := pushes_of_pushAt h0
  obtain ⟨tr1, hp1, rfl⟩ := pushes_of_pushAt h1
  obtain ⟨-, -, hw0⟩ := id hp0
  obtain ⟨-, -, hw1⟩ := id hp1
  obtain ⟨p, hrun, hp⟩ := X.pushWord_run (r := { startRun s at_ with acc := 1 }) ⟨hr.met, hr.obs, rfl⟩ hp0
    (Word.raw ((s.ctx (ctxOf at_)).pc + 4))
  obtain ⟨q, hrun', hq'⟩ := X.pushWord_run (hp.steady ⟨hr.met, hr.obs, rfl⟩) (hp.pushes hp1) (Word.raw ((s.ctx (ctxOf at_)).sp Sr.ps))
  have hq : Emitted (startRun s at_) _ q := ⟨(hp.trans hq').x, (hp.trans hq').at_, (hp.trans hq').held, (hp.trans hq').s⟩
  have hpost := hq.posting hr.calm
  have hqx : q.x = ctxOf at_ := hq.x
  have hqctx : q.s.ctx (ctxOf at_) = s.ctx (ctxOf at_) := hq.ctx _
  obtain ⟨c, hc⟩ : ∃ c, ((s.ctx (ctxOf at_)).setSp (Sr.sp0 + fld d 63 62) (sp - 16)).setSp Sr.ps
    (setFld ((s.ctx (ctxOf at_)).sp Sr.ps) 1 0 (fld d 63 62)) = c := ⟨_, rfl⟩
  have hbody : opCallg (s.ctx (ctxOf at_)).pc a (startRun s at_) = .ok (.jump (atFld 47 2 (fld d 47 2)))
      { q with s := q.s.setCtx (ctxOf at_) c } := by
    unfold opCallg
    refine (X.bind_ok (X.rdUsed_run (startRun s at_) hform) _).trans ((X.bind_ok (X.st_run _) _).trans ((X.bind_ok (X.ctxNo_run _) _).trans
      ((X.bind_ok (X.ctx_run _) _).trans ((X.bind_ok (X.readFails_clean hr.undisturbed.steady _) _).trans ?_))))
    have hgate' : (if false = true then none else (startRun s at_).s.gate (startRun s at_).x
        (fld (((startRun s at_).s.ctx (startRun s at_).x).rd a).pay 9 0)) = some d := (if_neg Bool.false_ne_true).trans hgate
    rw [hgate']
    dsimp only
    rw [hsp]
    refine (X.check_passed (Nat.not_lt.mpr huse)).trans ((X.check_passed (Nat.not_lt.mpr hring)).trans
      ((X.check_passed (by simpa [spBad_of_goodSp hgood] using hroom)).trans ((X.bind_ok hrun _).trans ((X.bind_ok hrun' _).trans ?_))))
    show EStateM.Result.ok _ { q with s := q.s.updCtx q.x _ } = _
    rw [State.updCtx_eq, hqx, hqctx, ← hc]
  have hset := State.ctx_setCtx_self q.s (ctxOf at_) c
  obtain ⟨u, t, hfin, hu, hland, hctx⟩ := rowR_posts_jumps (f := { a := a }) (maj := 0x2A) (min := 0) (body := fun pc => opCallg pc a)
    rfl rfl rfl h hbody (hpost.setCtx _)
    (by rw [hset]; exact hr.plain.withSr (by rw [← hc]; rfl)) (by simp)
    (by simpa using ⟨hw0.toStraight, hw1.toStraight⟩) hw0.notTight
  rw [hset] at hctx
  obtain ⟨hnpc, hnps⟩ := Ctx.sp_ring_ne (fld d 63 62) (hring.trans (ring_le _))
  have hwords := hland.words (by simpa using hne)
  simp only [List.cons_append, List.nil_append, List.map_cons, List.map_nil, List.cons.injEq, and_true] at hwords
  obtain ⟨hword0, hword1⟩ := hwords
  refine ⟨t, hfin, hland.moved hu.others hctx (by rw [← hc]; rfl) ?_ ?_, hword0, hword1⟩
  · simp only [List.mem_cons, List.not_mem_nil, or_false, forall_eq_or_imp, forall_eq, ← hc]
    refine ⟨⟨hnpc, ?_⟩, by decide, Ctx.sp_setSp_self _ _ _⟩
    rw [Ctx.sp_setSp, if_neg (Ne.symm hnps), Ctx.sp_setSp_self]
  · intro n hn
    simp only [List.map_cons, List.map_nil, List.mem_cons, List.not_mem_nil, or_false, not_or] at hn
    rw [← hc, Ctx.sp_setSp, if_neg (Ne.symm hn.2), Ctx.sp_setSp, if_neg (Ne.symm hn.1)]

end

/-- Settles O19: a call posts its words on the way to its target, a return loads them; the words posted stand in memory once the
command ends. -/
theorem callsReturnsAndGates : Obligations.CallsReturnsAndGates := by
  unfold Obligations.CallsReturnsAndGates
  refine ⟨fun s at_ => ?_, fun s at_ => ?_⟩
  · intro x c no sp h hgood
    exact ⟨fun i target key hrow hroom hpush => call_row_moves hrow h hgood hroom hpush,
      fun w hmax hpop hraw htarget => ret_moves h hgood hmax hpop hraw htarget⟩
  · intro x c h
    exact ⟨fun a d k0 k1 hform hgate huse hring hgood hroom h0 h1 hne => callg_moves h hform hgate huse hring hgood hroom h0 h1 hne,
      fun ps pc hgood hmax hps hpc hraw hraw' hring htarget => retg_moves h hgood hmax hps hpc hraw hraw' hring htarget⟩

end Sys2Proof.Machine
end

section
/-!
PROOFS. One element of a long instruction (O24, O25): stores with the write barrier, the end of an element, and what is left.
-/
namespace Sys2Proof.Machine

/-! ### Registers after register writes -/

section
variable (c : Ctx) (w : Word)

theorem Ctx.rd_wr_same {d : BitVec 5} (hd : d ≠ 0) : (c.wr d w).rd d = w :=
  Ctx.rd_of_written hd rfl (Ctx.sp_congr (c.sr_wr d w) _)

theorem Ctx.rd_wr_ne {d e : BitVec 5} (h : e ≠ d) : (c.wr d w).rd e = c.rd e := by
  rw [Ctx.rd, Ctx.bank_wr]
  exact Ctx.rdKey_wr_ne c w (fun hk => h (regKey_inj hk))

theorem Ctx.sp_wr (d : BitVec 5) (n : Nat) : (c.wr d w).sp n = c.sp n := Ctx.sp_congr (c.sr_wr d w) n

theorem Ctx.innermost_wr (d : BitVec 5) : (c.wr d w).innermost = c.innermost := Ctx.innermost_congr (c.sr_wr d w)

end

/-- A context between two elements of a long instruction (R219). -/
def Ctx.between (c : Ctx) : Ctx := { c with fresh := false, grants := [], obs := [], inflight := false }

/-- A context after an element, which was the last one or not. -/
def Ctx.elementDone (c : Ctx) (done : Bool) : Ctx := if done then c.retired (c.pc + 4) else c.between

theorem Ctx.rd_elementDone (c : Ctx) (done : Bool) (e : BitVec 5) : (c.elementDone done).rd e = c.rd e := by
  cases done with
  | false => rfl
  | true =>
    have hwinb : (c.retired (c.pc + 4)).sp Sr.winb = c.sp Sr.winb := (Ctx.sp_retired _ _ _).trans (if_neg (by decide))
    show (c.retired (c.pc + 4)).rd e = c.rd e
    rw [Ctx.rd, Ctx.bank_congr hwinb]
    rfl

theorem Ctx.rdKey_elementDone (c : Ctx) (done : Bool) (k : Nat) : (c.elementDone done).rdKey k = c.rdKey k := by
  cases done <;> rfl

theorem Ctx.pc_elementDone (c : Ctx) (done : Bool) : (c.elementDone done).pc = if done then c.pc + 4 else c.pc := by
  cases done with
  | false => rfl
  | true => exact Ctx.pc_setPc c _

/-! ### The end of an element -/

/-- The machine between two elements of context x. -/
def State.elementEnded (s : State) (x : Nat) : State :=
  if (s.setCtx x (s.ctx x).between).isTight x then
    (s.setCtx x (s.ctx x).between).updTwin (twinOf x) (fun w => { w with groups := w.groups + 1 })
  else s.setCtx x (s.ctx x).between

section
variable {s t : State} {x : Nat} {pc : Pay} {l : List (Word × Tr)}

theorem within_elementEnded (s : State) (x : Nat) : Within s x (s.elementEnded x) := by
  unfold State.elementEnded
  split
  · rw [State.updTwin_eq]
    refine (within_setCtx s x (s.ctx x).between).trans ⟨near_setTwin _ x _, ?_⟩
    rw [State.twin_setTwin_self]
  · exact within_setCtx s x _

theorem State.ctx_elementEnded (s : State) (x : Nat) : (s.elementEnded x).ctx x = (s.ctx x).between := by
  unfold State.elementEnded
  split
  · rw [State.updTwin_eq, State.ctx_setTwin, State.ctx_setCtx_self]
  · exact State.ctx_setCtx_self _ _ _

theorem Posting.elementEnded (h : Posting s x pc l t) (ht : s.isTight x = false) : Posting s x pc l (t.elementEnded x) := by
  have hnot : (t.setCtx x (t.ctx x).between).isTight x = false := h.isTight.trans ht
  rw [State.elementEnded, hnot, if_neg Bool.false_ne_true]
  exact h.setCtx _

end

/-- A burst of one element that completes the instruction. -/
theorem X.burst_last {one : X Bool} {r q : Run} (h : one r = .ok true q) : X.burst one 0 r = .ok .seq q :=
  X.bind_ok (X.element_ok h) _

/-- A burst of one element after which more are to come. -/
theorem X.burst_more {one : X Bool} {r q : Run} (h : one r = .ok false q) :
    X.burst one 0 r = .ok .stay { q with s := q.s.elementEnded q.x, seen := [] } := by
  unfold X.burst
  refine (X.bind_ok (X.element_ok h) _).trans ?_
  unfold X.elementEnd
  rw [if_neg Bool.false_ne_true]
  simp only [State.updCtx_eq]
  rfl

section
variable {s : State} {at_ : At} {f : RF} {maj min : Nat} {m : Meta} {one : X Bool} {op : X Flow} {done : Bool} {q : Run}
  {l : List (Word × Tr)}

/-- The flow with which a burst of one element ends, and the run it leaves. -/
theorem burst_ends (hone : one (startRun s at_) = .ok done q) (hx : q.x = ctxOf at_) :
    ∃ p, X.burst one 0 (startRun s at_) = .ok (if done then .seq else .stay) p ∧
      p.s = if done then q.s else q.s.elementEnded (ctxOf at_) := by
  cases done with
  | true => exact ⟨q, X.burst_last hone, rfl⟩
  | false => exact ⟨_, X.burst_more hone, by rw [hx]; rfl⟩

/-- An element of context x that posts stores. -/
theorem element_posts (hm : rMeta maj min = some m) (hrsv : m.rsvR f = true) (hring : (s.ctx (ctxOf at_)).ring ≤ m.ringMax)
    (h : s.ready at_ 4 = true) (hop : op (startRun s at_) = X.burst one 0 (startRun s at_))
    (hone : one (startRun s at_) = .ok done q) (hx : q.x = ctxOf at_)
    (hp : Posting s (ctxOf at_) (s.ctx (ctxOf at_)).pc l q.s) (hplain : (q.s.ctx (ctxOf at_)).Plain)
    (hin : (q.s.ctx (ctxOf at_)).innermost = none) (hpc : (q.s.ctx (ctxOf at_)).pc = (s.ctx (ctxOf at_)).pc) (hn : l.length ≤ 4096)
    (hw : ∀ e ∈ l, Straight s (ctxOf at_) e.2) (ht : s.isTight (ctxOf at_) = false) :
    ∃ u t, fin s (s.rowR at_ f maj min true (fun _ => op)) = .next t ∧ Landed s (ctxOf at_) l u t ∧
      t.ctx (ctxOf at_) = (q.s.ctx (ctxOf at_)).elementDone done := by
  have hr := State.ready_iff s at_ 4 h
  have hchecked := rowR_checked hr hm hrsv hring (fun _ => op) (s.ctx (ctxOf at_)).pc
  obtain ⟨p, hburst, hps⟩ := burst_ends hone hx
  have hbody := hchecked.trans (hop.trans hburst)
  unfold State.rowR
  rw [issue_ready hr, hbody]
  cases done with
  | true =>
    obtain ⟨hpost, hctx⟩ := hp.retire ht hplain hin (slotsOf (s.ctx (ctxOf at_)).pc 4) ((s.ctx (ctxOf at_)).pc + p64 4)
    obtain ⟨t, hfin, hland⟩ := hpost.lands hr.calm hn hw
    refine ⟨_, t, ?_, hland, ?_⟩
    · simp only [if_true, hps]
      exact hfin
    · rw [hland.ctx, hctx, Ctx.elementDone, if_pos rfl, hpc]
      rfl
  | false =>
    obtain ⟨t, hfin, hland⟩ := (hp.elementEnded ht).lands hr.calm hn hw
    refine ⟨_, t, ?_, hland, ?_⟩
    · simp only [Bool.false_eq_true, if_false, hps]
      exact hfin
    · rw [hland.ctx, State.ctx_elementEnded]
      rfl

/-- An element of context x that stays within its context and its window. -/
theorem element_within (hm : rMeta maj min = some m) (hrsv : m.rsvR f = true) (hring : (s.ctx (ctxOf at_)).ring ≤ m.ringMax)
    (h : s.ready at_ 4 = true) (hop : op (startRun s at_) = X.burst one 0 (startRun s at_))
    (hone : one (startRun s at_) = .ok done q) (hx : q.x = ctxOf at_)
    (hp : Within s (ctxOf at_) q.s) (hplain : (q.s.ctx (ctxOf at_)).Plain)
    (hin : (q.s.ctx (ctxOf at_)).innermost = none) (hpc : (q.s.ctx (ctxOf at_)).pc = (s.ctx (ctxOf at_)).pc) :
    ∃ t, fin s (s.rowR at_ f maj min true (fun _ => op)) = .next t ∧ Within s (ctxOf at_) t ∧
      t.ctx (ctxOf at_) = (q.s.ctx (ctxOf at_)).elementDone done := by
  have hr := State.ready_iff s at_ 4 h
  have hchecked := rowR_checked hr hm hrsv hring (fun _ => op) (s.ctx (ctxOf at_)).pc
  obtain ⟨p, hburst, hps⟩ := burst_ends hone hx
  have hbody := hchecked.trans (hop.trans hburst)
  unfold State.rowR
  rw [issue_ready hr, hbody]
  cases done with
  | true =>
    obtain ⟨-, hctx, -⟩ := State.retire_plain q.s (ctxOf at_) (slotsOf (s.ctx (ctxOf at_)).pc 4) ((s.ctx (ctxOf at_)).pc + p64 4) hplain hin
    have hret := hp.trans (within_retire q.s (ctxOf at_) (slotsOf (s.ctx (ctxOf at_)).pc 4) ((s.ctx (ctxOf at_)).pc + p64 4) none)
    refine ⟨_, ?_, hret, ?_⟩
    · simp only [if_true, hps]
      exact hret.fin hr.calm
    · rw [hctx, Ctx.elementDone, if_pos rfl, hpc]
      rfl
  | false =>
    have hend := hp.trans (within_elementEnded q.s (ctxOf at_))
    refine ⟨_, ?_, hend, ?_⟩
    · simp only [Bool.false_eq_true, if_false, hps]
      exact hend.fin hr.calm
    · rw [State.ctx_elementEnded]
      rfl

end

/-! ### Stores with the write barrier (R216, R308) -/

/-- The write barrier has nothing to do for a store of v over o. -/
theorem State.noBarrier_iff {s : State} {x : Nat} {o v : Word} (h : s.noBarrier x o v = true) :
    s.heapPtr (s.hen x) o = none ∧ s.heapPtr (s.hen x) v = none ∧ ((s.ctx x).sp Sr.sqt).toNat ≤ ((s.ctx x).sp Sr.sql).toNat := by
  simpa only [State.noBarrier, Bool.and_eq_true, Option.isNone_iff_eq_none, decide_eq_true_eq, and_assoc] using h

section
variable {r : Run} {tr : Tr} {o v : Word} {va : Pay}

/-- A store for which the write barrier has nothing to do is posted. -/
theorem X.barrierStore_run (hw : Writes r.s r.x tr) (hb : r.s.noBarrier r.x o v = true) :
    ∃ q, X.barrierStore va tr 8 o v .clean r = .ok () q ∧ Emitted r [(v, tr)] q := by
  obtain ⟨ho, hv, hroom⟩ := State.noBarrier_iff hb
  obtain ⟨q, hemit, hq⟩ := X.emit_run hw v
  refine ⟨q, ?_, hq⟩
  have hof : X.heapOf v r = .ok none r := congrArg (EStateM.Result.ok · r) hv
  have hvalue : X.barrierValue v true r = .ok v r := by
    unfold X.barrierValue
    rw [X.bind_ok hof]
    rfl
  have hentries : r.s.satbEntries r.x o v tr.pa = [] := by simp only [State.satbEntries, ho, hv, List.append_nil]
  have hsatb : X.satbRoom 0 va r = .ok () r := by
    unfold X.satbRoom
    refine (X.bind_ok (X.st_run r) _).trans ((X.bind_ok (X.ctx_run r) _).trans ((X.check_passed (Nat.not_lt.mpr ?_)).trans ?_))
    · simpa using hroom
    · exact X.check_passed (by simp)
  have hcard : X.cardPlan va v r = .ok none r := by
    have hof' : X.cardOf va v r = .ok none r := by
      unfold X.cardOf
      refine (X.bind_ok (X.st_run r) _).trans ((X.bind_ok (X.ctxNo_run r) _).trans ?_)
      rw [hv]
      cases r.s.heapAt (r.s.hen r.x) va.toNat <;> rfl
    unfold X.cardPlan
    rw [X.bind_ok hof']
    rfl
  have hpush : X.satbPush [] q = .ok () q := (X.bind_ok (X.ctxNo_run q) _).trans ((X.bind_ok (X.ctx_run q) _).trans rfl)
  unfold X.barrierStore
  refine (X.bind_ok (X.ctxNo_run r) _).trans ((X.bind_ok hvalue _).trans ((X.bind_ok (X.st_run r) _).trans ?_))
  rw [hentries]
  refine (X.bind_ok hsatb _).trans ((X.bind_ok hcard _).trans ?_)
  rw [if_pos rfl]
  exact (X.bind_ok hemit _).trans (X.bind_ok hpush _)

theorem X.storeWord_run (h : Steady r) (hw : Writes r.s r.x tr) (hb : r.s.noBarrier r.x (r.s.word (r.s.keyOf r.x tr)) v = true) :
    ∃ q, X.storeWord va tr v .clean r = .ok () q ∧ Emitted r [(v, tr)] q := by
  obtain ⟨q, hstore, hq⟩ := X.barrierStore_run (va := va) hw hb
  refine ⟨q, ?_, hq⟩
  have hhold : X.holding r = .ok none r := congrArg (EStateM.Result.ok · r) h.held
  exact (X.bind_ok (X.storeMeets_run h hw) _).trans ((X.bind_ok hhold _).trans hstore)

/-- The word stored at an element's address (R216). -/
theorem X.elemStore_run (h : Steady r) (hp : Pushes r.s r.x (r.s.ctx r.x).ring va tr) (hform : fld va 63 48 = 0)
    (hv : storedValue (r.s.ctx r.x).ring v = none) (hb : r.s.noBarrier r.x (r.s.word (r.s.keyOf r.x tr)) v = true) :
    ∃ q, X.elemStore va v r = .ok () q ∧ Emitted r [(v, tr)] q := by
  obtain ⟨hheap, htr, hw⟩ := hp
  obtain ⟨q, hstore, hq⟩ := X.storeWord_run (r := r.noted tr) (va := va) ⟨h.met, h.obs, h.held⟩ hw hb
  refine ⟨q, ?_, hq.x, hq.at_, hq.held, hq.s⟩
  have hstored : X.storedAt v va r = .ok () r := by
    unfold X.storedAt
    rw [X.bind_ok (X.ring_run r), hv]
    rfl
  have haddr : X.elemAddr va true r = .ok va r := (X.check_passed (not_not.mpr hform)).trans (X.accessCheck_raw hheap)
  unfold X.elemStore
  exact (X.bind_ok hstored _).trans ((X.bind_ok haddr _).trans ((X.bind_ok (X.ring_run r) _).trans ((X.bind_ok (X.met_steady h) _).trans
    ((X.bind_ok (X.translate_store (r := { r with acc := r.acc + 1 }) ⟨h.met, h.obs, h.held⟩ htr hw) _).trans hstore))))

/-- The word loaded at an element's address (R216). -/
theorem X.elemWord_run {w : Word} (h : Undisturbed r) (hform : fld va 63 48 = 0) (hheap : r.s.heapAt (r.s.hen r.x) va.toNat = none)
    (hm : Meets r.s r.x va w) : ∃ q, X.elemWord va r = .ok w q ∧ Looked r q := by
  obtain ⟨q, hload, hq⟩ := X.elemLoad_run 8 h hm
  have haddr : X.elemAddr va false r = .ok va r := (X.check_passed (not_not.mpr hform)).trans (X.accessCheck_raw hheap)
  exact ⟨q, (X.bind_ok haddr _).trans hload, hq⟩

/-- The word slot that a plain store at `va` meets. -/
theorem pushes_of_slotAt {s : State} {x key pa : Nat} {va : Pay} {o : Word} (hheap : s.heapAt (s.hen x) va.toNat = none)
    (h : s.slotAt x va = some (key, pa, o)) :
    ∃ tr, Pushes s x (s.ctx x).ring va tr ∧ s.keyOf x tr = key ∧ s.word (s.keyOf x tr) = o := by
  unfold State.slotAt at h
  split at h
  · next tr htr =>
    obtain ⟨hw, heq⟩ := Option.ite_none_right_eq_some.mp h
    cases heq
    exact ⟨tr, ⟨hheap, State.translate_of_trOf htr, State.writes_of hw⟩, rfl, rfl⟩
  · cases h

end

end Sys2Proof.Machine
end

section
/-!
PROOFS. One element of MOVB, FILLB, SCANM and SCANC (O24).
-/
namespace Sys2Proof.Machine

/-- An address register that R215 accepts, whose address no enabled heap holds. -/
def GoodAddr (s : State) (x : Nat) (w : Word) : Prop :=
  (isBasePtr w.tag = true ∨ (w.tag = Tag.raw ∧ (s.ctx x).ring ≠ 3)) ∧ goodSp w.pay = true ∧ s.heapAt (s.hen x) w.pay.toNat = none

theorem GoodAddr.form {s : State} {x : Nat} {w : Word} (h : GoodAddr s x w) : fld w.pay 63 48 = 0 ∧ fld w.pay 2 0 = 0 := by
  obtain ⟨-, hgood, -⟩ := h
  obtain ⟨hhi, hlo⟩ := Bool.and_eq_true_iff.mp hgood
  exact ⟨of_decide_eq_true hhi, of_decide_eq_true hlo⟩

section
variable {r : Run}

theorem X.count32_ok {a b : Word} (htag : b.tag = Tag.fix) (hmax : b.pay.toNat ≤ 0xFFFFFFFF) : X.count32 a b r = .ok b.pay.toNat r :=
  (X.check_passed (not_not.mpr htag)).trans (X.check_passed (Nat.not_lt.mpr hmax))

theorem X.addrReg_ok {w : Word} {mask : Nat} {ta tb : BitVec 8} (h : GoodAddr r.s r.x w) : X.addrReg w mask ta tb r = .ok () r := by
  obtain ⟨hhi, hlo⟩ := h.form
  have hform : (if fld w.pay 63 48 ≠ 0 then X.raise (Exc.addrForm 4 w.pay)
      else if fld w.pay 2 0 ≠ 0 then X.raise (Exc.align (if w.tag = Tag.raw then 2 else 1) w.pay)
      else pure () : X Unit) r = .ok () r := (X.check_passed (not_not.mpr hhi)).trans (X.check_passed (not_not.mpr hlo))
  unfold X.addrReg
  refine (X.bind_ok (X.ring_run r) _).trans ?_
  obtain ⟨hbase | ⟨hraw, hring⟩, -, -⟩ := h
  · have hweak : w.tag ≠ Tag.weak := by
      intro hw
      rw [hw] at hbase
      exact absurd hbase (by decide)
    obtain ⟨-, hraw⟩ := isBasePtr_ne hbase
    rw [if_neg hweak, if_neg hraw, hbase, if_neg (by decide)]
    exact hform
  · have hweak : w.tag ≠ Tag.weak := by rw [hraw]; decide
    rw [if_neg hweak, if_pos hraw, if_neg hring]
    exact hform

end

section
variable {s : State} {at_ : At} {f : RF}

/-- The context after an element has written its registers: those of l, in order. -/
abbrev Ctx.wrs (c : Ctx) (l : List (BitVec 5 × Word)) : Ctx := l.foldl (fun c e => c.wr e.1 e.2) c

/-- The registers of l written at context x, in order. -/
abbrev State.wrRegs (s : State) (x : Nat) (l : List (BitVec 5 × Word)) : State := l.foldl (fun s e => s.wrReg x e.1 e.2) s

theorem State.ctx_wrRegs (x : Nat) (l : List (BitVec 5 × Word)) (s : State) : (s.wrRegs x l).ctx x = (s.ctx x).wrs l := by
  induction l generalizing s with
  | nil => rfl
  | cons e l ih => exact (ih _).trans (by rw [State.ctx_wrReg]; rfl)

theorem within_wrRegs (x : Nat) (l : List (BitVec 5 × Word)) (s : State) : Within s x (s.wrRegs x l) :=
  within_foldl (fun s (e : BitVec 5 × Word) => within_wrReg s x e.1 e.2) l s

theorem Posting.wrRegs {t : State} {x : Nat} {pc : Pay} {l : List (Word × Tr)} (h : Posting s x pc l t) (ht : s.isTight x = false)
    (m : List (BitVec 5 × Word)) : Posting s x pc l (t.wrRegs x m) := by
  induction m generalizing t with
  | nil => exact h
  | cons e m ih => exact ih (h.wrReg ht e.1 e.2)

theorem Ctx.wrs_keeps (l : List (BitVec 5 × Word)) (c : Ctx) :
    (c.Plain → (c.wrs l).Plain) ∧ (c.wrs l).innermost = c.innermost ∧ (c.wrs l).pc = c.pc := by
  induction l generalizing c with
  | nil => exact ⟨id, rfl, rfl⟩
  | cons e l ih =>
    obtain ⟨hp, hi, hpc⟩ := ih (c.wr e.1 e.2)
    exact ⟨fun h => hp (h.wr e.1 e.2), hi.trans (Ctx.innermost_wr c e.2 e.1), hpc.trans (Ctx.sp_wr c e.2 e.1 Sr.pc)⟩

/-- An element that posts a word and then writes registers. -/
theorem element_stores {min : Nat} {m : Meta} {one : X Bool} {op : X Flow} {done : Bool} {q : Run} {v : Word} {tr : Tr} {maj : Nat}
    {regs : List (BitVec 5 × Word)} (hm : rMeta maj min = some m) (hrsv : m.rsvR f = true)
    (hring : (s.ctx (ctxOf at_)).ring ≤ m.ringMax) (h : s.ready at_ 4 = true)
    (hop : op (startRun s at_) = X.burst one 0 (startRun s at_))
    (hw : Writes s (ctxOf at_) tr) (hq : Emitted (startRun s at_) [(v, tr)] q)
    (hone : one (startRun s at_) = .ok done { q with s := q.s.wrRegs (ctxOf at_) regs }) :
    ∃ t, fin s (s.rowR at_ f maj min true (fun _ => op)) = .next t ∧ t = { s with ctxs := t.ctxs, mem := t.mem, tags := t.tags } ∧
      t.word (s.keyOf (ctxOf at_) tr) = v ∧
      (∀ k, k / 8 ≠ s.keyOf (ctxOf at_) tr / 8 → t.byte k = s.byte k ∧ t.tagAt k = s.tagAt k) ∧
      t.ctx (ctxOf at_) = ((s.ctx (ctxOf at_)).wrs regs).elementDone done := by
  have hr := State.ready_iff s at_ 4 h
  have hqctx : q.s.ctx (ctxOf at_) = s.ctx (ctxOf at_) := hq.ctx _
  have hctx := State.ctx_wrRegs (ctxOf at_) regs q.s
  rw [hqctx] at hctx
  obtain ⟨hplain, hin, hpc⟩ := Ctx.wrs_keeps regs (s.ctx (ctxOf at_))
  have hpost : Posting s (ctxOf at_) (s.ctx (ctxOf at_)).pc [(v, tr)] q.s := hq.posting hr.calm
  obtain ⟨u, t, hfin, hland, hdone⟩ := element_posts hm hrsv hring h hop hone hq.x
    (hpost.wrRegs hw.notTight regs) (by rw [hctx]; exact hplain hr.plain) (by rw [hctx, hin]; exact hr.innermost)
    (by rw [hctx, hpc]) (by simp) (by simpa using hw.toStraight) hw.notTight
  refine ⟨t, hfin, ?_, ?_, ?_, ?_⟩
  · conv_lhs => rw [hland.rest]
    rw [show t.ctxs = u.ctxs by rw [hland.rest]]
  · have hwords := hland.words (by simp)
    simpa using hwords
  · intro k hk
    exact hland.bytes k (by simpa using hk)
  · rw [hdone, hctx]

/-- An element that loads, and then writes registers. -/
theorem element_looks {min : Nat} {m : Meta} {one : X Bool} {op : X Flow} {done : Bool} {q : Run} {maj : Nat}
    {regs : List (BitVec 5 × Word)} (hm : rMeta maj min = some m) (hrsv : m.rsvR f = true)
    (hring : (s.ctx (ctxOf at_)).ring ≤ m.ringMax) (h : s.ready at_ 4 = true)
    (hop : op (startRun s at_) = X.burst one 0 (startRun s at_)) (hq : Looked (startRun s at_) q)
    (hone : one (startRun s at_) = .ok done { q with s := q.s.wrRegs (ctxOf at_) regs }) :
    ∃ t, fin s (s.rowR at_ f maj min true (fun _ => op)) = .next t ∧ Within s (ctxOf at_) t ∧
      t.ctx (ctxOf at_) = ((s.ctx (ctxOf at_)).wrs regs).elementDone done := by
  have hr := State.ready_iff s at_ 4 h
  have hsigned : Signed s (ctxOf at_) q.s := hq.signed
  have hqctx : q.s.ctx (ctxOf at_) = s.ctx (ctxOf at_) := hsigned.ctx _
  have hctx := State.ctx_wrRegs (ctxOf at_) regs q.s
  rw [hqctx] at hctx
  obtain ⟨hplain, hin, hpc⟩ := Ctx.wrs_keeps regs (s.ctx (ctxOf at_))
  have hwithin : Within s (ctxOf at_) q.s := ⟨hsigned.near, by rw [hsigned.twin]⟩
  obtain ⟨t, hfin, ht, hdone⟩ := element_within hm hrsv hring h hop hone hq.x
    (hwithin.trans (within_wrRegs _ regs _)) (by rw [hctx]; exact hplain hr.plain) (by rw [hctx, hin]; exact hr.innermost) (by rw [hctx, hpc])
  exact ⟨t, hfin, ht, by rw [hdone, hctx]⟩

/-- An element that completes its instruction without a change goes on. -/
theorem Within.went {t : State} {x : Nat} (h : Within s x t) (hctx : t.ctx x = (s.ctx x).elementDone true) :
    WentTo s x ((s.ctx x).pc + 4) t := by
  have hret : t.ctx x = (s.ctx x).retired ((s.ctx x).pc + 4) := hctx
  refine ⟨h.onlyCtx hret rfl, fun k => ?_, ?_, fun n hn => ?_⟩
  · rw [hret]; rfl
  · rw [hret, Ctx.pc, Ctx.sp_retired, if_pos rfl]
  · rw [hret, Ctx.sp_retired, if_neg (Ne.symm hn)]

/-! ### What the registers hold afterwards -/

/-- What O24 says of the count and PC after an element. -/
def Counted (s : State) (x : Nat) (f : RF) (t : State) : Prop :=
  t.gr x f.b = Word.fix ((s.gr x f.b).pay - 1) ∧
    (t.ctx x).pc = if (s.gr x f.b).pay = 1 then (s.ctx x).pc + 4 else (s.ctx x).pc

theorem State.gr_elementDone {t : State} {x : Nat} {c : Ctx} {done : Bool} (h : t.ctx x = c.elementDone done) (e : BitVec 5) :
    t.gr x e = c.rd e := by
  rw [State.gr, h, Ctx.rd_elementDone]

/-- The last register that an element writes is the count. -/
theorem counted_of {t : State} {x : Nat} {regs : List (BitVec 5 × Word)} (hb : f.b ≠ 0)
    (h : t.ctx x = ((s.ctx x).wrs (regs ++ [(f.b, Word.fix ((s.gr x f.b).pay - 1))])).elementDone (decide ((s.gr x f.b).pay = 1))) :
    Counted s x f t := by
  obtain ⟨-, -, hpc⟩ := Ctx.wrs_keeps (regs ++ [(f.b, Word.fix ((s.gr x f.b).pay - 1))]) (s.ctx x)
  refine ⟨?_, ?_⟩
  · rw [State.gr_elementDone h, Ctx.wrs, List.foldl_append]
    exact Ctx.rd_wr_same _ _ hb
  · rw [h, Ctx.pc_elementDone, hpc]
    simp only [decide_eq_true_eq]

/-! ### Counts of zero -/

/-- A long instruction whose body changes nothing and goes on. -/
theorem long_passes {min : Nat} {op : X Flow} (hm : rMeta 0x28 min = some (metaR 0x28 min).breaks) (hrsv : f.rsv = 0) (h : s.ready at_ 4 = true)
    (hb : op (startRun s at_) = .ok .seq (startRun s at_)) :
    ∃ t, fin s (s.rowR at_ f 0x28 min true (fun _ => op)) = .next t ∧ WentTo s (ctxOf at_) ((s.ctx (ctxOf at_)).pc + 4) t :=
  rowR_passes hm (by simp [Meta.rsvR, Meta.breaks, metaR, hrsv]) (ring_le _) h true hb

section
variable (hfix : (s.gr (ctxOf at_) f.b).tag = Tag.fix) (hmax : (s.gr (ctxOf at_) f.b).pay.toNat ≤ 0xFFFFFFFF)
include hfix hmax

/-- MOVB past its checks. -/
theorem opMovb_checked (hd : GoodAddr s (ctxOf at_) (s.gr (ctxOf at_) f.d)) (ha : GoodAddr s (ctxOf at_) (s.gr (ctxOf at_) f.a)) :
    opMovb f.d f.a f.b 0 (startRun s at_) =
      (if (s.gr (ctxOf at_) f.b).pay.toNat = 0 then (return .seq : X Flow) else X.burst (X.movbElem f.d f.a f.b) 0) (startRun s at_) := by
  unfold opMovb
  exact (X.bind_ok (X.rd_run (startRun s at_) f.a) _).trans ((X.bind_ok (X.rd_run (startRun s at_) f.b) _).trans ((X.bind_ok (X.count32_ok (r := startRun s at_) hfix hmax) _).trans
    ((X.bind_ok (X.rd_run (startRun s at_) f.d) _).trans ((X.bind_ok (X.addrReg_ok (r := startRun s at_) hd) _).trans (X.bind_ok (X.addrReg_ok (r := startRun s at_) ha) _)))))

theorem opFillb_checked (hd : GoodAddr s (ctxOf at_) (s.gr (ctxOf at_) f.d)) :
    opFillb f.d f.a f.b 0 (startRun s at_) =
      (if (s.gr (ctxOf at_) f.b).pay.toNat = 0 then (return .seq : X Flow) else X.burst (X.fillbElem f.d f.a f.b) 0) (startRun s at_) := by
  unfold opFillb
  exact (X.bind_ok (X.rd_run (startRun s at_) f.a) _).trans ((X.bind_ok (X.rd_run (startRun s at_) f.b) _).trans ((X.bind_ok (X.count32_ok (r := startRun s at_) hfix hmax) _).trans
    ((X.bind_ok (X.rd_run (startRun s at_) f.d) _).trans (X.bind_ok (X.addrReg_ok (r := startRun s at_) hd) _))))

/-- The judge of SCANM: the pointers compared are followed first (R164). -/
abbrev X.sameAs (d : BitVec 5) (w : Word) : X Bool := do return decide ((← X.follow w) = (← X.follow (← X.rd d)))

theorem opScanm_checked (ha : GoodAddr s (ctxOf at_) (s.gr (ctxOf at_) f.a)) :
    opScanm f.d f.a f.b 0 (startRun s at_) =
      (if (s.gr (ctxOf at_) f.b).pay.toNat = 0 then (return .seq : X Flow)
        else X.burst (X.scanElem f.a f.b (X.sameAs f.d)) 0) (startRun s at_) := by
  unfold opScanm
  exact (X.bind_ok (X.rd_run (startRun s at_) f.a) _).trans ((X.bind_ok (X.rd_run (startRun s at_) f.b) _).trans ((X.bind_ok (X.count32_ok (r := startRun s at_) hfix hmax) _).trans
    (X.bind_ok (X.addrReg_ok (r := startRun s at_) ha) _)))

/-- The judge of SCANC. -/
abbrev X.tagLike (d : Word) (w : Word) : X Bool := return tagMatch w.tag (fld d.pay 15 8) (fld d.pay 7 0)

theorem opScanc_checked (ha : GoodAddr s (ctxOf at_) (s.gr (ctxOf at_) f.a)) (hd : (s.gr (ctxOf at_) f.d).tag = Tag.fix)
    (hle : (s.gr (ctxOf at_) f.d).pay.toNat ≤ 0xFFFF) :
    opScanc f.d f.a f.b 0 (startRun s at_) =
      (if (s.gr (ctxOf at_) f.b).pay.toNat = 0 then (return .seq : X Flow)
        else X.burst (X.scanElem f.a f.b (X.tagLike (s.gr (ctxOf at_) f.d))) 0) (startRun s at_) := by
  unfold opScanc
  exact (X.bind_ok (X.rd_run (startRun s at_) f.a) _).trans ((X.bind_ok (X.rd_run (startRun s at_) f.b) _).trans ((X.bind_ok (X.count32_ok (r := startRun s at_) hfix hmax) _).trans
    ((X.bind_ok (X.rd_run (startRun s at_) f.d) _).trans ((X.check_passed (not_not.mpr hd)).trans ((X.check_passed (Nat.not_lt.mpr hle)).trans
    (X.bind_ok (X.addrReg_ok (r := startRun s at_) ha) _))))))

end

end

end Sys2Proof.Machine
end

section
/-!
PROOFS. The elements themselves (O24).
-/
namespace Sys2Proof.Machine

section
variable {s : State} {at_ : At} {f : RF}

/-- Three register writes at a run. -/
theorem X.wr_three {q : Run} {x : Nat} (hx : q.x = x) (d a b : BitVec 5) (wd wa wb : Word) (done : Bool) :
    (do X.wr d wd; X.wr a wa; X.wr b wb; return done : X Bool) q = .ok done { q with s := q.s.wrRegs x [(d, wd), (a, wa), (b, wb)] } := by
  subst hx
  rfl

theorem X.wr_two {q : Run} {x : Nat} (hx : q.x = x) (d b : BitVec 5) (wd wb : Word) (done : Bool) :
    (do X.wr d wd; X.wr b wb; return done : X Bool) q = .ok done { q with s := q.s.wrRegs x [(d, wd), (b, wb)] } := by
  subst hx
  rfl

/-! ### FILLB and MOVB (R216) -/

theorem X.fillbElem_run {tr : Tr} (hr : Ready s at_ 4)
    (hp : Pushes s (ctxOf at_) (s.ctx (ctxOf at_)).ring (s.gr (ctxOf at_) f.d).pay tr) (hd : GoodAddr s (ctxOf at_) (s.gr (ctxOf at_) f.d))
    (hv : storedValue (s.ctx (ctxOf at_)).ring (s.gr (ctxOf at_) f.a) = none)
    (hb : s.noBarrier (ctxOf at_) (s.word (s.keyOf (ctxOf at_) tr)) (s.gr (ctxOf at_) f.a) = true) :
    ∃ q, Emitted (startRun s at_) [(s.gr (ctxOf at_) f.a, tr)] q ∧
      X.fillbElem f.d f.a f.b (startRun s at_) = .ok (decide ((s.gr (ctxOf at_) f.b).pay = 1))
        { q with s := q.s.wrRegs (ctxOf at_) [(f.d, advance (s.gr (ctxOf at_) f.d)), (f.b, Word.fix ((s.gr (ctxOf at_) f.b).pay - 1))] } := by
  obtain ⟨q, hstore, hq⟩ := X.elemStore_run (r := startRun s at_) hr.undisturbed.steady hp hd.form.1 hv hb
  refine ⟨q, hq, ?_⟩
  unfold X.fillbElem
  exact (X.bind_ok (X.rd_run (startRun s at_) f.d) _).trans ((X.bind_ok (X.rd_run (startRun s at_) f.b) _).trans
    ((X.bind_ok (X.rd_run (startRun s at_) f.a) _).trans ((X.bind_ok hstore _).trans (X.wr_two hq.x _ _ _ _ _))))

theorem X.movbElem_run {tr : Tr} {w : Word} (hr : Ready s at_ 4)
    (hp : Pushes s (ctxOf at_) (s.ctx (ctxOf at_)).ring (s.gr (ctxOf at_) f.d).pay tr) (hd : GoodAddr s (ctxOf at_) (s.gr (ctxOf at_) f.d))
    (ha : GoodAddr s (ctxOf at_) (s.gr (ctxOf at_) f.a)) (hw : Meets s (ctxOf at_) (s.gr (ctxOf at_) f.a).pay w)
    (hdel : s.delivers (ctxOf at_) w = true) (hv : storedValue (s.ctx (ctxOf at_)).ring w = none)
    (hb : s.noBarrier (ctxOf at_) (s.word (s.keyOf (ctxOf at_) tr)) w = true) :
    ∃ q, Emitted (startRun s at_) [(w, tr)] q ∧
      X.movbElem f.d f.a f.b (startRun s at_) = .ok (decide ((s.gr (ctxOf at_) f.b).pay = 1))
        { q with s := q.s.wrRegs (ctxOf at_) [(f.d, advance (s.gr (ctxOf at_) f.d)), (f.a, advance (s.gr (ctxOf at_) f.a)),
          (f.b, Word.fix ((s.gr (ctxOf at_) f.b).pay - 1))] } := by
  obtain ⟨-, -, hheap⟩ := id ha
  obtain ⟨-, -, hwrites⟩ := id hp
  obtain ⟨p, hload, hl⟩ := X.elemWord_run (r := startRun s at_) hr.undisturbed ha.form.1 hheap hw
  have hps : p.s = s := hl.signed.untight hwrites.notTight
  have hpx : p.x = ctxOf at_ := hl.x
  have hsteady : Steady p := (hl.undisturbed hr.undisturbed).steady
  obtain ⟨q, hstore, hq⟩ := X.elemStore_run (r := p) (v := w) (tr := tr) (va := (s.gr (ctxOf at_) f.d).pay) hsteady (by rw [hps, hpx]; exact hp)
    hd.form.1 (by rw [hps, hpx]; exact hv) (by rw [hps, hpx]; exact hb)
  have hemit : Emitted (startRun s at_) [(w, tr)] q := by
    refine ⟨hq.x.trans hl.x, hq.at_.trans hl.at_, hq.held.trans hl.held, ?_⟩
    rw [hq.s, hps, hpx]
  refine ⟨q, hemit, ?_⟩
  have hparts := hdel
  simp only [State.delivers, Bool.and_eq_true, Bool.not_eq_true', decide_eq_true_eq, Option.isNone_iff_eq_none] at hparts
  obtain ⟨⟨hres, htrap⟩, hptr⟩ := hparts
  have hwritable : X.faultAt (s.gr (ctxOf at_) f.a).pay (X.writable w) p = .ok () p := by
    have hok : X.writable w p = .ok () p := X.check_passed (by rw [hres]; exact Bool.false_ne_true)
    simp only [X.faultAt, hok]
  have hof : X.heapOf w p = .ok none p := by
    refine congrArg (EStateM.Result.ok · p) ?_
    rw [hps, hpx]
    exact hptr
  have hbarrier : X.readBarrier w (s.gr (ctxOf at_) f.a).pay p = .ok w p := by
    unfold X.readBarrier
    rw [X.bind_ok hof]
    rfl
  unfold X.movbElem
  refine (X.bind_ok (X.rd_run (startRun s at_) f.d) _).trans ((X.bind_ok (X.rd_run (startRun s at_) f.a) _).trans
    ((X.bind_ok (X.rd_run (startRun s at_) f.b) _).trans ((X.bind_ok hload _).trans ((X.bind_ok hwritable _).trans
    ((X.check_passed htrap).trans ((X.bind_ok hbarrier _).trans ((X.bind_ok hstore _).trans ?_)))))))
  exact X.wr_three hemit.x _ _ _ _ _ _ _

/-! ### SCANM and SCANC (R217) -/

/-- A scan that finds its word changes nothing. -/
theorem X.scanElem_hit {w : Word} {hit : Word → X Bool} {p q : Run} (hload : X.elemWord (s.gr (ctxOf at_) f.a).pay (startRun s at_) = .ok w p)
    (hhit : hit w p = .ok true q) : X.scanElem f.a f.b hit (startRun s at_) = .ok true q := by
  unfold X.scanElem
  exact (X.bind_ok (X.rd_run (startRun s at_) f.a) _).trans ((X.bind_ok (X.rd_run (startRun s at_) f.b) _).trans
    ((X.bind_ok hload _).trans (X.bind_ok hhit _)))

/-- Else it goes on to the next word. -/
theorem X.scanElem_miss {w : Word} {hit : Word → X Bool} {p q : Run} (hload : X.elemWord (s.gr (ctxOf at_) f.a).pay (startRun s at_) = .ok w p)
    (hhit : hit w p = .ok false q) (hx : q.x = ctxOf at_) :
    X.scanElem f.a f.b hit (startRun s at_) = .ok (decide ((s.gr (ctxOf at_) f.b).pay = 1))
      { q with s := q.s.wrRegs (ctxOf at_) [(f.a, advance (s.gr (ctxOf at_) f.a)), (f.b, Word.fix ((s.gr (ctxOf at_) f.b).pay - 1))] } := by
  unfold X.scanElem
  exact (X.bind_ok (X.rd_run (startRun s at_) f.a) _).trans ((X.bind_ok (X.rd_run (startRun s at_) f.b) _).trans
    ((X.bind_ok hload _).trans ((X.bind_ok hhit _).trans (X.wr_two hx _ _ _ _ _))))

/-- A word that points into no enabled heap is its object's current copy (R164). -/
theorem X.follow_plain {r : Run} {w : Word} (h : r.s.heapPtr (r.s.hen r.x) w = none) : X.follow w r = .ok w r := by
  have hof : X.heapOf w r = .ok none r := congrArg (EStateM.Result.ok · r) h
  unfold X.follow
  rw [X.bind_ok hof]
  rfl

theorem X.sameAs_run {p : Run} {w : Word} (hl : Looked (startRun s at_) p) (hw : s.heapPtr (s.hen (ctxOf at_)) w = none)
    (hd : s.heapPtr (s.hen (ctxOf at_)) (s.gr (ctxOf at_) f.d) = none) :
    X.sameAs f.d w p = .ok (decide (w = s.gr (ctxOf at_) f.d)) p := by
  have hsigned : Signed s (ctxOf at_) p.s := hl.signed
  have hpx : p.x = ctxOf at_ := hl.x
  have hrd : X.rd f.d p = .ok (s.gr (ctxOf at_) f.d) p := by
    rw [X.rd_run, hpx, hsigned.ctx]
    rfl
  exact (X.bind_ok (X.follow_plain (by rw [hpx, hsigned.heapPtr]; exact hw)) _).trans ((X.bind_ok hrd _).trans
    (X.bind_ok (X.follow_plain (by rw [hpx, hsigned.heapPtr]; exact hd)) _))

/-- What a scan leaves whose judge finds the word or not. -/
theorem scan_element {min : Nat} {op : X Flow} {hit : Word → X Bool} {w : Word} {found : Bool}
    (hm : rMeta 0x28 min = some (metaR 0x28 min).breaks) (hrsv : f.rsv = 0) (h : s.ready at_ 4 = true)
    (hop : op (startRun s at_) = X.burst (X.scanElem f.a f.b hit) 0 (startRun s at_)) (ha : GoodAddr s (ctxOf at_) (s.gr (ctxOf at_) f.a))
    (hw : Meets s (ctxOf at_) (s.gr (ctxOf at_) f.a).pay w) (hhit : ∀ p, Looked (startRun s at_) p → hit w p = .ok found p)
    (hda : f.d ≠ f.a) (hdb : f.d ≠ f.b) (hab : f.a ≠ f.b) (ha0 : f.a ≠ 0) (hb0 : f.b ≠ 0) :
    (found = true → ∃ t, fin s (s.rowR at_ f 0x28 min true (fun _ => op)) = .next t ∧ WentTo s (ctxOf at_) ((s.ctx (ctxOf at_)).pc + 4) t) ∧
    (found = false → ∃ t, fin s (s.rowR at_ f 0x28 min true (fun _ => op)) = .next t ∧ t.mem = s.mem ∧ t.tags = s.tags ∧
      t.gr (ctxOf at_) f.d = s.gr (ctxOf at_) f.d ∧ t.gr (ctxOf at_) f.a = advance (s.gr (ctxOf at_) f.a) ∧ Counted s (ctxOf at_) f t) := by
  have hr := State.ready_iff s at_ 4 h
  obtain ⟨-, -, hheap⟩ := id ha
  obtain ⟨p, hload, hl⟩ := X.elemWord_run (r := startRun s at_) hr.undisturbed ha.form.1 hheap hw
  have hfields : (metaR 0x28 min).breaks.rsvR f = true := by simp [Meta.rsvR, Meta.breaks, metaR, hrsv]
  constructor
  · rintro rfl
    obtain ⟨t, hfin, ht, hctx⟩ := element_looks (regs := []) (q := p) hm hfields (ring_le _) h hop hl (X.scanElem_hit hload (hhit p hl))
    exact ⟨t, hfin, ht.went hctx⟩
  · rintro rfl
    obtain ⟨t, hfin, ht, hctx⟩ := element_looks (q := p) hm hfields (ring_le _) h hop hl (X.scanElem_miss hload (hhit p hl) hl.x)
    refine ⟨t, hfin, by rw [ht.rest], by rw [ht.rest], ?_, ?_, counted_of (regs := [(f.a, advance (s.gr (ctxOf at_) f.a))]) hb0 hctx⟩
    · rw [State.gr_elementDone hctx]
      exact (Ctx.rd_wr_ne _ _ hdb).trans (Ctx.rd_wr_ne _ _ hda)
    · rw [State.gr_elementDone hctx]
      exact (Ctx.rd_wr_ne _ _ hab).trans (Ctx.rd_wr_same _ _ ha0)

end

/-- Settles O24: each body passes its checks and runs one element, which loads or posts one word and writes the progress registers;
what is posted stands in memory at the end of the command. -/
theorem longElements : Obligations.LongElements := by
  unfold Obligations.LongElements
  intro s at_ f x c d a b good after counted h hrsv hfix hmax hd0 ha0 hb0 hda hdb hab
  have hr := State.ready_iff s at_ 4 h
  have hfields (min : Nat) : (metaR 0x28 min).breaks.rsvR f = true := by simp [Meta.rsvR, Meta.breaks, metaR, hrsv]
  refine ⟨fun hzero hd ha => ?_, fun key pa o hne hd hslot => ?_, fun w hne ha hmet => ?_⟩
  · have hz : (s.gr (ctxOf at_) f.b).pay.toNat = 0 := congrArg BitVec.toNat hzero
    refine ⟨long_passes (min := 0) rfl hrsv h ?_, long_passes (min := 1) rfl hrsv h ?_, long_passes (min := 2) rfl hrsv h ?_⟩
    · rw [opMovb_checked hfix hmax hd ha, if_pos hz]; rfl
    · rw [opFillb_checked hfix hmax hd, if_pos hz]; rfl
    · rw [opScanm_checked hfix hmax ha, if_pos hz]; rfl
  · have hnz : (s.gr (ctxOf at_) f.b).pay.toNat ≠ 0 := fun hz => hne (BitVec.eq_of_toNat_eq hz)
    obtain ⟨-, -, hheap⟩ := id hd
    obtain ⟨tr, hp, rfl, rfl⟩ := pushes_of_slotAt hheap hslot
    obtain ⟨-, -, hwrites⟩ := id hp
    refine ⟨fun hv hbar => ?_, fun w ha hmet hdel hv hbar => ?_⟩
    · obtain ⟨q, hq, hone⟩ := X.fillbElem_run hr hp hd hv hbar
      have hop := opFillb_checked hfix hmax hd
      rw [if_neg hnz] at hop
      obtain ⟨t, hfin, hrest, hword, hbytes, hctx⟩ := element_stores (maj := 0x28) (min := 1) rfl (hfields 1) (ring_le _) h hop hwrites hq hone
      refine ⟨t, hfin, hrest, hword, hbytes, ?_, ?_, counted_of (regs := [(f.d, advance d)]) hb0 hctx⟩
      · exact (State.gr_elementDone hctx f.d).trans ((Ctx.rd_wr_ne _ _ hdb).trans (Ctx.rd_wr_same _ _ hd0))
      · exact (State.gr_elementDone hctx f.a).trans ((Ctx.rd_wr_ne _ _ hab).trans (Ctx.rd_wr_ne _ _ (Ne.symm hda)))
    · obtain ⟨q, hq, hone⟩ := X.movbElem_run hr hp hd ha (meets_of_metAt hmet) hdel hv hbar
      have hop := opMovb_checked hfix hmax hd ha
      rw [if_neg hnz] at hop
      obtain ⟨t, hfin, hrest, hword, hbytes, hctx⟩ := element_stores (maj := 0x28) (min := 0) rfl (hfields 0) (ring_le _) h hop hwrites hq hone
      refine ⟨t, hfin, hrest, hword, hbytes, ?_, ?_, counted_of (regs := [(f.d, advance d), (f.a, advance a)]) hb0 hctx⟩
      · exact (State.gr_elementDone hctx f.d).trans ((Ctx.rd_wr_ne _ _ hdb).trans ((Ctx.rd_wr_ne _ _ hda).trans (Ctx.rd_wr_same _ _ hd0)))
      · exact (State.gr_elementDone hctx f.a).trans ((Ctx.rd_wr_ne _ _ hab).trans (Ctx.rd_wr_same _ _ ha0))
  · have hnz : (s.gr (ctxOf at_) f.b).pay.toNat ≠ 0 := fun hz => hne (BitVec.eq_of_toNat_eq hz)
    refine ⟨fun hwptr hdptr => ?_, fun hdfix hdmax => ?_⟩
    · have hop := opScanm_checked hfix hmax ha
      rw [if_neg hnz] at hop
      obtain ⟨hfound, hmissed⟩ := scan_element (min := 2) rfl hrsv h hop ha (meets_of_metAt hmet)
        (fun p hl => X.sameAs_run hl hwptr hdptr) hda hdb hab ha0 hb0
      exact ⟨fun heq => hfound (decide_eq_true heq), fun hneq => hmissed (decide_eq_false hneq)⟩
    · have hop := opScanc_checked hfix hmax ha hdfix hdmax
      rw [if_neg hnz] at hop
      obtain ⟨hfound, hmissed⟩ := scan_element (min := 3) rfl hrsv h hop ha (meets_of_metAt hmet)
        (fun p _ => rfl) hda hdb hab ha0 hb0
      exact ⟨fun heq => hfound (decide_eq_true heq), fun hneq => hmissed (decide_eq_false hneq)⟩

end Sys2Proof.Machine
end

section
/-!
PROOFS. SAVEH and REST, one word of a save area at a time (O25).
-/
namespace Sys2Proof.Machine

section
variable {r : Run}

theorem X.faultAt_ok {α : Type} {e : Pay} {m : X α} {q : Run} {a : α} (h : m r = .ok a q) : X.faultAt e m r = .ok a q := by
  simp only [X.faultAt, h]

theorem X.writable_run {w : Word} (h : isReservedTag w.tag = false) : X.writable w r = .ok () r :=
  X.check_passed (by rw [h]; exact Bool.false_ne_true)

/-- The area that A names, where it has an address (R246). -/
theorem X.areaBase_run {a b : BitVec 5} {e : Nat} {store : Bool} {base : Pay} (hu : Undisturbed r)
    (h : r.s.ea r.x ((r.s.ctx r.x).rd a) 0 8 store = some base) :
    X.areaBase a b e store r = .ok ((r.s.ctx r.x).rd a, base) r := by
  unfold X.areaBase
  exact (X.bind_ok (X.rd_run r a) _).trans ((X.bind_ok (X.rd_run r b) _).trans ((X.bind_ok (X.faultAt_ok (X.baseTag_ok h)) _).trans
    ((X.bind_ok (X.eaForm_ok h) _).trans (X.bind_ok (X.eaAddr_ok hu h) _))))

/-- The address of a word of an area whose base is no PREF, outside every heap (R221, R246). -/
theorem X.areaAddr_run {ar : Word × Pay} {e : Nat} {store : Bool} (hpref : ar.1.tag ≠ Tag.pref) (hform : fld (ar.2 + p64 (8 * e)) 63 48 = 0)
    (hheap : r.s.heapAt (r.s.hen r.x) (ar.2 + p64 (8 * e)).toNat = none) :
    X.areaAddr ar e store r = .ok (ar.2 + p64 (8 * e)) r :=
  (X.check_passed hpref).trans ((X.check_passed (not_not.mpr hform)).trans (X.accessCheck_raw hheap))

/-- A word of the area that a register may take. -/
theorem X.areaWord_run {ar : Word × Pay} {e : Nat} {w : Word} (hu : Undisturbed r) (hpref : ar.1.tag ≠ Tag.pref)
    (hform : fld (ar.2 + p64 (8 * e)) 63 48 = 0) (hheap : r.s.heapAt (r.s.hen r.x) (ar.2 + p64 (8 * e)).toNat = none)
    (hm : Meets r.s r.x (ar.2 + p64 (8 * e)) w) (hw : isReservedTag w.tag = false) :
    ∃ q, X.areaWord ar e r = .ok w q ∧ Looked r q := by
  obtain ⟨q, hload, hq⟩ := X.elemLoad_run 8 hu hm
  refine ⟨q, ?_, hq⟩
  have hareaLoad : X.areaLoad ar e r = .ok w q := (X.bind_ok (X.areaAddr_run hpref hform hheap) _).trans hload
  exact (X.bind_ok hareaLoad _).trans (X.bind_ok (X.writable_run hw) _)

end

section
variable {s : State} {at_ : At} {f : RF} {base : Pay}

/-- The rows of SAVEH and REST take their fields and rings 0 and 1. -/
theorem saveMeta_ok (min : Nat) (hrsv : f.rsv = 0) :
    ({ metaR 0x27 min with ringMax := 1, ringCause := 6, breaker := true } : Meta).rsvR f = true := by
  simp [Meta.rsvR, metaR, hrsv]

/-! ### SAVEH (R250) -/

/-- The registers that an element of SAVEH writes. -/
def savehRegs (s : State) (x : Nat) (f : RF) (h e : Nat) (last : Bool) : List (BitVec 5 × Word) :=
  (f.b, Word.fixN (256 * h + e + 1)) :: (if last then [(f.d, ⟨Tag.link, (s.gr x f.a).pay⟩)] else [])

theorem X.wr_after {q : Run} {x : Nat} (hx : q.x = x) (b d : BitVec 5) (w v : Word) :
    (do X.wr d v; return true : X Bool) { q with s := q.s.wrReg q.x b w } = .ok true { q with s := q.s.wrRegs x [(b, w), (d, v)] } := by
  subst hx
  rfl

theorem X.wr_last {q : Run} {x : Nat} (hx : q.x = x) (b : BitVec 5) (w : Word) :
    (return false : X Bool) { q with s := q.s.wrReg q.x b w } = .ok false { q with s := q.s.wrRegs x [(b, w)] } := by
  subst hx
  rfl

theorem X.savehElem_run {tr : Tr} (hr : Ready s at_ 4) (hform : immForm (s.gr (ctxOf at_) f.b) = true)
    (hpref : (s.gr (ctxOf at_) f.a).tag ≠ Tag.pref) (hea : s.ea (ctxOf at_) (s.gr (ctxOf at_) f.a) 0 8 true = some base)
    (hlt : saveNext (s.gr (ctxOf at_) f.b) < (s.ctx (ctxOf at_)).saveSize (saveHalf (s.gr (ctxOf at_) f.b)))
    (hva : fld (base + p64 (8 * saveNext (s.gr (ctxOf at_) f.b))) 63 48 = 0)
    (hp : Pushes s (ctxOf at_) (s.ctx (ctxOf at_)).ring (base + p64 (8 * saveNext (s.gr (ctxOf at_) f.b))) tr)
    (hw : isReservedTag (s.saveWord (ctxOf at_) (saveHalf (s.gr (ctxOf at_) f.b)) (saveNext (s.gr (ctxOf at_) f.b))
      (s.gr (ctxOf at_) f.d)).tag = false) :
    ∃ q, Emitted (startRun s at_) [(s.saveWord (ctxOf at_) (saveHalf (s.gr (ctxOf at_) f.b)) (saveNext (s.gr (ctxOf at_) f.b))
        (s.gr (ctxOf at_) f.d), tr)] q ∧
      X.savehElem f.d f.a f.b (startRun s at_) =
        .ok (decide (saveNext (s.gr (ctxOf at_) f.b) + 1 = (s.ctx (ctxOf at_)).saveSize (saveHalf (s.gr (ctxOf at_) f.b))))
        { q with s := q.s.wrRegs (ctxOf at_) (savehRegs s (ctxOf at_) f (saveHalf (s.gr (ctxOf at_) f.b)) (saveNext (s.gr (ctxOf at_) f.b))
          (decide (saveNext (s.gr (ctxOf at_) f.b) + 1 = (s.ctx (ctxOf at_)).saveSize (saveHalf (s.gr (ctxOf at_) f.b))))) } := by
  obtain ⟨hheap, htr, hwrites⟩ := id hp
  have hsteady := hr.undisturbed.steady
  obtain ⟨q, hemit, hq⟩ := X.emit_run (r := (startRun s at_).noted tr) hwrites
    (s.saveWord (ctxOf at_) (saveHalf (s.gr (ctxOf at_) f.b)) (saveNext (s.gr (ctxOf at_) f.b)) (s.gr (ctxOf at_) f.d))
  have hqx : q.x = ctxOf at_ := hq.x
  refine ⟨q, ⟨hq.x, hq.at_, hq.held, hq.s⟩, ?_⟩
  have harea := X.areaAddr_run (r := startRun s at_) (ar := (s.gr (ctxOf at_) f.a, base)) (e := saveNext (s.gr (ctxOf at_) f.b)) (store := true)
    hpref hva hheap
  unfold X.savehElem
  refine (X.bind_ok (X.rdUsed_run (startRun s at_) hform) _).trans ((X.bind_ok (X.areaBase_run hr.undisturbed hea) _).trans
    ((X.bind_ok (X.ctx_run (startRun s at_)) _).trans ((X.bind_ok (X.st_run (startRun s at_)) _).trans
    ((X.bind_ok (X.ctxNo_run (startRun s at_)) _).trans ?_))))
  refine (congrFun (if_pos hlt) (startRun s at_)).trans ((X.bind_ok (X.rd_run (startRun s at_) f.d) _).trans
    ((X.bind_ok (X.faultAt_ok (X.writable_run hw)) _).trans ((X.bind_ok harea _).trans ((X.bind_ok (X.ring_run (startRun s at_)) _).trans
    ((X.bind_ok (X.met_steady hsteady) _).trans ((X.bind_ok (X.translate_store (r := { startRun s at_ with acc := (startRun s at_).acc + 1 })
      ⟨hsteady.met, hsteady.obs, rfl⟩ htr hwrites) _).trans
    ((X.bind_ok (X.storeMeets_run (r := (startRun s at_).noted tr) ⟨hsteady.met, hsteady.obs, rfl⟩ hwrites) _).trans
    ((X.bind_ok hemit _).trans ((X.bind_ok (X.wr_run q f.b _) _).trans ?_)))))))))
  by_cases hlast : saveNext (s.gr (ctxOf at_) f.b) + 1 = (s.ctx (ctxOf at_)).saveSize (saveHalf (s.gr (ctxOf at_) f.b))
  · rw [decide_eq_true hlast]
    exact (congrFun (if_pos hlast.ge) _).trans (X.wr_after hqx f.b f.d _ _)
  · rw [decide_eq_false hlast]
    have hnot : ¬ (s.ctx (ctxOf at_)).saveSize (saveHalf (s.gr (ctxOf at_) f.b)) ≤ saveNext (s.gr (ctxOf at_) f.b) + 1 := by omega
    exact (congrFun (if_neg hnot) _).trans (X.wr_last hqx f.b _)

/-- SAVEH stores one word of the area and counts it. -/
theorem saveh_element {key pa : Nat} {o : Word} (h : s.ready at_ 4 = true) (hrsv : f.rsv = 0) (hring : (s.ctx (ctxOf at_)).ring ≤ 1)
    (hd0 : f.d ≠ 0) (hb0 : f.b ≠ 0) (hdb : f.d ≠ f.b) (hpref : (s.gr (ctxOf at_) f.a).tag ≠ Tag.pref)
    (hform : immForm (s.gr (ctxOf at_) f.b) = true) (hea : s.ea (ctxOf at_) (s.gr (ctxOf at_) f.a) 0 8 true = some base)
    (hlt : saveNext (s.gr (ctxOf at_) f.b) < (s.ctx (ctxOf at_)).saveSize (saveHalf (s.gr (ctxOf at_) f.b)))
    (hva : fld (base + p64 (8 * saveNext (s.gr (ctxOf at_) f.b))) 63 48 = 0)
    (hheap : s.heapAt (s.hen (ctxOf at_)) (base + p64 (8 * saveNext (s.gr (ctxOf at_) f.b))).toNat = none)
    (hw : isReservedTag (s.saveWord (ctxOf at_) (saveHalf (s.gr (ctxOf at_) f.b)) (saveNext (s.gr (ctxOf at_) f.b))
      (s.gr (ctxOf at_) f.d)).tag = false)
    (hslot : s.slotAt (ctxOf at_) (base + p64 (8 * saveNext (s.gr (ctxOf at_) f.b))) = some (key, pa, o)) :
    ∃ t, exec (.saveh at_ f 0) s = .next t ∧ t = { s with ctxs := t.ctxs, mem := t.mem, tags := t.tags } ∧
      t.word key = s.saveWord (ctxOf at_) (saveHalf (s.gr (ctxOf at_) f.b)) (saveNext (s.gr (ctxOf at_) f.b)) (s.gr (ctxOf at_) f.d) ∧
      (∀ k, k / 8 ≠ key / 8 → t.byte k = s.byte k ∧ t.tagAt k = s.tagAt k) ∧
      t.gr (ctxOf at_) f.b = Word.fixN (256 * saveHalf (s.gr (ctxOf at_) f.b) + saveNext (s.gr (ctxOf at_) f.b) + 1) ∧
      t.gr (ctxOf at_) f.d = (if saveNext (s.gr (ctxOf at_) f.b) + 1 = (s.ctx (ctxOf at_)).saveSize (saveHalf (s.gr (ctxOf at_) f.b))
        then ⟨Tag.link, (s.gr (ctxOf at_) f.a).pay⟩ else s.gr (ctxOf at_) f.d) ∧
      (t.ctx (ctxOf at_)).pc = (if saveNext (s.gr (ctxOf at_) f.b) + 1 = (s.ctx (ctxOf at_)).saveSize (saveHalf (s.gr (ctxOf at_) f.b))
        then (s.ctx (ctxOf at_)).pc + 4 else (s.ctx (ctxOf at_)).pc) := by
  have hr := State.ready_iff s at_ 4 h
  obtain ⟨tr, hp, rfl, rfl⟩ := pushes_of_slotAt hheap hslot
  obtain ⟨-, -, hwrites⟩ := id hp
  obtain ⟨q, hq, hone⟩ := X.savehElem_run hr hform hpref hea hlt hva hp hw
  obtain ⟨t, hfin, hrest, hword, hbytes, hctx⟩ := element_stores (maj := 0x27) (min := 2) (op := opSaveh f.d f.a f.b 0) rfl
    (saveMeta_ok 2 hrsv) hring h rfl hwrites hq hone
  generalize hlast : decide (saveNext (s.gr (ctxOf at_) f.b) + 1 = (s.ctx (ctxOf at_)).saveSize (saveHalf (s.gr (ctxOf at_) f.b))) = last
    at hctx
  obtain ⟨-, -, hpc⟩ := Ctx.wrs_keeps (savehRegs s (ctxOf at_) f (saveHalf (s.gr (ctxOf at_) f.b)) (saveNext (s.gr (ctxOf at_) f.b)) last)
    (s.ctx (ctxOf at_))
  refine ⟨t, hfin, hrest, hword, hbytes, ?_⟩
  rw [State.gr_elementDone hctx, State.gr_elementDone hctx, hctx, Ctx.pc_elementDone, hpc]
  cases last with
  | true =>
    have heq := of_decide_eq_true hlast
    rw [if_pos heq, if_pos heq, if_pos rfl]
    exact ⟨(Ctx.rd_wr_ne _ _ (Ne.symm hdb)).trans (Ctx.rd_wr_same _ _ hb0), Ctx.rd_wr_same _ _ hd0, rfl⟩
  | false =>
    have hne := of_decide_eq_false hlast
    rw [if_neg hne, if_neg hne, if_neg Bool.false_ne_true]
    exact ⟨Ctx.rd_wr_same _ _ hb0, Ctx.rd_wr_ne _ _ hdb, rfl⟩

end

end Sys2Proof.Machine
end

section
/-!
PROOFS. REST (O25).
-/
namespace Sys2Proof.Machine

section
variable {s : State} {at_ : At} {f : RF} {base : Pay} {w : Word}

/-! ### A register restored (R251, R254) -/

/-- What an element of REST that holds w for register r of bank 0 leaves of a context. -/
def Ctx.restored (c : Ctx) (f : RF) (r : BitVec 5) (w : Word) : Ctx :=
  if [f.d, f.a, f.b].any (fun g => regKey c.bank g = regKey 0 r) then c else c.wrKey (regKey 0 r) w

theorem Ctx.restored_same (c : Ctx) (f : RF) (r : BitVec 5) (w : Word) : c.restored f r w = { c with regs := (c.restored f r w).regs } := by
  unfold Ctx.restored
  split
  · rfl
  · exact Ctx.wrKey_same _ _ _

theorem Ctx.bank_restored (c : Ctx) (f : RF) (r : BitVec 5) (w : Word) : (c.restored f r w).bank = c.bank := by
  rw [Ctx.restored_same]
  rfl

/-- A register that REST names keeps its value (R254). -/
theorem Ctx.rd_restored (c : Ctx) (r : BitVec 5) (w : Word) {g : BitVec 5} (hg : g = f.d ∨ g = f.a ∨ g = f.b) :
    (c.restored f r w).rd g = c.rd g := by
  rw [Ctx.rd, Ctx.bank_restored, Ctx.restored]
  split
  · rfl
  · next hnone =>
    have hne : regKey 0 r ≠ regKey c.bank g := by
      intro heq
      refine hnone (List.any_eq_true.mpr ⟨g, ?_, decide_eq_true heq.symm⟩)
      simpa using hg
    rw [Ctx.rdKey_wrKey, if_neg hne]
    split
    · next h0 => rw [Ctx.rd, h0]; rfl
    · rfl

/-- Registers of the lower half are keys below 16. -/
theorem regKey_lower {e : Nat} (he : e < 16) : regKey 0 (BitVec.ofNat 5 e) = e := by
  have hnat : (BitVec.ofNat 5 e).toNat = e := by
    rw [BitVec.toNat_ofNat]
    exact Nat.mod_eq_of_lt (by omega)
  rw [regKey, hnat, if_pos he]

theorem regKey_eq_lower {b e : Nat} (he : e < 16) {g : BitVec 5} (h : regKey b g = e) : g.toNat = e := by
  unfold regKey at h
  split at h
  · exact h
  · omega

/-- Another register holds the restored word. -/
theorem Ctx.rdKey_restored (c : Ctx) (w : Word) {e : Nat} (he : e < 16) (h0 : e ≠ 0) (hnot : e ∉ [f.d.toNat, f.a.toNat, f.b.toNat]) :
    (c.restored f (BitVec.ofNat 5 e) w).rdKey e = w := by
  have hnone : ¬ [f.d, f.a, f.b].any (fun g => decide (regKey c.bank g = regKey 0 (BitVec.ofNat 5 e))) = true := by
    intro hany
    obtain ⟨g, hg, hkey⟩ := List.any_eq_true.mp hany
    rw [regKey_lower he] at hkey
    have hnat := regKey_eq_lower he (of_decide_eq_true hkey)
    refine hnot ?_
    rw [← hnat]
    simp only [List.mem_cons, List.not_mem_nil, or_false] at hg ⊢
    obtain rfl | rfl | rfl := hg
    · exact .inl rfl
    · exact .inr (.inl rfl)
    · exact .inr (.inr rfl)
  rw [Ctx.restored, if_neg hnone, regKey_lower he, Ctx.rdKey_wrKey, if_neg h0, if_pos rfl]

/-- The machine with a register restored at context x. -/
def State.restored (s : State) (x : Nat) (f : RF) (r : BitVec 5) (w : Word) : State :=
  if [f.d, f.a, f.b].any (fun g => regKey (s.ctx x).bank g = regKey 0 r) then s else s.wrRegBank x r 0 w

theorem State.ctx_restored (s : State) (x : Nat) (f : RF) (r : BitVec 5) (w : Word) :
    (s.restored x f r w).ctx x = (s.ctx x).restored f r w := by
  unfold State.restored Ctx.restored
  split
  · rfl
  · exact State.ctx_wrRegBank _ _ _ _ _

theorem within_restored (s : State) (x : Nat) (f : RF) (r : BitVec 5) (w : Word) : Within s x (s.restored x f r w) := by
  unfold State.restored
  split
  · exact Within.refl _ _
  · exact within_wrRegBank _ _ _ _ _

theorem X.restReg_run (q : Run) (r : BitVec 5) : X.restReg f.d f.a f.b r 0 w q = .ok () { q with s := q.s.restored q.x f r w } := by
  unfold X.restReg State.restored
  refine (X.bind_ok (X.ctx_run q) _).trans ((X.bind_ok (X.ctxNo_run q) _).trans ?_)
  split <;> rfl

/-! ### The elements -/

section
variable (hr : Ready s at_ 4) (hform : immForm (s.gr (ctxOf at_) f.b) = true) (hhalf : saveHalf (s.gr (ctxOf at_) f.b) = 0)
  (hpref : (s.gr (ctxOf at_) f.a).tag ≠ Tag.pref) (hea : s.ea (ctxOf at_) (s.gr (ctxOf at_) f.a) 0 8 false = some base)
include hr hform hhalf hpref hea

/-- An element that restores a register of the lower half. -/
theorem X.restElem_reg {e : Nat} (he : saveNext (s.gr (ctxOf at_) f.b) = e) (hlo : 2 ≤ e) (hhi : e < 18)
    (hva : fld (base + p64 (8 * e)) 63 48 = 0) (hheap : s.heapAt (s.hen (ctxOf at_)) (base + p64 (8 * e)).toNat = none)
    (hm : Meets s (ctxOf at_) (base + p64 (8 * e)) w) (hw : isReservedTag w.tag = false) :
    ∃ q, Looked (startRun s at_) q ∧ X.restElem f.d f.a f.b (startRun s at_) =
      .ok false { q with s := (q.s.restored (ctxOf at_) f (BitVec.ofNat 5 (e - 2)) w).wrReg (ctxOf at_) f.b (Word.fixN (e + 1)) } := by
  obtain ⟨q, hload, hq⟩ := X.areaWord_run (r := startRun s at_) (ar := (s.gr (ctxOf at_) f.a, base)) hr.undisturbed hpref hva hheap hm hw
  have hqx : q.x = ctxOf at_ := hq.x
  refine ⟨q, hq, ?_⟩
  have hsame : (if saveHalf (s.gr (ctxOf at_) f.b) = 0 ∧ 19 ≤ saveNext (s.gr (ctxOf at_) f.b) ∧ saveNext (s.gr (ctxOf at_) f.b) ≤ 28
      then 18 else saveNext (s.gr (ctxOf at_) f.b)) = e := by
    rw [he, if_neg (by omega)]
  unfold X.restElem
  refine (X.bind_ok (X.rdUsed_run (startRun s at_) hform) _).trans ?_
  show (X.areaBase f.a f.b (if saveHalf (s.gr (ctxOf at_) f.b) = 0 ∧ 19 ≤ saveNext (s.gr (ctxOf at_) f.b) ∧
    saveNext (s.gr (ctxOf at_) f.b) ≤ 28 then 18 else saveNext (s.gr (ctxOf at_) f.b)) false >>= _) (startRun s at_) = _
  rw [hsame]
  refine (X.bind_ok (X.areaBase_run hr.undisturbed hea) _).trans (X.faultAt_ok ?_)
  have hnext : saveNext (((startRun s at_).s.ctx (startRun s at_).x).rd f.b) = e := he
  rw [show saveHalf (((startRun s at_).s.ctx (startRun s at_).x).rd f.b) = 0 from hhalf, hnext]
  simp only [show ¬ (19 ≤ e ∧ e ≤ 28) by omega, ne_eq, not_true_eq_false, false_and, if_false, true_and, if_true, show ¬ 29 ≤ e + 1 by omega, show ¬ e = 18 by omega,
    show e < 29 by omega, show ¬ e = 0 by omega, show ¬ e = 1 by omega, hhi]
  refine (X.bind_ok (X.pure_run (startRun s at_) 0) _).trans ((X.bind_ok (X.pure_run (startRun s at_) Word.nil) _).trans
    ((X.bind_ok hload _).trans ((X.bind_ok (X.restReg_run q _) _).trans ?_)))
  rw [Nat.mul_zero, Nat.zero_add, ← hqx]
  rfl

/-- The completion takes word 0 of the area. -/
theorem X.restElem_last (hdone : 29 ≤ saveNext (s.gr (ctxOf at_) f.b)) (hva : fld base 63 48 = 0)
    (hheap : s.heapAt (s.hen (ctxOf at_)) base.toNat = none) (hm : Meets s (ctxOf at_) base w) (hw : isReservedTag w.tag = false) :
    ∃ q, Looked (startRun s at_) q ∧ X.restElem f.d f.a f.b (startRun s at_) =
      .ok true { q with s := q.s.wrRegs (ctxOf at_) [(f.d, w)] } := by
  have hzero : base + p64 (8 * 0) = base := BitVec.add_zero base
  obtain ⟨q, hload, hq⟩ := X.areaWord_run (r := startRun s at_) (ar := (s.gr (ctxOf at_) f.a, base)) (e := 0) hr.undisturbed hpref
    (by rw [hzero]; exact hva) (by rw [hzero]; exact hheap) (by rw [hzero]; exact hm) hw
  have hqx : q.x = ctxOf at_ := hq.x
  refine ⟨q, hq, ?_⟩
  have hsame : (if saveHalf (s.gr (ctxOf at_) f.b) = 0 ∧ 19 ≤ saveNext (s.gr (ctxOf at_) f.b) ∧ saveNext (s.gr (ctxOf at_) f.b) ≤ 28
      then 18 else saveNext (s.gr (ctxOf at_) f.b)) = saveNext (s.gr (ctxOf at_) f.b) := if_neg (by omega)
  unfold X.restElem
  refine (X.bind_ok (X.rdUsed_run (startRun s at_) hform) _).trans ?_
  show (X.areaBase f.a f.b (if saveHalf (s.gr (ctxOf at_) f.b) = 0 ∧ 19 ≤ saveNext (s.gr (ctxOf at_) f.b) ∧
    saveNext (s.gr (ctxOf at_) f.b) ≤ 28 then 18 else saveNext (s.gr (ctxOf at_) f.b)) false >>= _) (startRun s at_) = _
  rw [hsame]
  refine (X.bind_ok (X.areaBase_run hr.undisturbed hea) _).trans (X.faultAt_ok ?_)
  obtain ⟨e, he⟩ : ∃ e, saveNext (s.gr (ctxOf at_) f.b) = e := ⟨_, rfl⟩
  rw [he] at hdone
  have hnext : saveNext (((startRun s at_).s.ctx (startRun s at_).x).rd f.b) = e := he
  rw [show saveHalf (((startRun s at_).s.ctx (startRun s at_).x).rd f.b) = 0 from hhalf, hnext]
  simp only [show ¬ (19 ≤ e ∧ e ≤ 28) by omega, ne_eq, not_true_eq_false, false_and, if_false, true_and, if_true, show 29 ≤ e + 1 by omega, show ¬ e = 18 by omega,
    show ¬ e < 29 by omega]
  refine (X.bind_ok (X.pure_run (startRun s at_) 0) _).trans ((X.bind_ok hload _).trans ?_)
  rw [← hqx]
  rfl

end

/-- REST restores one register of the lower half and counts it. -/
theorem rest_restores {e : Nat} (h : s.ready at_ 4 = true) (hrsv : f.rsv = 0) (hring : (s.ctx (ctxOf at_)).ring ≤ 1)
    (hb0 : f.b ≠ 0) (hdb : f.d ≠ f.b) (hpref : (s.gr (ctxOf at_) f.a).tag ≠ Tag.pref)
    (hform : immForm (s.gr (ctxOf at_) f.b) = true) (hhalf : saveHalf (s.gr (ctxOf at_) f.b) = 0)
    (hea : s.ea (ctxOf at_) (s.gr (ctxOf at_) f.a) 0 8 false = some base)
    (he : saveNext (s.gr (ctxOf at_) f.b) = e) (hlo : 2 ≤ e) (hhi : e < 18) (hva : fld (base + p64 (8 * e)) 63 48 = 0)
    (hheap : s.heapAt (s.hen (ctxOf at_)) (base + p64 (8 * e)).toNat = none)
    (hm : Meets s (ctxOf at_) (base + p64 (8 * e)) w) (hw : isReservedTag w.tag = false) :
    ∃ t, exec (.rest at_ f 0) s = .next t ∧ t.mem = s.mem ∧ t.tags = s.tags ∧
      (e ≠ 2 → e - 2 ∉ [f.d.toNat, f.a.toNat, f.b.toNat] → (t.ctx (ctxOf at_)).rdKey (e - 2) = w) ∧
      t.gr (ctxOf at_) f.d = s.gr (ctxOf at_) f.d ∧ (f.a ≠ f.b → t.gr (ctxOf at_) f.a = s.gr (ctxOf at_) f.a) ∧
      t.gr (ctxOf at_) f.b = Word.fixN (e + 1) ∧ (t.ctx (ctxOf at_)).pc = (s.ctx (ctxOf at_)).pc := by
  have hr := State.ready_iff s at_ 4 h
  obtain ⟨q, hq, hone⟩ := X.restElem_reg hr hform hhalf hpref hea he hlo hhi hva hheap hm hw
  have hsigned : Signed s (ctxOf at_) q.s := hq.signed
  have hqctx : q.s.ctx (ctxOf at_) = s.ctx (ctxOf at_) := hsigned.ctx _
  have hctx : ((q.s.restored (ctxOf at_) f (BitVec.ofNat 5 (e - 2)) w).wrReg (ctxOf at_) f.b (Word.fixN (e + 1))).ctx (ctxOf at_) =
      ((s.ctx (ctxOf at_)).restored f (BitVec.ofNat 5 (e - 2)) w).wr f.b (Word.fixN (e + 1)) := by
    rw [State.ctx_wrReg, State.ctx_restored, hqctx]
  have hsr : (((s.ctx (ctxOf at_)).restored f (BitVec.ofNat 5 (e - 2)) w).wr f.b (Word.fixN (e + 1))).sr = (s.ctx (ctxOf at_)).sr := by
    rw [Ctx.sr_wr, Ctx.restored_same]
  have hplain : (((s.ctx (ctxOf at_)).restored f (BitVec.ofNat 5 (e - 2)) w).wr f.b (Word.fixN (e + 1))).Plain := by
    refine Ctx.Plain.wr ?_ _ _
    rw [Ctx.restored_same]
    exact ⟨hr.run, hr.slot, hr.grants, hr.obs, hr.inflight, hr.loads, hr.stepping⟩
  have hwithin : Within s (ctxOf at_) q.s := ⟨hsigned.near, by rw [hsigned.twin]⟩
  obtain ⟨t, hfin, ht, hdone⟩ := element_within (maj := 0x27) (min := 3) (op := opRest f.d f.a f.b 0) rfl (saveMeta_ok 3 hrsv) hring h rfl
    hone hq.x ((hwithin.trans (within_restored _ _ _ _ _)).trans (within_wrReg _ _ _ _)) (by rw [hctx]; exact hplain)
    (by rw [hctx, Ctx.innermost_congr hsr]; exact hr.innermost) (by rw [hctx]; exact Ctx.sp_congr hsr Sr.pc)
  dsimp only at hdone
  rw [hctx] at hdone
  refine ⟨t, hfin, by rw [ht.rest], by rw [ht.rest], fun h2 hnot => ?_, ?_, fun hab => ?_, ?_, ?_⟩
  · have hkey : e - 2 ≠ regKey ((s.ctx (ctxOf at_)).restored f (BitVec.ofNat 5 (e - 2)) w).bank f.b := by
      intro heq
      have hnat := regKey_eq_lower (show e - 2 < 16 by omega) heq.symm
      exact hnot (by rw [← hnat]; simp)
    rw [hdone, Ctx.rdKey_elementDone, Ctx.rdKey_wr_ne _ _ hkey]
    exact Ctx.rdKey_restored _ w (by omega) (by omega) hnot
  · rw [State.gr_elementDone hdone, Ctx.rd_wr_ne _ _ hdb, Ctx.rd_restored _ _ _ (.inl rfl)]
    rfl
  · rw [State.gr_elementDone hdone, Ctx.rd_wr_ne _ _ hab, Ctx.rd_restored _ _ _ (.inr (.inl rfl))]
    rfl
  · rw [State.gr_elementDone hdone, Ctx.rd_wr_same _ _ hb0]
  · rw [hdone, Ctx.pc_elementDone, if_neg Bool.false_ne_true]
    exact Ctx.sp_congr hsr Sr.pc

/-- A context that has written one register and gone on, alone with its window, has done what `WroteReg` says. -/
theorem Within.wroteReg {t : State} {x : Nat} {d : BitVec 5} (h : Within s x t)
    (hctx : t.ctx x = ((s.ctx x).wr d w).retired ((s.ctx x).pc + 4)) : WroteReg s x 4 d w t := by
  have hwinb : (t.ctx x).sp Sr.winb = (s.ctx x).sp Sr.winb := by
    rw [hctx, Ctx.sp_retired, if_neg (show Sr.pc ≠ Sr.winb by decide), Ctx.sp_wr]
  refine ⟨h.onlyCtx hctx ?_, fun hd => ?_, rfl, fun k hk => ?_, ?_, fun n hn => ?_⟩
  · rw [Ctx.retired, Ctx.setPc, Ctx.setSp, Ctx.wr_same]
  · exact Ctx.rd_of_written hd (by rw [hctx]; rfl) hwinb
  · rw [hctx]
    exact Ctx.rdKey_wr_ne _ _ hk
  · rw [hctx, Ctx.pc, Ctx.sp_retired, if_pos rfl]
    rfl
  · rw [hctx, Ctx.sp_retired, if_neg (Ne.symm hn), Ctx.sp_wr]

/-- REST past its last element returns word 0 of the area. -/
theorem rest_completes (h : s.ready at_ 4 = true) (hrsv : f.rsv = 0) (hring : (s.ctx (ctxOf at_)).ring ≤ 1)
    (hpref : (s.gr (ctxOf at_) f.a).tag ≠ Tag.pref) (hform : immForm (s.gr (ctxOf at_) f.b) = true)
    (hhalf : saveHalf (s.gr (ctxOf at_) f.b) = 0) (hea : s.ea (ctxOf at_) (s.gr (ctxOf at_) f.a) 0 8 false = some base)
    (hdone : 29 ≤ saveNext (s.gr (ctxOf at_) f.b)) (hva : fld base 63 48 = 0)
    (hheap : s.heapAt (s.hen (ctxOf at_)) base.toNat = none) (hm : Meets s (ctxOf at_) base w) (hw : isReservedTag w.tag = false) :
    ∃ t, exec (.rest at_ f 0) s = .next t ∧ WroteReg s (ctxOf at_) 4 f.d w t := by
  have hr := State.ready_iff s at_ 4 h
  obtain ⟨q, hq, hone⟩ := X.restElem_last hr hform hhalf hpref hea hdone hva hheap hm hw
  obtain ⟨t, hfin, ht, hctx⟩ := element_looks (maj := 0x27) (min := 3) (op := opRest f.d f.a f.b 0) rfl (saveMeta_ok 3 hrsv) hring h rfl hq hone
  refine ⟨t, hfin, ht.wroteReg ?_⟩
  rw [hctx, Ctx.elementDone, if_pos rfl]
  show ((s.ctx (ctxOf at_)).wr f.d w).retired (((s.ctx (ctxOf at_)).wr f.d w).pc + 4) = _
  rw [Ctx.pc, Ctx.sp_wr]
  rfl

end

/-- Settles O25: one element of SAVEH posts the area's next word, one of REST loads it, and both count it in B; after the last
one D takes the area's LINK. -/
theorem saveAreas : Obligations.SaveAreas := by
  unfold Obligations.SaveAreas
  intro s at_ f base x c b h e size hrdy hrsv hring hd0 hb0 hdb hpref hform hva hheap
  refine ⟨fun key pa o hea hlt hw hslot => ?_, fun w hea hhalf hw => ⟨fun hlo hhi hmet => ?_, fun hdone hva0 hheap0 hmet => ?_⟩⟩
  · exact saveh_element hrdy hrsv hring hd0 hb0 hdb hpref hform hea hlt hva hheap hw hslot
  · exact rest_restores hrdy hrsv hring hb0 hdb hpref hform hhalf hea rfl hlo hhi hva hheap (meets_of_metAt hmet) hw
  · exact rest_completes hrdy hrsv hring hpref hform hhalf hea hdone hva0 hheap0 (meets_of_metAt hmet) hw

end Sys2Proof.Machine
end

section
/-!
PROOFS. Customer slot instructions whose micro-programs only move words (O14).
-/
namespace Sys2Proof.Machine

/-! ### Plain micro-words -/

/-- A run as before, but for what a slot instruction notes of its own progress. -/
structure Noted (r q : Run) : Prop where
  s : q.s = r.s
  x : q.x = r.x
  at_ : q.at_ = r.at_
  held : q.held = r.held

theorem Noted.trans {r q p : Run} (h : Noted r q) (g : Noted q p) : Noted r p :=
  ⟨g.s.trans h.s, g.x.trans h.x, g.at_.trans h.at_, g.held.trans h.held⟩

section
variable {slot : Nat} {r0 r : Run} {first : Bool} {m : Micro}

theorem X.slotParity_none (h : r.at_.ucPar = none) : X.slotParity r = .ok () { r with micro := r.micro + 1 } := by
  unfold X.slotParity
  rw [h]
  exact if_neg (by simp)

theorem X.atUop_ok {α : Type} {f : X α} {a : α} {q : Run}
    (h : f { r with slotAt := some ⟨m.u, m.i, r.held.getD [], false, first⟩, base := r.seen.length } = .ok a q) :
    X.atUop slot r0 first m f r = .ok a q := by
  unfold X.atUop
  rw [h]

theorem X.uop_end {w : Pay} (hop : mwUop w = 0) (m : Micro) (q : Run) : X.uop w m q = .ok .fin q := by
  simp only [X.uop, hop]
  rfl

/-- A micro-word under its parity check. -/
theorem X.word_plain {w : Pay} {n : UNext} (hpar : r.at_.ucPar = none) (h : ∀ q, X.uop w m q = .ok n q) :
    X.atUop slot r0 first m (do X.slotParity; X.uop w m) r = .ok n { r with
      slotAt := some ⟨m.u, m.i, r.held.getD [], false, first⟩, base := r.seen.length, micro := r.micro + 1 } :=
  X.atUop_ok ((X.bind_ok (X.slotParity_none (r := { r with
    slotAt := some ⟨m.u, m.i, r.held.getD [], false, first⟩, base := r.seen.length }) hpar) _).trans (h _))

/-- A micro-word that ends a plain program, or moves a word to its destination and goes on. -/
theorem plainMicro_cons {w : Pay} {ws : List Pay} {u v : Tbl Word} (h : plainMicro (w :: ws) u = some v) :
    (mwUop w = 0 ∧ v = u) ∨ ∃ y, (∀ m : Micro, m.u = u → ∀ q, X.uop w m q = .ok (.go ⟨uWrite u (mwDst w) y, m.i + 1⟩) q) ∧
      plainMicro ws (uWrite u (mwDst w) y) = some v := by
  unfold plainMicro at h
  split at h
  · next hop => exact .inl ⟨hop, (Option.some.inj h).symm⟩
  split at h
  · next hop =>
    refine .inr ⟨_, fun m hm q => ?_, h⟩
    subst hm
    simp only [X.uop, hop]
    rfl
  split at h
  · next hop =>
    refine .inr ⟨_, fun m hm q => ?_, h⟩
    subst hm
    simp only [X.uop, hop]
    rfl
  split at h
  · next hop =>
    refine .inr ⟨_, fun m hm q => ?_, h⟩
    subst hm
    simp only [X.uop, hop]
    rfl
  split at h
  · next hop =>
    refine .inr ⟨_, fun m hm q => ?_, h⟩
    subst hm
    simp only [X.uop, hop]
    rfl
  · cases h

/-- A segment of plain micro-words runs to its END. -/
theorem X.segment_plain {e : Pay} {v : Tbl Word} (n fuel : Nat) (hfuel : n ≤ fuel) (hpar : r.at_.ucPar = none)
    (h : plainMicro ((List.range' m.i n).map (fun i => Tbl.get (fun _ => (0 : Pay)) (r.s.core (r.s.coreOf r.x)).cstore (deEntry e + i))) m.u
      = some v) :
    ∃ q i, X.segment slot e r0 first fuel m r = .ok (true, ⟨v, i⟩) q ∧ Noted r q := by
  induction n generalizing fuel m r with
  | zero => cases h
  | succ n ih =>
    obtain ⟨fuel, rfl⟩ : ∃ k, fuel = k + 1 := ⟨fuel - 1, by omega⟩
    rw [List.range'_succ, List.map_cons] at h
    unfold X.segment
    simp only [X.bind_ok (X.core_run r), X.bind_ok (X.st_run r)]
    obtain ⟨hop, rfl⟩ | ⟨y, hgo, hrest⟩ := plainMicro_cons h
    · have hend := X.word_plain (slot := slot) (r0 := r0) (first := first) (m := m) (n := .fin) hpar (fun q => X.uop_end hop m q)
      exact ⟨_, m.i, X.bind_ok hend _, rfl, rfl, rfl, rfl⟩
    · have hword := X.word_plain (slot := slot) (r0 := r0) (first := first) (m := m) hpar (hgo m rfl)
      obtain ⟨q, i, hrun, hq⟩ := ih (m := ⟨uWrite m.u (mwDst _) y, m.i + 1⟩) (r := { r with
        slotAt := some ⟨m.u, m.i, r.held.getD [], false, first⟩, base := r.seen.length, micro := r.micro + 1 }) fuel (by omega) hpar hrest
      refine ⟨q, i, (X.bind_ok hword _).trans hrun, ?_⟩
      exact ⟨hq.s, hq.x, hq.at_, hq.held⟩

/-! ### The end of the program (R268, R269) -/

/-- With no store held the release does nothing. -/
theorem X.release_none (h : r.held.getD [] = []) : X.release r = .ok () { r with held := some [] } := by
  have hroom : X.releaseRoom [] r = .ok () r := by
    unfold X.releaseRoom
    simp
  unfold X.release
  refine (X.bind_ok (show X.holding r = .ok r.held r from rfl) _).trans ?_
  rw [h]
  exact (X.bind_ok hroom _).trans rfl

/-- The registers that an END writes, with their words. -/
def slotWriteList (e : Pay) (f : RF) (u : Tbl Word) : List (BitVec 5 × Word) :=
  (if deWb e 2 then [(f.d, uRead u 3)] else []) ++ (if deWb e 1 then [(f.a, uRead u 1)] else []) ++ if deWb e 0 then [(f.b, uRead u 2)] else []

theorem Ctx.slotWrites_eq (c : Ctx) (e : Pay) (f : RF) (u : Tbl Word) : c.slotWrites e f u = c.wrs (slotWriteList e f u) := by
  unfold Ctx.slotWrites slotWriteList
  cases deWb e 2 <;> cases deWb e 1 <;> cases deWb e 0 <;> rfl

theorem X.writeBack_run (e : Pay) (f : RF) (u : Tbl Word) :
    X.writeBack e (f.d, f.a, f.b) u r = .ok () { r with s := r.s.wrRegs r.x (slotWriteList e f u) } := by
  unfold X.writeBack slotWriteList
  cases deWb e 2 <;> cases deWb e 1 <;> cases deWb e 0 <;> rfl

end

theorem Ctx.wrs_same (l : List (BitVec 5 × Word)) (c : Ctx) : c.wrs l = { c with regs := (c.wrs l).regs } := by
  induction l generalizing c with
  | nil => rfl
  | cons e l ih =>
    have hsame := Ctx.wr_same c e.1 e.2
    have hrest := ih (c.wr e.1 e.2)
    show (c.wr e.1 e.2).wrs l = { c with regs := ((c.wr e.1 e.2).wrs l).regs }
    generalize ((c.wr e.1 e.2).wrs l).regs = regs at hrest ⊢
    rw [hrest, hsame]

/-! ### The instruction -/

/-- An instruction that stays within its context and its window, and goes on in sequence. -/
theorem issue_ends {s : State} {at_ : At} {body : Pay → X Flow} {q : Run} (h : s.ready at_ 4 = true) (long : Bool)
    (hb : body (s.ctx (ctxOf at_)).pc (startRun s at_) = .ok .seq q) (hq : Within s (ctxOf at_) q.s)
    (hp : (q.s.ctx (ctxOf at_)).Plain) (hi : (q.s.ctx (ctxOf at_)).innermost = none) :
    ∃ t, fin s (issue at_ 4 long body s) = .next t ∧ Within s (ctxOf at_) t ∧
      t.ctx (ctxOf at_) = (q.s.ctx (ctxOf at_)).retired ((s.ctx (ctxOf at_)).pc + 4) := by
  obtain ⟨t, hfin, ht, hctx⟩ := issue_leaves h long (body := fun _ r => .ok .seq { r with s := q.s }) rfl hq hp hi
  have hsame := issue_ready (State.ready_iff s at_ 4 h) long (fun _ r => .ok .seq { r with s := q.s })
  have hrun := issue_ready (State.ready_iff s at_ 4 h) long body
  rw [hb] at hrun
  exact ⟨t, (congrArg (fin s) (hrun.trans hsame.symm)).trans hfin, ht, hctx⟩

section
variable {s : State} {at_ : At} {slot : BitVec 4} {f : RF} {e : Pay}

theorem X.slotEntry_loaded {r : Run} (hpar : r.at_.ucPar = none) (hload : r.s.ucsLoading (twinOf r.x) = false)
    (he : Tbl.look (r.s.core (r.s.coreOf r.x)).decode slot.toNat = some e) :
    ∃ q, X.slotEntry slot.toNat r = .ok e q ∧ Noted r q := by
  refine ⟨{ r with
    slotAt := some ⟨[], (((r.s.ctx r.x).slot).map (·.uop)).getD 0, r.held.getD [], false, true⟩, base := r.seen.length, micro := r.micro + 1 },
    ?_, rfl, rfl, rfl, rfl⟩
  unfold X.slotEntry
  refine (X.bind_ok (X.st_run r) _).trans ((X.bind_ok (X.ctxNo_run r) _).trans ((X.bind_ok (X.core_run r) _).trans
    ((X.bind_ok (X.ctx_run r) _).trans ?_)))
  rw [hload, he]
  exact (X.bind_ok (X.get_run r) _).trans ((X.bind_ok (X.atUop_ok (X.slotParity_none hpar)) _).trans rfl)

theorem X.slotChecks_ok {r : Run} (hrsv : f.rsv = 0) (hd : deUse e 2 = true ∨ f.d = 0) (ha : deUse e 1 = true ∨ f.a = 0)
    (hb : deUse e 0 = true ∨ f.b = 0) (hring : (r.s.ctx r.x).ring ≤ deRmax e) (hl : (r.s.ctx r.x).loads = []) :
    X.slotChecks e f.d f.a f.b f.rsv r = .ok () r := by
  have hfields : ¬ (f.rsv ≠ 0 ∨ (!deUse e 2 ∧ f.d ≠ 0) ∨ (!deUse e 1 ∧ f.a ≠ 0) ∨ (!deUse e 0 ∧ f.b ≠ 0)) := by
    simp only [Bool.not_eq_true', not_or, not_and, not_not]
    grind
  unfold X.slotChecks
  refine (X.bind_ok (X.ctx_run r) _).trans ?_
  refine (X.check_passed hfields).trans ((X.check_passed (Nat.not_lt.mpr hring)).trans (X.check_passed ?_))
  rw [hl]
  simp

/-- A plain program runs to its END, writes back and ends. -/
theorem opSlot_plain {lim : Nat} {u : Tbl Word} {r : Run} (hpar : r.at_.ucPar = none) (hload : r.s.ucsLoading (twinOf r.x) = false)
    (he : Tbl.look (r.s.core (r.s.coreOf r.x)).decode slot.toNat = some e) (hrsv : f.rsv = 0) (hd : deUse e 2 = true ∨ f.d = 0)
    (ha : deUse e 1 = true ∨ f.a = 0) (hb : deUse e 0 = true ∨ f.b = 0) (hring : (r.s.ctx r.x).ring ≤ deRmax e)
    (hl : (r.s.ctx r.x).loads = []) (hslot : (r.s.ctx r.x).slot = none)
    (hm : plainMicro ((r.s.core (r.s.coreOf r.x)).microWords e)
      (uWrite (uWrite (uWrite [] 1 ((r.s.ctx r.x).rd f.a)) 2 ((r.s.ctx r.x).rd f.b)) 3 ((r.s.ctx r.x).rd f.d)) = some u) :
    ∃ q, opSlot slot.toNat f.d f.a f.b f.rsv lim r = .ok .seq q ∧
      q.s = (r.s.wrRegs r.x (slotWriteList e f u)).updCtx r.x (fun c => { c with slot := none }) := by
  obtain ⟨q1, hentry, hs1, hx1, ha1, -⟩ := X.slotEntry_loaded (slot := slot) hpar hload he
  have hlen : deLen e ≤ 65 := by
    have := fld_lt e 49 44
    simp only [deLen]
    omega
  obtain ⟨q2, i, hseg, hs2, hx2, -, hheld⟩ := X.segment_plain (slot := slot.toNat) (r0 := { q1 with held := some [] }) (first := true)
    (r := { q1 with held := some [] }) (e := e) (v := u)
    (m := ⟨uWrite (uWrite (uWrite [] 1 ((r.s.ctx r.x).rd f.a)) 2 ((r.s.ctx r.x).rd f.b)) 3 ((r.s.ctx r.x).rd f.d), 0⟩) (deLen e) 65 hlen
    (by rw [← hpar, ← ha1])
    (by
      have hw : (r.s.core (r.s.coreOf r.x)).microWords e = (List.range' 0 (deLen e)).map
          (fun i => Tbl.get (fun _ => (0 : Pay)) (r.s.core (r.s.coreOf r.x)).cstore (deEntry e + i)) := by
        rw [Core.microWords, List.range_eq_range']
      show plainMicro ((List.range' 0 (deLen e)).map (fun i => Tbl.get _ (q1.s.core (q1.s.coreOf q1.x)).cstore _)) _ = _
      rw [hs1, hx1, ← hw]
      exact hm)
  have hs2' : q2.s = r.s := hs2.trans hs1
  have hx2' : q2.x = r.x := hx2.trans hx1
  have hrel := X.atUop_ok (slot := slot.toNat) (r0 := { q1 with held := some [] }) (first := true) (m := ⟨u, i⟩) (r := q2)
    (X.release_none (r := { q2 with slotAt := some ⟨u, i, q2.held.getD [], false, true⟩, base := q2.seen.length })
      (by rw [show q2.held = some [] from hheld]; rfl))
  refine ⟨{ q2 with
    slotAt := some ⟨u, i, q2.held.getD [], false, true⟩, base := q2.seen.length, held := some [],
    s := (q2.s.wrRegs q2.x (slotWriteList e f u)).updCtx q2.x (fun c => { c with slot := none }) }, ?_, ?_⟩
  · unfold opSlot
    refine (X.bind_ok hentry _).trans ((X.bind_ok (X.ctx_run q1) _).trans ?_)
    rw [hs1, hx1, hslot]
    refine (X.bind_ok (X.slotChecks_ok (r := q1) hrsv hd ha hb (by rw [hs1, hx1]; exact hring) (by rw [hs1, hx1]; exact hl)) _).trans ?_
    refine (X.bind_ok (X.rd_run q1 f.a) _).trans ((X.bind_ok (X.rd_run q1 f.b) _).trans ((X.bind_ok (X.rd_run q1 f.d) _).trans ?_))
    rw [hs1, hx1]
    refine (X.bind_ok (r1 := { q1 with held := some [] }) rfl _).trans ?_
    unfold X.segments
    refine (X.bind_ok (X.get_run _) _).trans ((X.bind_ok hseg _).trans ((X.bind_ok hrel _).trans ((X.bind_ok (X.writeBack_run e f u) _).trans ?_)))
    rfl
  · dsimp only
    rw [hs2', hx2']

end

/-- Settles O14: a plain micro-program runs to its END, which writes the micro-registers back; nothing is held, and nothing else
of the machine is touched. -/
theorem customerSlots : Obligations.CustomerSlots := by
  unfold Obligations.CustomerSlots
  intro s at_ slot f lim e u x c core h hpar hload he hrsv hd ha hb hring hm
  have hr := State.ready_iff s at_ 4 h
  obtain ⟨q, hrun, hq⟩ := opSlot_plain (lim := lim) (r := startRun s at_) hpar hload he hrsv hd ha hb hring hr.loads hr.slot hm
  have hregs : (s.wrRegs (ctxOf at_) (slotWriteList e f u)).ctx (ctxOf at_) = c.slotWrites e f u := by
    rw [State.ctx_wrRegs, Ctx.slotWrites_eq]
  obtain ⟨hplain, hin, hpc⟩ := Ctx.wrs_keeps (slotWriteList e f u) c
  rw [← Ctx.slotWrites_eq] at hplain hin hpc
  have hctx : q.s.ctx (ctxOf at_) = c.slotWrites e f u := by
    rw [hq]
    show ((s.wrRegs (ctxOf at_) _).updCtx (ctxOf at_) _).ctx (ctxOf at_) = _
    rw [State.updCtx_eq, State.ctx_setCtx_self, hregs]
    have hnone := (hplain hr.plain).slot
    cases hc : c.slotWrites e f u
    rw [hc] at hnone
    cases hnone
    rfl
  have hwithin : Within s (ctxOf at_) q.s := by
    rw [hq]
    exact (within_wrRegs _ _ _).trans (within_setCtx _ _ _)
  obtain ⟨t, hfin, ht, htctx⟩ := issue_ends h _ (body := fun _ => opSlot slot.toNat f.d f.a f.b f.rsv lim) hrun hwithin
    (by rw [hctx]; exact hplain hr.plain) (by rw [hctx]; exact hin.trans hr.innermost)
  rw [hctx] at htctx
  have hsr : (c.slotWrites e f u).sr = c.sr := by rw [Ctx.slotWrites_eq, Ctx.wrs_same]
  refine ⟨t, hfin, ht.onlyCtx htctx ?_, fun k => by rw [htctx]; rfl, ?_, fun n hn => ?_⟩
  · rw [Ctx.retired, Ctx.setPc, Ctx.setSp, Ctx.slotWrites_eq, Ctx.wrs_same]
  · rw [htctx, Ctx.pc, Ctx.sp_retired, if_pos rfl]
  · rw [htctx, Ctx.sp_retired, if_neg (Ne.symm hn)]
    exact Ctx.sp_congr hsr n

end Sys2Proof.Machine
end

section
/-!
PROOFS. Loads of customer slots (O13).
-/
namespace Sys2Proof.Machine

/-! ### A write of UCS -/

section
variable {s u : State} {x k : Nat} {c : Core}

theorem CoreSet.refl (s : State) (x k : Nat) : CoreSet s x k (s.core k) s :=
  ⟨rfl, fun _ => rfl, rfl, fun _ _ => rfl, fun _ _ => rfl, rfl⟩

theorem CoreSet.upd (h : CoreSet s x k c u) (f : Core → Core) : CoreSet s x k (f c) (u.updCore k f) := by
  rw [State.updCore_eq, h.core]
  exact h.setCore _

/-- What the checks of an idle core make of a write of UCS: a job that starts, a code that refuses it, or neither. -/
theorem State.writeUcs_set (s : State) (x k : Nat) (v : Pay) (hidle : bit ((s.core k).sp Sr.ucs) 63 = false) :
    ∃ c, CoreSet s x k c (s.writeUcs k v) ∧
      (∀ (j : UcsJob) (ts : List Nat), bit v 0 = true → s.ucsImage k (8 * fld v 21 3) = .ok j → s.ucsTargets v = .ok ts →
        bit (c.sp Sr.ucs) 63 = true ∧ c.ucsJob = some { j with clr := bit v 1, targets := ts }) ∧
      (∀ ts : List Nat, bit v 0 = false → bit v 1 = true → s.ucsTargets v = .ok ts →
        bit (c.sp Sr.ucs) 63 = true ∧ c.ucsJob = some ⟨true, 0, [], [], ts⟩) ∧
      (∀ n : Nat, bit v 0 = true → s.ucsImage k (8 * fld v 21 3) = .error n → n < 16 →
        fld (c.sp Sr.ucs) 61 58 = n ∧ c.ucsJob = (s.core k).ucsJob) := by
  have hplain := (CoreSet.refl s x k).upd (fun c => c.setSp Sr.ucs
    (setFld (setFld (if bit v 62 then setBit ((s.core k).sp Sr.ucs) 62 false else (s.core k).sp Sr.ucs) 47 42 (fld v 47 42)) 21 3 (fld v 21 3)))
  have starts (j : UcsJob) := (hplain.upd (fun c => { c with ucsJob := some j })).upd
    (fun c => c.setSp Sr.ucs (setFld (c.sp Sr.ucs) 63 63 1))
  have refused (n : Nat) := hplain.upd (fun c => c.setSp Sr.ucs (setFld (c.sp Sr.ucs) 61 58 n))
  have busy (q : Pay) : bit (setFld q 63 63 1) 63 = true := by
    rw [bit_setFld _ _ _ _ _ (by decide) (by decide)]
    rfl
  have code (q : Pay) {n : Nat} (hn : n < 16) : fld (setFld q 61 58 n) 61 58 = n := by
    rw [fld_setFld_self _ _ _ _ (by decide) (by decide)]
    exact Nat.mod_eq_of_lt hn
  unfold State.writeUcs
  simp only [hidle, Bool.false_eq_true, false_or]
  cases hgo : bit v 0 with
  | true =>
    simp only [Bool.true_or, Bool.not_true, Bool.false_eq_true, if_false, if_true]
    cases hjob : s.ucsImage k (8 * fld v 21 3) with
    | error n =>
      refine ⟨_, refused n, fun j ts _ h => (by cases h), fun ts h => (by cases h), fun m _ h hm => ?_⟩
      cases h
      rw [Core.sp_setSp_self]
      exact ⟨code _ hm, rfl⟩
    | ok j =>
      cases hts : s.ucsTargets v with
      | error n => exact ⟨_, refused n, fun j ts _ _ h => (by cases h), fun ts h => (by cases h), fun m _ h => (by cases h)⟩
      | ok ts =>
        refine ⟨_, starts _, fun j ts _ hj ht => ?_, fun ts h => (by cases h), fun m _ h => (by cases h)⟩
        cases hj
        cases ht
        rw [Core.sp_setSp_self]
        exact ⟨busy _, rfl⟩
  | false =>
    cases hclr : bit v 1 with
    | false => exact ⟨_, hplain, fun j ts h => (by cases h), fun ts _ h => (by cases h), fun m h => (by cases h)⟩
    | true =>
      simp only [Bool.or_true, Bool.not_true, Bool.false_eq_true, if_false]
      cases hts : s.ucsTargets v with
      | error n => exact ⟨_, refused n, fun j ts h => (by cases h), fun ts _ _ h => (by cases h), fun m h => (by cases h)⟩
      | ok ts =>
        refine ⟨_, starts _, fun j ts h => (by cases h), fun ts _ _ ht => ?_, fun m h => (by cases h)⟩
        cases ht
        rw [Core.sp_setSp_self]
        exact ⟨busy _, rfl⟩

end

/-- UCS_GO and UCS_CLR write UCS. -/
theorem mtsUcs_writes {s : State} {at_ : At} {f : SF} {i : Instr} (hrow : mtsRow i = some (at_, f.a, Sr.ucs)) (h : s.ready at_ 4 = true)
    (hok : s.mtsOk (ctxOf at_) Sr.ucs (s.gr (ctxOf at_) f.a).tag = true) {c : Core}
    (hc : CoreSet s (ctxOf at_) (s.coreOf (ctxOf at_)) c (s.writeUcs (s.coreOf (ctxOf at_)) (s.gr (ctxOf at_) f.a).pay)) :
    ∃ t, exec i s = .next t ∧ OnlyCore s (ctxOf at_) (s.coreOf (ctxOf at_)) t ∧
      (∀ r, (t.ctx (ctxOf at_)).rdKey r = (s.ctx (ctxOf at_)).rdKey r) ∧ t.core (s.coreOf (ctxOf at_)) = c := by
  have hr := State.ready_iff s at_ 4 h
  exact ⟨_, mtsRow_seq hrow h hok rfl (by rw [hc.ctxs]; exact hr.loads) (hr.noLoopEnd (by rw [hc.ctxs]) _) (hc.calm.trans hr.calm) hc.pending,
    onlyCore_retire hr hc⟩

/-! ### The end of a load (R286, R287) -/

/-- What a fold over changes of cores leaves: all but the cores. -/
theorem foldl_cores {α : Type} {f : State → α → State} (hf : ∀ s a, ∃ cs, f s a = { s with cores := cs }) (l : List α) (s : State) :
    ∃ cs, l.foldl f s = { s with cores := cs } := by
  induction l generalizing s with
  | nil => exact ⟨s.cores, rfl⟩
  | cons a l ih =>
    obtain ⟨cs, hcs⟩ := hf s a
    obtain ⟨ds, hds⟩ := ih (f s a)
    exact ⟨ds, by rw [List.foldl_cons, hds, hcs]⟩

theorem foldl_ctxs {α : Type} {f : State → α → State} (hf : ∀ s a, ∃ cs, f s a = { s with ctxs := cs }) (l : List α) (s : State) :
    ∃ cs, l.foldl f s = { s with ctxs := cs } := by
  induction l generalizing s with
  | nil => exact ⟨s.ctxs, rfl⟩
  | cons a l ih =>
    obtain ⟨cs, hcs⟩ := hf s a
    obtain ⟨ds, hds⟩ := ih (f s a)
    exact ⟨ds, by rw [List.foldl_cons, hds, hcs]⟩

/-- A number that no entry of a table lists reads as unlisted. -/
theorem Tbl.look_eq_none {α : Type} {t : Tbl α} {k : Nat} (h : ∀ e ∈ t, e.1 ≠ k) : Tbl.look t k = none := by
  induction t with
  | nil => rfl
  | cons e t ih =>
    rw [Tbl.look_cons, if_neg (h e List.mem_cons_self)]
    exact ih (fun e' he' => h e' (List.mem_cons_of_mem _ he'))

/-- A fold over contexts that each time changes one, by a map that keeps P and makes it hold there. -/
theorem ctx_foldl_upd {P : Ctx → Prop} (g : Ctx → Ctx) (hg : ∀ c, P (g c)) (l : List (Nat × Ctx)) (s : State) (x : Nat)
    (h : P (s.ctx x) ∨ ∃ e ∈ l, e.1 = x) : P ((l.foldl (fun s e => s.updCtx e.1 g) s).ctx x) := by
  induction l generalizing s with
  | nil =>
    obtain h | ⟨e, he, -⟩ := h
    · exact h
    · cases he
  | cons a l ih =>
    refine ih _ ?_
    dsimp only
    rw [State.updCtx_eq, State.ctx_setCtx]
    split
    · exact .inl (hg _)
    · next hne =>
      obtain h | ⟨e, he, hx⟩ := h
      · exact .inl h
      · rw [List.mem_cons] at he
        obtain rfl | he := he
        · exact absurd hx hne
        · exact .inr ⟨e, he, hx⟩

section
variable {s : State} {k : Nat} {j : UcsJob}

/-- Every context of a target stands in no slot afterwards. -/
theorem State.restartSlots_slot (s : State) (j : UcsJob) {x : Nat} (hx : twinOf x ∈ j.targets) : ((s.restartSlots j).ctx x).slot = none := by
  refine ctx_foldl_upd (P := fun c => c.slot = none) (fun c => { c with slot := none }) (fun _ => rfl) _ s x ?_
  by_cases hlist : ∃ e ∈ s.ctxs, e.1 = x
  · obtain ⟨e, he, hex⟩ := hlist
    refine .inr ⟨e, List.mem_filter.mpr ⟨he, ?_⟩, hex⟩
    rw [hex]
    exact List.contains_iff_mem.mpr hx
  · refine .inl ?_
    have hnone : Tbl.look s.ctxs x = none := Tbl.look_eq_none (fun e he hex => hlist ⟨e, he, hex⟩)
    rw [State.ctx, Tbl.get, hnone]
    rfl

/-- The contexts that wait try again: nothing else of a context changes. -/
theorem State.ctx_wakeHold (s : State) (x : Nat) : s.wakeHold.ctx x = { s.ctx x with run := (s.wakeHold.ctx x).run } := by
  unfold State.wakeHold
  generalize s.ctxs.filter _ = l
  induction l generalizing s with
  | nil => rfl
  | cons e l ih =>
    rw [List.foldl_cons]
    refine (ih _).trans ?_
    rw [State.updCtx_eq, State.ctx_setCtx]
    split
    · next hx => rw [← hx]
    · rfl

theorem State.wakeHold_rest (s : State) : ∃ cs, s.wakeHold = { s with ctxs := cs } :=
  foldl_ctxs (fun _ _ => ⟨_, rfl⟩) _ s

theorem State.restartSlots_rest (s : State) (j : UcsJob) : ∃ cs, s.restartSlots j = { s with ctxs := cs } :=
  foldl_ctxs (fun _ _ => ⟨_, rfl⟩) _ s

/-- Words written one after the other into the control store. -/
theorem cstore_words (base : Nat) (ws : List Pay) (n : Nat) (t : Tbl Pay) {i : Nat} (hi : i < n) :
    Tbl.get (fun _ => (0 : Pay)) ((List.range n).foldl (fun t i => Tbl.set (fun _ => (0 : Pay)) t (base + i) (ws.getD i 0)) t) (base + i) =
      ws.getD i 0 := by
  induction n with
  | zero => omega
  | succ n ih =>
    rw [List.range_succ, List.foldl_append, List.foldl_cons, List.foldl_nil, Tbl.get_set]
    split
    · next h =>
      obtain rfl : n = i := by omega
      rfl
    · exact ih (by omega)

/-- Micro-words as the load leaves them in a core. -/
def Holds (j : UcsJob) (c : Core) : Prop := ∀ i, i < j.words.length → Tbl.get (fun _ => (0 : Pay)) c.cstore (j.csbase + i) = j.words.getD i 0

theorem holds_installUcs (j : UcsJob) (c : Core) : Holds j (c.installUcs j) := fun _ hi => cstore_words j.csbase j.words _ _ hi

/-- Both cores of every twin of a list take the load. -/
theorem installs_foldl (j : UcsJob) (l : List Nat) (s : State) (m : Nat) (h : Holds j (s.core m) ∨ m / 2 ∈ l) :
    Holds j ((l.foldl (fun s t => (s.updCore (2 * t) (fun c => c.installUcs j)).updCore (2 * t + 1) (fun c => c.installUcs j)) s).core m) := by
  induction l generalizing s with
  | nil =>
    obtain h | h := h
    · exact h
    · cases h
  | cons t l ih =>
    refine ih _ ?_
    dsimp only
    rw [State.updCore_eq, State.core_setCore]
    split
    · exact .inl (holds_installUcs j _)
    · next h1 =>
      rw [State.updCore_eq, State.core_setCore]
      split
      · exact .inl (holds_installUcs j _)
      · next h0 =>
        obtain h | h := h
        · exact .inl h
        · rw [List.mem_cons] at h
          obtain h | h := h
          · omega
          · exact .inr h

/-- The load ends: its words are in the targets, and the core that started it is idle and done. -/
theorem ucsComplete_ends (hc : s.calm = true) (hj : (s.core k).ucsJob = some j) (hin : s.insideSlot j = false) :
    ∃ t, fin s (s.ucsComplete k) = .next t ∧ (t.core k).ucsJob = none ∧ bit ((t.core k).sp Sr.ucs) 63 = false ∧
      fld ((t.core k).sp Sr.ucs) 61 58 = 1 ∧ (∀ x, twinOf x ∈ j.targets → (t.ctx x).slot = none) ∧
      ∀ m, m / 2 ∈ j.targets → s.clOn (clusterOfTwin (m / 2)) = true → Holds j (t.core m) := by
  obtain ⟨s0, hs0⟩ : ∃ s0, s.restartSlots j = s0 := ⟨_, rfl⟩
  obtain ⟨s1, hs1⟩ : ∃ s1, (j.targets.filter (fun t => s.clOn (clusterOfTwin t))).foldl
    (fun s t => (s.updCore (2 * t) (fun c => c.installUcs j)).updCore (2 * t + 1) (fun c => c.installUcs j)) s0 = s1 := ⟨_, rfl⟩
  obtain ⟨s2, hs2⟩ : ∃ s2, ((s1.updCore k (fun c => { c with ucsJob := none })).setUcs k 63 63 0).setUcs k 61 58 ucsDone = s2 := ⟨_, rfl⟩
  have hend : s.ucsComplete k = s2.wakeHold := by
    unfold State.ucsComplete
    simp only [hj, hin, hs0, hs1, hs2]
    rfl
  obtain ⟨c0, h0⟩ := State.restartSlots_rest s j
  obtain ⟨c1, h1⟩ := foldl_cores (f := fun s t => (s.updCore (2 * t) (fun c => c.installUcs j)).updCore (2 * t + 1) (fun c => c.installUcs j))
    (fun _ _ => ⟨_, rfl⟩) (j.targets.filter (fun t => s.clOn (clusterOfTwin t))) s0
  have h2 : ∃ c2, s2 = { s1 with cores := c2 } := ⟨s2.cores, by rw [← hs2]; rfl⟩
  obtain ⟨c2, h2⟩ := h2
  obtain ⟨c3, h3⟩ := State.wakeHold_rest s2
  rw [hs0] at h0
  rw [hs1] at h1
  have hcalm : s2.wakeHold.calm = true := by
    rw [h3, h2, h1, h0]
    exact hc
  have hcore (m : Nat) : s2.wakeHold.core m = s2.core m := by rw [h3]; rfl
  have hk : s2.core k = ((({ s1.core k with ucsJob := none } : Core).setSp Sr.ucs (setFld ((s1.core k).sp Sr.ucs) 63 63 0)).setSp Sr.ucs
      (setFld (setFld ((s1.core k).sp Sr.ucs) 63 63 0) 61 58 1)) := by
    rw [← hs2]
    simp only [State.setUcs, State.updCore_eq, State.core_setCore_self, Core.sp_setSp_self]
    rfl
  refine ⟨_, by rw [hend]; exact fin_of_calm s _ hcalm, ?_, ?_, ?_, fun x hx => ?_, fun m hm hon => ?_⟩
  · show (s2.wakeHold.core k).ucsJob = none
    rw [hcore, hk]
    rfl
  · show bit ((s2.wakeHold.core k).sp Sr.ucs) 63 = false
    rw [hcore, hk, Core.sp_setSp_self, bit_setFld_disjoint _ _ _ _ _ (by decide) (by decide) (by decide),
      bit_setFld _ _ _ _ _ (by decide) (by decide)]
    rfl
  · show fld ((s2.wakeHold.core k).sp Sr.ucs) 61 58 = 1
    rw [hcore, hk, Core.sp_setSp_self, fld_setFld_self _ _ _ _ (by decide) (by decide)]
    rfl
  · show (s2.wakeHold.ctx x).slot = none
    rw [State.ctx_wakeHold]
    show (s2.ctx x).slot = none
    rw [h2]
    show (s1.ctx x).slot = none
    rw [h1, ← hs0]
    exact State.restartSlots_slot s j hx
  · show Holds j (s2.wakeHold.core m)
    have hinst : Holds j (s1.core m) := by
      rw [← hs1]
      exact installs_foldl j _ s0 m (.inr (List.mem_filter.mpr ⟨hm, hon⟩))
    rw [hcore]
    by_cases hmk : m = k
    · rw [hmk, hk]
      rw [hmk] at hinst
      exact hinst
    · rw [← hs2]
      simp only [State.setUcs, State.updCore_eq, State.core_setCore, if_neg (Ne.symm hmk)]
      exact hinst

end

/-- Settles O13: a write of UCS changes its core alone, by the checks of the image and the target; the end of a load installs its
words at every core of the targets. -/
theorem slotLoads : Obligations.SlotLoads := by
  unfold Obligations.SlotLoads
  refine ⟨?_, ?_⟩
  · intro s at_ f i x k v hi hd hhi h hok hidle
    have hrow : mtsRow i = some (at_, f.a, Sr.ucs) := by
      obtain rfl | rfl := hi
      · exact if_pos ⟨hd, hhi⟩
      · exact if_pos ⟨hd, hhi⟩
    obtain ⟨c, hc, hgo, hclr, hbad⟩ := State.writeUcs_set s x k v hidle
    obtain ⟨t, hexec, honly, hregs, hcore⟩ := mtsUcs_writes hrow h hok hc
    refine ⟨t, hexec, honly, hregs, ?_, ?_, ?_⟩
    · rw [hcore]; exact hgo
    · rw [hcore]; exact hclr
    · rw [hcore]; exact hbad
  · intro s k hc
    refine ⟨fun hnone => ⟨s, ?_, rfl⟩, fun j hj => ⟨fun hin => ⟨s, ?_, rfl⟩, fun hin => ?_⟩⟩
    · show fin s (s.ucsComplete k.toNat) = .next s
      rw [State.ucsComplete, hnone]
      exact fin_of_calm s s hc
    · show fin s (s.ucsComplete k.toNat) = .next s
      rw [State.ucsComplete, hj]
      dsimp only
      rw [if_pos hin]
      exact fin_of_calm s s hc
    · obtain ⟨t, hexec, hjob, hbusy, hstat, hslots, hwords⟩ := ucsComplete_ends hc hj hin
      refine ⟨t, hexec, hjob, hbusy, hstat, hslots, fun u i hu hon hi => ⟨?_, ?_⟩⟩
      · exact hwords (2 * u) (by rwa [Nat.mul_div_cancel_left u (by decide)]) (by rwa [Nat.mul_div_cancel_left u (by decide)]) i hi
      · have hhalf : (2 * u + 1) / 2 = u := by omega
        exact hwords (2 * u + 1) (by rwa [hhalf]) (by rwa [hhalf]) i hi

end Sys2Proof.Machine
end

section
/-!
PROOFS. Contexts that go on where their table lists a number twice (O35, O41, O42).

The statements range over every state, so also over one whose context table is in no canonical form. What ends a window wakes the
contexts of the entries that wait for it, and reads the machine's context by the entry's number: where an entry that waits stands
behind another of the same number, the context that the machine reads there goes on although it waits for something else.
-/
namespace Sys2Proof.Machine

/-- The reset machine, where context y waits for an event and a second entry of its number waits for a window. -/
def listedTwice (y : Nat) : State :=
  { State.reset with ctxs := [(y, { Ctx.reset with run := .wfe }), (y, { Ctx.reset with run := .window })] }

/-- Where context y stands after a command. -/
def runAfter (r : Res) (y : Nat) : Option RunState :=
  match r with
  | .next t => some (t.ctx y).run
  | _ => none

/-- Context y has gone on, although it did not wait for a window. -/
theorem listedTwice_woken {t : State} {c : Instr} {s : State} {y : Nat} (hs : s.ctxs = (listedTwice y).ctxs) (hexec : exec c s = .next t)
    (hrun : runAfter (exec c s) y = some .run) : t.ctx y ≠ s.ctx y ∧ (s.ctx y).run = .wfe := by
  have hwait : (s.ctx y).run = .wfe := by
    rw [State.ctx, hs]
    simp [listedTwice, Tbl.get, Tbl.look]
  refine ⟨fun hsame => ?_, hwait⟩
  rw [hexec, runAfter, Option.some.injEq, hsame, hwait] at hrun
  cases hrun

/-- Tight twin 0 has a full window. -/
def fullWindow : State := { listedTwice 0 with twins := [(0, { Twin.reset with groups := 65536 })] }

/-- Refutes O42: the confirmed window wakes a context that waits for an event. -/
theorem not_twinFaults : ¬ Obligations.TwinFaults := by
  unfold Obligations.TwinFaults
  intro h
  obtain ⟨-, hwindow, -⟩ := h fullWindow 0 rfl rfl
  obtain ⟨-, hconfirm, -⟩ := hwindow rfl rfl
  obtain ⟨t, hexec, -, -, -, hctx⟩ := hconfirm none (by decide) (.inl rfl) rfl
  obtain ⟨hne, hwfe⟩ := listedTwice_woken (s := fullWindow) (y := 0) rfl hexec (by decide)
  obtain hsame | ⟨-, hwindow, -⟩ := hctx 0
  · exact hne hsame
  · rw [hwfe] at hwindow
    cases hwindow

/-- The L2 of cluster 0 is enabled. -/
def sweepable : State := { listedTwice 0 with dev := Tbl.insert State.reset.dev (oCl 0 + 0x1000) 1 }

/-- Refutes O35: the sweep of an L2 confirms the windows of the cluster's twins, and wakes a context that waits for an event. -/
theorem not_coherenceAndL2 : ¬ Obligations.CoherenceAndL2 := by
  unfold Obligations.CoherenceAndL2
  intro ⟨_, h⟩
  obtain ⟨hsweep, -⟩ := h sweepable 0 rfl
  obtain ⟨t, hexec, -, -, -, -, -, hctx⟩ := hsweep ⟨0x40, 0⟩ 0 (by decide) (by decide) (fun _ _ => rfl)
  obtain ⟨hne, hwfe⟩ := listedTwice_woken (s := sweepable) (y := 0) rfl hexec (by decide)
  obtain hsame | ⟨-, hwindow, -⟩ := hctx 0
  · exact hne hsame
  · rw [hwfe] at hwindow
    cases hwindow

/-- Refutes O41: SPLIT of tight twin 1 confirms its window, and wakes a context that waits for an event. -/
theorem not_twinTransitions : ¬ Obligations.TwinTransitions := by
  unfold Obligations.TwinTransitions
  intro h
  obtain ⟨hbegin, -⟩ := h (listedTwice 8) (.split ⟨0x40, 0⟩ 1) ⟨0x40, 0⟩ 1 .split false false 1 rfl rfl
  obtain ⟨hmay, -⟩ := hbegin (by decide) (by decide)
  obtain ⟨t, hexec, -, -, -, -, -, -, hctx⟩ := hmay (by decide) rfl rfl
  obtain ⟨hne, hwfe⟩ := listedTwice_woken (y := 8) rfl hexec (by decide)
  obtain hsame | ⟨hwaits, -⟩ := hctx 8
  · exact hne hsame
  · rw [hwfe] at hwaits
    exact absurd hwaits (by decide)

end Sys2Proof.Machine
end

section
/-!
PROOFS. Lines that the writes of a unit do not reach (O37, O39, O46, O47, O56).

The statements range over every state, so also over one where a line is poisoned, or becomes so: a line of the L2 whose set has an
unreadable tag entry leaves the L2 with the first write, and is then one of the lines that the entry may have named (R403), so that
a second write fails (R404). A gate list in Keep SRAM is refused (R39).
-/
namespace Sys2Proof.Machine

/-- A property does not hold of the state after a command, when the command runs to one where it fails. -/
def failsAfter (r : Res) (p : State → Bool) : Bool :=
  match r with
  | .next t => !p t
  | _ => false

theorem fails_after {r : Res} {t : State} {p : State → Prop} [DecidablePred p] (hexec : r = .next t) (hfails : failsAfter r (fun u => decide (p u)) = true)
    (hp : p t) : False := by
  rw [hexec, failsAfter, decide_eq_true hp] at hfails
  cases hfails

/-- The machine whose cluster 0 holds a line in its L2, poisoned or not, and has the unreadable tag entries given. -/
def State.withLine (s : State) (line : Nat) (poison : Bool) (bad : List (Nat × Nat)) : State :=
  { s with clusters := [(0, { Cluster.reset with l2 := [(line, ⟨0, false, poison⟩)], tagBad := bad })] }

theorem noWindows_nil {s : State} (h : s.twins = []) : s.noWindows := by
  intro e he
  rw [h] at he
  cases he

/-! ### The Region Table and the engines (O37, O39) -/

/-- Heap 0 is enabled, with two regions of 1 MiB from 0x10000000 at 0x100000; word 0 of region 0 stands at address 0. -/
def oneHeap (rt0 : Pay) : State :=
  ((((State.reset.setReg (oHeap 0) 0x10000000).setReg (oHeap 0 + 8) 0x100000).setReg (oHeap 0 + 0x10) 0x10000).setReg (oHeap 0 + 0x20) 8).setWord 0
    (Word.raw rt0)

/-- Region 0 is free, and the line of its entry leaves the L2 into a set with an unreadable tag. -/
def freeRegion : State := (oneHeap 0x8000000000080000).withLine 0 false [(0, 1)]

/-- Refutes O37: GC_RSET writes word 1 of a free region's entry first, and cannot write word 0 any more. -/
theorem not_gcRegions : ¬ Obligations.GcRegions := by
  unfold Obligations.GcRegions
  intro h
  obtain ⟨hset, -⟩ := h freeRegion ⟨0x40, 0⟩ (by decide) (noWindows_nil rfl)
  obtain ⟨-, hfree⟩ := hset 0 0 (by decide) (by decide) (by decide) (by decide) (by decide) (by decide) (by decide)
  obtain ⟨t, hexec, hentry, -⟩ := hfree (by decide) (.inl (by decide))
  exact fails_after (p := fun u => u.rt0 (fld (0 : Pay) 15 0) = plainRegion (freeRegion.rt0 (fld (0 : Pay) 15 0)) (fld (0 : Pay) 63 62) (fld (0 : Pay) 61 60)) hexec (by decide) hentry

/-- Engine 0 has card 0 of region 0 to scan, which points to the younger region 1; the line of the card leaves the L2 into a set with
an unreadable tag. -/
def dirtyCard : State :=
  (((((oneHeap 0x1000000000080000).setWord 0x100008 ⟨Tag.vec, 0x10100000⟩).setReg (oSe 0) 1).withLine 0x2100 false [(0x100, 1)]).updCluster 0
    (fun c => { c with cardQ := [(0, 0)] }))

/-- Refutes O39: CARD_SCAN cleans the card first, and cannot make it dirty again. -/
theorem not_gcEngines : ¬ Obligations.GcEngines := by
  unfold Obligations.GcEngines
  intro h
  obtain ⟨-, hscan, -⟩ := h dirtyCard 0 ⟨0x40, 0⟩ (by decide) (noWindows_nil rfl)
  obtain ⟨-, hyounger, -⟩ := hscan 0 0 [] 0 (by decide) (by decide) (by decide) (by decide) (by decide) (by decide) (.inl (by decide))
  obtain ⟨t, hexec, hcard, -⟩ := hyounger ⟨Tag.vec, 0x10100000⟩ 0 (by decide) (by decide) (by decide) (by decide)
  exact fails_after (p := fun u => u.byte (rtSide (dirtyCard.rt0 0) + dirtyCard.heapS 0 / 64 + 0) = 1) hexec (by decide +kernel) hcard

/-! ### The Ledger (O46, O47) -/

/-- A command of stream 5 waits in slot 0. -/
def waitingCmd : Slot :=
  { stream := 5, seq := 0, hdr := [], params := [], trailer := [], gen := 0, page := false, accepted := 1, attempt := 1, emit := 0, replay := false,
    st := .waiting, status := 0, appcode := 0, result := [], effs := [], next := 0, bytes := 0, replied := false, mirrorWait := false, via := .sp }

/-- It can be dispatched to context 0, whose image lies in a poisoned line. -/
def dispatchable : State :=
  { ((State.reset.setReg (oLdg + 0x10) 1).withLine 0 true []) with
    ldg := { Ldg.reset with live := { Led.empty with slots := [(0, waitingCmd)] } } }

/-- Refutes O46: the image of a dispatched command does not reach a poisoned line. -/
theorem not_dispatchAndCommit : ¬ Obligations.DispatchAndCommit := by
  unfold Obligations.DispatchAndCommit
  intro h
  obtain ⟨hdispatch, -⟩ := h dispatchable ⟨0x40, 0⟩ 0 0 waitingCmd (by decide) (noWindows_nil rfl)
  obtain ⟨t, hexec, -, -, himage⟩ := hdispatch (by decide) (by decide) (by decide) (by decide) (by decide) (by decide) (by decide) (by decide)
    (by decide) (by decide) (by decide) (by decide) (by decide) (by decide) (by decide)
  exact fails_after (p := fun u => u.word (dispatchable.rf (oLdg + 0x20) 47 13 * 0x2000 + 0x2000 * (0 : BitVec 8).toNat)
    = (imageWords (0 : BitVec 17).toNat waitingCmd).getD 0 Word.nil) hexec (by decide) himage

/-- The mirror of a peer is on and has its key; the first line of its area is poisoned. -/
def mirrored : State :=
  { ((State.reset.setReg (oLdg + 0x28) 1).withLine 0 true []) with
    ldg := { Ldg.reset with live := { Led.empty with keys := [(kMirror, ⟨none, []⟩)] } } }

/-- Refutes O47: a peer's write does not reach a poisoned line. -/
theorem not_journalAndMirror : ¬ Obligations.JournalAndMirror := by
  unfold Obligations.JournalAndMirror
  intro h
  obtain ⟨-, -, -, hwrite, -⟩ := h mirrored 0 (by decide)
  obtain ⟨⟨t, hexec, hword, -⟩, -⟩ := hwrite 0 (Word.raw 1) (by decide) (by decide) (by decide) (by decide) (noWindows_nil rfl)
  exact fails_after (p := fun u => u.word (mirrored.rf (oLdg + 0x30) 47 26 * 0x4000000 + (0 : BitVec 26).toNat) = Word.raw 1) hexec (by decide) hword

/-! ### The gate list (O56) -/

theorem word_pay_of_no_mem {s : State} (h : s.mem = []) (k : Nat) : (s.word k).pay = 0 := by
  have hbyte : ∀ j, s.byte j = 0 := fun j => by rw [State.byte, h]; rfl
  rw [State.word, State.payAt]
  simp only [hbyte]
  rfl

theorem fld_words_of_no_mem {s : State} (h : s.mem = []) (n k hi lo : Nat) : ∀ w ∈ (s.words k n).map (·.pay), fld w hi lo = 0 := by
  induction n generalizing k with
  | zero => intro w hw; cases hw
  | succ n ih =>
    intro w hw
    rw [State.words, List.map_cons, List.mem_cons] at hw
    obtain rfl | hw := hw
    · simp [word_pay_of_no_mem h, fld, nfld]
    · exact ih _ w hw

/-- The standby gate list of port 0 stands in Keep SRAM. -/
def gatesInKeep : State := State.reset.setReg (oPort 0 + 0x30) (p64 keepBase)

/-- Refutes O56: a gate list that the IO Hub cannot read is refused. -/
theorem not_ethernetAndPcie : ¬ Obligations.EthernetAndPcie := by
  unfold Obligations.EthernetAndPcie
  intro h
  obtain ⟨-, -, -, hbase, -⟩ := h gatesInKeep 0 (by decide) (noWindows_nil rfl) (by decide) (by decide)
  obtain ⟨t, hexec, -, hstandby, -⟩ := hbase ⟨0x40, 0⟩ 1 (by decide) (fld_words_of_no_mem rfl _ _ _ _) (by decide)
  exact fails_after (p := fun u => (u.ethPort (0 : BitVec 2).toNat).standby.isSome = true) hexec (by decide +kernel) (by rw [hstandby]; rfl)

end Sys2Proof.Machine
end

section
/-!
PROOFS. Accesses of device registers by a source that acts (R41 to R47), and commands that leave nothing on its way.

Where nothing of the source's core is on its way and nothing is due, an accepted write is the write of the register's block, and an
accepted load its load.
-/
namespace Sys2Proof.Machine

/-! ### Registers -/

theorem State.reg_setReg_ne (s : State) {off j : Nat} (v : Pay) (h : off ≠ j) : (s.setReg off v).reg j = s.reg j := by
  rw [State.reg_setReg, if_neg h]

/-- A write that changes one register only. -/
theorem RegsOnly.setReg (s : State) (off : Nat) (v : Pay) : RegsOnly s [off] (s.setReg off v) :=
  ⟨rfl, fun j hj => State.reg_setReg_ne s v (fun h => hj (by rw [h]; exact List.mem_singleton_self _))⟩

theorem RegsOnly.trans {s t u : State} {os ps : List Nat} (h1 : RegsOnly s os t) (h2 : RegsOnly t ps u) : RegsOnly s (os ++ ps) u := by
  refine ⟨?_, fun j hj => ?_⟩
  · rw [h2.rest, h1.rest]
  · rw [List.mem_append, not_or] at hj
    rw [h2.others j hj.2, h1.others j hj.1]

theorem RegsOnly.mono {s t : State} {os ps : List Nat} (h : RegsOnly s os t) (hsub : ∀ o ∈ os, o ∈ ps) : RegsOnly s ps t :=
  ⟨h.rest, fun j hj => h.others j (fun ho => hj (hsub j ho))⟩

theorem RegsOnly.refl (s : State) (os : List Nat) : RegsOnly s os s := ⟨rfl, fun _ _ => rfl⟩

/-! ### Completion -/

/-- A command whose state afterwards has nothing on its way completes with it. -/
theorem fin_next {s t : State} (hcalm : t.calm = true) (hpending : t.pending = s.pending) : fin s t = .next t := by
  rw [fin_of_calm s t hcalm, ← hpending]

/-- So does one that leaves outbox, engines, Ledger restarts and wake request of a calm machine. -/
theorem fin_calm {s t : State} (hs : s.calm = true) (ho : t.outbox = s.outbox) (hc : t.clusters = s.clusters) (hl : t.ldg.restart = s.ldg.restart)
    (hw : t.sys.wakeReq = s.sys.wakeReq) (hp : t.pending = s.pending) : fin s t = .next t :=
  fin_next ((State.calm_congr ho hc hl hw).trans hs) hp

theorem RegsOnly.fin {s t : State} {os : List Nat} (hs : s.calm = true) (h : RegsOnly s os t) : fin s t = .next t := by
  rw [h.rest]
  exact fin_calm hs rfl rfl rfl rfl rfl

/-! ### Accesses -/

theorem pageMapped_lt {p : Nat} (h : pageMapped p = true) : p < 0x28 := by
  simp only [pageMapped, Bool.or_eq_true, decide_eq_true_eq, Bool.and_eq_true] at h
  omega

/-- A register with an address lies in the device range (R40). -/
theorem State.region_dev (s : State) {off : Nat} (h : pageMapped (pageOf off) = true) : s.region (devBase + off) = .dev off := by
  have hlt : off < 0x280000 := by
    have := pageMapped_lt h
    rw [pageOf] at this
    omega
  have hpage : pageMapped (pageOf (devBase + off - devBase)) = true := by rw [Nat.add_sub_cancel_left]; exact h
  unfold State.region
  simp only [devBase] at hpage ⊢
  rw [if_neg (by omega), if_neg (by omega), if_neg (by omega), if_neg (by omega), if_neg (by omega), if_pos (by omega), if_pos hpage,
    Nat.add_sub_cancel_left]

/-- Nothing of the source stands before its access, so that nothing arrives first (R18). -/
theorem State.arriveBefore_none {s : State} {src tgt id : Nat} (hs : s.calm = true) (h : s.txns.any (fun t => t.stands src tgt id) = false) :
    s.arriveBefore src tgt id = s := by
  rw [List.any_eq_false] at h
  have hfilter : s.txns.filter (fun u => u.stands src tgt id) = [] := List.filter_eq_nil_iff.mpr h
  have hmap : s.txns.map (fun u => if u.stands src tgt id then { u with arrived := true } else u) = s.txns := by
    exact (List.map_congr_left fun u hu => if_neg (h u hu)).trans (List.map_id _)
  unfold State.arriveBefore
  simp only [hfilter, hmap, List.filterMap_nil, List.append_nil]
  exact State.settle_of_calm s hs

theorem State.orderly_iff {s : State} {src : Src} {off : Nat} : s.orderly src off = true ↔
    off % 8 = 0 ∧ pageMapped (pageOf off) = true ∧ (64 ≤ src.code.toNat ∨ s.unpaired src.x.toNat = false ∧ s.heldBy src.x.toNat = false ∧
      s.txns.any (fun t => t.stands src.code.toNat (s.targetOf (devBase + off)) s.nextTxn) = false) := by
  simp [State.orderly, and_assoc]

theorem State.inOrder_of_orderly {s : State} {src : Src} {off : Nat} (hs : s.calm = true) (h : s.orderly src off = true) :
    s.inOrder src (devBase + off) = s := by
  obtain ⟨-, -, hcase⟩ := State.orderly_iff.mp h
  unfold State.inOrder
  obtain hunit | ⟨-, hheld, hstands⟩ := hcase
  · exact if_pos hunit
  · split
    · rfl
    · simp only [hheld, Bool.false_eq_true, if_false]
      exact State.arriveBefore_none hs hstands

theorem State.canWrite_iff {s : State} {src : Src} {off : Nat} {v : Pay} : s.canWrite src off v = true ↔
    src.wf = true ∧ s.srcActs src = true ∧ s.pageGated off = false ∧ s.orderly src off = true ∧ ∃ d, regDesc off = some d ∧ d.rejects v = false := by
  unfold State.canWrite
  cases regDesc off <;> simp [and_assoc]

theorem State.canRead_iff {s : State} {src : Src} {off : Nat} : s.canRead src off = true ↔
    src.wf = true ∧ s.srcActs src = true ∧ s.pageGated off = false ∧ s.orderly src off = true ∧ ∃ d, regDesc off = some d := by
  simp [State.canRead, and_assoc, Option.isSome_iff_exists]

theorem State.unpaired_of_orderly {s : State} {src : Src} {off : Nat} (h : s.orderly src off = true) :
    ¬ (src.code.toNat < 64 ∧ s.unpaired src.x.toNat = true) := by
  obtain ⟨-, -, hunit | ⟨hpair, -⟩⟩ := State.orderly_iff.mp h
  · omega
  · rw [hpair]
    exact fun hc => Bool.false_ne_true hc.2

theorem State.pageGated_false {s : State} {off : Nat} (hm : pageMapped (pageOf off) = true) (h : s.pageGated off = false) :
    ¬ (0x20 ≤ pageOf off ∧ (!s.clOn (pageOf off - 0x20)) = true) := by
  intro ⟨hge, hoff⟩
  have hlt := pageMapped_lt hm
  rw [State.pageGated, decide_eq_true hge, decide_eq_true hlt, hoff] at h
  cases h

/-- An accepted write is the write of the register's block. -/
theorem State.regWrite_block {s : State} {src : Src} {off : Nat} {v : Pay} (hs : s.calm = true) (hw : s.canWrite src off v = true) :
    s.regWrite src off v = s.blockStore src.code.toNat src.x.toNat off v := by
  obtain ⟨-, hacts, hgate, hord, d, hd, hrej⟩ := State.canWrite_iff.mp hw
  obtain ⟨halign, hmapped, -⟩ := State.orderly_iff.mp hord
  unfold State.regWrite
  simp only [hacts, hgate, hmapped, halign, Bool.not_true, Bool.false_eq_true, false_or]
  rw [if_neg (fun h => h.2 rfl), if_neg (fun h => h rfl), if_neg (State.unpaired_of_orderly hord), State.inOrder_of_orderly hs hord]
  unfold State.perform
  simp only [s.region_dev hmapped]
  rw [if_neg (State.pageGated_false hmapped hgate), if_neg (by decide), if_neg (by decide)]
  unfold State.devStore
  simp only [hd, hrej, Bool.false_eq_true, if_false]

/-- An accepted load is the load of the register's block. -/
theorem State.regRead_block {s : State} {src : Src} {off : Nat} (hs : s.calm = true) (hr : s.canRead src off = true) :
    s.regRead src off = match ({ s with answer := none } : State).blockLoad src.code.toNat src.x.toNat off with
      | .val v t => { t with answer := some (Word.raw v) }
      | .wait t => t := by
  obtain ⟨-, hacts, hgate, hord, d, hd⟩ := State.canRead_iff.mp hr
  obtain ⟨-, hmapped, -⟩ := State.orderly_iff.mp hord
  have horder : ({ s with answer := none } : State).inOrder src (devBase + off) = { s with answer := none } :=
    State.inOrder_of_orderly (s := { s with answer := none }) hs hord
  unfold State.regRead
  simp only [hacts, hgate, hmapped, Bool.not_true, Bool.false_eq_true, if_false, or_self, horder]
  rw [if_neg (State.unpaired_of_orderly hord)]
  unfold State.devLoad
  simp only [hd] <;> rfl

end Sys2Proof.Machine
end

section
/-!
PROOFS. A touch record in a line that the frame ring does not reach (O60).
-/
namespace Sys2Proof.Machine

/-- One count at the lines of node 0. -/
def touchScan : Scan := ⟨[(960, 1), (984, 1)], 0, 0⟩

/-- The panel is touched at node 0 only, with a full threshold of 1; slot 0 of the frame ring is at address 0, and its second line is
poisoned. -/
def touchedPanel : State :=
  { (((State.reset.setReg (oPnl + 0x18) 0x8000000000000000).setReg (oPnl + 0x28) 0x0010010FFFFFF000).withLine 1 true []) with
    pnl := { Pnl.reset with base := [(0, 1)], ring := 0x1000000000000 } }

/-- The one candidate of the scan. -/
def touchPeak : Peak := ⟨0, 0, 0, 1, false⟩

/-- Refutes O60: the touch record of a frame does not reach a poisoned line. -/
theorem not_panelSense : ¬ Obligations.PanelSense := by
  unfold Obligations.PanelSense
  intro h
  obtain ⟨hframe, -⟩ := h touchedPanel (by decide) (noWindows_nil rfl) (by decide) (by decide) (by decide)
  obtain ⟨-, hpeak⟩ := hframe (by decide) (by decide)
  obtain ⟨hdown, -⟩ := hpeak touchScan touchPeak (by decide) (by decide) (by decide +kernel)
  obtain ⟨t, hexec, -, -, -, hword, -⟩ := hdown (by decide) (by decide)
  exact fails_after (p := fun u => u.word (fld touchedPanel.pnl.ring 47 12 * 4096 + 4096 * touchedPanel.rf (oPnl + 0x38) 11 0 + 64) = Word.raw ((⟨0, touchPeak.x, touchPeak.y, touchPeak.x, touchPeak.y, touchPeak.str, touchPeak.glove, touchedPanel.time, touchPeak.node⟩ : Touch).record 1)) hexec
    (by decide +kernel) (hword (by decide))

end Sys2Proof.Machine
end

section
/-!
PROOFS. The Physical Region Table, its lock and the ring 0 vectors (O40).
-/
namespace Sys2Proof.Machine

/-! ### Writes and loads of a block -/

/-- A row that writes a register, with the write of its block. -/
theorem exec_store {s t : State} {src : Src} {off : Nat} {v : Pay} {c : Instr} (hrow : exec c s = fin s (s.regWrite src off v)) (hs : s.calm = true)
    (hw : s.canWrite src off v = true) (ht : s.blockStore src.code.toNat src.x.toNat off v = t) (hcalm : t.calm = true)
    (hpending : t.pending = s.pending) : exec c s = .next t := by
  rw [hrow, State.regWrite_block hs hw, ht]
  exact fin_next hcalm hpending

/-- The same where the block changes registers only. -/
theorem exec_store_regs {s t : State} {src : Src} {off : Nat} {v : Pay} {c : Instr} {os : List Nat} (hrow : exec c s = fin s (s.regWrite src off v))
    (hs : s.calm = true) (hw : s.canWrite src off v = true) (ht : s.blockStore src.code.toNat src.x.toNat off v = t) (hregs : RegsOnly s os t) :
    exec c s = .next t := by
  refine exec_store hrow hs hw ht ?_ ?_
  · rw [hregs.rest]
    exact (State.calm_congr rfl rfl rfl rfl).trans hs
  · rw [hregs.rest]

/-- A row that loads a register whose block answers at once and changes nothing. -/
theorem exec_load {s : State} {src : Src} {off : Nat} {v : Pay} {c : Instr} (hrow : exec c s = fin s (s.regRead src off)) (hs : s.calm = true)
    (hr : s.canRead src off = true)
    (hv : ({ s with answer := none } : State).blockLoad src.code.toNat src.x.toNat off = .val v { s with answer := none }) :
    exec c s = .next (s.answers v) := by
  rw [hrow, State.regRead_block hs hr, hv]
  exact fin_next ((State.calm_congr rfl rfl rfl rfl).trans hs) rfl

/-- The Security block takes the writes of its page. -/
theorem State.blockStore_sec (s : State) (src x : Nat) {o : Nat} (v : Pay) (hlo : 0x10 ≤ o) (hhi : o < 0x10000) :
    s.blockStore src x (oSec + o) v = s.secStore o v := by
  have hpage : pageOf (oSec + o) = 7 := by simp only [pageOf, oSec]; omega
  have hin : inPage (oSec + o) = o := by simp only [inPage, oSec]; omega
  unfold State.blockStore
  simp only [hpage, hin]
  rw [if_neg (by omega), if_neg (by decide)]

/-- What a plain register holds after an accepted write (R6). -/
theorem State.plainWrite_of_desc (s : State) {off : Nat} {v : Pay} {d : RDesc} (herr : inPage off ≠ 8) (hd : regDesc off = some d) :
    s.plainWrite off v = s.setReg off (d.write (s.reg off) v) := by
  unfold State.plainWrite
  rw [if_neg herr, hd]

/-! ### The ring 0 part of the vector latch (R443) -/

theorem State.latchOf_cores (s : State) (cs : Tbl Core) (k base : Nat) (ring0 : Bool) :
    ({ s with cores := cs } : State).latchOf k base ring0 = s.latchOf k base ring0 := rfl

theorem State.reloadLatch0_rest (s : State) : ∃ cs, s.reloadLatch0 = { s with cores := cs } := by
  refine foldl_cores (fun u k => ?_) _ s
  split
  · exact ⟨_, rfl⟩
  · exact ⟨u.cores, rfl⟩

/-- One core's reload. -/
def State.loadLatch0 (s : State) (k : Nat) : State :=
  if s.clOn (clusterOfCore k) then s.updCore k (fun c => { c with latch0 := s.latchOf k (s.rf (oSec + 0xE00) 47 11 * 2048) true }) else s

/-- After reloads of different cores, each powered one of them holds the entries that memory gives. -/
theorem State.loadLatch0_fold (l : List Nat) (s : State) (hl : l.Nodup) :
    ∀ k, (l.foldl State.loadLatch0 s).core k = if k ∈ l ∧ s.clOn (clusterOfCore k) = true then
      { s.core k with latch0 := s.latchOf k (s.rf (oSec + 0xE00) 47 11 * 2048) true } else s.core k := by
  induction l generalizing s with
  | nil => exact fun k => (if_neg (fun h => by cases h.1)).symm
  | cons j l ih =>
    intro k
    obtain ⟨hj, hl⟩ := List.nodup_cons.mp hl
    have hstep : ∃ cs, s.loadLatch0 j = { s with cores := cs } := by
      unfold State.loadLatch0
      split
      · exact ⟨_, rfl⟩
      · exact ⟨s.cores, rfl⟩
    have hself : s.clOn (clusterOfCore j) = true → (s.loadLatch0 j).core j =
        { s.core j with latch0 := s.latchOf j (s.rf (oSec + 0xE00) 47 11 * 2048) true } := by
      intro hon
      rw [State.loadLatch0, if_pos hon, State.updCore_eq, State.core_setCore_self]
    have hother : j ≠ k → (s.loadLatch0 j).core k = s.core k := by
      intro hne
      unfold State.loadLatch0
      split
      · rw [State.updCore_eq, State.core_setCore, if_neg hne]
      · rfl
    have hoff : ¬ s.clOn (clusterOfCore j) = true → s.loadLatch0 j = s := fun h => if_neg h
    obtain ⟨cs, hcs⟩ := hstep
    rw [List.foldl_cons, ih _ hl k]
    have hon : (s.loadLatch0 j).clOn (clusterOfCore k) = s.clOn (clusterOfCore k) := by rw [hcs]; rfl
    have hlatch : (s.loadLatch0 j).latchOf k ((s.loadLatch0 j).rf (oSec + 0xE00) 47 11 * 2048) true =
        s.latchOf k (s.rf (oSec + 0xE00) 47 11 * 2048) true := by rw [hcs]; rfl
    rw [hon, hlatch]
    by_cases hjk : j = k
    · subst hjk
      rw [if_neg (fun h => hj h.1)]
      by_cases hp : s.clOn (clusterOfCore j) = true
      · rw [hself hp, if_pos ⟨List.mem_cons_self, hp⟩]
      · rw [hoff hp, if_neg (fun h => hp h.2)]
    · rw [hother hjk]
      simp only [List.mem_cons, Ne.symm hjk, false_or]

theorem State.core_reloadLatch0 (s : State) {k : Nat} (hk : k < 64) (hon : s.clOn (clusterOfCore k) = true) :
    s.reloadLatch0.core k = { s.core k with latch0 := s.latchOf k (s.rf (oSec + 0xE00) 47 11 * 2048) true } :=
  (State.loadLatch0_fold (List.range 64) s List.nodup_range k).trans (if_pos ⟨List.mem_range.mpr hk, hon⟩)

/-- A write of SEC_R0TVB gives its base field the value written. -/
theorem r0tvb_write (s : State) (v : Pay) :
    ∃ w, s.plainWrite (oSec + 0xE00) v = s.setReg (oSec + 0xE00) w ∧ fld w 47 11 = fld v 47 11 := by
  refine ⟨_, State.plainWrite_of_desc s (by decide) (d := [rw 47 11]) rfl, ?_⟩
  simpa [RDesc.write, RField.write, fld_setFld_self] using fld_lt v 47 11

/-- Settles O40: each write acts in the Security block, and a reload goes core by core. -/
theorem regionsAndVectors : Obligations.RegionsAndVectors := by
  unfold Obligations.RegionsAndVectors
  intro s src hs
  refine ⟨fun i w1 v d => ?_, fun hw => ?_, fun hr => ?_, fun v hw => ?_⟩
  · dsimp only
    intro hw hd
    have hb : b2n w1 ≤ 1 := by cases w1 <;> decide
    have hi := i.isLt
    have hoff : oSec + 0x1000 + 16 * i.toNat + 8 * b2n w1 = oSec + (0x1000 + 16 * i.toNat + 8 * b2n w1) := by omega
    rw [hoff] at hw hd ⊢
    have hrow : exec (.prtWrite src i w1 v) s = fin s (s.regWrite src (oSec + (0x1000 + 16 * i.toNat + 8 * b2n w1)) v) := by
      rw [← hoff]; rfl
    have hstore : s.blockStore src.code.toNat src.x.toNat (oSec + (0x1000 + 16 * i.toNat + 8 * b2n w1)) v =
        if bit (s.reg (oSec + 0xF00)) 0 then s else s.plainWrite (oSec + (0x1000 + 16 * i.toNat + 8 * b2n w1)) v := by
      rw [State.blockStore_sec _ _ _ _ (by omega) (by omega)]
      unfold State.secStore
      rw [if_neg (by omega), if_neg (by omega), if_neg (by omega), if_neg (by omega), if_neg (by omega), if_neg (by omega),
        if_pos (by omega)]
    refine ⟨fun hlock => ?_, fun hlock => ?_⟩
    · have herr : inPage (oSec + (0x1000 + 16 * i.toNat + 8 * b2n w1)) ≠ 8 := by simp only [inPage, oSec]; omega
      rw [hlock, State.plainWrite_of_desc s herr hd] at hstore
      exact ⟨_, exec_store_regs hrow hs hw hstore (RegsOnly.setReg _ _ _), RegsOnly.setReg _ _ _, State.reg_setReg_self _ _ _⟩
    · rw [hlock] at hstore
      exact exec_store_regs hrow hs hw hstore (RegsOnly.refl s [])
  · have hstore : s.blockStore src.code.toNat src.x.toNat (oSec + 0xF00) 1 = s.plainWrite (oSec + 0xF00) 1 := rfl
    rw [State.plainWrite_of_desc s (by decide) (d := [w1s 0]) rfl] at hstore
    refine ⟨_, exec_store_regs rfl hs hw hstore (RegsOnly.setReg _ _ _), RegsOnly.setReg _ _ _, ?_⟩
    rw [State.reg_setReg_self]
    simpa [RDesc.write, RField.write, bit_setFld] using .inr (show fld (1#64) 0 0 % 2 = 1 from rfl)
  · exact exec_load rfl hs hr rfl
  · obtain ⟨w, hplain, hfld⟩ := r0tvb_write s v
    obtain ⟨cs, hcs⟩ := State.reloadLatch0_rest (s.setReg (oSec + 0xE00) w)
    have hstore : s.blockStore src.code.toNat src.x.toNat (oSec + 0xE00) v = (s.setReg (oSec + 0xE00) w).reloadLatch0 := by
      rw [← hplain]; rfl
    have hbase : (s.setReg (oSec + 0xE00) w).rf (oSec + 0xE00) 47 11 = fld v 47 11 := by
      rw [State.rf, State.reg_setReg_self, hfld]
    refine ⟨_, exec_store rfl hs hw hstore ?_ ?_, ?_, fun off hoff => ?_, ?_, fun k hk hon => ?_⟩
    · rw [hcs]
      exact (State.calm_congr rfl rfl rfl rfl).trans hs
    · rw [hcs]; rfl
    · rw [hcs]; rfl
    · rw [hcs]
      exact State.reg_setReg_ne s w (Ne.symm hoff)
    · rw [hcs]
      exact hbase
    · refine (State.core_reloadLatch0 (s.setReg (oSec + 0xE00) w) hk hon).trans ?_
      rw [hbase, hcs]
      rfl

end Sys2Proof.Machine
end

section
/-!
PROOFS. Keys are installed and erased, and fuses blown (O52).
-/
namespace Sys2Proof.Machine

/-! ### Keys (R636, R637) -/

/-- A key erased is none, and the others stay. -/
theorem State.key_eraseKey (s : State) (i j : Nat) : (s.eraseKey i).key? j = if i = j then none else s.key? j := by
  have hlook : Tbl.look (Tbl.erase s.ldg.live.keys i) j = if i = j then none else Tbl.look s.ldg.live.keys j := by
    split
    · next h => rw [← h, Tbl.look_erase_self]
    · next h => rw [Tbl.look_erase_ne _ h]
  unfold State.key? State.eraseKey State.updLive State.updLdg
  dsimp only
  rw [hlook]
  by_cases h : i = j
  · simp only [h, if_true]
  · simp only [h, if_false]
    rfl

/-- The one pending key of a command becomes current: under the DSK, or under none where there is no identity. -/
theorem State.keysCurrent_one {s : State} {p : PendKey} (hp : s.sec.pend = [p]) :
    s.keysCurrent p.lpos = { s with
      ldg := { s.ldg with live := { s.ldg.live with
        keys := Tbl.insert s.ldg.live.keys p.idx ⟨if s.secStat 62 then none else some s.sec.rma, p.key⟩, kctr := p.ctr,
        streams := if p.idx = 4 then Tbl.set defaultStream s.ldg.live.streams 4 { Tbl.get defaultStream s.ldg.live.streams 4 with crc := false }
          else s.ldg.live.streams } },
      sec := { s.sec with pend := [] } } := by
  unfold State.keysCurrent
  simp only [hp]
  rw [List.filter_cons_of_pos (by simp), List.filter_nil, List.foldl_cons, List.foldl_nil]
  show State.mk .. = _
  simp only [State.updLive, State.updLdg, hp, List.filter_cons, List.filter_nil, ne_eq, not_true_eq_false, decide_false, Bool.false_eq_true, if_false]

/-- A current key that its command installed is read back, and no other key has changed. -/
theorem State.key_keysCurrent_one {s : State} {p : PendKey} (hp : s.sec.pend = [p]) (j : Nat) :
    (s.keysCurrent p.lpos).key? j = if p.idx = j then some p.key else s.key? j := by
  rw [State.keysCurrent_one hp]
  unfold State.key?
  dsimp only
  by_cases h : p.idx = j
  · rw [if_pos h, ← h, Tbl.look_insert_self]
    by_cases hid : s.secStat 62 = true
    · rw [if_pos hid]
    · rw [if_neg hid]
      exact if_pos ⟨rfl, by rw [← Bool.eq_false_of_not_eq_true hid]; exact congrArg not (Bool.eq_false_of_not_eq_true hid)⟩
  · rw [if_neg h, Tbl.look_insert_ne _ _ h]
    rfl

/-- SEC_KEYCMD with an index of the key store: an operation other than 2 installs. -/
theorem State.secStore_install {s : State} {v : Pay} (hop : fld v 63 60 ≠ 2) (hi : fld v 12 0 ≤ kKek) :
    s.secStore 0x58 v = match Tbl.look s.ldg.live.slots (fld v 47 16 % 0x20000) with
      | some sl => if sl.gen = fld v 47 16 / 0x20000 ∧ sl.st = .ended ∧ sl.status = 2 then
          (s.updSec (fun c => { c with pend := c.pend ++ [⟨fld v 12 0, fld v 47 16, c.keyBytes, c.keyCtr⟩] })).keysCurrent (fld v 47 16)
        else s.updSec (fun c => { c with pend := c.pend ++ [⟨fld v 12 0, fld v 47 16, c.keyBytes, c.keyCtr⟩] })
      | none => s.updSec (fun c => { c with pend := c.pend ++ [⟨fld v 12 0, fld v 47 16, c.keyBytes, c.keyCtr⟩] }) := by
  unfold State.secStore
  rw [if_neg (by decide), if_pos rfl]
  unfold State.keyCmd
  rw [if_neg (by omega), if_neg hop] <;> rfl

theorem State.secStore_erase {s : State} {v : Pay} (hop : fld v 63 60 = 2) (hi : fld v 12 0 ≤ kKek) : s.secStore 0x58 v = s.eraseKey (fld v 12 0) := by
  unfold State.secStore
  rw [if_neg (by decide), if_pos rfl]
  unfold State.keyCmd
  rw [if_neg (by omega), if_pos hop]

/-! ### Fuses (R617, R642, R648) -/

/-- A fuse operation, with none under way, is answered by its RESULT or starts. -/
theorem State.fuseWrite_eq {s : State} {v : Pay} (hbusy : s.secStat 59 = false) :
    s.fuseWrite v = if s.fuseAnswer (fld v 63 60) v = 0 then
        (((s.setSecStat 59 true).setRf (oSec + 0x38) 63 63 1).setRf (oSec + 0x38) 62 59 0).updSec
          (fun c => { c with fuse := some ⟨fld v 63 60, fld v 17 16, fld v 14 12, fld v 7 0, s.sec.keyBytes⟩ })
      else s.setRf (oSec + 0x38) 62 59 (s.fuseAnswer (fld v 63 60) v) := by
  unfold State.fuseWrite State.fuseAnswer
  simp only [hbusy, Bool.false_eq_true, if_false]
  split_ifs <;> simp_all

theorem State.fuseAnswer_congr (s : State) (op : Nat) {v w : Pay} (h : ∀ hi lo, hi < 60 → fld w hi lo = fld v hi lo) :
    s.fuseAnswer op w = s.fuseAnswer op v := by
  unfold State.fuseAnswer
  rw [h 17 16 (by decide), h 7 0 (by decide)]

theorem State.fuseAnswer_lt (s : State) (op : Nat) (v : Pay) : s.fuseAnswer op v < 16 := by
  unfold State.fuseAnswer
  split_ifs <;> decide

/-- The row of a fuse operation writes SEC_FUSEPROG with its number. -/
theorem fuseRow_exec {c : Instr} {src : Src} {v : Pay} {op : Nat} (hc : fuseRow c = some (src, v, op)) (s : State) :
    exec c s = fin s (s.regWrite src (oSec + 0x30) (setFld v 63 60 op)) ∧ op < 16 := by
  unfold fuseRow at hc
  split at hc <;> cases hc <;> exact ⟨rfl, by decide⟩

/-- What an operation's fields are in the word written. -/
theorem fld_setFld_op (v : Pay) (op hi lo : Nat) (hhi : hi < 60) : fld (setFld v 63 60 op) hi lo = fld v hi lo :=
  fld_setFld_disjoint _ _ _ _ _ _ (by decide) (by decide) (.inl hhi)

theorem fld_setFld_code {op : Nat} (v : Pay) (hop : op < 16) : fld (setFld v 63 60 op) 63 60 = op := by
  rw [fld_setFld_self _ _ _ _ (by decide) (by decide)]
  exact Nat.mod_eq_of_lt hop

theorem State.rf_setRf_self (s : State) (off hi lo v : Nat) (hhi : hi < 64) (hlo : lo ≤ hi) :
    (s.setRf off hi lo v).rf off hi lo = v % 2 ^ (hi + 1 - lo) := by
  rw [State.rf, State.setRf_eq, State.reg_setReg_self, fld_setFld_self _ _ _ _ hhi hlo]

theorem State.reg_updSec (s : State) (f : Sec → Sec) (j : Nat) : (s.updSec f).reg j = s.reg j := rfl

/-- What the status registers say after an operation's start or end. -/
theorem State.fuseStatus (s : State) (busy : Bool) (started result : Nat) (f : Sec → Sec) :
    let t := (((s.setSecStat 59 busy).setRf (oSec + 0x38) 63 63 started).setRf (oSec + 0x38) 62 59 result).updSec f
    t.secStat 59 = busy ∧ t.rf (oSec + 0x38) 63 63 = started % 2 ∧ t.rf (oSec + 0x38) 62 59 = result % 16 := by
  refine ⟨?_, ?_, ?_⟩
  · rw [State.secStat, State.reg_updSec, State.setRf_eq, State.reg_setReg_ne _ _ (by decide), State.setRf_eq, State.reg_setReg_ne _ _ (by decide),
      State.setSecStat, State.reg_setReg_self, bit_setBit_self _ _ _ (by decide)]
  · rw [State.rf, State.reg_updSec, State.setRf_eq, State.reg_setReg_self, fld_setFld_disjoint _ _ _ _ _ _ (by decide) (by decide) (by decide),
      State.setRf_eq, State.reg_setReg_self, fld_setFld_self _ _ _ _ (by decide) (by decide)]
    rfl
  · rw [State.rf, State.reg_updSec, State.setRf_eq, State.reg_setReg_self, fld_setFld_self _ _ _ _ (by decide) (by decide)]
    rfl

@[simp] theorem Sec.kslot_setKslot (c : Sec) (n : Nat) (k : KSlot) : (c.setKslot n k).kslot n = k := Tbl.get_set_self _ _ _ _

/-! What each operation blows. -/

section
variable {c : Sec} {j : FuseJob}

theorem Sec.blow_revoke (h : j.op = 1) : c.blow j = c.setKslot j.slot { c.kslot j.slot with revoke := true } := if_pos h
theorem Sec.blow_rollback (h : j.op = 2) : c.blow j = { c with rollback := max c.rollback (min 64 j.value) } := by simp [Sec.blow, h]
theorem Sec.blow_debuglock (h : j.op = 3) : c.blow j = { c with debuglock := true } := by simp [Sec.blow, h]
theorem Sec.blow_life (h : j.op = 4) : c.blow j = { c with life := c.life ||| j.value % 8 } := by simp [Sec.blow, h]
theorem Sec.blow_progkey (h : j.op = 5) :
    c.blow j = c.setKslot j.slot { c.kslot j.slot with digest := j.digest, uses := j.uses, prog := true } := by simp [Sec.blow, h]

end

/-- The end of the operation under way, with its result. -/
theorem exec_fuseOperationComplete {s : State} {j : FuseJob} (hs : s.calm = true) (hj : s.sec.fuse = some j) (ok : Bool) :
    ∃ t, exec (.fuseOperationComplete ok) s = .next t ∧ t = { s with dev := t.dev, sec := { (if ok then s.sec.blow j else s.sec) with fuse := none } } ∧
      t.secStat 59 = false ∧ t.rf (oSec + 0x38) 62 59 = (if ok then fDone else fVerify) := by
  obtain ⟨t, ht⟩ : ∃ t, (((s.setSecStat 59 false).setRf (oSec + 0x38) 63 63 0).setRf (oSec + 0x38) 62 59 (if ok then fDone else fVerify)).updSec
      (fun c => { (if ok then c.blow j else c) with fuse := none }) = t := ⟨_, rfl⟩
  obtain ⟨hstat, -, hresult⟩ := s.fuseStatus false 0 (if ok then fDone else fVerify) (fun c => { (if ok then c.blow j else c) with fuse := none })
  have hrest : t = { s with dev := t.dev, sec := { (if ok then s.sec.blow j else s.sec) with fuse := none } } := by rw [← ht]; rfl
  rw [ht] at hstat hresult
  refine ⟨t, ?_, hrest, hstat, hresult.trans (by cases ok <;> rfl)⟩
  show fin s (s.fuseComplete ok) = _
  unfold State.fuseComplete
  rw [hj]
  dsimp only
  rw [ht, hrest]
  exact fin_calm hs rfl rfl rfl rfl rfl

/-- Settles O52: by the cases of SEC_KEYCMD and SEC_FUSEPROG, and of the operation that completes. -/
theorem keysAndFuses : Obligations.KeysAndFuses := by
  unfold Obligations.KeysAndFuses
  intro s hs
  refine ⟨fun src v => ?_, fun c src v op hc hw hbusy => ?_, fun j hj => ⟨?_, ?_⟩⟩
  · dsimp only
    intro hi
    refine ⟨fun hw => ?_, fun hw => ?_⟩
    · have hstore : s.blockStore src.code.toNat src.x.toNat (oSec + 0x58) (setFld v 63 60 1) = s.secStore 0x58 (setFld v 63 60 1) := rfl
      rw [State.secStore_install (by rw [fld_setFld_code v (by decide)]; decide) (by rw [fld_setFld_op _ _ _ _ (by decide)]; exact hi),
        fld_setFld_op _ _ 12 0 (by decide), fld_setFld_op _ _ 47 16 (by decide)] at hstore
      refine ⟨fun hslot => ?_, fun sl hslot hgen hended hstatus hpend => ?_⟩
      · rw [hslot] at hstore
        exact ⟨_, exec_store rfl hs hw hstore ((State.calm_congr rfl rfl rfl rfl).trans hs) rfl, rfl⟩
      · rw [hslot] at hstore
        dsimp only at hstore
        rw [if_pos ⟨hgen, hended, hstatus⟩] at hstore
        obtain ⟨u, hu⟩ : ∃ u, s.updSec (fun c => { c with pend := c.pend ++ [⟨fld v 12 0, fld v 47 16, c.keyBytes, c.keyCtr⟩] }) = u := ⟨_, rfl⟩
        have hone : u.sec.pend = [⟨fld v 12 0, fld v 47 16, s.sec.keyBytes, s.sec.keyCtr⟩] := by
          rw [← hu]
          show s.sec.pend ++ _ = _
          rw [hpend, List.nil_append]
        have hkey (k : Nat) : u.key? k = s.key? k := by rw [← hu]; rfl
        have hcur := State.keysCurrent_one hone
        have hread := State.key_keysCurrent_one hone
        rw [hu] at hstore
        dsimp only at hcur hread
        refine ⟨_, exec_store rfl hs hw hstore ?_ ?_, ?_, ?_, ?_, fun k hk => ?_, fun hi4 => ?_⟩
        · rw [hcur, ← hu]
          exact (State.calm_congr rfl rfl rfl rfl).trans hs
        · rw [hcur, ← hu]; rfl
        · rw [hread, if_pos rfl]
        · rw [hcur]
        · rw [hcur]
        · rw [hread, if_neg (Ne.symm hk), hkey]
        · rw [hcur, State.stream]
          dsimp only
          rw [if_pos hi4, Tbl.get_set_self]
    · have hstore : s.blockStore src.code.toNat src.x.toNat (oSec + 0x58) (setFld v 63 60 2) = s.secStore 0x58 (setFld v 63 60 2) := rfl
      rw [State.secStore_erase (fld_setFld_code v (by decide)) (by rw [fld_setFld_op _ _ _ _ (by decide)]; exact hi),
        fld_setFld_op _ _ 12 0 (by decide)] at hstore
      refine ⟨_, exec_store rfl hs hw hstore ((State.calm_congr rfl rfl rfl rfl).trans hs) rfl, ?_, fun k hk => ?_, rfl⟩
      · rw [State.key_eraseKey, if_pos rfl]
      · rw [State.key_eraseKey, if_neg (Ne.symm hk)]
  · obtain ⟨hrow, hop⟩ := fuseRow_exec hc s
    have hstore : s.blockStore src.code.toNat src.x.toNat (oSec + 0x30) (setFld v 63 60 op) = s.fuseWrite (setFld v 63 60 op) := rfl
    rw [State.fuseWrite_eq hbusy, fld_setFld_code v hop, s.fuseAnswer_congr op (fun hi lo h => fld_setFld_op v op hi lo h)] at hstore
    refine ⟨fun hans => ?_, fun hans => ?_⟩
    · rw [if_pos hans, fld_setFld_op _ _ 17 16 (by decide), fld_setFld_op _ _ 14 12 (by decide), fld_setFld_op _ _ 7 0 (by decide)] at hstore
      obtain ⟨hstat, hstarted, hresult⟩ := s.fuseStatus true 1 0
        (fun c => { c with fuse := some ⟨op, fld v 17 16, fld v 14 12, fld v 7 0, s.sec.keyBytes⟩ })
      exact ⟨_, exec_store hrow hs hw hstore ((State.calm_congr rfl rfl rfl rfl).trans hs) rfl, hstat, hstarted, hresult, rfl⟩
    · rw [if_neg hans] at hstore
      refine ⟨_, exec_store_regs hrow hs hw hstore (RegsOnly.setReg _ _ _), RegsOnly.setReg _ _ _, ?_⟩
      exact (State.rf_setRf_self _ _ _ _ _ (by decide) (by decide)).trans (Nat.mod_eq_of_lt (s.fuseAnswer_lt op v))
  · obtain ⟨t, hexec, hrest, hstat, hresult⟩ := exec_fuseOperationComplete hs hj true
    rw [if_pos rfl] at hrest hresult
    have hsec : t.sec = { s.sec.blow j with fuse := none } := by rw [hrest]
    refine ⟨t, hexec, ?_, hstat, hresult, ?_, fun hop => ?_, fun hop => ?_, fun hop => ?_, fun hop => ?_, fun hop => ?_⟩
    · rw [hsec]; exact hrest
    · rw [hsec]
    · rw [hsec, Sec.blow_revoke hop]; exact Sec.kslot_setKslot _ _ _
    · rw [hsec, Sec.blow_rollback hop]
    · rw [hsec, Sec.blow_debuglock hop]
    · rw [hsec, Sec.blow_life hop]
    · rw [hsec, Sec.blow_progkey hop]; exact Sec.kslot_setKslot _ _ _
  · obtain ⟨t, hexec, hrest, hstat, hresult⟩ := exec_fuseOperationComplete hs hj false
    exact ⟨t, hexec, hrest, hstat, hresult⟩

end Sys2Proof.Machine
end

section
/-!
PROOFS. Event sources and the Pulse Unit (O59).
-/
namespace Sys2Proof.Machine

/-! ### Event sources (R738 to R741) -/

/-- A source bound to no context asserts nothing. -/
theorem State.assertSource_unbound {s : State} {i : Nat} (h : s.unbound i = true) : s.assertSource i = s := by
  have hbit : (!bit (s.reg (oEvr + 0x1000 + 8 * i)) 63) = true := h
  unfold State.assertSource
  exact if_pos (.inl hbit)

theorem State.unbound_setReg {s : State} {i off : Nat} (v : Pay) (hoff : off ≠ oEvr + 0x1000 + 8 * i) : (s.setReg off v).unbound i = s.unbound i := by
  rw [State.unbound, State.reg_setReg_ne _ _ hoff, State.unbound]

/-- The binding of each source is a register. -/
theorem regDesc_binding : ∀ i, i < 0x74 → (regDesc (oEvr + 0x1000 + 8 * i)).isSome = true := by decide

theorem mem_insertLine (l : LineEv) (ls : List LineEv) : ∃ m ∈ insertLine l ls, m.n = l.n := by
  induction ls with
  | nil => exact ⟨l, List.mem_singleton_self l, rfl⟩
  | cons m ms ih =>
    unfold insertLine
    split
    · next h => exact ⟨m, List.mem_cons_self, h.symm⟩
    split
    · exact ⟨l, List.mem_cons_self, rfl⟩
    · obtain ⟨k, hk, hn⟩ := ih
      exact ⟨k, List.mem_cons_of_mem _ hk, hn⟩

/-- A line asserted at a presented context that runs is pending there. -/
theorem State.setLine_one {s : State} {x : Nat} (n : Nat) (tm : Pay) (hpres : s.presented x = x) (hon : s.powered x = true)
    (hloose : s.isLoose x = false) : s.setLine x n tm = s.setCtx x { s.ctx x with lines := insertLine ⟨n, tm⟩ (s.ctx x).lines } := by
  simp only [State.setLine, hpres, hon, if_true, State.reached, hloose, Bool.false_eq_true, if_false, List.foldl_cons, List.foldl_nil,
    State.updCtx_eq]

/-- What an assertion with binding b does to context x before its latch is set: the line is pending, or nothing is. -/
structure LineSet (s : State) (x : Nat) (b : Pay) (u : State) : Prop where
  rest : u = { s with dev := u.dev, ctxs := u.ctxs }
  ctx : u.ctx x = { s.ctx x with lines := (u.ctx x).lines }
  line : bit b 61 = true → ∃ l ∈ (u.ctx x).lines, l.n = fld b 45 40
  noLine : bit b 61 = false → (u.ctx x).lines = (s.ctx x).lines
  others : ∀ y, y ≠ x → u.ctx y = s.ctx y

theorem LineSet.powered {s u : State} {x : Nat} {b : Pay} (h : LineSet s x b u) : u.powered x = s.powered x := by
  have htwins : u.twins = s.twins := by rw [h.rest]
  unfold State.powered State.clOn State.twin
  rw [htwins, h.ctx]
  rfl

/-- The line of a source that is bound with LINE. -/
theorem State.lineSet {s : State} {x i : Nat} (b : Pay) (tm : Pay) (again : Bool) (hb : bit b 61 = true) (hpres : s.presented x = x)
    (hon : s.powered x = true) (hloose : s.isLoose x = false) :
    LineSet s x b ((if again = true then s.setRf (oEvr + 0x1400 + 8 * i) 31 0 (satInc 32 (s.rf (oEvr + 0x1400 + 8 * i) 31 0)) else s).setLine x
      (fld b 45 40) tm) := by
  obtain ⟨d, hd⟩ : ∃ d, (if again = true then s.setRf (oEvr + 0x1400 + 8 * i) 31 0 (satInc 32 (s.rf (oEvr + 0x1400 + 8 * i) 31 0)) else s) =
      { s with dev := d } := by
    split
    · exact ⟨_, rfl⟩
    · exact ⟨s.dev, rfl⟩
  rw [hd, State.setLine_one (s := { s with dev := d }) _ _ hpres hon hloose]
  refine ⟨rfl, ?_, fun _ => ?_, fun h => ?_, fun y hy => by rw [State.ctx_setCtx, if_neg (Ne.symm hy)]; rfl⟩
  · rw [State.ctx_setCtx_self]; rfl
  · rw [State.ctx_setCtx_self]
    exact mem_insertLine _ _
  · rw [hb] at h
    cases h

/-- What source i does to the context x that its binding b names: its line pending, its latch set. -/
structure Delivered (s : State) (x : Nat) (b : Pay) (t : State) : Prop where
  rest : t = { s with dev := t.dev, ctxs := t.ctxs }
  line : bit b 61 = true → ∃ l ∈ (t.ctx x).lines, l.n = fld b 45 40
  noLine : bit b 61 = false → (t.ctx x).lines = (s.ctx x).lines
  latch : (t.ctx x).latch = ((s.ctx x).latch || bit b 62)
  others : ∀ y, y ≠ x → t.ctx y = s.ctx y

/-- The latch follows the line. -/
theorem LineSet.delivered {s u : State} {x : Nat} {b : Pay} (h : LineSet s x b u) (hpres : s.presented x = x) (hon : s.powered x = true)
    (hloose : s.isLoose x = false) (hrun : (s.ctx x).run = .run) : Delivered s x b (if bit b 62 then u.setLatch x else u) := by
  have htwins : u.twins = s.twins := by rw [h.rest]
  have hpresU : u.presented x = x := by
    unfold State.presented State.twin at hpres ⊢
    rw [htwins]
    exact hpres
  have hlooseU : u.isLoose x = false := by
    unfold State.isLoose State.twin at hloose ⊢
    rw [htwins]
    exact hloose
  have hrunU : (u.ctx x).run = .run := by rw [h.ctx]; exact hrun
  have hlatch : (u.ctx x).latch = (s.ctx x).latch := by rw [h.ctx]
  cases hb : bit b 62 with
  | false => exact ⟨h.rest, h.line, h.noLine, by rw [hb, Bool.or_false]; exact hlatch, h.others⟩
  | true =>
    have hset : u.setLatch x = u.setCtx x { u.ctx x with latch := true } := by
      rw [State.setLatch_one (by rw [hpresU, h.powered, hon]) (by rw [hpresU, hlooseU]), hpresU, State.latchCtx_run hrunU]
    rw [if_pos rfl, hset]
    refine ⟨?_, fun hl => ?_, fun hl => ?_, ?_, fun y hy => ?_⟩
    · rw [h.rest]; rfl
    · rw [State.ctx_setCtx_self]
      exact h.line hl
    · rw [State.ctx_setCtx_self]
      exact h.noLine hl
    · rw [State.ctx_setCtx_self, hb, Bool.or_true]
    · rw [State.ctx_setCtx, if_neg (Ne.symm hy)]
      exact h.others y hy

/-- A bound source asserts at the context its binding names. -/
theorem State.assertSource_bound {s : State} {i : Nat} {b : Pay} (hb : s.reg (oEvr + 0x1000 + 8 * i) = b) (hi : i < 0x74)
    (hbound : bit b 63 = true) (hpres : s.presented (fld b 55 48) = fld b 55 48) (hon : s.powered (fld b 55 48) = true)
    (hloose : s.isLoose (fld b 55 48) = false) (hrun : (s.ctx (fld b 55 48)).run = .run) :
    Delivered s (fld b 55 48) b (s.assertSource i) := by
  have hdesc := regDesc_binding i hi
  unfold State.assertSource
  rw [hb, if_neg (by rw [hbound]; simpa [Option.isSome_iff_ne_none] using hdesc)]
  dsimp only
  refine LineSet.delivered ?_ hpres hon hloose hrun
  cases hline : bit b 61 with
  | false => exact ⟨rfl, rfl, (fun h => by rw [hline] at h; cases h), fun _ => rfl, fun _ _ => rfl⟩
  | true => exact State.lineSet b s.time _ hline hpres hon hloose

/-! ### Pins -/

/-- A pin's level is set alone. -/
theorem State.evtEdge_unbound {s : State} {i : Nat} {level : Bool} (h : s.evt.getLsbD i = level ∨ s.unbound i = true) :
    s.evtEdge i level = { s with evt := if level then s.evt ||| BitVec.ofNat 16 (2 ^ i) else s.evt &&& ~~~ BitVec.ofNat 16 (2 ^ i) } := by
  unfold State.evtEdge
  dsimp only
  split
  · rfl
  · next hne =>
    obtain hsame | hunbound := h
    · exact absurd (.inl hsame) hne
    split
    · exact State.assertSource_unbound (s := { s with evt := _ }) hunbound
    · rfl

theorem getLsbD_pin (e : BitVec 16) {i : Nat} (hi : i < 16) (level : Bool) (j : Nat) :
    (if level then e ||| BitVec.ofNat 16 (2 ^ i) else e &&& ~~~ BitVec.ofNat 16 (2 ^ i)).getLsbD j = if j = i then level else e.getLsbD j := by
  have hone : (BitVec.ofNat 16 (2 ^ i)).getLsbD j = decide (j = i) := by
    rw [BitVec.getLsbD_ofNat, Nat.testBit_two_pow]
    by_cases h : j = i
    · simp [h, hi]
    · simp [h, Ne.symm h]
  have hout : ¬ j < 16 → e.getLsbD j = false := fun h => BitVec.getLsbD_of_ge _ _ (by omega)
  cases level
  · simp only [Bool.false_eq_true, if_false, BitVec.getLsbD_and, BitVec.getLsbD_not, hone]
    by_cases h : j = i
    · simp [h]
    · by_cases hj : j < 16
      · simp [h, hj]
      · simp [h, hout hj]
  · simp only [if_true, BitVec.getLsbD_or, hone]
    by_cases h : j = i <;> simp [h]

/-! ### The Pulse Unit (R743 to R749) -/

/-- The event of a channel whose source is unbound does nothing. -/
theorem State.plsEvent_unbound {s : State} {n : Nat} (h : s.unbound (0x10 + n) = true) : s.plsEvent n = s := by
  unfold State.plsEvent
  split
  · exact State.assertSource_unbound h
  · rfl

theorem State.unbound_plsReg {s : State} {n m r : Nat} (v : Pay) (h : s.unbound m = true) (hm : m < 0x80) : (s.setReg (oCh n + r) v).unbound m = true := by
  rw [State.unbound_setReg _ (by simp only [oCh, oPls, oEvr]; omega), h]

theorem State.reg_plsReg (s : State) (n r q : Nat) (v : Pay) (h : r ≠ q) : (s.setReg (oCh n + r) v).reg (oCh n + q) = s.reg (oCh n + q) :=
  State.reg_setReg_ne _ _ (by omega)

theorem State.plsBoundary_mode {s : State} {n : Nat} (h : s.plsMode n = 1 ∨ s.plsMode n = 4) :
    s.plsBoundary n = s.setPls n { s.plsCh n with per := s.plsReg n 8, cmp := s.plsReg n 0x10 } := if_pos h

theorem State.plsCh_setPls_self (s : State) (n : Nat) (c : PlsCh) : (s.setPls n c).plsCh n = c := Tbl.get_set_self _ _ _ _
theorem State.plsCh_setPls_ne (s : State) {n m : Nat} (c : PlsCh) (h : n ≠ m) : (s.setPls n c).plsCh m = s.plsCh m := Tbl.get_set_ne _ _ _ h

/-- A captured edge. -/
theorem State.plsCapture_eq {s : State} {n : Nat} {rising : Bool} (hr : s.sys.inReset = false) (hmode : s.plsMode n = 2)
    (hedge : edgeTaken (s.rf (oCh n) 9 8) rising = true) (hn : n < 64) (hun : s.unbound (0x10 + n) = true) :
    s.plsCapture n rising = (s.setLvl n rising).setRf (oCh n + 0x10) 31 0 (fld s.time 31 0) := by
  unfold State.plsCapture
  simp only [hr, hmode, hedge]
  rw [if_neg (by simp)]
  exact State.plsEvent_unbound (State.unbound_plsReg _ (State.unbound_plsReg (r := 0) _ hun (by omega)) (by omega))

/-- A counted edge. -/
theorem State.plsCount_eq {s : State} {n : Nat} {rising : Bool} (hr : s.sys.inReset = false) (hmode : s.plsMode n = 3)
    (hedge : edgeTaken (s.rf (oCh n) 9 8) rising = true) (hn : n < 64) (hun : s.unbound (0x10 + n) = true) :
    s.plsCount n rising =
      let s2 := (s.setLvl n rising).setRf (oCh n + 0x18) 31 0 ((s.plsReg n 0x18 + 1) % 2 ^ 32)
      if (s.plsReg n 0x18 + 1) % 2 ^ 32 = 0 then s2.setReg (oCh n) (setBit (s2.reg (oCh n)) 62 true) else s2 := by
  have hun2 : ((s.setLvl n rising).setRf (oCh n + 0x18) 31 0 ((s.plsReg n 0x18 + 1) % 2 ^ 32)).unbound (0x10 + n) = true :=
    State.unbound_plsReg _ (State.unbound_plsReg (r := 0) _ hun (by omega)) (by omega)
  unfold State.plsCount
  simp only [hr, hmode, hedge]
  rw [if_neg (by simp)]
  split
  · refine State.plsEvent_unbound ?_
    split
    · exact State.unbound_plsReg (r := 0) _ hun2 (by omega)
    · exact hun2
  · rfl

/-- The registers after a counted edge. -/
theorem countEdge_regs {s : State} {n : Nat} {rising : Bool} (hr : s.sys.inReset = false) (hmode : s.plsMode n = 3)
    (hedge : edgeTaken (s.rf (oCh n) 9 8) rising = true) (hn : n < 64) (hun : s.unbound (0x10 + n) = true) :
    RegsOnly s [oCh n, oCh n + 0x18] (s.plsCount n rising) ∧ (s.plsCount n rising).plsReg n 0x18 = (s.plsReg n 0x18 + 1) % 2 ^ 32 ∧
      bit ((s.plsCount n rising).reg (oCh n)) 61 = rising ∧
      bit ((s.plsCount n rising).reg (oCh n)) 62 = (bit (s.reg (oCh n)) 62 || decide (s.plsReg n 0x18 = 2 ^ 32 - 1)) := by
  have hlt : s.plsReg n 0x18 < 2 ^ 32 := fld_lt _ _ _
  have hne : oCh n + 0x18 ≠ oCh n := by omega
  rw [State.plsCount_eq hr hmode hedge hn hun]
  dsimp only
  obtain ⟨u, hu⟩ : ∃ u, (s.setLvl n rising).setRf (oCh n + 0x18) 31 0 ((s.plsReg n 0x18 + 1) % 2 ^ 32) = u := ⟨_, rfl⟩
  have hregs : RegsOnly s ([oCh n] ++ [oCh n + 0x18]) u := by
    rw [← hu]
    exact (RegsOnly.setReg s _ _).trans (RegsOnly.setReg _ _ _)
  have hcnt : u.plsReg n 0x18 = (s.plsReg n 0x18 + 1) % 2 ^ 32 := by
    rw [← hu, State.plsReg, State.rf_setRf_self _ _ _ _ _ (by decide) (by decide)]
    omega
  have hctl : u.reg (oCh n) = setBit (s.reg (oCh n)) 61 rising := by
    rw [← hu, State.setRf_eq, State.reg_setReg_ne _ _ hne, State.setLvl, State.reg_setReg_self]
  have hsub : ∀ o ∈ [oCh n] ++ [oCh n + 0x18] ++ [oCh n], o ∈ [oCh n, oCh n + 0x18] := by simp
  rw [hu, hctl]
  split
  · next hc =>
    refine ⟨(hregs.trans (RegsOnly.setReg _ _ _)).mono hsub, ?_, ?_, ?_⟩
    · rw [State.plsReg, State.rf, State.reg_setReg_ne _ _ (Ne.symm hne)]
      exact hcnt
    · rw [State.reg_setReg_self, bit_setBit_ne _ _ _ _ (by decide) (by decide), bit_setBit_self _ _ _ (by decide)]
    · rw [State.reg_setReg_self, bit_setBit_self _ _ _ (by decide), decide_eq_true (by omega), Bool.or_true]
  · next hc =>
    refine ⟨hregs, hcnt, ?_, ?_⟩
    · rw [hctl, bit_setBit_self _ _ _ (by decide)]
    · rw [hctl, bit_setBit_ne _ _ _ _ (by decide) (by decide), decide_eq_false (by omega), Bool.or_false]

/-- A STEP pulse ends: one pulse less, and the train with the last. -/
theorem State.plsStep_eq {s : State} {n : Nat} (hr : s.sys.inReset = false) (hmode : s.plsMode n = 4) (hstep : (s.plsCh n).stepping = true)
    (hn : n < 64) (hun : s.unbound (0x10 + n) = true) :
    ∃ t, s.plsStep n = t ∧ t = { s with dev := t.dev, pls := t.pls } ∧ t.plsReg n 0x18 = s.plsReg n 0x18 - 1 ∧
      (t.plsCh n).stepping = decide (s.plsReg n 0x18 - 1 ≠ 0) ∧ (t.plsCh n).per = s.plsReg n 8 := by
  have hlt : s.plsReg n 0x18 < 2 ^ 32 := fld_lt _ _ _
  obtain ⟨u, hu⟩ : ∃ u, s.setRf (oCh n + 0x18) 31 0 (s.plsReg n 0x18 - 1) = u := ⟨_, rfl⟩
  have hcnt : u.plsReg n 0x18 = s.plsReg n 0x18 - 1 := by
    rw [← hu, State.plsReg, State.rf_setRf_self _ _ _ _ _ (by decide) (by decide)]
    omega
  have hper : u.plsReg n 8 = s.plsReg n 8 := by
    rw [← hu, State.plsReg, State.rf, State.setRf_eq, State.reg_plsReg _ _ _ _ _ (by decide)]
    rfl
  have hmodeU : u.plsMode n = 4 := by
    rw [← hu, ← hmode, State.plsMode, State.rf, State.setRf_eq, State.reg_setReg_ne _ _ (by omega)]
    rfl
  have hunU : u.unbound (0x10 + n) = true := by
    rw [← hu]
    exact State.unbound_plsReg _ hun (by omega)
  have hrest : u = { s with dev := u.dev } := by rw [← hu]; rfl
  have hch : u.plsCh n = s.plsCh n := by rw [hrest]; rfl
  have hplsStep : s.plsStep n = (if s.plsReg n 0x18 - 1 = 0 then
      ((u.plsBoundary n).setPls n { (u.plsBoundary n).plsCh n with stepping := false }).plsEvent n else u.plsBoundary n) := by
    unfold State.plsStep
    rw [if_neg (by simp [hr, hmode, hstep])]
    dsimp only
    rw [hu]
  rw [State.plsBoundary_mode (.inr hmodeU), State.plsCh_setPls_self] at hplsStep
  split at hplsStep
  · next hc =>
    refine ⟨_, hplsStep.trans (State.plsEvent_unbound hunU), ?_, hcnt, ?_, ?_⟩
    · rw [hrest]; rfl
    · rw [State.plsCh_setPls_self, decide_eq_false (fun h => h hc)]
    · rw [State.plsCh_setPls_self, hper]
  · next hc =>
    refine ⟨_, hplsStep, ?_, hcnt, ?_, ?_⟩
    · rw [hrest]; rfl
    · rw [State.plsCh_setPls_self, hch, hstep, decide_eq_true hc]
    · rw [State.plsCh_setPls_self, hper]

/-! A write of CNT. -/

theorem regDesc_cnt : ∀ n, n < 64 → regDesc (oCh n + 0x18) = some [rw 31 0] := by decide

theorem State.blockStore_cnt (s : State) (src x : Nat) {n : Nat} (v : Pay) (hn : n < 64) :
    s.blockStore src x (oCh n + 0x18) v = s.plsCntWrite n v := by
  have hpage : pageOf (oCh n + 0x18) = 0xE := by simp only [pageOf, oCh, oPls]; omega
  have hin : inPage (oCh n + 0x18) = 0x1000 + 0x20 * n + 0x18 := by simp only [inPage, oCh, oPls]; omega
  have hchan : (0x1000 + 0x20 * n + 0x18 - 0x1000) / 0x20 = n := by omega
  unfold State.blockStore
  simp only [hpage, hin]
  rw [if_neg (by omega), if_neg (by decide)]
  unfold State.plsStore
  rw [if_neg (by omega)]
  dsimp only
  rw [hchan, if_neg (by omega), if_pos (by omega)]

theorem State.plsCntWrite_eq {s : State} {n : Nat} (v : Pay) (hn : n < 64) (hun : s.unbound (0x10 + n) = true) :
    ∃ t, s.plsCntWrite n v = t ∧ t = { s with dev := t.dev, pls := t.pls } ∧ t.plsReg n 0x18 = fld v 31 0 ∧
      (s.plsMode n = 4 → (t.plsCh n).stepping = decide (fld v 31 0 ≠ 0)) := by
  obtain ⟨u, hu⟩ : ∃ u, s.plainWrite (oCh n + 0x18) v = u := ⟨_, rfl⟩
  have hwrite : s.setReg (oCh n + 0x18) (setFld (s.reg (oCh n + 0x18)) 31 0 (fld v 31 0)) = u := by
    rw [← hu]
    exact (State.plainWrite_of_desc s (by simp only [inPage, oCh, oPls]; omega) (regDesc_cnt n hn)).symm
  have hcnt : u.plsReg n 0x18 = fld v 31 0 := by
    rw [← hwrite, State.plsReg, State.rf, State.reg_setReg_self, fld_setFld_self _ _ _ _ (by decide) (by decide)]
    exact Nat.mod_eq_of_lt (fld_lt _ _ _)
  have hunU : u.unbound (0x10 + n) = true := by
    rw [← hwrite]
    exact State.unbound_plsReg _ hun (by omega)
  have hrest : u = { s with dev := u.dev } := by rw [← hwrite]; rfl
  have hch : u.plsCh n = s.plsCh n := by rw [hrest]; rfl
  have hsame : u = { s with dev := u.dev, pls := u.pls } := by rw [hrest]
  unfold State.plsCntWrite
  simp only [hu]
  split
  · next hmode => exact ⟨u, rfl, hsame, hcnt, fun h => absurd h hmode⟩
  split
  · next hzero =>
    split
    · refine ⟨_, State.plsEvent_unbound hunU, ?_, hcnt, fun _ => ?_⟩
      · rw [hrest]; rfl
      · rw [State.plsCh_setPls_self, decide_eq_false (fun h => h hzero)]
    · next hstep =>
      refine ⟨u, rfl, hsame, hcnt, fun _ => ?_⟩
      rw [hch, Bool.eq_false_of_not_eq_true hstep, decide_eq_false (fun h => h hzero)]
  · next hcount =>
    split
    · next hstep =>
      refine ⟨u, rfl, hsame, hcnt, fun _ => ?_⟩
      rw [hch, hstep, decide_eq_true hcount]
    · refine ⟨_, rfl, ?_, hcnt, fun _ => ?_⟩
      · rw [hrest]; rfl
      · rw [State.plsCh_setPls_self, decide_eq_true hcount]

/-- Settles O59: what a bound source delivers, and the modes of a channel one by one. -/
theorem eventsAndPulses : Obligations.EventsAndPulses := by
  unfold Obligations.EventsAndPulses
  intro s hs hr
  refine ⟨fun i => ?_, fun i level h => ?_, fun nb => ?_⟩
  · dsimp only
    intro hi
    have hrow : exec (.sourceAssert i) s = fin s (s.assertSource i.toNat) := by
      show fin s (if s.sys.inReset ∨ 0x74 ≤ i.toNat then s else s.assertSource i.toNat) = _
      rw [if_neg (by rw [hr]; simp; omega)]
    refine ⟨fun hun => ?_, fun hbound hpres hon hloose hrun => ?_⟩
    · rw [hrow, State.assertSource_unbound (by rw [State.unbound, hun]; rfl)]
      exact fin_calm hs rfl rfl rfl rfl rfl
    · obtain ⟨hrest, hline, hnoLine, hlatch, hothers⟩ := State.assertSource_bound rfl hi hbound hpres hon hloose hrun
      refine ⟨_, hrow.trans ?_, hrest, hline, hnoLine, hlatch, hothers⟩
      rw [hrest]
      exact fin_calm hs rfl rfl rfl rfl rfl
  · refine ⟨_, (congrArg (fin s) (State.evtEdge_unbound h)).trans (fin_calm hs rfl rfl rfl rfl rfl), rfl, fun j => ?_⟩
    exact getLsbD_pin s.evt i.isLt level j
  · dsimp only
    intro hun
    have hn := nb.isLt
    refine ⟨fun hmode => ?_, fun rising hedge => ⟨fun hmode => ?_, fun hmode => ?_⟩, fun hmode hstep => ?_, fun src v hw => ?_⟩
    · exact ⟨_, (congrArg (fin s) (State.plsBoundary_mode hmode)).trans (fin_calm hs rfl rfl rfl rfl rfl), rfl,
        State.plsCh_setPls_self _ _ _, fun m hm => State.plsCh_setPls_ne _ _ (Ne.symm hm)⟩
    · have hregs : RegsOnly s [oCh nb.toNat, oCh nb.toNat + 0x10] ((s.setLvl nb.toNat rising).setRf (oCh nb.toNat + 0x10) 31 0 (fld s.time 31 0)) :=
        (RegsOnly.setReg s (oCh nb.toNat) _).trans (RegsOnly.setReg _ _ _)
      refine ⟨_, (congrArg (fin s) (State.plsCapture_eq hr hmode hedge hn hun)).trans (hregs.fin hs), hregs, ?_, ?_⟩
      · rw [State.plsReg, State.rf_setRf_self _ _ _ _ _ (by decide) (by decide)]
        exact Nat.mod_eq_of_lt (fld_lt _ _ _)
      · rw [State.setRf_eq, State.reg_setReg_ne _ _ (by omega), State.setLvl, State.reg_setReg_self, bit_setBit_self _ _ _ (by decide)]
    · obtain ⟨hregs, hcnt, hlevel, hovf⟩ := countEdge_regs hr hmode hedge hn hun
      exact ⟨_, hregs.fin hs, hregs, hcnt, hlevel, hovf⟩
    · obtain ⟨t, ht, hrest, hfacts⟩ := State.plsStep_eq hr hmode hstep hn hun
      refine ⟨t, (congrArg (fin s) ht).trans ?_, hrest, hfacts⟩
      rw [hrest]
      exact fin_calm hs rfl rfl rfl rfl rfl
    · obtain ⟨t, ht, hrest, hfacts⟩ := State.plsCntWrite_eq v hn hun
      refine ⟨t, exec_store rfl hs hw ((State.blockStore_cnt _ _ _ _ hn).trans ht) ?_ ?_, hrest, hfacts⟩
      · rw [hrest]
        exact (State.calm_congr rfl rfl rfl rfl).trans hs
      · rw [hrest]

end Sys2Proof.Machine
end

section
/-!
PROOFS. Lines that wait for their eviction (O48, O49, O53).

The statements say of a unit that writes memory that it changes neither a transaction nor anything else but caches and words. A line that
stands in an eviction buffer is one of the transactions, and leaves the buffer with the write (R392, R396).
-/
namespace Sys2Proof.Machine

/-- The machine where the line of address `pa` stands in the eviction buffer of cluster 0. -/
def State.withEviction (s : State) (pa : Nat) : State := { s with txns := [⟨0, 0, 0, 0, pa, 64, .evict, none, .held, 0, false⟩] }

theorem unpoisoned_nil {s : State} (h : s.clusters = []) : s.unpoisoned := by
  intro line
  rw [State.poisoned, h]
  rfl

/-- A state that keeps all but some parts of another keeps its transactions. -/
theorem StoreActed.txns {s t : State} {p : Nat → Prop} (h : StoreActed s p t) : t.txns = s.txns := by rw [h.rest]

/-- Two resident frames, where 50 % of them are to be free; the line of the map's first words waits for its eviction. -/
def crowdedStore : State :=
  { (((State.reset.setReg (oSto + 0x18) 0x8000000000000000).setReg (oSto + 0x10) 0x3200000000).withEviction 0) with
    sto := { Sto.reset with nfr := 2, frames := [(0, ⟨0, .clean, 0⟩), (1, ⟨1, .clean, 0⟩)] } }

/-- Refutes O48: an eviction of a frame writes the map, whose line then leaves the eviction buffer. -/
theorem not_storeFrames : ¬ Obligations.StoreFrames := by
  unfold Obligations.StoreFrames
  intro h
  obtain ⟨hmain, -⟩ := h crowdedStore (by decide)
  obtain ⟨-, hevict⟩ := hmain (noWindows_nil rfl) (unpoisoned_nil rfl) rfl
  obtain ⟨t, hexec, -, -, -, -, hacted⟩ := hevict 0 ⟨0, .clean, 0⟩ (by decide) (by decide) (by decide) (by decide) (by decide) (by decide)
  exact fails_after (p := fun u => u.txns = crowdedStore.txns) hexec (by decide) hacted.txns

/-- A FETCH of block 0, resident in frame 0, stands at the head of the transfer queue; the line of its descriptor waits for its
eviction. -/
def fetchQueued : State :=
  { (((((((State.reset.setReg (oSto + 0x18) 0x8000000000000000).setReg (oSto + 0x48) 0x1000000000000).setReg (oSto + 0x50) 1).setWord 0
      (Word.raw 0x2000000000000000)).setWord 0x10000 (Word.raw 0x4000000000000000))).withEviction 0) with
    sto := { Sto.reset with nfr := 1, mapBase := 0x10000, frames := [(0, ⟨0, .clean, 0⟩)] } }

/-- Refutes O49: the status word of a descriptor is written, and its line leaves the eviction buffer. -/
theorem not_transferQueue : ¬ Obligations.TransferQueue := by
  unfold Obligations.TransferQueue
  intro h
  obtain ⟨-, hops⟩ := h fetchQueued (by decide) (noWindows_nil rfl) (unpoisoned_nil rfl)
  obtain ⟨-, hfetch, -⟩ := hops 0 0 ⟨0, .clean, 0⟩ (by decide) (by decide)
  obtain ⟨t, hexec, hended, -⟩ := hfetch (by decide)
  exact fails_after (p := fun u => u.txns = fetchQueued.txns) hexec (by decide) hended.acted.txns

/-- The first descriptor of the Executive's Keccak queue is well formed; the line of TAIL waits for its eviction. -/
def keccakQueue : State := (State.reset.setWord 64 (Word.raw 0x1000000000000000)).withEviction 0

/-- Refutes O53: a store of TAIL takes its line out of the eviction buffer. -/
theorem not_keccakEngine : ¬ Obligations.KeccakEngine := by
  unfold Obligations.KeccakEngine
  intro h
  obtain ⟨htail, -⟩ := h keccakQueue false (by decide) (noWindows_nil rfl) (unpoisoned_nil rfl)
  obtain ⟨t, hexec, -, hrest, -⟩ := htail 0 (by decide) (by decide) (by decide)
  exact fails_after (p := fun u => u.txns = keccakQueue.txns) hexec (by decide) (by rw [hrest])

end Sys2Proof.Machine
end

section
/-!
PROOFS. Writes and reads of memory past the caches (R39, R89, R392, R404): copies leave the caches or are written back, and then the word is
written. Nothing else of the machine changes.
-/
namespace Sys2Proof.Machine

/-- No submission stands at an engine's intake. -/
def State.idleIntakes (s : State) : Prop := ∀ e ∈ s.clusters, e.2.intake = []

theorem State.idleIntakes_iff (s : State) : s.idleIntakes ↔ s.clusters.all (fun e => e.2.intake.isEmpty) = true := by
  simp [State.idleIntakes]

/-- A value that a table gains is the one set, or stood there before. -/
theorem Tbl.mem_of_mem_set {α : Type} [DecidableEq α] {d : Nat → α} {t : Tbl α} {k : Nat} {v : α} {e : Nat × α} (h : e ∈ Tbl.set d t k v) :
    e = (k, v) ∨ e ∈ t := by
  unfold Tbl.set at h
  split at h
  · exact .inr (Tbl.mem_erase h)
  · exact Tbl.mem_insert h

theorem Tbl.mem_of_look {α : Type} {t : Tbl α} {k : Nat} {v : α} (h : Tbl.look t k = some v) : (k, v) ∈ t := by
  induction t with
  | nil => cases h
  | cons e t ih =>
    rw [Tbl.look_cons] at h
    split at h
    · next hk =>
      cases h
      rw [← hk]
      exact List.mem_cons_self
    · exact List.mem_cons_of_mem _ (ih h)

/-- A property of every listed value and of the default is one of every value. -/
theorem Tbl.get_of_forall {α : Type} {d : Nat → α} {t : Tbl α} {P : α → Prop} (ht : ∀ e ∈ t, P e.2) (k : Nat) (hd : P (d k)) : P (Tbl.get d t k) := by
  unfold Tbl.get
  cases hlook : Tbl.look t k with
  | none => exact hd
  | some v => exact ht _ (Tbl.mem_of_look hlook)

theorem State.idleIntakes_cluster {s : State} (h : s.idleIntakes) (n : Nat) : (s.cluster n).intake = [] :=
  Tbl.get_of_forall (d := fun _ => Cluster.reset) (P := fun c : Cluster => c.intake = []) h n rfl

theorem State.idleIntakes_updCluster {s : State} {n : Nat} {f : Cluster → Cluster} (hf : ∀ c, (f c).intake = c.intake) (h : s.idleIntakes) :
    (s.updCluster n f).idleIntakes := by
  intro e he
  obtain rfl | he := Tbl.mem_of_mem_set (d := fun _ => Cluster.reset) (t := s.clusters) he
  · exact (hf _).trans (State.idleIntakes_cluster h n)
  · exact h e he

/-- The machine after some traffic past the caches: only caches, eviction buffers and memory may differ. -/
structure Traffic (s u : State) : Prop where
  rest : u = { s with cores := u.cores, clusters := u.clusters, backing := u.backing, txns := u.txns, mem := u.mem, tags := u.tags }
  intake : s.idleIntakes → u.idleIntakes

namespace Traffic

variable {s u v : State}

theorem refl (s : State) : Traffic s s := ⟨rfl, id⟩

theorem trans (h : Traffic s u) (g : Traffic u v) : Traffic s v := by
  refine ⟨?_, fun hi => g.intake (h.intake hi)⟩
  rw [g.rest, h.rest]

theorem foldl {β : Type} {f : State → β → State} (hf : ∀ s b, Traffic s (f s b)) (l : List β) (s : State) : Traffic s (l.foldl f s) := by
  induction l generalizing s with
  | nil => exact refl s
  | cons b l ih => exact (hf s b).trans (ih _)

theorem forN {f : Nat → State → State} (hf : ∀ i s, Traffic s (f i s)) (n k : Nat) (s : State) : Traffic s (Machine.forN n k f s) := by
  induction n generalizing k s with
  | zero => exact refl s
  | succ n ih => exact (hf k s).trans (ih (k + 1) _)

theorem calm (h : Traffic s u) (hs : s.calm = true) : u.calm = true := by
  simp only [State.calm, Bool.and_eq_true] at hs ⊢
  obtain ⟨⟨⟨ho, hi⟩, hl⟩, hw⟩ := hs
  refine ⟨⟨⟨?_, ?_⟩, ?_⟩, ?_⟩
  · rw [h.rest]; exact ho
  · exact u.idleIntakes_iff.mp (h.intake (s.idleIntakes_iff.mpr hi))
  · rw [h.rest]; exact hl
  · rw [h.rest]; exact hw

theorem twins (h : Traffic s u) : u.twins = s.twins := by rw [h.rest]
theorem noWindows (h : Traffic s u) (hs : s.noWindows) : u.noWindows := by
  unfold State.noWindows
  rw [h.twins]
  exact hs
theorem reg (h : Traffic s u) (off : Nat) : u.reg off = s.reg off := by rw [h.rest]; rfl
theorem ctx (h : Traffic s u) (x : Nat) : u.ctx x = s.ctx x := by rw [h.rest]; rfl

/-! The steps. -/

theorem writeBack (h : Traffic s u) (line : Nat) : Traffic s (u.writeBack line) := h.trans ⟨rfl, id⟩
theorem cancelEvict (h : Traffic s u) (line : Nat) : Traffic s (u.cancelEvict line) := h.trans ⟨rfl, id⟩
theorem updCore (h : Traffic s u) (k : Nat) (f : Core → Core) : Traffic s (u.updCore k f) := h.trans ⟨rfl, id⟩
theorem updCluster (h : Traffic s u) (n : Nat) (f : Cluster → Cluster) (hf : ∀ c, (f c).intake = c.intake) : Traffic s (u.updCluster n f) :=
  h.trans ⟨rfl, State.idleIntakes_updCluster hf⟩
theorem setByte (h : Traffic s u) (k : Nat) (b : BitVec 8) : Traffic s (u.setByte k b) := h.trans ⟨rfl, id⟩
theorem setTagAt (h : Traffic s u) (k : Nat) (b : BitVec 8) : Traffic s (u.setTagAt k b) := h.trans ⟨rfl, id⟩
theorem setPay (h : Traffic s u) (k : Nat) (p : Pay) : Traffic s (u.setPay k p) := h.trans (forN (fun _ _ => (refl _).setByte _ _) 8 0 u)
theorem setWord (h : Traffic s u) (k : Nat) (w : Word) : Traffic s (u.setWord k w) := (h.setPay _ _).setTagAt _ _

theorem setBytesRaw (h : Traffic s u) (k : Nat) (bs : List (BitVec 8)) : Traffic s (u.setBytesRaw k bs) := by
  induction bs generalizing u k with
  | nil => exact h
  | cons b bs ih => exact ih ((h.setByte k b).setTagAt k _) (k + 1)

theorem l1dDrop (h : Traffic s u) (k line : Nat) : Traffic s (u.l1dDrop k line) := by
  unfold State.l1dDrop
  split
  · exact h
  · dsimp only
    split
    · exact h.updCore _ _
    · split
      · exact (h.updCore _ _).updCluster _ _ (by intro; rfl)
      · exact (h.updCore _ _).writeBack _

theorem l1dDropAll (h : Traffic s u) (n line : Nat) : Traffic s (u.l1dDropAll n line) :=
  h.trans (foldl (fun _ _ => (refl _).l1dDrop _ _) _ _)

theorem cohRead (h : Traffic s u) (n : Option Nat) (line : Nat) : Traffic s (u.cohRead n line) := by
  refine h.trans (foldl (fun v m => ?_) _ u)
  have hdrop := (refl v).l1dDropAll m line
  split
  · exact refl v
  · split
    · exact refl v
    · dsimp only
      split
      · split
        · exact (hdrop.updCluster m _ (by intro; rfl)).writeBack _
        · exact hdrop
      · exact hdrop

theorem cohWrite (h : Traffic s u) (k n : Option Nat) (line : Nat) : Traffic s (u.cohWrite k n line) := by
  unfold State.cohWrite
  dsimp only
  have hcores : Traffic u ((u.cores.map (·.1)).foldl (fun s j => if some j = k then s else s.l1dDrop j line) u) := by
    refine foldl (fun v j => ?_) _ u
    split
    · exact refl v
    · exact (refl v).l1dDrop j line
  refine (h.trans hcores).trans (Traffic.trans ?_ (foldl (fun v m => ?_) _ _))
  · split
    · split
      · exact (refl _).writeBack _
      · exact (refl _).cancelEvict _
    · exact refl _
  · split
    · exact refl v
    · split
      · exact refl v
      · split <;> split
        · exact (((refl v).updCluster m _ (by intro; rfl)).updCluster m _ (by intro; rfl)).writeBack _
        · exact ((refl v).updCluster m _ (by intro; rfl)).writeBack _
        · exact ((refl v).updCluster m _ (by intro; rfl)).updCluster m _ (by intro; rfl)
        · exact (refl v).updCluster m _ (by intro; rfl)

theorem confirmLine (hw : u.noWindows) (line : Nat) : u.confirmLine line = u := by
  unfold State.confirmLine
  rw [List.filter_eq_nil_iff.mpr fun e he => ?_, List.foldl_nil]
  rw [Twin.provisional, (hw e he).1]
  exact Bool.false_ne_true

end Traffic

variable {s : State}

/-- A word write past the caches, with no window open. -/
theorem State.busWrite_noWindows (hw : s.noWindows) (k : Nat) (w : Word) : s.busWrite k w = (s.cohWrite none none (k / 64)).setWord k w := by
  rw [State.busWrite, Traffic.confirmLine hw]
  rfl

theorem Traffic.busWrite (hw : s.noWindows) (k : Nat) (w : Word) : Traffic s (s.busWrite k w) := by
  rw [State.busWrite_noWindows hw]
  exact ((Traffic.refl s).cohWrite none none _).setWord k w

/-- The word written is what the next read gives. -/
theorem State.word_busWrite_self (hw : s.noWindows) (k : Nat) (w : Word) : (s.busWrite k w).word k = w := by
  rw [State.busWrite_noWindows hw, State.word_setWord_self]

/-- The bytes and tags of other words stay. -/
theorem State.bytes_busWrite_ne (hw : s.noWindows) {k a : Nat} (w : Word) (h : a / 8 ≠ k / 8) :
    (s.busWrite k w).byte a = s.byte a ∧ (s.busWrite k w).tagAt a = s.tagAt a := by
  have hcoh := State.contents_cohWrite s none none (k / 64)
  rw [State.busWrite_noWindows hw, State.byte_setWord, State.tagAt_setWord, if_neg h, if_neg h]
  exact ⟨State.byte_of_contents hcoh a, State.tagAt_of_contents hcoh a⟩

/-! ### Payload bytes (R89) -/

theorem State.byte_setBytesRaw (s : State) (k : Nat) (bs : List (BitVec 8)) (j : Nat) :
    (s.setBytesRaw k bs).byte j = if k ≤ j ∧ j < k + bs.length then bs.getD (j - k) 0 else s.byte j := by
  induction bs generalizing s k with
  | nil => rw [if_neg (by simp)]; rfl
  | cons b bs ih =>
    rw [State.setBytesRaw, ih, List.length_cons]
    obtain hj | rfl | hj := Nat.lt_trichotomy j k
    · rw [if_neg (by omega), if_neg (by omega), State.byte_setTagAt, State.byte_setByte, if_neg (by omega)]
    · rw [if_neg (by omega), if_pos (by omega), State.byte_setTagAt, State.byte_setByte, if_pos rfl, Nat.sub_self]
      rfl
    · have hsub : j - k = (j - (k + 1)) + 1 := by omega
      simp only [hsub, List.getD_cons_succ]
      by_cases hin : j < k + 1 + bs.length
      · rw [if_pos (by omega), if_pos (by omega)]
      · rw [if_neg (by omega), if_neg (by omega), State.byte_setTagAt, State.byte_setByte, if_neg (by omega)]

theorem Traffic.confirmAll (hw : s.noWindows) (ls : List Nat) : Traffic s (ls.foldl (fun s l => (s.confirmLine l).cohWrite none none l) s) ∧
    (ls.foldl (fun s l => (s.confirmLine l).cohWrite none none l) s).contents = s.contents := by
  induction ls generalizing s with
  | nil => exact ⟨.refl s, rfl⟩
  | cons l ls ih =>
    rw [List.foldl_cons, Traffic.confirmLine hw]
    have hcoh := (Traffic.refl s).cohWrite none none l
    obtain ⟨hrest, hcontents⟩ := ih (hcoh.noWindows hw)
    exact ⟨hcoh.trans hrest, hcontents.trans (State.contents_cohWrite s none none l)⟩

theorem Traffic.engPutBytes (hw : s.noWindows) (pa : Nat) (bs : List (BitVec 8)) : Traffic s (s.engPutBytes pa bs) :=
  (Traffic.confirmAll hw _).1.setBytesRaw pa bs

theorem State.byte_engPutBytes (hw : s.noWindows) (pa : Nat) (bs : List (BitVec 8)) (j : Nat) :
    (s.engPutBytes pa bs).byte j = if pa ≤ j ∧ j < pa + bs.length then bs.getD (j - pa) 0 else s.byte j := by
  unfold State.engPutBytes
  rw [State.byte_setBytesRaw, State.byte_of_contents (Traffic.confirmAll hw _).2 j]

/-! ### Words by an engine or a block (R39, R404) -/

theorem Traffic.engWrite (hw : s.noWindows) (k : Nat) (w : Word) : Traffic s (s.engWrite k w) := by
  unfold State.engWrite
  split
  · exact .refl s
  · exact .busWrite hw k w

end Sys2Proof.Machine
end

section
/-!
PROOFS. UARTs, I2C and QSPI (O58).
-/
namespace Sys2Proof.Machine

/-! ### UARTs (R733, R759) -/

section
variable {s : State} {u : Nat}

theorem State.uart_setUart (s : State) (u : Nat) (a : Uart) : (s.setUart u a).uart u = a := Tbl.get_set_self _ _ _ _

theorem State.mayShift_setUart (s : State) (u : Nat) (a : Uart) (h : a.cts = (s.uart u).cts) : (s.setUart u a).mayShift u = s.mayShift u := by
  have hbit : ∀ b, (s.setUart u a).uartBit u b = s.uartBit u b := fun _ => rfl
  unfold State.mayShift
  rw [hbit, hbit, hbit, State.uart_setUart, h]

theorem State.setUart_setUart (s : State) (u : Nat) (a b : Uart) : ((s.setUart u a).setUart u b).uart u = b := State.uart_setUart _ _ _

/-- The shifter takes the oldest byte that waits. -/
theorem State.uartNext_takes {b : BitVec 8} {bs : List (BitVec 8)} (hshift : (s.uart u).shift = none) (htx : (s.uart u).tx = b :: bs)
    (hmay : s.mayShift u = true) : s.uartNext u = s.setUart u { s.uart u with tx := bs, shift := some b } := by
  unfold State.uartNext
  simp only [hshift, htx, hmay, if_true]

theorem State.uartNext_busy (hshift : (s.uart u).shift ≠ none) : s.uartNext u = s := by
  unfold State.uartNext
  dsimp only
  split
  · next h _ => exact absurd h hshift
  · rfl

theorem State.uartNext_empty (htx : (s.uart u).tx = []) : s.uartNext u = s := by
  unfold State.uartNext
  dsimp only
  split
  · next h => rw [htx] at h; cases h
  · rfl

/-- A byte received waits behind the others. -/
theorem State.uartRx_eq {b : BitVec 8} {pe fe br : Bool} (hr : s.sys.inReset = false) (hun : s.unbound (0x6E + u) = true)
    (hon : s.uartBit u 63 = true) (hroom : (s.uart u).rx.length < 64) :
    s.uartRx u b pe fe br = s.setUart u { s.uart u with rx := (s.uart u).rx ++
      [setBit (setBit (setBit (setBit (p64 (b.toNat % 2 ^ (5 + s.rf (oUart u) 1 0))) 63 true) 62 pe) 61 fe) 60 br] } := by
  unfold State.uartRx
  rw [if_neg (by simp [hon, hr])]
  dsimp only
  rw [if_neg (by omega)]
  split
  · exact State.assertSource_unbound hun
  · rfl

theorem State.uartWrite_eq {b : BitVec 8} (hroom : (s.uart u).tx.length < 64) :
    s.uartWrite u b = (s.setUart u { s.uart u with tx := (s.uart u).tx ++ [b] }).uartNext u := by
  unfold State.uartWrite
  exact if_neg (by omega)

/-- A byte written to an idle transmitter goes into the shifter. -/
theorem State.uartWrite_idle {b : BitVec 8} (hshift : (s.uart u).shift = none) (htx : (s.uart u).tx = []) (hmay : s.mayShift u = true) :
    ∃ t, s.uartWrite u b = t ∧ t = { s with sio := t.sio } ∧ t.uart u = { s.uart u with shift := some b } := by
  have hget := State.uart_setUart s u { s.uart u with tx := (s.uart u).tx ++ [b] }
  refine ⟨_, (State.uartWrite_eq (by rw [htx]; decide)).trans (State.uartNext_takes (b := b) (bs := []) ?_ ?_ ?_), rfl, ?_⟩
  · rw [hget]; exact hshift
  · rw [hget, htx]; rfl
  · rw [State.mayShift_setUart _ _ _ (by rfl), hmay]
  · rw [State.setUart_setUart, hget]
    dsimp only
    rw [← htx]

theorem State.uartWrite_busy {b : BitVec 8} (hshift : (s.uart u).shift ≠ none) (hroom : (s.uart u).tx.length < 64) :
    s.uartWrite u b = s.setUart u { s.uart u with tx := (s.uart u).tx ++ [b] } := by
  rw [State.uartWrite_eq hroom]
  refine State.uartNext_busy ?_
  rw [State.uart_setUart]
  exact hshift

/-- A byte sent leaves the shifter; the source of an unbound UART stays silent. -/
theorem State.uartSent_eq {b : BitVec 8} (hr : s.sys.inReset = false) (hun : s.unbound (0x6E + u) = true) (hshift : (s.uart u).shift = some b) :
    s.uartSent u = (s.setUart u { s.uart u with shift := none, sent := b :: (s.uart u).sent }).uartNext u := by
  have hunNext : ((s.setUart u { s.uart u with shift := none, sent := b :: (s.uart u).sent }).uartNext u).unbound (0x6E + u) = true := by
    rw [← hun]
    unfold State.uartNext
    dsimp only
    split
    · split <;> rfl
    · rfl
  unfold State.uartSent
  simp only [hshift, hr, Bool.false_eq_true, if_false]
  split
  · exact State.assertSource_unbound hunNext
  · rfl

end

/-- The SIO block takes the accesses of a UART's DATA register. -/
theorem State.blockStore_uartData (s : State) (src x : Nat) {u : Nat} (v : Pay) (hu : u < 4) :
    s.blockStore src x (oUart u + 0x10) v = s.uartWrite u (BitVec.ofNat 8 (fld v 7 0)) := by
  obtain rfl | rfl | rfl | rfl : u = 0 ∨ u = 1 ∨ u = 2 ∨ u = 3 := by omega
  all_goals rfl

theorem State.blockLoad_uartData (s : State) (src x : Nat) {u : Nat} (hu : u < 4) :
    s.blockLoad src x (oUart u + 0x10) = .val (s.uartRead u).1 (s.uartRead u).2 := by
  obtain rfl | rfl | rfl | rfl : u = 0 ∨ u = 1 ∨ u = 2 ∨ u = 3 := by omega
  all_goals rfl

/-- A load that its block answers. -/
theorem State.regRead_val {s t : State} {src : Src} {off : Nat} {v : Pay} (hs : s.calm = true) (hr : s.canRead src off = true)
    (hv : ({ s with answer := none } : State).blockLoad src.code.toNat src.x.toNat off = .val v t) :
    s.regRead src off = { t with answer := some (Word.raw v) } := by
  rw [State.regRead_block hs hr, hv]

theorem State.uartRead_cons {s : State} {u : Nat} {w : Pay} {ws : List Pay} (h : (s.uart u).rx = w :: ws) :
    s.uartRead u = (w, s.setUart u { s.uart u with rx := ws }) := by
  unfold State.uartRead
  simp only [h]

theorem State.uartRead_nil {s : State} {u : Nat} (h : (s.uart u).rx = []) : s.uartRead u = (0, s) := by
  unfold State.uartRead
  simp only [h]

/-! ### I2C (R760) -/

theorem State.i2cEvent_unbound {s : State} {i : Nat} (h : s.unbound (0x72 + i) = true) : s.i2cEvent i = s := by
  unfold State.i2cEvent
  split
  · exact State.assertSource_unbound h
  · rfl

theorem getLsbD_byteOf (x : Pay) (b : Nat) {i : Nat} (hi : i < 8) : (byteOf x b).getLsbD i = bit x (8 * b + i) := by
  rw [byteOf, BitVec.getLsbD_ofNat, Nat.testBit_shiftRight, BitVec.testBit_toNat, decide_eq_true hi, Bool.true_and]
  rfl

/-- Byte b of a payload into which byte p has been put. -/
theorem byteOf_putBytes_one (x : Pay) {p b : Nat} (v : BitVec 8) (hp : p < 8) :
    byteOf (putBytes x p 1 (v.setWidth 64)) b = if p = b then v else byteOf x b := by
  apply BitVec.eq_of_getLsbD_eq
  intro i hi
  rw [getLsbD_byteOf _ _ hi, putBytes, bit_setFld _ _ _ _ _ (by omega) (by omega)]
  by_cases h : p = b
  · rw [if_pos h, if_pos (by omega), BitVec.testBit_toNat, BitVec.getLsbD_setWidth, show 8 * b + i - 8 * p = i by omega,
      decide_eq_true (by omega), Bool.true_and]
  · rw [if_neg h, if_neg (by omega), getLsbD_byteOf _ _ hi]

/-- The buffer of channel i after its first n bytes are written. -/
def State.i2cPut (s : State) (i : Nat) (bs : List (BitVec 8)) (n : Nat) : State :=
  (List.range n).foldl (fun s k =>
    let r := oI2c i + 0x20 + 8 * (k / 8)
    s.setReg r (putBytes (s.reg r) (k % 8) 1 ((bs.getD k 0).setWidth 64))) s

theorem State.i2cPut_succ (s : State) (i : Nat) (bs : List (BitVec 8)) (n : Nat) :
    s.i2cPut i bs (n + 1) = (s.i2cPut i bs n).setReg (oI2c i + 0x20 + 8 * (n / 8))
      (putBytes ((s.i2cPut i bs n).reg (oI2c i + 0x20 + 8 * (n / 8))) (n % 8) 1 ((bs.getD n 0).setWidth 64)) := by
  rw [State.i2cPut, List.range_succ, List.foldl_append, List.foldl_cons, List.foldl_nil]
  rfl

theorem State.i2cPut_rest (s : State) (i : Nat) (bs : List (BitVec 8)) (n : Nat) : ∃ d, s.i2cPut i bs n = { s with dev := d } := by
  induction n with
  | zero => exact ⟨s.dev, rfl⟩
  | succ n ih =>
    obtain ⟨d, hd⟩ := ih
    rw [State.i2cPut_succ, hd]
    exact ⟨_, rfl⟩

/-- Its bytes, and the registers that stay. -/
theorem State.byteOf_i2cPut (s : State) (i : Nat) (bs : List (BitVec 8)) (n j : Nat) :
    byteOf ((s.i2cPut i bs n).reg (oI2c i + 0x20 + 8 * (j / 8))) (j % 8) =
      if j < n then bs.getD j 0 else byteOf (s.reg (oI2c i + 0x20 + 8 * (j / 8))) (j % 8) := by
  induction n with
  | zero => rfl
  | succ n ih =>
    rw [State.i2cPut_succ, State.reg_setReg]
    by_cases hword : n / 8 = j / 8
    · rw [if_pos (by rw [hword]), byteOf_putBytes_one _ _ (by omega)]
      by_cases hj : n = j
      · rw [if_pos (by rw [hj]), if_pos (by omega), hj]
      · rw [if_neg (by omega), hword, ih]
        by_cases hlt : j < n
        · rw [if_pos hlt, if_pos (by omega)]
        · rw [if_neg hlt, if_neg (by omega)]
    · rw [if_neg (by omega), ih]
      by_cases hlt : j < n
      · rw [if_pos hlt, if_pos (by omega)]
      · rw [if_neg hlt, if_neg (by omega)]

theorem State.reg_i2cPut (s : State) (i : Nat) (bs : List (BitVec 8)) (n : Nat) {off : Nat} (h : off < oI2c i + 0x20) :
    (s.i2cPut i bs n).reg off = s.reg off := by
  induction n with
  | zero => rfl
  | succ n ih => rw [State.i2cPut_succ, State.reg_setReg_ne _ _ (by omega), ih]

theorem State.i2cFill_eq (s : State) (i : Nat) (bs : List (BitVec 8)) : s.i2cFill i bs = s.i2cPut i bs (min 64 bs.length) := rfl

/-- The buffer is far from the bindings of the Event Router. -/
theorem State.unbound_i2cPut {s : State} {i m : Nat} (bs : List (BitVec 8)) {n : Nat} (hn : n ≤ 64) (hi : i < 2) :
    (s.i2cPut i bs n).unbound m = s.unbound m := by
  have hreg : (s.i2cPut i bs n).reg (oEvr + 0x1000 + 8 * m) = s.reg (oEvr + 0x1000 + 8 * m) := by
    induction n with
    | zero => rfl
    | succ n ih =>
      rw [State.i2cPut_succ, State.reg_setReg_ne _ _ ?_, ih (by omega)]
      simp only [oI2c, oSio, oEvr]
      omega
  rw [State.unbound, hreg, State.unbound]


/-- The STAT of a transfer that has ended. -/
def i2cEndStat (st : Pay) (nack arb : Bool) (n : Nat) : Pay :=
  setFld (setBit (setBit (setBit (setBit st 63 false) 62 true) 61 (bit st 61 || nack)) 60 (bit st 60 || arb)) 6 0 n

theorem i2cEndStat_bits (st : Pay) (nack arb : Bool) {n : Nat} (hn : n < 128) :
    bit (i2cEndStat st nack arb n) 63 = false ∧ bit (i2cEndStat st nack arb n) 62 = true ∧
      bit (i2cEndStat st nack arb n) 61 = (bit st 61 || nack) ∧ bit (i2cEndStat st nack arb n) 60 = (bit st 60 || arb) ∧
      fld (i2cEndStat st nack arb n) 6 0 = n := by
  unfold i2cEndStat
  refine ⟨?_, ?_, ?_, ?_, ?_⟩
  · rw [bit_setFld_disjoint _ _ _ _ _ (by decide) (by decide) (by decide), bit_setBit_ne _ _ _ _ (by decide) (by decide),
      bit_setBit_ne _ _ _ _ (by decide) (by decide), bit_setBit_ne _ _ _ _ (by decide) (by decide), bit_setBit_self _ _ _ (by decide)]
  · rw [bit_setFld_disjoint _ _ _ _ _ (by decide) (by decide) (by decide), bit_setBit_ne _ _ _ _ (by decide) (by decide),
      bit_setBit_ne _ _ _ _ (by decide) (by decide), bit_setBit_self _ _ _ (by decide)]
  · rw [bit_setFld_disjoint _ _ _ _ _ (by decide) (by decide) (by decide), bit_setBit_ne _ _ _ _ (by decide) (by decide),
      bit_setBit_self _ _ _ (by decide)]
  · rw [bit_setFld_disjoint _ _ _ _ _ (by decide) (by decide) (by decide), bit_setBit_self _ _ _ (by decide)]
  · rw [fld_setFld_self _ _ _ _ (by decide) (by decide)]
    exact Nat.mod_eq_of_lt hn

/-- A controller transfer ends. -/
theorem State.i2cDone_eq {s : State} {i : Nat} {v : Pay} (nack arb : Bool) (count : Nat) (data : List (BitVec 8)) (hi : i < 2)
    (hv : Tbl.look s.sio.i2c i = some v) (hun : s.unbound (0x72 + i) = true) :
    ∃ t, s.i2cDone i nack arb count data = t ∧ t = { s with dev := t.dev, sio := t.sio } ∧
      t.reg (oI2c i + 0x10) = i2cEndStat (s.reg (oI2c i + 0x10)) nack arb (min (min 64 (fld v 6 0)) count) ∧ Tbl.look t.sio.i2c i = none := by
  obtain ⟨n, hn⟩ : ∃ n, min (min 64 (fld v 6 0)) count = n := ⟨_, rfl⟩
  obtain ⟨u, hu⟩ : ∃ u, s.setReg (oI2c i + 0x10) (i2cEndStat (s.reg (oI2c i + 0x10)) nack arb n) = u := ⟨_, rfl⟩
  obtain ⟨w, hw⟩ : ∃ w, (if bit v 62 then u.i2cFill i (data.take n) else u) = w := ⟨_, rfl⟩
  have hrest : ∃ d, w = { s with dev := d } := by
    rw [← hw, ← hu]
    split
    · obtain ⟨d, hd⟩ := State.i2cPut_rest (s.setReg (oI2c i + 0x10) (i2cEndStat (s.reg (oI2c i + 0x10)) nack arb n)) i (data.take n)
        (min 64 (data.take n).length)
      exact ⟨d, by rw [State.i2cFill_eq, hd]; rfl⟩
    · exact ⟨_, rfl⟩
  have hreg : w.reg (oI2c i + 0x10) = i2cEndStat (s.reg (oI2c i + 0x10)) nack arb n := by
    rw [← hw, ← hu]
    split
    · rw [State.i2cFill_eq, State.reg_i2cPut _ _ _ _ (by omega), State.reg_setReg_self]
    · rw [State.reg_setReg_self]
  have hunbound : w.unbound (0x72 + i) = true := by
    have hfar : u.unbound (0x72 + i) = true := by
      rw [← hu, State.unbound_setReg _ (by simp only [oI2c, oSio, oEvr]; omega), hun]
    rw [← hw]
    split
    · rw [State.i2cFill_eq, State.unbound_i2cPut _ (by omega) hi, hfar]
    · exact hfar
  have hdone : s.i2cDone i nack arb count data = (w.updSio (fun o => { o with
      i2c := Tbl.erase o.i2c i, held := if bit v 61 ∨ arb then o.held.filter (· ≠ i) else (o.held ++ [i]).eraseDups })).i2cEvent i := by
    rw [← hw, ← hu, ← hn]
    unfold State.i2cDone
    rw [hv]
    rfl
  obtain ⟨d, hd⟩ := hrest
  refine ⟨_, hdone.trans (State.i2cEvent_unbound hunbound), ?_, by rw [hn]; exact hreg, Tbl.look_erase_self _ _⟩
  rw [hd]; rfl

/-- The STAT of a transaction of the target. -/
def i2cTargetStat (st : Pay) (n : Nat) : Pay := setFld (setBit (setBit (setBit st 62 true) 61 (bit st 61 || false)) 59 true) 6 0 n

theorem i2cTargetStat_bits (st : Pay) {n : Nat} (hn : n < 128) :
    bit (i2cTargetStat st n) 62 = true ∧ bit (i2cTargetStat st n) 59 = true ∧ fld (i2cTargetStat st n) 6 0 = n := by
  unfold i2cTargetStat
  refine ⟨?_, ?_, ?_⟩
  · rw [bit_setFld_disjoint _ _ _ _ _ (by decide) (by decide) (by decide), bit_setBit_ne _ _ _ _ (by decide) (by decide),
      bit_setBit_ne _ _ _ _ (by decide) (by decide), bit_setBit_self _ _ _ (by decide)]
  · rw [bit_setFld_disjoint _ _ _ _ _ (by decide) (by decide) (by decide), bit_setBit_self _ _ _ (by decide)]
  · rw [fld_setFld_self _ _ _ _ (by decide) (by decide)]
    exact Nat.mod_eq_of_lt hn

/-- A write to the target fills the buffer. -/
theorem State.i2cTarget_write {s : State} {i : Nat} (data : List (BitVec 8)) (count : Nat) (hi : i < 2) (hr : s.sys.inReset = false)
    (hun : s.unbound (0x72 + i) = true) (hen : bit (s.reg (oI2c i)) 63 = true) (htgt : bit (s.reg (oI2c i)) 62 = true)
    (hfree : bit (s.reg (oI2c i + 0x10)) 62 = false) (hlen : data.length ≤ 64) :
    s.i2cTarget i true data count = (s.i2cPut i data data.length).setReg (oI2c i + 0x10) (i2cTargetStat (s.reg (oI2c i + 0x10)) data.length) := by
  have hmin : min 64 data.length = data.length := Nat.min_eq_right hlen
  unfold State.i2cTarget
  simp only [hen, htgt, hfree, hr, Bool.not_true, Bool.false_eq_true, or_self, if_false, if_true, Bool.true_and, State.i2cFill_eq, hmin,
    decide_eq_false (Nat.not_lt.mpr hlen)]
  refine State.i2cEvent_unbound ?_
  rw [State.unbound_setReg _ (by simp only [oI2c, oSio, oEvr]; omega), State.unbound_i2cPut _ hlen hi, hun]

theorem State.blockStore_i2cCmd (s : State) (src x : Nat) {i : Nat} (v : Pay) (hi : i < 2) : s.blockStore src x (oI2c i + 8) v = s.i2cCmd i v := by
  obtain rfl | rfl : i = 0 ∨ i = 1 := by omega
  all_goals rfl

/-- GO starts a controller transfer on an enabled, idle channel. -/
theorem State.i2cCmd_go {s : State} {i : Nat} {v : Pay} (hgo : bit v 63 = true) (hidle : bit (s.reg (oI2c i + 0x10)) 63 = false)
    (hen : bit (s.reg (oI2c i)) 63 = true) (htgt : bit (s.reg (oI2c i)) 62 = false) :
    s.i2cCmd i v = (s.setReg (oI2c i + 0x10) (setBit (s.reg (oI2c i + 0x10)) 63 true)).updSio (fun o => { o with i2c := Tbl.insert o.i2c i v }) := by
  unfold State.i2cCmd
  exact if_neg (by simp [hgo, hidle, hen, htgt])

/-! ### QSPI (R734, R761) -/

theorem State.qspiCmd_go {s : State} {v : Pay} (hgo : bit v 63 = true) (hidle : bit (s.reg (oSio + 0x8018)) 63 = false) :
    s.qspiCmd v = (s.setReg (oSio + 0x8018) (setBit (s.reg (oSio + 0x8018)) 63 true)).updSio (fun o => { o with qspi := some v }) := by
  unfold State.qspiCmd
  exact if_neg (by simp [hgo, hidle])

/-- A read of the flash ends: its bytes are in memory. -/
theorem State.qspiDone_read {s : State} {v : Pay} (data : List (BitVec 8)) (hv : s.sio.qspi = some v) (hread : bit v 62 = false)
    (hn : min 4096 (fld v 12 0) ≠ 0) (hdram : s.inDram (s.rf (oSio + 0x8010) 47 0) (min 4096 (fld v 12 0)) = true) :
    s.qspiDone data = (({ s.setReg (oSio + 0x8018) (setBit (setBit (setBit (s.reg (oSio + 0x8018)) 63 false) 62 true) 61
        (bit (s.reg (oSio + 0x8018)) 61 || false)) with sio := { s.sio with qspi := none } } : State)).engPutBytes
      (s.rf (oSio + 0x8010) 47 0) ((data ++ List.replicate (min 4096 (fld v 12 0)) 0).take (min 4096 (fld v 12 0))) := by
  unfold State.qspiDone
  simp only [hv, hdram, hread]
  rw [if_neg (by simp [hn])]
  simp only [Bool.not_true, Bool.and_false]
  rfl

theorem getD_padded (data : List (BitVec 8)) (n j : Nat) (hj : j < n) : ((data ++ List.replicate n 0).take n).getD j 0 = data.getD j 0 := by
  rw [List.getD_eq_getElem?_getD, List.getElem?_take_of_lt hj, List.getD_eq_getElem?_getD]
  by_cases h : j < data.length
  · rw [List.getElem?_append_left h]
  · rw [List.getElem?_append_right (by omega), List.getElem?_eq_none (by omega : data.length ≤ j), List.getElem?_replicate]
    split <;> rfl

/-- Settles O58: what a unit's command and its end do, unit by unit. -/
theorem serialPorts : Obligations.SerialPorts := by
  unfold Obligations.SerialPorts
  intro s src hs hr
  refine ⟨fun ub => ?_, fun ib => ?_, fun v hw hidle => ?_, fun v data => ?_⟩
  · dsimp only
    intro hun
    have hu := ub.isLt
    refine ⟨fun b pe fe br hon hroom => ?_, fun v hw => ⟨fun hshift htx hmay => ?_, fun hshift hroom => ?_⟩, fun hread => ⟨fun w ws hrx => ?_,
      fun hrx => ?_⟩, fun b hshift => ⟨fun htx => ?_, fun c cs htx hmay => ?_⟩, fun b bs hshift htx hon => ?_⟩
    · exact ⟨_, (congrArg (fin s) (State.uartRx_eq hr hun hon hroom)).trans (fin_calm hs rfl rfl rfl rfl rfl), rfl, State.uart_setUart _ _ _⟩
    · obtain ⟨t, ht, hrest, huart⟩ := State.uartWrite_idle (b := BitVec.ofNat 8 (fld v 7 0)) hshift htx hmay
      refine ⟨t, exec_store rfl hs hw ((State.blockStore_uartData _ _ _ _ hu).trans ht) ?_ ?_, hrest, huart⟩
      · rw [hrest]
        exact (State.calm_congr rfl rfl rfl rfl).trans hs
      · rw [hrest]
    · exact ⟨_, exec_store rfl hs hw ((State.blockStore_uartData _ _ _ _ hu).trans (State.uartWrite_busy hshift hroom))
        ((State.calm_congr rfl rfl rfl rfl).trans hs) rfl, rfl, State.uart_setUart _ _ _⟩
    · have hload := State.blockLoad_uartData { s with answer := none } src.code.toNat src.x.toNat hu
      rw [State.uartRead_cons (s := { s with answer := none }) (u := ub.toNat) hrx] at hload
      exact ⟨_, (congrArg (fin s) (State.regRead_val hs hread hload)).trans (fin_calm hs rfl rfl rfl rfl rfl), rfl, State.uart_setUart s _ _⟩
    · refine exec_load rfl hs hread ?_
      rw [State.blockLoad_uartData _ _ _ hu, State.uartRead_nil (s := { s with answer := none }) hrx]
    · have hempty : s.uartEmpty ub.toNat = s.setUart ub.toNat { s.uart ub.toNat with shift := none, sent := b :: (s.uart ub.toNat).sent } := by
        unfold State.uartEmpty
        rw [if_pos (by rw [htx]; rfl), State.uartSent_eq hr hun hshift]
        refine State.uartNext_empty ?_
        rw [State.uart_setUart]
        exact htx
      exact ⟨_, (congrArg (fin s) hempty).trans (fin_calm hs rfl rfl rfl rfl rfl), rfl, State.uart_setUart _ _ _⟩
    · have hget := State.uart_setUart s ub.toNat { s.uart ub.toNat with shift := none, sent := b :: (s.uart ub.toNat).sent }
      have hnext := State.uartNext_takes (s := s.setUart ub.toNat { s.uart ub.toNat with shift := none, sent := b :: (s.uart ub.toNat).sent })
        (u := ub.toNat) (b := c) (bs := cs) (by rw [hget]) (by rw [hget]; exact htx) (by rw [State.mayShift_setUart _ _ _ (by rfl), hmay])
      refine ⟨_, (congrArg (fin s) ((State.uartSent_eq hr hun hshift).trans hnext)).trans (fin_calm hs rfl rfl rfl rfl rfl), rfl, ?_⟩
      rw [State.setUart_setUart, hget]
    · have hget := State.uart_setUart s ub.toNat { s.uart ub.toNat with cts := true }
      have hmay : (s.setUart ub.toNat { s.uart ub.toNat with cts := true }).mayShift ub.toNat = true := by
        have hbit : ∀ b, (s.setUart ub.toNat { s.uart ub.toNat with cts := true }).uartBit ub.toNat b = s.uartBit ub.toNat b := fun _ => rfl
        unfold State.mayShift
        rw [hbit, hbit, hbit, hget, hon]
        simp
      have hnext := State.uartNext_takes (s := s.setUart ub.toNat { s.uart ub.toNat with cts := true }) (u := ub.toNat) (b := b) (bs := bs)
        (by rw [hget]; exact hshift) (by rw [hget]; exact htx) hmay
      refine ⟨_, (congrArg (fin s) hnext).trans (fin_calm hs rfl rfl rfl rfl rfl), rfl, ?_⟩
      rw [State.setUart_setUart, hget]
  · dsimp only
    intro hun
    have hi := ib.isLt
    refine ⟨fun v hw hidle hen htgt => ?_, fun v nack arb count data hv => ?_, fun data count hen htgt hfree hlen => ?_⟩
    · refine ⟨_, exec_store rfl hs hw ((State.blockStore_i2cCmd _ _ _ _ hi).trans (State.i2cCmd_go (bit_setBit_self _ _ _ (by decide)) hidle hen htgt))
        ((State.calm_congr rfl rfl rfl rfl).trans hs) rfl, rfl, ?_, Tbl.look_insert_self _ _ _⟩
      exact (congrArg (bit · 63) (State.reg_setReg_self s _ _)).trans (bit_setBit_self _ _ _ (by decide))
    · obtain ⟨t, ht, hrest, hstat, hlook⟩ := State.i2cDone_eq nack arb count.toNat data hi hv hun
      obtain ⟨hbusy, hdone, hnack, harb, hcount⟩ := i2cEndStat_bits (s.reg (oI2c ib.toNat + 0x10)) nack arb
        (n := min (min 64 (fld v 6 0)) count.toNat) (by omega)
      rw [← hstat] at hbusy hdone hnack harb hcount
      refine ⟨t, (congrArg (fin s) ht).trans ?_, hrest, hbusy, hdone, hnack, harb, hcount, hlook⟩
      rw [hrest]
      exact fin_calm hs rfl rfl rfl rfl rfl
    · obtain ⟨d, hd⟩ := State.i2cPut_rest s ib.toNat data data.length
      have htarget := State.i2cTarget_write data count.toNat hi hr hun hen htgt hfree hlen
      obtain ⟨hdone, hwrite, hcount⟩ := i2cTargetStat_bits (s.reg (oI2c ib.toNat + 0x10)) (n := data.length) (by omega)
      refine ⟨(s.i2cPut ib.toNat data data.length).setReg (oI2c ib.toNat + 0x10) (i2cTargetStat (s.reg (oI2c ib.toNat + 0x10)) data.length),
        (congrArg (fin s) htarget).trans ?_, ?_, ?_, ?_, ?_, fun j hj => ?_⟩
      · rw [hd]
        exact fin_calm hs rfl rfl rfl rfl rfl
      · rw [hd]; rfl
      · rw [State.reg_setReg_self]; exact hdone
      · rw [State.reg_setReg_self]; exact hwrite
      · rw [State.rf, State.reg_setReg_self]; exact hcount
      · rw [State.reg_setReg_ne _ _ (by omega), State.byteOf_i2cPut, if_pos hj]
  · refine ⟨_, exec_store rfl hs hw (State.qspiCmd_go (bit_setBit_self _ _ _ (by decide)) hidle)
      ((State.calm_congr rfl rfl rfl rfl).trans hs) rfl, rfl, ?_⟩
    exact (congrArg (bit · 63) (State.reg_setReg_self s _ _)).trans (bit_setBit_self _ _ _ (by decide))
  · dsimp only
    intro hv hread hn hdram hw
    have hdone := State.qspiDone_read data hv hread hn hdram
    obtain ⟨st, hst⟩ : ∃ st, setBit (setBit (setBit (s.reg (oSio + 0x8018)) 63 false) 62 true) 61 (bit (s.reg (oSio + 0x8018)) 61 || false) = st :=
      ⟨_, rfl⟩
    obtain ⟨u, hu⟩ : ∃ u : State, { s.setReg (oSio + 0x8018) st with sio := { s.sio with qspi := none } } = u := ⟨_, rfl⟩
    rw [hst, hu] at hdone
    have huw : u.noWindows := by rw [← hu]; exact hw
    have htraffic := Traffic.engPutBytes huw (s.rf (oSio + 0x8010) 47 0)
      ((data ++ List.replicate (min 4096 (fld v 12 0)) 0).take (min 4096 (fld v 12 0)))
    have hbyte := State.byte_engPutBytes huw (s.rf (oSio + 0x8010) 47 0)
      ((data ++ List.replicate (min 4096 (fld v 12 0)) 0).take (min 4096 (fld v 12 0)))
    have hlen : ((data ++ List.replicate (min 4096 (fld v 12 0)) (0 : BitVec 8)).take (min 4096 (fld v 12 0))).length = min 4096 (fld v 12 0) := by
      rw [List.length_take, List.length_append, List.length_replicate]
      omega
    rw [hlen] at hbyte
    have hreg : ∀ t, Traffic u t → t.reg (oSio + 0x8018) = st := fun t ht => by
      rw [ht.reg, ← hu]
      exact State.reg_setReg_self s _ _
    have hucalm : u.calm = true := by rw [← hu]; exact (State.calm_congr rfl rfl rfl rfl).trans hs
    refine ⟨_, (congrArg (fin s) hdone).trans (fin_next (htraffic.calm hucalm) ?_), ?_, ?_, ?_, fun j hj => ?_, fun b hb => ?_⟩
    · rw [htraffic.rest, ← hu]; rfl
    · rw [htraffic.rest, ← hu]
    · rw [hreg _ htraffic, ← hst, bit_setBit_ne _ _ _ _ (by decide) (by decide), bit_setBit_ne _ _ _ _ (by decide) (by decide),
        bit_setBit_self _ _ _ (by decide)]
    · rw [hreg _ htraffic, ← hst, bit_setBit_ne _ _ _ _ (by decide) (by decide), bit_setBit_self _ _ _ (by decide)]
    · rw [hbyte, if_pos (by omega), Nat.add_sub_cancel_left, getD_padded _ _ _ hj]
    · rw [hbyte, if_neg (by omega), ← hu]
      rfl

end Sys2Proof.Machine
end

section
/-!
PROOFS. Debug access at an attached device (O43).
-/
namespace Sys2Proof.Machine

/-! ### Digests in registers (R626) -/

theorem State.putDigest_eq (s : State) (off : Nat) (d : List (BitVec 8)) :
    s.putDigest off d = (((s.setReg (off + 8 * 0) (p64 (leNat ((d.drop (8 * 0)).take 8)))).setReg (off + 8 * 1) (p64 (leNat ((d.drop (8 * 1)).take 8)))).setReg
      (off + 8 * 2) (p64 (leNat ((d.drop (8 * 2)).take 8)))).setReg (off + 8 * 3) (p64 (leNat ((d.drop (8 * 3)).take 8))) := rfl

theorem RegsOnly.putDigest (s : State) (off : Nat) (d : List (BitVec 8)) : RegsOnly s [off, off + 8, off + 16, off + 24] (s.putDigest off d) := by
  rw [State.putDigest_eq]
  exact (((RegsOnly.setReg s _ _).trans (RegsOnly.setReg _ _ _)).trans (RegsOnly.setReg _ _ _)).trans (RegsOnly.setReg _ _ _)

/-! ### Contexts that an operation of debug access names -/

/-- One change made to each context of a list. -/
theorem ctx_foldl_idem {g : Ctx → Ctx} (hg : ∀ c, g (g c) = g c) (l : List Nat) (s : State) (y : Nat) :
    (l.foldl (fun s x => s.updCtx x g) s).ctx y = if y ∈ l then g (s.ctx y) else s.ctx y := by
  induction l generalizing s with
  | nil => exact (if_neg List.not_mem_nil).symm
  | cons x l ih =>
    rw [List.foldl_cons, ih, State.updCtx_eq, State.ctx_setCtx]
    by_cases hxy : x = y
    · subst hxy
      rw [if_pos rfl, if_pos List.mem_cons_self]
      split
      · exact hg _
      · rfl
    · rw [if_neg hxy]
      simp only [List.mem_cons, Ne.symm hxy, false_or]

/-- The end of a halt. -/
def Ctx.unhalt (c : Ctx) : Ctx := if c.halted then { c with halted := false, stepping := false } else c

theorem Ctx.unhalt_unhalt (c : Ctx) : c.unhalt.unhalt = c.unhalt := by
  unfold Ctx.unhalt
  by_cases h : c.halted = true
  · simp only [h, if_true, Bool.false_eq_true, if_false]
  · simp only [h, Bool.false_eq_true, if_false]

theorem Ctx.unhalt_held (c : Ctx) : c.unhalt.evHeld = c.evHeld ∧ c.unhalt.linesHeld = c.linesHeld := by
  unfold Ctx.unhalt
  split <;> exact ⟨rfl, rfl⟩

/-- The machine may list a context otherwise, and reads the same. -/
structure SameCtxs (s u : State) : Prop where
  rest : u = { s with ctxs := u.ctxs }
  ctx : ∀ y, u.ctx y = s.ctx y

/-- Nothing held for a context is nothing delivered. -/
theorem State.deliverHeld_none {s : State} {x : Nat} (he : (s.ctx x).evHeld = false) (hl : (s.ctx x).linesHeld = []) : SameCtxs s (s.deliverHeld x) := by
  unfold State.deliverHeld
  split
  · exact ⟨rfl, fun _ => rfl⟩
  · simp only [he, hl, List.foldl_nil, Bool.false_eq_true, if_false]
    refine ⟨rfl, fun y => ?_⟩
    rw [State.updCtx_eq, State.ctx_setCtx]
    split
    · next h =>
      subst h
      rw [← he, ← hl]
    · rfl

/-- Contexts run again, with nothing held for them. -/
theorem State.resume_fold (l : List Nat) (s : State) (hheld : ∀ x ∈ l, (s.ctx x).evHeld = false ∧ (s.ctx x).linesHeld = []) :
    let t := l.foldl (fun s x =>
      if (s.ctx x).halted then (s.updCtx x (fun c => { c with halted := false, stepping := false })).deliverHeld x else s) s
    t = { s with ctxs := t.ctxs } ∧ ∀ y, t.ctx y = if y ∈ l then (s.ctx y).unhalt else s.ctx y := by
  induction l generalizing s with
  | nil => exact ⟨rfl, fun y => (if_neg List.not_mem_nil).symm⟩
  | cons x l ih =>
    obtain ⟨u, hu⟩ : ∃ u, (if (s.ctx x).halted then (s.updCtx x (fun c => { c with halted := false, stepping := false })).deliverHeld x else s) = u :=
      ⟨_, rfl⟩
    have hstep : u = { s with ctxs := u.ctxs } ∧ ∀ y, u.ctx y = if y = x then (s.ctx y).unhalt else s.ctx y := by
      obtain ⟨he, hl⟩ := hheld x List.mem_cons_self
      rw [← hu]
      split
      · next hh =>
        have hget := State.ctx_setCtx_self s x { s.ctx x with halted := false, stepping := false }
        obtain ⟨hrest, hctx⟩ := State.deliverHeld_none (s := s.setCtx x { s.ctx x with halted := false, stepping := false }) (x := x)
          (by rw [hget]; exact he) (by rw [hget]; exact hl)
        rw [State.updCtx_eq]
        refine ⟨by rw [hrest]; rfl, fun y => ?_⟩
        rw [hctx, State.ctx_setCtx]
        by_cases hy : x = y
        · rw [if_pos hy, if_pos hy.symm, ← hy, Ctx.unhalt, if_pos hh]
        · rw [if_neg hy, if_neg (Ne.symm hy)]
      · next hh =>
        refine ⟨rfl, fun y => ?_⟩
        split
        · next hy =>
          rw [hy, Ctx.unhalt, if_neg hh]
        · rfl
    obtain ⟨hrestU, hctxU⟩ := hstep
    have hheldU : ∀ z ∈ l, (u.ctx z).evHeld = false ∧ (u.ctx z).linesHeld = [] := by
      intro z hz
      obtain ⟨he, hl⟩ := hheld z (List.mem_cons_of_mem _ hz)
      rw [hctxU]
      split
      · rw [(s.ctx z).unhalt_held.1, (s.ctx z).unhalt_held.2]
        exact ⟨he, hl⟩
      · exact ⟨he, hl⟩
    obtain ⟨hrest, hctx⟩ := ih u hheldU
    dsimp only
    rw [List.foldl_cons, hu]
    refine ⟨by rw [hrest, hrestU], fun y => ?_⟩
    rw [hctx, hctxU]
    by_cases hyx : y = x
    · subst hyx
      rw [if_pos rfl, if_pos List.mem_cons_self]
      split
      · exact Ctx.unhalt_unhalt _
      · rfl
    · rw [if_neg hyx]
      simp only [List.mem_cons, hyx, false_or]

/-! ### Halts (R511) -/

theorem RegsOnly.setRf (s : State) (off hi lo v : Nat) : RegsOnly s [off] (s.setRf off hi lo v) := by
  rw [State.setRf_eq]
  exact RegsOnly.setReg _ _ _

/-- A record of the twin fault log changes registers of the log only. -/
theorem State.logRec_regs (s : State) (cause twin outcome aux : Nat) (time w2 w3 : Pay) :
    let b := oTwin + 0x1000 + 0x20 * (s.rf (oTwin + 0x30) 31 0 % 64)
    RegsOnly s [b, b + 8, b + 16, b + 24, oTwin + 0x30] (s.logRec cause twin outcome aux time w2 w3) := by
  unfold State.logRec
  extract_lets b seq ack lost b1 s1 s2 s3
  have h1 : RegsOnly s [b] s1 := RegsOnly.setReg _ _ _
  have h2 : RegsOnly s1 [b + 8, b + 16, b + 24] s2 := ((RegsOnly.setReg _ _ _).trans (RegsOnly.setReg _ _ _)).trans (RegsOnly.setReg _ _ _)
  have h3 : RegsOnly s2 [oTwin + 0x30] s3 := RegsOnly.setRf _ _ _ _ _
  have h123 := (h1.trans h2).trans h3
  clear_value s3
  split
  · exact (h123.trans (RegsOnly.setRf s3 (oTwin + 0x30) 63 48 _)).mono (by simp)
  · exact h123

/-- The registers outside the log stay. -/
theorem State.reg_logRec (s : State) (cause twin outcome aux : Nat) (time w2 w3 : Pay) {off : Nat} (hseq : off ≠ oTwin + 0x30)
    (hfar : off < oTwin + 0x1000 ∨ oTwin + 0x1800 ≤ off) : (s.logRec cause twin outcome aux time w2 w3).reg off = s.reg off := by
  have hslot : s.rf (oTwin + 0x30) 31 0 % 64 < 64 := Nat.mod_lt _ (by decide)
  refine (s.logRec_regs cause twin outcome aux time w2 w3).others off ?_
  simp only [List.mem_cons, List.not_mem_nil, or_false, not_or]
  omega

/-- The mode entered. -/
theorem State.mode_setMode (s : State) {m : Nat} (hm : m < 8) : (s.setMode m).mode = m := by
  unfold State.setMode State.mode
  rw [State.rf_setRf_self _ _ _ _ _ (by decide) (by decide)]
  exact Nat.mod_eq_of_lt hm

theorem State.reg_setMode_ne (s : State) (m : Nat) {off : Nat} (h : off ≠ 0x10) : (s.setMode m).reg off = s.reg off := by
  unfold State.setMode
  rw [State.setRf_eq, State.reg_setReg_ne _ _ (Ne.symm h), State.setRf_eq, State.reg_setReg_ne _ _ (Ne.symm h)]

theorem State.setMode_rest (s : State) (m : Nat) : ∃ d, s.setMode m = { s with dev := d } := ⟨_, rfl⟩

/-- The contexts of a core halt, DBG_BROKE is set, and Run ends in Service. -/
theorem State.haltCore_eq (s : State) (k : Nat) (broke : Bool) :
    let t := s.haltCore k broke
    t = { s with ctxs := t.ctxs, dev := t.dev } ∧ bit (t.reg (oTwin + 0x28)) 63 = true ∧
      (∀ y, t.ctx y = if y ∈ s.ctxsOn k then { s.ctx y with halted := true } else s.ctx y) ∧ (s.mode = mRun → t.mode = mService) := by
  obtain ⟨s1, h1⟩ : ∃ s1, (s.ctxsOn k).foldl (fun s x => s.updCtx x (fun c => { c with halted := true })) s = s1 := ⟨_, rfl⟩
  obtain ⟨s2, h2⟩ : ∃ s2, s1.setReg (oTwin + 0x28) (setBit (s1.reg (oTwin + 0x28)) 63 true) = s2 := ⟨_, rfl⟩
  obtain ⟨s3, h3⟩ : ∃ s3, s2.logRec 0x0C (k / 2) (if broke then 5 else 0) k s.time 0 0 = s3 := ⟨_, rfl⟩
  have hctx := ctx_foldl_idem (g := fun c => { c with halted := true }) (fun _ => rfl) (s.ctxsOn k) s
  obtain ⟨cs, hcs⟩ := foldl_ctxs (f := fun s x => s.updCtx x (fun c => { c with halted := true })) (fun _ _ => ⟨_, rfl⟩) (s.ctxsOn k) s
  have hd := (s2.logRec_regs 0x0C (k / 2) (if broke then 5 else 0) k s.time 0 0).rest
  have hreg := fun off => s2.reg_logRec 0x0C (k / 2) (if broke then 5 else 0) k s.time 0 0 (off := off)
  rw [h1] at hctx hcs
  rw [h3] at hd hreg
  have hrest : s3 = { s with ctxs := s3.ctxs, dev := s3.dev } := by rw [hd, ← h2, hcs]; rfl
  have hctx3 : ∀ y, s3.ctx y = if y ∈ s.ctxsOn k then { s.ctx y with halted := true } else s.ctx y := by
    intro y
    rw [← hctx, hd, ← h2]
    rfl
  have hbroke : bit (s3.reg (oTwin + 0x28)) 63 = true := by
    rw [hreg _ (by decide) (.inl (by decide)), ← h2, State.reg_setReg_self, bit_setBit_self _ _ _ (by decide)]
  have hmode : s3.mode = s.mode := by
    unfold State.mode State.rf
    rw [hreg _ (by decide) (.inl (by decide)), ← h2, State.reg_setReg_ne _ _ (by decide), hcs]
    rfl
  have hhalt : s.haltCore k broke = if s3.mode = mRun ∨ s3.mode = mDegraded then s3.setMode mService else s3 := by
    rw [← h3, ← h2, ← h1]
    rfl
  dsimp only
  rw [hhalt]
  split
  · obtain ⟨e, he⟩ := s3.setMode_rest mService
    refine ⟨?_, ?_, fun y => ?_, fun _ => State.mode_setMode _ (by decide)⟩
    · rw [he, hrest]
    · rw [State.reg_setMode_ne _ _ (by decide)]
      exact hbroke
    · rw [← hctx3, he]
      rfl
  · next hne =>
    exact ⟨hrest, hbroke, hctx3, fun h => absurd (.inl (hmode.trans h)) hne⟩

/-- The first access sets DBGUSED and extends a measurement. -/
theorem State.debugUsed_regs (s : State) : ∃ t os, s.debugUsed = t ∧ RegsOnly s os t ∧ t.secStat 60 = true := by
  unfold State.debugUsed
  split
  · next h => exact ⟨s, [], rfl, RegsOnly.refl s _, h⟩
  · obtain ⟨d, hd⟩ : ∃ d, Config.shake256 ((s.setSecStat 60 true).measBytes 7 ++ Config.shake256 (ascii "HR7264 DEBUG") 32) 32 = d := ⟨_, rfl⟩
    have hput := RegsOnly.putDigest (s.setSecStat 60 true) (measOff 7) d
    have hset : RegsOnly s [oSec + 0x20] (s.setSecStat 60 true) := RegsOnly.setReg _ _ _
    refine ⟨(s.setSecStat 60 true).putDigest (measOff 7) d, _, ?_, hset.trans hput, ?_⟩
    · rw [State.extend, hd]
    · rw [State.secStat, hput.others _ (by decide), State.setSecStat, State.reg_setReg_self]
      exact bit_setBit_self _ _ _ (by decide)

/-- Where the contexts of a split or solo core halt. -/
theorem State.debugHalt_eq {s : State} {k : Nat} (hmode : (s.twin (k / 2)).mode = .split ∨ (s.twin (k / 2)).mode = .solo)
    (hmove : (s.twin (k / 2)).moving = false) (hsome : (s.ctxsOn k).isEmpty = false) : s.debugHalt k = s.haltCore k false := by
  rw [Twin.moving, Bool.or_eq_false_iff] at hmove
  obtain ⟨htrans, hrecov⟩ := hmove
  have hoff : (s.twin (k / 2)).mode ≠ .off := by rcases hmode with h | h <;> rw [h] <;> decide
  have hpaired : ¬ ((s.twin (k / 2)).mode = .tight ∨ (s.twin (k / 2)).mode = .loose) := by rcases hmode with h | h <;> rw [h] <;> decide
  unfold State.debugHalt
  dsimp only
  rw [if_neg hoff, if_neg (by simp [hrecov]), if_neg (by simp [htrans]), if_neg hpaired, if_neg (by simp [hsome])]

theorem reg_setWidth_lt (r : BitVec 5) : (r.setWidth 12).toNat < 32 := by
  rw [BitVec.toNat_setWidth]
  omega

theorem ofNat_setWidth_reg (r : BitVec 5) : BitVec.ofNat 5 (r.setWidth 12).toNat = r := by
  apply BitVec.eq_of_toNat_eq
  simp only [BitVec.toNat_ofNat, BitVec.toNat_setWidth]
  omega

/-- What a word reads depends on the bytes and tags of memory only. -/
theorem State.word_congr {s u : State} (hm : u.mem = s.mem) (ht : u.tags = s.tags) (k : Nat) : u.word k = s.word k := by
  unfold State.word State.payAt State.byte State.tagAt
  rw [hm, ht]

/-- Settles O43: each row of debug access on its own. -/
theorem debugAccess : Obligations.DebugAccess := by
  unfold Obligations.DebugAccess
  intro s hs
  refine ⟨fun hallowed hr => ?_, fun hon => ⟨fun k => ⟨fun hmode hmove hsome => ?_, fun hheld => ?_⟩, fun x hhalted => ⟨?_, fun r bank hbank => ⟨?_, fun w hne => ?_⟩⟩,
    fun pa halign hdram hprt hw hpoison => ⟨?_, fun w => ?_⟩⟩⟩
  · obtain ⟨t, os, ht, hregs, hused⟩ := (s.updSec (fun c => { c with attached := true })).debugUsed_regs
    have hatt : s.debugAttach = t := by
      rw [← ht]
      exact if_neg (by simp [hallowed, hr])
    have hrow : exec .debugAttach s = fin s s.debugAttach := rfl
    refine ⟨t, ?_, ?_, hused, ?_, ?_⟩
    · rw [hrow, hatt, hregs.rest]
      exact fin_calm hs rfl rfl rfl rfl rfl
    · rw [hregs.rest]
      rfl
    · rw [hregs.rest]
      rfl
    · rw [hregs.rest]
      rfl
  · obtain ⟨t, ht⟩ : ∃ t, s.haltCore k.toNat false = t := ⟨_, rfl⟩
    have hhalt := s.haltCore_eq k.toNat false
    rw [ht] at hhalt
    have hrow : exec (.debugHalt k) s = fin s (s.debugHaltReq k.toNat) := rfl
    refine ⟨t, ?_, hhalt⟩
    rw [hrow, State.debugHaltReq, if_pos hon, State.debugHalt_eq hmode hmove hsome, ht, hhalt.1]
    exact fin_calm hs rfl rfl rfl rfl rfl
  · obtain ⟨hrest, hctx⟩ := State.resume_fold (s.ctxsOn k.toNat) s hheld
    have hrow : exec (.debugResume k) s = fin s (s.debugResume k.toNat) := rfl
    refine ⟨_, ?_, hrest, fun y => (hctx y).trans ?_⟩
    · rw [hrow, State.debugResume, if_neg (by simp [hon]), hrest]
      exact fin_calm hs rfl rfl rfl rfl rfl
    · unfold Ctx.unhalt
      by_cases hy : y ∈ s.ctxsOn k.toNat
      · simp only [hy, if_true, true_and]
      · simp only [hy, if_false, false_and]
  · have hrow : exec (.debugStep x) s = fin s (s.debugStep x.toNat) := rfl
    refine ⟨s.setCtx x.toNat { s.ctx x.toNat with halted := false, stepping := true }, ?_, rfl, fun y hy => ?_, State.ctx_setCtx_self _ _ _⟩
    · rw [hrow, State.debugStep, if_pos ⟨hon, hhalted⟩, State.updCtx_eq]
      exact fin_calm hs rfl rfl rfl rfl rfl
    · rw [State.ctx_setCtx, if_neg (Ne.symm hy)]
  · have hrow : exec (.debugRegisterAccess x false (r.setWidth 12) bank none) s =
        fin s (s.debugReg x.toNat false (r.setWidth 12).toNat bank.toNat none) :=
      congrArg (fin s) (if_pos (.inr (reg_setWidth_lt r)))
    rw [hrow, State.debugReg, if_neg (by simp [hon, hhalted])]
    simp only [State.debugRead, Bool.false_eq_true, if_false, ofNat_setWidth_reg]
    exact fin_calm hs rfl rfl rfl rfl rfl
  · have hrow : exec (.debugRegisterAccess x false (r.setWidth 12) bank (some w)) s =
        fin s (s.debugReg x.toNat false (r.setWidth 12).toNat bank.toNat (some w)) :=
      congrArg (fin s) (if_pos (.inr (reg_setWidth_lt r)))
    refine ⟨s.setCtx x.toNat ((s.ctx x.toNat).wrKey (regKey bank.toNat r) w), ?_, rfl, ?_, fun k hk => ?_⟩
    · rw [hrow, State.debugReg, if_neg (by simp [hon, hhalted])]
      simp only [Bool.false_eq_true, if_false, ofNat_setWidth_reg, State.updCtx_eq]
      exact fin_calm hs rfl rfl rfl rfl rfl
    · rw [State.ctx_setCtx_self, Ctx.rdKey_wrKey, if_neg (regKey_ne_zero _ hne), if_pos rfl]
    · rw [State.ctx_setCtx_self, Ctx.rdKey_wrKey, if_neg (Ne.symm hk)]
      split
      · next h0 =>
        rw [h0]
        rfl
      · rfl
  · have hcoh := State.contents_cohRead s none (pa.toNat / 64)
    have hrow : exec (.debugMemoryAccess pa none) s = fin s (s.debugMem pa.toNat none) := congrArg (fin s) (if_pos halign)
    have hmem : s.debugMem pa.toNat none = { s.cohRead none (pa.toNat / 64) with answer := some ((s.cohRead none (pa.toNat / 64)).word pa.toNat) } := by
      unfold State.debugMem
      rw [if_neg (by simp [hon, halign, hprt])]
      simp only [hdram, State.engRead, Traffic.confirmLine hw, hpoison, Bool.false_eq_true, if_false, State.extRead]
    have htraf := (Traffic.refl s).cohRead none (pa.toNat / 64)
    obtain ⟨u, hu⟩ : ∃ u, s.cohRead none (pa.toNat / 64) = u := ⟨_, rfl⟩
    rw [hu] at hcoh hmem htraf
    obtain ⟨hm, ht⟩ := Prod.mk.inj hcoh
    refine ⟨{ u with answer := some (u.word pa.toNat) }, ?_, congrArg some (State.word_congr hm ht _), hm, ht⟩
    rw [hrow, hmem]
    exact fin_next (htraf.calm hs) (by rw [htraf.rest])
  · have hrow : exec (.debugMemoryAccess pa (some w)) s = fin s (s.debugMem pa.toNat (some w)) := congrArg (fin s) (if_pos halign)
    have hmem : s.debugMem pa.toNat (some w) = s.busWrite pa.toNat w := by
      unfold State.debugMem
      rw [if_neg (by simp [hon, halign, hprt])]
      simp only [hdram]
      rw [State.memStore, if_neg (by decide), State.key, if_neg (by simp [hdram]), merged, if_pos rfl, Nat.div_mul_cancel (Nat.dvd_of_mod_eq_zero halign)]
    refine ⟨s.busWrite pa.toNat w, ?_, State.word_busWrite_self hw _ _, fun a ha => State.bytes_busWrite_ne hw _ ha⟩
    rw [hrow, hmem]
    exact fin_next ((Traffic.busWrite hw _ _).calm hs) (by rw [(Traffic.busWrite hw _ _).rest])

end Sys2Proof.Machine
end

section
/-!
PROOFS. What the completion of a command may change beside what the command did (R313, R335, R470, R738): an engine absorbs what it was sent and
may overflow or meet an error, which asserts events. Modes and recoveries of twins, the SATB queues' ends and the registers outside the engines,
the heaps' status words and the coalescing counters stay.
-/
namespace Sys2Proof.Machine

/-- A register that absorption leaves alone. -/
def steadyReg (off : Nat) : Prop :=
  pageOf off < 0x20 ∧ (∀ h, off ≠ oHeap h + 0x30) ∧ (off < oEvr + 0x1400 ∨ oEvr + 0x1800 ≤ off)

/-- The machine after some events and submissions have reached their targets. -/
structure Aftermath (s u : State) : Prop where
  rest : u = { s with
    ctxs := u.ctxs, dev := u.dev, cores := u.cores, clusters := u.clusters, backing := u.backing, txns := u.txns, mem := u.mem
    tags := u.tags, outbox := u.outbox, twins := u.twins, sys := { s.sys with wakeReq := u.sys.wakeReq } }
  mode : ∀ t, (u.twin t).mode = (s.twin t).mode
  recov : ∀ t, (u.twin t).recov = (s.twin t).recov
  queue : ∀ x, (u.ctx x).sp Sr.sqt = (s.ctx x).sp Sr.sqt
  reg : ∀ off, steadyReg off → u.reg off = s.reg off

namespace Aftermath

variable {s u v : State}

theorem refl (s : State) : Aftermath s s := ⟨rfl, fun _ => rfl, fun _ => rfl, fun _ => rfl, fun _ _ => rfl⟩

theorem trans (h : Aftermath s u) (g : Aftermath u v) : Aftermath s v := by
  refine ⟨?_, fun t => (g.mode t).trans (h.mode t), fun t => (g.recov t).trans (h.recov t), fun x => (g.queue x).trans (h.queue x),
    fun off ho => (g.reg off ho).trans (h.reg off ho)⟩
  rw [g.rest, h.rest]

theorem foldl_mem {β : Type} {f : State → β → State} {l : List β} (hf : ∀ s, ∀ b ∈ l, Aftermath s (f s b)) (s : State) : Aftermath s (l.foldl f s) := by
  induction l generalizing s with
  | nil => exact refl s
  | cons b l ih => exact (hf s b List.mem_cons_self).trans (ih (fun s c hc => hf s c (List.mem_cons_of_mem _ hc)) _)

theorem foldl {β : Type} {f : State → β → State} (hf : ∀ s b, Aftermath s (f s b)) (l : List β) (s : State) : Aftermath s (l.foldl f s) :=
  foldl_mem (fun s b _ => hf s b) s

/-- Traffic past the caches. -/
theorem of_traffic (h : Traffic s u) : Aftermath s u := by
  refine ⟨?_, fun t => ?_, fun t => ?_, fun x => ?_, fun off _ => h.reg off⟩
  · rw [h.rest]
  · rw [State.twin, h.twins]; rfl
  · rw [State.twin, h.twins]; rfl
  · rw [h.ctx]

theorem setReg (s : State) {off : Nat} (hoff : ¬ steadyReg off) (v : Pay) : Aftermath s (s.setReg off v) :=
  ⟨rfl, fun _ => rfl, fun _ => rfl, fun _ => rfl, fun _ hj => State.reg_setReg_ne s v (fun h => hoff (h ▸ hj))⟩

/-- One context changes, not its SQT. -/
theorem setCtx (s : State) (x : Nat) {c : Ctx} (hc : c.sp Sr.sqt = (s.ctx x).sp Sr.sqt) : Aftermath s (s.setCtx x c) := by
  refine ⟨rfl, fun _ => rfl, fun _ => rfl, fun y => ?_, fun _ _ => rfl⟩
  rw [State.ctx_setCtx]
  split
  · next h => rw [← h, hc]
  · rfl

theorem updCtx (s : State) (x : Nat) {f : Ctx → Ctx} (hf : ∀ c, (f c).sp Sr.sqt = c.sp Sr.sqt) : Aftermath s (s.updCtx x f) := by
  rw [State.updCtx_eq]
  exact setCtx s x (hf _)

/-- One twin changes, neither its mode nor its recovery. -/
theorem setTwin (s : State) (t : Nat) {w : Twin} (hm : w.mode = (s.twin t).mode) (hr : w.recov = (s.twin t).recov) : Aftermath s (s.setTwin t w) := by
  refine ⟨rfl, fun u => ?_, fun u => ?_, fun _ => rfl, fun _ _ => rfl⟩ <;> rw [State.twin_setTwin] <;> split
  · next h => rw [← h, hm]
  · rfl
  · next h => rw [← h, hr]
  · rfl

theorem updTwin (s : State) (t : Nat) {f : Twin → Twin} (hm : ∀ w, (f w).mode = w.mode) (hr : ∀ w, (f w).recov = w.recov) :
    Aftermath s (s.updTwin t f) := setTwin s t (hm _) (hr _)

theorem updCluster (s : State) (n : Nat) (f : Cluster → Cluster) : Aftermath s (s.updCluster n f) :=
  ⟨rfl, fun _ => rfl, fun _ => rfl, fun _ => rfl, fun _ _ => rfl⟩

theorem wake (s : State) : Aftermath s { s with sys := { s.sys with wakeReq := true } } :=
  ⟨rfl, fun _ => rfl, fun _ => rfl, fun _ => rfl, fun _ _ => rfl⟩

end Aftermath

theorem firstN_lt {n i j : Nat} {p : Nat → Bool} (h : firstN n i p = some j) : j < i + n := by
  induction n generalizing i with
  | zero => cases h
  | succ n ih =>
    unfold firstN at h
    split at h
    · cases h
      omega
    · have := ih h
      omega

/-! ### Retirement -/

theorem sqt_apart : Sr.pc ≠ Sr.sqt ∧ ∀ j ≤ 2, Sr.lc0 + j ≠ Sr.sqt := by
  decide

theorem Ctx.sqt_endLevel (j : Nat) (c : Ctx) (next : Pay) (hj : j ≤ 2) : (c.endLevel next j).sp Sr.sqt = c.sp Sr.sqt := by
  have hpc : ∀ (c : Ctx) (v : Pay), (c.setPc v).sp Sr.sqt = c.sp Sr.sqt := fun c v => by rw [Ctx.setPc, Ctx.sp_setSp, if_neg sqt_apart.1]
  have hlc : ∀ (c : Ctx) (j : Nat) (v : Pay), j ≤ 2 → (c.setSp (Sr.lc0 + j) v).sp Sr.sqt = c.sp Sr.sqt :=
    fun c j v hj => by rw [Ctx.sp_setSp, if_neg (sqt_apart.2 j hj)]
  induction j generalizing c with
  | zero =>
    unfold Ctx.endLevel
    split <;> rw [hpc, hlc c 0 _ (by decide)]
  | succ j ih =>
    unfold Ctx.endLevel
    split
    · rw [hpc, hlc c (j + 1) _ hj]
    · dsimp only
      split
      · rw [ih _ (by omega), hlc c (j + 1) _ hj]
      · rw [hpc, hlc c (j + 1) _ hj]

theorem Ctx.innermost_le {c : Ctx} {j : Nat} (h : c.innermost = some j) : j ≤ 2 := by
  unfold Ctx.innermost at h
  split_ifs at h <;> cases h <;> decide

theorem Ctx.sqt_endAction (c : Ctx) (slots : List Pay) (next : Pay) : (c.endAction slots next).sp Sr.sqt = c.sp Sr.sqt := by
  have hpc : (c.setPc next).sp Sr.sqt = c.sp Sr.sqt := by rw [Ctx.setPc, Ctx.sp_setSp, if_neg sqt_apart.1]
  unfold Ctx.endAction
  split
  · next j hj =>
    split
    · exact Ctx.sqt_endLevel j c next (Ctx.innermost_le hj)
    · exact hpc
  · exact hpc

namespace Aftermath

variable {s u : State}

theorem sign (s : State) (t : Nat) (ws : List Pay) : Aftermath s (s.sign t ws) := updTwin s t (by intro; rfl) (by intro; rfl)

theorem wrRegBank (s : State) (x : Nat) (r : BitVec 5) (bank : Nat) (w : Word) : Aftermath s (s.wrRegBank x r bank w) := by
  have hset : Aftermath s (s.updCtx x (fun c => c.wrKey (regKey bank r) w)) := updCtx s x (fun c => by rw [Ctx.wrKey]; split <;> rfl)
  unfold State.wrRegBank
  dsimp only
  split
  · exact hset.trans (sign _ _ _)
  · exact hset

theorem landLoads (s : State) (x : Nat) : Aftermath s (s.landLoads x) := by
  unfold State.landLoads
  exact (foldl (fun s (p : PendLoad) => wrRegBank s x p.reg p.bank p.val) _ s).trans (updCtx _ x (by intro; rfl))

theorem retireMark (s : State) (x : Nat) : Aftermath s (s.retireMark x) := by
  have hctx : Aftermath s (s.updCtx x (fun c =>
      { c.stepEnd with fresh := false, grants := [], obs := [], inflight := false, slot := none, run := .run })) := by
    refine updCtx s x (fun c => ?_)
    unfold Ctx.stepEnd
    split <;> rfl
  unfold State.retireMark
  dsimp only
  split
  · exact hctx.trans (updTwin _ _ (by intro; rfl) (by intro; rfl))
  · exact hctx

theorem retire (s : State) (x : Nat) (slots : List Pay) (next : Pay) : Aftermath s (s.retire x slots next none) :=
  ((landLoads s x).trans (retireMark _ x)).trans (updCtx _ x (fun c => c.sqt_endAction slots next))

/-! ### Events -/

theorem wakeWait (s : State) (x : Nat) : Aftermath s (s.wakeWait x) := by
  have hlatch : Aftermath s (s.updCtx x (fun c => { c with latch := false })) := updCtx s x (by intro; rfl)
  unfold State.wakeWait
  dsimp only
  split
  · exact refl s
  · split
    · exact refl s
    · split
      · exact hlatch.trans (retire _ _ _ _)
      · exact (hlatch.trans (wrRegBank _ x _ _ _)).trans (retire _ _ _ _)
      · exact refl s

theorem latchCtx (s : State) (x : Nat) : Aftermath s (s.latchCtx x) := (updCtx s x (by intro; rfl)).trans (wakeWait _ x)

theorem wantWake (s : State) (x : Nat) : Aftermath s (s.wantWake x) := by
  unfold State.wantWake
  split
  · exact wake s
  · exact refl s

theorem setLatch (s : State) (x : Nat) : Aftermath s (s.setLatch x) := by
  unfold State.setLatch
  dsimp only
  split
  · exact foldl latchCtx _ s
  · exact (updCtx s _ (by intro; rfl)).trans (wantWake _ _)

theorem setLine (s : State) (x n : Nat) (tm : Pay) : Aftermath s (s.setLine x n tm) := by
  unfold State.setLine
  dsimp only
  split
  · exact foldl (fun s y => updCtx s y (by intro; rfl)) _ s
  · exact (updCtx s _ (by intro; rfl)).trans (wantWake _ _)

theorem assertSource (s : State) {i : Nat} (hi : i < 0x80) : Aftermath s (s.assertSource i) := by
  unfold State.assertSource
  dsimp only
  split
  · exact refl s
  · next hb =>
    have hcoal : Aftermath s (s.setRf (oEvr + 0x1400 + 8 * i) 31 0 (satInc 32 (s.rf (oEvr + 0x1400 + 8 * i) 31 0))) := by
      rw [State.setRf_eq]
      refine setReg s ?_ _
      intro ⟨_, _, hout⟩
      omega
    have hline : Aftermath s (if bit (s.reg (oEvr + 0x1000 + 8 * i)) 61 = true then
        (if ((s.ctx (s.presented (fld (s.reg (oEvr + 0x1000 + 8 * i)) 55 48))).lines.any (fun l => l.n = fld (s.reg (oEvr + 0x1000 + 8 * i)) 45 40) ||
          (s.ctx (s.presented (fld (s.reg (oEvr + 0x1000 + 8 * i)) 55 48))).linesHeld.any (fun l => l.n = fld (s.reg (oEvr + 0x1000 + 8 * i)) 45 40)) = true
        then s.setRf (oEvr + 0x1400 + 8 * i) 31 0 (satInc 32 (s.rf (oEvr + 0x1400 + 8 * i) 31 0)) else s).setLine
          (fld (s.reg (oEvr + 0x1000 + 8 * i)) 55 48) (fld (s.reg (oEvr + 0x1000 + 8 * i)) 45 40) s.time else s) := by
      split
      · split
        · exact hcoal.trans (setLine _ _ _ _)
        · exact setLine s _ _ _
      · exact refl s
    split
    · exact hline.trans (setLatch _ _)
    · exact hline

/-! ### Absorption -/

theorem confirm (s : State) (t : Nat) : Aftermath s (s.confirm t) := by
  have hset := setTwin s t (w := { s.twin t with groups := 0, misr := misrSeed, undo := [], sqtConf := [], hold := [] }) rfl rfl
  have hwake : Aftermath s ((s.setTwin t { s.twin t with groups := 0, misr := misrSeed, undo := [], sqtConf := [], hold := [] }).wakeWindow t) :=
    hset.trans (foldl (fun s (e : Nat × Ctx) => updCtx s e.1 (by intro; rfl)) _ _)
  exact ⟨by rw [State.confirm, hwake.rest], hwake.mode, hwake.recov, hwake.queue, hwake.reg⟩

theorem confirmLine (s : State) (line : Nat) : Aftermath s (s.confirmLine line) := foldl (fun s (e : Nat × Twin) => confirm s e.1) _ s

theorem busWrite (s : State) (k : Nat) (w : Word) : Aftermath s (s.busWrite k w) :=
  (confirmLine s _).trans (of_traffic (((Traffic.refl _).cohWrite none none _).setWord _ _))

theorem gcWrite (s : State) (pa : Nat) (w : Word) : Aftermath s (s.gcWrite pa w) := by
  unfold State.gcWrite State.engWrite
  split
  · split
    · exact refl s
    · exact busWrite s _ _
  · exact refl s

theorem gcEvent (s : State) {h : Nat} (hh : h < 4) : Aftermath s (s.gcEvent h) := assertSource s (by omega)

/-- The registers of a Scavenge Engine. -/
theorem not_steady_oSe (n : Nat) {o : Nat} (ho : o < 0xC000) : ¬ steadyReg (oSe n + o) := by
  intro ⟨hpage, _, _⟩
  simp only [pageOf, oSe, oCl] at hpage
  omega

theorem setSeStat (s : State) (n b : Nat) (v : Bool) : Aftermath s (s.setSeStat n b v) := setReg s (not_steady_oSe n (by decide)) _
theorem setHeapStat (s : State) (h b : Nat) (v : Bool) : Aftermath s (s.setHeapStat h b v) := setReg s (fun hs => hs.2.1 h rfl) _

theorem seUnsound (s : State) (n pa : Nat) {h : Nat} (hh : h < 4) : Aftermath s (s.seUnsound n h pa) :=
  (((setReg s (not_steady_oSe n (by decide)) _).trans (setSeStat _ _ _ _)).trans (setHeapStat _ _ _ _)).trans (gcEvent _ hh)

theorem seLost (s : State) (n phase pa : Nat) : Aftermath s (s.seLost n phase pa) := by
  unfold State.seLost
  split
  · exact (setReg s (not_steady_oSe n (by decide)) _).trans (setSeStat _ _ _ _)
  · refine foldl_mem (fun s h hmem => seUnsound s n pa ?_) s
    have hin := (List.mem_filter.mp hmem).1
    simp only [List.mem_cons, List.not_mem_nil, or_false] at hin
    omega

theorem spCheck (s : State) (n : Nat) : Aftermath s (s.spCheck n) := by
  unfold State.spCheck
  split
  · exact refl s
  · dsimp only
    split
    · next h hh => exact (setSeStat s n _ _).trans (gcEvent _ (firstN_lt hh))
    · exact setSeStat s n _ _

theorem spillMark (s : State) (n : Nat) (w : Word) : Aftermath s (s.spillMark n w) := by
  unfold State.spillMark
  dsimp only
  split
  · exact gcWrite s _ _
  · exact refl s

theorem pushMark (s : State) (n : Nat) (ws : List Word) : Aftermath s (s.pushMark n ws) :=
  (foldl (fun s w => (spillMark s n w).trans (updCluster _ n _)) _ s).trans (spCheck _ n)

theorem wakeReg (s : State) (off : Nat) : Aftermath s (s.wakeReg off) := foldl (fun s (e : Nat × Ctx) => updCtx s e.1 (by intro; rfl)) _ s

theorem absorbN (n fuel : Nat) (s : State) : Aftermath s (Machine.absorbN n fuel s) := by
  induction fuel generalizing s with
  | zero => exact refl s
  | succ fuel ih =>
    unfold Machine.absorbN
    split
    · exact refl s
    · next i is hin =>
      split
      · exact refl s
      · dsimp only
        have hupd := updCluster s n (fun c => { c with intake := is, absorbed := c.absorbed + i.words.length })
        split
        · exact ((hupd.trans (seLost _ _ _ _)).trans (pushMark _ _ _)).trans (ih _)
        · exact (hupd.trans (pushMark _ _ _)).trans (ih _)

theorem absorbAll (s : State) : Aftermath s s.absorbAll :=
  foldl (fun s (e : Nat × Cluster) => (absorbN e.1 e.2.intake.length s).trans (foldl (fun s _ => wakeReg s _) _ _)) _ s

end Aftermath

/-! ### The end of a command that sent nothing out (R313, R673) -/

/-- The clocks of gated clusters come back. -/
theorem State.clearGates (l : List Nat) (hl : ∀ n ∈ l, n < 8) (s : State) :
    ∃ os, RegsOnly s os (l.foldl (fun s n => s.setReg (0x100 + 8 * n) (setBit (s.reg (0x100 + 8 * n)) 16 false)) s) ∧
      ∀ o ∈ os, 0x100 ≤ o ∧ o < 0x140 := by
  induction l generalizing s with
  | nil => exact ⟨[], RegsOnly.refl s _, by simp⟩
  | cons n l ih =>
    obtain ⟨os, hregs, hos⟩ := ih (fun m hm => hl m (List.mem_cons_of_mem _ hm)) (s.setReg (0x100 + 8 * n) (setBit (s.reg (0x100 + 8 * n)) 16 false))
    have hn := hl n List.mem_cons_self
    refine ⟨_, (RegsOnly.setReg s _ _).trans hregs, fun o ho => ?_⟩
    rw [List.singleton_append, List.mem_cons] at ho
    obtain rfl | ho := ho
    · omega
    · exact hos o ho

/-- What a wake changes. -/
theorem State.startWake_rest (s : State) : ∃ t, s.startWake = t ∧ t = { s with dev := t.dev, sys := t.sys } ∧
    ∀ off, off ≠ 0x10 → off < 0x100 ∨ 0x140 ≤ off → t.reg off = s.reg off := by
  obtain ⟨os, hregs, hos⟩ := State.clearGates gatedClusters (by decide) s
  unfold State.startWake
  dsimp only
  obtain ⟨u, hu⟩ : ∃ u, gatedClusters.foldl (fun s n => s.setReg (0x100 + 8 * n) (setBit (s.reg (0x100 + 8 * n)) 16 false)) s = u := ⟨_, rfl⟩
  rw [hu] at hregs ⊢
  have hset := hregs.trans (RegsOnly.setRf u 0x10 15 15 1)
  obtain ⟨v, hv⟩ : ∃ v, u.setRf 0x10 15 15 1 = v := ⟨_, rfl⟩
  rw [hv] at hset ⊢
  refine ⟨_, rfl, by rw [hset.rest]; rfl, fun off hsys hcl => hset.others off ?_⟩
  intro hmem
  rw [List.mem_append, List.mem_singleton] at hmem
  obtain hmem | hmem := hmem
  · have := hos off hmem
    omega
  · exact hsys hmem

theorem State.checkWake_rest (s : State) : ∃ t, s.checkWake = t ∧ t = { s with dev := t.dev, sys := t.sys } ∧
    ∀ off, off ≠ 0x10 → off < 0x100 ∨ 0x140 ≤ off → t.reg off = s.reg off := by
  unfold State.checkWake
  split
  · exact s.startWake_rest
  · exact ⟨s, rfl, rfl, fun _ _ _ => rfl⟩

/-- With no output on its way and nothing to restart, a command's completion is absorption and, in Quiet, a wake. -/
theorem State.settle_aftermath {s : State} (ho : s.outbox = []) (hl : s.ldg.restart = []) : ∃ v, Aftermath s v ∧ s.settle = v.checkWake := by
  have hout : settleN 4096 s = s := by
    rw [settleN, ho]
  have hafter := Aftermath.absorbAll s
  refine ⟨s.absorbAll, hafter, ?_⟩
  have hrestart : s.absorbAll.restartDue = s.absorbAll := by
    unfold State.restartDue
    rw [if_pos]
    rw [hafter.rest]
    exact List.isEmpty_iff.mpr hl
  rw [State.settle, hout, hrestart]

end Sys2Proof.Machine
end

section
/-!
PROOFS. What follows by itself from a changed condition (R650, R652, R653, R662), and telemetry (R720): which registers they change.
-/
namespace Sys2Proof.Machine

/-- The machine with its mode, SYS_STAT and a waiting automatic Safe-Hold brought up to date. -/
structure Refreshed (s t : State) : Prop where
  rest : t = { s with dev := t.dev, sys := { s.sys with autoSafe := t.sys.autoSafe } }
  others : ∀ off, off ≠ 0x10 → off ≠ 0x28 → t.reg off = s.reg off

namespace Refreshed

variable {s t u : State}

theorem refl (s : State) : Refreshed s s := ⟨rfl, fun _ _ _ => rfl⟩

theorem trans (h : Refreshed s t) (g : Refreshed t u) : Refreshed s u := by
  refine ⟨?_, fun off h1 h2 => (g.others off h1 h2).trans (h.others off h1 h2)⟩
  rw [g.rest, h.rest]

theorem setReg_mode (s : State) (v : Pay) : Refreshed s (s.setReg 0x10 v) := ⟨rfl, fun _ h _ => State.reg_setReg_ne _ _ (Ne.symm h)⟩
theorem setReg_stat (s : State) (v : Pay) : Refreshed s (s.setReg 0x28 v) := ⟨rfl, fun _ _ h => State.reg_setReg_ne _ _ (Ne.symm h)⟩
theorem sysStat (s : State) (b : Nat) (v : Bool) : Refreshed s (s.sysStat b v) := setReg_stat s _
theorem setMode (s : State) (m : Nat) : Refreshed s (s.setMode m) := (setReg_mode s _).trans (setReg_mode _ _)

theorem showDegraded (s : State) : Refreshed s s.showDegraded :=
  (((sysStat s _ _).trans (sysStat _ _ _)).trans (sysStat _ _ _)).trans (sysStat _ _ _)

theorem autoSafeHold (s : State) : Refreshed s s.autoSafeHold := by
  unfold State.autoSafeHold
  split
  · exact ⟨rfl, fun _ _ _ => rfl⟩
  · split
    · exact setMode s _
    · exact refl s

theorem checkKeep (s : State) : Refreshed s s.checkKeep := by
  unfold State.checkKeep
  split
  · exact refl s
  · exact (sysStat s _ _).trans (autoSafeHold _)

theorem refresh (s : State) : Refreshed s s.refresh := by
  have hshown := (showDegraded s).trans (checkKeep _)
  unfold State.refresh
  dsimp only
  split
  · exact (hshown.trans (setMode _ _)).trans (sysStat _ _ _)
  · split
    · exact (hshown.trans (setMode _ _)).trans (sysStat _ _ _)
    · exact hshown.trans (sysStat _ _ _)

theorem fin (hs : s.calm = true) (h : Refreshed s t) : Machine.fin s t = .next t := by
  rw [h.rest]
  exact fin_calm hs rfl rfl rfl rfl rfl

end Refreshed

/-! ### Telemetry -/

/-- The machine with more telemetry and some registers written. -/
structure Recorded (s : State) (os : List Nat) (t : State) : Prop where
  rest : t = { s with dev := t.dev, bgs := t.bgs }
  others : ∀ off, off ∉ os → t.reg off = s.reg off

namespace Recorded

variable {s t u : State} {os ps : List Nat}

theorem of_regs (h : RegsOnly s os t) : Recorded s os t := ⟨by rw [h.rest], h.others⟩

theorem trans (h : Recorded s os t) (g : Recorded t ps u) : Recorded s (os ++ ps) u := by
  refine ⟨by rw [g.rest, h.rest], fun off hoff => ?_⟩
  rw [List.mem_append, not_or] at hoff
  rw [g.others off hoff.2, h.others off hoff.1]

theorem mono (h : Recorded s os t) (hsub : ∀ o ∈ os, o ∈ ps) : Recorded s ps t := ⟨h.rest, fun off hoff => h.others off (fun ho => hoff (hsub off ho))⟩

theorem setReg (s : State) (off : Nat) (v : Pay) : Recorded s [off] (s.setReg off v) := of_regs (RegsOnly.setReg s off v)

theorem telem (s : State) (src code : Nat) (addr extra : Pay) : Recorded s [oBgs + 0x30] (s.telem src code addr extra) := by
  have hseq := RegsOnly.setRf s (oBgs + 0x30) 31 0 (s.rf (oBgs + 0x30) 31 0 + 1)
  unfold State.telem
  dsimp only
  split
  · exact ⟨rfl, fun _ _ => rfl⟩
  · exact ⟨rfl, hseq.others⟩

theorem fin (hs : s.calm = true) (h : Recorded s os t) : Machine.fin s t = .next t := by
  rw [h.rest]
  exact fin_calm hs rfl rfl rfl rfl rfl

end Recorded

end Sys2Proof.Machine
end

section
/-!
PROOFS. The background services (O55).
-/
namespace Sys2Proof.Machine

/-! ### Recovery (R503) -/

/-- The machine after a twin has stopped for its recovery: nothing has left the device, and the Ledger is as it was. -/
def Halts (s u : State) : Prop :=
  u = { s with
    dev := u.dev, ctxs := u.ctxs, cores := u.cores, clusters := u.clusters, backing := u.backing, mem := u.mem, tags := u.tags, twins := u.twins
    txns := u.txns }

theorem Halts.trans {s t u : State} (h : Halts s t) (g : Halts t u) : Halts s u := by
  unfold Halts at h g ⊢
  rw [g, h]

theorem Halts.foldl {β : Type} {f : State → β → State} (hf : ∀ s b, Halts s (f s b)) (l : List β) (s : State) : Halts s (l.foldl f s) := by
  induction l generalizing s with
  | nil => exact rfl
  | cons b l ih => exact (hf s b).trans (ih _)

theorem Halts.undoAll (us : List (Nat × Word)) (s : State) : Halts s (Machine.undoAll us s) := by
  induction us generalizing s with
  | nil => exact rfl
  | cons e us ih =>
    have hset : Halts s (s.setWord e.1 e.2) := by
      have h := (((Traffic.refl s).setWord e.1 e.2).rest)
      unfold Halts
      rw [h]
    exact hset.trans (ih _)

theorem Halts.updCtx (s : State) (x : Nat) (f : Ctx → Ctx) : Halts s (s.updCtx x f) := rfl
theorem Halts.updCore (s : State) (k : Nat) (f : Core → Core) : Halts s (s.updCore k f) := rfl
theorem Halts.backing (s : State) (b : Tbl (List Word)) : Halts s { s with backing := b } := rfl
theorem Halts.setTwin (s : State) (t : Nat) (w : Twin) : Halts s (s.setTwin t w) := rfl

theorem Halts.rollback (s : State) (t : Nat) : Halts s (s.rollback t) := by
  unfold State.rollback
  extract_lets w s1 lines s2 s3
  have h1 : Halts s s1 := Halts.undoAll _ s
  have h2 : Halts s1 s2 := by
    refine Halts.foldl (fun s l => ?_) lines s1
    extract_lets u
    have hu : Halts s u := Halts.updCore s _ _
    clear_value u
    split
    · split
      · exact hu
      · exact hu.trans (Halts.backing u _)
    · exact hu.trans (Halts.backing u _)
  have h3 : Halts s2 s3 := Halts.foldl (fun s (e : Nat × Pay) => Halts.updCtx s e.1 _) _ s2
  exact ((h1.trans h2).trans h3).trans (Halts.setTwin s3 _ _)

theorem Halts.submitSatb (s : State) (x : Nat) : Halts s (s.submitSatb x) := by
  unfold State.submitSatb
  dsimp only
  split <;> rfl

theorem Halts.passRole (s : State) (t : Nat) : Halts s (s.passRole t) := by
  unfold State.passRole
  split <;> rfl

theorem Halts.freeze (s : State) (xs : List Nat) : Halts s (s.freeze xs) := Halts.foldl (fun s x => Halts.updCtx s x _) xs s

theorem State.twin_freeze (s : State) (xs : List Nat) (t : Nat) : (s.freeze xs).twin t = s.twin t := by
  unfold State.freeze
  obtain ⟨cs, hcs⟩ := foldl_ctxs (f := fun s x => s.updCtx x (fun c => { c with frozen := true })) (fun _ _ => ⟨_, rfl⟩) xs s
  rw [hcs]
  rfl

theorem State.twin_passRole (s : State) (t u : Nat) : (s.passRole t).twin u = s.twin u := by
  unfold State.passRole
  split <;> rfl

/-- A twin that may recover stops, and holds its recovery. -/
theorem State.startRecovery_starts (s : State) {t : Nat} (cause aux : Nat) (d2 d3 : Pay) (next : Bool) (hnone : (s.twin t).recov = none)
    (hruns : (s.twin t).mode = .tight ∨ (s.twin t).mode = .loose) :
    Halts s (s.startRecovery t cause aux d2 d3 next) ∧ ((s.startRecovery t cause aux d2 d3 next).twin t).recov.isSome = true := by
  unfold State.startRecovery
  extract_lets w a b s1 s2 s3
  rw [if_neg (by rcases hruns with h | h <;> simp [w, hnone, h])]
  have ha : Halts s a := by
    simp only [a]
    split
    · split <;> rfl
    · rfl
  clear_value a
  have horphan : Halts (a.rollback t) ((a.rollback t).orphanTxns t) := rfl
  have hb : Halts a b := ((Halts.rollback a t).trans horphan).trans (Halts.foldl Halts.submitSatb _ _)
  clear_value b
  have h1 : Halts b s1 := Halts.foldl (fun s x => Halts.updCtx s x _) _ b
  clear_value s1
  have h2 : Halts s1 s2 := Halts.setTwin s1 _ _
  have hrecov : (s2.twin t).recov.isSome = true := by
    simp only [s2, State.updTwin, State.twin_setTwin_self, Option.isSome_some]
  clear_value s2
  have h3 : Halts s2 s3 := rfl
  have htwin : s3.twin t = s2.twin t := rfl
  have hs : Halts s s3 := (((ha.trans hb).trans h1).trans h2).trans h3
  clear_value s3
  refine ⟨hs.trans ((Halts.freeze s3 _).trans (Halts.passRole _ t)), ?_⟩
  rw [State.twin_passRole, State.twin_freeze, htwin]
  exact hrecov

/-! ### The patrol (R707, R708) -/

theorem State.dramSize_le (s : State) : s.dramSize ≤ 2 ^ 48 := by
  have h : s.dcfg.toNat < 4 := s.dcfg.isLt
  unfold State.dramSize
  calc 0x200000000 * 2 ^ s.dcfg.toNat ≤ 0x200000000 * 2 ^ 4 := Nat.mul_le_mul_left _ (Nat.pow_le_pow_right (by decide) (by omega))
    _ ≤ 2 ^ 48 := by decide

/-- The line after one inside DRAM. -/
theorem State.patrol_next {s : State} (hruns : s.bgsRuns = true) (hon : bit (s.reg (oBgs + 0x10)) 0 = true) (hfree : s.fabricFree 0x46 = true)
    (hin : s.rf (oBgs + 0x20) 47 6 * 64 + 64 < s.dramSize) :
    s.patrol .clean = s.setRf (oBgs + 0x20) 47 6 (s.rf (oBgs + 0x20) 47 6 + 1) := by
  unfold State.patrol
  rw [if_neg (by simp [hruns, hon, hfree])]
  dsimp only
  rw [if_pos hin, Nat.mul_div_cancel _ (by decide)]

theorem State.patrol_wraps {s : State} (hruns : s.bgsRuns = true) (hon : bit (s.reg (oBgs + 0x10)) 0 = true) (hfree : s.fabricFree 0x46 = true)
    (hout : s.dramSize ≤ s.rf (oBgs + 0x20) 47 6 * 64 + 64) :
    ∃ t os, s.patrol .clean = t ∧ Recorded s os t ∧ t.rf (oBgs + 0x20) 47 6 = 0 ∧
      t.rf (oBgs + 0x20) 63 48 = satInc 16 (s.rf (oBgs + 0x20) 63 48) := by
  obtain ⟨u, hu⟩ : ∃ u, (s.setRf (oBgs + 0x20) 47 6 0).bump (oBgs + 0x20) 63 48 = u := ⟨_, rfl⟩
  have hpatrol : s.patrol .clean = u.telem 0x46 telPass (p64 (u.rf (oBgs + 0x20) 63 48)) := by
    rw [← hu]
    unfold State.patrol
    rw [if_neg (by simp [hruns, hon, hfree])]
    dsimp only
    rw [if_neg (by omega)]
  have hregs : RegsOnly s ([oBgs + 0x20] ++ [oBgs + 0x20]) u := by
    rw [← hu]
    exact (RegsOnly.setRf s _ _ _ _).trans (RegsOnly.setRf _ _ _ _ _)
  have htel := Recorded.telem u 0x46 telPass (p64 (u.rf (oBgs + 0x20) 63 48)) 0
  have hreg := htel.others (oBgs + 0x20) (by decide)
  refine ⟨_, _, hpatrol, (Recorded.of_regs hregs).trans htel, ?_, ?_⟩
  · rw [State.rf, hreg, ← hu, State.bump, State.setRf_eq, State.reg_setReg_self, fld_setFld_disjoint _ _ _ _ _ _ (by decide) (by decide) (.inl (by decide)),
      State.setRf_eq, State.reg_setReg_self, fld_setFld_self _ _ _ _ (by decide) (by decide)]
    rfl
  · have hlt : satInc 16 (s.rf (oBgs + 0x20) 63 48) < 2 ^ 16 := by
      unfold satInc
      split
      · assumption
      · decide
    rw [State.rf, hreg, ← hu, State.bump, State.setRf_eq, State.reg_setReg_self, fld_setFld_self _ _ _ _ (by decide) (by decide), State.setRf_eq, State.rf,
      State.reg_setReg_self, fld_setFld_disjoint _ _ _ _ _ _ (by decide) (by decide) (.inr (by decide))]
    exact Nat.mod_eq_of_lt hlt

/-- An uncorrectable error found by the patrol. -/
theorem State.patrol_bad {s : State} (hruns : s.bgsRuns = true) (hon : bit (s.reg (oBgs + 0x10)) 0 = true) (hfree : s.fabricFree 0x46 = true)
    (hun : s.unbound 0x58 = true) : ∃ t os, s.patrol .bad = t ∧ Recorded s os t ∧
      t.reg (oBgs + 0x28) = (atFld 63 62 1 ||| atFld 48 0 (s.rf (oBgs + 0x20) 47 6 * 64)) ∧ bit (t.reg (oBgs + 0x18)) 62 = true := by
  obtain ⟨a, ha⟩ : ∃ a, s.rf (oBgs + 0x20) 47 6 * 64 = a := ⟨_, rfl⟩
  obtain ⟨u, hu⟩ : ∃ u, s.telem 0x46 telDdrUe (p64 a) = u := ⟨_, rfl⟩
  have htel := Recorded.telem s 0x46 telDdrUe (p64 a) 0
  rw [hu] at htel
  obtain ⟨v, hv⟩ : ∃ v, (u.setReg (oBgs + 0x28) (atFld 63 62 1 ||| atFld 48 0 a)).setReg (oBgs + 0x18) (setBit (u.reg (oBgs + 0x18)) 62 true) = v := ⟨_, rfl⟩
  have hsets : Recorded u ([oBgs + 0x28] ++ [oBgs + 0x18]) v := by
    rw [← hv]
    exact (Recorded.setReg u _ _).trans (Recorded.setReg _ _ _)
  have h28 : v.reg (oBgs + 0x28) = (atFld 63 62 1 ||| atFld 48 0 a) := by
    rw [← hv, State.reg_setReg_ne _ _ (by decide), State.reg_setReg_self]
  have h18 : bit (v.reg (oBgs + 0x18)) 62 = true := by
    rw [← hv, State.reg_setReg_self]
    exact bit_setBit_self _ _ _ (by decide)
  have hunv : v.unbound 0x58 = true := by
    rw [← hun, State.unbound, State.unbound, (htel.trans hsets).others _ (by decide)]
  have herror : u.bgsError (atFld 63 62 1 ||| atFld 48 0 a) = v := by
    rw [State.bgsError, hv, State.assertSource_unbound hunv]
  have hrest : ∃ t os, s.patrol .bad = t ∧ Recorded v os t ∧ ∀ o ∈ os, o = oBgs + 0x20 ∨ o = oBgs + 0x30 := by
    unfold State.patrol
    rw [if_neg (by simp [hruns, hon, hfree])]
    dsimp only
    rw [ha, hu, herror]
    split
    · exact ⟨_, _, rfl, Recorded.of_regs (RegsOnly.setRf v _ _ _ _), by simp⟩
    · obtain ⟨w, hw⟩ : ∃ w, (v.setRf (oBgs + 0x20) 47 6 0).bump (oBgs + 0x20) 63 48 = w := ⟨_, rfl⟩
      have hregs : RegsOnly v ([oBgs + 0x20] ++ [oBgs + 0x20]) w := by
        rw [← hw]
        exact (RegsOnly.setRf v _ _ _ _).trans (RegsOnly.setRf _ _ _ _ _)
      rw [hw]
      exact ⟨_, _, rfl, (Recorded.of_regs hregs).trans (Recorded.telem w _ _ _ _), by simp⟩
  obtain ⟨t, os, ht, hrec, hos⟩ := hrest
  refine ⟨t, _, ht, (htel.trans hsets).trans hrec, ?_, ?_⟩
  · rw [hrec.others _ (fun h => ?_)]
    · rw [ha]
      exact h28
    · rcases hos _ h with h | h <;> simp at h
  · rw [hrec.others _ (fun h => ?_)]
    · exact h18
    · rcases hos _ h with h | h <;> simp at h

/-! ### Keep SRAM, JNV and DRAM (R710, R711, R713, R716) -/

/-- The recheck that still differs starts a recovery of the standby Keeper twin. -/
theorem State.keepRecheck_recovers {s : State} (hs : s.calm = true) (hruns : s.keepRuns = true) {off : Nat} {a b : Word}
    (hdiff : s.bgs.keepDiff = some (off, a, b)) (ha : s.word (keepBase + off) = a) (hb : s.word (keepBase + copyB + off) = b) :
    ∃ t, fin s s.keepRecheck = .next t ∧ t.bgs.keepDiff = none ∧ (t.twin (1 - s.rf (oTwin + 0x28) 62 62)).recov.isSome = true := by
  obtain ⟨k, hk⟩ : ∃ k, 1 - s.rf (oTwin + 0x28) 62 62 = k := ⟨_, rfl⟩
  have hkeeper : k = 0 ∨ k = 1 := by omega
  have hokay : ((s.twin k).mode = .tight ∨ (s.twin k).mode = .loose) ∧ (s.twin k).recov = none := by
    simp only [State.keepRuns, Bool.and_eq_true, Bool.or_eq_true, decide_eq_true_eq, Option.isNone_iff_eq_none] at hruns
    obtain ⟨⟨-, h0⟩, h1⟩ := hruns
    obtain rfl | rfl := hkeeper
    · exact h0
    · exact h1
  obtain ⟨s1, hs1⟩ : ∃ s1, s.updBgs (fun g => { g with keepDiff := none }) = s1 := ⟨_, rfl⟩
  have htwin : s1.twin k = s.twin k := by rw [← hs1]; rfl
  obtain ⟨hhalts, hrecov⟩ := s1.startRecovery_starts (t := k) 9 0 (p64 off) 0 true (by rw [htwin]; exact hokay.2) (by rw [htwin]; exact hokay.1)
  obtain ⟨u, hu⟩ : ∃ u, s1.startRecovery k 9 0 (p64 off) 0 true = u := ⟨_, rfl⟩
  rw [hu] at hhalts hrecov
  have hcheck : s.keepRecheck = u.refresh := by
    rw [← hu, ← hs1, ← hk]
    unfold State.keepRecheck
    rw [hdiff]
    dsimp only
    rw [if_neg (by simp [hruns, ha, hb])]
  have hfresh := (Refreshed.refresh u).rest
  obtain ⟨r, hr⟩ : ∃ r, u.refresh = r := ⟨_, rfl⟩
  rw [hr] at hfresh hcheck
  simp only [State.calm, Bool.and_eq_true, List.isEmpty_iff] at hs
  have hlink : r.outbox = s.outbox ∧ r.ldg = s.ldg ∧ r.bgs.keepDiff = none ∧ r.twins = u.twins := by
    rw [hfresh]
    refine ⟨?_, ?_, ?_, rfl⟩ <;> rw [hhalts, ← hs1] <;> rfl
  obtain ⟨hout, hldg, hnone, htwins⟩ := hlink
  obtain ⟨v, hv, hsettle⟩ := State.settle_aftermath (s := r) (hout.trans hs.1.1.1) (by rw [hldg]; exact hs.1.2)
  obtain ⟨w, hw, hwrest, -⟩ := v.checkWake_rest
  refine ⟨{ w with pending := s.pending }, ?_, ?_, ?_⟩
  · rw [fin, hcheck, hsettle, hw]
  · show w.bgs.keepDiff = none
    rw [hwrest, hv.rest]
    exact hnone
  · rw [hk]
    show (w.twin k).recov.isSome = true
    have hwtwin : w.twin k = v.twin k := by rw [hwrest]; rfl
    rw [hwtwin, hv.recov, State.twin, htwins]
    exact hrecov

/-- A store that waited for the move of its block reaches JNV. -/
theorem State.jnvSwitch_store {s : State} (hs : s.calm = true) (hw : s.noWindows) {m : JnvMove} {x src pa : Nat} {w : Word} {pc : Pay}
    (hm : s.bgs.move = some m) (hwait : m.waiting = [.store x src pa 8 w pc]) (hjnv : s.region pa = .jnv) :
    ∃ t, fin s s.jnvSwitch = .next t ∧ t.bgs.move = none ∧ t.word (s.key src pa / 8 * 8) = w := by
  obtain ⟨u, hu⟩ : ∃ u, s.updBgs (fun g => { g with move := none }) = u := ⟨_, rfl⟩
  have hcalm : u.calm = true := by rw [← hu]; exact hs
  have huw : u.noWindows := by rw [← hu]; exact hw
  have hmove : u.bgs.move = none := by rw [← hu]; rfl
  have hpend : u.pending = s.pending := by rw [← hu]; rfl
  have hkey : u.key src pa = s.key src pa := by rw [← hu]; rfl
  have hregion : u.region pa = .jnv := by rw [← hjnv, ← hu]; rfl
  have hswitch : s.jnvSwitch = { u with outbox := u.outbox ++ [.store x src pa 8 w pc] } := by
    rw [← hu]
    unfold State.jnvSwitch
    rw [hm]
    dsimp only
    rw [hwait]
    rfl
  have hperform : u.perform (.store x src pa 8 w pc) = u.busWrite (s.key src pa / 8 * 8) w := by
    simp only [State.perform, hregion, hmove]
    rw [State.memStore, if_neg (by decide), hkey, merged, if_pos rfl]
  have htraf := Traffic.busWrite huw (s.key src pa / 8 * 8) w
  have hsettle := State.settle_one (o := .store x src pa 8 w pc) hcalm (by rw [hperform]; exact htraf.calm hcalm)
  refine ⟨u.busWrite (s.key src pa / 8 * 8) w, ?_, ?_, State.word_busWrite_self huw _ _⟩
  · rw [fin, hswitch, hsettle, hperform, ← hpend]
    have : (u.busWrite (s.key src pa / 8 * 8) w).pending = u.pending := by rw [htraf.rest]
    rw [← this]
  · rw [htraf.rest]
    exact hmove

/-- A hold of a DRAM channel that was never held begins. -/
theorem State.startHold_eq {s : State} {ch : Nat} (hruns : s.bgsRuns = true) (hnone : Tbl.look s.bgs.holds ch = none)
    (hlast : Tbl.look s.bgs.holds (2 + ch) = none) (ns : Nat) :
    s.startHold ch ns = { s with bgs := { s.bgs with holds := Tbl.insert s.bgs.holds ch (s.time + p64 ns) } } := by
  unfold State.startHold
  rw [hlast]
  dsimp only
  rw [if_neg (by simp [hruns, hnone])]
  rfl

/-- Settles O55: each service on its own. -/
theorem backgroundServices : Obligations.BackgroundServices := by
  unfold Obligations.BackgroundServices
  intro s hs hruns
  refine ⟨fun hon hfree => ⟨fun hin => ?_, fun hout => ?_, fun hun => ?_⟩, fun n hon hcl hen => ?_, fun hkeep hnone => ?_,
    fun off a b hdiff => ⟨fun hne => ?_, fun hkeep ha hb => State.keepRecheck_recovers hs hkeep hdiff ha hb⟩, fun block hnone => ?_,
    fun m hm => ⟨fun hwait => ?_, fun x src pa w pc hw hwait hjnv => State.jnvSwitch_store hs hw hm hwait hjnv⟩,
    fun ch => ⟨fun hnone hlast => ⟨?_, ?_⟩, ?_, fun tm htm => ?_, fun rate => ?_⟩⟩
  · have hlt : s.rf (oBgs + 0x20) 47 6 + 1 < 2 ^ 42 := by
      have := s.dramSize_le
      omega
    have hrow : exec (.patrolRead .clean) s = fin s (s.patrol .clean) := rfl
    refine ⟨_, ?_, RegsOnly.setRf s (oBgs + 0x20) 47 6 (s.rf (oBgs + 0x20) 47 6 + 1), ?_⟩
    · rw [hrow, State.patrol_next hruns hon hfree hin]
      exact (RegsOnly.setRf s _ _ _ _).fin hs
    · rw [State.rf_setRf_self _ _ _ _ _ (by decide) (by decide)]
      exact Nat.mod_eq_of_lt hlt
  · obtain ⟨t, os, ht, hrec, hpos, hpass⟩ := State.patrol_wraps hruns hon hfree hout
    have hrow : exec (.patrolRead .clean) s = fin s (s.patrol .clean) := rfl
    exact ⟨t, by rw [hrow, ht]; exact hrec.fin hs, hrec.rest, hpos, hpass⟩
  · obtain ⟨t, os, ht, hrec, haddr, hstat⟩ := State.patrol_bad hruns hon hfree hun
    have hrow : exec (.patrolRead .bad) s = fin s (s.patrol .bad) := rfl
    exact ⟨t, by rw [hrow, ht]; exact hrec.fin hs, hrec.rest, haddr, hstat⟩
  · obtain ⟨p, hp⟩ : ∃ p, Tbl.set (fun _ => 0) s.bgs.l2Pos n.toNat ((Tbl.get (fun _ => 0) s.bgs.l2Pos n.toNat + 1) % 65536) = p := ⟨_, rfl⟩
    have hscrub : s.l2Scrub n.toNat .clean = { s with bgs := { s.bgs with l2Pos := p } } := by
      rw [← hp]
      unfold State.l2Scrub
      rw [if_neg (by simp [hruns, hon, hcl, hen])]
      dsimp only
      split <;> rfl
    have hrow : exec (.l2Scrub n .clean) s = fin s (s.l2Scrub n.toNat .clean) := rfl
    refine ⟨{ s with bgs := { s.bgs with l2Pos := p } }, ?_, rfl, ?_⟩
    · rw [hrow, hscrub]
      exact fin_calm hs rfl rfl rfl rfl rfl
    · show Tbl.get (fun _ => 0) p n.toNat = _
      rw [← hp, Tbl.get_set_self]
  · have hcompare : s.keepCompare .clean .clean = { s with bgs := { s.bgs with
        keepPos := (s.bgs.keepPos + 8) % 0x400000
        keepDiff := if s.word (keepBase + s.bgs.keepPos) = s.word (keepBase + copyB + s.bgs.keepPos) then none
          else some (s.bgs.keepPos, s.word (keepBase + s.bgs.keepPos), s.word (keepBase + copyB + s.bgs.keepPos)) } } := by
      unfold State.keepCompare
      rw [if_neg (by simp [hkeep, hnone])]
      by_cases hab : s.word (keepBase + s.bgs.keepPos) = s.word (keepBase + copyB + s.bgs.keepPos)
      · simp only [State.keepEcc, State.updBgs, hab, ne_eq, not_true_eq_false, false_and, if_false, if_true]
      · simp only [State.keepEcc, State.updBgs, hab, ne_eq, not_false_eq_true, if_false, reduceCtorEq, and_self, if_true]
    have hrow : exec (.keepCompare .clean .clean) s = fin s (s.keepCompare .clean .clean) := rfl
    refine ⟨_, ?_, rfl⟩
    rw [hrow, hcompare]
    exact fin_calm hs rfl rfl rfl rfl rfl
  · have hcheck : s.keepRecheck = { s with bgs := { s.bgs with keepDiff := none } } := by
      unfold State.keepRecheck
      rw [hdiff]
      dsimp only
      rw [if_pos (.inr hne)]
      rfl
    have hrow : exec .keepRecheck s = fin s s.keepRecheck := rfl
    refine ⟨_, ?_, rfl⟩
    rw [hrow, hcheck]
    exact fin_calm hs rfl rfl rfl rfl rfl
  · have hlt : block.toNat < 0x4000 := block.isLt
    have hmove : s.jnvMove block.toNat = { s with bgs := { s.bgs with move := some ⟨block.toNat, []⟩ } } := by
      unfold State.jnvMove
      rw [if_neg (by simp [hruns, hnone, hlt])]
      rfl
    have hrow : exec (.jnvWearRotation block) s = fin s (s.jnvMove block.toNat) := rfl
    refine ⟨_, ?_, rfl⟩
    rw [hrow, hmove]
    exact fin_calm hs rfl rfl rfl rfl rfl
  · have hswitch : s.jnvSwitch = { s with bgs := { s.bgs with move := none } } := by
      unfold State.jnvSwitch
      rw [hm]
      dsimp only
      rw [hwait, List.append_nil]
      rfl
    have hrow : exec .jnvMoveSwitch s = fin s s.jnvSwitch := rfl
    refine ⟨_, ?_, rfl⟩
    rw [hrow, hswitch]
    exact fin_calm hs rfl rfl rfl rfl rfl
  · have hrow : exec (.zqCalibration ch) s = fin s (s.startHold ch.toNat 1000) := rfl
    refine ⟨{ s with bgs := { s.bgs with holds := Tbl.insert s.bgs.holds ch.toNat (s.time + p64 1000) } }, ?_, rfl, Tbl.look_insert_self _ _ _⟩
    · rw [hrow, State.startHold_eq hruns hnone hlast]
      exact fin_calm hs rfl rfl rfl rfl rfl
  · have hrow : exec (.dqsRetraining ch true) s = fin s (s.startHold ch.toNat 2000) := rfl
    refine ⟨{ s with bgs := { s.bgs with holds := Tbl.insert s.bgs.holds ch.toNat (s.time + p64 2000) } }, ?_, rfl, Tbl.look_insert_self _ _ _⟩
    · rw [hrow, State.startHold_eq hruns hnone hlast]
      exact fin_calm hs rfl rfl rfl rfl rfl
  · have hrow : exec (.dqsRetraining ch false) s = fin s s := rfl
    rw [hrow]
    exact fin_next hs rfl
  · obtain ⟨u, hu⟩ : ∃ u, s.timeTo tm = u := ⟨_, rfl⟩
    have htime : u = { s with time := u.time } ∧ tm.toNat ≤ u.time.toNat := by
      rw [← hu]
      unfold State.timeTo
      split
      · exact ⟨rfl, Nat.le_refl _⟩
      · next h => exact ⟨rfl, Nat.le_of_not_lt h⟩
    have hrow : exec (.retrainingHoldEnd ch) s = fin s (s.holdEnds ch.toNat) := rfl
    have hends : s.holdEnds ch.toNat =
        { s with time := u.time, bgs := { s.bgs with holds := Tbl.insert (Tbl.erase s.bgs.holds ch.toNat) (2 + ch.toNat) u.time } } := by
      unfold State.holdEnds
      rw [htm]
      dsimp only
      rw [hu, htime.1]
      rfl
    refine ⟨{ s with time := u.time, bgs := { s.bgs with holds := Tbl.insert (Tbl.erase s.bgs.holds ch.toNat) (2 + ch.toNat) u.time } }, ?_, rfl, htime.2, ?_⟩
    · rw [hrow, hends]
      exact fin_calm hs rfl rfl rfl rfl rfl
    · show Tbl.look (Tbl.insert (Tbl.erase s.bgs.holds ch.toNat) (2 + ch.toNat) u.time) ch.toNat = none
      rw [Tbl.look_insert_ne _ _ (by omega), Tbl.look_erase_self]
  · have hrow : exec (.mr4Read ch rate) s = fin s (s.mr4 ch.toNat rate.toNat) := rfl
    refine ⟨{ s with bgs := { s.bgs with refresh := Tbl.set (fun _ => 0) s.bgs.refresh ch.toNat rate.toNat } }, ?_, rfl, Tbl.get_set_self _ _ _ _⟩
    · rw [hrow, State.mr4, if_pos hruns]
      exact fin_calm hs rfl rfl rfl rfl rfl

end Sys2Proof.Machine
end

section
/-!
PROOFS. The Boot ROM, the identity and the measurements (O51).
-/
namespace Sys2Proof.Machine

/-! ### Bytes and fields -/

theorem leNat_lt (bs : List (BitVec 8)) : leNat bs < 256 ^ bs.length := by
  induction bs with
  | nil => exact Nat.one_pos
  | cons b bs ih =>
    have hb := b.isLt
    have hstep : leNat (b :: bs) = b.toNat + 256 * leNat bs := rfl
    rw [hstep, List.length_cons, Nat.pow_succ]
    omega

theorem leBytes_leNat (bs : List (BitVec 8)) : leBytes bs.length (leNat bs) = bs := by
  induction bs with
  | nil => rfl
  | cons b bs ih =>
    have hb := b.isLt
    have hstep : leNat (b :: bs) = b.toNat + 256 * leNat bs := rfl
    have hdiv : (b.toNat + 256 * leNat bs) / 256 = leNat bs := by omega
    have hmod : BitVec.ofNat 8 (b.toNat + 256 * leNat bs) = b := by
      apply BitVec.eq_of_toNat_eq
      rw [BitVec.toNat_ofNat]
      omega
    rw [hstep, List.length_cons, leBytes, hdiv, hmod, ih]

/-- Eight bytes put into a register and taken out again. -/
theorem leBytes_p64 {bs : List (BitVec 8)} (h : bs.length = 8) : leBytes 8 (p64 (leNat bs)).toNat = bs := by
  have hlt := leNat_lt bs
  have hbytes := leBytes_leNat bs
  rw [h] at hlt hbytes
  rw [p64, BitVec.toNat_ofNat, Nat.mod_eq_of_lt (by simpa using hlt), hbytes]

theorem fld_or (x y : Pay) (hi lo : Nat) : fld (x ||| y) hi lo = fld x hi lo ||| fld y hi lo := by
  apply Nat.eq_of_testBit_eq
  intro i
  have hbit : bit (x ||| y) (lo + i) = (bit x (lo + i) || bit y (lo + i)) := BitVec.getLsbD_or
  rw [Nat.testBit_or, testBit_fld, testBit_fld, testBit_fld, hbit, Bool.and_or_distrib_left]

theorem fld_atFld_self {hi lo v : Nat} (h : hi < 64) (hl : lo ≤ hi) (hv : v < 2 ^ (hi + 1 - lo)) : fld (atFld hi lo v) hi lo = v := by
  rw [atFld, fld_setFld_self _ _ _ _ h hl, Nat.mod_eq_of_lt hv]

theorem fld_atFld_apart {hi lo a b : Nat} (v : Nat) (h : hi < 64) (hl : lo ≤ hi) (hd : a < lo ∨ hi < b) : fld (atFld hi lo v) a b = 0 := by
  have hzero : fld (0 : Pay) a b = 0 := by
    apply Nat.eq_of_testBit_eq
    intro i
    rw [testBit_fld, Nat.zero_testBit]
    have : bit (0 : Pay) (b + i) = false := BitVec.getLsbD_zero
    rw [this, Bool.and_false]
  rw [atFld, fld_setFld_disjoint _ _ _ _ _ _ h hl hd]
  exact hzero

/-! ### Measurements (R626) -/

theorem State.measBytes_congr {s t : State} {i : Nat} (h : ∀ w, w < 4 → t.reg (measOff i + 8 * w) = s.reg (measOff i + 8 * w)) : t.measBytes i = s.measBytes i := by
  unfold State.measBytes
  refine congrArg wordBytes (List.map_congr_left fun w hw => h w (List.mem_range.mp hw))

/-- A digest written is the digest read. -/
theorem State.measBytes_putDigest (s : State) (i : Nat) {d : List (BitVec 8)} (hd : d.length = 32) : (s.putDigest (measOff i) d).measBytes i = d := by
  have hlen : ∀ k, k < 4 → ((d.drop (8 * k)).take 8).length = 8 := by
    intro k hk
    rw [List.length_take, List.length_drop]
    omega
  have hreg : ∀ k, k < 4 → (s.putDigest (measOff i) d).reg (measOff i + 8 * k) = p64 (leNat ((d.drop (8 * k)).take 8)) := by
    intro k hk
    rw [State.putDigest_eq]
    obtain rfl | rfl | rfl | rfl : k = 0 ∨ k = 1 ∨ k = 2 ∨ k = 3 := by omega
    all_goals simp only [State.reg_setReg, Nat.add_left_cancel_iff, Nat.reduceMul, Nat.reduceEqDiff, if_true, if_false]
  have hlast : (d.drop 24).take 8 = d.drop 24 := List.take_of_length_le (by rw [List.length_drop]; omega)
  have hsplit : d.take 8 ++ ((d.drop 8).take 8 ++ ((d.drop 16).take 8 ++ (d.drop 24).take 8)) = d := by
    have h16 := List.take_append_drop 8 (d.drop 16)
    have h8 := List.take_append_drop 8 (d.drop 8)
    rw [List.drop_drop] at h16 h8
    rw [hlast, h16, h8, List.take_append_drop]
  have hread : (s.putDigest (measOff i) d).measBytes i = wordBytes ((List.range 4).map (fun k => p64 (leNat ((d.drop (8 * k)).take 8)))) :=
    congrArg wordBytes (List.map_congr_left fun k hk => hreg k (List.mem_range.mp hk))
  have hbytes : ∀ k, k < 4 → leBytes 8 (p64 (leNat ((d.drop (8 * k)).take 8))).toNat = (d.drop (8 * k)).take 8 := fun k hk => leBytes_p64 (hlen k hk)
  have h0 := hbytes 0 (by decide)
  have h1 := hbytes 1 (by decide)
  have h2 := hbytes 2 (by decide)
  have h3 := hbytes 3 (by decide)
  rw [hread]
  simp only [wordBytes, List.range_succ, List.range_zero, List.nil_append, List.map_append, List.map_cons, List.map_nil, List.flatMap_append, List.flatMap_cons,
    List.flatMap_nil, List.append_nil, List.append_assoc, h0, h1, h2, h3]
  simpa using hsplit

theorem shake256_length (m : List (BitVec 8)) (n : Nat) : (Config.shake256 m n).length = n := by
  unfold Config.shake256
  exact Vector.length_toList

/-! ### The image in Keep SRAM (R622) -/

theorem copies_apart {load i k : Nat} (hi : i < 0x80000) (hk : k < 0x80000) : (load + 8 * i) / 8 ≠ (load + copyB + 8 * k) / 8 := by
  unfold copyB
  omega

theorem words_apart {load i k : Nat} (h : i ≠ k) : (load + 8 * i) / 8 ≠ (load + 8 * k) / 8 := by
  omega

/-- What one pass of the loader leaves in words of the two copies. -/
theorem State.load_words (m : Image) (load n : Nat) : ∀ (k : Nat) (s : State), k + n ≤ 0x80000 → ∀ i, i < 0x80000 →
    let t := forN n k (fun i s => (s.setWord (load + 8 * i) (imageWord m i)).setWord (load + copyB + 8 * i) (imageWord m i)) s
    t.word (load + 8 * i) = (if k ≤ i ∧ i < k + n then imageWord m i else s.word (load + 8 * i)) ∧
      t.word (load + copyB + 8 * i) = (if k ≤ i ∧ i < k + n then imageWord m i else s.word (load + copyB + 8 * i)) := by
  induction n with
  | zero =>
    intro k s _ i _
    exact ⟨(if_neg (by omega)).symm, (if_neg (by omega)).symm⟩
  | succ n ih =>
    intro k s hk i hi
    obtain ⟨h1, h2⟩ := ih (k + 1) ((s.setWord (load + 8 * k) (imageWord m k)).setWord (load + copyB + 8 * k) (imageWord m k)) (by omega) i hi
    dsimp only at h1 h2 ⊢
    rw [forN, h1, h2]
    by_cases hik : i = k
    · subst hik
      have hpast : ¬ (i + 1 ≤ i ∧ i < i + 1 + n) := by omega
      have hin : i ≤ i ∧ i < i + (n + 1) := by omega
      rw [if_neg hpast, if_neg hpast, if_pos hin, if_pos hin, State.word_setWord_self,
        State.word_setWord_ne _ _ (copies_apart hi hi), State.word_setWord_self]
      exact ⟨rfl, rfl⟩
    · have hk : k < 0x80000 := by omega
      rw [State.word_setWord_ne _ _ (copies_apart hi hk), State.word_setWord_ne _ _ (words_apart hik), State.word_setWord_ne _ _ (words_apart hik),
        State.word_setWord_ne _ _ (copies_apart hk hi).symm]
      have hiff : (k + 1 ≤ i ∧ i < k + 1 + n) ↔ (k ≤ i ∧ i < k + (n + 1)) := by omega
      simp only [hiff, and_self]

theorem imageForm_len {m : Image} (h : imageForm m = true) : leAt m.hdr 24 4 ≤ 65536 := by
  simp only [imageForm, Bool.and_eq_true, decide_eq_true_eq] at h
  obtain ⟨⟨⟨⟨⟨-, -, hlen⟩, -⟩, -⟩, -⟩, -⟩ := h
  exact hlen

theorem State.loadBody_loads (s : State) {m : Image} (h : imageForm m = true) : ImageLoaded m (s.loadBody m) := by
  have hlen := imageForm_len h
  intro i hi
  obtain ⟨h1, h2⟩ := State.load_words m (leAt m.hdr 16 8) (leAt m.hdr 24 4) 0 s (by omega) i (by omega)
  rw [if_pos (by omega)] at h1 h2
  exact ⟨h1, h2⟩

theorem State.loadBody_rest (s : State) (m : Image) : s.loadBody m = { s with mem := (s.loadBody m).mem, tags := (s.loadBody m).tags } := by
  have hloop : ∀ (n k : Nat) (s : State), ∃ mem tags,
      forN n k (fun i s => (s.setWord (leAt m.hdr 16 8 + 8 * i) (imageWord m i)).setWord (leAt m.hdr 16 8 + copyB + 8 * i) (imageWord m i)) s =
        { s with mem := mem, tags := tags } := by
    intro n
    induction n with
    | zero => exact fun k s => ⟨s.mem, s.tags, rfl⟩
    | succ n ih =>
      intro k s
      obtain ⟨mem, tags, h⟩ := ih (k + 1) ((s.setWord (leAt m.hdr 16 8 + 8 * k) (imageWord m k)).setWord (leAt m.hdr 16 8 + copyB + 8 * k) (imageWord m k))
      refine ⟨mem, tags, ?_⟩
      rw [forN, h, State.setWord_eq, State.setWord_eq]
  obtain ⟨mem, tags, h⟩ := hloop (leAt m.hdr 24 4) 0 s
  have hload : s.loadBody m = { s with mem := mem, tags := tags } := h
  rw [hload]

/-! ### The ROM's ends (R622, R645) -/

/-- The machine as the Boot ROM may leave it. -/
def Booted (s t : State) : Prop := t = { s with dev := t.dev, ctxs := t.ctxs, mem := t.mem, tags := t.tags, sec := t.sec }

theorem Booted.trans {s t u : State} (h : Booted s t) (g : Booted t u) : Booted s u := by
  unfold Booted at h g ⊢
  rw [g, h]

theorem Booted.of_regs {s t : State} {os : List Nat} (h : RegsOnly s os t) : Booted s t := by
  unfold Booted
  rw [h.rest]

theorem Booted.fin {s t : State} (hs : s.calm = true) (h : Booted s t) : Machine.fin s t = .next t := by
  unfold Booted at h
  rw [h]
  exact fin_calm hs rfl rfl rfl rfl rfl

theorem Booted.loadBody (s : State) (m : Image) : Booted s (s.loadBody m) := by
  unfold Booted
  rw [s.loadBody_rest m]

theorem leAt_lt4 (bs : List (BitVec 8)) (off : Nat) : leAt bs off 4 < 2 ^ 32 := by
  calc leAt bs off 4 < 256 ^ ((bs.drop off).take 4).length := leNat_lt _
    _ ≤ 256 ^ 4 := Nat.pow_le_pow_right (by decide) (List.length_take_le _ _)
    _ = 2 ^ 32 := by decide

theorem State.bootStat_code (s : State) {code : Nat} (fa fb slot svn : Nat) (h : code < 256) : (s.bootStat code fa fb slot svn).rf (oSec + 0x10) 63 56 = code := by
  rw [State.rf, State.bootStat, State.reg_setReg_self, fld_or, fld_or, fld_or, fld_or, fld_atFld_self (by decide) (by decide) h,
    fld_atFld_apart _ (by decide) (by decide) (by decide), fld_atFld_apart _ (by decide) (by decide) (by decide),
    fld_atFld_apart _ (by decide) (by decide) (by decide), fld_atFld_apart _ (by decide) (by decide) (by decide)]
  simp only [Nat.or_zero]

theorem State.bootStat_svn (s : State) (code fa fb slot : Nat) {svn : Nat} (h : svn < 2 ^ 32) : (s.bootStat code fa fb slot svn).rf (oSec + 0x10) 31 0 = svn := by
  rw [State.rf, State.bootStat, State.reg_setReg_self, fld_or, fld_or, fld_or, fld_or, fld_atFld_self (hi := 31) (by decide) (by decide) h,
    fld_atFld_apart _ (by decide) (by decide) (by decide), fld_atFld_apart _ (by decide) (by decide) (by decide),
    fld_atFld_apart _ (by decide) (by decide) (by decide), fld_atFld_apart _ (by decide) (by decide) (by decide)]
  simp only [Nat.zero_or]

/-- The ROM stops with a code. -/
theorem State.rom_halts (s : State) {code : Nat} (fa fb : Nat) (h : code < 256) : RomHalts s code ((s.bootStat code fa fb 0 0).romStops) where
  rest := rfl
  code := s.bootStat_code fa fb 0 0 h
  regs := fun _ hoff => State.reg_setReg_ne _ _ (Ne.symm hoff)
  ctx := State.ctx_setCtx_self _ _ _
  others := fun y hy => by
    rw [State.romStops, State.updCtx_eq, State.ctx_setCtx, if_neg (Ne.symm hy)]
    rfl

theorem RomHalts.booted {s t : State} {code : Nat} (h : RomHalts s code t) : Booted s t := by
  unfold Booted
  rw [h.rest]

/-- A measurement extended, beside another. -/
theorem State.measBytes_extend (s : State) (i j : Nat) (d : List (BitVec 8)) :
    (s.extend i d).measBytes j = if i = j then Config.shake256 (s.measBytes i ++ d) 32 else s.measBytes j := by
  unfold State.extend
  split
  · next h =>
    subst h
    exact State.measBytes_putDigest s i (shake256_length _ _)
  · next h =>
    refine State.measBytes_congr fun w hw => (RegsOnly.putDigest s (measOff i) _).others _ ?_
    simp only [measOff, List.mem_cons, List.not_mem_nil, or_false, not_or]
    omega

theorem RegsOnly.extend (s : State) (i : Nat) (d : List (BitVec 8)) : RegsOnly s [measOff i, measOff i + 8, measOff i + 16, measOff i + 24] (s.extend i d) :=
  RegsOnly.putDigest s (measOff i) _

/-- The ROM starts an image. -/
theorem State.rom_starts (s : State) (m : Image) {code : Nat} (fa : Nat) (h : code < 256) :
    RomStarted s m code (s.romStarts m code fa) ∧ s.romStarts m code fa = { s with dev := (s.romStarts m code fa).dev, ctxs := (s.romStarts m code fa).ctxs } := by
  obtain ⟨u, hu⟩ : ∃ u, (s.extend 0 Config.romDigest).extend 1 (Config.shake256 (m.hdr.take 160) 32) = u := ⟨_, rfl⟩
  obtain ⟨slot, hslot⟩ : ∃ slot, (if code = 3 then 0 else (u.sec.slotFor ((m.hdr.drop 64).take 64) 0).getD 0) = slot := ⟨_, rfl⟩
  obtain ⟨os, hregs⟩ : ∃ os, RegsOnly s os u := ⟨_, hu ▸ (RegsOnly.extend s 0 _).trans (RegsOnly.extend _ 1 _)⟩
  have hsec : s.sec = u.sec := by rw [hregs.rest]
  have hstart : s.romStarts m code fa = (u.bootStat code fa 0 slot (leAt m.hdr 12 4)).setCtx 0 ((s.ctx 0).setPc (p64 (leAt m.hdr 16 8 + leAt m.hdr 28 4))) := by
    rw [← hslot, ← hsec]
    unfold State.romStarts
    rw [hu, State.updCtx_eq]
    have : (u.bootStat code fa 0 (if code = 3 then 0 else (s.sec.slotFor ((m.hdr.drop 64).take 64) 0).getD 0) (leAt m.hdr 12 4)).ctx 0 = s.ctx 0 := by
      rw [hregs.rest]
      rfl
    rw [this]
  have hmeas : ∀ j, j < 8 → ((u.bootStat code fa 0 slot (leAt m.hdr 12 4)).measBytes j) = u.measBytes j := by
    intro j hj
    refine State.measBytes_congr fun w hw => State.reg_setReg_ne _ _ ?_
    simp only [measOff]
    omega
  rw [hstart]
  refine ⟨⟨u.bootStat_code fa 0 slot _ h, u.bootStat_svn code fa 0 slot (leAt_lt4 _ _), ?_, ?_, State.ctx_setCtx_self _ _ _, fun y hy => ?_⟩, ?_⟩
  · refine (hmeas 0 (by decide)).trans ?_
    rw [← hu, State.measBytes_extend, if_neg (by decide), State.measBytes_extend, if_pos rfl]
  · refine (hmeas 1 (by decide)).trans ?_
    rw [← hu, State.measBytes_extend, if_pos rfl, State.measBytes_extend, if_neg (by decide)]
  · rw [State.ctx_setCtx, if_neg (Ne.symm hy), hregs.rest]
    rfl
  · rw [hregs.rest]
    rfl

theorem ImageLoaded.congr {m : Image} {s t : State} (h : ImageLoaded m s) (hm : t.mem = s.mem) (ht : t.tags = s.tags) : ImageLoaded m t := by
  intro i hi
  rw [State.word_congr hm ht, State.word_congr hm ht]
  exact h i hi

/-- An image checked up to its signature: a bad signature fails, else the body is loaded. -/
theorem State.checkImage_eq {s : State} {m : Image} {enrol : Bool} (hform : imageForm m = true)
    (hkey : enrol = true ∨ (s.sec.slotFor ((m.hdr.drop 64).take 64) 0).isSome = true) (hsvn : s.sec.rollback ≤ leAt m.hdr 12 4) (hread : m.readErr = false) :
    (Config.slhVerify true ((m.hdr.drop 64).take 64) (m.hdr.take 160) m.sig = false → s.checkImage m enrol = (bfSig, s)) ∧
    (Config.slhVerify true ((m.hdr.drop 64).take 64) (m.hdr.take 160) m.sig = true →
      (bodyOk m → s.checkImage m enrol = (0, s.loadBody m)) ∧ (¬ bodyOk m → s.checkImage m enrol = (bfBody, s.loadBody m))) := by
  have hnokey : ¬ ((!enrol) = true ∧ (s.sec.slotFor ((m.hdr.drop 64).take 64) 0).isNone = true) := by
    rcases hkey with h | h
    · simp [h]
    · simp [Option.isSome_iff_ne_none.mp h]
  unfold State.checkImage
  dsimp only
  rw [if_neg (by simp [hform]), if_neg hnokey, if_neg (by omega)]
  refine ⟨fun hsig => if_pos (by simp [hsig]), fun hsig => ?_⟩
  rw [if_neg (by simp [hsig]), if_neg (by simp [hread])]
  exact ⟨fun hbody => if_neg (fun h => h hbody), fun hbody => if_pos hbody⟩

theorem State.checkImage_noForm {s : State} {m : Image} (enrol : Bool) (h : imageForm m = false) : s.checkImage m enrol = (bfFormat, s) := by
  unfold State.checkImage
  exact if_pos (by simp [h])

/-- A slot that verifies an image is programmed. -/
theorem Sec.programmed_of_slotFor {c : Sec} {pk : List (BitVec 8)} {b : Nat} (h : (c.slotFor pk b).isSome = true) :
    [0, 1, 2, 3].all (fun n => !(c.kslot n).prog) = false := by
  obtain ⟨n, hn⟩ := Option.isSome_iff_exists.mp h
  unfold Sec.slotFor at hn
  have hmem := List.mem_of_find?_eq_some hn
  have huse := List.find?_some hn
  simp only [Sec.usable, Bool.and_eq_true, decide_eq_true_eq] at huse
  obtain ⟨⟨⟨hprog, -⟩, -⟩, -⟩ := huse
  rw [List.all_eq_false]
  exact ⟨n, hmem, by simp [hprog]⟩

theorem ImageLoaded.romHalts {m : Image} {s t : State} {code : Nat} (h : ImageLoaded m s) (ht : RomHalts s code t) : ImageLoaded m t := by
  refine h.congr ?_ ?_ <;> rw [ht.rest]

theorem ImageLoaded.romStarts {m : Image} {s : State} (h : ImageLoaded m s) {code : Nat} (fa : Nat) (hcode : code < 256) :
    ImageLoaded m (s.romStarts m code fa) := by
  refine h.congr ?_ ?_ <;> rw [(s.rom_starts m fa hcode).2]

/-- An image started on a machine whose measurements and contexts are those of another. -/
theorem RomStarted.of_same {m : Image} {code : Nat} {s u t : State} (h : RomStarted u m code t) (h0 : u.measBytes 0 = s.measBytes 0)
    (h1 : u.measBytes 1 = s.measBytes 1) (hctx : u.ctxs = s.ctxs) : RomStarted s m code t := by
  have hc : ∀ y, u.ctx y = s.ctx y := fun y => by rw [State.ctx, hctx]; rfl
  exact ⟨h.code, h.svn, by rw [← h0]; exact h.meas0, by rw [← h1]; exact h.meas1, by rw [← hc]; exact h.ctx, fun y hy => by rw [← hc]; exact h.others y hy⟩

theorem State.measBytes_loadBody (s : State) (m : Image) (i : Nat) : (s.loadBody m).measBytes i = s.measBytes i := by
  rw [s.loadBody_rest m]
  rfl

/-- Settles O51: each end of the Boot ROM, the derivation of the identity, and the extension of a measurement. -/
theorem bootAndMeasurement : Obligations.BootAndMeasurement := by
  unfold Obligations.BootAndMeasurement
  intro s hs
  refine ⟨fun flash blown a b hboot hcode hpc hpow => ?_, fun hno hbad => ⟨?_, fun hatt => ?_⟩, fun src v hw => ?_⟩
  · have hgo : ¬ (s.mode ≠ mBoot ∨ s.rf (oSec + 0x10) 63 56 ≠ 0 ∨ (s.ctx 0).pc ≠ 0x7FFFFFF00000 ∨ (!s.powered 0) = true) := by
      simp [hboot, hcode, hpc, hpow]
    have hrow : ∀ bad flash blown, exec (.bootRom bad flash blown a b) s = fin s (s.bootRom bad flash blown a b) := fun _ _ _ => rfl
    have hstop : ∀ (u : State) (code fa fb : Nat), Booted s u → Machine.fin s ((u.bootStat code fa fb 0 0).romStops) = .next ((u.bootStat code fa fb 0 0).romStops) :=
      fun u code fa fb hu => (hu.trans (show Booted u ((u.bootStat code fa fb 0 0).romStops) from rfl)).fin hs
    have hstart : ∀ (u : State) (code fa : Nat), code < 256 → Booted s u → Machine.fin s (u.romStarts a code fa) = .next (u.romStarts a code fa) := by
      intro u code fa hlt hu
      refine (hu.trans ?_).fin hs
      unfold Booted
      rw [(u.rom_starts a fa hlt).2]
    refine ⟨⟨_, ?_, s.rom_halts (code := 0x11) 0 0 (by decide)⟩, fun hlife => ⟨_, ?_, s.rom_halts (code := 0x13) 0 0 (by decide)⟩,
      fun hlife => ⟨_, ?_, s.rom_halts (code := 0x10) 0 0 (by decide)⟩, fun hlife hform hkey hsvn hread hb => ?_, fun hlife hprog hform hsvn hread hpfw => ?_⟩
    · rw [hrow, State.bootRom, if_neg hgo, if_pos rfl]
      exact hstop s _ _ _ rfl
    · rw [hrow, State.bootRom, if_neg hgo, if_neg (by decide), if_pos hlife]
      exact hstop s _ _ _ rfl
    · rw [hrow, State.bootRom, if_neg hgo, if_neg (by decide), if_neg hlife, if_pos (by decide)]
      exact hstop s _ _ _ rfl
    · have hprog := Sec.programmed_of_slotFor hkey
      have himage := State.checkImage_eq (enrol := false) hform (.inr hkey) hsvn hread
      have hrom : s.bootRom false true blown a b = if (s.checkImage a false).1 = 0 then (s.checkImage a false).2.romStarts a 1 0
          else ((s.checkImage a false).2.bootStat 0x12 (s.checkImage a false).1 bfFormat 0 0).romStops := by
        rw [State.bootRom, if_neg hgo, if_neg (by decide), if_neg hlife, if_neg (by decide), if_neg (by simp [hprog])]
        dsimp only
        rw [State.checkImage_noForm false hb]
        exact if_congr Iff.rfl rfl (if_neg Nat.one_ne_zero)
      have hload := Booted.loadBody s a
      by_cases hsig : Config.slhVerify true ((a.hdr.drop 64).take 64) (a.hdr.take 160) a.sig = true
      · by_cases hbody : bodyOk a
        · have hends : s.bootRom false true blown a b = (s.loadBody a).romStarts a 1 0 := by
            rw [hrom, (himage.2 hsig).1 hbody]
            exact if_pos rfl
          have hstarted := (s.loadBody a).rom_starts a (code := 1) 0 (by decide)
          refine ⟨_, by rw [hrow, hends]; exact hstart _ _ _ (by decide) hload, fun h => absurd hsig (by simp [h]), fun _ =>
            ⟨(s.loadBody_loads hform).romStarts 0 (by decide), ?_, fun _ => ?_, fun h => absurd hbody h⟩⟩
          · rw [hstarted.2, s.loadBody_rest a]
          · exact hstarted.1.of_same (s.measBytes_loadBody a 0) (s.measBytes_loadBody a 1) (by rw [s.loadBody_rest a])
        · have hends : s.bootRom false true blown a b = ((s.loadBody a).bootStat 0x12 bfBody bfFormat 0 0).romStops := by
            rw [hrom, (himage.2 hsig).2 hbody]
            exact if_neg (by simp)
          have hhalts := (s.loadBody a).rom_halts (code := 0x12) bfBody bfFormat (by decide)
          refine ⟨_, by rw [hrow, hends]; exact hstop _ _ _ _ hload, fun h => absurd hsig (by simp [h]), fun _ =>
            ⟨(s.loadBody_loads hform).romHalts hhalts, ?_, fun h => absurd h hbody, fun _ => ⟨hhalts.code, by rw [hhalts.ctx]⟩⟩⟩
          rw [hhalts.rest, s.loadBody_rest a]
      · rw [Bool.not_eq_true] at hsig
        have hends : s.bootRom false true blown a b = (s.bootStat 0x12 bfSig bfFormat 0 0).romStops := by
          rw [hrom, himage.1 hsig]
          exact if_neg (by simp)
        exact ⟨_, by rw [hrow, hends]; exact hstop s _ _ _ rfl, fun _ => s.rom_halts _ _ (by decide), fun h => absurd h (by simp [hsig])⟩
    · have hall : [0, 1, 2, 3].all (fun n => !(s.sec.kslot n).prog) = true := by
        rw [List.all_eq_true]
        intro n hn
        simp only [List.mem_cons, List.not_mem_nil, or_false] at hn
        rw [hprog n (by omega)]
        rfl
      have himage := State.checkImage_eq (enrol := true) hform (.inl rfl) hsvn hread
      obtain ⟨u, hu⟩ : ∃ u, ((s.loadBody a).updSec (fun c => c.setKslot 0 ⟨Config.shake256 ((a.hdr.drop 64).take 64) 32, 7, true, false⟩)).extend 7
          (Config.shake256 (ascii "HR7264 ENROL") 32) = u :=
        ⟨_, rfl⟩
      have hrom : s.bootRom false true true a b = if (s.checkImage a true).1 ≠ 0 then ((s.checkImage a true).2.bootStat 0x12 (s.checkImage a true).1 0 0 0).romStops
          else (((s.checkImage a true).2.updSec (fun c => c.setKslot 0 ⟨Config.shake256 ((a.hdr.drop 64).take 64) 32, 7, true, false⟩)).extend 7
            (Config.shake256 (ascii "HR7264 ENROL") 32)).romStarts a 3 0 := by
        rw [State.bootRom, if_neg hgo, if_neg (by decide), if_neg (by rw [hlife]; decide), if_neg (by decide), if_pos ⟨hall, hlife⟩]
        dsimp only
        rw [if_neg (c := s.pwr.pfw = true) (by simp [hpfw]), if_neg (c := (!true) = true) (by decide)]
      have hload := Booted.loadBody s a
      have hlater : Booted (s.loadBody a) u := by
        have hext := (RegsOnly.extend ((s.loadBody a).updSec (fun c => c.setKslot 0 ⟨Config.shake256 ((a.hdr.drop 64).take 64) 32, 7, true, false⟩)) 7
          (Config.shake256 (ascii "HR7264 ENROL") 32)).rest
        rw [hu] at hext
        unfold Booted
        rw [hext]
        rfl
      have hstarts : Booted s u := hload.trans hlater
      by_cases hsig : Config.slhVerify true ((a.hdr.drop 64).take 64) (a.hdr.take 160) a.sig = true
      · by_cases hbody : bodyOk a
        · have hends : s.bootRom false true true a b = u.romStarts a 3 0 := by
            rw [hrom, (himage.2 hsig).1 hbody, ← hu]
            exact if_neg (fun h => h rfl)
          have hstarted := u.rom_starts a (code := 3) 0 (by decide)
          have hslot : u.sec.kslot 0 = ⟨Config.shake256 ((a.hdr.drop 64).take 64) 32, 7, true, false⟩ := by
            rw [← hu, (RegsOnly.extend _ 7 _).rest]
            exact Tbl.get_set_self _ _ _ _
          have hmeas : ∀ j, j ≠ 7 → u.measBytes j = s.measBytes j := by
            intro j hj
            rw [← hu, State.measBytes_extend, if_neg (Ne.symm hj)]
            exact s.measBytes_loadBody a j
          have himg : ImageLoaded a u := by
            refine (s.loadBody_loads hform).congr ?_ ?_ <;> rw [← hu, (RegsOnly.extend _ 7 _).rest] <;> rfl
          have hctxs : u.ctxs = s.ctxs := by
            rw [← hu, (RegsOnly.extend _ 7 _).rest]
            show (s.loadBody a).ctxs = s.ctxs
            rw [s.loadBody_rest a]
          refine ⟨_, by rw [hrow, hends]; exact hstart _ _ _ (by decide) hstarts, fun h => absurd hsig (by simp [h]), fun _ =>
            ⟨himg.romStarts 0 (by decide), fun _ => ⟨hstarted.1.of_same (hmeas 0 (by decide)) (hmeas 1 (by decide)) hctxs, ?_⟩, fun h => absurd hbody h⟩⟩
          rw [hstarted.2]
          exact hslot
        · have hends : s.bootRom false true true a b = ((s.loadBody a).bootStat 0x12 bfBody 0 0 0).romStops := by
            rw [hrom, (himage.2 hsig).2 hbody]
            exact if_pos (by simp)
          have hhalts := (s.loadBody a).rom_halts (code := 0x12) bfBody 0 (by decide)
          exact ⟨_, by rw [hrow, hends]; exact hstop _ _ _ _ hload, fun h => absurd hsig (by simp [h]), fun _ =>
            ⟨(s.loadBody_loads hform).romHalts hhalts, fun h => absurd h hbody, fun _ => ⟨hhalts.code, by rw [hhalts.ctx]⟩⟩⟩
      · rw [Bool.not_eq_true] at hsig
        have hends : s.bootRom false true true a b = (s.bootStat 0x12 bfSig 0 0 0).romStops := by
          rw [hrom, himage.1 hsig]
          exact if_pos (by simp)
        exact ⟨_, by rw [hrow, hends]; exact hstop s _ _ _ rfl, fun _ => s.rom_halts _ _ (by decide), fun h => absurd h (by simp [hsig])⟩
  · have hrow : exec (.identityDerivation true) s = fin s (s.identity true) := rfl
    have hbit : bit ((s.setSecStat 63 true).reg (oSec + 0x20)) 63 = true := by
      rw [State.setSecStat, State.reg_setReg_self]
      exact bit_setBit_self _ _ _ (by decide)
    have hset : RegsOnly s [oSec + 0x20] (s.setSecStat 63 true) := RegsOnly.setReg _ _ _
    by_cases hatt : s.sec.att.isSome = true
    · have hid : s.identity true = (s.setSecStat 63 true).setSecStat 61 true := by
        unfold State.identity
        rw [if_neg (by simp [hno, hbad]), if_pos rfl]
        exact if_pos hatt
      have hboth : RegsOnly s [oSec + 0x20] ((s.setSecStat 63 true).setSecStat 61 true) := (hset.trans (RegsOnly.setReg _ _ _)).mono (by simp)
      refine ⟨_, by rw [hrow, hid]; exact hboth.fin hs, hboth, ?_, fun _ => ?_⟩
      · rw [State.secStat, State.setSecStat, State.reg_setReg_self, bit_setBit_ne _ _ _ _ (by decide) (by decide)]
        exact hbit
      · rw [State.secStat, State.setSecStat, State.reg_setReg_self]
        exact bit_setBit_self _ _ _ (by decide)
    · have hid : s.identity true = s.setSecStat 63 true := by
        unfold State.identity
        rw [if_neg (by simp [hno, hbad]), if_pos rfl]
        exact if_neg hatt
      exact ⟨_, by rw [hrow, hid]; exact hset.fin hs, hset, hbit, fun h => absurd (Option.isSome_iff_ne_none.mpr h) hatt⟩
  · have hrow : exec (.identityDerivation false) s = fin s (s.identity false) := rfl
    have hid : s.identity false = s.setSecStat 62 true := by
      unfold State.identity
      rw [if_neg (by simp [hno, hbad]), if_neg (by decide)]
      dsimp only
      have : (s.setSecStat 62 true).sec.att = none := hatt
      rw [this]
    have hset : RegsOnly s [oSec + 0x20] (s.setSecStat 62 true) := RegsOnly.setReg _ _ _
    refine ⟨_, by rw [hrow, hid]; exact hset.fin hs, hset, ?_, ?_⟩
    · rw [State.secStat, State.setSecStat, State.reg_setReg_self]
      exact bit_setBit_self _ _ _ (by decide)
    · rw [State.secStat, State.setSecStat, State.reg_setReg_self, bit_setBit_ne _ _ _ _ (by decide) (by decide)]
      exact hno
  · have hrow : exec (.secMeasext src v) s = fin s (s.regWrite src (oSec + 0x320) v) := rfl
    have hregs := RegsOnly.extend s (fld v 2 0) s.sec.digBytes
    have hstore : s.blockStore src.code.toNat src.x.toNat (oSec + 0x320) v = s.extend (fld v 2 0) s.sec.digBytes :=
      (State.blockStore_sec s _ _ v (by decide) (by decide)).trans rfl
    refine ⟨_, exec_store_regs hrow hs hw hstore hregs, hregs, ?_⟩
    rw [State.measBytes_extend, if_pos rfl]

end Sys2Proof.Machine
end

section
/-!
PROOFS. The device mode and SYS_STAT (R649 to R653, R662): what a refresh keeps; the watch, SYS_START and device time (O32).
-/
namespace Sys2Proof.Machine

/-! ### What a refresh keeps -/

theorem State.kept_congr {s t : State} (h : t.twins = s.twins) : t.kept = s.kept := by
  unfold State.kept State.twin
  rw [h]

theorem RegsOnly.kept {s t : State} {os : List Nat} (h : RegsOnly s os t) : t.kept = s.kept := State.kept_congr (by rw [h.rest])

theorem State.checkKeep_kept {s : State} (h : s.kept = true) : s.checkKeep = s := by
  unfold State.checkKeep
  rw [State.kept, Bool.or_eq_true] at h
  rcases h with h | h <;> simp [h]

theorem RegsOnly.sysStat (s : State) (b : Nat) (v : Bool) : RegsOnly s [0x28] (s.sysStat b v) := RegsOnly.setReg _ _ _

theorem RegsOnly.showDegraded (s : State) : RegsOnly s [0x28] s.showDegraded :=
  ((((RegsOnly.sysStat s _ _).trans (RegsOnly.sysStat _ _ _)).trans (RegsOnly.sysStat _ _ _)).trans (RegsOnly.sysStat _ _ _)).mono (by simp)

theorem RegsOnly.setMode (s : State) (m : Nat) : RegsOnly s [0x10] (s.setMode m) :=
  ((RegsOnly.setRf s _ _ _ _).trans (RegsOnly.setRf _ _ _ _ _)).mono (by simp)

theorem RegsOnly.mode {s t : State} {os : List Nat} (h : RegsOnly s os t) (hno : 0x10 ∉ os) : t.mode = s.mode := by
  rw [State.mode, State.rf, h.others _ hno]
  rfl

theorem State.kept_showDegraded {s : State} (h : s.kept = true) : s.showDegraded.kept = true := (RegsOnly.showDegraded s).kept.trans h

/-- In a machine that keeps a Keeper twin, the mode and SYS_STAT alone follow. -/
theorem RegsOnly.refresh {s : State} (h : s.kept = true) : RegsOnly s [0x10, 0x28] s.refresh := by
  have hshown := RegsOnly.showDegraded s
  unfold State.refresh
  rw [State.checkKeep_kept (State.kept_showDegraded h)]
  dsimp only
  split
  · exact ((hshown.trans (RegsOnly.setMode _ _)).trans (RegsOnly.sysStat _ _ _)).mono (by simp)
  · split
    · exact ((hshown.trans (RegsOnly.setMode _ _)).trans (RegsOnly.sysStat _ _ _)).mono (by simp)
    · exact (hshown.trans (RegsOnly.sysStat _ _ _)).mono (by simp)

/-- A mode other than Run and Degraded stays. -/
theorem RegsOnly.refresh_stat {s : State} (h : s.kept = true) (hrun : s.mode ≠ mRun) (hdeg : s.mode ≠ mDegraded) : RegsOnly s [0x28] s.refresh := by
  have hshown := RegsOnly.showDegraded s
  have hmode := hshown.mode (by decide)
  unfold State.refresh
  rw [State.checkKeep_kept (State.kept_showDegraded h)]
  dsimp only
  rw [if_neg (by rw [hmode]; exact fun h => hrun h.1), if_neg (by rw [hmode]; exact fun h => hdeg h.1)]
  exact (hshown.trans (RegsOnly.sysStat _ _ _)).mono (by simp)

/-- A bit of SYS_STAT written, beside another. -/
theorem State.bit_sysStat (s : State) {b n : Nat} (v : Bool) (hb : b < 64) (hne : b ≠ n) : bit ((s.sysStat b v).reg 0x28) n = bit (s.reg 0x28) n := by
  rw [State.sysStat, State.reg_setReg_self, bit_setBit_ne _ _ _ _ hb hne]

theorem State.bit_sysStat_self (s : State) {b : Nat} (v : Bool) (hb : b < 64) : bit ((s.sysStat b v).reg 0x28) b = v := by
  rw [State.sysStat, State.reg_setReg_self, bit_setBit_self _ _ _ hb]

theorem State.stat_setMode (s : State) (m : Nat) : (s.setMode m).reg 0x28 = s.reg 0x28 := State.reg_setMode_ne s m (by decide)

theorem State.stat_autoSafeHold (s : State) : s.autoSafeHold.reg 0x28 = s.reg 0x28 := by
  unfold State.autoSafeHold
  split
  · rfl
  · split
    · exact State.stat_setMode s _
    · rfl

/-- The bits of SYS_STAT that do not follow a condition stay. -/
theorem State.stat_refresh (s : State) {n : Nat} (hn : n < 36 ∨ 39 < n) (h62 : n ≠ 62) (h63 : n ≠ 63) : bit (s.refresh.reg 0x28) n = bit (s.reg 0x28) n := by
  have hshown : bit (s.showDegraded.reg 0x28) n = bit (s.reg 0x28) n := by
    unfold State.showDegraded
    rw [State.bit_sysStat _ _ (by decide) (by omega), State.bit_sysStat _ _ (by decide) (by omega), State.bit_sysStat _ _ (by decide) (by omega),
      State.bit_sysStat _ _ (by decide) (by omega)]
  have hkeep : bit (s.showDegraded.checkKeep.reg 0x28) n = bit (s.reg 0x28) n := by
    unfold State.checkKeep
    split
    · exact hshown
    · rw [State.stat_autoSafeHold, State.bit_sysStat _ _ (by decide) (Ne.symm h62), hshown]
  unfold State.refresh
  dsimp only
  rw [State.bit_sysStat _ _ (by decide) (Ne.symm h63)]
  split
  · rw [State.stat_setMode, hkeep]
  · split
    · rw [State.stat_setMode, hkeep]
    · exact hkeep

/-! ### An automatic Safe-Hold (R650, R651) -/

theorem State.prev_setMode (s : State) (m : Nat) : (s.setMode m).rf 0x10 10 8 = s.mode := by
  unfold State.setMode
  rw [State.rf, State.setRf_eq, State.reg_setReg_self, fld_setFld_disjoint _ _ _ _ _ _ (by decide) (by decide) (.inr (by decide)),
    State.setRf_eq, State.reg_setReg_self, fld_setFld_self _ _ _ _ (by decide) (by decide)]
  exact Nat.mod_eq_of_lt (fld_lt _ 2 0)

theorem State.autoSafeHold_enters {s : State} (hbusy : s.modeBusy = false) (hmode : s.mode ∈ [mBoot, mRun, mDegraded, mService, mQuiet]) :
    s.autoSafeHold = s.setMode mSafe := by
  simp only [List.mem_cons, List.not_mem_nil, or_false] at hmode
  unfold State.autoSafeHold
  rw [if_neg (by simp [hbusy]), if_pos hmode]

/-- Safe-Hold entered by itself: the mode, PREV, and the fault bit that led to it. -/
theorem State.safeHold_refreshed {s : State} {b : Nat} (hk : s.kept = true) (hbusy : s.modeBusy = false)
    (hmode : s.mode ∈ [mBoot, mRun, mDegraded, mService, mQuiet]) (hb : b = 59 ∨ b = 60 ∨ b = 61) :
    ∃ t, (s.sysStat b true).autoSafeHold.refresh = t ∧ RegsOnly s [0x10, 0x28] t ∧ bit (t.reg 0x28) b = true ∧ t.mode = mSafe ∧ t.rf 0x10 10 8 = s.mode := by
  have hstat := RegsOnly.sysStat s b true
  have hhold : (s.sysStat b true).autoSafeHold = (s.sysStat b true).setMode mSafe := by
    refine State.autoSafeHold_enters ?_ ?_
    · rw [State.modeBusy, hstat.others _ (by decide)]
      exact hbusy
    · rw [hstat.mode (by decide)]
      exact hmode
  obtain ⟨u, hu⟩ : ∃ u, (s.sysStat b true).setMode mSafe = u := ⟨_, rfl⟩
  have hregs : RegsOnly s ([0x28] ++ [0x10]) u := hu ▸ hstat.trans (RegsOnly.setMode _ mSafe)
  have hsafe : u.mode = mSafe := by rw [← hu, State.mode_setMode _ (by decide)]
  have hprev : u.rf 0x10 10 8 = s.mode := by rw [← hu, State.prev_setMode, hstat.mode (by decide)]
  have hbit : bit (u.reg 0x28) b = true := by rw [← hu, State.stat_setMode, State.bit_sysStat_self _ _ (by omega)]
  have huk : u.kept = true := hregs.kept.trans hk
  have hfresh := RegsOnly.refresh_stat huk (by rw [hsafe]; decide) (by rw [hsafe]; decide)
  refine ⟨u.refresh, by rw [hhold, hu], (hregs.trans hfresh).mono (by simp), ?_, ?_, ?_⟩
  · rw [State.stat_refresh _ (by omega) (by omega) (by omega), hbit]
  · rw [hfresh.mode (by decide), hsafe]
  · rw [State.rf, hfresh.others _ (by decide)]
    exact hprev

/-! ### The watch, SYS_START and device time (R227, R659, R665, R671) -/

theorem State.blockStore_sys (s : State) (src x : Nat) {o : Nat} (v : Pay) (hlo : 0x10 ≤ o) (hhi : o < 0x10000) :
    s.blockStore src x o v = s.sysStore src o v := by
  have hpage : pageOf o = 0 := by rw [pageOf]; omega
  have hin : inPage o = o := by rw [inPage]; omega
  unfold State.blockStore
  simp only [hpage, hin]
  rw [if_neg (by omega), if_neg (by decide)]

theorem bit_eq_fld (x : Pay) (n : Nat) : bit x n = (fld x n n).testBit 0 := by
  have h := testBit_fld x n n 0
  have hin : 0 < n + 1 - n := by omega
  rw [decide_eq_true hin, Bool.true_and] at h
  exact h.symm

/-- A write of SYS_WATCH. -/
theorem State.sysStore_watch {s : State} {src : Nat} (hsrc : src < 4) (v : Pay) : s.sysStore src 0x30 v = s.watchWrite v := by
  unfold State.sysStore
  rw [if_neg (by decide), if_neg (by decide), if_neg (by decide), if_neg (by omega), if_neg (by decide), if_pos rfl]

/-- PERIOD shows what was written, and SYS_STAT and the mode follow. -/
theorem State.watch_refreshed {s u : State} {p : Nat} (hp : p < 1024) (y : Sys) (hu : { s.setRf 0x30 9 0 p with sys := y } = u) (hk : s.kept = true) :
    u.refresh = { s with dev := u.refresh.dev, sys := y } ∧ u.refresh.rf 0x30 9 0 = p := by
  have huk : u.kept = true := by
    rw [← hu]
    exact hk
  have hfresh := RegsOnly.refresh huk
  have hrest : u = { s with dev := u.dev, sys := y } := by rw [← hu]; rfl
  have hperiod : u.rf 0x30 9 0 = p := by
    rw [← hu]
    refine (State.rf_setRf_self s 0x30 9 0 p (by decide) (by decide)).trans (Nat.mod_eq_of_lt hp)
  refine ⟨?_, ?_⟩
  · rw [hfresh.rest, hrest]
  · rw [State.rf, hfresh.others _ (by decide)]
    exact hperiod

/-- The end of a write of SYS_WATCH. -/
theorem State.watch_ends {s u : State} {c : Instr} {src : Src} {p : Nat} {v : Pay} {y : Sys} (hs : s.calm = true) (hk : s.kept = true)
    (hrow : exec c s = fin s (s.regWrite src 0x30 v)) (hsrc : src.code.toNat < 4) (hw : s.canWrite src 0x30 v = true) (hp : p < 1024)
    (hwake : y.wakeReq = s.sys.wakeReq) (hu : { s.setRf 0x30 9 0 p with sys := y } = u) (hwatch : s.watchWrite v = u.refresh) :
    ∃ t, exec c s = .next t ∧ t.rf 0x30 9 0 = p ∧ t = { s with dev := t.dev, sys := y } := by
  obtain ⟨hrest, hperiod⟩ := State.watch_refreshed hp y hu hk
  have hstore : s.blockStore src.code.toNat src.x.toNat 0x30 v = u.refresh :=
    ((State.blockStore_sys s _ _ v (by decide) (by decide)).trans (State.sysStore_watch hsrc v)).trans hwatch
  obtain ⟨t, ht⟩ : ∃ t, u.refresh = t := ⟨_, rfl⟩
  rw [ht] at hrest hperiod hstore
  refine ⟨t, exec_store hrow hs hw hstore ?_ (by rw [hrest]), hperiod, hrest⟩
  rw [hrest]
  exact (State.calm_congr (s := s) (t := { s with dev := t.dev, sys := y }) rfl rfl rfl hwake).trans hs

/-- A context never started, with nothing of it recorded, starts at entry 0. -/
theorem State.startCtx_fresh {s : State} {x : Nat} {p : Pay} (hin : (s.presentedOf (twinOf x)).contains x = true) (hreset : s.ctx x = Ctx.reset)
    (hloose : s.isLoose x = false) (hconf : Tbl.look (s.twin (twinOf x)).sqtConf x = none) (hentry : s.vecEntry x true 0 = some p) (hheld : s.ldg.held = []) :
    ∃ t, s.startCtx x = t ∧ t = { s with ctxs := t.ctxs } ∧ (∀ y, y ≠ x → t.ctx y = s.ctx y) ∧
      t.ctx x = { Ctx.reset.setPc (atFld 47 2 (fld p 47 2)) with started := true } := by
  have hsub : (s.confirmedSqt x).submitSatb x = s := by
    have hconfirm : s.confirmedSqt x = s := by
      unfold State.confirmedSqt
      rw [hconf]
    unfold State.submitSatb
    rw [hconfirm, hreset]
    exact if_pos (by decide)
  have hreset' : s.ctxReset x = s.setCtx x { Ctx.reset.setPc (atFld 47 2 (fld p 47 2)) with started := true } := by
    unfold State.ctxReset
    dsimp only
    rw [hsub, hentry, hreset]
    rfl
  obtain ⟨u, hu⟩ : ∃ u, s.ctxReset x = u := ⟨_, rfl⟩
  have hget : u.ctx x = { Ctx.reset.setPc (atFld 47 2 (fld p 47 2)) with started := true } := by rw [← hu, hreset', State.ctx_setCtx_self]
  have hdeliver := State.deliverHeld_none (s := u) (x := x) (by rw [hget]; rfl) (by rw [hget]; rfl)
  have hstart : s.startCtx x = u.deliverHeld x := by
    unfold State.startCtx
    dsimp only
    rw [if_neg (by rw [hin, hreset]; decide), State.reached, if_neg (by simp [hloose]), List.foldl_cons, List.foldl_nil, hu, State.retryHeld]
    have : (u.deliverHeld x).ldg.held = [] := by
      rw [hdeliver.rest, ← hu, hreset']
      exact hheld
    rw [this, List.foldl_nil]
  refine ⟨u.deliverHeld x, hstart, ?_, fun y hy => ?_, ?_⟩
  · rw [hdeliver.rest, ← hu, hreset']
    rfl
  · rw [hdeliver.ctx, ← hu, hreset', State.ctx_setCtx, if_neg (Ne.symm hy)]
  · rw [hdeliver.ctx, hget]

/-- Settles O32: the watch, SYS_START and SYS_TIME, each by its write. -/
theorem watchAndTime : Obligations.WatchAndTime := by
  unfold Obligations.WatchAndTime
  refine ⟨fun s hs hk => ⟨fun src p hsrc => ⟨fun hne hw => ?_, fun hw => ⟨fun hne harmed => ?_, fun hne harmed => ?_, fun hz => ?_⟩⟩,
    fun harmed hbusy hmode => ?_⟩, fun s src hs hsrc => ⟨fun x p hw hin hreset hloose hconf hentry hheld => ?_, fun v hw => ⟨fun hle => ?_, fun hlt => ?_⟩⟩⟩
  · have hfield : fld (atFld 63 63 1 ||| atFld 9 0 p.toNat) 9 0 = p.toNat := by
      rw [fld_or, fld_atFld_apart _ (by decide) (by decide) (by decide), fld_atFld_self (by decide) (by decide) p.isLt, Nat.zero_or]
    have hbit : bit (atFld 63 63 1 ||| atFld 9 0 p.toNat) 63 = true := by
      rw [bit_eq_fld, fld_or, fld_atFld_self (by decide) (by decide) (by decide), fld_atFld_apart _ (by decide) (by decide) (by decide)]
      rfl
    have hpz : p.toNat ≠ 0 := fun h => hne (BitVec.eq_of_toNat_eq h)
    refine State.watch_ends hs hk (c := .feed src p) rfl hsrc hw p.isLt rfl rfl ?_
    unfold State.watchWrite
    dsimp only
    rw [hfield, if_neg hpz, if_pos (.inl hbit)]
    rfl
  · have hfield : fld (atFld 9 0 p.toNat) 9 0 = p.toNat := fld_atFld_self (by decide) (by decide) p.isLt
    have hpz : p.toNat ≠ 0 := fun h => hne (BitVec.eq_of_toNat_eq h)
    refine State.watch_ends hs hk (c := .watchPeriodWrite src p) rfl hsrc hw p.isLt rfl rfl ?_
    unfold State.watchWrite
    dsimp only
    rw [hfield, if_neg hpz, if_pos (.inr harmed), ← harmed]
    rfl
  · have hfield : fld (atFld 9 0 p.toNat) 9 0 = p.toNat := fld_atFld_self (by decide) (by decide) p.isLt
    have hbit : bit (atFld 9 0 p.toNat) 63 = false := by
      rw [bit_eq_fld, fld_atFld_apart _ (by decide) (by decide) (by decide)]
      rfl
    have hpz : p.toNat ≠ 0 := fun h => hne (BitVec.eq_of_toNat_eq h)
    refine State.watch_ends (y := s.sys) hs hk (c := .watchPeriodWrite src p) rfl hsrc hw p.isLt rfl rfl ?_
    unfold State.watchWrite
    dsimp only
    rw [hfield, if_neg hpz, if_neg (by simp [hbit, harmed])]
    rfl
  · have hfield : fld (atFld 9 0 p.toNat) 9 0 = 0 := by
      rw [hz]
      decide
    refine State.watch_ends (p := 0) hs hk (c := .watchPeriodWrite src p) rfl hsrc hw (by decide) rfl rfl ?_
    unfold State.watchWrite
    dsimp only
    rw [hfield, if_pos rfl]
    rfl
  · obtain ⟨u, hu⟩ : ∃ u, (s.timeTo s.sys.expiry).updSys (fun y => { y with armed := false }) = u := ⟨_, rfl⟩
    have htime : u = { s with time := u.time, sys := { s.sys with armed := false } } ∧ s.sys.expiry.toNat ≤ u.time.toNat := by
      rw [← hu]
      unfold State.timeTo
      split
      · exact ⟨rfl, Nat.le_refl _⟩
      · next h => exact ⟨rfl, Nat.le_of_not_lt h⟩
    obtain ⟨hrest, hpast⟩ := htime
    have hreg : ∀ off, u.reg off = s.reg off := fun off => by rw [hrest]; rfl
    have humode : u.mode = s.mode := by rw [State.mode, State.rf, hreg]; rfl
    have hukept : u.kept = true := by rw [State.kept_congr (s := s) (by rw [hrest]), hk]
    have hubusy : u.modeBusy = false := by rw [State.modeBusy, hreg]; exact hbusy
    obtain ⟨t, ht, hregs, hbit, hsafe, hprev⟩ := State.safeHold_refreshed (b := 61) hukept hubusy (by rw [humode]; exact hmode) (by decide)
    have hrow : exec .watchExpiry s = fin s s.watchExpires := rfl
    have hexp : s.watchExpires = t := by
      rw [← ht, ← hu]
      unfold State.watchExpires
      exact if_neg (by simp [harmed])
    have htrest : t = { s with dev := t.dev, time := t.time, sys := { s.sys with armed := false } } := by
      rw [hregs.rest, hrest]
    refine ⟨t, ?_, htrest, hbit, hsafe, hprev.trans humode, ?_⟩
    · rw [hrow, hexp, htrest]
      exact fin_calm hs rfl rfl rfl rfl rfl
    · rw [hregs.rest]
      exact hpast
  · obtain ⟨t, ht, hrest, hothers, hctx⟩ := State.startCtx_fresh hin hreset hloose hconf hentry hheld
    have hfield : fld (atFld 63 63 1 ||| atFld 7 0 x.toNat) 7 0 = x.toNat := by
      rw [fld_or, fld_atFld_apart _ (by decide) (by decide) (by decide), fld_atFld_self (by decide) (by decide) x.isLt, Nat.zero_or]
    have hbit : bit (atFld 63 63 1 ||| atFld 7 0 x.toNat) 63 = true := by
      rw [bit_eq_fld, fld_or, fld_atFld_self (by decide) (by decide) (by decide), fld_atFld_apart _ (by decide) (by decide) (by decide)]
      rfl
    have hstore : s.blockStore src.code.toNat src.x.toNat 0x40 (atFld 63 63 1 ||| atFld 7 0 x.toNat) = t := by
      rw [State.blockStore_sys s _ _ _ (by decide) (by decide), ← ht]
      unfold State.sysStore
      rw [if_neg (by decide), if_neg (by decide), if_neg (by decide), if_neg (by omega), if_neg (by decide), if_neg (by decide), if_pos rfl, if_pos hbit, hfield]
    refine ⟨t, exec_store (c := .sysStart src x) rfl hs hw hstore ?_ (by rw [hrest]), hrest, hothers, hctx⟩
    rw [hrest]
    exact hs
  · have hstore : s.blockStore src.code.toNat src.x.toNat 0x48 v = { s with time := v } := by
      rw [State.blockStore_sys s _ _ _ (by decide) (by decide)]
      unfold State.sysStore
      rw [if_neg (by decide), if_neg (by decide), if_neg (by decide), if_neg (by omega), if_neg (by decide), if_neg (by decide), if_neg (by decide), if_pos rfl]
      exact if_neg (by omega)
    exact ⟨_, exec_store (c := .sysTimeWrite src v) rfl hs hw hstore hs rfl, rfl⟩
  · have hstore : s.blockStore src.code.toNat src.x.toNat 0x48 v = s.sysStat 58 true := by
      rw [State.blockStore_sys s _ _ _ (by decide) (by decide)]
      unfold State.sysStore
      rw [if_neg (by decide), if_neg (by decide), if_neg (by decide), if_neg (by omega), if_neg (by decide), if_neg (by decide), if_neg (by decide), if_pos rfl]
      exact if_pos hlt
    exact ⟨_, exec_store_regs (c := .sysTimeWrite src v) rfl hs hw hstore (RegsOnly.sysStat s 58 true), RegsOnly.sysStat s 58 true,
      s.bit_sysStat_self true (by decide)⟩

end Sys2Proof.Machine
end

section
/-!
PROOFS. Clocks, PLLs and temperature (O33).
-/
namespace Sys2Proof.Machine

/-- The clock registers lie apart from the mode and SYS_STAT. -/
theorem clkReg_apart (n : Nat) : clkReg n ≠ 0x10 ∧ clkReg n ≠ 0x28 := by
  unfold clkReg
  omega

theorem State.rf_setRf_apart (s : State) (off : Nat) {hi lo a b : Nat} (v : Nat) (h : hi < 64) (hl : lo ≤ hi) (hd : a < lo ∨ hi < b) :
    (s.setRf off hi lo v).rf off a b = s.rf off a b := by
  rw [State.rf, State.setRf_eq, State.reg_setReg_self, fld_setFld_disjoint _ _ _ _ _ _ h hl hd]
  rfl

theorem State.bit_setRf_apart (s : State) (off : Nat) {hi lo n : Nat} (v : Nat) (h : hi < 64) (hl : lo ≤ hi) (hd : n < lo ∨ hi < n) :
    bit ((s.setRf off hi lo v).reg off) n = bit (s.reg off) n := by
  rw [State.setRf_eq, State.reg_setReg_self, bit_setFld_disjoint _ _ _ _ _ h hl hd]

/-- A bit of a register written, beside a field. -/
theorem State.rf_setReg_bit (s : State) (off : Nat) {n hi lo : Nat} (b : Bool) (hn : n < 64) (hd : hi < n ∨ n < lo) :
    (s.setReg off (setBit (s.reg off) n b)).rf off hi lo = s.rf off hi lo := by
  rw [State.rf, State.reg_setReg_self, fld_setBit_disjoint _ _ _ _ _ hn hd]
  rfl

/-! ### Operating points (R667, R668) -/

/-- A point written while no change or one change runs. -/
theorem State.pointWrite_eq (s : State) (n : Nat) (v : Pay) : ∃ t, s.pointWrite n v = t ∧ t = { s with dev := t.dev, sys := { s.sys with dvfs := t.sys.dvfs } } ∧
    t.rf (clkReg n) 2 0 = fld v 2 0 ∧ (∀ off, off ≠ clkReg n → t.reg off = s.reg off) ∧
    Tbl.look t.sys.dvfs n = some ((Tbl.look s.sys.dvfs n).getD (fld v 2 0)) := by
  have hregs := RegsOnly.setRf s (clkReg n) 2 0 (fld v 2 0)
  have hpt : (s.setRf (clkReg n) 2 0 (fld v 2 0)).rf (clkReg n) 2 0 = fld v 2 0 :=
    (State.rf_setRf_self _ _ _ _ _ (by decide) (by decide)).trans (Nat.mod_eq_of_lt (fld_lt v 2 0))
  unfold State.pointWrite
  dsimp only
  split
  · next pt hrun => exact ⟨_, rfl, rfl, hpt, fun off hoff => hregs.others off (by simpa using hoff), by rw [hrun]; exact hrun⟩
  · next hrun =>
    exact ⟨_, rfl, rfl, hpt, fun off hoff => hregs.others off (by simpa using hoff), by rw [hrun]; exact Tbl.look_insert_self _ _ _⟩

theorem State.pointFor_lt (s : State) (n : Nat) {pt : Nat} (h : pt < 8) : s.pointFor n pt < 8 := by
  unfold State.pointFor
  split <;> omega

theorem State.pointEnds_eq {s : State} {n pt : Nat} (hrun : Tbl.look s.sys.dvfs n = some pt) (hpt : pt < 8) :
    ∃ t, s.pointEnds n = t ∧ t = { s with dev := t.dev, sys := { s.sys with dvfs := t.sys.dvfs } } ∧
      t.rf (clkReg n) 10 8 = (if bit (s.reg (clkReg n)) 18 then max 2 pt else pt) ∧
      Tbl.look t.sys.dvfs n = (if s.rf (clkReg n) 2 0 = pt then none else some (s.rf (clkReg n) 2 0)) := by
  have hcur : (s.setRf (clkReg n) 10 8 (s.pointFor n pt)).rf (clkReg n) 10 8 = s.pointFor n pt :=
    (State.rf_setRf_self _ _ _ _ _ (by decide) (by decide)).trans (Nat.mod_eq_of_lt (s.pointFor_lt n hpt))
  unfold State.pointEnds
  rw [hrun]
  dsimp only
  split
  · exact ⟨_, rfl, rfl, hcur, Tbl.look_insert_self _ _ _⟩
  · next heq => exact ⟨_, rfl, rfl, hcur, by rw [if_pos (not_not.mp heq)]; exact Tbl.look_erase_self _ _⟩

/-! ### Temperature (R669, R670, R679) -/

theorem State.tj_setTj (s : State) (n : Nat) {tj : Nat} (h : tj < 256) : (s.setTj n tj).rf (clkReg n) 63 56 = tj :=
  (State.rf_setRf_self _ _ _ _ _ (by decide) (by decide)).trans (Nat.mod_eq_of_lt h)

theorem State.derate_eq {s : State} (n : Nat) {tj : Nat} (hr : s.sys.inReset = false) (hlt : tj < 256) (h : 189 < tj) :
    ∃ t, s.derate n tj = t ∧ RegsOnly s [clkReg n] t ∧ t.rf (clkReg n) 63 56 = tj ∧ bit (t.reg (clkReg n)) 18 = true ∧ 2 ≤ t.rf (clkReg n) 10 8 := by
  obtain ⟨u, hu⟩ : ∃ u, s.setTj n tj = u := ⟨_, rfl⟩
  obtain ⟨w, hw⟩ : ∃ w, u.setReg (clkReg n) (setBit (u.reg (clkReg n)) 18 true) = w := ⟨_, rfl⟩
  have hderate : s.derate n tj = w.setRf (clkReg n) 10 8 (max 2 (w.rf (clkReg n) 10 8)) := by
    rw [← hw, ← hu]
    unfold State.derate
    exact if_neg (by simp [hr]; omega)
  have hregs : RegsOnly s [clkReg n] (w.setRf (clkReg n) 10 8 (max 2 (w.rf (clkReg n) 10 8))) := by
    refine (((hu ▸ RegsOnly.setRf s (clkReg n) 63 56 tj : RegsOnly s [clkReg n] u).trans (hw ▸ RegsOnly.setReg u (clkReg n) _)).trans
      (RegsOnly.setRf w _ _ _ _)).mono (by simp)
  have hmax : max 2 (w.rf (clkReg n) 10 8) < 2 ^ (10 + 1 - 8) := by
    have := fld_lt (w.reg (clkReg n)) 10 8
    rw [State.rf]
    omega
  refine ⟨_, hderate, hregs, ?_, ?_, ?_⟩
  · rw [State.rf_setRf_apart _ _ _ (by decide) (by decide) (by decide), ← hw, State.rf_setReg_bit _ _ _ (by decide) (by decide), ← hu, State.tj_setTj _ _ hlt]
  · rw [State.bit_setRf_apart _ _ _ (by decide) (by decide) (by decide), ← hw, State.reg_setReg_self, bit_setBit_self _ _ _ (by decide)]
  · rw [State.rf_setRf_self _ _ _ _ _ (by decide) (by decide), Nat.mod_eq_of_lt hmax]
    exact Nat.le_max_left _ _

theorem State.derateClears_eq {s : State} (n : Nat) {tj : Nat} (hlt : tj ≤ 184) (hon : bit (s.reg (clkReg n)) 18 = true) :
    ∃ t, s.derateClears n tj = t ∧ RegsOnly s [clkReg n] t ∧ t.rf (clkReg n) 63 56 = tj ∧ bit (t.reg (clkReg n)) 18 = false ∧
      t.rf (clkReg n) 10 8 = s.rf (clkReg n) 2 0 := by
  obtain ⟨u, hu⟩ : ∃ u, s.setTj n tj = u := ⟨_, rfl⟩
  obtain ⟨w, hw⟩ : ∃ w, u.setReg (clkReg n) (setBit (u.reg (clkReg n)) 18 false) = w := ⟨_, rfl⟩
  have hbit : bit (u.reg (clkReg n)) 18 = true := by
    rw [← hu, State.setTj, State.bit_setRf_apart _ _ _ (by decide) (by decide) (by decide), hon]
  have hclear : s.derateClears n tj = w.setRf (clkReg n) 10 8 (w.rf (clkReg n) 2 0) := by
    unfold State.derateClears
    rw [hu]
    dsimp only
    rw [if_neg (by simp [hbit]; omega), hw]
  have hpt : w.rf (clkReg n) 2 0 = s.rf (clkReg n) 2 0 := by
    rw [← hw, State.rf_setReg_bit _ _ _ (by decide) (by decide), ← hu, State.setTj, State.rf_setRf_apart _ _ _ (by decide) (by decide) (by decide)]
  have hregs : RegsOnly s [clkReg n] (w.setRf (clkReg n) 10 8 (w.rf (clkReg n) 2 0)) := by
    refine (((hu ▸ RegsOnly.setRf s (clkReg n) 63 56 tj : RegsOnly s [clkReg n] u).trans (hw ▸ RegsOnly.setReg u (clkReg n) _)).trans
      (RegsOnly.setRf w _ _ _ _)).mono (by simp)
  refine ⟨_, hclear, hregs, ?_, ?_, ?_⟩
  · rw [State.rf_setRf_apart _ _ _ (by decide) (by decide) (by decide), ← hw, State.rf_setReg_bit _ _ _ (by decide) (by decide), ← hu,
      State.tj_setTj _ _ (by omega)]
  · rw [State.bit_setRf_apart _ _ _ (by decide) (by decide) (by decide), ← hw, State.reg_setReg_self, bit_setBit_self _ _ _ (by decide)]
  · rw [State.rf_setRf_self _ _ _ _ _ (by decide) (by decide), hpt]
    exact Nat.mod_eq_of_lt (fld_lt _ 2 0)

/-! ### PLLs (R666, R814) -/

theorem State.pllFence_fenced {s : State} {t : Nat} (h : (s.twin t).mode = .fenced ∧ (s.twin t).moving = false) : s.pllFence t = s := by
  unfold State.pllFence
  exact if_pos (.inr ⟨h.1, by simp [h.2]⟩)

/-- A cluster of fenced twins loses its PLL. -/
theorem State.pllLost_eq {s : State} {n : Nat} (hr : s.sys.inReset = false) (hon : bit (s.reg (clkReg n)) 16 = false) (hlock : bit (s.reg (clkReg n)) 17 = true)
    (hf : ∀ u, u / 4 = n → (s.twin u).mode = .fenced ∧ (s.twin u).moving = false) :
    s.pllLost n = (((s.setReg (clkReg n) (setBit (s.reg (clkReg n)) 17 false)).updSys (fun y => { y with unlocked := y.unlocked ++ [n] })).sysStat 35 true).refresh := by
  obtain ⟨u, hu⟩ : ∃ u, ((s.setReg (clkReg n) (setBit (s.reg (clkReg n)) 17 false)).updSys (fun y => { y with unlocked := y.unlocked ++ [n] })).sysStat 35 true = u :=
    ⟨_, rfl⟩
  have hfence : ∀ t, t / 4 = n → u.pllFence t = u := by
    intro t ht
    refine State.pllFence_fenced ?_
    rw [← hu]
    exact hf t ht
  have hall : forN 4 (4 * n) (fun t s => s.pllFence t) u = u := by
    simp only [forN]
    rw [hfence _ (by omega), hfence _ (by omega), hfence _ (by omega), hfence _ (by omega)]
  unfold State.pllLost
  dsimp only
  rw [if_neg (by simp [hr, hon, hlock]), hu, hall]

/-- Telemetry changes the ring and its register alone. -/
theorem State.telem_rest (s : State) (src code : Nat) (addr extra : Pay) : ∃ d b, s.telem src code addr extra = { s with dev := d, bgs := { s.bgs with tel := b } } := by
  unfold State.telem
  dsimp only
  split
  · exact ⟨s.dev, _, rfl⟩
  · exact ⟨_, _, rfl⟩

theorem State.sensorCheck_eq {s : State} (hruns : s.bgsRuns = true) (out : List (BitVec 3 × BitVec 8)) :
    ∃ d b, s.sensorCheck out = { s with dev := d, bgs := { s.bgs with tel := b, excluded := out.map (fun e => e.1.toNat * 256 + e.2.toNat) } } := by
  have hfold : ∀ (l : List (BitVec 3 × BitVec 8)) (u : State), ∃ d b, l.foldl (fun s e => s.telem 0x51 telSensor 0 (p64 e.2.toNat)) u =
      { u with dev := d, bgs := { u.bgs with tel := b } } := by
    intro l
    induction l with
    | nil => exact fun u => ⟨u.dev, u.bgs.tel, rfl⟩
    | cons e l ih =>
      intro u
      obtain ⟨d, b, h⟩ := u.telem_rest 0x51 telSensor 0 (p64 e.2.toNat)
      obtain ⟨d', b', h'⟩ := ih (u.telem 0x51 telSensor 0 (p64 e.2.toNat))
      exact ⟨d', b', by rw [List.foldl_cons, h', h]⟩
  obtain ⟨d, b, h⟩ := hfold out (s.updBgs (fun b => { b with excluded := out.map (fun e => e.1.toNat * 256 + e.2.toNat) }))
  refine ⟨d, b, ?_⟩
  unfold State.sensorCheck
  rw [if_neg (by simp [hruns]), h]
  rfl

/-- Settles O33: each change of a clock or a temperature on its own. -/
theorem clocksAndTemperature : Obligations.ClocksAndTemperature := by
  unfold Obligations.ClocksAndTemperature
  intro s n hs hr
  have hn : n.toNat < 8 := n.isLt
  obtain ⟨hr10, hr28⟩ := clkReg_apart n.toNat
  refine ⟨fun src v hw => ?_, fun pt hrun hpt => ?_, fun tj => ⟨fun hhot => ?_, fun hcool hon => ?_, fun hhot hk hbusy hmode => ?_, fun hcool hk hall => ?_⟩,
    fun hon hlock hf => ?_, fun hlost => ?_, fun hk hbusy hmode => ?_, fun out hruns => ?_⟩
  · obtain ⟨t, ht, hrest, hpt, hothers, hdvfs⟩ := s.pointWrite_eq n.toNat v
    have hstore : s.blockStore src.code.toNat src.x.toNat (clkReg n.toNat) v = t := by
      have hidx : (clkReg n.toNat - 0x100) / 8 = n.toNat := by unfold clkReg; omega
      rw [State.blockStore_sys s _ _ v (by unfold clkReg; omega) (by unfold clkReg; omega), ← ht]
      unfold State.sysStore
      rw [if_neg hr28, if_pos (by unfold clkReg; omega), hidx]
    refine ⟨t, exec_store (c := .dvfsPointWrite src n v) rfl hs hw hstore ?_ (by rw [hrest]), hrest, hpt, hothers, hdvfs⟩
    rw [hrest]
    exact hs
  · obtain ⟨t, ht, hrest, hcur, hdvfs⟩ := State.pointEnds_eq hrun hpt
    have hrow : exec (.dvfsChangeEnd n) s = fin s (s.pointEnds n.toNat) := rfl
    refine ⟨t, ?_, hrest, hcur, hdvfs⟩
    rw [hrow, ht, hrest]
    exact fin_calm hs rfl rfl rfl rfl rfl
  · obtain ⟨t, ht, hregs, h⟩ := State.derate_eq n.toNat hr tj.isLt hhot
    have hrow : exec (.thermalDerate n tj) s = fin s (s.derate n.toNat tj.toNat) := rfl
    exact ⟨t, by rw [hrow, ht]; exact hregs.fin hs, hregs, h⟩
  · obtain ⟨t, ht, hregs, h⟩ := State.derateClears_eq n.toNat hcool hon
    have hrow : exec (.derateClear n tj) s = fin s (s.derateClears n.toNat tj.toNat) := rfl
    exact ⟨t, by rw [hrow, ht]; exact hregs.fin hs, hregs, h⟩
  · obtain ⟨u, hu⟩ : ∃ u, s.setTj n.toNat tj.toNat = u := ⟨_, rfl⟩
    have hset : RegsOnly s [clkReg n.toNat] u := hu ▸ RegsOnly.setRf s _ _ _ _
    have humode : u.mode = s.mode := hset.mode (by simpa using Ne.symm hr10)
    have hubusy : u.modeBusy = false := by rw [State.modeBusy, hset.others _ (by simpa using Ne.symm hr10)]; exact hbusy
    obtain ⟨t, ht, hregs, hbit, hsafe, -⟩ := State.safeHold_refreshed (b := 60) (hset.kept.trans hk) hubusy (by rw [humode]; exact hmode) (by decide)
    have hrow : exec (.temp n tj) s = fin s (s.tempHigh n.toNat tj.toNat) := rfl
    have hhigh : s.tempHigh n.toNat tj.toNat = t := by
      rw [← ht, ← hu]
      unfold State.tempHigh
      exact if_neg (by simp [hr]; omega)
    have hboth : RegsOnly s [clkReg n.toNat, 0x10, 0x28] t := hset.trans hregs
    exact ⟨t, by rw [hrow, hhigh]; exact hboth.fin hs, hboth, hbit, hsafe⟩
  · obtain ⟨u, hu⟩ : ∃ u, s.setTj n.toNat tj.toNat = u := ⟨_, rfl⟩
    have hset : RegsOnly s [clkReg n.toNat] u := hu ▸ RegsOnly.setRf s _ _ _ _
    have hcold : (List.range 8).any (fun m => decide (214 < u.rf (clkReg m) 63 56)) = false := by
      rw [List.any_eq_false]
      intro m hm
      rw [decide_eq_true_eq, not_lt]
      by_cases hmn : m = n.toNat
      · rw [hmn, ← hu, State.tj_setTj _ _ tj.isLt]
        exact hcool
      · have hreg : u.reg (clkReg m) = s.reg (clkReg m) := hset.others _ (by
          rw [List.mem_singleton]
          unfold clkReg
          omega)
        rw [State.rf, hreg]
        exact hall m (List.mem_range.mp hm) hmn
    obtain ⟨w, hw⟩ : ∃ w, (u.sysStat 60 false).updSys (fun y => { y with hot := false }) = w := ⟨_, rfl⟩
    have hwrest : w = { s with dev := w.dev, sys := { s.sys with hot := false } } := by rw [← hw, hset.rest]; rfl
    have hwk : w.kept = true := by rw [State.kept_congr (s := s) (by rw [hwrest]), hk]
    have hfresh := RegsOnly.refresh hwk
    have hrow : exec (.tempClear n tj) s = fin s (s.tempClears n.toNat tj.toNat) := rfl
    have hclears : s.tempClears n.toNat tj.toNat = w.refresh := by
      rw [← hw]
      unfold State.tempClears
      rw [hu]
      dsimp only
      rw [if_neg (by rw [hcold]; decide)]
    have hbit : bit (w.reg 0x28) 60 = false := by
      rw [← hw]
      exact u.bit_sysStat_self false (by decide)
    have hrest : w.refresh = { s with dev := w.refresh.dev, sys := { s.sys with hot := false } } := by rw [hfresh.rest, hwrest]
    refine ⟨w.refresh, ?_, ?_, by rw [hrest], hrest⟩
    · rw [hrow, hclears, hrest]
      exact fin_calm hs rfl rfl rfl rfl rfl
    · rw [State.stat_refresh _ (by decide) (by decide) (by decide), hbit]
  · obtain ⟨u, hu⟩ : ∃ u, ((s.setReg (clkReg n.toNat) (setBit (s.reg (clkReg n.toNat)) 17 false)).updSys
        (fun y => { y with unlocked := y.unlocked ++ [n.toNat] })).sysStat 35 true = u := ⟨_, rfl⟩
    have hlost := State.pllLost_eq hr hon hlock hf
    rw [hu] at hlost
    have hfresh := Refreshed.refresh u
    have hrow : exec (.clusterPllLoss n) s = fin s (s.pllLost n.toNat) := rfl
    have hrest : u = { s with dev := u.dev, sys := { s.sys with unlocked := s.sys.unlocked ++ [n.toNat] } } := by rw [← hu]; rfl
    have hbit : bit (u.reg (clkReg n.toNat)) 17 = false := by
      rw [← hu, State.sysStat, State.reg_setReg_ne _ _ (Ne.symm hr28)]
      refine Eq.trans (congrArg (fun r => bit r 17) (State.reg_setReg_self s _ _)) (bit_setBit_self _ _ _ (by decide))
    have hstat : bit (u.reg 0x28) 35 = true := by
      rw [← hu]
      exact State.bit_sysStat_self _ true (by decide)
    refine ⟨u.refresh, ?_, ?_, ?_, ?_⟩
    · rw [hrow, hlost, hfresh.rest, hrest]
      exact fin_calm hs rfl rfl rfl rfl rfl
    · rw [hfresh.others _ hr10 hr28, hbit]
    · rw [State.stat_refresh _ (by decide) (by decide) (by decide), hstat]
    · rw [hfresh.rest, hrest]
      exact List.mem_append_right _ (List.mem_singleton_self _)
  · have hrow : exec (.pllRelock n) s = fin s (s.pllRelocks n.toNat) := rfl
    have hlock : s.pllRelocks n.toNat = (s.setReg (clkReg n.toNat) (setBit (s.reg (clkReg n.toNat)) 17 true)).updSys
        (fun y => { y with unlocked := y.unlocked.filter (· ≠ n.toNat) }) := if_pos (by simpa using hlost)
    refine ⟨(s.setReg (clkReg n.toNat) (setBit (s.reg (clkReg n.toNat)) 17 true)).updSys
      (fun y => { y with unlocked := y.unlocked.filter (· ≠ n.toNat) }), ?_, ?_, ?_, rfl, fun off hoff => State.reg_setReg_ne s _ (Ne.symm hoff)⟩
    · rw [hrow, hlock]
      exact fin_calm hs rfl rfl rfl rfl rfl
    · exact Eq.trans (congrArg (fun r => bit r 17) (State.reg_setReg_self s _ _)) (bit_setBit_self _ _ _ (by decide))
    · simp [State.updSys]
  · obtain ⟨t, ht, hregs, hbit, hsafe, -⟩ := State.safeHold_refreshed (b := 59) hk hbusy hmode (by decide)
    have hrow : exec .evclk s = fin s s.evclk := rfl
    have hev : s.evclk = t := by
      rw [← ht]
      exact if_neg (by simp [hr])
    exact ⟨t, by rw [hrow, hev]; exact hregs.fin hs, hregs, hbit, hsafe⟩
  · obtain ⟨d, b, h⟩ := State.sensorCheck_eq hruns out
    have hrow : exec (.pllCalibration out) s = fin s (s.sensorCheck out) := rfl
    refine ⟨{ s with dev := d, bgs := { s.bgs with tel := b, excluded := out.map (fun e => e.1.toNat * 256 + e.2.toNat) } }, ?_, rfl, rfl, rfl⟩
    rw [hrow, h]
    exact fin_calm hs rfl rfl rfl rfl rfl

end Sys2Proof.Machine
end

section
/-!
PROOFS. Changes of the device mode (R650 to R653, R676): the answers of SYS_MODECMD and the end of a transition.
-/
namespace Sys2Proof.Machine

/-! ### What a refresh leaves of SYS_MODE -/

/-- In a mode that no condition changes, with no transition, SYS_STAT alone follows. -/
theorem RegsOnly.refresh_fixed {s : State} (hmode : s.mode ∉ [mBoot, mRun, mDegraded, mService, mQuiet]) (hbusy : s.modeBusy = false) :
    RegsOnly s [0x28] s.refresh := by
  simp only [List.mem_cons, List.not_mem_nil, or_false, not_or] at hmode
  obtain ⟨hboot, hrun, hdeg, hservice, hquiet⟩ := hmode
  have hshown := RegsOnly.showDegraded s
  have hkeep : RegsOnly s [0x28] s.showDegraded.checkKeep := by
    unfold State.checkKeep
    split
    · exact hshown
    · have hstat := (hshown.trans (RegsOnly.sysStat s.showDegraded 62 true)).mono (ps := [0x28]) (by simp)
      obtain ⟨u, hu⟩ : ∃ u, s.showDegraded.sysStat 62 true = u := ⟨_, rfl⟩
      rw [hu] at hstat ⊢
      have hmode : u.mode = s.mode := hstat.mode (by decide)
      have hfree : u.modeBusy = false := by rw [State.modeBusy, hstat.others _ (by decide)]; exact hbusy
      have hstay : u.autoSafeHold = u := by
        unfold State.autoSafeHold
        rw [if_neg (by simp [hfree]), if_neg (by rw [hmode]; simp [hboot, hrun, hdeg, hservice, hquiet])]
      rw [hstay]
      exact hstat
  have hmode := hkeep.mode (by decide)
  unfold State.refresh
  dsimp only
  rw [if_neg (by rw [hmode]; exact fun h => hrun h.1), if_neg (by rw [hmode]; exact fun h => hdeg h.1)]
  exact (hkeep.trans (RegsOnly.sysStat _ _ _)).mono (by simp)

/-- In Safe-Hold, with no transition, SYS_STAT alone follows. -/
theorem RegsOnly.refresh_safe {s : State} (hsafe : s.mode = mSafe) (hbusy : s.modeBusy = false) : RegsOnly s [0x28] s.refresh :=
  RegsOnly.refresh_fixed (by rw [hsafe]; decide) hbusy

/-- BUSY and RESULT stay when a mode is entered. -/
theorem State.status_setMode (s : State) (m : Nat) : (s.setMode m).modeBusy = s.modeBusy ∧ (s.setMode m).rf 0x10 14 11 = s.rf 0x10 14 11 := by
  constructor
  · unfold State.modeBusy State.setMode
    rw [State.bit_setRf_apart _ _ _ (by decide) (by decide) (by decide), State.bit_setRf_apart _ _ _ (by decide) (by decide) (by decide)]
  · unfold State.setMode
    rw [State.rf_setRf_apart _ _ _ (by decide) (by decide) (by decide), State.rf_setRf_apart _ _ _ (by decide) (by decide) (by decide)]

/-- The machine as a refresh leaves it: one of three ends. -/
theorem State.refresh_cases {s : State} (hk : s.kept = true) : ∃ u, RegsOnly s [0x28] u ∧
    (s.refresh = u.sysStat 63 u.heartbeat ∧ ¬ (u.mode = mRun ∧ u.degraded = true) ∧ ¬ (u.mode = mDegraded ∧ u.degraded = false) ∨
      s.refresh = (u.setMode mDegraded).sysStat 63 (u.setMode mDegraded).heartbeat ∧ u.degraded = true ∨
      s.refresh = (u.setMode mRun).sysStat 63 (u.setMode mRun).heartbeat ∧ u.degraded = false) := by
  refine ⟨s.showDegraded, RegsOnly.showDegraded s, ?_⟩
  unfold State.refresh
  rw [State.checkKeep_kept (State.kept_showDegraded hk)]
  dsimp only
  split
  · next h => exact .inr (.inl ⟨rfl, h.2⟩)
  · next h =>
    split
    · next h' => exact .inr (.inr ⟨rfl, by simpa using h'.2⟩)
    · next h' => exact .inl ⟨rfl, h, by simpa using h'⟩

theorem State.mode_reg_sysStat (s : State) (b : Nat) (v : Bool) : (s.sysStat b v).reg 0x10 = s.reg 0x10 := State.reg_setReg_ne _ _ (by decide)

theorem State.modeBusy_congr {s t : State} (h : t.reg 0x10 = s.reg 0x10) : t.modeBusy = s.modeBusy := by rw [State.modeBusy, h]; rfl
theorem State.rf_congr {s t : State} {off : Nat} (h : t.reg off = s.reg off) (hi lo : Nat) : t.rf off hi lo = s.rf off hi lo := by rw [State.rf, h]; rfl
theorem State.mode_congr {s t : State} (h : t.reg 0x10 = s.reg 0x10) : t.mode = s.mode := State.rf_congr h 2 0
theorem State.degraded_congr {s t : State} (h : t.rf 0x28 39 35 = s.rf 0x28 39 35) : t.degraded = s.degraded := by rw [State.degraded, h]; rfl

theorem State.degraded_sysStat (s : State) (v : Bool) : (s.sysStat 63 v).degraded = s.degraded :=
  State.degraded_congr (State.rf_setReg_bit s 0x28 v (by decide) (by decide))

theorem State.degraded_setMode (s : State) (m : Nat) : (s.setMode m).degraded = s.degraded := State.degraded_congr (State.rf_congr (State.stat_setMode s m) 39 35)

/-- BUSY and RESULT stay in a refresh. -/
theorem State.status_refresh {s : State} (hk : s.kept = true) : s.refresh.modeBusy = s.modeBusy ∧ s.refresh.rf 0x10 14 11 = s.rf 0x10 14 11 := by
  obtain ⟨u, hregs, hcases⟩ := State.refresh_cases hk
  have hu := hregs.others 0x10 (by decide)
  obtain ⟨h, -⟩ | ⟨h, -⟩ | ⟨h, -⟩ := hcases
  · have hr := (State.mode_reg_sysStat u 63 u.heartbeat).trans hu
    rw [h]
    exact ⟨State.modeBusy_congr hr, State.rf_congr hr 14 11⟩
  · have hr := State.mode_reg_sysStat (u.setMode mDegraded) 63 (u.setMode mDegraded).heartbeat
    rw [h, State.modeBusy_congr hr, State.rf_congr hr, (u.status_setMode mDegraded).1, (u.status_setMode mDegraded).2]
    exact ⟨State.modeBusy_congr hu, State.rf_congr hu 14 11⟩
  · have hr := State.mode_reg_sysStat (u.setMode mRun) 63 (u.setMode mRun).heartbeat
    rw [h, State.modeBusy_congr hr, State.rf_congr hr, (u.status_setMode mRun).1, (u.status_setMode mRun).2]
    exact ⟨State.modeBusy_congr hu, State.rf_congr hu 14 11⟩

/-- In Run or Degraded, which of the two it is follows the conditions. -/
theorem State.refresh_run {s : State} (hk : s.kept = true) (hrun : s.mode = mRun ∨ s.mode = mDegraded) :
    s.refresh.mode = if s.refresh.degraded then mDegraded else mRun := by
  obtain ⟨u, hregs, hcases⟩ := State.refresh_cases hk
  have hu : u.mode = s.mode := hregs.mode (by decide)
  obtain ⟨h, h1, h2⟩ | ⟨h, hd⟩ | ⟨h, hd⟩ := hcases
  · rw [h, State.mode_congr (State.mode_reg_sysStat u 63 _), State.degraded_sysStat]
    rw [← hu] at hrun
    rcases hrun with hrun | hrun
    · rw [hrun, if_neg (fun hd => h1 ⟨hrun, hd⟩)]
    · rw [hrun, if_pos]
      cases hdeg : u.degraded
      · exact absurd ⟨hrun, hdeg⟩ h2
      · rfl
  · rw [h, State.mode_congr (State.mode_reg_sysStat _ 63 _), State.degraded_sysStat, State.degraded_setMode, hd, State.mode_setMode _ (by decide)]
    rfl
  · rw [h, State.mode_congr (State.mode_reg_sysStat _ 63 _), State.degraded_sysStat, State.degraded_setMode, hd, State.mode_setMode _ (by decide)]
    rfl

/-! ### RESULT (R676) -/

theorem RegsOnly.modeResult (s : State) (r : Nat) : RegsOnly s [0x10] (s.modeResult r) := RegsOnly.setRf s _ _ _ _

theorem State.modeResult_shows (s : State) {r : Nat} (hr : r < 16) : (s.modeResult r).mode = s.mode ∧ (s.modeResult r).rf 0x10 10 8 = s.rf 0x10 10 8 ∧
    (s.modeResult r).rf 0x10 14 11 = r ∧ (s.modeResult r).modeBusy = s.modeBusy ∧ (s.modeResult r).degraded = s.degraded := by
  refine ⟨?_, ?_, ?_, ?_, ?_⟩
  · exact State.rf_setRf_apart s 0x10 r (by decide) (by decide) (by decide)
  · exact State.rf_setRf_apart s 0x10 r (by decide) (by decide) (by decide)
  · exact (State.rf_setRf_self s 0x10 14 11 r (by decide) (by decide)).trans (Nat.mod_eq_of_lt hr)
  · exact State.bit_setRf_apart s 0x10 r (by decide) (by decide) (by decide)
  · exact State.degraded_congr (State.rf_congr ((RegsOnly.modeResult s r).others 0x28 (by decide)) 39 35)

/-- A transition ends while no automatic Safe-Hold waits. -/
theorem State.endTransition_ends {s : State} {r : Nat} (hr : r < 16) (hk : s.kept = true) (hauto : s.sys.autoSafe = false) :
    ∃ u, s.endTransition r = u.refresh ∧ RegsOnly s [0x10] u ∧ u.kept = true ∧ u.mode = s.mode ∧ u.degraded = s.degraded ∧
      u.refresh.modeBusy = false ∧ u.refresh.rf 0x10 14 11 = r := by
  obtain ⟨v, hv⟩ : ∃ v, s.setRf 0x10 15 15 0 = v := ⟨_, rfl⟩
  have hfree : RegsOnly s [0x10] v := hv ▸ RegsOnly.setRf s _ _ _ _
  obtain ⟨hmode, -, hres, hbusy, hdeg⟩ := v.modeResult_shows hr
  have hregs : RegsOnly s [0x10] (v.modeResult r) := (hfree.trans (RegsOnly.modeResult v r)).mono (by simp)
  have huk : (v.modeResult r).kept = true := hregs.kept.trans hk
  have hends : s.endTransition r = (v.modeResult r).refresh := by
    unfold State.endTransition
    rw [hv]
    dsimp only
    rw [if_neg]
    rw [hregs.rest]
    simp [hauto]
  have hvmode : v.mode = s.mode := by
    rw [← hv]
    exact State.rf_setRf_apart s 0x10 0 (by decide) (by decide) (by decide)
  have hvbusy : v.modeBusy = false := by
    rw [← hv, State.modeBusy, bit_eq_fld]
    have := State.rf_setRf_self s 0x10 15 15 0 (by decide) (by decide)
    rw [State.rf] at this
    rw [this]
    rfl
  refine ⟨v.modeResult r, hends, hregs, huk, hmode.trans hvmode, hdeg.trans ?_, ?_, ?_⟩
  · exact State.degraded_congr (State.rf_congr (hfree.others 0x28 (by decide)) 39 35)
  · rw [(State.status_refresh huk).1, hbusy, hvbusy]
  · rw [(State.status_refresh huk).2, hres]

/-! ### SYS_MODECMD (R650, R651, R661) -/

/-- A write of SYS_MODECMD. -/
theorem State.blockStore_modeCmd (s : State) {src : Nat} (x : Nat) {op : Nat} (hsrc : src < 4) (hop : op < 16) :
    s.blockStore src x 0x18 (atFld 63 60 op) = s.modeCmd op := by
  rw [State.blockStore_sys s _ _ _ (by decide) (by decide)]
  unfold State.sysStore
  rw [if_neg (by decide), if_neg (by decide), if_neg (by decide), if_neg (by omega), if_pos rfl, fld_atFld_self (by decide) (by decide) hop]

theorem State.askSafe_eq {s : State} (hmode : s.mode ∈ [mBoot, mRun, mDegraded, mService, mQuiet]) : s.askSafe = ((s.setMode mSafe).refresh, mrDone) := by
  simp only [List.mem_cons, List.not_mem_nil, or_false] at hmode
  have hne : s.mode ≠ mSafe ∧ ¬ (s.mode = mReserve ∨ s.mode = mReset) := by
    simp only [mBoot, mRun, mDegraded, mService, mQuiet] at hmode
    simp only [mSafe, mReserve, mReset]
    omega
  unfold State.askSafe
  dsimp only
  rw [if_neg hne.1, if_neg hne.2]

theorem State.modeCmd_safe {s : State} (hbusy : s.modeBusy = false) (hmode : s.mode ∈ [mBoot, mRun, mDegraded, mService, mQuiet]) :
    ∃ t, s.modeCmd 2 = t ∧ RegsOnly s [0x10, 0x28] t ∧ t.mode = mSafe ∧ t.rf 0x10 10 8 = s.mode ∧ t.rf 0x10 14 11 = mrDone := by
  obtain ⟨u, hu⟩ : ∃ u, s.setMode mSafe = u := ⟨_, rfl⟩
  have hset : RegsOnly s [0x10] u := hu ▸ RegsOnly.setMode s mSafe
  have hsafe : u.mode = mSafe := by rw [← hu, State.mode_setMode _ (by decide)]
  have hfree : u.modeBusy = false := by rw [← hu, (s.status_setMode mSafe).1, hbusy]
  have hfresh := RegsOnly.refresh_safe hsafe hfree
  obtain ⟨hm, hp, hr, -, -⟩ := u.refresh.modeResult_shows (r := mrDone) (by decide)
  have hask : s.askSafe = (u.refresh, mrDone) := by rw [State.askSafe_eq hmode, hu]
  refine ⟨u.refresh.modeResult mrDone, ?_, ((hset.trans hfresh).trans (RegsOnly.modeResult _ _)).mono (by simp), ?_, ?_, hr⟩
  · unfold State.modeCmd
    rw [if_neg (by simp [hbusy]), if_neg (by decide), if_pos rfl, hask]
    rfl
  · rw [hm, hfresh.mode (by decide), hsafe]
  · rw [hp, State.rf_congr (hfresh.others 0x10 (by decide)), ← hu, State.prev_setMode]

theorem State.modeCmd_service {s : State} (hbusy : s.modeBusy = false) (hmode : s.mode ∈ [mRun, mDegraded]) (hk : s.kept = true) :
    ∃ t, s.modeCmd 3 = t ∧ RegsOnly s [0x10, 0x28] t ∧ t.mode = mService ∧ t.rf 0x10 10 8 = s.mode ∧ t.rf 0x10 14 11 = mrDone := by
  obtain ⟨u, hu⟩ : ∃ u, s.setMode mService = u := ⟨_, rfl⟩
  have hset : RegsOnly s [0x10] u := hu ▸ RegsOnly.setMode s mService
  have hserve : u.mode = mService := by rw [← hu, State.mode_setMode _ (by decide)]
  have hfresh := RegsOnly.refresh_stat (hset.kept.trans hk) (by rw [hserve]; decide) (by rw [hserve]; decide)
  obtain ⟨hm, hp, hr, -, -⟩ := u.refresh.modeResult_shows (r := mrDone) (by decide)
  have hask : s.askService = (u.refresh, mrDone) := by
    simp only [List.mem_cons, List.not_mem_nil, or_false] at hmode
    unfold State.askService
    dsimp only
    have hne : s.mode ≠ mService := by
      simp only [mRun, mDegraded] at hmode
      simp only [mService]
      omega
    rw [if_neg hne, if_pos hmode, hu]
  refine ⟨u.refresh.modeResult mrDone, ?_, ((hset.trans hfresh).trans (RegsOnly.modeResult _ _)).mono (by simp), ?_, ?_, hr⟩
  · unfold State.modeCmd
    rw [if_neg (by simp [hbusy]), if_neg (by decide), if_neg (by decide), if_pos rfl, hask]
    rfl
  · rw [hm, hfresh.mode (by decide), hserve]
  · rw [hp, State.rf_congr (hfresh.others 0x10 (by decide)), ← hu, State.prev_setMode]

theorem State.runMode_run (s : State) : s.runMode < 8 ∧ (s.runMode = mRun ∨ s.runMode = mDegraded) := by
  unfold State.runMode
  split
  · exact ⟨by decide, .inr rfl⟩
  · exact ⟨by decide, .inl rfl⟩

theorem State.modeCmd_run {s : State} (hbusy : s.modeBusy = false) (hmode : s.mode ∈ [mBoot, mSafe, mService]) (hfault : s.faults = false) (hk : s.kept = true)
    (hboot : s.mode = mBoot → s.ldgStat 63 = false) (hcl : s.clOn 1 = true) (hheld : s.ldg.held = []) :
    ∃ t, s.modeCmd 1 = t ∧ RegsOnly s [0x10, 0x28] t ∧ t.mode = (if t.degraded then mDegraded else mRun) ∧ t.rf 0x10 14 11 = mrDone := by
  obtain ⟨u, hu⟩ : ∃ u, s.setMode s.runMode = u := ⟨_, rfl⟩
  have hset : RegsOnly s [0x10] u := hu ▸ RegsOnly.setMode s _
  have hrun : u.mode = mRun ∨ u.mode = mDegraded := by
    rw [← hu, State.mode_setMode _ s.runMode_run.1]
    exact s.runMode_run.2
  have huk : u.kept = true := hset.kept.trans hk
  have hfresh := RegsOnly.refresh huk
  obtain ⟨hm, -, hr, -, hdeg⟩ := u.refresh.modeResult_shows (r := mrDone) (by decide)
  have hask : s.askRun = (u.refresh, mrDone) := by
    simp only [List.mem_cons, List.not_mem_nil, or_false] at hmode
    have hreplay : ¬ (s.mode = mBoot ∧ s.ldgStat 63 = true) := fun h => by simp [hboot h.1] at h
    have hne : ¬ (s.mode = mRun ∨ s.mode = mDegraded) := by
      simp only [mBoot, mSafe, mService] at hmode
      simp only [mRun, mDegraded]
      omega
    unfold State.askRun
    dsimp only
    rw [if_neg hne, if_pos hmode, if_neg (by simp [hfault]), if_neg hreplay, if_neg (by simp [hcl]), hu]
  have hregs : RegsOnly s [0x10, 0x28] (u.refresh.modeResult mrDone) := ((hset.trans hfresh).trans (RegsOnly.modeResult _ _)).mono (by simp)
  refine ⟨u.refresh.modeResult mrDone, ?_, hregs, ?_, hr⟩
  · unfold State.modeCmd
    rw [if_neg (by simp [hbusy]), if_pos rfl, hask]
    show (u.refresh.modeResult mrDone).retryHeld = _
    rw [State.retryHeld]
    have : (u.refresh.modeResult mrDone).ldg.held = [] := by
      rw [hregs.rest]
      exact hheld
    rw [this, List.foldl_nil]
  · rw [hm, hdeg, State.refresh_run huk hrun]

theorem State.modeBusy_set (s : State) : (s.setRf 0x10 15 15 1).modeBusy = true := by
  have := State.rf_setRf_self s 0x10 15 15 1 (by decide) (by decide)
  rw [State.rf] at this
  rw [State.modeBusy, bit_eq_fld, this]
  rfl

end Sys2Proof.Machine
end

section
/-!
PROOFS. Mode changes and Quiet mode (O31).
-/
namespace Sys2Proof.Machine

/-! ### The drain (R672) -/

/-- A window with nothing held is confirmed. -/
theorem State.confirm_quiet {s : State} {t : Nat} (hh : (s.twin t).hold = []) :
    let u := s.confirm t
    u = { s with ctxs := u.ctxs, twins := u.twins } ∧ (∀ y, twinOf y ≠ t → u.ctx y = s.ctx y) ∧
      (∀ j, (u.twin j).hold = (s.twin j).hold ∨ (u.twin j).hold = []) ∧ (∀ j, (u.twin j).undo = (s.twin j).undo ∨ (u.twin j).undo = []) ∧ (u.twin t).undo = [] := by
  obtain ⟨v, hv⟩ : ∃ v, s.setTwin t { s.twin t with groups := 0, misr := misrSeed, undo := [], sqtConf := [], hold := [] } = v := ⟨_, rfl⟩
  obtain ⟨cs, hcs⟩ := foldl_ctxs (f := fun s (e : Nat × Ctx) => s.updCtx e.1 (fun c => { c with run := .run })) (fun _ _ => ⟨_, rfl⟩)
    (v.ctxs.filter (fun e => twinOf e.1 = t && e.2.run = .window)) v
  have hctx : ∀ (l : List (Nat × Ctx)) (w : State) (y : Nat), (∀ e ∈ l, e.1 ≠ y) →
      (l.foldl (fun s e => s.updCtx e.1 (fun c => { c with run := .run })) w).ctx y = w.ctx y := by
    intro l
    induction l with
    | nil => exact fun _ _ _ => rfl
    | cons e l ih =>
      intro w y hl
      rw [List.foldl_cons, ih _ y (fun f hf => hl f (List.mem_cons_of_mem _ hf)), State.updCtx_eq, State.ctx_setCtx, if_neg (hl e List.mem_cons_self)]
  have hconfirm : s.confirm t = { v with ctxs := cs } := by
    unfold State.confirm
    dsimp only
    rw [hv, hh, List.append_nil, State.wakeWindow, hcs, ← hv]
    rfl
  have htwin : ∀ j, (s.confirm t).twin j = v.twin j := fun j => by rw [hconfirm]; rfl
  have hself : v.twin t = { s.twin t with groups := 0, misr := misrSeed, undo := [], sqtConf := [], hold := [] } := by rw [← hv, State.twin_setTwin_self]
  have hother : ∀ j, j ≠ t → v.twin j = s.twin j := fun j hj => by rw [← hv, State.twin_setTwin, if_neg (Ne.symm hj)]
  dsimp only
  refine ⟨?_, fun y hy => ?_, fun j => ?_, fun j => ?_, ?_⟩
  · rw [hconfirm, ← hv]
    rfl
  · have hw : (s.confirm t).ctx y = (v.wakeWindow t).ctx y := by
      rw [hconfirm, State.wakeWindow, hcs]
    have hapart : ∀ e ∈ v.ctxs.filter (fun e => twinOf e.1 = t && e.2.run = .window), e.1 ≠ y := by
      intro e he heq
      have := (List.mem_filter.mp he).2
      simp only [Bool.and_eq_true, decide_eq_true_eq] at this
      exact hy (heq ▸ this.1)
    rw [hw, State.wakeWindow, hctx _ v y hapart, ← hv]
    rfl
  · rw [htwin]
    by_cases hj : j = t
    · exact .inr (by rw [hj, hself])
    · exact .inl (by rw [hother j hj])
  · rw [htwin]
    by_cases hj : j = t
    · exact .inr (by rw [hj, hself])
    · exact .inl (by rw [hother j hj])
  · rw [htwin, hself]

/-- Windows of the gated twins confirmed one after the other. -/
theorem State.confirmAll_quiet (l : List Nat) : ∀ s : State, (∀ j, (s.twin j).hold = []) →
    let u := l.foldl (fun s t => if 4 ≤ t then s.confirm t else s) s
    u = { s with ctxs := u.ctxs, twins := u.twins } ∧ (∀ y, y < 32 → u.ctx y = s.ctx y) ∧
      (∀ j, (u.twin j).undo = (s.twin j).undo ∨ (u.twin j).undo = []) ∧ ∀ t ∈ l, 4 ≤ t → (u.twin t).undo = [] := by
  induction l with
  | nil => exact fun s _ => ⟨rfl, fun _ _ => rfl, fun _ => .inl rfl, fun t ht => absurd ht List.not_mem_nil⟩
  | cons t l ih =>
    intro s hh
    obtain ⟨v, hv⟩ : ∃ v, (if 4 ≤ t then s.confirm t else s) = v := ⟨_, rfl⟩
    have hstep : v = { s with ctxs := v.ctxs, twins := v.twins } ∧ (∀ y, y < 32 → v.ctx y = s.ctx y) ∧ (∀ j, (v.twin j).hold = []) ∧
        (∀ j, (v.twin j).undo = (s.twin j).undo ∨ (v.twin j).undo = []) ∧ (4 ≤ t → (v.twin t).undo = []) := by
      rw [← hv]
      split
      · next h4 =>
        obtain ⟨hrest, hctx, hhold, hundo, hself⟩ := State.confirm_quiet (hh t)
        refine ⟨hrest, fun y hy => hctx y ?_, fun j => (hhold j).elim (fun h => h.trans (hh j)) id, hundo, fun _ => hself⟩
        unfold twinOf
        omega
      · next h4 => exact ⟨rfl, fun _ _ => rfl, hh, fun _ => .inl rfl, fun h => absurd h h4⟩
    obtain ⟨hrest, hctx, hhold, hundo, hself⟩ := hstep
    obtain ⟨hrest', hctx', hundo', hall⟩ := ih v hhold
    dsimp only
    rw [List.foldl_cons, hv]
    refine ⟨?_, fun y hy => (hctx' y hy).trans (hctx y hy), fun j => ?_, fun j hj h4 => ?_⟩
    · rw [hrest', hrest]
    · rcases hundo' j with h | h
      · rw [h]
        exact hundo j
      · exact .inr h
    · rcases List.mem_cons.mp hj with rfl | hj
      · rcases hundo' j with h | h
        · rw [h]
          exact hself h4
        · exact h
      · exact hall j hj h4

/-- QUIET_DRAIN_DONE. -/
theorem State.quietDrained_eq {s : State} (hq : s.sys.quiet = .drain) (hd : s.quietDraining = false) (hh : ∀ u, (s.twin u).hold = []) :
    ∃ t, s.quietDrained = t ∧ t = { s with ctxs := t.ctxs, twins := t.twins, sys := { s.sys with quiet := .sweep } } ∧
      (∀ e ∈ s.ctxs, 32 ≤ e.1 → (t.ctx e.1).frozen = true) ∧ (∀ y, y < 32 → t.ctx y = s.ctx y) ∧ (∀ u, 4 ≤ u → u < 32 → (t.twin u).undo = []) := by
  obtain ⟨hrest, hctx, -, hall⟩ := State.confirmAll_quiet (List.range 32) s hh
  obtain ⟨v, hv⟩ : ∃ v, (List.range 32).foldl (fun s t => if 4 ≤ t then s.confirm t else s) s = v := ⟨_, rfl⟩
  obtain ⟨xs, hxs⟩ : ∃ xs, (s.ctxs.map (·.1)).filter gatedCtx = xs := ⟨_, rfl⟩
  rw [hv] at hrest hctx hall
  obtain ⟨cs, hcs⟩ := foldl_ctxs (f := fun s x => s.updCtx x (fun c => { c with frozen := true })) (fun _ _ => ⟨_, rfl⟩) xs v
  have hfreeze := ctx_foldl_idem (g := fun c => { c with frozen := true }) (fun _ => rfl) xs v
  have hdrained : s.quietDrained = (v.freeze xs).updSys (fun y => { y with quiet := .sweep }) := by
    unfold State.quietDrained
    rw [if_neg (by simp [hq, hd])]
    dsimp only
    rw [hv, hxs]
  have hmem : ∀ e ∈ s.ctxs, 32 ≤ e.1 → e.1 ∈ xs := by
    intro e he hle
    rw [← hxs, List.mem_filter]
    exact ⟨List.mem_map_of_mem he, decide_eq_true hle⟩
  have hnot : ∀ y, y < 32 → y ∉ xs := by
    intro y hy hin
    rw [← hxs, List.mem_filter] at hin
    have := of_decide_eq_true hin.2
    omega
  refine ⟨_, hdrained, ?_, fun e he hle => ?_, fun y hy => ?_, fun u h4 h32 => ?_⟩
  · rw [State.freeze, hcs, hrest]
    rfl
  · show ((v.freeze xs).ctx e.1).frozen = true
    rw [State.freeze, hfreeze, if_pos (hmem e he hle)]
  · show (v.freeze xs).ctx y = s.ctx y
    rw [State.freeze, hfreeze, if_neg (hnot y hy), hctx y hy]
  · show ((v.freeze xs).twin u).undo = []
    rw [State.twin_freeze]
    exact hall u (List.mem_range.mpr h32) h4

/-- QUIET_DRAIN_TIMEOUT. -/
theorem State.quietTimeout_eq {s : State} (hq : s.sys.quiet = .drain) (hauto : s.sys.autoSafe = false) (hreq : s.sys.modeReq = none) (hheld : s.ldg.held = [])
    (hk : s.kept = true) : ∃ t, s.quietTimeout = t ∧ t = { s with dev := t.dev, time := t.time, sys := { s.sys with quiet := .none } } ∧
      t.modeBusy = false ∧ t.rf 0x10 14 11 = mrDrain ∧ s.sys.quietEnd.toNat ≤ t.time.toNat := by
  obtain ⟨v, hv⟩ : ∃ v, (s.timeTo s.sys.quietEnd).updSys (fun y => { y with quiet := .none }) = v := ⟨_, rfl⟩
  have htime : v = { s with time := v.time, sys := { s.sys with quiet := .none } } ∧ s.sys.quietEnd.toNat ≤ v.time.toNat := by
    rw [← hv]
    unfold State.timeTo
    split
    · exact ⟨rfl, Nat.le_refl _⟩
    · next h => exact ⟨rfl, Nat.le_of_not_lt h⟩
  obtain ⟨hvrest, hpast⟩ := htime
  have hvk : v.kept = true := (State.kept_congr (by rw [hvrest])).trans hk
  obtain ⟨u, hends, hregs, huk, -, -, hbusy, hres⟩ := State.endTransition_ends (s := v) (r := mrDrain) (by decide) hvk (by rw [hvrest]; exact hauto)
  have hfresh := RegsOnly.refresh huk
  have hrest : u.refresh = { s with dev := u.refresh.dev, time := v.time, sys := { s.sys with quiet := .none } } := by
    rw [hfresh.rest, hregs.rest, hvrest]
  have hquiet : s.quietTimeout = u.refresh := by
    unfold State.quietTimeout
    rw [if_neg (by simp [hq])]
    dsimp only
    rw [hv, hends]
    have hnoreq : u.refresh.endModeReq apNotAllowed = u.refresh := by
      unfold State.endModeReq
      have : u.refresh.sys.modeReq = none := by rw [hrest]; exact hreq
      rw [this]
    rw [hnoreq, State.retryHeld]
    have : u.refresh.ldg.held = [] := by rw [hrest]; exact hheld
    rw [this, List.foldl_nil]
  refine ⟨u.refresh, hquiet, ?_, hbusy, hres, ?_⟩
  · rw [hrest]
  · rw [hrest]
    exact hpast

/-! ### The wake (R673, R674) -/

/-- The clock registers of a list of clusters changed in one way. -/
theorem State.setClocks (g : Pay → Pay) (l : List Nat) (hl : l.Nodup) (s : State) :
    let t := l.foldl (fun s n => s.setReg (0x100 + 8 * n) (g (s.reg (0x100 + 8 * n)))) s
    t = { s with dev := t.dev } ∧ (∀ n ∈ l, t.reg (clkReg n) = g (s.reg (clkReg n))) ∧ ∀ off, (∀ n ∈ l, off ≠ clkReg n) → t.reg off = s.reg off := by
  induction l generalizing s with
  | nil => exact ⟨rfl, fun n hn => absurd hn List.not_mem_nil, fun _ _ => rfl⟩
  | cons m l ih =>
    rw [List.nodup_cons] at hl
    obtain ⟨hrest, hnew, hothers⟩ := ih hl.2 (s.setReg (0x100 + 8 * m) (g (s.reg (0x100 + 8 * m))))
    dsimp only
    rw [List.foldl_cons]
    refine ⟨by rw [hrest]; rfl, fun n hn => ?_, fun off hoff => ?_⟩
    · rcases List.mem_cons.mp hn with rfl | hn
      · rw [hothers _ (fun k hk => ?_)]
        · exact State.reg_setReg_self s _ _
        · unfold clkReg
          have : k ≠ n := fun h => hl.1 (h ▸ hk)
          omega
      · have hne : m ≠ n := fun h => hl.1 (h ▸ hn)
        rw [hnew n hn, State.reg_setReg_ne _ _ (by unfold clkReg; omega)]
    · exact (hothers off (fun k hk => hoff k (List.mem_cons_of_mem _ hk))).trans (State.reg_setReg_ne s _ (Ne.symm (hoff m List.mem_cons_self)))

/-- The wake starts. -/
theorem State.startWake_eq (s : State) : ∃ t, s.startWake = t ∧ t = { s with dev := t.dev, sys := { s.sys with quiet := .waking, wakeReq := false } } ∧
    t.modeBusy = true ∧ ∀ n ∈ gatedClusters, bit (t.reg (clkReg n)) 16 = false := by
  obtain ⟨hrest, hnew, -⟩ := State.setClocks (fun r => setBit r 16 false) gatedClusters (by decide) s
  obtain ⟨u, hu⟩ : ∃ u, gatedClusters.foldl (fun s n => s.setReg (0x100 + 8 * n) (setBit (s.reg (0x100 + 8 * n)) 16 false)) s = u := ⟨_, rfl⟩
  have hstart : s.startWake = (u.setRf 0x10 15 15 1).updSys (fun y => { y with quiet := .waking, wakeReq := false }) := by
    rw [← hu]
    rfl
  rw [hu] at hrest hnew
  refine ⟨_, hstart, ?_, ?_, fun n hn => ?_⟩
  · rw [hrest]
    rfl
  · exact u.modeBusy_set
  · refine Eq.trans (congrArg (fun r => bit r 16) (State.reg_setReg_ne u _ (Ne.symm (clkReg_apart n).1))) ?_
    rw [hnew n hn]
    exact bit_setBit_self _ _ _ (by decide)

/-! ### The end of the wake (R674) -/

theorem Tbl.erase_unlisted {α : Type} {t : Tbl α} {k : Nat} (h : ∀ e ∈ t, e.1 ≠ k) : Tbl.erase t k = t := by
  induction t with
  | nil => rfl
  | cons e t ih =>
    rw [Tbl.erase, if_neg (h e List.mem_cons_self), ih (fun f hf => h f (List.mem_cons_of_mem _ hf))]

/-- The machine with contexts of gated clusters gone; those that were never there are not listed. -/
structure Upper (s u : State) : Prop where
  rest : u = { s with ctxs := u.ctxs, twins := u.twins }
  ctx : ∀ y, y < 32 → u.ctx y = s.ctx y
  twin : ∀ j, j < 4 → u.twin j = s.twin j
  unlisted : (∀ e ∈ s.ctxs, e.1 < 32) → u.ctxs = s.ctxs

namespace Upper

variable {s u v : State}

theorem refl (s : State) : Upper s s := ⟨rfl, fun _ _ => rfl, fun _ _ => rfl, fun _ => rfl⟩

theorem trans (h : Upper s u) (g : Upper u v) : Upper s v := by
  refine ⟨by rw [g.rest, h.rest], fun y hy => (g.ctx y hy).trans (h.ctx y hy), fun j hj => (g.twin j hj).trans (h.twin j hj), fun hl => ?_⟩
  have hu := h.unlisted hl
  exact (g.unlisted (by rw [hu]; exact hl)).trans hu

/-- A context that is not listed reads as reset, and is not listed once it is reset. -/
theorem ctx_unlisted {s : State} {x : Nat} (h : ∀ e ∈ s.ctxs, e.1 ≠ x) : s.ctx x = Ctx.reset := by
  rw [State.ctx, Tbl.get, Tbl.look_eq_none h]
  rfl

theorem setCtx_unlisted {s : State} {x : Nat} (h : ∀ e ∈ s.ctxs, e.1 ≠ x) : s.setCtx x Ctx.reset = s := by
  have hset : Tbl.set (fun _ => Ctx.reset) s.ctxs x Ctx.reset = s.ctxs := by rw [Tbl.set, if_pos rfl, Tbl.erase_unlisted h]
  unfold State.setCtx
  rw [hset]

theorem setTwin (s : State) {t : Nat} (w : Twin) (ht : 4 ≤ t) : Upper s (s.setTwin t w) :=
  ⟨rfl, fun _ _ => rfl, fun j hj => by rw [State.twin_setTwin, if_neg (by omega)], fun _ => rfl⟩

theorem forN {f : Nat → State → State} {lo : Nat} (hf : ∀ i s, lo ≤ i → Upper s (f i s)) (n : Nat) : ∀ (k : Nat) (s : State), lo ≤ k →
    Upper s (Machine.forN n k f s) := by
  induction n with
  | zero => exact fun _ s _ => refl s
  | succ n ih => exact fun k s hk => (hf k s hk).trans (ih (k + 1) _ (by omega))

theorem dropUpper (s : State) {t : Nat} (ht : 4 ≤ t) : Upper s (s.dropUpper t) := by
  unfold State.dropUpper
  refine forN (lo := 32) (fun x s hx => ?_) 4 (8 * t) s (by omega)
  extract_lets c s1 s2
  by_cases hl : ∀ e ∈ s.ctxs, e.1 < 32
  · have hne : ∀ y, 32 ≤ y → ∀ e ∈ s.ctxs, e.1 ≠ y := fun y hy e he => by have := hl e he; omega
    have hc : c = Ctx.reset := ctx_unlisted (hne _ (by omega))
    have h1 : s1 = s := setCtx_unlisted (hne _ (by omega))
    have h2 : s2 = s := by
      simp only [s2, h1, hc, State.updCtx_eq, ctx_unlisted (hne x hx)]
      exact setCtx_unlisted (hne x hx)
    rw [hc, if_neg (by decide), h2]
    exact refl s
  · have h1 : ∀ y, y < 32 → s1.ctx y = s.ctx y := fun y hy => by rw [State.ctx_setCtx, if_neg (by omega)]
    have hupd : ∀ (w : State) (f : Ctx → Ctx) (y : Nat), y < 32 → (w.updCtx x f).ctx y = w.ctx y :=
      fun w f y hy => by rw [State.updCtx_eq, State.ctx_setCtx, if_neg (by omega)]
    have h2 : ∀ y, y < 32 → s2.ctx y = s.ctx y := fun y hy => (hupd s1 _ y hy).trans (h1 y hy)
    split
    · exact ⟨rfl, fun y hy => (hupd s2 _ y hy).trans (h2 y hy), fun _ _ => rfl, fun h => absurd h hl⟩
    · exact ⟨rfl, h2, fun _ _ => rfl, fun h => absurd h hl⟩

theorem mode_dropUpper (s : State) (t j : Nat) : ((s.dropUpper t).twin j).mode = (s.twin j).mode := by
  have h : (s.dropUpper t).twins = s.twins := by
    unfold State.dropUpper
    refine State.forN_keeps (P := fun u => u.twins = s.twins) _ (fun i u hu => ?_) 4 (8 * t) rfl
    dsimp only
    split <;> exact hu
  rw [State.twin, h]
  rfl

/-- The twins of the gated clusters come back tight. -/
theorem tighten (n : Nat) : ∀ (k : Nat) (s : State), 4 ≤ k →
    let u := Machine.forN n k (fun t s => (s.updTwin t (fun w => { w with mode := .tight })).dropUpper t) s
    Upper s u ∧ (∀ j, (s.twin j).mode = .tight → (u.twin j).mode = .tight) ∧ ∀ j, k ≤ j → j < k + n → (u.twin j).mode = .tight := by
  induction n with
  | zero => exact fun k s _ => ⟨refl s, fun _ h => h, fun j h1 h2 => by omega⟩
  | succ n ih =>
    intro k s hk
    obtain ⟨v, hv⟩ : ∃ v, (s.updTwin k (fun w => { w with mode := .tight })).dropUpper k = v := ⟨_, rfl⟩
    have hvup : Upper s v := hv ▸ (setTwin s { s.twin k with mode := .tight } hk).trans (dropUpper _ hk)
    have hself : (v.twin k).mode = .tight := by
      rw [← hv, mode_dropUpper, State.updTwin, State.twin_setTwin_self]
    have hkeep : ∀ j, (s.twin j).mode = .tight → (v.twin j).mode = .tight := by
      intro j hj
      by_cases hjk : j = k
      · rw [hjk, hself]
      · rw [← hv, mode_dropUpper, State.updTwin, State.twin_setTwin, if_neg (Ne.symm hjk), hj]
    obtain ⟨hup, hall, hnew⟩ := ih (k + 1) v (by omega)
    dsimp only
    rw [Machine.forN, hv]
    refine ⟨hvup.trans hup, fun j hj => hall j (hkeep j hj), fun j h1 h2 => ?_⟩
    by_cases hjk : j = k
    · exact hall j (by rw [hjk, hself])
    · exact hnew j (by omega) (by omega)

end Upper

/-- A cluster's clock with its PLL locked at the point in force. -/
def lockedClock (r : Pay) : Pay := setFld (setBit r 17 true) 10 8 (if bit r 18 then max 2 (fld r 2 0) else fld r 2 0)

theorem bit_lockedClock (r : Pay) : bit (lockedClock r) 17 = true := by
  unfold lockedClock
  rw [bit_setFld_disjoint _ _ _ _ _ (by decide) (by decide) (by decide), bit_setBit_self _ _ _ (by decide)]

/-- A mode other than Run and Degraded stays in a refresh. -/
theorem State.refresh_other {s : State} (hk : s.kept = true) (h1 : s.mode ≠ mRun) (h2 : s.mode ≠ mDegraded) : s.refresh.mode = s.mode := by
  obtain ⟨u, hu⟩ : ∃ u, s.showDegraded = u := ⟨_, rfl⟩
  have hmode : u.mode = s.mode := hu ▸ (RegsOnly.showDegraded s).mode (by decide)
  have hfresh : s.refresh = u.sysStat 63 u.heartbeat := by
    unfold State.refresh
    rw [State.checkKeep_kept (State.kept_showDegraded hk), hu]
    dsimp only
    rw [if_neg (fun h => h1 (hmode ▸ h.1)), if_neg (fun h => h2 (hmode ▸ h.1))]
  rw [hfresh, State.mode_congr (State.mode_reg_sysStat u 63 _), hmode]

/-- A transition that ends in the mode `m`, with nothing asked for it. -/
theorem State.enterMode_eq {s : State} {m : Nat} (hm : m < 8) (hauto : s.sys.autoSafe = false) (hk : s.kept = true) :
    ∃ t, (s.setMode m).endTransition mrDone = t ∧ t = { s with dev := t.dev } ∧ (∀ off, off ≠ 0x10 → off ≠ 0x28 → t.reg off = s.reg off) ∧
      t.modeBusy = false ∧ t.rf 0x10 14 11 = mrDone ∧ ((m = mRun ∨ m = mDegraded) → t.mode = (if t.degraded then mDegraded else mRun)) ∧
      (m ≠ mRun → m ≠ mDegraded → t.mode = m) := by
  have hset := RegsOnly.setMode s m
  have hmode := State.mode_setMode s hm
  obtain ⟨v, hv⟩ : ∃ v, s.setMode m = v := ⟨_, rfl⟩
  rw [hv] at hset hmode ⊢
  have hvk : v.kept = true := hset.kept.trans hk
  obtain ⟨u, hends, hregs, huk, humode, -, hbusy, hres⟩ := State.endTransition_ends (s := v) (r := mrDone) (by decide) hvk (by rw [hset.rest]; exact hauto)
  have hfresh := RegsOnly.refresh huk
  refine ⟨u.refresh, hends, ?_, fun off h1 h2 => ?_, hbusy, hres, fun hrun => ?_, fun h1 h2 => ?_⟩
  · rw [hfresh.rest, hregs.rest, hset.rest]
  · rw [hfresh.others off (by simp [h1, h2]), hregs.others off (by simpa using h1), hset.others off (by simpa using h1)]
  · exact State.refresh_run huk (by rw [humode, hmode]; exact hrun)
  · exact (State.refresh_other huk (by rw [humode, hmode]; exact h1) (by rw [humode, hmode]; exact h2)).trans (humode.trans hmode)

/-- The mode asked for that is now shown ends; without one nothing happens. -/
theorem State.endModeReq_none {s : State} (h : s.sys.modeReq = none) (app : Nat) : s.endModeReq app = s := by
  unfold State.endModeReq
  rw [h]

/-- A round over cores changes the cores. -/
theorem State.forN_cores (f : Nat → State → Core → Core) (n : Nat) : ∀ (k : Nat) (s : State), ∃ cs, Machine.forN n k (fun k s => s.updCore k (f k s)) s = { s with cores := cs } := by
  induction n with
  | zero => exact fun _ s => ⟨s.cores, rfl⟩
  | succ n ih =>
    intro k s
    obtain ⟨cs, hcs⟩ := ih (k + 1) (s.updCore k (f k s))
    exact ⟨cs, hcs⟩

/-- QUIET_WAKE_DONE. -/
theorem State.wakeDone_eq {s : State} (hq : s.sys.quiet = .waking) (hauto : s.sys.autoSafe = false) (hreq : s.sys.modeReq = none) (hhalt : s.sys.haltReq = none)
    (hk : s.kept = true) (hun : s.unbound 0x62 = true) :
    ∃ t, s.wakeDone = t ∧ (t = { s with dev := t.dev, ctxs := t.ctxs, twins := t.twins, cores := t.cores, sys := { s.sys with quiet := .none } }) ∧
      t.mode = (if t.degraded then mDegraded else mRun) ∧ t.modeBusy = false ∧ t.rf 0x10 14 11 = mrDone ∧ (∀ y, y < 32 → t.ctx y = s.ctx y) ∧
      ((∀ e ∈ s.ctxs, e.1 < 32) → t.ctxs = s.ctxs) ∧ (∀ u, 4 ≤ u → u < 32 → (t.twin u).mode = .tight) ∧
      ∀ n ∈ gatedClusters, bit (t.reg (clkReg n)) 17 = true := by
  obtain ⟨t, ht⟩ : ∃ t, s.wakeDone = t := ⟨_, rfl⟩
  refine ⟨t, ht, ?_⟩
  unfold State.wakeDone at ht
  rw [if_neg (by simp [hq])] at ht
  extract_lets s1 s2 phases s3 s4 s5 at ht
  obtain ⟨hup, -, htight⟩ : Upper s s1 ∧ _ ∧ ∀ j, 4 ≤ j → j < 4 + 28 → (s1.twin j).mode = .tight := Upper.tighten 28 4 s (by decide)
  clear_value s1
  obtain ⟨hrest2, hnew2, hothers2⟩ : s2 = { s1 with dev := s2.dev } ∧ (∀ n ∈ gatedClusters, s2.reg (clkReg n) = lockedClock (s1.reg (clkReg n))) ∧
      ∀ off, (∀ n ∈ gatedClusters, off ≠ clkReg n) → s2.reg off = s1.reg off := State.setClocks lockedClock gatedClusters (by decide) s1
  clear_value s2 phases
  obtain ⟨cs, hcs⟩ : ∃ cs, s3 = { s2 with cores := cs } :=
    State.forN_cores (fun k s c => { c with satb := phases, latch0 := s.latchOf k (s.rf (oSec + 0xE00) 47 11 * 2048) true }) 56 8 s2
  have hrun := s3.runMode_run
  have hs5 : s5 = ((((s3.updSys (fun y => { y with quiet := .none, haltReq := none })).setMode s3.runMode).endTransition mrDone).assertSource 0x62).endModeReq 0 := rfl
  clear_value s5 s4
  generalize s3.runMode = m at hrun hs5
  clear_value s3
  obtain ⟨v, hv⟩ : ∃ v, s3.updSys (fun y => { y with quiet := .none, haltReq := none }) = v := ⟨_, rfl⟩
  have hrestv : v = { s with dev := s2.dev, ctxs := s1.ctxs, twins := s1.twins, cores := cs, sys := { s.sys with quiet := .none } } := by
    generalize s2.dev = d at hrest2 ⊢
    rw [← hv, hcs, hrest2, hup.rest]
    simp only [State.updSys, ← hhalt]
  have hregv : ∀ off, v.reg off = s2.reg off := fun off => by rw [hrestv]; rfl
  have hkv : v.kept = true := by
    have htw : ∀ j, v.twin j = s1.twin j := fun j => by rw [hrestv]; rfl
    rw [State.kept, htw, htw, hup.twin 0 (by decide), hup.twin 1 (by decide)]
    exact hk
  obtain ⟨u, hend, hrestu, hregu, hbusy, hres, hmode, -⟩ := State.enterMode_eq (s := v) (m := m) hrun.1 (by rw [hrestv]; exact hauto) hkv
  have hrest : u = { s with dev := u.dev, ctxs := s1.ctxs, twins := s1.twins, cores := cs, sys := { s.sys with quiet := .none } } := by
    rw [hrestu, hrestv]
  have hunu : u.unbound 0x62 = true := by
    have hcl : ∀ n ∈ gatedClusters, n < 8 := by decide
    have hevr : u.reg (oEvr + 0x1000 + 8 * 0x62) = s.reg (oEvr + 0x1000 + 8 * 0x62) := by
      rw [hregu _ (by decide) (by decide), hregv, hothers2 _ (fun n hn => by have := hcl n hn; unfold clkReg oEvr; omega), hup.rest]
      rfl
    rw [State.unbound, hevr]
    exact hun
  have htu : t = u := by
    rw [← ht, hhalt]
    dsimp only
    rw [hs5, hv, hend, State.assertSource_unbound hunu, State.endModeReq_none (by rw [hrest]; exact hreq)]
  rw [htu]
  refine ⟨by rw [hrest], hmode hrun.2, hbusy, hres, fun y hy => ?_, fun hl => ?_, fun j h4 h32 => ?_, fun n hn => ?_⟩
  · rw [← hup.ctx y hy, hrest]
    rfl
  · rw [hrest]
    exact hup.unlisted hl
  · rw [← htight j h4 (by omega), hrest]
    rfl
  · rw [hregu _ (clkReg_apart n).1 (clkReg_apart n).2, hregv, hnew2 n hn]
    exact bit_lockedClock _

/-! ### The clusters lose their power (R672) -/

/-- No line of an L2 of a gated cluster is poisoned. -/
def State.cleanL2 (s : State) : Prop := ∀ e ∈ s.clusters, 1 ≤ e.1 → ∀ l ∈ e.2.l2, l.2.poison = false

theorem State.cleanL2_cluster {s : State} (h : s.cleanL2) {n : Nat} (hn : 1 ≤ n) : ∀ l ∈ (s.cluster n).l2, l.2.poison = false := by
  intro l hl
  unfold State.cluster Tbl.get at hl
  cases hlook : Tbl.look s.clusters n with
  | none =>
    rw [hlook] at hl
    cases hl
  | some c =>
    rw [hlook] at hl
    exact h _ (Tbl.mem_of_look hlook) hn l hl

theorem State.cleanL2_setCluster {s : State} {n : Nat} {c : Cluster} (hc : 1 ≤ n → ∀ l ∈ c.l2, l.2.poison = false) (h : s.cleanL2) : (s.setCluster n c).cleanL2 := by
  intro e he hn
  obtain rfl | he := Tbl.mem_of_mem_set (d := fun _ => Cluster.reset) (t := s.clusters) he
  · exact hc hn
  · exact h e he hn

/-- The machine after copies have left caches: what they held stands in caches, buffers or memory, which reads as before. -/
structure Swept (s u : State) : Prop where
  rest : u = { s with cores := u.cores, clusters := u.clusters, backing := u.backing, txns := u.txns, nextTxn := u.nextTxn, queues := u.queues }
  intake : s.idleIntakes → u.idleIntakes
  clean : s.cleanL2 → u.cleanL2

namespace Swept

variable {s u v : State}

theorem refl (s : State) : Swept s s := ⟨rfl, id, id⟩

theorem trans (h : Swept s u) (g : Swept u v) : Swept s v := by
  refine ⟨?_, fun hi => g.intake (h.intake hi), fun hc => g.clean (h.clean hc)⟩
  rw [g.rest, h.rest]

theorem foldl {β : Type} {f : State → β → State} (hf : ∀ s b, Swept s (f s b)) (l : List β) (s : State) : Swept s (l.foldl f s) := by
  induction l generalizing s with
  | nil => exact refl s
  | cons b l ih => exact (hf s b).trans (ih _)

theorem forN {f : Nat → State → State} (hf : ∀ i s, Swept s (f i s)) (n k : Nat) (s : State) : Swept s (Machine.forN n k f s) := by
  induction n generalizing k s with
  | zero => exact refl s
  | succ n ih => exact (hf k s).trans (ih (k + 1) _)

theorem updCore (s : State) (k : Nat) (f : Core → Core) : Swept s (s.updCore k f) := ⟨rfl, id, id⟩
theorem writeBack (s : State) (line : Nat) : Swept s (s.writeBack line) := ⟨rfl, id, id⟩

/-- A cluster whose L2 gains no poison. -/
theorem updCluster (s : State) (n : Nat) (f : Cluster → Cluster) (hf : ∀ c, (f c).intake = c.intake)
    (hp : (∀ l ∈ (s.cluster n).l2, l.2.poison = false) → ∀ l ∈ (f (s.cluster n)).l2, l.2.poison = false) : Swept s (s.updCluster n f) :=
  ⟨rfl, State.idleIntakes_updCluster hf, fun h => State.cleanL2_setCluster (fun hn => hp (State.cleanL2_cluster h hn)) h⟩

theorem l1dDrop (s : State) (k line : Nat) : Swept s (s.l1dDrop k line) := by
  unfold State.l1dDrop
  split
  · exact refl s
  · next l _ =>
    obtain ⟨v, hv⟩ : ∃ v, s.updCore k (fun c => { c with l1d := Tbl.erase c.l1d line }) = v := ⟨_, rfl⟩
    have hdrop : Swept s v := hv ▸ updCore s k _
    dsimp only
    rw [hv]
    split
    · exact hdrop
    · split
      · next m hm =>
        refine hdrop.trans (updCluster v _ _ (by intro; rfl) (fun hc e he => ?_))
        obtain rfl | he := Tbl.mem_insert he
        · exact hc (line, m) (Tbl.mem_of_look hm)
        · exact hc e he
      · exact hdrop.trans (writeBack _ _)

theorem l1dDropAll (s : State) (n line : Nat) : Swept s (s.l1dDropAll n line) := foldl (fun v k => l1dDrop v k line) _ s
theorem l1iDropAll (s : State) (n line : Nat) : Swept s (s.l1iDropAll n line) := foldl (fun v k => updCore v k _) _ s
theorem emptyL1d (s : State) (k : Nat) (keep : Bool) : Swept s (s.emptyL1d k keep) := foldl (fun v line => l1dDrop v k line) _ s

theorem sendReq (s : State) (src x pa width : Nat) (kind : TxnKind) (out : Option Out) : Swept s (s.sendReq src x pa width kind out).2 := by
  unfold State.sendReq
  dsimp only
  split
  · exact ⟨rfl, id, id⟩
  · exact ⟨rfl, id, id⟩

theorem evictLine (s : State) (n line : Nat) : Swept s (s.evictLine n line) := by
  unfold State.evictLine
  split
  · exact writeBack s line
  · exact sendReq s _ _ _ _ _ _

theorem l2Drop (s : State) (n line : Nat) (toMemory : Bool) : Swept s (s.l2Drop n line toMemory) := by
  have hl1 := (l1dDropAll s n line).trans (l1iDropAll _ n line)
  unfold State.l2Drop
  dsimp only
  split
  · exact hl1
  · next m hm =>
    obtain ⟨v, hv⟩ : ∃ v, ((s.l1dDropAll n line).l1iDropAll n line).updCluster n (fun c => { c with l2 := Tbl.erase c.l2 line }) = v := ⟨_, rfl⟩
    have herase : Swept s v := hv ▸ hl1.trans (updCluster _ n _ (by intro; rfl) (fun hc e he => hc e (Tbl.mem_erase he)))
    rw [hv]
    obtain ⟨w, hw⟩ : ∃ w, (if m.dirty = true ∧ toMemory = true then v.evictLine n line else v) = w := ⟨_, rfl⟩
    have hevict : Swept s w := by
      rw [← hw]
      split
      · exact herase.trans (evictLine v n line)
      · exact herase
    rw [hw]
    split
    · exact hevict.trans (updCluster w n _ (by intro; rfl) id)
    · exact hevict

end Swept

/-- The machine after clusters of 1 to 7 lost their power: clusters that are off stay off, and so do contexts that are not started. -/
structure Gated (s u : State) : Prop where
  rest : u = { s with
    dev := u.dev, ctxs := u.ctxs, twins := u.twins, bgs := u.bgs, cores := u.cores, clusters := u.clusters, backing := u.backing,
    txns := u.txns, nextTxn := u.nextTxn, queues := u.queues }
  intake : s.idleIntakes → u.idleIntakes
  clean : s.cleanL2 → u.cleanL2
  ctx : ∀ y, y < 32 → u.ctx y = s.ctx y
  twin : ∀ j, j < 4 → u.twin j = s.twin j
  off : ∀ j, (s.twin j).mode = .off → (u.twin j).mode = .off
  stopped : ∀ x, (s.ctx x).started = false → (u.ctx x).started = false

namespace Gated

variable {s u v : State}

theorem refl (s : State) : Gated s s := ⟨rfl, id, id, fun _ _ => rfl, fun _ _ => rfl, fun _ => id, fun _ => id⟩

theorem trans (h : Gated s u) (g : Gated u v) : Gated s v := by
  refine ⟨?_, fun hi => g.intake (h.intake hi), fun hc => g.clean (h.clean hc), fun y hy => (g.ctx y hy).trans (h.ctx y hy),
    fun j hj => (g.twin j hj).trans (h.twin j hj), fun j hj => g.off j (h.off j hj), fun x hx => g.stopped x (h.stopped x hx)⟩
  rw [g.rest, h.rest]

theorem of_swept (h : Swept s u) : Gated s u := by
  have hctx : ∀ y, u.ctx y = s.ctx y := fun y => by rw [h.rest]; rfl
  have htwin : ∀ j, u.twin j = s.twin j := fun j => by rw [h.rest]; rfl
  refine ⟨by rw [h.rest], h.intake, h.clean, fun y _ => hctx y, fun j _ => htwin j, fun j hj => ?_, fun x hx => ?_⟩
  · rw [htwin]
    exact hj
  · rw [hctx]
    exact hx

theorem dropCtx (s : State) {x : Nat} (hx : 32 ≤ x) : Gated s (s.dropCtx x) ∧ ((s.dropCtx x).ctx x).started = false := by
  have hctx : ∀ y, (s.dropCtx x).ctx y = if x = y then { Ctx.reset with evHeld := (s.ctx x).evHeld, linesHeld := (s.ctx x).linesHeld } else s.ctx y := by
    intro y
    rw [State.dropCtx, State.updCtx_eq, State.ctx_setCtx]
  refine ⟨⟨rfl, id, id, fun y hy => ?_, fun _ _ => rfl, fun _ => id, fun y hy => ?_⟩, ?_⟩
  · rw [hctx, if_neg (by omega)]
  · rw [hctx]
    split
    · rfl
    · exact hy
  · rw [hctx, if_pos rfl]
    rfl

theorem setTwin (s : State) {t : Nat} {w : Twin} (ht : 4 ≤ t) (hw : w.mode = .off) : Gated s (s.setTwin t w) ∧ ((s.setTwin t w).twin t).mode = .off := by
  refine ⟨⟨rfl, id, id, fun _ _ => rfl, fun j hj => by rw [State.twin_setTwin, if_neg (by omega)], fun j hj => ?_, fun _ => id⟩, ?_⟩
  · rw [State.twin_setTwin]
    split
    · exact hw
    · exact hj
  · rw [State.twin_setTwin_self, hw]

/-- What each round of a loop brings about, and no later round undoes, holds at its end for every index. -/
theorem forN_all {f : Nat → State → State} {P : Nat → State → Prop} {lo : Nat} (hf : ∀ i s, lo ≤ i → Gated s (f i s) ∧ P i (f i s))
    (hP : ∀ i s u, Gated s u → P i s → P i u) (n : Nat) : ∀ (k : Nat) (s : State), lo ≤ k →
      Gated s (Machine.forN n k f s) ∧ ∀ i, k ≤ i → i < k + n → P i (Machine.forN n k f s) := by
  induction n with
  | zero => exact fun k s _ => ⟨refl s, fun i h1 h2 => by omega⟩
  | succ n ih =>
    intro k s hk
    obtain ⟨hstep, hnew⟩ := hf k s hk
    obtain ⟨hrest, hall⟩ := ih (k + 1) (f k s) (by omega)
    refine ⟨hstep.trans hrest, fun i h1 h2 => ?_⟩
    by_cases hik : i = k
    · subst hik
      exact hP i _ _ hrest hnew
    · exact hall i (by omega) (by omega)

/-- The caches of cluster n are written back, and its cores are at reset. -/
def sweepCluster (s : State) (n : Nat) : State :=
  forN 8 (8 * n) (fun k s => (s.emptyL1d k true).setCore k Core.reset)
    ((s.cluster n).l2.foldl (fun s e => if e.2.poison then s.discard e.1 else s.l2Drop n e.1 true) s)

/-- The contexts of cluster n stop. -/
def stopCluster (s : State) (n : Nat) : State := forN 32 (32 * n) (fun x s => s.dropCtx x) s

/-- The twins of cluster n are off. -/
def cutCluster (s : State) (n : Nat) : State :=
  forN 4 (4 * n) (fun t s => s.setTwin t { Twin.reset with
    mode := .off, rcnt := (s.twin t).rcnt, dlf := (s.twin t).dlf, cmps := (s.twin t).cmps, cmpLost := (s.twin t).cmpLost }) s

/-- The cluster's block and its registers are at reset, but for the clock's. -/
def clearCluster (s : State) (n : Nat) : State :=
  let u := (s.setCluster n Cluster.reset).setReg (0x100 + 8 * n) (setBit (setBit (s.reg (0x100 + 8 * n)) 16 true) 17 false)
  { u with dev := u.dev.filter (fun e => pageOf e.1 ≠ 0x20 + n), bgs := { u.bgs with l2Pos := Tbl.erase u.bgs.l2Pos n } }

/-- The four in their order. -/
theorem gateCluster_eq (s : State) (n : Nat) : s.gateCluster n = clearCluster (cutCluster (stopCluster (sweepCluster s n) n) n) n := by
  unfold cutCluster stopCluster sweepCluster
  rfl

theorem sweepCluster_swept {s : State} (hclean : s.cleanL2) {n : Nat} (hn : 1 ≤ n) : Swept s (sweepCluster s n) := by
  have hfold : ∀ (l : Tbl L2Line) (v : State), (∀ e ∈ l, e.2.poison = false) → Swept v (l.foldl (fun s e => if e.2.poison then s.discard e.1 else s.l2Drop n e.1 true) v) := by
    intro l
    induction l with
    | nil => exact fun v _ => Swept.refl v
    | cons e l ih =>
      intro v hl
      rw [List.foldl_cons, hl e List.mem_cons_self, if_neg (by decide)]
      exact (Swept.l2Drop v n e.1 true).trans (ih _ (fun f hf => hl f (List.mem_cons_of_mem _ hf)))
  exact (hfold _ s (State.cleanL2_cluster hclean hn)).trans
    (Swept.forN (fun k v => (Swept.emptyL1d v k true).trans (Swept.updCore _ k (fun _ => Core.reset))) 8 (8 * n) _)

theorem stopCluster_stops (s : State) {n : Nat} (hn : 1 ≤ n) :
    Gated s (stopCluster s n) ∧ ∀ x, 32 * n ≤ x → x < 32 * n + 32 → ((stopCluster s n).ctx x).started = false :=
  forN_all (P := fun x v => (v.ctx x).started = false) (lo := 32) (fun _ v hx => dropCtx v hx) (fun x _ _ hvw hv => hvw.stopped x hv) 32 (32 * n) s (by omega)

theorem cutCluster_cuts (s : State) {n : Nat} (hn : 1 ≤ n) :
    Gated s (cutCluster s n) ∧ ∀ j, 4 * n ≤ j → j < 4 * n + 4 → ((cutCluster s n).twin j).mode = .off :=
  forN_all (P := fun j v => (v.twin j).mode = .off) (lo := 4) (fun _ v hj => setTwin v hj rfl) (fun j _ _ hvw hv => hvw.off j hv) 4 (4 * n) s (by omega)

theorem clearCluster_gated (s : State) (n : Nat) : Gated s (clearCluster s n) := by
  have hclean : s.cleanL2 → (s.setCluster n Cluster.reset).cleanL2 := State.cleanL2_setCluster (fun _ l hl => absurd hl List.not_mem_nil)
  refine ⟨rfl, fun hi e he => ?_, hclean, fun _ _ => rfl, fun _ _ => rfl, fun _ => id, fun _ => id⟩
  obtain rfl | he := Tbl.mem_of_mem_set (d := fun _ => Cluster.reset) (t := s.clusters) (k := n) (v := Cluster.reset) he
  · rfl
  · exact hi e he

/-- One cluster without poison. -/
theorem gateCluster {s : State} (hclean : s.cleanL2) {n : Nat} (hn : 1 ≤ n) :
    Gated s (s.gateCluster n) ∧ ((s.gateCluster n).twin (4 * n)).mode = .off ∧ ∀ x, 32 * n ≤ x → x < 32 * n + 32 → ((s.gateCluster n).ctx x).started = false := by
  have hswept := of_swept (sweepCluster_swept hclean hn)
  obtain ⟨hstop, hstopped⟩ := stopCluster_stops (sweepCluster s n) hn
  obtain ⟨hcut, hoff⟩ := cutCluster_cuts (stopCluster (sweepCluster s n) n) hn
  have hlast := clearCluster_gated (cutCluster (stopCluster (sweepCluster s n) n) n) n
  rw [← gateCluster_eq] at hlast
  exact ⟨hswept.trans (hstop.trans (hcut.trans hlast)), hlast.off _ (hoff (4 * n) (by omega) (by omega)),
    fun x h1 h2 => hlast.stopped x (hcut.stopped x (hstopped x h1 h2))⟩

/-- Clusters without poison, one after the other. -/
theorem gateClusters (l : List Nat) : ∀ s : State, (∀ n ∈ l, 1 ≤ n) → s.cleanL2 →
    let u := l.foldl (fun s n => s.gateCluster n) s
    Gated s u ∧ (∀ n ∈ l, (u.twin (4 * n)).mode = .off) ∧ ∀ n ∈ l, ∀ x, 32 * n ≤ x → x < 32 * n + 32 → (u.ctx x).started = false := by
  induction l with
  | nil => exact fun s _ _ => ⟨refl s, fun n hn => absurd hn List.not_mem_nil, fun n hn => absurd hn List.not_mem_nil⟩
  | cons n l ih =>
    intro s hl hclean
    obtain ⟨hstep, hoff, hstopped⟩ := gateCluster hclean (hl n List.mem_cons_self)
    dsimp only
    rw [List.foldl_cons]
    generalize s.gateCluster n = v at hstep hoff hstopped ⊢
    obtain ⟨hrest, hoffs, hstops⟩ := ih v (fun m hm => hl m (List.mem_cons_of_mem _ hm)) (hstep.clean hclean)
    refine ⟨hstep.trans hrest, fun m hm => ?_, fun m hm x h1 h2 => ?_⟩
    · rcases List.mem_cons.mp hm with rfl | hm
      · exact hrest.off _ hoff
      · exact hoffs m hm
    · rcases List.mem_cons.mp hm with rfl | hm
      · exact hrest.stopped x (hstopped x h1 h2)
      · exact hstops m hm x h1 h2

end Gated

/-- QUIET_GATED. -/
theorem State.quietGated_eq {s : State} (hq : s.sys.quiet = .sweep) (hauto : s.sys.autoSafe = false) (hreq : s.sys.modeReq = none) (hwake : s.sys.wakeReq = false)
    (hk : s.kept = true) (hclean : s.cleanL2) :
    ∃ t, s.quietGated = t ∧ t.mode = mQuiet ∧ t.modeBusy = false ∧ t.rf 0x10 14 11 = mrDone ∧ t.sys = { s.sys with quiet := .none } ∧ t.mem = s.mem ∧ t.tags = s.tags ∧
      t.outbox = s.outbox ∧ t.ldg = s.ldg ∧ (s.idleIntakes → t.idleIntakes) ∧ t.pending = s.pending ∧
      (∀ n, 1 ≤ n → n < 8 → t.clOn n = false) ∧ (∀ x, 32 ≤ x → x < 256 → (t.ctx x).started = false) ∧ ∀ y, y < 32 → t.ctx y = s.ctx y := by
  obtain ⟨hgated, hoff, hstopped⟩ := Gated.gateClusters gatedClusters s (by decide) hclean
  obtain ⟨v, hv⟩ : ∃ v, gatedClusters.foldl (fun s n => s.gateCluster n) s = v := ⟨_, rfl⟩
  rw [hv] at hgated hoff hstopped
  obtain ⟨w, hw⟩ : ∃ w, v.updSys (fun y => { y with quiet := .none }) = w := ⟨_, rfl⟩
  have hsysv : v.sys = s.sys := by rw [hgated.rest]
  have hsysw : w.sys = { s.sys with quiet := .none } := by rw [← hw, State.updSys, hsysv]
  have hkw : w.kept = true := by
    have htw : ∀ j, j < 4 → w.twin j = s.twin j := fun j hj => by rw [← hgated.twin j hj, ← hw]; rfl
    rw [State.kept, htw 0 (by decide), htw 1 (by decide)]
    exact hk
  obtain ⟨u, hend, hrest, -, hbusy, hres, -, hmode⟩ := State.enterMode_eq (s := w) (m := mQuiet) (by decide) (by rw [hsysw]; exact hauto) hkw
  have hsysu : u.sys = { s.sys with quiet := .none } := by rw [hrest]; exact hsysw
  have hquiet : s.quietGated = u := by
    unfold State.quietGated
    rw [if_neg (by simp [hq])]
    dsimp only
    rw [hv, hw, hend, State.endModeReq_none (by rw [hsysu]; exact hreq), State.checkWake, if_neg (fun h => ?_)]
    rw [hsysu] at h
    simp [hwake] at h
  have hrestv : u = { v with dev := u.dev, sys := u.sys } := by rw [hrest, ← hw]; rfl
  refine ⟨u, hquiet, hmode (by decide) (by decide), hbusy, hres, hsysu, ?_, ?_, ?_, ?_, fun hi => ?_, ?_, fun n h1 h8 => ?_, fun x h32 h256 => ?_, fun y hy => ?_⟩
  · rw [hrestv, hgated.rest]
  · rw [hrestv, hgated.rest]
  · rw [hrestv, hgated.rest]
  · rw [hrestv, hgated.rest]
  · have := hgated.intake hi
    rw [hrestv]
    exact this
  · rw [hrestv, hgated.rest]
  · have h := hoff n (by simp only [gatedClusters, List.mem_cons, List.not_mem_nil, or_false]; omega)
    rw [State.clOn, hrestv]
    exact decide_eq_false (fun hne => hne h)
  · have h := hstopped (x / 32) (by simp only [gatedClusters, List.mem_cons, List.not_mem_nil, or_false]; omega) x (by omega) (by omega)
    rw [hrestv]
    exact h
  · rw [← hgated.ctx y hy, hrestv]
    rfl

/-! ### QUIET, and the statement -/

/-- QUIET from Run with every heap idle starts the drain (R672). -/
theorem State.modeCmd_quiet {s : State} (hbusy : s.modeBusy = false) (hmode : s.mode = mRun) (hgc : s.gcBusy = false) :
    ∃ t, s.modeCmd 4 = t ∧ t = { s with dev := t.dev, sys := { s.sys with quiet := .drain, quietEnd := s.time + 100000000 } } ∧
      t.modeBusy = true ∧ t.mode = mRun := by
  have hask : s.askQuiet = (s.enterQuiet, 0) := by
    unfold State.askQuiet
    dsimp only
    rw [if_neg (by rw [hmode]; decide), if_neg (fun h => h hmode), if_neg (by simp [hgc])]
  refine ⟨s.enterQuiet, ?_, rfl, s.modeBusy_set, ?_⟩
  · unfold State.modeCmd
    rw [if_neg (by simp [hbusy]), if_neg (by decide), if_neg (by decide), if_neg (by decide), if_pos rfl, hask]
    rfl
  · exact (State.rf_setRf_apart s 0x10 1 (by decide) (by decide) (by decide)).trans hmode

theorem State.calm_parts {s : State} : s.calm = true ↔ s.outbox = [] ∧ s.idleIntakes ∧ s.ldg.restart = [] ∧ s.sys.wakeReq = false := by
  rw [State.idleIntakes_iff]
  simp [State.calm, and_assoc]

/-- Settles O31: SYS_MODECMD's four requests, and the rows of Quiet mode, each by what its function does. -/
theorem modesAndQuiet : Obligations.ModesAndQuiet := by
  unfold Obligations.ModesAndQuiet
  refine ⟨fun s src hs hsrc hbusy => ⟨fun hw hmode => ?_, fun hw hmode hk => ?_, fun hw hmode hfault hk hboot hcl hheld => ?_⟩,
    fun s => ⟨fun src hs hsrc hbusy hw hmode hgc => ?_, fun hs hq hd hh => ?_, fun hs hq hauto hreq hheld hk => ?_, fun hs hq hauto hreq hk hclean => ?_,
      fun hs hmode hq hwake => ?_, fun hs hq hauto hreq hhalt hk hun => ?_⟩⟩
  · obtain ⟨t, ht, hregs, hshown⟩ := State.modeCmd_safe hbusy hmode
    exact ⟨t, exec_store_regs rfl hs hw ((State.blockStore_modeCmd s _ hsrc (by decide)).trans ht) hregs, hregs, hshown⟩
  · obtain ⟨t, ht, hregs, hshown⟩ := State.modeCmd_service hbusy hmode hk
    exact ⟨t, exec_store_regs rfl hs hw ((State.blockStore_modeCmd s _ hsrc (by decide)).trans ht) hregs, hregs, hshown⟩
  · obtain ⟨t, ht, hregs, hshown⟩ := State.modeCmd_run hbusy hmode hfault hk hboot hcl hheld
    exact ⟨t, exec_store_regs rfl hs hw ((State.blockStore_modeCmd s _ hsrc (by decide)).trans ht) hregs, hregs, hshown⟩
  · obtain ⟨t, ht, hrest, hshown⟩ := State.modeCmd_quiet hbusy hmode hgc
    have hcalm : t.calm = true := by
      rw [hrest]
      exact (State.calm_congr rfl rfl rfl rfl).trans hs
    exact ⟨t, exec_store rfl hs hw ((State.blockStore_modeCmd s _ hsrc (by decide)).trans ht) hcalm (by rw [hrest]), hrest, hshown⟩
  · obtain ⟨t, ht, hrest, hshown⟩ := State.quietDrained_eq hq hd hh
    have hcalm : t.calm = true := by
      rw [hrest]
      exact (State.calm_congr rfl rfl rfl rfl).trans hs
    exact ⟨t, (congrArg (fin s) ht).trans (fin_next hcalm (by rw [hrest])), hrest, hshown⟩
  · obtain ⟨t, ht, hrest, hshown⟩ := State.quietTimeout_eq hq hauto hreq hheld hk
    have hcalm : t.calm = true := by
      rw [hrest]
      exact (State.calm_congr rfl rfl rfl rfl).trans hs
    exact ⟨t, (congrArg (fin s) ht).trans (fin_next hcalm (by rw [hrest])), hrest, hshown⟩
  · obtain ⟨hout, hidle, hldg, hwake⟩ := State.calm_parts.mp hs
    obtain ⟨t, ht, hmode, hbusy, hres, hsys, hmem, htags, houtbox, hledger, hintake, hpending, hshown⟩ := State.quietGated_eq hq hauto hreq hwake hk hclean
    have hcalm : t.calm = true :=
      State.calm_parts.mpr ⟨houtbox.trans hout, hintake hidle, by rw [hledger, hldg], by rw [hsys]; exact hwake⟩
    exact ⟨t, (congrArg (fin s) ht).trans (fin_next hcalm hpending), hmode, hbusy, hres, by rw [hsys], hmem, htags, hshown⟩
  · obtain ⟨t, ht, hrest, hshown⟩ := s.startWake_eq
    have hcalm : t.calm = true := by
      rw [hrest]
      exact (State.calm_congr rfl rfl rfl rfl).trans hs
    have hstart : s.checkWake = t := by rw [State.checkWake, if_pos ⟨hmode, hq, hwake⟩, ht]
    exact ⟨t, (congrArg (fin s) hstart).trans (fin_next hcalm (by rw [hrest])), hrest, hshown⟩
  · obtain ⟨t, ht, hrest, hmode, hbusy, hres, hctx, hctxs, hshown⟩ := State.wakeDone_eq hq hauto hreq hhalt hk (by rw [State.unbound, hun]; rfl)
    have hcalm : t.calm = true := by
      rw [hrest]
      exact (State.calm_congr rfl rfl rfl rfl).trans hs
    exact ⟨t, (congrArg (fin s) ht).trans (fin_next hcalm (by rw [hrest])), hmode, hbusy, hres, by rw [hrest], by rw [hrest], hctx, hctxs, hshown⟩

end Sys2Proof.Machine
end

section
/-!
PROOFS. Device resets and Boot (O30).
-/
namespace Sys2Proof.Machine

/-! ### What a reset keeps of memory -/

theorem State.byte_setWordsFrom (ws : List Word) : ∀ (k : Nat) (s : State) (j : Nat), k % 8 = 0 → (j < k ∨ k + 8 * ws.length ≤ j) → (setWordsFrom ws k s).byte j = s.byte j := by
  induction ws with
  | nil => exact fun _ _ _ _ _ => rfl
  | cons w ws ih =>
    intro k s j hk hj
    rw [List.length_cons] at hj
    rw [setWordsFrom, ih _ _ _ (by omega) (by omega), State.byte_setWord, if_neg (by omega)]

/-- Every line with dirty contents has its eight words in memory's stead. -/
def State.backedByLines (s : State) : Prop := ∀ e ∈ s.backing, e.2.length = 8

theorem State.byte_discard {s : State} (hb : s.backedByLines) {line j : Nat} (hj : j / 64 ≠ line) : (s.discard line).byte j = s.byte j := by
  unfold State.discard
  split
  · next ws hlook =>
    have hlen : ws.length = 8 := hb _ (Tbl.mem_of_look hlook)
    exact State.byte_setWordsFrom ws (line * 64) (s.cancelEvict line) j (by omega) (by omega)
  · rfl

theorem Traffic.discard (s : State) (line : Nat) : Traffic s (s.discard line) := by
  have hwords : ∀ (ws : List Word) (k : Nat) (v : State), Traffic v (setWordsFrom ws k v) := by
    intro ws
    induction ws with
    | nil => exact fun _ v => Traffic.refl v
    | cons w ws ih => exact fun k v => ((Traffic.refl v).setWord k w).trans (ih _ _)
  unfold State.discard
  split
  · next ws _ =>
    have h := ((Traffic.refl s).cancelEvict line).trans (hwords ws (line * 64) _)
    exact h.trans ⟨rfl, id⟩
  · exact Traffic.refl s

theorem State.backing_discard (s : State) (line : Nat) : (s.discard line).backing = s.backing ∨ (s.discard line).backing = Tbl.erase s.backing line := by
  unfold State.discard
  split
  · exact .inr rfl
  · exact .inl rfl

theorem State.backedByLines_discard {s : State} (hb : s.backedByLines) (line : Nat) : (s.discard line).backedByLines := by
  intro e he
  rcases s.backing_discard line with h | h
  · rw [h] at he
    exact hb e he
  · rw [h] at he
    exact hb e (Tbl.mem_erase he)

/-- Dirty contents discarded, one line after the other. -/
theorem State.discards (l : List (Nat × List Word)) : ∀ s : State,
    let u := l.foldl (fun s e => s.discard e.1) s
    Traffic s u ∧ (s.backedByLines → ∀ j, (∀ e ∈ l, e.1 ≠ j / 64) → u.byte j = s.byte j) := by
  induction l with
  | nil => exact fun s => ⟨Traffic.refl s, fun _ _ _ => rfl⟩
  | cons e l ih =>
    intro s
    obtain ⟨htraffic, hbyte⟩ := ih (s.discard e.1)
    refine ⟨(Traffic.discard s e.1).trans htraffic, fun hb j hj => ?_⟩
    exact (hbyte (State.backedByLines_discard hb e.1) j (fun f hf => hj f (List.mem_cons_of_mem _ hf))).trans
      (State.byte_discard hb (Ne.symm (hj e List.mem_cons_self)))

theorem Tbl.key_ne_of_look {α : Type} {t : Tbl α} {k : Nat} (h : Tbl.look t k = none) : ∀ e ∈ t, e.1 ≠ k := by
  induction t with
  | nil => exact fun e he => absurd he List.not_mem_nil
  | cons f t ih =>
    rw [Tbl.look_cons] at h
    split at h
    · cases h
    · next hk =>
      intro e he
      rcases List.mem_cons.mp he with rfl | he
      · exact hk
      · exact ih h e he

/-! ### The reset -/

theorem State.byte_filter {s u : State} {p : Nat → Bool} (h : u.mem = s.mem.filter (fun e => p e.1)) {a : Nat} (ha : p a = true) : u.byte a = s.byte a := by
  rw [State.byte, Tbl.get, h, Tbl.look_filter, if_pos ha]
  rfl

theorem satInc_lt {bits : Nat} (n : Nat) : satInc bits n < 2 ^ bits := by
  have : 0 < 2 ^ bits := Nat.two_pow_pos bits
  unfold satInc
  split <;> omega

/-- RSTCAUSE as the reset leaves it. -/
theorem reg_bootRegs (s : State) (cause count : Nat) (h : s.dev = bootRegs (p64 cause) (p64 count)) : s.reg 0x38 = p64 cause <<< 56 ||| p64 count := by
  rw [State.reg, Tbl.get, h]
  rfl

/-- Cause and count as RSTCAUSE holds them (R677). -/
theorem cause_count {why count : Nat} (hw : why < 256) (hc : count < 2 ^ 32) :
    fld (p64 why <<< 56 ||| p64 count) 63 56 = why ∧ fld (p64 why <<< 56 ||| p64 count) 31 0 = count := by
  have h : (p64 why <<< 56 ||| p64 count).toNat = 2 ^ 56 * why + count := by
    rw [Nat.two_pow_add_eq_or_of_lt (by omega), BitVec.toNat_or, BitVec.toNat_shiftLeft, BitVec.toNat_ofNat, BitVec.toNat_ofNat,
      Nat.shiftLeft_eq]
    congr 1 <;> omega
  rw [fld, fld, h, nfld, nfld, Nat.shiftRight_eq_div_pow, Nat.shiftRight_eq_div_pow]
  omega

/-- A device reset (R656, R657). -/
theorem State.resetBy (s : State) {why : Nat} (hwhy : why < 256) :
    ∃ t, s.deviceReset why = t ∧ ResetBy s why t ∧ t.calm = true ∧ t.pending = s.pending ∧ t.sys.rstLow = s.sys.rstLow := by
  obtain ⟨htraffic, hbyte⟩ := State.discards (s.backing.filter (fun e => inStaging (e.1 * 64))) s
  obtain ⟨u, hu⟩ : ∃ u, (s.backing.filter (fun e => inStaging (e.1 * 64))).foldl (fun s e => s.discard e.1) s = u := ⟨_, rfl⟩
  obtain ⟨t, ht⟩ : ∃ t, s.deviceReset why = t := ⟨_, rfl⟩
  refine ⟨t, ht, ?_⟩
  unfold State.deviceReset at ht
  extract_lets on s' keep count p save live0 live r0 sto0 ldg0 sec0 sys0 pwr0 bgs0 r at ht
  have hs' : s' = u := hu
  rw [hu] at htraffic hbyte
  have hcount : count = if why = 1 then 0 else satInc 32 (s.rf 0x38 31 0) := by
    have hreg := htraffic.reg 0x38
    simp only [count, on, hs', State.rf, hreg]
  have hlt : count < 2 ^ 32 := by
    rw [hcount]
    split
    · decide
    · exact satInc_lt _
  have hlive : live = (let l := if why = 1 then s.ldg.drained else s.ldg.live
      { l with keys := l.keys.filter (fun e => e.2.under.isSome) }) := by
    have hldg : u.ldg = s.ldg := by rw [htraffic.rest]
    simp only [live, live0, on, hs', hldg]
  have hmem : r.mem = s'.mem.filter (fun e => keep e.1) := rfl
  have hdev : r.dev = bootRegs (p64 why) (p64 count) := rfl
  clear_value save count live
  obtain ⟨v, hv⟩ : ∃ v, r.setReg (oPwr + 0x30) save = v := ⟨_, rfl⟩
  obtain ⟨w, hw⟩ : ∃ w, v.setRf 0x10 2 0 mReset = w := ⟨_, rfl⟩
  rw [hv, hw] at ht
  have hwt : RegsOnly w [oPwr + 0x18, oLdg + 0x18] t := by
    rw [← ht]
    exact ((RegsOnly.setRf w _ _ _ _).trans (RegsOnly.setReg _ _ _)).mono (by simp)
  have hvw : RegsOnly v [0x10] w := hw ▸ RegsOnly.setRf v _ _ _ _
  have hrv : RegsOnly r [oPwr + 0x30] v := hv ▸ RegsOnly.setReg r _ _
  have hrt : RegsOnly r [oPwr + 0x30, 0x10, oPwr + 0x18, oLdg + 0x18] t := ((hrv.trans hvw).trans hwt).mono (by simp)
  have hmode : t.mode = mReset := by
    rw [hwt.mode (by decide), ← hw]
    exact State.rf_setRf_self v 0x10 2 0 mReset (by decide) (by decide)
  have hcause : t.reg 0x38 = p64 why <<< 56 ||| p64 count := by
    rw [hrt.others 0x38 (by decide)]
    exact reg_bootRegs r why count hdev
  have hfields : t.rf 0x38 63 56 = why ∧ t.rf 0x38 31 0 = count := by
    have h : ∀ hi lo, t.rf 0x38 hi lo = fld (p64 why <<< 56 ||| p64 count) hi lo := fun hi lo => by rw [State.rf, hcause]
    rw [h, h]
    exact cause_count hwhy hlt
  have hbytes : ∀ a, keep a = true → t.byte a = u.byte a := fun a ha => by
    rw [State.byte_filter (u := t) (s := u) (p := keep) (by rw [hrt.rest, ← hs']) ha]
  have hsec : u.sec = s.sec := by rw [htraffic.rest]
  have hpwr : u.pwr = s.pwr := by rw [htraffic.rest]
  have hsys : u.sys = s.sys := by rw [htraffic.rest]
  have hout : t.outbox = [] ∧ t.clusters = [] ∧ t.ldg.restart = [] ∧ t.sys.wakeReq = false := by
    rw [hrt.rest]
    exact ⟨rfl, rfl, rfl, rfl⟩
  refine ⟨⟨?_, hmode, hfields.1, hfields.2.trans hcount, ?_, ?_, fun hb a ha => ?_, fun hne a ha hlook hb => ?_, ?_, ?_, ?_, ?_⟩, ?_, ?_, ?_⟩
  · rw [hrt.rest]
  · rw [hrt.rest]
    exact ⟨rfl, rfl, rfl, rfl, rfl, rfl⟩
  · have : t.time = if why = 1 then 0 else u.time := by rw [hrt.rest, ← hs']
    rw [this, htraffic.rest]
  · rw [hbytes a (by simp only [keep, ha, Bool.true_or])]
    refine hbyte hb a (fun e he heq => ?_)
    have hst := (List.mem_filter.mp he).2
    simp only [inStaging, Bool.and_eq_true, decide_eq_true_eq] at hst
    simp only [inJnv, Bool.and_eq_true, decide_eq_true_eq] at ha
    omega
  · rw [hbytes a (by simp [keep, ha, on, hne])]
    refine hbyte hb a (fun e he heq => ?_)
    exact Tbl.key_ne_of_look hlook e (List.mem_filter.mp he).1 heq
  · rw [hrt.rest, ← hsec, ← hs']
    exact ⟨rfl, rfl, rfl, rfl, rfl, rfl⟩
  · rw [hrt.rest, ← hlive]
  · have : u.sto = s.sto := by rw [htraffic.rest]
    rw [hrt.rest, ← this, ← hs']
  · rw [hrt.rest, ← hpwr, ← hs']
    exact ⟨rfl, rfl, rfl⟩
  · exact State.calm_parts.mpr ⟨hout.1, by rw [State.idleIntakes, hout.2.1]; exact fun e he => absurd he List.not_mem_nil, hout.2.2⟩
  · have : u.pending = s.pending := by rw [htraffic.rest]
    rw [hrt.rest, ← this, ← hs']
  · rw [hrt.rest, ← hsys, ← hs']

namespace ResetBy

variable {s t : State} {why : Nat}

/-- Of SYS, only that the reset is on is said. -/
theorem updSys (h : ResetBy s why t) (f : Sys → Sys) (hf : (f t.sys).inReset = true) : ResetBy s why (t.updSys f) :=
  ⟨hf, h.mode, h.cause, h.count, h.units, h.time, h.jnv, h.staging, h.fuses, h.ledger, h.drives, h.save⟩

/-- Of the registers, SYS_MODE and RSTCAUSE. -/
theorem setReg (h : ResetBy s why t) {off : Nat} (v : Pay) (hmode : 0x10 ≠ off) (hcause : 0x38 ≠ off) : ResetBy s why (t.setReg off v) := by
  have hother : ∀ o, o ≠ off → (t.setReg off v).reg o = t.reg o := fun o ho => State.reg_setReg_ne t v (Ne.symm ho)
  exact ⟨h.held, (State.mode_congr (hother _ hmode)).trans h.mode, (State.rf_congr (hother _ hcause) 63 56).trans h.cause,
    (State.rf_congr (hother _ hcause) 31 0).trans h.count, h.units, h.time, h.jnv, h.staging, h.fuses, h.ledger, h.drives, h.save⟩

/-- The SYS state before does not matter. -/
theorem of_updSys {f : Sys → Sys} (h : ResetBy (s.updSys f) why t) : ResetBy s why t :=
  ⟨h.held, h.mode, h.cause, h.count, h.units, h.time, h.jnv, h.staging, h.fuses, h.ledger, h.drives, h.save⟩

end ResetBy

/-! ### The rows -/

/-- A row that does nothing but a reset. -/
theorem State.reset_row {s : State} {why : Nat} (hwhy : why < 256) {c : Instr} (hrow : exec c s = fin s (s.deviceReset why)) :
    ∃ t, exec c s = .next t ∧ ResetBy s why t := by
  obtain ⟨t, ht, hreset, hcalm, hpending, -⟩ := s.resetBy hwhy
  exact ⟨t, by rw [hrow, ht]; exact fin_next hcalm hpending, hreset⟩

theorem State.powerOn_row {s : State} {low : Bool} {c : Instr} (hrow : exec c s = fin s (s.powerOn low)) :
    ∃ t, exec c s = .next t ∧ ResetBy s 1 t ∧ t.sys.rstLow = low := by
  obtain ⟨t, ht, hreset, hcalm, hpending, -⟩ := s.resetBy (why := 1) (by decide)
  refine ⟨t.updSys (fun y => { y with rstLow := low, hot := false }), ?_, hreset.updSys _ hreset.held, rfl⟩
  rw [hrow, State.powerOn, ht]
  exact fin_next ((State.calm_congr rfl rfl rfl rfl).trans hcalm) hpending

theorem State.resetEnds_eq {s : State} (hin : s.sys.inReset = true) (hlow : s.sys.rstLow = false) (hhot : s.sys.hot = false) (hglaze : s.pwr.glaze = none)
    (hcut : s.pwr.cut = false) (hk : s.kept = true) :
    ∃ t, s.resetEnds = t ∧ t = { s with dev := t.dev, ctxs := [(0, Ctx.boot)], sys := { s.sys with inReset := false }, pwr := { s.pwr with cut := false } } ∧
      t.mode = mBoot ∧ ∀ off, off ≠ 0x10 → off ≠ 0x28 → t.reg off = s.reg off := by
  obtain ⟨v, hv⟩ : ∃ v : State, { (s.updSys (fun y => { y with inReset := false })).updPwr (fun p => { p with cut := false }) with ctxs := [(0, Ctx.boot)] } = v := ⟨_, rfl⟩
  have hregv : ∀ off, v.reg off = s.reg off := fun off => by rw [← hv]; rfl
  have hset := RegsOnly.setRf v 0x10 2 0 mBoot
  have hmode : (v.setRf 0x10 2 0 mBoot).mode = mBoot := State.rf_setRf_self v 0x10 2 0 mBoot (by decide) (by decide)
  obtain ⟨u, hu⟩ : ∃ u, v.setRf 0x10 2 0 mBoot = u := ⟨_, rfl⟩
  rw [hu] at hset hmode
  have hku : u.kept = true := by
    rw [hset.kept, ← hk]
    exact State.kept_congr (by rw [← hv]; rfl)
  have hfresh := RegsOnly.refresh hku
  refine ⟨u.refresh, ?_, ?_, ?_, fun off h1 h2 => ?_⟩
  · unfold State.resetEnds
    rw [if_neg (by simp [hin, hlow, hhot, hglaze, hcut])]
    dsimp only
    rw [hv, hu]
  · rw [hfresh.rest, hset.rest, ← hv]
    rfl
  · rw [State.refresh_other hku (by rw [hmode]; decide) (by rw [hmode]; decide), hmode]
  · rw [hfresh.others off (by simp [h1, h2]), hset.others off (by simpa using h1), hregv]

/-- Settles O30: each cause's row comes to the one device reset, and the rows of Boot to their functions. -/
theorem deviceResetAndBoot : Obligations.DeviceResetAndBoot := by
  unfold Obligations.DeviceResetAndBoot
  refine ⟨fun s => ⟨fun low => State.powerOn_row rfl, fun hin hglaze => ?_, State.reset_row (by decide) rfl, fun src hs hw hsrc hbusy => ?_, fun tm hat hle => ?_,
    fun n tj hge => ?_, fun hlow => ?_⟩, fun s hs => ⟨fun dn dc ds hin hlow => ?_, fun hin hlow hhot hglaze hcut hk => ?_, fun hin => ?_⟩⟩
  · obtain ⟨t, ht, hreset, hcalm, hpending, hlow⟩ := (s.updSys (fun y => { y with rstLow := true })).resetBy (why := 2) (by decide)
    refine ⟨t, ?_, hreset.of_updSys, hlow⟩
    show fin s s.rstFalls = _
    unfold State.rstFalls
    dsimp only
    rw [if_neg (by simp [hin]), if_neg (by simp [hglaze]), ht]
    exact fin_next hcalm hpending
  · obtain ⟨t, ht, hreset, hcalm, hpending, -⟩ := s.resetBy (why := 3) (by decide)
    have hcmd : s.modeCmd 5 = t := by
      unfold State.modeCmd
      rw [if_neg (by simp [hbusy]), if_neg (by decide), if_neg (by decide), if_neg (by decide), if_neg (by decide), if_pos rfl, ht]
    exact ⟨t, exec_store rfl hs hw ((State.blockStore_modeCmd s _ hsrc (by decide)).trans hcmd) hcalm hpending, hreset⟩
  · refine State.reset_row (by decide) ?_
    have htime : s.timeTo tm = s := by
      unfold State.timeTo
      rw [if_neg (by omega)]
    show fin s s.modeReqReset = _
    rw [State.modeReqReset, hat]
    dsimp only
    rw [htime]
  · obtain ⟨t, ht, hreset, hcalm, hpending, -⟩ := s.resetBy (why := 6) (by decide)
    have hap := clkReg_apart n.toNat
    refine ⟨(t.setTj n.toNat tj.toNat).updSys (fun y => { y with hot := true }), ?_, ?_, rfl, State.tj_setTj t n.toNat tj.isLt⟩
    · show fin s (s.overheat n.toNat tj.toNat) = _
      rw [State.overheat, if_neg (by omega), ht]
      exact fin_next ((State.calm_congr rfl rfl rfl rfl).trans hcalm) hpending
    · refine ResetBy.updSys ?_ _ hreset.held
      rw [State.setTj, State.setRf_eq]
      exact hreset.setReg _ (Ne.symm hap.1) (by unfold clkReg; omega)
  · obtain ⟨t, hexec, hreset, -⟩ := State.powerOn_row (s := s) (low := false) (c := .railOutOfTolerance) (by
      show fin s (if s.sys.rstLow then s else s.powerOn false) = _
      rw [if_neg (by simp [hlow])])
    exact ⟨t, hexec, hreset⟩
  · refine ⟨_, ?_, rfl⟩
    show fin s (s.rstRises dn dc ds) = _
    unfold State.rstRises
    rw [if_neg (by simp [hlow])]
    dsimp only
    rw [if_pos hin]
    exact fin_calm hs rfl rfl rfl rfl rfl
  · obtain ⟨t, ht, hrest, hmode, hregs⟩ := State.resetEnds_eq hin hlow hhot hglaze hcut hk
    refine ⟨t, ?_, by rw [hrest], hmode, by rw [hrest], by rw [hrest], by rw [hrest], by rw [hrest], hregs⟩
    show fin s s.resetEnds = _
    rw [ht]
    exact fin_calm hs (by rw [hrest]) (by rw [hrest]) (by rw [hrest]) (by rw [hrest]) (by rw [hrest])
  · refine ⟨_, ?_, rfl⟩
    show fin s s.trained = _
    rw [State.trained, if_neg (by simp [hin])]
    exact fin_calm hs rfl rfl rfl rfl rfl

end Sys2Proof.Machine
end

section
/-!
PROOFS. The one command of the Ledger ends, is answered and retires (R543, R548, R554, R557), and the management commands (O45).
-/
namespace Sys2Proof.Machine

/-! ### What the end of a command may change -/

/-- A stream of which only the window has moved on; a key set for stream 4 ends its CRC mode (R636). -/
structure StreamKept (a b : Stream) : Prop where
  rest : b = { a with crc := b.crc, window := b.window }
  crc : b.crc = a.crc ∨ b.crc = false

theorem StreamKept.refl (a : Stream) : StreamKept a a := ⟨rfl, .inl rfl⟩

theorem StreamKept.trans {a b c : Stream} (h : StreamKept a b) (g : StreamKept b c) : StreamKept a c := by
  refine ⟨by rw [g.rest, h.rest], ?_⟩
  rcases g.crc with h' | h'
  · rw [h']
    exact h.crc
  · exact .inr h'

/-- The Ledger has ended, answered or retired commands: blob buffer, key counter aside, and all outside the Ledger stay. -/
structure Concluded (s u : State) : Prop where
  rest : u = { s with
    dev := u.dev, runs := u.runs, sto := { s.sto with slots := u.sto.slots }, sec := { s.sec with pend := u.sec.pend }
    ldg := { s.ldg with
      live := u.ldg.live, front := u.ldg.front, mail := u.ldg.mail, held := u.ldg.held, spQ := u.ldg.spQ, spWait := u.ldg.spWait
      pairs := u.ldg.pairs, sent := u.ldg.sent } }
  regs : ∀ off, off ≠ oLdg + 0x18 → off ≠ oSto + 0x18 → u.reg off = s.reg off
  held : s.ldg.held = [] → u.ldg.held = []
  streams : ∀ j, StreamKept (s.stream j) (u.stream j)

namespace Concluded

variable {s u v : State}

theorem refl (s : State) : Concluded s s := ⟨rfl, fun _ _ _ => rfl, id, fun _ => StreamKept.refl _⟩

theorem trans (h : Concluded s u) (g : Concluded u v) : Concluded s v := by
  refine ⟨?_, fun off h1 h2 => (g.regs off h1 h2).trans (h.regs off h1 h2), fun hh => g.held (h.held hh), fun j => (h.streams j).trans (g.streams j)⟩
  rw [g.rest, h.rest]

theorem calm (h : Concluded s u) (hs : s.calm = true) : u.calm = true := by
  rw [h.rest]
  exact (State.calm_congr rfl rfl rfl rfl).trans hs

theorem pending (h : Concluded s u) : u.pending = s.pending := by rw [h.rest]

/-- A change of the Ledger's transports. -/
theorem sends (s : State) (spQ spWait sent : List ReplyOut) (pairs : Tbl QPair) :
    Concluded s { s with ldg := { s.ldg with spQ := spQ, spWait := spWait, sent := sent, pairs := pairs } } :=
  ⟨rfl, fun _ _ _ => rfl, id, fun _ => StreamKept.refl _⟩

theorem setReg_ldg (s : State) (x : Pay) : Concluded s (s.setReg (oLdg + 0x18) x) :=
  ⟨rfl, fun _ h _ => State.reg_setReg_ne s x (Ne.symm h), id, fun _ => StreamKept.refl _⟩

theorem setReg_sto (s : State) (x : Pay) : Concluded s (s.setReg (oSto + 0x18) x) :=
  ⟨rfl, fun _ _ h => State.reg_setReg_ne s x (Ne.symm h), id, fun _ => StreamKept.refl _⟩

theorem ldgSync (s : State) : Concluded s s.ldgSync := setReg_ldg s _

end Concluded

/-- A reply that goes out: only the transports change. -/
structure Sent (s u : State) : Prop where
  rest : u = { s with ldg := { s.ldg with spQ := u.ldg.spQ, spWait := u.ldg.spWait, sent := u.ldg.sent, pairs := u.ldg.pairs } }

namespace Sent

variable {s u v : State}

theorem live (h : Sent s u) : u.ldg.live = s.ldg.live := by rw [h.rest]

theorem concluded (h : Sent s u) : Concluded s u := by
  rw [h.rest]
  exact Concluded.sends s _ _ _ _

theorem refl (s : State) : Sent s s := ⟨rfl⟩

theorem trans (h : Sent s u) (g : Sent u v) : Sent s v := ⟨by rw [g.rest, h.rest]⟩

theorem sends (s : State) (spQ spWait sent : List ReplyOut) (pairs : Tbl QPair) :
    Sent s { s with ldg := { s.ldg with spQ := spQ, spWait := spWait, sent := sent, pairs := pairs } } := ⟨rfl⟩

theorem pumpPair (k : Nat) : ∀ (fuel : Nat) (s : State), Sent s (Machine.pumpPair k fuel s)
  | 0, s => refl s
  | fuel + 1, s => by
    rw [Machine.pumpPair]
    dsimp only
    split
    · exact refl s
    · split
      · exact refl s
      · refine Sent.trans ?_ (pumpPair k fuel _)
        exact sends s s.ldg.spQ s.ldg.spWait _ _

theorem sendReply (s : State) (via : Via) (r : Reply) : Sent s (s.sendReply via r) := by
  unfold State.sendReply
  split
  · split
    · exact sends s s.ldg.spQ s.ldg.spWait _ s.ldg.pairs
    · exact refl s
  · exact sends s _ _ s.ldg.sent s.ldg.pairs
  · exact (sends s s.ldg.spQ s.ldg.spWait s.ldg.sent _).trans (pumpPair _ 1 _)

end Sent

/-! ### The one command -/

/-- No stream closes. -/
def State.noneClosing (s : State) : Prop := ∀ e ∈ s.ldg.live.streams, e.2.st ≠ 2

theorem State.noneClosing_stream {s : State} (h : s.noneClosing) (j : Nat) : (s.stream j).st ≠ 2 := by
  refine Tbl.get_of_forall (d := defaultStream) (P := fun v : Stream => v.st ≠ 2) h j ?_
  unfold defaultStream
  dsimp only
  split <;> decide

theorem State.noneClosing_setStream {s : State} (h : s.noneClosing) (j : Nat) {v : Stream} (hv : v.st ≠ 2) : (s.setStream j v).noneClosing := by
  intro e he
  obtain rfl | he := Tbl.mem_of_mem_set (d := defaultStream) (t := s.ldg.live.streams) he
  · exact hv
  · exact h e he

/-- The command of slot n is the only one, without effects; the store holds nothing. -/
structure Single (s : State) (n : Nat) (v : Slot) : Prop where
  slots : s.ldg.live.slots = [(n, v)]
  effs : v.effs = []
  closing : s.noneClosing
  idle : s.stoIdle

namespace Single

variable {s u : State} {n : Nat} {v w : Slot}

theorem slot (h : Single s n v) : s.slot? n = some v := by
  rw [State.slot?, h.slots, Tbl.look, if_pos rfl]

theorem idle_of (h : s.stoIdle) (g : Concluded s u) : u.stoIdle := by
  unfold State.stoIdle
  rw [g.rest]
  exact h

/-- The slot rewritten. -/
theorem put (h : Single s n v) (hw : w.effs = []) : Single (s.putSlot n w) n w := by
  refine ⟨?_, hw, h.closing, h.idle⟩
  show Tbl.insert s.ldg.live.slots n w = _
  rw [h.slots, Tbl.insert, if_pos rfl]

/-- A change of the Ledger that keeps slots and streams. -/
theorem of_live (h : Single s n v) (g : Concluded s u) (hslots : u.ldg.live.slots = s.ldg.live.slots) (hclosing : u.noneClosing) : Single u n v :=
  ⟨hslots.trans h.slots, h.effs, hclosing, idle_of h.idle g⟩

end Single

/-- What a command's end drops of the store, while it holds nothing: slots in the table, and journal records (R588). -/
theorem State.dropFrames_idle {s : State} (h : s.stoIdle) (l : Nat) :
    ∃ t, s.dropFrames l = t ∧ Concluded s t ∧ t.ldg.live = { s.ldg.live with journal := t.ldg.live.journal } := by
  obtain ⟨hframes, hseals, htaken⟩ := h
  obtain ⟨slots, j, hdrop⟩ : ∃ slots j, s.dropFrames l =
      ({ s with sto := { s.sto with slots := slots }, ldg := { s.ldg with live := { s.ldg.live with journal := j } } } : State).stoSync := by
    unfold State.dropFrames State.xqRetry
    simp only [hframes, hseals, htaken, List.filter_nil, List.foldl_nil, State.updSto, State.setJournal]
    exact ⟨_, _, rfl⟩
  obtain ⟨v, hv⟩ : ∃ v : State, { s with sto := { s.sto with slots := slots }, ldg := { s.ldg with live := { s.ldg.live with journal := j } } } = v := ⟨_, rfl⟩
  have hsv : Concluded s v := by
    rw [← hv]
    exact ⟨rfl, fun _ _ _ => rfl, id, fun _ => StreamKept.refl _⟩
  refine ⟨v.stoSync, by rw [hdrop, hv], hsv.trans ((Concluded.setReg_sto v _).trans (Concluded.setReg_sto _ _)), ?_⟩
  show v.ldg.live = _
  rw [← hv]
  rfl

/-- One pending key becomes current (R636). -/
def State.keyCurrent (s : State) (p : PendKey) : State :=
  s.updLive (fun d => { d with
    keys := Tbl.insert d.keys p.idx ⟨if s.secStat 62 then none else some s.sec.rma, p.key⟩, kctr := p.ctr
    streams := if p.idx = 4 then Tbl.set defaultStream d.streams 4 { Tbl.get defaultStream d.streams 4 with crc := false }
             else d.streams })

theorem Concluded.keyCurrent (s : State) (p : PendKey) :
    Concluded s (s.keyCurrent p) ∧ (s.keyCurrent p).ldg.live.slots = s.ldg.live.slots ∧ (s.noneClosing → (s.keyCurrent p).noneClosing) := by
  unfold State.keyCurrent State.updLive State.updLdg
  dsimp only
  split
  · refine ⟨⟨rfl, fun _ _ _ => rfl, id, fun j => ?_⟩, rfl, fun h => State.noneClosing_setStream h 4 (State.noneClosing_stream h 4)⟩
    show StreamKept _ (Tbl.get defaultStream (Tbl.set defaultStream s.ldg.live.streams 4 _) j)
    rw [Tbl.get_set]
    split
    · next hj =>
      subst hj
      exact ⟨rfl, .inr rfl⟩
    · exact StreamKept.refl _
  · exact ⟨⟨rfl, fun _ _ _ => rfl, id, fun _ => StreamKept.refl _⟩, rfl, id⟩

theorem Concluded.keysCurrent (s : State) (l : Nat) :
    Concluded s (s.keysCurrent l) ∧ (s.keysCurrent l).ldg.live.slots = s.ldg.live.slots ∧ (s.noneClosing → (s.keysCurrent l).noneClosing) := by
  have hfold : ∀ (ps : List PendKey) (v : State), let u := ps.foldl State.keyCurrent v
      Concluded v u ∧ u.ldg.live.slots = v.ldg.live.slots ∧ (v.noneClosing → u.noneClosing) := by
    intro ps
    induction ps with
    | nil => exact fun v => ⟨Concluded.refl v, rfl, id⟩
    | cons p ps ih =>
      intro v
      obtain ⟨hc, hslots, hclosing⟩ := Concluded.keyCurrent v p
      obtain ⟨hc', hslots', hclosing'⟩ := ih (v.keyCurrent p)
      exact ⟨hc.trans hc', hslots'.trans hslots, fun h => hclosing' (hclosing h)⟩
  obtain ⟨hc, hslots, hclosing⟩ := hfold (s.sec.pend.filter (fun p => p.lpos = l)) s
  exact ⟨hc.trans ⟨rfl, fun _ _ _ => rfl, id, fun _ => StreamKept.refl _⟩, hslots, hclosing⟩

/-- The keys once those that wait for command l are current. -/
def State.installed (s : State) (l : Nat) : Tbl WKey :=
  (s.sec.pend.filter (fun p => p.lpos = l)).foldl (fun ks p => Tbl.insert ks p.idx ⟨if s.secStat 62 then none else some s.sec.rma, p.key⟩) s.ldg.live.keys

theorem State.keys_keysCurrent (s : State) (l : Nat) : (s.keysCurrent l).ldg.live.keys = s.installed l := by
  have hfold : ∀ (ps : List PendKey) (v : State), (ps.foldl State.keyCurrent v).ldg.live.keys =
      ps.foldl (fun ks p => Tbl.insert ks p.idx ⟨if v.secStat 62 then none else some v.sec.rma, p.key⟩) v.ldg.live.keys := by
    intro ps
    induction ps with
    | nil => exact fun _ => rfl
    | cons p ps ih => exact fun v => ih (v.keyCurrent p)
  exact hfold _ s

/-- The pending keys of a command that ends with a status, and the frames it held. -/
def State.settleKeys (s : State) (l status : Nat) : State := if status = stDone then s.keysCurrent l else (s.keysDropped l).dropFrames l

namespace Single

variable {s u : State} {n : Nat} {v w : Slot}

theorem settleKeys (h : Single s n v) (l status : Nat) :
    Concluded s (s.settleKeys l status) ∧ Single (s.settleKeys l status) n v ∧
      (s.settleKeys l status).ldg.live.keys = if status = stDone then s.installed l else s.ldg.live.keys := by
  unfold State.settleKeys
  split
  · obtain ⟨hc, hslots, hclosing⟩ := Concluded.keysCurrent s l
    exact ⟨hc, h.of_live hc hslots (hclosing h.closing), s.keys_keysCurrent l⟩
  · obtain ⟨t, ht, hc, hlive⟩ := State.dropFrames_idle (s := s.keysDropped l) h.idle l
    have hdrop : Concluded s (s.keysDropped l) := ⟨rfl, fun _ _ _ => rfl, id, fun _ => StreamKept.refl _⟩
    rw [ht]
    have hclosing : t.noneClosing := by
      unfold State.noneClosing
      rw [hlive]
      exact h.closing
    refine ⟨hdrop.trans hc, h.of_live (hdrop.trans hc) ?_ hclosing, ?_⟩
    · rw [hlive]
      rfl
    · rw [hlive]
      rfl

/-- The command ends. -/
theorem endSlot (h : Single s n v) (status app : Nat) (res : List (BitVec 8)) :
    ∃ e, s.endSlot n status app res = e ∧ Concluded s e ∧ Single e n { v with st := .ended, status := status, appcode := app, result := res, effs := [] } ∧
      e.ldg.live.keys = if status = stDone then s.installed (lposOf n v) else s.ldg.live.keys := by
  obtain ⟨u, hu⟩ : ∃ u : State, { s with
      runs := s.runs.filter (fun e => e.2 ≠ lposOf n v)
      ldg := { s.ldg with
        live := { s.ldg.live with slots := Tbl.insert s.ldg.live.slots n { v with st := .ended, status := status, appcode := app, result := res, effs := [] } }
        mail := s.ldg.mail.map (fun e => (e.1, if e.2.next = some (lposOf n v) then { e.2 with next := none } else e.2))
        held := s.ldg.held.filter (· ≠ n), front := s.ldg.front + (256 + res.length) } } = u := ⟨_, rfl⟩
  have hend : s.endSlot n status app res = u.settleKeys (lposOf n v) status := by
    unfold State.endSlot
    rw [h.slot]
    dsimp only
    rw [h.effs, List.filter_nil, ← hu]
    rfl
  have hc : Concluded s u := by
    rw [← hu]
    exact ⟨rfl, fun _ _ _ => rfl, fun hh => by show s.ldg.held.filter _ = []; rw [hh, List.filter_nil], fun _ => StreamKept.refl _⟩
  have hsingle : Single u n { v with st := .ended, status := status, appcode := app, result := res, effs := [] } := by
    refine ⟨?_, rfl, ?_, idle_of h.idle hc⟩
    · rw [← hu]
      show Tbl.insert s.ldg.live.slots n _ = _
      rw [h.slots, Tbl.insert, if_pos rfl]
    · rw [← hu]
      exact h.closing
  have hkeys : u.installed (lposOf n v) = s.installed (lposOf n v) ∧ u.ldg.live.keys = s.ldg.live.keys := by
    rw [← hu]
    exact ⟨rfl, rfl⟩
  obtain ⟨hc', hsingle', hkeys'⟩ := hsingle.settleKeys (lposOf n v) status
  refine ⟨_, hend, hc.trans hc', hsingle', ?_⟩
  rw [hkeys', hkeys.1, hkeys.2]

/-- Its reply goes out. -/
theorem finalReply (h : Single s n v) (hst : v.st = .ended) :
    ∃ f, s.finalReply n = f ∧ Concluded s f ∧ Single f n { v with replied := true } ∧ f.ldg.live.keys = s.ldg.live.keys := by
  unfold State.finalReply
  rw [h.slot]
  dsimp only
  by_cases hr : v.replied = true
  · rw [if_pos (.inr hr)]
    refine ⟨s, rfl, Concluded.refl s, ?_, rfl⟩
    rw [← hr]
    exact h
  · rw [if_neg (by simp [hst, hr])]
    obtain ⟨u, hu⟩ : ∃ u, s.putSlot n { v with replied := true } = u := ⟨_, rfl⟩
    have hput : Single u n { v with replied := true } := hu ▸ h.put h.effs
    have hc : Concluded s u := by
      rw [← hu]
      exact ⟨rfl, fun _ _ _ => rfl, id, fun _ => StreamKept.refl _⟩
    have hkeys : u.ldg.live.keys = s.ldg.live.keys := by
      rw [← hu]
      rfl
    rw [hu]
    have hsent := Sent.sendReply u v.via (u.mkReply v.hdr v.status v.appcode (lposOf n v) false v.result)
    refine ⟨_, rfl, hc.trans hsent.concluded, hput.of_live hsent.concluded (by rw [hsent.live]) ?_, by rw [hsent.live, hkeys]⟩
    unfold State.noneClosing
    rw [hsent.live]
    exact hput.closing

end Single

/-- The Ledger holds no command, no stream closes, and the window of the command's stream shows how it ended. -/
structure Retired (s : State) (v : Slot) : Prop where
  slots : s.ldg.live.slots = []
  closing : s.noneClosing
  shown : ∃ w ∈ (s.stream v.stream).window, w.seq = v.seq ∧ w.status = v.status ∧ w.appcode = v.appcode

namespace Single

variable {s u : State} {n : Nat} {v w : Slot}

/-- It retires. -/
theorem retire (h : Single s n v) (hst : v.st = .ended) (hr : v.replied = true) :
    ∃ g, s.retire? n = g ∧ Concluded s g ∧ Retired g v ∧ g.ldg.live.keys = s.ldg.live.keys := by
  unfold State.retire?
  rw [h.slot]
  dsimp only
  rw [if_neg (by simp [hst, hr, h.effs])]
  obtain ⟨win, hwin⟩ : ∃ win, (s.stream v.stream).window ++ [⟨v.seq, v.status, v.appcode, v.trailer⟩] = win := ⟨_, rfl⟩
  rw [hwin]
  obtain ⟨a, ha⟩ : ∃ a, s.setStream v.stream { s.stream v.stream with window := win.drop (win.length - 64) } = a := ⟨_, rfl⟩
  have hstream : ∀ j, a.stream j = if v.stream = j then { s.stream v.stream with window := win.drop (win.length - 64) } else s.stream j := by
    intro j
    rw [← ha]
    exact Tbl.get_set _ _ _ _ _
  have hca : Concluded s a := by
    refine ⟨by rw [← ha]; rfl, fun _ _ _ => by rw [← ha]; rfl, fun hh => by rw [← ha]; exact hh, fun j => ?_⟩
    rw [hstream]
    split
    · next hj =>
      rw [hj]
      exact ⟨rfl, .inl rfl⟩
    · exact StreamKept.refl _
  have hclosing : a.noneClosing := ha ▸ State.noneClosing_setStream h.closing v.stream (v := { s.stream v.stream with window := win.drop (win.length - 64) }) (State.noneClosing_stream h.closing v.stream)
  have hslots : a.ldg.live.slots = [(n, v)] := by
    rw [← ha]
    exact h.slots
  have hkeys : a.ldg.live.keys = s.ldg.live.keys := by
    rw [← ha]
    rfl
  rw [ha]
  obtain ⟨b, hb⟩ : ∃ b, ((a.updLive (fun l => { l with slots := Tbl.erase l.slots n, gens := Tbl.set (fun _ => 0) l.gens n ((v.gen + 1) % 32768) })).front 256).ldgSync = b := ⟨_, rfl⟩
  have hcb : Concluded s b := by
    obtain ⟨c, hc⟩ : ∃ c, (a.updLive (fun l => { l with slots := Tbl.erase l.slots n, gens := Tbl.set (fun _ => 0) l.gens n ((v.gen + 1) % 32768) })).front 256 = c := ⟨_, rfl⟩
    have hac : Concluded a c := by
      rw [← hc]
      exact ⟨rfl, fun _ _ _ => rfl, id, fun _ => StreamKept.refl _⟩
    rw [← hb, hc]
    exact hca.trans (hac.trans (Concluded.ldgSync c))
  have hlive : b.ldg.live = { a.ldg.live with slots := [], gens := b.ldg.live.gens } := by
    rw [← hb]
    show ({ a.ldg.live with slots := Tbl.erase a.ldg.live.slots n, gens := _ } : Led) = _
    rw [hslots, Tbl.erase, if_pos rfl]
    rfl
  have hshown : ∃ w ∈ (b.stream v.stream).window, w.seq = v.seq ∧ w.status = v.status ∧ w.appcode = v.appcode := by
    have hbs : b.stream v.stream = a.stream v.stream := by
      rw [State.stream, hlive]
      rfl
    rw [hbs, hstream, if_pos rfl]
    refine ⟨⟨v.seq, v.status, v.appcode, v.trailer⟩, ?_, rfl, rfl, rfl⟩
    show _ ∈ win.drop (win.length - 64)
    rw [← hwin, List.drop_append_of_le_length (by rw [List.length_append, List.length_singleton]; omega)]
    exact List.mem_append_right _ (List.mem_singleton_self _)
  have hret : Retired b v := ⟨by rw [hlive], by unfold State.noneClosing; rw [hlive]; exact hclosing, hshown⟩
  have hkeysb : b.ldg.live.keys = s.ldg.live.keys := by rw [hlive, hkeys]
  rw [hb]
  split
  · obtain ⟨g, hg, hcg, hliveg⟩ := State.dropFrames_idle (idle_of h.idle hcb) (lposOf n v)
    refine ⟨g, hg, hcb.trans hcg, ⟨by rw [hliveg]; exact hret.slots, by unfold State.noneClosing; rw [hliveg]; exact hret.closing, ?_⟩, by rw [hliveg]; exact hkeysb⟩
    have hgs : g.stream v.stream = b.stream v.stream := by
      rw [State.stream, hliveg]
      rfl
    rw [hgs]
    exact hret.shown
  · exact ⟨b, rfl, hcb, hret, hkeysb⟩

/-- A stream that does not close stays. -/
theorem tryClose_open {s : State} {j : Nat} (h : (s.stream j).st ≠ 2) : s.tryClose j = s := by
  unfold State.tryClose State.closable
  rw [if_pos (by simp [h])]

theorem seqOrder_one (e : Nat × Slot) : seqOrder [e] = [e] := rfl

theorem inStream (h : Single s n v) (j : Nat) : s.inStream j = if v.stream = j then [(n, v)] else [] := by
  rw [State.inStream, h.slots, List.filter_cons, List.filter_nil]
  by_cases hj : v.stream = j
  · rw [if_pos (by simpa using hj), if_pos hj]
  · rw [if_neg (by simpa using hj), if_neg hj]

/-- A command without effects has none to release. -/
theorem pumpEffs (hslot : s.slot? n = some v) (heffs : v.effs = []) (fuel : Nat) : Machine.pumpEffs n (fuel + 1) s = (s, true) := by
  rw [Machine.pumpEffs, hslot]
  dsimp only
  rw [heffs]
  rfl

/-- The command that has ended is answered and retires when its stream moves on. -/
theorem pumpStream (h : Single s n v) (hst : v.st = .ended) :
    ∃ g, s.pumpStream v.stream = g ∧ Concluded s g ∧ Retired g v ∧ g.ldg.live.keys = s.ldg.live.keys := by
  obtain ⟨f, hf, hcf, hsingle, hkeysf⟩ := h.finalReply hst
  obtain ⟨g, hg, hcg, hret, hkeysg⟩ := hsingle.retire hst rfl
  have hshown : Retired g v := ⟨hret.slots, hret.closing, hret.shown⟩
  refine ⟨g, ?_, hcf.trans hcg, hshown, hkeysg.trans hkeysf⟩
  unfold State.pumpStream
  rw [h.inStream, if_pos rfl, seqOrder_one, pumpList, pumpEffs h.slot h.effs]
  dsimp only
  rw [if_neg (by decide), h.slot]
  dsimp only
  rw [if_pos hst, pumpList, hf, hg, tryClose_open (State.noneClosing_stream hret.closing _)]

/-- The streams that move on. -/
theorem busyStreams (h : Single s n v) : s.busyStreams = [v.stream] := by
  have hnone : s.ldg.live.streams.filter (fun e => e.2.st = 2) = [] := by
    rw [List.filter_eq_nil_iff]
    exact fun e he => by simpa using h.closing e he
  rw [State.busyStreams, h.slots, hnone]
  rfl

end Single

/-- Every stream moves on once. -/
def State.pumpRound (s : State) : State := s.busyStreams.foldl (fun s n => s.pumpStream n) s

theorem State.pump_eq (s : State) : s.pump = s.pumpRound.pumpRound.ldgSync := rfl

theorem Retired.pumpRound {s : State} {v : Slot} (h : Retired s v) : s.pumpRound = s := by
  have hnone : s.ldg.live.streams.filter (fun e => e.2.st = 2) = [] := by
    rw [List.filter_eq_nil_iff]
    exact fun e he => by simpa using h.closing e he
  rw [State.pumpRound, State.busyStreams, h.slots, hnone]
  rfl

theorem Retired.ended {s : State} {v : Slot} (h : Retired s v) (n : Nat) : EndedAs n v v.status v.appcode s :=
  ⟨by rw [State.slot?, h.slots]; rfl, h.shown⟩

theorem Retired.ldgSync {s : State} {v : Slot} (h : Retired s v) : Retired s.ldgSync v := ⟨h.slots, h.closing, h.shown⟩

namespace Single

variable {s u : State} {n : Nat} {v w : Slot}

theorem pumpRound (h : Single s n v) (hst : v.st = .ended) :
    ∃ g, s.pumpRound = g ∧ Concluded s g ∧ Retired g v ∧ g.ldg.live.keys = s.ldg.live.keys := by
  obtain ⟨g, hg, hrest⟩ := h.pumpStream hst
  refine ⟨g, ?_, hrest⟩
  rw [State.pumpRound, h.busyStreams, List.foldl_cons, List.foldl_nil, hg]

/-- A command without effects that ends is retired at once. -/
theorem endCmd (h : Single s n v) (status app : Nat) (res : List (BitVec 8)) :
    ∃ t, s.endCmd n status app res = t ∧ Concluded s t ∧ EndedAs n v status app t ∧
      t.ldg.live.keys = if status = stDone then s.installed (lposOf n v) else s.ldg.live.keys := by
  obtain ⟨e, he, hce, hsingle, hkeyse⟩ := h.endSlot status app res
  obtain ⟨g, hg, hcg, hret, hkeysg⟩ := hsingle.pumpRound rfl
  refine ⟨g.ldgSync, ?_, (hce.trans hcg).trans (Concluded.ldgSync g), hret.ldgSync.ended n, ?_⟩
  · rw [State.endCmd, he, State.pump_eq, hg, hret.pumpRound]
  · show g.ldg.live.keys = _
    rw [hkeysg, hkeyse]

end Single

end Sys2Proof.Machine
end

section
/-!
PROOFS. The management commands (O45).
-/
namespace Sys2Proof.Machine

theorem State.mgmt_some {s : State} {n op : Nat} {v : Slot} (h : s.mgmt n op = some v) :
    s.slot? n = some v ∧ v.stream < 5 ∧ hdrOpcode v.hdr = op ∧ v.st = .waiting := by
  unfold State.mgmt at h
  split at h
  · next w hw =>
    split at h
    · next hc =>
      cases h
      simp only [Bool.and_eq_true, decide_eq_true_eq] at hc
      exact ⟨hw, hc.1.1.1.1.1, hc.1.1.1.1.2, hc.1.1.1.2⟩
    · cases h
  · cases h

theorem State.alone_single {s : State} {n : Nat} {v : Slot} (h : s.alone n v) : Single s n v := ⟨h.1, h.2.1, h.2.2.1, h.2.2.2⟩

/-- A row that ends the one command in a machine that differs in the Ledger alone. -/
theorem mgmt_ends {s u : State} {n app : Nat} {v : Slot} {c : Instr} (hs : s.calm = true) (hu : Single u n v) (hcalm : u.calm = s.calm) (hpending : u.pending = s.pending)
    (hrow : exec c s = fin s (u.endMgmt n app)) :
    ∃ t, exec c s = .next t ∧ Concluded u t ∧ EndedAs n v (if app = 0 then stDone else stFailed) app t ∧
      t.ldg.live.keys = if app = 0 then u.installed (lposOf n v) else u.ldg.live.keys := by
  obtain ⟨t, ht, hc, hended, hkeys⟩ := hu.endCmd (if app = 0 then stDone else stFailed) app []
  refine ⟨t, ?_, hc, hended, ?_⟩
  · rw [hrow, State.endMgmt, ht]
    exact fin_next (hc.calm (hcalm.trans hs)) (hc.pending.trans hpending)
  · rw [hkeys]
    by_cases h : app = 0
    · rw [if_pos h, if_pos rfl, if_pos h]
    · rw [if_neg h, if_neg (by decide), if_neg h]

theorem State.streamOpen_ends {s : State} {nb : BitVec 17} {v : Slot} (hs : s.calm = true) (hv : Single s nb.toNat v) (hm : s.mgmt nb.toNat 0x10 = some v) :
    let p := v.params
    let k := leAt p 0 2
    (p.length = 16 → k ≤ 0xFFF → leAt p 2 1 ≤ 4 → leAt p 3 1 = 0 → 0 < leAt p 4 2 → leAt p 4 2 ≤ 4096 → leAt p 8 1 ≤ 1 → leAt p 9 7 = 0 →
      (s.stream k).st = 0 → (s.key? k).isSome = true →
      ∃ t, exec (.streamOpen nb) s = .next t ∧ EndedAs nb.toNat v stDone 0 t ∧ (t.stream k).st = 1 ∧ (t.stream k).transport = leAt p 2 1 ∧
        (t.stream k).crc = false ∧ (t.stream k).credits = leAt p 4 2 ∧ (t.stream k).ctxA = leAt p 6 1 ∧ (t.stream k).ctxB = leAt p 7 1 ∧
        (t.stream k).strmOk = decide (leAt p 8 1 = 1)) ∧
    (p.length ≠ 16 → ∃ t, exec (.streamOpen nb) s = .next t ∧ EndedAs nb.toNat v stFailed apBadParam t) := by
  dsimp only
  refine ⟨fun hlen hk htr hau h0 h4096 h8 h9 hst hkey => ?_, fun hlen => ?_⟩
  · obtain ⟨o, ho⟩ : ∃ o : Stream, { st := 1, transport := leAt v.params 2 1, crc := decide (leAt v.params 3 1 = 1), credits := leAt v.params 4 2, strmOk := decide (leAt v.params 8 1 = 1), ctxA := leAt v.params 6 1, ctxB := leAt v.params 7 1, lastSeq := 0, window := [], peer := none } = o := ⟨_, rfl⟩
    have hopen : s.streamOpen nb.toNat = (s.setStream (leAt v.params 0 2) o).endMgmt nb.toNat 0 := by
      unfold State.streamOpen
      rw [hm]
      dsimp only
      rw [if_neg (by omega), if_neg (fun h => h hst), if_neg (by rintro ⟨-, h⟩; simp_all), ho]
    have hst1 : o.st ≠ 2 := by
      rw [← ho]
      simp
    obtain ⟨t, hexec, hc, hended, -⟩ := mgmt_ends (u := s.setStream (leAt v.params 0 2) o) (n := nb.toNat) (app := 0) (v := v) (c := .streamOpen nb) hs
      ⟨hv.slots, hv.effs, State.noneClosing_setStream hv.closing _ hst1, hv.idle⟩ (State.calm_congr rfl rfl rfl rfl) rfl (congrArg (fin s) hopen)
    have hstream : (s.setStream (leAt v.params 0 2) o).stream (leAt v.params 0 2) = o := Tbl.get_set_self _ _ _ _
    have hkept := hc.streams (leAt v.params 0 2)
    rw [hstream] at hkept
    have hcrc : (t.stream (leAt v.params 0 2)).crc = false := by
      rcases hkept.crc with h | h
      · rw [h, ← ho]
        simp [hau]
      · exact h
    refine ⟨t, hexec, hended, ?_, ?_, hcrc, ?_, ?_, ?_, ?_⟩
    all_goals rw [hkept.rest, ← ho]
  · obtain ⟨t, hexec, -, hended, -⟩ := mgmt_ends (u := s) (n := nb.toNat) (app := apBadParam) (v := v) (c := .streamOpen nb) hs hv rfl rfl (by
      show fin s (s.streamOpen nb.toNat) = _
      unfold State.streamOpen
      rw [hm]
      dsimp only
      rw [if_pos (.inl hlen)])
    exact ⟨t, hexec, hended⟩

/-- Values written one after the other into a table. -/
theorem Tbl.get_written {α : Type} [DecidableEq α] (d : Nat → α) (base : Nat) (f : Nat → α) (n : Nat) (t : Tbl α) {i : Nat} (hi : i < n) :
    Tbl.get d ((List.range n).foldl (fun t i => Tbl.set d t (base + i) (f i)) t) (base + i) = f i := by
  induction n with
  | zero => omega
  | succ n ih =>
    rw [List.range_succ, List.foldl_append, List.foldl_cons, List.foldl_nil, Tbl.get_set]
    split
    · next h =>
      obtain rfl : n = i := by omega
      rfl
    · exact ih (by omega)

theorem State.blobPut_ends {s : State} {nb : BitVec 17} {v : Slot} (hs : s.calm = true) (hv : Single s nb.toNat v) (hm : s.mgmt nb.toNat 0x20 = some v)
    (hlen : 4 ≤ v.params.length) (hfit : leAt v.params 0 4 + (v.params.drop 4).length ≤ 0x10000) :
    let p := v.params
    ∃ t, exec (.blobPut nb) s = .next t ∧ EndedAs nb.toNat v stDone 0 t ∧ t.ldg.blobLen = max s.ldg.blobLen (leAt p 0 4 + (p.drop 4).length) ∧
      ∀ i, i < (p.drop 4).length → Tbl.get (fun _ => 0) t.ldg.blob (leAt p 0 4 + i) = (p.drop 4).getD i 0 := by
  intro p
  obtain ⟨b, hb⟩ : ∃ b, (List.range (p.drop 4).length).foldl (fun t i => Tbl.set (fun _ => 0) t (leAt p 0 4 + i) ((p.drop 4).getD i 0)) s.ldg.blob = b := ⟨_, rfl⟩
  have hput : s.blobPut nb.toNat = (s.updLdg (fun l => { l with blob := b, blobLen := max l.blobLen (leAt p 0 4 + (p.drop 4).length) })).endMgmt nb.toNat 0 := by
    unfold State.blobPut
    rw [hm]
    dsimp only
    rw [if_neg (by omega), hb]
  obtain ⟨u, hu⟩ : ∃ u, s.updLdg (fun l => { l with blob := b, blobLen := max l.blobLen (leAt p 0 4 + (p.drop 4).length) }) = u := ⟨_, rfl⟩
  rw [hu] at hput
  obtain ⟨t, hexec, hc, hended, -⟩ := mgmt_ends (u := u) (n := nb.toNat) (app := 0) (v := v) (c := .blobPut nb) hs
    (by rw [← hu]; exact ⟨hv.slots, hv.effs, hv.closing, hv.idle⟩) (by rw [← hu]; exact State.calm_congr rfl rfl rfl rfl) (by rw [← hu]; rfl) (congrArg (fin s) hput)
  refine ⟨t, hexec, hended, by rw [hc.rest, ← hu]; rfl, fun i hi => ?_⟩
  have hblob : t.ldg.blob = b := by rw [hc.rest, ← hu]; rfl
  rw [hblob, ← hb]
  exact Tbl.get_written _ _ _ _ _ hi

theorem Tbl.filter_insert {α : Type} {p : Nat × α → Bool} {t : Tbl α} {k : Nat} {v : α} (ht : ∀ e ∈ t, p e = false) (hp : p (k, v) = true) :
    (Tbl.insert t k v).filter p = [(k, v)] := by
  induction t with
  | nil => rw [Tbl.insert, List.filter_cons_of_pos hp, List.filter_nil]
  | cons e t ih =>
    obtain ⟨i, x⟩ := e
    have hrest : ∀ e ∈ t, p e = false := fun f hf => ht f (List.mem_cons_of_mem _ hf)
    have hnil : t.filter p = [] := List.filter_eq_nil_iff.mpr (fun f hf => by simp [hrest f hf])
    have hhead : ¬ p (i, x) = true := by simp [ht _ List.mem_cons_self]
    rw [Tbl.insert]
    split
    · rw [List.filter_cons_of_pos hp, hnil]
    · split
      · rw [List.filter_cons_of_pos hp, List.filter_cons_of_neg hhead, hnil]
      · rw [List.filter_cons_of_neg hhead, ih hrest]

theorem State.noneClosing_eraseStream {s : State} {k : Nat} {w : Stream} (h : s.noneClosing) :
    ((s.setStream k w).setStream k (defaultStream k)).noneClosing := by
  intro e he
  have herase : ((s.setStream k w).setStream k (defaultStream k)).ldg.live.streams = Tbl.erase (s.setStream k w).ldg.live.streams k := by
    show Tbl.set _ _ _ _ = _
    rw [Tbl.set, if_pos rfl]
  rw [herase] at he
  obtain rfl | hin := Tbl.mem_of_mem_set (d := defaultStream) (t := s.ldg.live.streams) (Tbl.mem_erase he)
  · exact absurd rfl (Tbl.key_ne_of_look (Tbl.look_erase_self _ _) _ he)
  · exact h e hin

/-- A stream closes whose STREAM_CLOSE, of another stream, is the one command: it is closed, and the command ends (R543, R637). -/
theorem State.pump_closes {a : State} {n k : Nat} {w : Slot} {x : Stream} (hslots : a.ldg.live.slots = [(n, w)]) (heffs : w.effs = []) (hst : w.st = .inMode)
    (hop : hdrOpcode w.hdr = 0x11) (hk : leAt w.params 0 2 = k) (hclosing : a.ldg.live.streams.filter (fun e => e.2.st = 2) = [(k, x)])
    (hclose : (a.stream k).st = 2) (hown : (a.stream w.stream).st ≠ 2) (hnone : (a.setStream k (defaultStream k)).noneClosing) (hidle : a.stoIdle) :
    ∃ t, a.pump = t ∧ Concluded ((a.setStream k (defaultStream k)).eraseKey k) t ∧ EndedAs n w stDone 0 t := by
  have hne : k ≠ w.stream := fun h => hown (h ▸ hclose)
  have hin : ∀ j, a.inStream j = if w.stream = j then [(n, w)] else [] := by
    intro j
    rw [State.inStream, hslots, List.filter_cons, List.filter_nil]
    by_cases hj : w.stream = j
    · rw [if_pos (by simpa using hj), if_pos hj]
    · rw [if_neg (by simpa using hj), if_neg hj]
  have hslot : a.slot? n = some w := by rw [State.slot?, hslots, Tbl.look, if_pos rfl]
  have hopen : ¬ w.st = .ended := by rw [hst]; decide
  -- the command's own stream has nothing to release
  have hfirst : a.pumpStream w.stream = a := by
    unfold State.pumpStream
    rw [hin, if_pos rfl, Single.seqOrder_one, pumpList, Single.pumpEffs hslot heffs]
    dsimp only
    rw [if_neg (by decide), hslot]
    dsimp only
    rw [if_neg hopen, Single.tryClose_open hown]
  -- the closing stream is empty: it is closed, and the command ends
  obtain ⟨b, hb⟩ : ∃ b, (a.setStream k (defaultStream k)).eraseKey k = b := ⟨_, rfl⟩
  have hbsingle : Single b n w := by
    rw [← hb]
    exact ⟨hslots, heffs, hnone, hidle⟩
  obtain ⟨e, he, hce, hesingle, -⟩ := hbsingle.endSlot stDone 0 []
  have hclosable : a.closable k = true := by
    rw [State.closable, hclose, hin, if_neg (Ne.symm hne)]
    rfl
  have hsecond : a.pumpStream k = e := by
    have hpump : a.pumpStream k = a.tryClose k := by
      unfold State.pumpStream
      rw [hin, if_neg (Ne.symm hne)]
      rfl
    rw [hpump]
    unfold State.tryClose
    rw [hclosable, if_neg (by decide)]
    dsimp only
    rw [hb, hbsingle.slots, List.filter_cons_of_pos (by simp [hst, hop, hk]), List.filter_nil, List.foldl_cons, List.foldl_nil, he]
  have hround : a.pumpRound = e := by
    have hbusy : a.busyStreams = [w.stream, k] := by
      rw [State.busyStreams, hclosing, hslots]
      simp only [List.map_cons, List.map_nil, List.cons_append, List.nil_append]
      simp [List.eraseDups_cons, hne]
    rw [State.pumpRound, hbusy, List.foldl_cons, hfirst, List.foldl_cons, hsecond, List.foldl_nil]
  obtain ⟨g, hg, hcg, hret, -⟩ := hesingle.pumpRound rfl
  refine ⟨g.ldgSync, by rw [State.pump_eq, hround, hg], ?_, hret.ldgSync.ended n⟩
  rw [hb]
  exact (hce.trans hcg).trans (Concluded.ldgSync g)

theorem State.streamClose_ends {s : State} {nb : BitVec 17} {v : Slot} (hs : s.calm = true) (hv : Single s nb.toNat v) (hm : s.mgmt nb.toNat 0x11 = some v)
    (hlen : v.params.length = 2) :
    let k := leAt v.params 0 2
    (5 ≤ k → k ≤ 0xFFF → (s.stream k).st = 1 → ∃ t, exec (.streamClose nb) s = .next t ∧ EndedAs nb.toNat v stDone 0 t ∧ (t.stream k).st = 0) ∧
    (k < 5 → ∃ t, exec (.streamClose nb) s = .next t ∧ EndedAs nb.toNat v stFailed apNotAllowed t) := by
  obtain ⟨k, hkp⟩ : ∃ k, leAt v.params 0 2 = k := ⟨_, rfl⟩
  dsimp only
  rw [hkp]
  obtain ⟨hslot, hmanage, hop, hwait⟩ := State.mgmt_some hm
  refine ⟨fun hk5 hk hst => ?_, fun hk => ?_⟩
  · obtain ⟨w, hw⟩ : ∃ w : Slot, { v with st := .inMode } = w := ⟨_, rfl⟩
    obtain ⟨a, ha⟩ : ∃ a, (s.setStream k { s.stream k with st := 2 }).putSlot nb.toNat w = a := ⟨_, rfl⟩
    have hclose : s.streamClose nb.toNat = a.pump := by
      unfold State.streamClose
      rw [hm]
      dsimp only
      rw [hkp, if_neg (by omega), if_neg (by omega), if_neg (by omega), hw, ha]
    have haslots : a.ldg.live.slots = [(nb.toNat, w)] := by
      rw [← ha]
      show Tbl.insert s.ldg.live.slots _ _ = _
      rw [hv.slots, Tbl.insert, if_pos rfl]
    have haclosing : a.ldg.live.streams.filter (fun e => e.2.st = 2) = [(k, { s.stream k with st := 2 })] := by
      rw [← ha]
      show (Tbl.set defaultStream s.ldg.live.streams k _).filter _ = _
      rw [Tbl.set, if_neg (fun h => ?_)]
      · exact Tbl.filter_insert (fun e he => by simpa using hv.closing e he) rfl
      · have := congrArg Stream.st h
        simp only [defaultStream] at this
        split at this <;> omega
    have hastream : ∀ j, a.stream j = if k = j then { s.stream k with st := 2 } else s.stream j := by
      intro j
      rw [← ha]
      exact Tbl.get_set _ _ _ _ _
    have hnone : (a.setStream k (defaultStream k)).noneClosing := by
      rw [← ha]
      exact State.noneClosing_eraseStream (s := s) (k := k) (w := { s.stream k with st := 2 }) hv.closing
    have hown : (a.stream w.stream).st ≠ 2 := by
      have hne : k ≠ w.stream := by
        rw [← hw]
        show k ≠ v.stream
        omega
      rw [hastream, if_neg hne]
      exact State.noneClosing_stream hv.closing _
    obtain ⟨t, ht, hc, hended⟩ := State.pump_closes (a := a) (n := nb.toNat) (w := w) (k := k) haslots (by rw [← hw]; exact hv.effs) (by rw [← hw])
      (by rw [← hw]; exact hop) (by rw [← hw]; exact hkp) haclosing (by rw [hastream, if_pos rfl]) hown hnone (by rw [← ha]; exact hv.idle)
    obtain ⟨b, hb⟩ : ∃ b, (a.setStream k (defaultStream k)).eraseKey k = b := ⟨_, rfl⟩
    have ha' : a.calm = s.calm ∧ a.pending = s.pending := by
      rw [← ha]
      exact ⟨State.calm_congr rfl rfl rfl rfl, rfl⟩
    have hb' : b.calm = a.calm ∧ b.pending = a.pending := by
      rw [← hb]
      exact ⟨State.calm_congr rfl rfl rfl rfl, rfl⟩
    rw [hb] at hc
    refine ⟨t, ?_, ?_, ?_⟩
    · show fin s (s.streamClose nb.toNat) = _
      rw [hclose, ht]
      exact fin_next (hc.calm (hb'.1.trans (ha'.1.trans hs))) (hc.pending.trans (hb'.2.trans ha'.2))
    · rw [← hw] at hended
      exact hended
    · have hbk : b.stream k = defaultStream k := by
        rw [← hb]
        exact Tbl.get_set_self _ _ _ _
      rw [(hc.streams k).rest, hbk]
      show (if k < 5 then 1 else 0) = 0
      rw [if_neg (by omega)]
  · obtain ⟨t, hexec, -, hended, -⟩ := mgmt_ends (u := s) (n := nb.toNat) (app := apNotAllowed) (v := v) (c := .streamClose nb) hs hv rfl rfl (by
      show fin s (s.streamClose nb.toNat) = _
      unfold State.streamClose
      rw [hm]
      dsimp only
      rw [hkp, if_neg (by omega), if_pos hk])
    exact ⟨t, hexec, hended⟩

theorem State.keySet_ends {s : State} {nb : BitVec 17} {v : Slot} (hs : s.calm = true) (hv : Single s nb.toNat v) (hm : s.mgmt nb.toNat 0x21 = some v)
    (hnone : v.params = []) :
    (∀ i key, s.keyBlob v.stream = (0, some (i, key), none) → s.sec.pend = [] →
      ∃ t, exec (.keySet nb) s = .next t ∧ EndedAs nb.toNat v stDone 0 t ∧ t.key? i = some key ∧ t.ldg.blob = [] ∧ t.ldg.blobLen = 0) ∧
    (∀ app x y, s.keyBlob v.stream = (app, x, y) → app ≠ 0 → ∃ t, exec (.keySet nb) s = .next t ∧ EndedAs nb.toNat v stFailed app t) := by
  refine ⟨fun i key hblob hpend => ?_, fun app x y hblob happ => ?_⟩
  · obtain ⟨ctr, hctr⟩ : ∃ ctr, p64 (leNat ((List.range 8).map (fun i => Tbl.get (fun _ => 0) s.ldg.blob (24 + i)))) = ctr := ⟨_, rfl⟩
    obtain ⟨u, hu⟩ : ∃ u : State, { s with ldg := { s.ldg with blob := [], blobLen := 0 }, sec := { s.sec with pend := [⟨i, lposOf nb.toNat v, key, ctr⟩] } } = u := ⟨_, rfl⟩
    have hset : s.keySet nb.toNat = u.endMgmt nb.toNat 0 := by
      unfold State.keySet
      rw [hm]
      dsimp only
      rw [hblob, hnone, hctr, if_neg (by decide), if_neg (fun h => h rfl), ← hu]
      dsimp only [State.updSec, State.updLdg]
      rw [hpend]
      rfl
    obtain ⟨t, hexec, hc, hended, hkeys⟩ := mgmt_ends (u := u) (n := nb.toNat) (app := 0) (v := v) (c := .keySet nb) hs
      (by rw [← hu]; exact ⟨hv.slots, hv.effs, hv.closing, hv.idle⟩) (by rw [← hu]; exact State.calm_congr rfl rfl rfl rfl) (by rw [← hu]) (congrArg (fin s) hset)
    refine ⟨t, hexec, hended, ?_, by rw [hc.rest, ← hu], by rw [hc.rest, ← hu]⟩
    have hinstalled : u.installed (lposOf nb.toNat v) = Tbl.insert s.ldg.live.keys i ⟨if s.secStat 62 then none else some s.sec.rma, key⟩ := by
      rw [← hu]
      unfold State.installed
      dsimp only
      rw [List.filter_cons_of_pos (by simp), List.filter_nil]
      rfl
    have hstat : t.secStat 62 = s.secStat 62 := by
      rw [State.secStat, hc.regs _ (by decide) (by decide), ← hu]
      rfl
    have hrma : t.sec.rma = s.sec.rma := by rw [hc.rest, ← hu]
    rw [State.key?, hkeys, if_pos rfl, hinstalled, Tbl.look_insert_self]
    cases hb : s.secStat 62 with
    | true => rfl
    | false => simp [hrma, hstat, hb]
  · obtain ⟨u, hu⟩ : ∃ u : State, s.updLdg (fun l => { l with blob := [], blobLen := 0 }) = u := ⟨_, rfl⟩
    obtain ⟨t, hexec, -, hended, -⟩ := mgmt_ends (u := u) (n := nb.toNat) (app := app) (v := v) (c := .keySet nb) hs
      (by rw [← hu]; exact ⟨hv.slots, hv.effs, hv.closing, hv.idle⟩) (by rw [← hu]; exact State.calm_congr rfl rfl rfl rfl) (by rw [← hu]; rfl) (by
        show fin s (s.keySet nb.toNat) = _
        unfold State.keySet
        rw [hm]
        dsimp only
        rw [hblob, hnone, if_neg (by decide), if_pos happ, hu])
    rw [if_neg happ] at hended
    exact ⟨t, hexec, hended⟩

theorem State.modeReq_ends {s : State} {nb : BitVec 17} {v : Slot} (hs : s.calm = true) (hv : Single s nb.toNat v) (hm : s.mgmt nb.toNat 0x30 = some v)
    (hlen : v.params.length = 1) (hbusy : s.modeBusy = false) :
    (leAt v.params 0 1 = mSafe → s.mode ∈ [mBoot, mRun, mDegraded, mService, mQuiet] → s.ldg.held = [] →
      ∃ t, exec (.modeReq nb) s = .next t ∧ EndedAs nb.toNat v stDone 0 t ∧ t.mode = mSafe) ∧
    (leAt v.params 0 1 = mReset → bit (s.reg 0x20) 0 = true →
      ∃ t, exec (.modeReq nb) s = .next t ∧ EndedAs nb.toNat v stDone 0 t ∧ t.sys.resetAt = some (s.time + 1000000)) := by
  refine ⟨fun hsafe hmode hheld => ?_, fun hreset hpol => ?_⟩
  · obtain ⟨u, hu, hregs, hshown, -⟩ := State.modeCmd_safe hbusy hmode
    have hmodeu : ((s.setMode mSafe).refresh).modeResult mrDone = u := by
      rw [← hu]
      unfold State.modeCmd
      rw [if_neg (by simp [hbusy]), if_neg (by decide), if_pos rfl, State.askSafe_eq hmode]
      rfl
    have husingle : Single u nb.toNat v := by
      rw [hregs.rest]
      exact ⟨hv.slots, hv.effs, hv.closing, hv.idle⟩
    obtain ⟨t, ht, hc, hended, -⟩ := husingle.endCmd stDone 0 []
    have hnone : t.ldg.held = [] := hc.held (by rw [hregs.rest]; exact hheld)
    have hreq : s.modeReqCmd nb.toNat = t := by
      unfold State.modeReqCmd
      rw [hm]
      dsimp only
      rw [if_neg (by rw [hlen, hsafe]; decide), if_neg (by rw [hsafe]; simp), if_neg (by rw [hsafe]; decide), if_neg (by simp [hbusy]),
        if_neg (c := leAt v.params 0 1 = mRun) (by rw [hsafe]; decide), if_pos (c := leAt v.params 0 1 = mSafe) hsafe, State.askSafe_eq hmode, if_pos rfl]
      dsimp only
      rw [hmodeu]
      show (u.endCmd nb.toNat stDone 0 []).retryHeld = t
      rw [ht, State.retryHeld, hnone, List.foldl_nil]
    refine ⟨t, ?_, hended, (State.mode_congr (hc.regs 0x10 (by decide) (by decide))).trans hshown⟩
    show fin s (s.modeReqCmd nb.toNat) = _
    rw [hreq]
    exact fin_next (hc.calm (by rw [hregs.rest]; exact (State.calm_congr rfl rfl rfl rfl).trans hs)) (hc.pending.trans (by rw [hregs.rest]))
  · obtain ⟨t, ht, hc, hended, -⟩ := hv.endCmd stDone 0 []
    have hreq : s.modeReqCmd nb.toNat = t.updSys (fun y => { y with resetAt := some (s.time + 1000000) }) := by
      unfold State.modeReqCmd
      rw [hm]
      dsimp only
      rw [if_neg (by rw [hlen, hreset]; decide), if_neg (by rw [hreset, hpol]; simp), if_pos hreset]
      show (s.endCmd nb.toNat stDone 0 []).updSys _ = _
      rw [ht]
    refine ⟨t.updSys (fun y => { y with resetAt := some (s.time + 1000000) }), ?_, hended, rfl⟩
    show fin s (s.modeReqCmd nb.toNat) = _
    rw [hreq]
    exact fin_next ((State.calm_congr rfl rfl rfl rfl).trans (hc.calm hs)) hc.pending

/-- Settles O45: each management command does its work, and the one command ends, is answered and retires. -/
theorem managementCommands : Obligations.ManagementCommands := by
  unfold Obligations.ManagementCommands
  intro s nb v
  dsimp only
  intro hs halone
  have hv := State.alone_single halone
  exact ⟨fun hm => State.streamOpen_ends hs hv hm, fun hm hlen => State.streamClose_ends hs hv hm hlen, fun hm hlen hfit => State.blobPut_ends hs hv hm hlen hfit,
    fun hm hnone => State.keySet_ends hs hv hm hnone, fun hm hlen hbusy => State.modeReq_ends hs hv hm hlen hbusy⟩

end Sys2Proof.Machine
end

section
/-!
PROOFS. Packets that arrive, their replies, and queries (O44).
-/
namespace Sys2Proof.Machine

/-! ### Replies go out -/

/-- A reply to a packet of stream n can go at once (R533 to R535). -/
def State.canReply (s : State) (via : Via) (n : Nat) : Prop :=
  match via with
  | .udp p => (s.stream n).peer = some p
  | .sp => s.ldg.spQ.length < 32 ∧ s.ldg.spWait = []
  | .pcie c q _ _ _ => (s.qpair (pairKey c q)).en = true ∧ (s.qpair (pairKey c q)).cqRoom ≠ 0 ∧ (s.qpair (pairKey c q)).wait = []

theorem State.qpair_setQpair (s : State) (k : Nat) (p : QPair) (j : Nat) : (s.setQpair k p).qpair j = if k = j then p else s.qpair j := Tbl.get_set _ _ _ _ _

/-- A completion queue with room takes the one reply that waits (R534). -/
theorem pumpPair_one {s : State} {k fuel : Nat} {o : ReplyOut} (hen : (s.qpair k).en = true) (hroom : (s.qpair k).cqRoom ≠ 0) (hwait : (s.qpair k).wait = [o]) :
    ∃ t, pumpPair k (fuel + 1) s = t ∧ t = { s with ldg := { s.ldg with pairs := t.ldg.pairs, sent := cutReply o :: s.ldg.sent } } ∧
      (t.qpair k).wait = [] ∧ (t.qpair k).cqHead = (s.qpair k).cqHead ∧ (t.qpair k).sqHead = (s.qpair k).sqHead := by
  obtain ⟨p, hp⟩ : ∃ p, s.qpair k = p := ⟨_, rfl⟩
  rw [hp] at hen hroom hwait ⊢
  rw [pumpPair]
  dsimp only
  rw [hp, hwait]
  dsimp only
  rw [if_neg (by simp [hen, hroom])]
  obtain ⟨p1, hp1⟩ : ∃ p1 : QPair, { p with
      wait := [], cqTail := (p.cqTail + 1) % 2 ^ p.cqLog, phase := if (p.cqTail + 1) % 2 ^ p.cqLog = 0 then !p.phase else p.phase } = p1 := ⟨_, rfl⟩
  rw [hp1]
  obtain ⟨t, ht⟩ : ∃ t, (s.setQpair k p1).updLdg (fun l => { l with sent := cutReply o :: l.sent }) = t := ⟨_, rfl⟩
  have hqp : t.qpair k = p1 := by
    rw [← ht]
    exact (s.qpair_setQpair k p1 k).trans (if_pos rfl)
  have hdone : pumpPair k fuel t = t := by
    cases fuel with
    | zero => rfl
    | succ fuel =>
      rw [pumpPair]
      dsimp only
      rw [hqp, ← hp1]
  rw [ht]
  refine ⟨t, hdone, by rw [← ht]; rfl, ?_, ?_, ?_⟩
  all_goals rw [hqp, ← hp1]

theorem State.sendReply_goes {s : State} {via : Via} {r : Reply} (h : s.canReply via (r.stream % 0x1000)) : Replied s via r (s.sendReply via r) := by
  cases via with
  | udp p =>
    have hpeer : (s.stream (r.stream % 0x1000)).peer = some p := h
    unfold State.sendReply
    dsimp only
    rw [hpeer]
    rfl
  | sp =>
    obtain ⟨hroom, hwait⟩ : s.ldg.spQ.length < 32 ∧ s.ldg.spWait = [] := h
    show s.ldg.spQ ++ (s.ldg.spWait ++ [(⟨.sp, r⟩ : ReplyOut)]).take (32 - s.ldg.spQ.length) = _
    rw [hwait, List.nil_append, List.take_of_length_le (by simp; omega)]
  | pcie c q cookie buf size =>
    obtain ⟨hen, hroom, hwait⟩ : (s.qpair (pairKey c q)).en = true ∧ (s.qpair (pairKey c q)).cqRoom ≠ 0 ∧ (s.qpair (pairKey c q)).wait = [] := h
    obtain ⟨u, hu⟩ : ∃ u, s.setQpair (pairKey c q) { s.qpair (pairKey c q) with wait := (s.qpair (pairKey c q)).wait ++ [⟨.pcie c q cookie buf size, r⟩] } = u := ⟨_, rfl⟩
    have hqp : u.qpair (pairKey c q) = { s.qpair (pairKey c q) with wait := [⟨.pcie c q cookie buf size, r⟩] } := by
      rw [← hu, State.qpair_setQpair, if_pos rfl, hwait, List.nil_append]
    obtain ⟨t, ht, hrest, -⟩ := pumpPair_one (s := u) (k := pairKey c q) (fuel := 0) (o := ⟨.pcie c q cookie buf size, r⟩) (by rw [hqp]; exact hen) (by rw [hqp]; exact hroom) (by rw [hqp])
    have hsend : s.sendReply (.pcie c q cookie buf size) r = t := by
      unfold State.sendReply
      dsimp only
      rw [hu, ht]
    rw [hsend]
    show t.ldg.sent = _
    rw [hrest, ← hu]
    rfl

/-- No reply moves the head of a submission queue. -/
theorem sqHead_pumpPair (k j : Nat) : ∀ (fuel : Nat) (s : State), ((pumpPair k fuel s).qpair j).sqHead = (s.qpair j).sqHead
  | 0, _ => rfl
  | fuel + 1, s => by
    rw [pumpPair]
    dsimp only
    split
    · rfl
    · split
      · rfl
      · refine (sqHead_pumpPair k j fuel _).trans ?_
        refine (congrArg QPair.sqHead (s.qpair_setQpair k _ j)).trans ?_
        split
        · next h => rw [h]
        · rfl

theorem State.sqHead_sendReply (s : State) (via : Via) (r : Reply) (j : Nat) : ((s.sendReply via r).qpair j).sqHead = (s.qpair j).sqHead := by
  unfold State.sendReply
  split
  · split <;> rfl
  · rfl
  · next c q cookie buf size =>
    refine (sqHead_pumpPair _ j 1 _).trans ?_
    rw [State.qpair_setQpair]
    split
    · next h => rw [h]
    · rfl

/-- What matters of the state before. -/
theorem Replied.of_before {s u t : State} {via : Via} {r : Reply} (h : Replied u via r t) (hspQ : u.ldg.spQ = s.ldg.spQ) (hsent : u.ldg.sent = s.ldg.sent) :
    Replied s via r t := by
  cases via with
  | udp p => exact Eq.trans (show t.ldg.sent = _ from h) (by rw [hsent])
  | sp => exact Eq.trans (show t.ldg.spQ = _ from h) (by rw [hspQ])
  | pcie c q cookie buf size => exact Eq.trans (show t.ldg.sent = _ from h) (by rw [hsent])

/-! ### Arrival (R537) -/

/-- The stream's peer as a datagram gives it (R533). -/
def State.peered (s : State) (via : Via) (n : Nat) : State :=
  match via with
  | .udp p => s.setStream n { s.stream n with peer := some p }
  | _ => s

/-- The machine with only peers of streams different. -/
structure PeersOnly (s u : State) : Prop where
  rest : u = { s with ldg := { s.ldg with live := { s.ldg.live with streams := u.ldg.live.streams } } }
  stream : ∀ j, u.stream j = { s.stream j with peer := (u.stream j).peer }

theorem State.peered_only (s : State) (via : Via) (n : Nat) : PeersOnly s (s.peered via n) := by
  cases via with
  | udp p =>
    refine ⟨rfl, fun j => ?_⟩
    have h : (s.peered (.udp p) n).stream j = if n = j then { s.stream n with peer := some p } else s.stream j := Tbl.get_set _ _ _ _ _
    rw [h]
    split
    · next hj => rw [hj]
    · rfl
  | sp => exact ⟨rfl, fun _ => rfl⟩
  | pcie c q cookie buf size => exact ⟨rfl, fun _ => rfl⟩

/-- A sound packet passes the first eight checks (R537). -/
theorem State.arrive_sound {s : State} {via : Via} {bs : List (BitVec 8)} (h : s.sound via bs = true) :
    s.arrive via bs = if flagQry (pktHdr bs) then (s.peered via (pktStream bs)).query via (pktHdr bs) (pktParams bs)
      else (s.peered via (pktStream bs)).arriveCmd via (pktHdr bs) (pktParams bs)
        ((bs.drop (32 + pktLen (pktHdr bs))).take (s.trailerLen (pktStream bs))) := by
  simp only [State.sound, Bool.and_eq_true, decide_eq_true_eq] at h
  obtain ⟨⟨⟨⟨⟨⟨⟨⟨⟨⟨⟨⟨⟨⟨hon, hmode⟩, hgot⟩, hmagic⟩, hid⟩, hst⟩, htr⟩, hlen⟩, htrailer⟩, hver⟩, hzero⟩, heven⟩, hflags⟩, hqry⟩, hstrm⟩ := h
  have hdnum := s.dnum.isLt
  have hseq : (!flagQry (pktHdr bs) && decide (hdrSeq (pktHdr bs) = 0) || flagQry (pktHdr bs) && decide (hdrSeq (pktHdr bs) ≠ 0)) = false := by
    rw [hqry]
    by_cases h0 : hdrSeq (pktHdr bs) = 0 <;> simp [h0]
  have hbad : (hdrVer (pktHdr bs) ≠ 1 || 0x8000 ≤ hdrStream (pktHdr bs) || leAt (pktHdr bs) 20 12 ≠ 0 || hdrFlags (pktHdr bs) % 2 = 1 || 8 ≤ hdrFlags (pktHdr bs)
      || (!flagQry (pktHdr bs) && hdrSeq (pktHdr bs) = 0) || (flagQry (pktHdr bs) && hdrSeq (pktHdr bs) ≠ 0)
      || (flagStrm (pktHdr bs) && !(s.stream (pktStream bs)).strmOk)) = false := by
    have h1 : ¬ 0x8000 ≤ hdrStream (pktHdr bs) := by omega
    have h2 : ¬ 8 ≤ hdrFlags (pktHdr bs) := by omega
    have h3 : ¬ hdrFlags (pktHdr bs) % 2 = 1 := by omega
    have h4 : (flagStrm (pktHdr bs) && !(s.stream (pktStream bs)).strmOk) = false := by
      cases hf : flagStrm (pktHdr bs) <;> simp_all
    simp only [Bool.or_eq_false_iff] at hseq
    simp only [hver, h1, hzero, h2, h3, hseq.1, hseq.2, h4]
    decide
  unfold State.arrive
  dsimp only
  rw [show bs.take 32 = pktHdr bs from rfl, show hdrStream (pktHdr bs) % 0x1000 = pktStream bs from rfl]
  have hshort : ¬ bs.length < 32 := by omega
  have hdev : ¬ hdrStream (pktHdr bs) / 0x1000 % 8 ≠ s.dnum.toNat := by omega
  have hclosed : ¬ ((s.stream (pktStream bs)).st = 0 ∨ (s.stream (pktStream bs)).transport ≠ viaCode via) := fun h => h.elim hst (fun h => h htr)
  have hlong : ¬ (pktLen (pktHdr bs) > 4096 ∨ 32 + pktLen (pktHdr bs) + s.trailerLen (pktStream bs) > bs.length) := by omega
  rw [if_neg (by simp [hon, hmode]), if_neg hshort, if_neg (fun h => h hmagic), if_neg hdev, if_neg hclosed, if_neg hlong, if_neg (fun h => h htrailer)]
  refine (if_neg (by rw [Bool.not_eq_true]; exact hbad)).trans ?_
  cases via <;> rfl

/-! ### Acceptance (R546) -/

/-- The machine as a command's acceptance leaves it, before the reply. -/
theorem State.accept_eq {s : State} {via : Via} {h params trailer : List (BitVec 8)} {k : Nat} (hmir : bit (s.reg (oLdg + 0x28)) 63 = false) :
    ∃ (v : Slot) (u : State), s.accept via h params trailer k = u.sendReply via (u.mkReply h stAccepted 0 (lposOf k v) false []) ∧
      v.stream = hdrStream h % 0x1000 ∧ v.seq = hdrSeq h ∧ v.hdr = h ∧ v.params = params ∧ v.st = .waiting ∧ u.slot? k = some v ∧
      (u.stream (hdrStream h % 0x1000)) = { s.stream (hdrStream h % 0x1000) with lastSeq := hdrSeq h } ∧
      u = { s with dev := u.dev, ldg := { s.ldg with live := u.ldg.live, front := u.ldg.front } } := by
  unfold State.accept
  extract_lets n page mir wait v src s1 s2 s3
  have hwait : wait = false := by simp only [wait, mir, hmir, Bool.false_and]
  have hs3 : s3 = s2 := if_neg (by simp [mir, hmir])
  have hv : v.stream = hdrStream h % 0x1000 ∧ v.seq = hdrSeq h ∧ v.hdr = h ∧ v.params = params ∧ v.st = .waiting := ⟨rfl, rfl, rfl, rfl, rfl⟩
  obtain ⟨hstream, hseq, hhdr, hparams, hst⟩ := hv
  clear_value v
  obtain ⟨x, hx⟩ : ∃ x, (s1.front (256 + if page = true then 4096 else 0)).ceCount 7 = x := ⟨_, rfl⟩
  have hs2 : s2 = x.ldgSync := by rw [← hx]
  have hlive : x.ldg.live = s1.ldg.live := by rw [← hx]; rfl
  have hrest : x = { s with dev := x.dev, ldg := { s.ldg with live := x.ldg.live, front := x.ldg.front } } := by rw [← hx]; rfl
  have hslot : s1.slot? k = some v := Tbl.look_insert_self _ _ _
  have hnew : s1.stream n = { src with lastSeq := hdrSeq h } := Tbl.get_set_self _ _ _ _
  clear_value s3 s2 s1
  refine ⟨v, x.ldgSync, ?_, hstream, hseq, hhdr, hparams, hst, ?_, ?_, ?_⟩
  · rw [hwait, if_neg (by decide), hs3, hs2]
  · show Tbl.look x.ldg.live.slots k = _
    rw [hlive]
    exact hslot
  · show Tbl.get defaultStream x.ldg.live.streams n = _
    rw [hlive]
    exact hnew
  · obtain ⟨r, hr⟩ : ∃ r, x.ldgSync = x.setReg (oLdg + 0x18) r := ⟨_, rfl⟩
    rw [hr]
    generalize hd : (x.setReg (oLdg + 0x18) r).dev = d
    rw [hrest] at hd ⊢
    rw [← hd]
    rfl

/-- Steps 9 to 16 of R537 find nothing against the packet. -/
theorem State.arriveCmd_takes {s : State} {via : Via} {bs trailer : List (BitVec 8)} {k : Nat} (h : s.takes bs k = true) :
    s.arriveCmd via (pktHdr bs) (pktParams bs) trailer = s.accept via (pktHdr bs) (pktParams bs) trailer k := by
  simp only [State.takes, Bool.and_eq_true, Bool.or_eq_true, decide_eq_true_eq, Bool.not_eq_true'] at h
  obtain ⟨⟨⟨⟨⟨⟨⟨⟨⟨⟨⟨-, hseq⟩, hopen⟩, hop⟩, hcrc⟩, hmode⟩, hpfw⟩, hres⟩, hmir⟩, hslot⟩, hcredit⟩, hpage⟩ := h
  simp only [mRun, mDegraded, mService, mQuiet] at hmode
  have hreserve : ¬ (s.mode = mReserve ∨ s.pwr.pfw = true) := by
    simp only [mReserve, hpfw, Bool.false_eq_true, or_false]
    omega
  have hboot : ¬ (s.mode = mBoot ∨ s.mode = mReset) := by
    simp only [mBoot, mReset]
    omega
  have hsafe : ¬ (s.mode = mSafe ∧ 0x1000 ≤ hdrOpcode (pktHdr bs)) := by
    simp only [mSafe]
    omega
  unfold State.arriveCmd
  dsimp only
  rw [show hdrStream (pktHdr bs) % 0x1000 = pktStream bs from rfl, if_neg (by omega), if_neg (by omega), if_neg hopen, if_neg (by simp [hop]), if_neg (by rw [← Bool.and_eq_true]; simp [hcrc]),
    if_neg hreserve, if_neg hboot, if_neg hsafe, if_neg (by simp [hres]), if_neg (by simp [hmir]), hslot]
  dsimp only
  rw [if_neg]
  rintro (h0 | ⟨hlong, hnone⟩)
  · exact hcredit h0
  · exact hpage.elim (fun h => by omega) (fun h => h hnone)

theorem PeersOnly.takes {s u : State} (h : PeersOnly s u) (bs : List (BitVec 8)) (k : Nat) : u.takes bs k = s.takes bs k := by
  have hin : u.inStream (pktStream bs) = s.inStream (pktStream bs) := by rw [h.rest]; rfl
  have hkey : ∀ i, u.key? i = s.key? i := fun i => by rw [h.rest]; rfl
  have hreg : ∀ off, u.reg off = s.reg off := fun off => by rw [h.rest]; rfl
  have hmode : u.mode = s.mode := State.mode_congr (hreg _)
  have hrf : u.rf (oLdg + 0x18) 44 32 = s.rf (oLdg + 0x18) 44 32 := State.rf_congr (hreg _) 44 32
  have hpfw : u.pwr.pfw = s.pwr.pfw := by rw [h.rest]
  have hfree : u.freeLedgerSlot = s.freeLedgerSlot := by rw [h.rest]; rfl
  have hbars : ∀ op ps, u.crcBars op ps = s.crcBars op ps := fun op ps => by simp only [State.crcBars, hkey]
  unfold State.takes State.freeCredits
  dsimp only
  rw [h.stream (pktStream bs)]
  simp only [hin, hreg, hmode, hrf, hpfw, hfree, hbars]

/-- The reply that accepts a packet goes the way the packet came. -/
theorem State.canReply_accepts {s : State} {via : Via} {n : Nat} (h : s.viaReady via = true) : (s.peered via n).canReply via n := by
  cases via with
  | udp p => exact congrArg Stream.peer (Tbl.get_set_self _ _ _ _)
  | sp =>
    simp only [State.viaReady, State.spReady, Bool.and_eq_true, decide_eq_true_eq, List.isEmpty_iff] at h
    exact ⟨h.1.1, h.2⟩
  | pcie c q cookie buf size =>
    simp only [State.viaReady, Bool.and_eq_true, decide_eq_true_eq, List.isEmpty_iff] at h
    exact ⟨h.1.1.2, h.1.2, h.2⟩

/-- What decides on replies. -/
theorem State.canReply_congr {s u : State} {via : Via} {n : Nat} (h : s.canReply via n) (hpeer : (u.stream n).peer = (s.stream n).peer) (hpairs : u.ldg.pairs = s.ldg.pairs)
    (hspQ : u.ldg.spQ = s.ldg.spQ) (hwait : u.ldg.spWait = s.ldg.spWait) : u.canReply via n := by
  cases via with
  | udp p => exact hpeer.trans h
  | sp =>
    obtain ⟨h1, h2⟩ : s.ldg.spQ.length < 32 ∧ s.ldg.spWait = [] := h
    exact ⟨by rw [hspQ]; exact h1, by rw [hwait]; exact h2⟩
  | pcie c q cookie buf size =>
    have hq : u.qpair (pairKey c q) = s.qpair (pairKey c q) := by rw [State.qpair, hpairs]; rfl
    obtain ⟨h1, h2, h3⟩ : (s.qpair (pairKey c q)).en = true ∧ (s.qpair (pairKey c q)).cqRoom ≠ 0 ∧ (s.qpair (pairKey c q)).wait = [] := h
    exact ⟨by rw [hq]; exact h1, by rw [hq]; exact h2, by rw [hq]; exact h3⟩

/-- The Command Engine has answered: registers, the Ledger's packets and transports, a query's request may differ. -/
structure Answered (s t : State) : Prop where
  rest : t = { s with dev := t.dev, sec := t.sec, ldg := { s.ldg with
    live := t.ldg.live, front := t.ldg.front, pairs := t.ldg.pairs, spQ := t.ldg.spQ, spWait := t.ldg.spWait, sent := t.ldg.sent } }

theorem Answered.refl (s : State) : Answered s s := ⟨rfl⟩

theorem Answered.trans {s u t : State} (h : Answered s u) (g : Answered u t) : Answered s t := by
  refine ⟨?_⟩
  rw [g.rest, h.rest]

theorem Answered.fin {s t : State} (hs : s.calm = true) (h : Answered s t) : fin s t = .next t := by
  rw [h.rest]
  exact fin_calm hs rfl rfl rfl rfl rfl

theorem Answered.of_sent {s u t : State} (h : Sent u t) (hu : Answered s u) : Answered s t := by
  refine ⟨?_⟩
  rw [h.rest, hu.rest]

theorem PeersOnly.answered {s u : State} (h : PeersOnly s u) : Answered s u := by
  refine ⟨?_⟩
  rw [h.rest]

/-- A packet that nothing speaks against is accepted (R546). -/
theorem State.arrive_accepted {s : State} {via : Via} {bs : List (BitVec 8)} {k : Nat} (hsound : s.sound via bs = true) (htakes : s.takes bs k = true)
    (hreply : (s.peered via (pktStream bs)).canReply via (pktStream bs)) :
    ∃ t, s.arrive via bs = t ∧ Accepted s via bs k t ∧ Answered s t ∧ ∀ j, (t.qpair j).sqHead = (s.qpair j).sqHead := by
  obtain ⟨u, hu⟩ : ∃ u, s.peered via (pktStream bs) = u := ⟨_, rfl⟩
  have hpeers : PeersOnly s u := hu ▸ s.peered_only via (pktStream bs)
  have hqry : flagQry (pktHdr bs) = false := by
    simp only [State.takes, Bool.and_eq_true, Bool.not_eq_true'] at htakes
    obtain ⟨⟨⟨⟨⟨⟨⟨⟨⟨⟨⟨h, -⟩, -⟩, -⟩, -⟩, -⟩, -⟩, -⟩, -⟩, -⟩, -⟩, -⟩ := htakes
    exact h
  have hmir : bit (u.reg (oLdg + 0x28)) 63 = false := by
    have hreg : u.reg (oLdg + 0x28) = s.reg (oLdg + 0x28) := by rw [hpeers.rest]; rfl
    simp only [State.takes, Bool.and_eq_true, Bool.not_eq_true'] at htakes
    obtain ⟨⟨⟨⟨-, h⟩, -⟩, -⟩, -⟩ := htakes
    rw [hreg]
    exact h
  obtain ⟨v, x, haccept, hstream, hseq, hhdr, hparams, hst, hslot, hnew, hx⟩ := State.accept_eq (s := u) (via := via) (h := pktHdr bs) (params := pktParams bs)
    (trailer := (bs.drop (32 + pktLen (pktHdr bs))).take (s.trailerLen (pktStream bs))) (k := k) hmir
  obtain ⟨r, hr⟩ : ∃ r, x.mkReply (pktHdr bs) stAccepted 0 (lposOf k v) false [] = r := ⟨_, rfl⟩
  have hrstream : r.stream % 0x1000 = pktStream bs := by
    rw [← hr]
    show hdrStream (pktHdr bs) % 0x8000 % 0x1000 = hdrStream (pktHdr bs) % 0x1000
    omega
  have hcan : x.canReply via (r.stream % 0x1000) := by
    rw [hrstream]
    rw [hu] at hreply
    have hpeer : (x.stream (pktStream bs)).peer = (u.stream (pktStream bs)).peer := (congrArg Stream.peer hnew).trans rfl
    refine State.canReply_congr hreply hpeer ?_ ?_ ?_
    · rw [hx]
    · rw [hx]
    · rw [hx]
  have hsent := Sent.sendReply x via r
  have hreplied := State.sendReply_goes hcan
  obtain ⟨t, ht⟩ : ∃ t, x.sendReply via r = t := ⟨_, rfl⟩
  rw [ht] at hsent hreplied
  have harrive : s.arrive via bs = t := by
    rw [State.arrive_sound hsound, hqry, if_neg (by decide), hu, State.arriveCmd_takes ((hpeers.takes bs k).trans htakes), haccept, hr, ht]
  have hxs : x.ldg.spQ = s.ldg.spQ ∧ x.ldg.sent = s.ldg.sent := by
    rw [hx, hpeers.rest]
    exact ⟨rfl, rfl⟩
  refine ⟨t, harrive, ⟨v, r, ?_, hstream, hseq, hhdr, hparams, hst, ?_, by rw [← hr]; rfl, by rw [← hr]; rfl, hreplied.of_before hxs.1 hxs.2⟩, ?_, ?_⟩
  · rw [State.slot?, hsent.live]
    exact hslot
  · rw [State.stream, hsent.live]
    exact congrArg Stream.lastSeq hnew
  · refine Answered.of_sent hsent (hpeers.answered.trans ⟨?_⟩)
    rw [hx]
  · intro j
    have hxq : x.qpair j = s.qpair j := by rw [hx, hpeers.rest]; rfl
    rw [← ht, State.sqHead_sendReply, hxq]

/-! ### Queries (R542, R543, R631 to R633, R721) -/

/-- The machine as a query finds it: the stream's peer known, and the query counted. -/
structure Queried (s v : State) : Prop where
  rest : v = { s with dev := v.dev, ldg := { s.ldg with live := { s.ldg.live with streams := v.ldg.live.streams } } }
  stream : ∀ j, v.stream j = { s.stream j with peer := (v.stream j).peer }
  reg : ∀ off, off ≠ oCe + 0x148 → v.reg off = s.reg off

theorem State.queried (s : State) (via : Via) (n : Nat) : Queried s ((s.peered via n).ceCount 9) := by
  obtain ⟨u, hu⟩ : ∃ u, s.peered via n = u := ⟨_, rfl⟩
  have h : PeersOnly s u := hu ▸ s.peered_only via n
  rw [hu]
  have hregs : RegsOnly u [oCe + 0x148] (u.ceCount 9) := RegsOnly.setRf u _ _ _ _
  refine ⟨?_, h.stream, fun off hoff => ?_⟩
  · have hldg : (u.ceCount 9).ldg = u.ldg := rfl
    rw [hldg]
    generalize hd : u.ceCount 9 = v at hregs
    rw [hregs.rest, h.rest]
  · rw [hregs.others off (by simpa using hoff), h.rest]
    rfl

namespace Queried

variable {s v : State}

theorem answered (h : Queried s v) : Answered s v := by
  refine ⟨?_⟩
  rw [h.rest]

theorem mode (h : Queried s v) : v.mode = s.mode := State.mode_congr (h.reg _ (by decide))

theorem statusWords (h : Queried s v) : v.statusWords = s.statusWords := by
  have htime : v.time = s.time := by rw [h.rest]
  rw [State.statusWords, h.mode, h.reg _ (by decide), h.reg _ (by decide), h.reg _ (by decide), h.reg _ (by decide), h.reg _ (by decide), htime]
  rfl

theorem streamInfo (h : Queried s v) (n : Nat) : v.streamInfo n = s.streamInfo n := by
  have hin : v.inStream n = s.inStream n := by rw [h.rest]; rfl
  unfold State.streamInfo State.freeCredits
  rw [hin]
  dsimp only
  rw [h.stream n]

theorem queryResult (h : Queried s v) (op : Nat) (ps : List (BitVec 8)) : v.queryResult op ps = s.queryResult op ps := by
  have htel : v.telemRead (leAt ps 0 4) (leAt ps 4 2) = s.telemRead (leAt ps 0 4) (leAt ps 4 2) := by rw [h.rest]; rfl
  have hsec : v.sec = s.sec := by rw [h.rest]
  rw [State.queryResult, h.statusWords, h.streamInfo, htel, hsec]
  rfl

theorem reportBody (h : Queried s v) (nonce : List (BitVec 8)) : v.reportBody nonce = s.reportBody nonce := by
  have hmeas : ∀ i ∈ List.range 8, v.measBytes i = s.measBytes i := fun i hi => State.measBytes_congr (fun w _ => h.reg _ (by
    have := List.mem_range.mp hi
    unfold measOff oSec oCe
    omega))
  have hsec : v.sec = s.sec := by rw [h.rest]
  have htime : v.time = s.time := by rw [h.rest]
  have htwins : ∀ t, v.twinModeReg t = s.twinModeReg t := fun t => by rw [h.rest]; rfl
  have hstat : v.secStat 60 = s.secStat 60 := by rw [State.secStat, h.reg _ (by decide)]; rfl
  unfold State.reportBody
  dsimp only
  rw [hsec, htime, hstat, h.mode, h.reg _ (by decide), h.reg _ (by decide), List.flatMap_congr hmeas]
  simp only [htwins]

end Queried

/-- What a query comes to (R542). -/
theorem State.query_result {s : State} {via : Via} {h ps : List (BitVec 8)} (hop : hdrOpcode h < 5) :
    (∀ res, (s.ceCount 9).queryResult (hdrOpcode h) ps = some res → s.query via h ps = (s.ceCount 9).answerQuery via h 0 res) ∧
    (hdrOpcode h ≠ 3 → (s.ceCount 9).queryResult (hdrOpcode h) ps = none → s.query via h ps = (s.ceCount 9).answerQuery via h apBadParam []) ∧
    (hdrOpcode h = 3 → ps.length = 32 → s.query via h ps = (s.ceCount 9).attest via h ps) := by
  obtain ⟨v, hv⟩ : ∃ v, s.ceCount 9 = v := ⟨_, rfl⟩
  unfold State.query State.queryResult
  dsimp only
  rw [hv]
  generalize hdrOpcode h = op at hop ⊢
  obtain rfl | rfl | rfl | rfl | rfl : op = 0 ∨ op = 1 ∨ op = 2 ∨ op = 3 ∨ op = 4 := by omega
  · by_cases hps : ps = []
    · simp [hps]
    · simp [hps]
  · by_cases hps : ps.length = 2 ∧ leAt ps 0 2 < 0x1000
    · simp [hps]
    · simp [hps]
  · by_cases hps : ps.length = 6 ∧ leAt ps 4 2 ≠ 0
    · simp [hps]
    · simp [hps]
  · simp +contextual
  · by_cases hps : ps.length = 4 ∧ v.sec.report ≠ [] ∧ leAt ps 0 4 < reportLen
    · simp [hps]
    · simp [hps]

/-- A reply that a query's answer is. -/
theorem State.answerQuery_goes {s v : State} {via : Via} {bs : List (BitVec 8)} (hv : Queried s v) (hcan : v.canReply via (pktStream bs)) (app : Nat) (res : List (BitVec 8)) :
    ∃ t r, v.answerQuery via (pktHdr bs) app res = t ∧ Replied s via r t ∧ r.status = (if app = 0 then stDone else stFailed) ∧ r.appcode = app ∧ r.result = res ∧
      r.opcode = hdrOpcode (pktHdr bs) ∧ Answered s t := by
  obtain ⟨r, hr⟩ : ∃ r, v.mkReply (pktHdr bs) (if app = 0 then stDone else stFailed) app 0 false res = r := ⟨_, rfl⟩
  have hrstream : r.stream % 0x1000 = pktStream bs := by
    rw [← hr]
    show hdrStream (pktHdr bs) % 0x8000 % 0x1000 = hdrStream (pktHdr bs) % 0x1000
    omega
  have hsent := Sent.sendReply v via r
  have hreplied : Replied v via r (v.sendReply via r) := State.sendReply_goes (by rw [hrstream]; exact hcan)
  refine ⟨v.sendReply via r, r, ?_, hreplied.of_before ?_ ?_, ?_, ?_, ?_, ?_, Answered.of_sent hsent hv.answered⟩
  · rw [State.answerQuery, hr]
  · rw [hv.rest]
  · rw [hv.rest]
  all_goals rw [← hr]; rfl

/-- A packet with a query that its way takes goes through the checks of arrival. -/
theorem State.queryPacket_arrives {s : State} {via : Via} {bs : List (BitVec 8)} {op : Nat} (hready : s.viaReady via = true) (hqry : flagQry (pktHdr bs) = true)
    (hop : hdrOpcode (pktHdr bs) = op) : s.queryPacket via op bs = s.arrive via bs := by
  unfold State.queryPacket
  dsimp only
  rw [show bs.take 32 = pktHdr bs from rfl, if_neg (by simp [hqry, hop])]
  cases via with
  | udp p =>
    have h60 : s.ldgStat 60 = false := by simpa [State.viaReady] using hready
    show s.udpPacket p bs = _
    rw [State.udpPacket, if_neg (by simp [h60])]
  | sp =>
    have hsp : s.spReady = true := by
      simp only [State.viaReady, Bool.and_eq_true] at hready
      exact hready.1
    show s.spWrite bs = _
    rw [State.spWrite, if_pos hsp]
  | pcie c q cookie buf size =>
    simp only [State.viaReady, Bool.and_eq_true] at hready
    exact if_pos hready.1.1.1

theorem exec_queryRow {i : Instr} {via : Via} {bs : List (BitVec 8)} {op : Nat} (h : queryRow i = some (via, bs, op)) (s : State) :
    exec i s = fin s (s.queryPacket via op bs) ∧ op < 5 := by
  unfold queryRow at h
  split at h <;> cases h <;> exact ⟨rfl, by decide⟩

/-- A query row comes to the query itself. -/
theorem exec_query {s : State} {i : Instr} {via : Via} {bs : List (BitVec 8)} {op : Nat} (hrow : queryRow i = some (via, bs, op)) (hready : s.viaReady via = true)
    (hsound : s.sound via bs = true) (hqry : flagQry (pktHdr bs) = true) (hop : hdrOpcode (pktHdr bs) = op) :
    exec i s = fin s ((s.peered via (pktStream bs)).query via (pktHdr bs) (pktParams bs)) := by
  rw [(exec_queryRow hrow s).1, State.queryPacket_arrives hready hqry hop, State.arrive_sound hsound, if_pos hqry]

/-- The rows of queries. -/
theorem State.query_rows {s : State} (hs : s.calm = true) {i : Instr} {via : Via} {bs : List (BitVec 8)} {op : Nat} (hrow : queryRow i = some (via, bs, op))
    (hready : s.viaReady via = true) (hsound : s.sound via bs = true) (hqry : flagQry (pktHdr bs) = true) (hop : hdrOpcode (pktHdr bs) = op) :
    (∀ res, s.queryResult op (pktParams bs) = some res →
      ∃ t r, exec i s = .next t ∧ Replied s via r t ∧ r.status = stDone ∧ r.result = res ∧ r.opcode = op ∧ t.mem = s.mem) ∧
    (op ≠ 3 → s.queryResult op (pktParams bs) = none →
      ∃ t r, exec i s = .next t ∧ Replied s via r t ∧ r.status = stFailed ∧ r.appcode = apBadParam ∧ t.mem = s.mem) ∧
    (op = 3 → (pktParams bs).length = 32 → s.sec.att = none → s.secStat 62 = false → s.secStat 63 = true →
      ∃ t, exec i s = .next t ∧ t.secStat 61 = true ∧ t.mem = s.mem ∧
        t.sec.att = some ⟨via, hdrStream (pktHdr bs), hdrFlags (pktHdr bs), pktParams bs, s.reportBody (pktParams bs)⟩) := by
  have hexec := exec_query hrow hready hsound hqry hop
  have hop5 : hdrOpcode (pktHdr bs) < 5 := hop ▸ (exec_queryRow hrow s).2
  obtain ⟨hdone, hfailed, hattest⟩ := State.query_result (s := s.peered via (pktStream bs)) (via := via) (ps := pktParams bs) hop5
  have hv := s.queried via (pktStream bs)
  have hcan : ((s.peered via (pktStream bs)).ceCount 9).canReply via (pktStream bs) := State.canReply_congr (State.canReply_accepts hready) rfl rfl rfl rfl
  obtain ⟨v, hvdef⟩ : ∃ v, (s.peered via (pktStream bs)).ceCount 9 = v := ⟨_, rfl⟩
  rw [hvdef, hop] at hdone hfailed
  rw [hvdef, hop] at hattest
  rw [hvdef] at hv hcan
  rw [hv.queryResult] at hdone hfailed
  refine ⟨fun res hres => ?_, fun hne hres => ?_, fun h3 hlen hatt h62 h63 => ?_⟩
  · obtain ⟨t, r, ht, hreplied, hstatus, -, hresult, hopcode, hans⟩ := State.answerQuery_goes hv hcan 0 res
    refine ⟨t, r, ?_, hreplied, hstatus, hresult, hopcode.trans hop, by rw [hans.rest]⟩
    rw [hexec, hdone res hres, ht]
    exact hans.fin hs
  · obtain ⟨t, r, ht, hreplied, hstatus, happ, -, -, hans⟩ := State.answerQuery_goes hv hcan apBadParam []
    refine ⟨t, r, ?_, hreplied, hstatus, happ, by rw [hans.rest]⟩
    rw [hexec, hfailed hne hres, ht]
    exact hans.fin hs
  · have hsec : v.sec = s.sec := by rw [hv.rest]
    have hstat : ∀ b, v.secStat b = s.secStat b := fun b => by rw [State.secStat, hv.reg _ (by decide)]; rfl
    obtain ⟨w, hw⟩ : ∃ w, v.updSec (fun c => { c with att := some ⟨via, hdrStream (pktHdr bs), hdrFlags (pktHdr bs), pktParams bs, s.reportBody (pktParams bs)⟩ }) = w := ⟨_, rfl⟩
    have hsign : v.attest via (pktHdr bs) (pktParams bs) = w.setSecStat 61 true := by
      unfold State.attest
      rw [hsec, hatt, hstat, h62, if_neg (by decide), if_neg (by decide), hv.reportBody]
      dsimp only
      rw [hw, if_pos ((hstat 63).trans h63)]
    have hw' : Answered s w := hv.answered.trans (by rw [← hw]; exact ⟨rfl⟩)
    have hset : Answered w (w.setSecStat 61 true) := ⟨rfl⟩
    refine ⟨w.setSecStat 61 true, ?_, ?_, by rw [(hw'.trans hset).rest], ?_⟩
    · rw [hexec, hattest h3 hlen, hsign]
      exact (hw'.trans hset).fin hs
    · show bit ((w.setReg (oSec + 0x20) _).reg (oSec + 0x20)) 61 = true
      rw [State.reg_setReg_self, bit_setBit_self _ _ _ (by decide)]
    · show w.sec.att = _
      rw [← hw]
      rfl

/-- The report is signed (R632). -/
theorem State.attestSigned_row {s : State} (hs : s.calm = true) {a : AttReq} (hatt : s.sec.att = some a) (h63 : s.secStat 63 = true) :
    ∃ t, exec .attestSigned s = .next t ∧ t.sec = { s.sec with att := none, report := s.sec.signed a.body } ∧ t.secStat 61 = false ∧ t.mem = s.mem := by
  obtain ⟨u, hu⟩ : ∃ u, (s.updSec (fun c => { c with att := none, report := c.signed a.body })).setSecStat 61 false = u := ⟨_, rfl⟩
  have hans : Answered s u := by
    rw [← hu]
    exact ⟨rfl⟩
  have hsent : Sent u (u.answerQuery a.via a.hdr 0 (leBytes 4 reportLen)) := Sent.sendReply u _ _
  obtain ⟨t, ht⟩ : ∃ t, u.answerQuery a.via a.hdr 0 (leBytes 4 reportLen) = t := ⟨_, rfl⟩
  rw [ht] at hsent
  have hrow : s.attestSigned = t := by
    unfold State.attestSigned
    rw [hatt]
    dsimp only
    rw [h63, if_neg (by decide), hu, ht]
  refine ⟨t, ?_, ?_, ?_, ?_⟩
  · show fin s s.attestSigned = _
    rw [hrow]
    exact (Answered.of_sent hsent hans).fin hs
  · rw [hsent.rest, ← hu]
    rfl
  · have hreg : t.reg (oSec + 0x20) = u.reg (oSec + 0x20) := by rw [hsent.rest]; rfl
    rw [State.secStat, hreg, ← hu]
    show bit ((State.setReg _ (oSec + 0x20) _).reg (oSec + 0x20)) 61 = false
    rw [State.reg_setReg_self, bit_setBit_self _ _ _ (by decide)]
  · rw [(Answered.of_sent hsent hans).rest]

/-! ### The transports' rows (R533 to R535) -/

/-- A row that brings one packet, which is accepted. -/
theorem accepted_row {s : State} (hs : s.calm = true) {via : Via} {bs : List (BitVec 8)} {k : Nat} {c : Instr} (hrow : exec c s = fin s (s.arrive via bs))
    (hready : s.viaReady via = true) (hsound : s.sound via bs = true) (htakes : s.takes bs k = true) :
    ∃ t, exec c s = .next t ∧ Accepted s via bs k t ∧ t.mem = s.mem := by
  obtain ⟨t, ht, hacc, hans, -⟩ := State.arrive_accepted hsound htakes (State.canReply_accepts hready)
  exact ⟨t, by rw [hrow, ht]; exact hans.fin hs, hacc, by rw [hans.rest]⟩

/-- Of the queue pairs, a packet's checks see nothing. -/
theorem State.sound_pairs (s : State) (pairs : Tbl QPair) (via : Via) (bs : List (BitVec 8)) :
    ({ s with ldg := { s.ldg with pairs := pairs } } : State).sound via bs = s.sound via bs := rfl
theorem State.takes_pairs (s : State) (pairs : Tbl QPair) (bs : List (BitVec 8)) (k : Nat) :
    ({ s with ldg := { s.ldg with pairs := pairs } } : State).takes bs k = s.takes bs k := rfl

/-- SQ_TAIL_DOORBELL with one packet (R534). -/
theorem State.sqDoorbell_accepts {s : State} (hs : s.calm = true) {k : Nat} {c : BitVec 2} {q : BitVec 4} {tail : BitVec 32} {e : SqEntry} (hc : c.toNat < 3)
    (hnew : (s.qpair (pairKey c q)).sqHead ≠ tail.toNat % 2 ^ (s.qpair (pairKey c q)).sqLog) (hfull : s.ldgStat 60 = false)
    (hready : s.viaReady (.pcie c q e.cookie e.buf e.size) = true) (hsound : s.sound (.pcie c q e.cookie e.buf e.size) (e.bytes.take e.len.toNat) = true)
    (htakes : s.takes (e.bytes.take e.len.toNat) k = true) :
    ∃ t, exec (.sqTailDoorbell c q tail [e]) s = .next t ∧ Accepted s (.pcie c q e.cookie e.buf e.size) (e.bytes.take e.len.toNat) k t ∧ t.mem = s.mem ∧
      (t.qpair (pairKey c q)).sqHead = ((s.qpair (pairKey c q)).sqHead + 1) % 2 ^ (s.qpair (pairKey c q)).sqLog := by
  obtain ⟨p, hp⟩ : ∃ p, s.qpair (pairKey c q) = p := ⟨_, rfl⟩
  rw [hp] at hnew ⊢
  have hready' := hready
  simp only [State.viaReady, Bool.and_eq_true, decide_eq_true_eq, List.isEmpty_iff, hp] at hready'
  obtain ⟨⟨⟨hend, hen⟩, hroom⟩, hwait⟩ := hready'
  obtain ⟨p1, hp1⟩ : ∃ p1 : QPair, { p with sqTail := tail.toNat % 2 ^ p.sqLog } = p1 := ⟨_, rfl⟩
  obtain ⟨a, ha⟩ : ∃ a, s.setQpair (pairKey c q) p1 = a := ⟨_, rfl⟩
  have haq : a.qpair (pairKey c q) = p1 := by rw [← ha, State.qpair_setQpair, if_pos rfl]
  obtain ⟨p2, hp2⟩ : ∃ p2 : QPair, { p1 with sqHead := (p1.sqHead + 1) % 2 ^ p1.sqLog } = p2 := ⟨_, rfl⟩
  obtain ⟨b, hb⟩ : ∃ b, a.setQpair (pairKey c q) p2 = b := ⟨_, rfl⟩
  have hbq : b.qpair (pairKey c q) = p2 := by rw [← hb, State.qpair_setQpair, if_pos rfl]
  have hbs : b = { s with ldg := { s.ldg with pairs := b.ldg.pairs } } := by
    rw [← hb, ← ha]
    rfl
  have hroom2 : p2.cqRoom ≠ 0 := by
    rw [← hp2, ← hp1]
    exact hroom
  have hfields : p2.en = true ∧ p2.wait = [] := by
    rw [← hp2, ← hp1]
    exact ⟨hen, hwait⟩
  have hcan : (b.peered (.pcie c q e.cookie e.buf e.size) (pktStream (e.bytes.take e.len.toNat))).canReply (.pcie c q e.cookie e.buf e.size) (pktStream (e.bytes.take e.len.toNat)) := by
    show (b.qpair _).en = true ∧ (b.qpair _).cqRoom ≠ 0 ∧ (b.qpair _).wait = []
    rw [hbq]
    exact ⟨hfields.1, hroom2, hfields.2⟩
  obtain ⟨t, ht, ⟨v, r, hslot, hstream, hseq, hhdr, hparams, hst, hlast, hstatus, hlpos, hreplied⟩, hans, hsqHead⟩ := State.arrive_accepted (s := b) (k := k)
    (by rw [hbs, State.sound_pairs]; exact hsound) (by rw [hbs, State.takes_pairs]; exact htakes) hcan
  have hfetch : s.sqDoorbell c q tail.toNat [e] = t := by
    unfold State.sqDoorbell
    rw [if_neg (by simp [hend])]
    dsimp only
    rw [hp, hp1, ha, fetchSq]
    dsimp only
    rw [haq, if_neg, hp2, hb, ht, fetchSq]
    have h60 : a.ldgStat 60 = false := by
      rw [← ha]
      exact hfull
    have hp1' : p1.en = true ∧ p1.sqHead ≠ p1.sqTail ∧ p1.cqRoom ≠ 0 ∧ p1.wait = [] := by
      rw [← hp1]
      exact ⟨hen, hnew, hroom, hwait⟩
    simp [hp1', h60]
  have hbans : Answered s b := ⟨by rw [hbs]⟩
  refine ⟨t, ?_, ⟨v, r, hslot, hstream, hseq, hhdr, hparams, hst, hlast, hstatus, hlpos, hreplied.of_before (by rw [hbs]) (by rw [hbs])⟩, by rw [(hbans.trans hans).rest], ?_⟩
  · show fin s (if c.toNat < 3 then s.sqDoorbell c q tail.toNat [e] else s) = _
    rw [if_pos hc, hfetch]
    exact (hbans.trans hans).fin hs
  · rw [hsqHead, hbq, ← hp2, ← hp1]

/-- CQ_HEAD_DOORBELL with one reply that waits (R534). -/
theorem State.cqDoorbell_sends {s : State} (hs : s.calm = true) {c : BitVec 2} {q : BitVec 4} {head : BitVec 32} {o : ReplyOut} (hc : c.toNat < 3)
    (hend : s.endpoint c.toNat = true) (hen : (s.qpair (pairKey c q)).en = true) (hwait : (s.qpair (pairKey c q)).wait = [o])
    (hroom : ({ s.qpair (pairKey c q) with cqHead := head.toNat % 2 ^ (s.qpair (pairKey c q)).cqLog } : QPair).cqRoom ≠ 0) :
    ∃ t, exec (.cqHeadDoorbell c q head []) s = .next t ∧ t = { s with ldg := t.ldg } ∧ t.ldg.sent = cutReply o :: s.ldg.sent ∧
      (t.qpair (pairKey c q)).wait = [] ∧ (t.qpair (pairKey c q)).cqHead = head.toNat % 2 ^ (s.qpair (pairKey c q)).cqLog := by
  obtain ⟨p, hp⟩ : ∃ p, s.qpair (pairKey c q) = p := ⟨_, rfl⟩
  rw [hp] at hen hwait hroom ⊢
  obtain ⟨p1, hp1⟩ : ∃ p1 : QPair, { p with cqHead := head.toNat % 2 ^ p.cqLog } = p1 := ⟨_, rfl⟩
  rw [hp1] at hroom
  obtain ⟨a, ha⟩ : ∃ a, s.setQpair (pairKey c q) p1 = a := ⟨_, rfl⟩
  have haq : a.qpair (pairKey c q) = p1 := by rw [← ha, State.qpair_setQpair, if_pos rfl]
  obtain ⟨t, ht, hrest, hempty, hhead, -⟩ := pumpPair_one (s := a) (k := pairKey c q) (fuel := 0) (o := o) (by rw [haq, ← hp1]; exact hen) (by rw [haq]; exact hroom)
    (by rw [haq, ← hp1]; exact hwait)
  have hring : s.cqDoorbell c q head.toNat [] = t := by
    unfold State.cqDoorbell
    rw [if_neg (by simp [hend])]
    dsimp only
    rw [hp, hp1, ha, hwait, fetchSq]
    exact ht
  have hldg : t = { s with ldg := t.ldg } := by
    rw [hrest, ← ha]
    rfl
  refine ⟨t, ?_, hldg, ?_, hempty, ?_⟩
  · show fin s (if c.toNat < 3 then s.cqDoorbell c q head.toNat [] else s) = _
    rw [if_pos hc, hring, hrest, ← ha]
    exact fin_calm hs rfl rfl rfl rfl rfl
  · rw [hrest, ← ha]
    rfl
  · rw [hhead, haq, ← hp1]

/-- The Service Port gives its oldest reply (R535). -/
theorem State.spRead_gives {s : State} (hs : s.calm = true) {o : ReplyOut} {os : List ReplyOut} (hq : s.ldg.spQ = o :: os) (hw : s.ldg.spWait = []) :
    ∃ t, exec .spReadReply s = .next t ∧ t.ldg.spQ = os ∧ t.ldg.sent = o :: s.ldg.sent ∧
      t.answer = some (Word.rawN (s.replyBytes o.r).length) ∧ t = { s with ldg := t.ldg, answer := t.answer } := by
  have hread : s.spRead = { s with
      ldg := { s.ldg with spQ := os ++ s.ldg.spWait.take (32 - os.length), spWait := s.ldg.spWait.drop (32 - os.length), sent := o :: s.ldg.sent }
      answer := some (Word.rawN (s.replyBytes o.r).length) } := by
    unfold State.spRead
    rw [hq]
    rfl
  refine ⟨s.spRead, ?_, ?_, ?_, ?_, ?_⟩
  · show fin s s.spRead = _
    rw [hread]
    exact fin_calm hs rfl rfl rfl rfl rfl
  · rw [hread, hw]
    simp
  · rw [hread]
  · rw [hread]
  · rw [hread]

/-- Settles O44: the checks of arrival pass a sound packet, acceptance and queries follow, and each transport lets the reply go. -/
theorem packetsAndQueries : Obligations.PacketsAndQueries := by
  unfold Obligations.PacketsAndQueries
  refine ⟨fun s k hs => ⟨fun p bs hready hsound htakes => ?_, fun c q tail e => ?_, fun bs hready hsound htakes => ?_, fun c q head o => ?_, fun o os hq hw => ?_, fun hq => ?_, ?_⟩,
    fun s hs => ⟨fun i via bs op => ?_, fun a hatt h63 => State.attestSigned_row hs hatt h63⟩⟩
  · have h60 : s.ldgStat 60 = false := by simpa [State.viaReady] using hready
    exact accepted_row hs (by show fin s (s.udpPacket p bs) = _; rw [State.udpPacket, if_neg (by simp [h60])]) hready hsound htakes
  · dsimp only
    exact fun hc hnew hfull hready hsound htakes => State.sqDoorbell_accepts hs hc hnew hfull hready hsound htakes
  · have hsp : s.spReady = true := by
      simp only [State.viaReady, Bool.and_eq_true] at hready
      exact hready.1
    exact accepted_row hs (by show fin s (s.spWrite bs) = _; rw [State.spWrite, if_pos hsp]) hready hsound htakes
  · dsimp only
    exact fun hc hend hen hwait hroom => State.cqDoorbell_sends hs hc hend hen hwait hroom
  · exact State.spRead_gives hs hq hw
  · have hread : s.spRead = { s with answer := some (Word.rawN 0) } := by
      unfold State.spRead
      rw [hq]
    show fin s s.spRead = _
    rw [hread]
    exact fin_calm hs rfl rfl rfl rfl rfl
  · exact fin_calm hs rfl rfl rfl rfl rfl
  · dsimp only
    exact fun hrow hready hsound hqry hop => State.query_rows hs hrow hready hsound hqry hop

end Sys2Proof.Machine
end

section
/-!
PROOFS. Units that write memory in which no line is poisoned (R403, R404): writes past the caches reach memory, and poison no line.
-/
namespace Sys2Proof.Machine

/-- A cluster's L2 with the tag entries of every set readable and no line poisoned. -/
structure Cluster.Clean (c : Cluster) : Prop where
  tags : ∀ b ∈ c.tagBad, 4096 ≤ b.1
  lines : ∀ line m, Tbl.look c.l2 line = some m → m.poison = false

theorem Cluster.Clean.reset : Cluster.Clean Cluster.reset := ⟨fun _ h => absurd h List.not_mem_nil, fun _ _ h => by cases h⟩

/-- A line number beyond every listed one, in the set of a given one. -/
theorem Tbl.exists_unlisted {α : Type} (t : Tbl α) (set : Nat) : ∃ line, line % 4096 = set % 4096 ∧ Tbl.look t line = none := by
  obtain ⟨b, hb⟩ : ∃ b, ∀ e ∈ t, e.1 < b := by
    induction t with
    | nil => exact ⟨0, fun e he => absurd he List.not_mem_nil⟩
    | cons e t ih =>
      obtain ⟨b, hb⟩ := ih
      refine ⟨max b (e.1 + 1), fun f hf => ?_⟩
      rcases List.mem_cons.mp hf with rfl | hf
      · omega
      · have := hb f hf
        omega
  refine ⟨4096 * b + set % 4096, by omega, Tbl.look_eq_none (fun e he => ?_)⟩
  have := hb e he
  omega

theorem State.unpoisoned_iff (s : State) : s.unpoisoned ↔ ∀ e ∈ s.clusters, e.2.Clean := by
  constructor
  · intro h e he
    have hall : ∀ line, (match Tbl.look e.2.l2 line with
        | some m => m.poison
        | none => e.2.tagBad.any (fun b => b.1 = line % 4096)) = false := by
      intro line
      have hany := h line
      rw [State.poisoned, List.any_eq_false] at hany
      exact Bool.not_eq_true _ ▸ hany e he
    refine ⟨?_, fun line m hm => ?_⟩
    · intro b hb
      obtain ⟨line, hline, hnone⟩ := Tbl.exists_unlisted e.2.l2 b.1
      have hset := hall line
      rw [hnone, List.any_eq_false] at hset
      have hne : ¬ b.1 = line % 4096 := by simpa using hset b hb
      omega
    · have := hall line
      rw [hm] at this
      exact this
  · intro h line
    rw [State.poisoned, List.any_eq_false]
    intro e he
    obtain ⟨htags, hlines⟩ := h e he
    split
    · next m hm => simp [hlines line m hm]
    · rw [Bool.not_eq_true, List.any_eq_false]
      intro b hb
      have := htags b hb
      have hne : ¬ b.1 = line % 4096 := by omega
      simpa using hne

theorem State.clean_cluster {s : State} (h : s.unpoisoned) (n : Nat) : (s.cluster n).Clean :=
  Tbl.get_of_forall (d := fun _ => Cluster.reset) (P := Cluster.Clean) (s.unpoisoned_iff.mp h) n Cluster.Clean.reset

theorem State.unpoisoned_updCluster {s : State} {n : Nat} {f : Cluster → Cluster} (hf : (s.cluster n).Clean → (f (s.cluster n)).Clean) (h : s.unpoisoned) :
    (s.updCluster n f).unpoisoned := by
  refine (State.unpoisoned_iff _).mpr fun e he => ?_
  obtain rfl | he := Tbl.mem_of_mem_set (d := fun _ => Cluster.reset) (t := s.clusters) he
  · exact hf (s.clean_cluster h n)
  · exact s.unpoisoned_iff.mp h e he

theorem State.unpoisoned_congr {s u : State} (h : s.unpoisoned) (hc : u.clusters = s.clusters) : u.unpoisoned :=
  (State.unpoisoned_iff u).mpr (by rw [hc]; exact s.unpoisoned_iff.mp h)

theorem Cluster.Clean.erase {c : Cluster} (h : c.Clean) (line : Nat) : Cluster.Clean { c with l2 := Tbl.erase c.l2 line } := by
  refine ⟨h.tags, fun l m hm => ?_⟩
  by_cases hl : line = l
  · subst hl
    rw [Tbl.look_erase_self] at hm
    cases hm
  · exact h.lines l m ((Tbl.look_erase_ne _ hl).symm.trans hm)

theorem Cluster.Clean.insert {c : Cluster} (h : c.Clean) (line : Nat) {m : L2Line} (hm : m.poison = false) : Cluster.Clean { c with l2 := Tbl.insert c.l2 line m } := by
  refine ⟨h.tags, fun l k hk => ?_⟩
  by_cases hl : line = l
  · subst hl
    have hk' : Tbl.look (Tbl.insert c.l2 line m) line = some k := hk
    rw [Tbl.look_insert_self] at hk'
    cases hk'
    exact hm
  · exact h.lines l k ((Tbl.look_insert_ne _ _ hl).symm.trans hk)

/-! ### The writes of units -/

theorem State.unpoisoned_l1dDrop {s : State} (h : s.unpoisoned) (k line : Nat) : (s.l1dDrop k line).unpoisoned := by
  unfold State.l1dDrop
  split
  · exact h
  · next l _ =>
    obtain ⟨v, hv⟩ : ∃ v, s.updCore k (fun c => { c with l1d := Tbl.erase c.l1d line }) = v := ⟨_, rfl⟩
    have hdrop : v.unpoisoned := State.unpoisoned_congr h (by rw [← hv]; rfl)
    dsimp only
    rw [hv]
    split
    · exact hdrop
    · split
      · next m hm => exact State.unpoisoned_updCluster (fun hc => hc.insert line (m := { m with dirty := true }) (hc.lines line m hm)) hdrop
      · exact State.unpoisoned_congr hdrop rfl

theorem State.unpoisoned_foldl {β : Type} {f : State → β → State} (hf : ∀ s b, s.unpoisoned → (f s b).unpoisoned) (l : List β) {s : State} (h : s.unpoisoned) :
    (l.foldl f s).unpoisoned := by
  induction l generalizing s with
  | nil => exact h
  | cons b l ih => exact ih (hf s b h)

theorem State.unpoisoned_cohWrite {s : State} (h : s.unpoisoned) (k n : Option Nat) (line : Nat) : (s.cohWrite k n line).unpoisoned := by
  unfold State.cohWrite
  dsimp only
  have hcores : ((s.cores.map (·.1)).foldl (fun s j => if some j = k then s else s.l1dDrop j line) s).unpoisoned := by
    refine State.unpoisoned_foldl (fun v j hv => ?_) _ h
    split
    · exact hv
    · exact State.unpoisoned_l1dDrop hv j line
  obtain ⟨u, hu⟩ : ∃ u, (s.cores.map (·.1)).foldl (fun s j => if some j = k then s else s.l1dDrop j line) s = u := ⟨_, rfl⟩
  rw [hu] at hcores ⊢
  refine State.unpoisoned_foldl (fun v m hv => ?_) _ ?_
  · split
    · exact hv
    · next l _ =>
      split
      · exact hv
      · obtain ⟨w, hw⟩ : ∃ w, v.updCluster m (fun c => { c with l2 := Tbl.erase c.l2 line }) = w := ⟨_, rfl⟩
        have hgone : w.unpoisoned := hw ▸ State.unpoisoned_updCluster (fun hc => hc.erase line) hv
        rw [hw]
        obtain ⟨x, hx⟩ : ∃ x, (if w.l2Locked m l.way = true then w.updCluster m (fun c => { c with l2Lk := Tbl.insert c.l2Lk line l.way }) else w) = x := ⟨_, rfl⟩
        have hkept : x.unpoisoned := by
          rw [← hx]
          split
          · exact State.unpoisoned_updCluster (fun hc => ⟨hc.tags, hc.lines⟩) hgone
          · exact hgone
        rw [hx]
        split
        · exact State.unpoisoned_congr hkept rfl
        · exact hkept
  · split
    · split
      · exact State.unpoisoned_congr hcores rfl
      · exact State.unpoisoned_congr hcores rfl
    · exact hcores

variable {s : State}

theorem State.unpoisoned_busWrite (hw : s.noWindows) (h : s.unpoisoned) (k : Nat) (w : Word) : (s.busWrite k w).unpoisoned := by
  rw [State.busWrite_noWindows hw, State.setWord_eq]
  exact State.unpoisoned_congr (State.unpoisoned_cohWrite h none none (k / 64)) rfl

/-- Nothing keeps a unit from writing memory outside Keep SRAM. -/
theorem State.engWrite_clean (h : s.unpoisoned) {k : Nat} (hk : isKeepLine (k / 64) = false) (w : Word) : s.engWrite k w = s.busWrite k w := by
  rw [State.engWrite, State.unitBarred, h, hk, if_neg (by decide)]

theorem State.unpoisoned_engWrite (hw : s.noWindows) (h : s.unpoisoned) (k : Nat) (w : Word) : (s.engWrite k w).unpoisoned := by
  unfold State.engWrite
  split
  · exact h
  · exact State.unpoisoned_busWrite hw h k w

/-- A word whose bytes and tag stay reads as before. -/
theorem State.word_of_bytes {s u : State} {k : Nat} (h : ∀ a, a / 8 = k / 8 → u.byte a = s.byte a ∧ u.tagAt a = s.tagAt a) : u.word k = s.word k := by
  have ht : u.tagAt (k / 8 * 8) = s.tagAt (k / 8 * 8) := (h _ (by omega)).2
  rw [State.word, ht, State.payAt_of_bytes (s := u) (f := fun b => s.byte (k / 8 * 8 + b)) (fun b hb => (h _ (by omega)).1)]
  rfl

/-- Words that units write one after the other, at addresses eight bytes apart outside Keep SRAM. -/
theorem State.engWrite_run (base : Nat) (hbase : base % 8 = 0) (f : Nat → Word) (n : Nat) : ∀ (lo : Nat) (s : State), s.noWindows → s.unpoisoned →
    (∀ b, lo ≤ b → b < lo + n → isKeepLine ((base + 8 * b) / 64) = false) →
    let t := Machine.forN n lo (fun b s => s.engWrite (base + 8 * b) (f b)) s
    Traffic s t ∧ t.unpoisoned ∧ (∀ b, lo ≤ b → b < lo + n → t.word (base + 8 * b) = f b) ∧ ∀ a, (a / 8 < base / 8 + lo ∨ base / 8 + lo + n ≤ a / 8) → t.byte a = s.byte a ∧ t.tagAt a = s.tagAt a := by
  induction n with
  | zero => exact fun lo s _ h _ => ⟨Traffic.refl s, h, fun b h1 h2 => by omega, fun _ _ => ⟨rfl, rfl⟩⟩
  | succ n ih =>
    intro lo s hw h hkeep
    have htraffic := Traffic.engWrite hw (base + 8 * lo) (f lo)
    have hclean := State.unpoisoned_engWrite hw h (base + 8 * lo) (f lo)
    have hwrite := State.engWrite_clean h (hkeep lo (by omega) (by omega)) (f lo)
    have hself : (s.engWrite (base + 8 * lo) (f lo)).word (base + 8 * lo) = f lo := by rw [hwrite, State.word_busWrite_self hw]
    have hfar : ∀ a, a / 8 ≠ (base + 8 * lo) / 8 → (s.engWrite (base + 8 * lo) (f lo)).byte a = s.byte a ∧ (s.engWrite (base + 8 * lo) (f lo)).tagAt a = s.tagAt a := by
      intro a ha
      rw [hwrite]
      exact State.bytes_busWrite_ne hw (f lo) ha
    dsimp only
    rw [Machine.forN]
    generalize s.engWrite (base + 8 * lo) (f lo) = v at htraffic hclean hself hfar ⊢
    obtain ⟨hrest, hclean', hwords, hothers⟩ := ih (lo + 1) v (htraffic.noWindows hw) hclean (fun b h1 h2 => hkeep b (by omega) (by omega))
    generalize Machine.forN n (lo + 1) (fun b s => s.engWrite (base + 8 * b) (f b)) v = t at hrest hclean' hwords hothers ⊢
    refine ⟨htraffic.trans hrest, hclean', fun b h1 h2 => ?_, fun a ha => ?_⟩
    · by_cases hb : b = lo
      · subst hb
        rw [← hself]
        exact State.word_of_bytes fun a ha => hothers a (by omega)
      · exact hwords b (by omega) (by omega)
    · have hvt := hothers a (by omega)
      have hsv := hfar a (by omega)
      exact ⟨hvt.1.trans hsv.1, hvt.2.trans hsv.2⟩

end Sys2Proof.Machine
end

section
/-!
PROOFS. The volume of the Store Engine: checkpoints, mounting, formatting, resync and drives (O50).
-/
namespace Sys2Proof.Machine

/-! ### STO_STAT (R612) -/

theorem State.stoStat_setStoStat (s : State) {b : Nat} (v : Bool) (c : Nat) (hb : b < 64) : (s.setStoStat b v).stoStat c = if b = c then v else s.stoStat c := by
  rw [State.stoStat, State.setStoStat, State.reg_setReg_self]
  split
  · next h => rw [← h, bit_setBit_self _ _ _ hb]
  · next h => exact bit_setBit_ne _ _ _ _ hb h

theorem State.stoStat_setRf (s : State) {hi lo : Nat} (v : Nat) {c : Nat} (h : hi < 64) (hl : lo ≤ hi) (hd : c < lo ∨ hi < c) :
    (s.setRf (oSto + 0x18) hi lo v).stoStat c = s.stoStat c := State.bit_setRf_apart s _ v h hl hd

theorem State.rf_setStoStat (s : State) {b : Nat} (v : Bool) {hi lo : Nat} (hb : b < 64) (hd : hi < b ∨ b < lo) :
    (s.setStoStat b v).rf (oSto + 0x18) hi lo = s.rf (oSto + 0x18) hi lo := State.rf_setReg_bit s _ v hb hd

theorem State.stoStat_mountResult (s : State) (r : Nat) {c : Nat} (hd : c < 48 ∨ 51 < c) : (s.mountResult r).stoStat c = s.stoStat c :=
  State.stoStat_setRf s r (by decide) (by decide) hd

theorem State.result_mountResult (s : State) {r : Nat} (hr : r < 16) : (s.mountResult r).rf (oSto + 0x18) 51 48 = r := by
  rw [State.mountResult, State.rf_setRf_self s (oSto + 0x18) 51 48 r (by decide) (by decide), Nat.mod_eq_of_lt (by omega)]

theorem RegsOnly.setStoStat (s : State) (b : Nat) (v : Bool) : RegsOnly s [oSto + 0x18] (s.setStoStat b v) := RegsOnly.setReg s _ _
theorem RegsOnly.mountResult (s : State) (r : Nat) : RegsOnly s [oSto + 0x18] (s.mountResult r) := RegsOnly.setRf s _ _ _ _
theorem RegsOnly.stoSync (s : State) : RegsOnly s [oSto + 0x18] s.stoSync :=
  ((RegsOnly.setRf s _ _ _ _).trans (RegsOnly.setStoStat _ _ _)).mono (by simp)

theorem State.stoStat_stoSync (s : State) {c : Nat} (h19 : 19 < c) (h55 : c ≠ 55) : s.stoSync.stoStat c = s.stoStat c := by
  rw [State.stoSync]
  rw [State.stoStat_setStoStat _ _ _ (by decide), if_neg (Ne.symm h55), State.stoStat_setRf _ _ (by decide) (by decide) (.inr h19)]

theorem State.rf_stoSync (s : State) {hi lo : Nat} (hlo : 19 < lo) (hd : hi < 55 ∨ 55 < lo) : s.stoSync.rf (oSto + 0x18) hi lo = s.rf (oSto + 0x18) hi lo := by
  rw [State.stoSync]
  rw [State.rf_setStoStat _ _ (by decide) hd, State.rf_setRf_apart _ _ _ (by decide) (by decide) (.inr hlo)]

/-! ### STO_CTL (R611) -/

/-- STO_CTL as a write leaves it: its RW fields follow the value. -/
theorem State.stoCtl_written (s : State) (v : Pay) : ∃ r, s.plainWrite (oSto + 0x10) v = s.setReg (oSto + 0x10) r ∧ bit r 63 = bit v 63 ∧ fld r 1 0 = fld v 1 0 ∧
    fld r 5 4 = fld v 5 4 ∧ fld r 7 6 = fld v 7 6 := by
  refine ⟨_, State.plainWrite_of_desc s (by decide)
    (d := [rw 63 63, wo 61 61, wo 60 60, wo 59 59, rw 47 40 50, rw 39 32 4, rw 31 24, rw 7 6 1 [(3, 3)], rw 5 4 0 [(3, 3)], rw 1 0]) rfl, ?_, ?_, ?_, ?_⟩
  all_goals simp only [RDesc.write, RField.write, List.foldl_cons, List.foldl_nil]
  · rw [bit_setFld_disjoint, bit_setFld_disjoint, bit_setFld_disjoint, bit_setFld_disjoint, bit_setFld_disjoint, bit_setFld_disjoint, bit_eq_fld, bit_eq_fld,
      fld_setFld_self _ _ _ _ (by decide) (by decide), Nat.mod_eq_of_lt (fld_lt _ _ _)] <;> decide
  · rw [fld_setFld_self _ _ _ _ (by decide) (by decide), Nat.mod_eq_of_lt (fld_lt _ _ _)]
  · rw [fld_setFld_disjoint, fld_setFld_self _ _ _ _ (by decide) (by decide), Nat.mod_eq_of_lt (fld_lt _ _ _)] <;> decide
  · rw [fld_setFld_disjoint, fld_setFld_disjoint, fld_setFld_self _ _ _ _ (by decide) (by decide), Nat.mod_eq_of_lt (fld_lt _ _ _)] <;> decide

/-! ### Checkpoints (R594) -/

theorem State.checkpoint_row {s : State} (hs : s.calm = true) (hm : s.mounted = true) (h56 : s.stoStat 56 = false) (hfull : s.ckptLimit ≤ s.journal.length) :
    ∃ t, exec .checkpoint s = .next t ∧ t = { s with dev := t.dev, sto := { s.sto with ckptAt := s.journal.length } } ∧ t.stoStat 56 = true := by
  obtain ⟨u, hu⟩ : ∃ u, s.setStoStat 56 true = u := ⟨_, rfl⟩
  have hregs : RegsOnly s [oSto + 0x18] u := hu ▸ RegsOnly.setStoStat s _ _
  have hstat : u.stoStat 56 = true := by rw [← hu, State.stoStat_setStoStat _ _ _ (by decide), if_pos rfl]
  have hrow : s.checkpoint = u.updSto (fun t => { t with ckptAt := s.journal.length }) := by
    unfold State.checkpoint
    rw [if_neg (by simp [hm, h56]; omega), hu]
  refine ⟨u.updSto (fun t => { t with ckptAt := s.journal.length }), ?_, ?_, hstat⟩
  · show fin s s.checkpoint = _
    rw [hrow, hregs.rest]
    exact fin_calm hs rfl rfl rfl rfl rfl
  · rw [hregs.rest]
    rfl

/-- Commands to drives are written down and change nothing else. -/
theorem State.writeSb_eq (s : State) (ns : List Nat) : ∃ d, s.writeSb ns = { s with sto := { s.sto with drv := d } } := ⟨_, rfl⟩

theorem State.checkpointEnd_row {s : State} (hs : s.calm = true) (h56 : s.stoStat 56 = true) (hslots : s.ldg.live.slots = []) (htaken : s.sto.taken = []) :
    ∃ t, exec .checkpointEnd s = .next t ∧ t.stoStat 56 = false ∧ t.journal = s.journal.drop s.sto.ckptAt ∧
      t.sto = { s.sto with ckptAt := 0, epoch := s.sto.epoch + 1, cur := !s.sto.cur, drv := t.sto.drv } := by
  obtain ⟨d, u, hu, hrow⟩ : ∃ (d : List DriveCmd) (u : State), u = { s with sto := { s.sto with ckptAt := 0, epoch := s.sto.epoch + 1, cur := !s.sto.cur, drv := d } } ∧
      s.checkpointEnd = ((u.setStoStat 56 false).setJournal (s.journal.drop s.sto.ckptAt)).xqRetry := by
    unfold State.checkpointEnd
    rw [if_neg (by simp [h56])]
    dsimp only
    rw [List.filter_eq_nil_iff.mpr (fun r _ => by cases r <;> simp [hslots]), List.nil_append]
    generalize ckptImage (s.sto.epoch + 1) s.sto.ckptAt s.nblocks s.sto.stampEntry s.imageEntry = img
    obtain ⟨a, ha⟩ : ∃ a, (s.sendDrives s.writable (fun n => .write n (ckptLba (!s.sto.cur)) false img)).updSto
      (fun t => { t with ckptAt := 0, epoch := t.epoch + 1, cur := !t.cur }) = a := ⟨_, rfl⟩
    obtain ⟨d, hd⟩ := State.writeSb_eq a s.writable
    refine ⟨d, a.writeSb s.writable, ?_, by rw [ha]⟩
    rw [hd, ← ha]
    rfl
  obtain ⟨w, hw⟩ : ∃ w, u.setStoStat 56 false = w := ⟨_, rfl⟩
  have hregs : RegsOnly u [oSto + 0x18] w := hw ▸ RegsOnly.setStoStat u _ _
  have hstat : w.stoStat 56 = false := by rw [← hw, State.stoStat_setStoStat _ _ _ (by decide), if_pos rfl]
  have hwu : w = { s with dev := w.dev, sto := { s.sto with ckptAt := 0, epoch := s.sto.epoch + 1, cur := !s.sto.cur, drv := d } } := by rw [hregs.rest, hu]
  obtain ⟨x, hx⟩ : ∃ x, w.setJournal (s.journal.drop s.sto.ckptAt) = x := ⟨_, rfl⟩
  have hretry : x.xqRetry = x.stoSync := by
    have : x.sto.taken = [] := by
      rw [← hx, hwu]
      exact htaken
    rw [State.xqRetry, this, List.foldl_nil]
  have hsync := RegsOnly.stoSync x
  have hmore : x.stoSync.releaseMore = x.stoSync := by
    have : x.stoSync.ldg.live.slots = [] := by
      rw [hsync.rest, ← hx, hwu]
      exact hslots
    rw [State.releaseMore, this, List.any_nil, if_neg (by decide)]
  refine ⟨x.stoSync, ?_, ?_, ?_, ?_⟩
  · show fin s s.checkpointEnd.releaseMore = _
    rw [hrow, hw, hx, hretry, hmore, hsync.rest, ← hx, hwu]
    exact fin_calm hs rfl rfl rfl rfl rfl
  · rw [State.stoStat_stoSync _ (by decide) (by decide), ← hx]
    exact hstat
  · rw [State.journal, hsync.rest, ← hx]
    rfl
  · rw [hsync.rest, ← hx, hwu]
    rfl

/-! ### STO_CTL's commands (R604 to R606, R611) -/

theorem State.blockStore_stoCtl (s : State) (src x : Nat) (v : Pay) : s.blockStore src x (oSto + 0x10) v = s.stoCtlWrite v := rfl

/-- A row that writes STO_CTL. -/
theorem stoCtl_row {s t : State} (hs : s.calm = true) {src : Src} {v : Pay} {c : Instr} (hrow : exec c s = fin s (s.regWrite src (oSto + 0x10) v))
    (hw : s.canWrite src (oSto + 0x10) v = true) (ht : s.stoCtlWrite v = t) (hcalm : t.calm = true) (hpending : t.pending = s.pending) :
    exec c s = .next t := exec_store hrow hs hw ((s.blockStore_stoCtl _ _ v).trans ht) hcalm hpending

/-- A write of STO_CTL that leaves a job begun and the drives' state apart from the rest. -/
theorem stoJob_row {s b : State} (hs : s.calm = true) {src : Src} {v : Pay} {c : Instr} (hrow : exec c s = fin s (s.regWrite src (oSto + 0x10) v))
    (hw : s.canWrite src (oSto + 0x10) v = true) {os : List Nat} (hb : RegsOnly s os b) {f : Sto → Sto} (hwrite : s.stoCtlWrite v = b.updSto f) :
    exec c s = .next (b.updSto f) ∧ b.updSto f = { s with dev := (b.updSto f).dev, sto := f s.sto } ∧
      b.updSto f = { s with dev := (b.updSto f).dev, sto := (b.updSto f).sto } := by
  have hrest : b.updSto f = { s with dev := (b.updSto f).dev, sto := f s.sto } := by
    rw [hb.rest]
    rfl
  refine ⟨stoCtl_row hs hrow hw hwrite ?_ ?_, hrest, by rw [hb.rest]; rfl⟩
  · rw [hrest]
    exact (State.calm_congr rfl rfl rfl rfl).trans hs
  · rw [hrest]

/-- A write of STO_CTL with EN: the commands run on the register as written. -/
theorem State.stoCtlWrite_enabled (s : State) {v : Pay} (hen : bit v 63 = true) : ∃ a, RegsOnly s [oSto + 0x10] a ∧ bit (a.reg (oSto + 0x10)) 63 = true ∧
    a.rf (oSto + 0x10) 1 0 = fld v 1 0 ∧ a.rf (oSto + 0x10) 5 4 = fld v 5 4 ∧ a.rf (oSto + 0x10) 7 6 = fld v 7 6 ∧
    (bit v 60 = false → bit v 61 = false → bit v 59 = true → s.stoCtlWrite v = a.startMount) ∧
    (bit v 59 = false → bit v 61 = false → bit v 60 = true → s.stoCtlWrite v = a.startFormat) ∧
    (bit v 59 = false → bit v 60 = false → bit v 61 = true → s.stoCtlWrite v = a.startResync) := by
  obtain ⟨r, hr, hr63, hr10, hr54, hr76⟩ := s.stoCtl_written v
  have hwrite : ∀ a, s.setReg (oSto + 0x10) r = a → s.stoCtlWrite v =
      (if bit v 61 then (if bit v 60 then (if bit v 59 then a.startMount else a).startFormat else if bit v 59 then a.startMount else a).startResync
       else if bit v 60 then (if bit v 59 then a.startMount else a).startFormat else if bit v 59 then a.startMount else a) := by
    intro a ha
    unfold State.stoCtlWrite
    dsimp only
    rw [hr, ha, hen]
    simp
  have hreg := State.reg_setReg_self s (oSto + 0x10) r
  refine ⟨s.setReg (oSto + 0x10) r, RegsOnly.setReg s _ _, by rw [hreg, hr63, hen], ?_, ?_, ?_, ?_, ?_, ?_⟩
  · rw [State.rf, hreg, hr10]
  · rw [State.rf, hreg, hr54]
  · rw [State.rf, hreg, hr76]
  · intro h60 h61 h59
    simp [hwrite _ rfl, h59, h60, h61]
  · intro h59 h61 h60
    simp [hwrite _ rfl, h59, h60, h61]
  · intro h59 h60 h61
    simp [hwrite _ rfl, h59, h60, h61]

/-- The value of STO_CTL with one of its command bits set. -/
theorem stoCtl_command {v : Pay} {n : Nat} (hen : bit v 63 = true) (hn : n = 59 ∨ n = 60 ∨ n = 61) : bit (setBit v n true) 63 = true ∧ bit (setBit v n true) n = true ∧
    fld (setBit v n true) 1 0 = fld v 1 0 ∧ fld (setBit v n true) 5 4 = fld v 5 4 ∧ fld (setBit v n true) 7 6 = fld v 7 6 ∧
    ∀ m, m ≠ n → bit (setBit v n true) m = bit v m := by
  have hlt : n < 64 := by omega
  refine ⟨?_, bit_setBit_self _ _ _ hlt, ?_, ?_, ?_, fun m hm => bit_setBit_ne _ _ _ _ hlt (Ne.symm hm)⟩
  · rw [bit_setBit_ne _ _ _ _ hlt (by omega), hen]
  · rw [fld_setBit_disjoint _ _ _ _ _ hlt (by omega)]
  · rw [fld_setBit_disjoint _ _ _ _ _ hlt (by omega)]
  · rw [fld_setBit_disjoint _ _ _ _ _ hlt (by omega)]

/-- STO_STAT as a job begins: BUSY, and no result. -/
theorem State.jobBegins (a : State) : ∃ b, (a.setStoStat 62 true).mountResult 0 = b ∧ RegsOnly a [oSto + 0x18] b ∧ b.stoStat 62 = true ∧ b.rf (oSto + 0x18) 51 48 = 0 := by
  refine ⟨_, rfl, ((RegsOnly.setStoStat a _ _).trans (RegsOnly.mountResult _ _)).mono (by simp), ?_, ?_⟩
  · rw [State.stoStat_mountResult _ _ (by decide), State.stoStat_setStoStat _ _ _ (by decide), if_pos rfl]
  · exact State.result_mountResult _ (by decide)

section
variable {s : State} (hs : s.calm = true) {src : Src} {v : Pay} (hen : bit v 63 = true)
include hs hen

theorem State.mount_row (h60 : bit v 60 = false) (h61 : bit v 61 = false) (hjob : s.sto.job = .none) (hw : s.canWrite src (oSto + 0x10) (setBit v 59 true) = true) (hm : s.mounted = false) (hdrives : fld v 1 0 ≠ 0)
    (hpair : fld v 1 0 = 3 → fld v 7 6 ≠ fld v 5 4) :
    ∃ t, exec (.mount src v) s = .next t ∧ t = { s with dev := t.dev, sto := t.sto } ∧ t.sto.job = .mount ∧ t.sto.drives = fld v 1 0 ∧
      t.sto.mapBase = s.rf (oSto + 0x28) 47 16 * 0x10000 ∧ t.stoStat 62 = true ∧ t.rf (oSto + 0x18) 51 48 = 0 := by
  obtain ⟨hv63, hv59, hv10, hv54, hv76, hv⟩ := stoCtl_command hen (.inl rfl)
  obtain ⟨a, hregs, ha63, ha10, ha54, ha76, hmount, -, -⟩ := s.stoCtlWrite_enabled hv63
  rw [hv10] at ha10
  rw [hv54] at ha54
  rw [hv76] at ha76
  have hma : a.mounted = false := by rw [State.mounted, hregs.others _ (by decide)]; exact hm
  have hjoba : a.sto.job = .none := by rw [hregs.rest]; exact hjob
  obtain ⟨b, hb, hbegun, hbusy, hresult⟩ := a.jobBegins
  have hstart : a.startMount = b.updSto (fun t => { t with
      job := .mount, drives := fld v 1 0, mapBad := []
      mapBase := s.rf (oSto + 0x28) 47 16 * 0x10000
      frpBase := a.rf (oSto + 0x30) 47 16 * 0x10000
      frvBase := a.rf (oSto + 0x38) 47 16 * 0x10000
      nfr := max 256 (a.rf (oSto + 0x40) 19 0) }) := by
    unfold State.startMount
    dsimp only
    rw [hjoba, ha63, hma, ha10, ha54, ha76, if_neg (by simp), if_neg (by decide), if_neg hdrives, if_neg (fun h => hpair h.1 h.2), hb,
      State.rf_congr (hregs.others (oSto + 0x28) (by decide))]
  obtain ⟨hnext, -, hrest⟩ := stoJob_row hs (c := .mount src v) rfl hw (hregs.trans hbegun)
    ((hmount ((hv 60 (by decide)).trans h60) ((hv 61 (by decide)).trans h61) hv59).trans hstart)
  exact ⟨_, hnext, hrest, rfl, rfl, rfl, hbusy, hresult⟩

theorem State.format_row (h59 : bit v 59 = false) (h61 : bit v 61 = false) (hjob : s.sto.job = .none) (hw : s.canWrite src (oSto + 0x10) (setBit v 60 true) = true) (hm : s.mounted = false) (hdrives : fld v 1 0 ≠ 0)
    (hpair : fld v 1 0 = 3 → fld v 7 6 ≠ fld v 5 4) (hroom : s.rf (oSto + 0x20) 25 0 + 4096 ≤ s.rf (oSto + 0x20) 54 28) :
    ∃ t, exec (.format src v) s = .next t ∧ t = { s with dev := t.dev, sto := { s.sto with job := .format, drives := fld v 1 0 } } ∧
      t.stoStat 62 = true ∧ t.rf (oSto + 0x18) 51 48 = 0 := by
  obtain ⟨hv63, hv60, hv10, hv54, hv76, hv⟩ := stoCtl_command hen (.inr (.inl rfl))
  obtain ⟨a, hregs, ha63, ha10, ha54, ha76, -, hformat, -⟩ := s.stoCtlWrite_enabled hv63
  rw [hv10] at ha10
  rw [hv54] at ha54
  rw [hv76] at ha76
  have hma : a.mounted = false := by rw [State.mounted, hregs.others _ (by decide)]; exact hm
  have hjoba : a.sto.job = .none := by rw [hregs.rest]; exact hjob
  have hvol : ∀ hi lo, a.rf (oSto + 0x20) hi lo = s.rf (oSto + 0x20) hi lo := State.rf_congr (hregs.others (oSto + 0x20) (by decide))
  obtain ⟨b, hb, hbegun, hbusy, hresult⟩ := a.jobBegins
  have hstart : a.startFormat = b.updSto (fun t => { t with job := .format, drives := fld v 1 0 }) := by
    unfold State.startFormat
    dsimp only
    rw [hjoba, ha63, hma, ha10, ha54, ha76, hvol, hvol, if_neg (by simp), if_neg (by decide), if_neg hdrives, if_neg (fun h => h.elim (fun h => hpair h.1 h.2) (by omega)), hb]
  obtain ⟨hnext, hrest, -⟩ := stoJob_row hs (c := .format src v) rfl hw (hregs.trans hbegun)
    ((hformat ((hv 59 (by decide)).trans h59) ((hv 61 (by decide)).trans h61) hv60).trans hstart)
  exact ⟨_, hnext, hrest, hbusy, hresult⟩

theorem State.resync_row (h59 : bit v 59 = false) (h60 : bit v 60 = false) (hjob : s.sto.job = .none) (hw : s.canWrite src (oSto + 0x10) (setBit v 61 true) = true) (hm : s.mounted = true) (hdeg : s.stoStat 60 = true) :
    ∃ t, exec (.resync src v) s = .next t ∧ t = { s with dev := t.dev, sto := { s.sto with job := .resync } } ∧ t.stoStat 62 = true ∧ t.stoStat 57 = true := by
  obtain ⟨hv63, hv61, -, -, -, hv⟩ := stoCtl_command hen (.inr (.inr rfl))
  obtain ⟨a, hregs, -, -, -, -, -, -, hresync⟩ := s.stoCtlWrite_enabled hv63
  have hma : a.mounted = true := by rw [State.mounted, hregs.others _ (by decide)]; exact hm
  have hdega : a.stoStat 60 = true := by rw [State.stoStat, hregs.others _ (by decide)]; exact hdeg
  have hjoba : a.sto.job = .none := by rw [hregs.rest]; exact hjob
  obtain ⟨b, hb⟩ : ∃ b, (a.setStoStat 62 true).setStoStat 57 true = b := ⟨_, rfl⟩
  have hbegun : RegsOnly a [oSto + 0x18] b := hb ▸ ((RegsOnly.setStoStat a _ _).trans (RegsOnly.setStoStat _ _ _)).mono (by simp)
  have hstart : a.startResync = b.updSto (fun t => { t with job := .resync }) := by
    unfold State.startResync
    rw [hjoba, hma, hdega, if_neg (by simp), hb]
  obtain ⟨hnext, hrest, -⟩ := stoJob_row hs (c := .resync src v) rfl hw (hregs.trans hbegun)
    ((hresync ((hv 59 (by decide)).trans h59) ((hv 60 (by decide)).trans h60) hv61).trans hstart)
  refine ⟨_, hnext, hrest, ?_, ?_⟩
  · show b.stoStat 62 = true
    rw [← hb, State.stoStat_setStoStat _ _ _ (by decide), if_neg (by decide), State.stoStat_setStoStat _ _ _ (by decide), if_pos rfl]
  · show b.stoStat 57 = true
    rw [← hb, State.stoStat_setStoStat _ _ _ (by decide), if_pos rfl]

end

/-! ### Waking the contexts parked on a block -/

theorem State.wakeBlock_rest (s : State) (b : Nat) (g : List Grant) : ∃ cs, s.wakeBlock b g = { s with ctxs := cs } :=
  foldl_ctxs (fun _ _ => ⟨_, rfl⟩) _ s

/-- A context that runs goes on running. -/
theorem State.run_wakeBlock_of_run (s : State) (b : Nat) (g : List Grant) {x : Nat} (h : (s.ctx x).run = .run) : ((s.wakeBlock b g).ctx x).run = .run :=
  ctx_foldl_upd (P := fun c => c.run = .run) (fun c => { c with run := .run, grants := c.grants ++ g }) (fun _ => rfl) _ s x (.inl h)

theorem State.mem_ctxs_of_pref {s : State} {x b : Nat} (h : (s.ctx x).run = .pref b) : (x, s.ctx x) ∈ s.ctxs := by
  cases hlook : Tbl.look s.ctxs x with
  | none =>
    rw [State.ctx, Tbl.get, hlook] at h
    cases h
  | some c =>
    have : s.ctx x = c := by rw [State.ctx, Tbl.get, hlook]; rfl
    rw [this]
    exact Tbl.mem_of_look hlook

theorem State.run_wakeBlock_of_pref {s : State} {b : Nat} (g : List Grant) {x : Nat} (h : (s.ctx x).run = .pref b) : ((s.wakeBlock b g).ctx x).run = .run :=
  ctx_foldl_upd (P := fun c => c.run = .run) (fun c => { c with run := .run, grants := c.grants ++ g }) (fun _ => rfl) _ s x
    (.inr ⟨_, List.mem_filter.mpr ⟨State.mem_ctxs_of_pref h, decide_eq_true h⟩, rfl⟩)

/-- A context parked on a block runs or stays parked when another block's contexts wake. -/
theorem State.run_wakeBlock_or (s : State) (b : Nat) (g : List Grant) {x c : Nat} (h : (s.ctx x).run = .run ∨ (s.ctx x).run = .pref c) :
    ((s.wakeBlock b g).ctx x).run = .run ∨ ((s.wakeBlock b g).ctx x).run = .pref c :=
  ctx_foldl_upd (P := fun k => k.run = .run ∨ k.run = .pref c) (fun c => { c with run := .run, grants := c.grants ++ g }) (fun _ => .inl rfl) _ s x (.inl h)

/-- Every context parked on one of the blocks runs after all of them wake. -/
theorem State.run_wakeBlocks (bs : List Nat) : ∀ (s : State) (x c : Nat), ((s.ctx x).run = .run ∨ (s.ctx x).run = .pref c ∧ c ∈ bs) →
    ((bs.foldl (fun s b => s.wakeBlock b []) s).ctx x).run = .run := by
  induction bs with
  | nil => exact fun s x c h => h.elim id (fun h => absurd h.2 List.not_mem_nil)
  | cons b bs ih =>
    intro s x c h
    refine ih (s.wakeBlock b []) x c ?_
    obtain h | ⟨h, hc⟩ := h
    · exact .inl (State.run_wakeBlock_of_run s b [] h)
    · obtain rfl | hc := List.mem_cons.mp hc
      · exact .inl (State.run_wakeBlock_of_pref [] h)
      · exact (State.run_wakeBlock_or s b [] (.inr h)).imp id (fun h => ⟨h, hc⟩)

theorem State.wakeAllPref_rest (s : State) : ∃ cs, s.wakeAllPref = { s with ctxs := cs } :=
  foldl_ctxs (fun s b => s.wakeBlock_rest b []) _ s

theorem State.run_wakeAllPref {s : State} {x b : Nat} (h : (s.ctx x).run = .pref b) : (s.wakeAllPref.ctx x).run = .run :=
  State.run_wakeBlocks _ s x b (.inr ⟨h, List.mem_filterMap.mpr ⟨_, State.mem_ctxs_of_pref h, by rw [h]⟩⟩)

/-! ### The end of a mount by EN = 0 (R611) -/

/-- Every Object Residency Cache empties, and nothing else changes. -/
theorem State.orcClear_rest (s : State) : Traffic s s.orcClear ∧ s.orcClear = { s with clusters := s.orcClear.clusters } := by
  unfold State.orcClear
  generalize s.clusterList = l
  induction l generalizing s with
  | nil => exact ⟨Traffic.refl s, rfl⟩
  | cons n l ih =>
    obtain ⟨htraffic, hrest⟩ := ih (s.updCluster n (fun c => { c with orc := [] }))
    exact ⟨((Traffic.refl s).updCluster n _ (by intro; rfl)).trans htraffic, hrest⟩

/-- The free frames and the journal's fill are shown: nothing else of STO_STAT changes, and with no store mounted no frame is free. -/
theorem State.freeFrames_stoSync {s : State} (h : s.mounted = false) : s.stoSync.rf (oSto + 0x18) 19 0 = 0 := by
  unfold State.stoSync
  rw [h]
  dsimp only
  rw [State.rf_setStoStat _ _ (by decide) (by decide), State.rf_setRf_self _ _ _ _ _ (by decide) (by decide)]
  rfl

/-- A store with no descriptor taken is unmounted: its frames are free, and every context parked on a block runs. -/
theorem State.unmount_idle {s : State} (hs : s.calm = true) (htaken : s.sto.taken = []) : s.unmount.calm = true ∧ s.unmount.pending = s.pending ∧
    s.unmount.mounted = false ∧ s.unmount.sto.frames = [] ∧ s.unmount.sto.slots = [] ∧ s.unmount.rf (oSto + 0x18) 19 0 = 0 ∧ s.unmount.mem = s.mem ∧
    ∀ x b, (s.ctx x).run = .pref b → (s.unmount.ctx x).run = .run := by
  obtain ⟨a, ha⟩ : ∃ a, s.setStoStat 63 false = a := ⟨_, rfl⟩
  have hregs : RegsOnly s [oSto + 0x18] a := ha ▸ RegsOnly.setStoStat s _ _
  have h63 : a.mounted = false := by rw [← ha]; exact (State.stoStat_setStoStat s false 63 (by decide)).trans (if_pos rfl)
  obtain ⟨htraffic, hclear⟩ := a.orcClear_rest
  obtain ⟨c, hc⟩ : ∃ c, a.orcClear = c := ⟨_, rfl⟩
  rw [hc] at htraffic hclear
  obtain ⟨d, hd⟩ : ∃ d, c.updSto (fun t => { t with frames := [], reads := [], seals := [], slots := [], hand := 0 }) = d := ⟨_, rfl⟩
  obtain ⟨cs, hcs⟩ := d.wakeAllPref_rest
  obtain ⟨e, he⟩ : ∃ e, d.wakeAllPref = e := ⟨_, rfl⟩
  have hrow : s.unmount = e.stoSync := by
    have hdtaken : d.sto.taken = [] := by
      rw [← hd, hclear, hregs.rest]
      exact htaken
    unfold State.unmount
    dsimp only
    rw [ha, hc, hd, hdtaken, List.foldl_nil, ← he]
    rfl
  have hsync := RegsOnly.stoSync e
  have hde : e = { d with ctxs := e.ctxs } := by rw [← he, hcs]
  have hmounted : e.mounted = false := by
    rw [hde, ← hd]
    show c.mounted = false
    rw [hclear]
    exact h63
  rw [hrow]
  refine ⟨?_, ?_, ?_, ?_, ?_, State.freeFrames_stoSync hmounted, ?_, fun x b h => ?_⟩
  · rw [hsync.rest, hde, ← hd]
    refine (State.calm_congr (s := c) rfl rfl rfl rfl).trans (htraffic.calm ?_)
    rw [hregs.rest]
    exact (State.calm_congr rfl rfl rfl rfl).trans hs
  · rw [hsync.rest, hde, ← hd, hclear, hregs.rest]
    rfl
  · exact (State.stoStat_stoSync e (c := 63) (by decide) (by decide)).trans hmounted
  · rw [hsync.rest, hde, ← hd]
    rfl
  · rw [hsync.rest, hde, ← hd]
    rfl
  · rw [hsync.rest, hde, ← hd, hclear, hregs.rest]
    rfl
  · rw [hsync.rest]
    show (e.ctx x).run = .run
    rw [← he]
    refine State.run_wakeAllPref (b := b) ?_
    rw [← hd]
    show (c.ctx x).run = .pref b
    rw [htraffic.ctx, hregs.rest]
    exact h

theorem State.stoDisable_row {s : State} (hs : s.calm = true) {src : Src} {v : Pay} (h59 : bit v 59 = false) (h60 : bit v 60 = false) (h61 : bit v 61 = false)
    (hw : s.canWrite src (oSto + 0x10) (setBit v 63 false) = true) (hen : bit (s.reg (oSto + 0x10)) 63 = true) (hm : s.mounted = true) (hreads : s.sto.reads = [])
    (htaken : s.sto.taken = []) : ∃ t, exec (.stoDisable src v) s = .next t ∧ t.mounted = false ∧ t.sto.frames = [] ∧ t.sto.slots = [] ∧
      t.rf (oSto + 0x18) 19 0 = 0 ∧ t.mem = s.mem ∧ ∀ x b, (s.ctx x).run = .pref b → (t.ctx x).run = .run := by
  have hv63 : bit (setBit v 63 false) 63 = false := bit_setBit_self _ _ _ (by decide)
  have hv : ∀ m, m ≠ 63 → bit (setBit v 63 false) m = bit v m := fun m hm => bit_setBit_ne _ _ _ _ (by decide) (Ne.symm hm)
  obtain ⟨r, hr, hr63, -, -, -⟩ := s.stoCtl_written (setBit v 63 false)
  obtain ⟨a, ha⟩ : ∃ a, s.setReg (oSto + 0x10) r = a := ⟨_, rfl⟩
  have hregs : RegsOnly s [oSto + 0x10] a := ha ▸ RegsOnly.setReg s _ _
  have ha63 : bit (a.reg (oSto + 0x10)) 63 = false := by rw [← ha, State.reg_setReg_self, hr63, hv63]
  have hma : a.mounted = true := by rw [State.mounted, hregs.others _ (by decide)]; exact hm
  have hsto : a.sto = s.sto := by rw [hregs.rest]
  have hcalm : a.calm = true := by
    rw [hregs.rest]
    exact (State.calm_congr rfl rfl rfl rfl).trans hs
  have hwrite : s.stoCtlWrite (setBit v 63 false) = a.unmount := by
    unfold State.stoCtlWrite
    dsimp only
    rw [hr, ha, hv63, hv 59 (by decide), hv 60 (by decide), hv 61 (by decide), h59, h60, h61, hen]
    simp [State.tryDisable, ha63, hma, hsto, hreads]
  obtain ⟨hcalm', hpending, hmounted, hframes, hslots, hfree, hmem, hrun⟩ := State.unmount_idle hcalm (by rw [hsto]; exact htaken)
  refine ⟨a.unmount, stoCtl_row hs rfl hw hwrite hcalm' ?_, hmounted, hframes, hslots, hfree, ?_, fun x b h => hrun x b ?_⟩
  · rw [hpending, hregs.rest]
  · rw [hmem, hregs.rest]
  · rw [hregs.rest]
    exact h

/-! ### Drives failing (R601, R608) -/

theorem State.stoStat_refresh {s : State} (hk : s.kept = true) (b : Nat) : s.refresh.stoStat b = s.stoStat b := by
  rw [State.stoStat, (RegsOnly.refresh hk).others _ (by decide)]
  rfl

/-- One of two mirrored drives is fenced while no work is under way: the store is degraded. -/
theorem State.fenceDrive_mirrored {s : State} (hk : s.kept = true) {n : Nat} (hn : n < 2) (h3 : s.sto.drives = 3) (hin : s.drvFenced n = false)
    (hother : s.drvFenced (1 - n) = false) (hreads : s.sto.reads = []) (hseals : s.sto.seals = []) (hjob : s.sto.job = .none) :
    let t := s.fenceDrive n
    t = { s with dev := t.dev, sto := t.sto } ∧ t.drvFenced n = true ∧ t.stoStat 60 = true ∧ t.stoStat 61 = s.stoStat 61 := by
  have hmember : ∀ m, m < 2 → s.drvIn m = true := fun m hm => by
    rw [State.drvIn, h3]
    have : m = 0 ∨ m = 1 := by omega
    rcases this with rfl | rfl <;> rfl
  obtain ⟨a, ha⟩ : ∃ a, s.setStoStat (58 + n) true = a := ⟨_, rfl⟩
  have hstat : ∀ c, a.stoStat c = if 58 + n = c then true else s.stoStat c := fun c => by rw [← ha, State.stoStat_setStoStat _ _ _ (by omega)]
  have hrega : RegsOnly s [oSto + 0x18] a := ha ▸ RegsOnly.setStoStat s _ _
  have hsto : a.sto = s.sto := by rw [hrega.rest]
  have hok : a.drvOk (1 - n) = true := by
    have hfenced : a.stoStat (58 + (1 - n)) = s.stoStat (58 + (1 - n)) := (hstat _).trans (if_neg (by omega))
    have hina : a.drvIn (1 - n) = true := by
      rw [State.drvIn, hsto]
      exact hmember _ (by omega)
    rw [State.drvOk, hina, State.drvFenced, hfenced]
    exact (congrArg (fun b => true && !b) hother).trans rfl
  obtain ⟨b, hb⟩ : ∃ b, a.setStoStat 60 true = b := ⟨_, rfl⟩
  have hregb : RegsOnly a [oSto + 0x18] b := hb ▸ RegsOnly.setStoStat a _ _
  have hbs : b.sto = s.sto := by rw [hregb.rest, hsto]
  obtain ⟨c, hc⟩ : ∃ c, b.updSto (fun t => { t with awaiting := Tbl.erase t.awaiting n }) = c := ⟨_, rfl⟩
  have hrow : s.fenceDrive n = c.stoSync.refresh := by
    have hbc : b.updSto (fun t => { t with
        seals := t.seals.map (fun e => { e with drives := e.drives.filter (· ≠ n) })
        job := if t.job = .resync then .none else t.job
        awaiting := Tbl.erase t.awaiting n }) = c := by
      rw [← hc]
      unfold State.updSto
      dsimp only
      rw [hbs, hseals, hjob]
      rfl
    have hcs : c.sto.seals = [] := by rw [← hc]; show b.sto.seals = []; rw [hbs]; exact hseals
    have hcr : c.sto.reads = [] := by rw [← hc]; show b.sto.reads = []; rw [hbs]; exact hreads
    unfold State.fenceDrive
    rw [if_neg (by simp [hmember n hn, hin])]
    dsimp only
    have hnot : ¬ s.sto.job = .resync := by rw [hjob]; decide
    rw [ha, if_neg hnot, if_pos (And.intro h3 hok), hb, hbc, hcr]
    simp only [List.filter_nil, List.map_nil, List.foldl_nil]
    rw [hcs]
    simp only [List.filter_nil, List.foldl_nil]
    have : c.updSto (fun t => { t with seals := t.seals.filter (fun e => !e.drives.isEmpty) }) = c := by
      unfold State.updSto
      dsimp only
      rw [hcs, List.filter_nil, ← hcs]
    rw [this]
  have hsync := RegsOnly.stoSync c
  have hkept : c.stoSync.kept = true := by
    rw [hsync.kept, ← hc]
    exact (State.kept_congr (by rw [hregb.rest, hrega.rest]; rfl)).trans hk
  have hshown : ∀ m, 55 < m → (s.fenceDrive n).stoStat m = if 60 = m then true else if 58 + n = m then true else s.stoStat m := by
    intro m hm
    rw [hrow, State.stoStat_refresh hkept, State.stoStat_stoSync _ (by omega) (by omega), ← hc]
    show b.stoStat m = _
    rw [← hb, State.stoStat_setStoStat _ _ _ (by decide), hstat]
  refine ⟨?_, ?_, ?_, ?_⟩
  · rw [hrow, (RegsOnly.refresh hkept).rest, hsync.rest, ← hc, hregb.rest, hrega.rest]
    rfl
  · rw [State.drvFenced, hshown _ (by omega), if_neg (by omega), if_pos rfl]
  · rw [hshown _ (by decide), if_pos rfl]
  · rw [hshown _ (by decide), if_neg (by decide), if_neg (by omega)]

/-! ### The ends of a format and of a resync (R604, R605) -/

theorem State.resyncEnd_row {s : State} (hs : s.calm = true) (hk : s.kept = true) (hjob : s.sto.job = .resync) :
    ∃ t, exec .resyncEnd s = .next t ∧ t = { s with dev := t.dev, sto := { s.sto with job := .none, drv := t.sto.drv } } ∧
      t.stoStat 62 = false ∧ t.stoStat 57 = false ∧ t.stoStat 60 = false ∧ t.drvFenced 0 = false ∧ t.drvFenced 1 = false := by
  have hsend : ∀ (n : Nat) (l : List (Nat × Nat)) (u : State), ∃ d, l.foldl (fun s a => s.sendDrives [n] (fun k => .copy k a.1 a.2)) u = { u with sto := { u.sto with drv := d } } := by
    intro n l
    induction l with
    | nil => exact fun u => ⟨_, rfl⟩
    | cons a l ih =>
      intro u
      obtain ⟨d, hd⟩ := ih (u.sendDrives [n] (fun k => .copy k a.1 a.2))
      exact ⟨d, by rw [List.foldl_cons, hd]; rfl⟩
  obtain ⟨d, u, w, hu, hw, hrow⟩ : ∃ (d : List DriveCmd) (u w : State), u = { s with sto := { s.sto with drv := d } } ∧
      w = ((((u.setStoStat 62 false).setStoStat 57 false).setStoStat 60 false).updSto (fun t => { t with job := .none })) ∧
      s.resyncEnd = ((w.setStoStat 58 false).setStoStat 59 false).refresh := by
    unfold State.resyncEnd
    rw [if_neg (by simp [hjob])]
    dsimp only
    generalize [(sbLbaA, 1), (sbLbaB, 1), (ckptLba s.sto.cur, 9 + (8 * s.nblocks + 4095) / 4096)] ++ (s.sto.slots.filter (fun e => s.mapSlot e.2 = some e.1)).map
      (fun e => (slotLba e.1, 19)) = areas
    obtain ⟨d, hd⟩ := hsend (if s.drvFenced 0 = true then 0 else 1) areas s
    exact ⟨d, _, _, rfl, rfl, by rw [hd]⟩
  obtain ⟨x, hx⟩ : ∃ x, (w.setStoStat 58 false).setStoStat 59 false = x := ⟨_, rfl⟩
  have hstat : ∀ m, x.stoStat m = if 59 = m then false else if 58 = m then false else if 60 = m then false else if 57 = m then false else if 62 = m then false else s.stoStat m := by
    intro m
    rw [← hx, State.stoStat_setStoStat _ _ _ (by decide), State.stoStat_setStoStat _ _ _ (by decide), hw]
    show (if 59 = m then false else if 58 = m then false else (((u.setStoStat 62 false).setStoStat 57 false).setStoStat 60 false).stoStat m) = _
    rw [State.stoStat_setStoStat _ _ _ (by decide), State.stoStat_setStoStat _ _ _ (by decide), State.stoStat_setStoStat _ _ _ (by decide), hu]
    rfl
  have hxs : x = { s with dev := x.dev, sto := { s.sto with job := .none, drv := d } } := by
    have h1 : RegsOnly w [oSto + 0x18] x := hx ▸ ((RegsOnly.setStoStat w _ _).trans (RegsOnly.setStoStat _ _ _)).mono (by simp)
    have h2 := ((RegsOnly.setStoStat u 62 false).trans (RegsOnly.setStoStat _ 57 false)).trans (RegsOnly.setStoStat _ 60 false)
    rw [h1.rest, hw, h2.rest, hu]
    rfl
  have hkept : x.kept = true := by
    rw [hxs]
    exact hk
  have hfresh := RegsOnly.refresh hkept
  have hfinal : ∀ m, x.refresh.stoStat m = x.stoStat m := State.stoStat_refresh hkept
  refine ⟨x.refresh, ?_, ?_, ?_, ?_, ?_, ?_, ?_⟩
  · show fin s s.resyncEnd = _
    rw [hrow, hx, hfresh.rest, hxs]
    exact fin_calm hs rfl rfl rfl rfl rfl
  · rw [hfresh.rest, hxs]
  all_goals simp [State.drvFenced, hfinal, hstat]

theorem State.formatEnd_row {s : State} (hs : s.calm = true) (hjob : s.sto.job = .format) : ∃ t, exec .formatEnd s = .next t ∧ t.stoStat 62 = false ∧
    ((∀ n, n < 2 → s.drvIn n = true → minLbas (s.rf (oSto + 0x20) 54 28 + 1) ≤ s.driveLbas n) →
      t.rf (oSto + 0x18) 51 48 = 1 ∧ t.journal = [] ∧
      t.sto = { s.sto with job := .none, epoch := 1, cur := false, stamps := [], slots := [], drv := t.sto.drv }) ∧
    ∀ n, n < 2 → s.drvIn n = true → s.driveLbas n < minLbas (s.rf (oSto + 0x20) 54 28 + 1) →
      t = { s with dev := t.dev, freeCount := t.freeCount, sto := { s.sto with job := .none } } ∧ t.rf (oSto + 0x18) 51 48 = 6 := by
  obtain ⟨a, ha⟩ : ∃ a : State, { s with freeCount := s.freeCount + 2 } = a := ⟨_, rfl⟩
  have hsmall : a.tooSmall s.driveLbas = true ↔ ∃ n, n < 2 ∧ s.drvIn n = true ∧ s.driveLbas n < minLbas (s.rf (oSto + 0x20) 54 28 + 1) := by
    rw [← ha, State.tooSmall]
    show ([0, 1].any (fun n => s.drvIn n && decide (s.driveLbas n < minLbas (s.rf (oSto + 0x20) 54 28 + 1)))) = true ↔ _
    simp only [List.any_eq_true, Bool.and_eq_true, decide_eq_true_eq]
    refine ⟨fun ⟨n, hn, h⟩ => ⟨n, by simp at hn; omega, h⟩, fun ⟨n, hn, h⟩ => ⟨n, ?_, h⟩⟩
    have : n = 0 ∨ n = 1 := by omega
    simpa using this
  obtain ⟨b, hb⟩ : ∃ b, a.setStoStat 62 false = b := ⟨_, rfl⟩
  have hregb : RegsOnly a [oSto + 0x18] b := hb ▸ RegsOnly.setStoStat a _ _
  have h62 : b.stoStat 62 = false := by rw [← hb, State.stoStat_setStoStat _ _ _ (by decide), if_pos rfl]
  obtain ⟨c, hc⟩ : ∃ c, b.updSto (fun t => { t with job := .none }) = c := ⟨_, rfl⟩
  have hcs : c = { s with dev := c.dev, freeCount := s.freeCount + 2, sto := { s.sto with job := .none } } := by
    rw [← hc, hregb.rest, ← ha]
    rfl
  have hc62 : c.stoStat 62 = false := by rw [← hc]; exact h62
  have hrow : exec .formatEnd s = fin s (a.formatted s.driveLbas) := by
    show fin s s.formatEnd = _
    unfold State.formatEnd
    rw [if_neg (by simp [hjob]), ha]
  cases hlarge : a.tooSmall s.driveLbas with
  | true =>
    have hformatted : a.formatted s.driveLbas = c.mountResult 6 := by
      unfold State.formatted
      dsimp only
      rw [if_pos hlarge, hb, hc]
    have hres := RegsOnly.mountResult c 6
    have hrest : c.mountResult 6 = { s with dev := (c.mountResult 6).dev, freeCount := (c.mountResult 6).freeCount, sto := { s.sto with job := .none } } := by
      rw [hres.rest, hcs]
    refine ⟨c.mountResult 6, ?_, (State.stoStat_mountResult c 6 (by decide)).trans hc62, fun hall => ?_, fun n _ _ _ => ⟨hrest, State.result_mountResult c (by decide)⟩⟩
    · rw [hrow, hformatted, hrest]
      exact fin_calm hs rfl rfl rfl rfl rfl
    · obtain ⟨n, hn, hin, hlt⟩ := hsmall.mp hlarge
      have := hall n hn hin
      omega
  | false =>
    obtain ⟨d, hd⟩ : ∃ d, c.mountResult 1 = d := ⟨_, rfl⟩
    have hres : RegsOnly c [oSto + 0x18] d := hd ▸ RegsOnly.mountResult c 1
    obtain ⟨e, he⟩ : ∃ e, (d.setJournal []).updSto (fun t => { t with epoch := 1, cur := false, stamps := [], slots := [] }) = e := ⟨_, rfl⟩
    obtain ⟨dr, t, ht, hformatted⟩ : ∃ (dr : List DriveCmd) (t : State), t = { e with sto := { e.sto with drv := dr } } ∧ a.formatted s.driveLbas = t := by
      unfold State.formatted
      dsimp only
      rw [if_neg (by simp [hlarge]), hb, hc, hd, he]
      generalize ckptImage 1 0 a.nblocks (fun _ => 0) (fun _ => 2 ^ 62) = img
      obtain ⟨f, hf⟩ : ∃ f, e.sendDrives ([0, 1].filter a.drvIn) (fun n => .write n (ckptLba false) false img) = f := ⟨_, rfl⟩
      obtain ⟨g, hg⟩ : ∃ g, f.sendDrives ([0, 1].filter a.drvIn) (fun n => .write n (ckptLba true) false img) = g := ⟨_, rfl⟩
      obtain ⟨dr, hdr⟩ := g.writeSb_eq ([0, 1].filter a.drvIn)
      refine ⟨dr, g.writeSb ([0, 1].filter a.drvIn), ?_, by rw [hf, hg]⟩
      rw [hdr, ← hg, ← hf]
      rfl
    refine ⟨t, ?_, ?_, fun _ => ⟨?_, ?_, ?_⟩, fun n hn hin hlt => ?_⟩
    · rw [hrow, hformatted, ht, ← he, hres.rest, hcs]
      exact fin_calm hs rfl rfl rfl rfl rfl
    · rw [ht, ← he]
      show d.stoStat 62 = false
      rw [← hd, State.stoStat_mountResult _ _ (by decide)]
      exact hc62
    · rw [ht, ← he]
      show d.rf (oSto + 0x18) 51 48 = 1
      rw [← hd, State.result_mountResult _ (by decide)]
    · rw [ht, ← he]
      rfl
    · rw [ht, ← he, hres.rest, hcs]
      rfl
    · rw [hsmall.mpr ⟨n, hn, hin, hlt⟩] at hlarge
      cases hlarge

/-! ### The end of a mount (R606) -/

/-- A step of a loop may be replaced by one that is the same on the states that the loop meets. -/
theorem forN_congr {f g : Nat → State → State} {P : State → Prop} (hP : ∀ i s, P s → P (g i s)) (hfg : ∀ i s, P s → f i s = g i s) (n : Nat) :
    ∀ (lo : Nat) (s : State), P s → Machine.forN n lo f s = Machine.forN n lo g s := by
  induction n with
  | zero => exact fun _ _ _ => rfl
  | succ n ih =>
    intro lo s h
    show Machine.forN n (lo + 1) f (f lo s) = Machine.forN n (lo + 1) g (g lo s)
    rw [hfg lo s h]
    exact ih (lo + 1) _ (hP lo s h)

theorem State.region_dram {s : State} {pa : Nat} (h : pa < s.dramSize) : s.region pa = .dram ∧ isKeepLine (pa / 64) = false := by
  have hlt : s.dcfg.toNat < 4 := s.dcfg.isLt
  have hsize : s.dramSize ≤ 0x1000000000 :=
    calc 0x200000000 * 2 ^ s.dcfg.toNat ≤ 0x200000000 * 2 ^ 3 := Nat.mul_le_mul_left _ (Nat.pow_le_pow_right (by decide) (by omega))
      _ = 0x1000000000 := by decide
  constructor
  · unfold State.region
    rw [if_pos (by omega), if_pos h]
  · simp only [isKeepLine, keepBase, copyB, Bool.or_eq_false_iff, Bool.and_eq_false_iff, decide_eq_false_iff_not]
    omega

/-- The map after a loop that writes the words of its blocks. -/
theorem State.mapWords_written {s : State} (hw : s.noWindows) (hp : s.unpoisoned) (hmap : s.sto.mapBase % 8 = 0) {n : Nat} (hin : s.inDram s.sto.mapBase (8 * n) = true)
    (f : Nat → Pay) {t : State} (ht : Machine.forN n 0 (fun b s => s.setMapWord b (f b)) s = t) :
    Traffic s t ∧ ∀ b, b < n → t.mapWord b = f b := by
  have hsize : s.sto.mapBase + 8 * n ≤ s.dramSize := of_decide_eq_true hin
  have hrun := State.engWrite_run s.sto.mapBase hmap (fun b => Word.raw (f b)) n 0 s hw hp
    (fun b _ hb => (State.region_dram (s := s) (by omega)).2)
  have hsame : Machine.forN n 0 (fun b s => s.setMapWord b (f b)) s = Machine.forN n 0 (fun b u => u.engWrite (s.sto.mapBase + 8 * b) (Word.raw (f b))) s := by
    refine forN_congr (P := fun u => u.sto = s.sto ∧ u.noWindows) (fun i u hu => ?_) (fun i u hu => ?_) n 0 s ⟨rfl, hw⟩
    · have hstep := Traffic.engWrite hu.2 (s.sto.mapBase + 8 * i) (Word.raw (f i))
      refine ⟨?_, hstep.noWindows hu.2⟩
      rw [hstep.rest]
      exact hu.1
    · rw [State.setMapWord, State.mapAddr, hu.1]
  dsimp only at hrun
  rw [← hsame, ht] at hrun
  obtain ⟨htraffic, -, hword, -⟩ := hrun
  refine ⟨htraffic, fun b hb => ?_⟩
  have hsto : t.sto = s.sto := by rw [htraffic.rest]
  have hdram : t.dramSize = s.dramSize := by rw [htraffic.rest]; rfl
  have hregion : t.region (s.sto.mapBase + 8 * b) = .dram := (State.region_dram (s := t) (by omega)).1
  rw [State.mapWord, State.mapAddr, hsto, hregion, if_neg (by decide), hword b (by omega) (by omega)]

/-- What the map shows is what memory holds at the map's place. -/
theorem State.mapWord_congr {s t : State} (hm : t.mem = s.mem) (ht : t.tags = s.tags) (hd : t.dcfg = s.dcfg) (hb : t.sto.mapBase = s.sto.mapBase) (b : Nat) :
    t.mapWord b = s.mapWord b := by
  unfold State.mapWord
  rw [State.word_congr hm ht, State.mapAddr, hb]
  have : t.region (s.sto.mapBase + 8 * b) = s.region (s.sto.mapBase + 8 * b) := by
    unfold State.region State.dramSize
    rw [hd]
  rw [this]
  rfl

/-- The map word that a mount gives a block: its slot, or a zero block. -/
def mountedWord (m : Tbl Nat) (b : Nat) : Pay := match Tbl.look m b with | some n => atFld 27 0 n | none => atFld 63 63 1

/-- STO_STAT and STO_VOL as a mount ends. -/
def State.mountShown (s : State) (vol : Pay) : State :=
  ((((s.setReg (oSto + 0x20) vol).setStoStat 62 false).setStoStat 63 true).mountResult 1).setStoStat 54 false

theorem State.mountShown_shows (s : State) (vol : Pay) : RegsOnly s [oSto + 0x18, oSto + 0x20] (s.mountShown vol) ∧ (s.mountShown vol).mounted = true ∧
    (s.mountShown vol).stoStat 62 = false ∧ (s.mountShown vol).rf (oSto + 0x18) 51 48 = 1 ∧ (s.mountShown vol).reg (oSto + 0x20) = vol := by
  unfold State.mountShown
  obtain ⟨a, ha⟩ : ∃ a, s.setReg (oSto + 0x20) vol = a := ⟨_, rfl⟩
  obtain ⟨b, hb⟩ : ∃ b, (a.setStoStat 62 false).setStoStat 63 true = b := ⟨_, rfl⟩
  have hrega : RegsOnly s [oSto + 0x20] a := ha ▸ RegsOnly.setReg s _ _
  have hregb : RegsOnly a [oSto + 0x18] b := hb ▸ ((RegsOnly.setStoStat a _ _).trans (RegsOnly.setStoStat _ _ _)).mono (by simp)
  have hregc : RegsOnly b [oSto + 0x18] ((b.mountResult 1).setStoStat 54 false) := ((RegsOnly.mountResult b _).trans (RegsOnly.setStoStat _ _ _)).mono (by simp)
  have hb62 : b.stoStat 62 = false := by
    rw [← hb, State.stoStat_setStoStat _ _ _ (by decide), if_neg (by decide), State.stoStat_setStoStat _ _ _ (by decide), if_pos rfl]
  have hb63 : b.stoStat 63 = true := by rw [← hb, State.stoStat_setStoStat _ _ _ (by decide), if_pos rfl]
  rw [ha, hb]
  refine ⟨((hrega.trans hregb).trans hregc).mono (by simp), ?_, ?_, ?_, ?_⟩
  · show State.stoStat _ 63 = true
    rw [State.stoStat_setStoStat _ _ _ (by decide), if_neg (by decide), State.stoStat_mountResult _ _ (by decide), hb63]
  · rw [State.stoStat_setStoStat _ _ _ (by decide), if_neg (by decide), State.stoStat_mountResult _ _ (by decide), hb62]
  · rw [State.rf_setStoStat _ _ (by decide) (by decide), State.result_mountResult _ (by decide)]
  · rw [hregc.others _ (by decide), hregb.others _ (by decide), ← ha, State.reg_setReg_self]

theorem State.mountEnd_row {s : State} (hs : s.calm = true) (hk : s.kept = true) {lbas : BitVec 64} {vg : BitVec 9} {nb : BitVec 26} {ns : BitVec 27} {ep : BitVec 64}
    {cur : Bool} {d1 : DriveFound} {c : Ckpt} (hw : s.noWindows) (hp : s.unpoisoned) (hsize : minLbas (ns.toNat + 1) ≤ lbas.toNat)
    (hin : s.inDram s.sto.mapBase (8 * (nb.toNat + 1)) = true) (hjob : s.sto.job = .mount) (hdrives : s.sto.drives = 1) (hmap : s.sto.mapBase % 8 = 0)
    (hj : s.journal = []) (hslots : s.ldg.live.slots = []) :
    ∃ t, exec (.mountEnd (.sb lbas vg nb ns ep cur) d1 (some c)) s = .next t ∧ t.mounted = true ∧ t.stoStat 62 = false ∧
      t.rf (oSto + 0x18) 51 48 = 1 ∧ t.sto.job = .none ∧ t.sto.epoch = ep.toNat ∧ t.sto.frames = [] ∧
      t.reg (oSto + 0x20) = atFld 63 55 vg.toNat ||| atFld 54 28 ns.toNat ||| atFld 25 0 nb.toNat ∧
      ∀ b, b ≤ nb.toNat → t.mapWord b = mountedWord (c.slots.foldl (fun u e => Tbl.insert u e.1 e.2) []) b := by
  obtain ⟨m, hm⟩ : ∃ m, c.slots.foldl (fun u e => Tbl.insert u e.1 e.2) ([] : Tbl Nat) = m := ⟨_, rfl⟩
  obtain ⟨vol, hvol⟩ : ∃ vol, atFld 63 55 vg.toNat ||| atFld 54 28 ns.toNat ||| atFld 25 0 nb.toNat = vol := ⟨_, rfl⟩
  rw [hm, hvol]
  obtain ⟨hregs, hmounted, h62, hresult, hregvol⟩ := s.mountShown_shows vol
  obtain ⟨a, ha⟩ : ∃ a, s.mountShown vol = a := ⟨_, rfl⟩
  rw [ha] at hregs hmounted h62 hresult hregvol
  obtain ⟨b, hb⟩ : ∃ b, Machine.forN (nb.toNat + 1) 0 (fun b s => s.setMapWord b (mountedWord m b)) a = b := ⟨_, rfl⟩
  have hasto : a.sto = s.sto := by rw [hregs.rest]
  obtain ⟨htraffic, hwords⟩ := State.mapWords_written (s := a) (by rw [hregs.rest]; exact hw) (State.unpoisoned_congr hp (by rw [hregs.rest])) (by rw [hasto]; exact hmap)
    (by rw [hregs.rest]; exact hin) (mountedWord m) hb
  obtain ⟨d, hrow, hd, hdjob, hdepoch, hdframes, hdbase⟩ : ∃ d : State, s.mountEnd (.sb lbas vg nb ns ep cur) d1 (some c) = d.orcClear.stoSync.refresh.wakeAllPref ∧
      d = { b.setJournal [] with sto := d.sto } ∧ d.sto.job = .none ∧ d.sto.epoch = ep.toNat ∧ d.sto.frames = [] ∧ d.sto.mapBase = s.sto.mapBase := by
    have hmembers : s.drvIn 0 = true ∧ s.drvIn 1 = false := by
      unfold State.drvIn
      rw [hdrives]
      decide
    have hwith : s.mountEnd (.sb lbas vg nb ns ep cur) d1 (some c) = s.mountWith vg nb ns ep cur (some c) := by
      unfold State.mountEnd
      rw [if_neg (by simp [hjob]), hmembers.1, hmembers.2]
      have hfits : decide (lbas.toNat < minLbas (ns.toNat + 1)) = false := decide_eq_false (by omega)
      have habsent : decide (DriveFound.sb lbas vg nb ns ep cur = .absent) = false := decide_eq_false (fun h => by cases h)
      dsimp only
      rw [if_pos rfl, if_neg Bool.false_ne_true, List.append_nil, List.any_cons, List.any_nil, habsent, if_neg (by decide)]
      refine (if_neg (fun h => ?_)).trans rfl
      have h : (decide (lbas.toNat < minLbas (ns.toNat + 1)) || false) = true := h
      rw [hfits] at h
      cases h
    rw [hwith]
    unfold State.mountWith
    dsimp only
    rw [hj, hm, hvol]
    have hshown : ((((s.setReg (oSto + 0x20) vol).setStoStat 62 false).setStoStat 63 true).mountResult 1).setStoStat 54 false = a := ha
    rw [hshown]
    generalize hloop : Machine.forN (nb.toNat + 1) 0 _ a = u
    obtain rfl : u = b := hloop.symm.trans hb
    refine ⟨_, rfl, rfl, rfl, rfl, rfl, ?_⟩
    show u.sto.mapBase = _
    rw [htraffic.rest, hasto]
  obtain ⟨e, he⟩ : ∃ e, d.orcClear = e := ⟨_, rfl⟩
  obtain ⟨hclear, hrest⟩ := d.orcClear_rest
  rw [he] at hclear hrest hrow
  have hsync := RegsOnly.stoSync e
  have hkept : e.stoSync.kept = true := by
    refine (State.kept_congr ?_).trans hk
    rw [hsync.rest, hrest, hd, State.setJournal, htraffic.rest, hregs.rest]
  have hfresh := RegsOnly.refresh hkept
  obtain ⟨f, hf⟩ : ∃ f, e.stoSync.refresh = f := ⟨_, rfl⟩
  rw [hf] at hfresh hrow
  obtain ⟨cs, hcs⟩ := f.wakeAllPref_rest
  rw [hcs] at hrow
  have hreg : ∀ off, off ≠ oSto + 0x18 → off ≠ 0x10 → off ≠ 0x28 → f.reg off = a.reg off := fun off h1 h2 h3 => by
    rw [hfresh.others off (by simp [h2, h3]), hsync.others off (by simpa using h1), hrest, hd]
    exact htraffic.reg off
  have hstat : ∀ m, 55 < m → f.stoStat m = a.stoStat m := fun m hm => by
    rw [← hf, State.stoStat_refresh hkept, State.stoStat_stoSync _ (by omega) (by omega), hrest, hd]
    exact congrArg (fun r => bit r m) (htraffic.reg _)
  have hfe : f = { e with dev := f.dev } := by rw [hfresh.rest, hsync.rest]
  refine ⟨{ f with ctxs := cs }, ?_, (hstat 63 (by decide)).trans hmounted, (hstat 62 (by decide)).trans h62, ?_, ?_, ?_, ?_, ?_, fun k hk => ?_⟩
  · show fin s (s.mountEnd _ d1 (some c)).releaseMore = _
    have hmore : ({ f with ctxs := cs } : State).releaseMore = { f with ctxs := cs } := by
      have : f.ldg.live.slots = [] := by
        rw [hfe, hrest, hd, State.setJournal, htraffic.rest, hregs.rest]
        exact hslots
      rw [State.releaseMore]
      dsimp only
      rw [this, List.any_nil, if_neg (by decide)]
    have hcalma : a.calm = true := by
      rw [hregs.rest]
      exact (State.calm_congr rfl rfl rfl rfl).trans hs
    have hcalmd : d.calm = true := by
      rw [hd]
      exact (State.calm_congr rfl rfl rfl rfl).trans (htraffic.calm hcalma)
    rw [hrow, hmore]
    refine fin_next ?_ ?_
    · rw [hfe]
      exact (State.calm_congr rfl rfl rfl rfl).trans (hclear.calm hcalmd)
    · rw [hfe, hrest, hd, State.setJournal, htraffic.rest, hregs.rest]
  · show f.rf (oSto + 0x18) 51 48 = 1
    rw [State.rf_congr (hfresh.others (oSto + 0x18) (by decide)), State.rf_stoSync _ (by decide) (by decide), hrest, hd]
    exact (State.rf_congr (htraffic.reg (oSto + 0x18)) _ _).trans hresult
  · show f.sto.job = .none
    rw [hfe, hrest]
    exact hdjob
  · show f.sto.epoch = _
    rw [hfe, hrest]
    exact hdepoch
  · show f.sto.frames = []
    rw [hfe, hrest]
    exact hdframes
  · exact (hreg (oSto + 0x20) (by decide) (by decide) (by decide)).trans hregvol
  · rw [State.mapWord_congr (s := b) ?_ ?_ ?_ ?_, hwords k (by omega)]
    · show f.mem = b.mem
      rw [hfe, hrest, hd]
      rfl
    · show f.tags = b.tags
      rw [hfe, hrest, hd]
      rfl
    · show f.dcfg = b.dcfg
      rw [hfe, hrest, hd]
      rfl
    · show f.sto.mapBase = b.sto.mapBase
      rw [hfe, hrest, htraffic.rest, hasto]
      exact hdbase

/-- Settles O50: each row of the volume by what its function does. -/
theorem storeVolume : Obligations.StoreVolume := by
  unfold Obligations.StoreVolume
  intro s hs hk
  refine ⟨State.checkpoint_row hs, State.checkpointEnd_row hs, fun src v hjob h59 h60 h61 hen => ⟨?_, ?_, ?_, ?_⟩, ?_, State.formatEnd_row hs, State.resyncEnd_row hs hk,
    fun second => ?_⟩
  · exact State.mount_row hs hen h60 h61 hjob
  · exact State.format_row hs hen h59 h61 hjob
  · exact State.resync_row hs hen h59 h60 hjob
  · exact State.stoDisable_row hs h59 h60 h61
  · intro lbas vg nb ns ep cur d1 c
    exact State.mountEnd_row hs hk
  · intro n h3 hin hother hreads hseals hjob
    refine ⟨?_, fun tm htm => ?_⟩
    · obtain ⟨hrest, hfenced, h60, h61⟩ := State.fenceDrive_mirrored hk (n := n) (by show b2n second < 2; cases second <;> decide) h3 hin hother hreads hseals hjob
      refine ⟨s.fenceDrive n, ?_, hrest, hfenced, h60, h61⟩
      show fin s (s.fenceDrive n) = _
      rw [hrest]
      exact fin_calm hs rfl rfl rfl rfl rfl
    · obtain ⟨u, hu⟩ : ∃ u, s.timeTo tm = u := ⟨_, rfl⟩
      have hus : u = { s with time := u.time } ∧ tm.toNat ≤ u.time.toNat := by
        rw [← hu, State.timeTo]
        split
        · exact ⟨rfl, le_refl _⟩
        · exact ⟨rfl, by omega⟩
      obtain ⟨hus, htime⟩ := hus
      obtain ⟨hrest, hfenced, h60, -⟩ := State.fenceDrive_mirrored (s := u) (by rw [hus]; exact hk) (n := n) (by show b2n second < 2; cases second <;> decide) (by rw [hus]; exact h3)
        (by rw [hus]; exact hin) (by rw [hus]; exact hother) (by rw [hus]; exact hreads) (by rw [hus]; exact hseals) (by rw [hus]; exact hjob)
      have hrow : exec (.driveCommandTimeout second) s = fin s (u.fenceDrive n) := by
        show fin s (s.driveTimeout n) = _
        rw [State.driveTimeout, htm]
        dsimp only
        rw [hu]
      refine ⟨u.fenceDrive n, ?_, ?_, hfenced, h60, ?_⟩
      · rw [hrow, hrest, hus]
        exact fin_calm hs rfl rfl rfl rfl rfl
      · rw [hrest, hus]
      · rw [hrest]
        exact htime

end Sys2Proof.Machine
end

section
/-!
PROOFS. The phases of a garbage collection cycle (O38).
-/
namespace Sys2Proof.Machine

/-! ### GC_HEAPh_CTL and GC_HEAPh_STAT (R346 to R348) -/

theorem State.blockStore_heapCtl (s : State) (src x : Nat) (h : BitVec 2) (v : Pay) : s.blockStore src x (oHeap h.toNat + 0x20) v = s.heapCtlWrite h.toNat v := by
  have hh : h.toNat < 4 := h.isLt
  obtain ⟨n, hn⟩ : ∃ n, h.toNat = n := ⟨_, rfl⟩
  rw [hn] at hh ⊢
  have hcases : n = 0 ∨ n = 1 ∨ n = 2 ∨ n = 3 := by omega
  rcases hcases with rfl | rfl | rfl | rfl <;> rfl

theorem RegsOnly.setHeapStat (s : State) (h b : Nat) (v : Bool) : RegsOnly s [oHeap h + 0x30] (s.setHeapStat h b v) := RegsOnly.setReg s _ _
theorem RegsOnly.setPhase (s : State) (h p : Nat) : RegsOnly s [oHeap h + 0x20] (s.setPhase h p) := RegsOnly.setRf s _ _ _ _

theorem State.heapStat_setHeapStat (s : State) (h : Nat) {b : Nat} (v : Bool) (c : Nat) (hb : b < 64) :
    (s.setHeapStat h b v).heapStat h c = if b = c then v else s.heapStat h c := by
  rw [State.heapStat, State.setHeapStat, State.reg_setReg_self]
  split
  · next hc => rw [← hc, bit_setBit_self _ _ _ hb]
  · next hc => exact bit_setBit_ne _ _ _ _ hb hc

theorem State.heapCtl_setHeapStat (s : State) (h b : Nat) (v : Bool) : (s.setHeapStat h b v).heapCtl h = s.heapCtl h :=
  (RegsOnly.setHeapStat s h b v).others _ (by simp)

theorem State.heapPhase_eq (s : State) (h : Nat) : s.heapPhase h = fld (s.heapCtl h) 2 0 := rfl
theorem State.heapAuto_eq (s : State) (h : Nat) : s.heapAuto h = bit (s.heapCtl h) 8 := rfl
theorem State.heapEn_eq (s : State) (h : Nat) : s.heapEn h = bit (s.heapCtl h) 3 := rfl
theorem State.heapCycle_eq (s : State) (h : Nat) : s.heapCycle h = fld (s.heapCtl h) 13 12 := rfl

theorem State.heapCtl_setPhase (s : State) (h p : Nat) : (s.setPhase h p).heapCtl h = setFld (s.heapCtl h) 2 0 p := by
  rw [State.heapCtl, State.setPhase, State.setRf_eq, State.reg_setReg_self]
  rfl

theorem State.heapPhase_setPhase (s : State) (h : Nat) {p : Nat} (hp : p < 8) : (s.setPhase h p).heapPhase h = p := by
  rw [State.heapPhase_eq, State.heapCtl_setPhase, fld_setFld_self _ _ _ _ (by decide) (by decide)]
  exact Nat.mod_eq_of_lt hp

/-- A write of GC_HEAPh_CTL that keeps EN: the RW fields follow the value, and then the phase. -/
theorem State.heapCtl_written (s : State) (h : Nat) (v : Pay) (hen : bit v 3 = s.heapEn h) : ∃ a, RegsOnly s [oHeap h + 0x20] a ∧
    a.heapPhase h = s.heapPhase h ∧ a.heapEn h = s.heapEn h ∧ a.heapAuto h = bit v 8 ∧ a.heapCycle h = s.heapCycle h ∧ bit (a.heapCtl h) 30 = bit v 30 ∧
    (∀ b, a.heapStat h b = s.heapStat h b) ∧ s.heapCtlWrite h v = (a.writePhase h (fld v 2 0)).autoAdvance h := by
  obtain ⟨c, hc⟩ : ∃ c, setFld (setFld (setFld (s.heapCtl h) 30 30 (fld v 30 30)) 15 14 (fld v 15 14)) 8 8 (fld v 8 8) = c := ⟨_, rfl⟩
  obtain ⟨a, ha⟩ : ∃ a, (s.setReg (oHeap h + 0x20) c).setRf (oHeap h + 0x20) 3 3 (fld v 3 3) = a := ⟨_, rfl⟩
  have hregs : RegsOnly s [oHeap h + 0x20] a := ha ▸ ((RegsOnly.setReg s _ _).trans (RegsOnly.setRf _ _ _ _ _)).mono (by simp)
  have hctl : a.heapCtl h = setFld c 3 3 (fld v 3 3) := by
    rw [State.heapCtl, ← ha, State.setRf_eq, State.reg_setReg_self, State.reg_setReg_self]
  refine ⟨a, hregs, ?_, ?_, ?_, ?_, ?_, fun b => ?_, ?_⟩
  · rw [State.heapPhase_eq, State.heapPhase_eq, hctl, ← hc, fld_setFld_disjoint, fld_setFld_disjoint, fld_setFld_disjoint, fld_setFld_disjoint] <;> decide
  · rw [State.heapEn_eq, hctl, bit_eq_fld, fld_setFld_self _ _ _ _ (by decide) (by decide), Nat.mod_eq_of_lt (fld_lt _ _ _), ← bit_eq_fld, hen]
  · rw [State.heapAuto_eq, hctl, ← hc, bit_setFld_disjoint, bit_eq_fld, fld_setFld_self, Nat.mod_eq_of_lt (fld_lt _ _ _), ← bit_eq_fld] <;> decide
  · rw [State.heapCycle_eq, State.heapCycle_eq, hctl, ← hc, fld_setFld_disjoint, fld_setFld_disjoint, fld_setFld_disjoint, fld_setFld_disjoint] <;> decide
  · rw [hctl, ← hc, bit_setFld_disjoint, bit_setFld_disjoint, bit_setFld_disjoint, bit_eq_fld, fld_setFld_self, Nat.mod_eq_of_lt (fld_lt _ _ _), ← bit_eq_fld] <;> decide
  · rw [State.heapStat, hregs.others _ (by simp)]
    rfl
  · unfold State.heapCtlWrite
    dsimp only
    rw [hc, hen, if_neg (by simp), ha]

/-- The value of GC_HEAPh_CTL that writes a phase. -/
theorem phase_written (v : Pay) {p : Nat} (hp : p < 4) : fld (setFld v 2 0 p) 2 0 = p ∧ ∀ b, 2 < b → bit (setFld v 2 0 p) b = bit v b := by
  refine ⟨?_, fun b hb => bit_setFld_disjoint _ _ _ _ _ (by decide) (by decide) (.inr hb)⟩
  rw [fld_setFld_self _ _ _ _ (by decide) (by decide)]
  exact Nat.mod_eq_of_lt (by omega)

theorem State.gcEvent_unbound {s : State} {h : Nat} (hu : s.unbound (0x52 + h) = true) : s.gcEvent h = s := State.assertSource_unbound hu

/-- A change of registers of a heap leaves the sources as they are bound. -/
theorem RegsOnly.unbound {s t : State} {os : List Nat} (h : RegsOnly s os t) {i : Nat} (hi : oEvr + 0x1000 + 8 * i ∉ os) : t.unbound i = s.unbound i := by
  rw [State.unbound, h.others _ hi]
  rfl

theorem RegsOnly.heapStat {s t : State} {os : List Nat} (h : RegsOnly s os t) {n : Nat} (hn : oHeap n + 0x30 ∉ os) (b : Nat) : t.heapStat n b = s.heapStat n b := by
  rw [State.heapStat, h.others _ hn]
  rfl

theorem RegsOnly.heapCtl {s t : State} {os : List Nat} (h : RegsOnly s os t) {n : Nat} (hn : oHeap n + 0x20 ∉ os) : t.heapCtl n = s.heapCtl n := h.others _ hn

/-! ### The marks of a cycle (R318, R319) -/

/-- MARK begins: CYCLE goes on, ACTIVE, ROOTS, UNSOUND and READY are 0. -/
theorem State.startMark_starts (s : State) (h : Nat) : ∃ t, s.startMark h = t ∧ t = { s with dev := t.dev, heaps := t.heaps } ∧
    t.heapPhase h = 1 ∧ t.heapCycle h = (s.heapCycle h + 1) % 4 ∧ bit (t.heapCtl h) 31 = false ∧ bit (t.heapCtl h) 30 = false ∧
    t.heapStat h 62 = false ∧ t.heapStat h 63 = false := by
  obtain ⟨c, hc⟩ : ∃ c, setFld (setFld (setFld (setFld (s.heapCtl h) 31 31 0) 30 30 0) 13 12 (fld (s.heapCtl h) 13 12 + 1)) 2 0 1 = c := ⟨_, rfl⟩
  obtain ⟨done, hdone⟩ : ∃ done, (s.regionsOf h).filter (fun i => rtState (s.rt0 i) = rgEvac ∧ rtDone (s.rt0 i)) = done := ⟨_, rfl⟩
  obtain ⟨a, ha⟩ : ∃ a, (s.setReg (oHeap h + 0x20) c).setHeapSt h { s.heapSt h with atMark := done, young := [] } = a := ⟨_, rfl⟩
  obtain ⟨t, ht⟩ : ∃ t, (a.setHeapStat h 62 false).setHeapStat h 63 false = t := ⟨_, rfl⟩
  have hregs : RegsOnly a [oHeap h + 0x30] t := ht ▸ ((RegsOnly.setHeapStat a h _ _).trans (RegsOnly.setHeapStat _ h _ _)).mono (by simp)
  have hctl : t.heapCtl h = c := by
    rw [hregs.heapCtl (by simp), ← ha]
    exact State.reg_setReg_self s _ _
  have hstat : ∀ b, t.heapStat h b = if 63 = b then false else if 62 = b then false else a.heapStat h b := fun b => by
    rw [← ht, State.heapStat_setHeapStat _ _ _ _ (by decide), State.heapStat_setHeapStat _ _ _ _ (by decide)]
  have hrow : s.startMark h = t := by
    unfold State.startMark
    dsimp only
    rw [hc, hdone, ha, ht]
  refine ⟨t, hrow, ?_, ?_, ?_, ?_, ?_, ?_, ?_⟩
  · rw [hregs.rest, ← ha]
    rfl
  · rw [State.heapPhase_eq, hctl, ← hc, fld_setFld_self _ _ _ _ (by decide) (by decide)]
    rfl
  · rw [State.heapCycle_eq, hctl, ← hc, fld_setFld_disjoint _ _ _ _ _ _ (by decide) (by decide) (by decide), fld_setFld_self _ _ _ _ (by decide) (by decide)]
    rfl
  · rw [hctl, ← hc, bit_setFld_disjoint, bit_setFld_disjoint, bit_setFld_disjoint, bit_eq_fld, fld_setFld_self] <;> decide
  · rw [hctl, ← hc, bit_setFld_disjoint, bit_setFld_disjoint, bit_eq_fld, fld_setFld_self] <;> decide
  · rw [hstat]
    rfl
  · rw [hstat]
    rfl

/-- A cycle ends with its heap's event bound to no context: IDLE, not READY, one more cycle. -/
theorem State.cycleEnds_ends {s : State} {h : Nat} (hh : h < 4) (hu : s.unbound (0x52 + h) = true) : ∃ t, s.cycleEnds h = t ∧
    RegsOnly s [oHeap h + 0x20, oHeap h + 0x30] t ∧ t.heapPhase h = 0 ∧ t.heapStat h 63 = false ∧
    t.rf (oHeap h + 0x30) 31 0 = (s.rf (oHeap h + 0x30) 31 0 + 1) % 2 ^ 32 ∧ bit (t.heapCtl h) 8 = bit (s.heapCtl h) 8 := by
  obtain ⟨a, ha⟩ : ∃ a, s.setPhase h 0 = a := ⟨_, rfl⟩
  have hrega : RegsOnly s [oHeap h + 0x20] a := ha ▸ RegsOnly.setPhase s h 0
  obtain ⟨b, hb⟩ : ∃ b, a.setHeapStat h 63 false = b := ⟨_, rfl⟩
  have hregb : RegsOnly a [oHeap h + 0x30] b := hb ▸ RegsOnly.setHeapStat a h _ _
  obtain ⟨t, ht⟩ : ∃ t, b.setRf (oHeap h + 0x30) 31 0 (s.rf (oHeap h + 0x30) 31 0 + 1) = t := ⟨_, rfl⟩
  have hregt : RegsOnly b [oHeap h + 0x30] t := ht ▸ RegsOnly.setRf b _ _ _ _
  have hregs : RegsOnly s [oHeap h + 0x20, oHeap h + 0x30] t := ((hrega.trans hregb).trans hregt).mono (by simp)
  have hctl : t.heapCtl h = setFld (s.heapCtl h) 2 0 0 := by
    rw [hregt.heapCtl (by simp), hregb.heapCtl (by simp), ← ha, State.heapCtl_setPhase]
  refine ⟨t, ?_, hregs, ?_, ?_, ?_, ?_⟩
  · unfold State.cycleEnds
    dsimp only
    rw [ha, hb, ht, State.gcEvent_unbound]
    rw [hregs.unbound, hu]
    simp [oEvr, oHeap, oGc]
    omega
  · rw [State.heapPhase_eq, hctl, fld_setFld_self _ _ _ _ (by decide) (by decide)]
    rfl
  · rw [State.heapStat, ← ht, State.bit_setRf_apart _ _ _ (by decide) (by decide) (by decide)]
    show b.heapStat h 63 = false
    rw [← hb, State.heapStat_setHeapStat _ _ _ _ (by decide), if_pos rfl]
  · rw [← ht, State.rf_setRf_self _ _ _ _ _ (by decide) (by decide)]
  · rw [hctl, bit_setFld_disjoint _ _ _ _ _ (by decide) (by decide) (by decide)]

/-! ### SATB recording (R319) -/

/-- Recording is switched at every powered core, and nothing else changes. -/
theorem State.setSatb_sets (s : State) (h : Nat) (v : Bool) : ∃ cs, s.setSatb h v = { s with cores := cs } ∧
    ∀ x, s.clOn (clusterOfCore (s.coreOf x)) = true → s.coreOf x < 64 → (s.setSatb h v).satbOn x h = v := by
  obtain ⟨cs, hcs⟩ := foldl_cores (f := fun s k => s.updCore k (fun c => { c with satb := Tbl.set (fun _ => false) c.satb h v })) (fun _ _ => ⟨_, rfl⟩)
    ((List.range 64).filter (fun k => s.clOn (clusterOfCore k))) s
  have hset : ∀ (l : List Nat) (u : State) (k : Nat), (k ∈ l ∨ Tbl.get (fun _ => false) (u.core k).satb h = v) →
      Tbl.get (fun _ => false) ((l.foldl (fun s k => s.updCore k (fun c => { c with satb := Tbl.set (fun _ => false) c.satb h v })) u).core k).satb h = v := by
    intro l
    induction l with
    | nil => exact fun u k hk => hk.resolve_left List.not_mem_nil
    | cons j l ih =>
      intro u k hk
      refine ih _ k ?_
      dsimp only
      rw [State.updCore_eq, State.core_setCore]
      split
      · exact .inr (Tbl.get_set_self _ _ _ _)
      · next hne =>
        refine hk.imp (fun hmem => ?_) id
        exact (List.mem_cons.mp hmem).resolve_left (fun h => hne h.symm)
  refine ⟨cs, hcs, fun x hon hlt => ?_⟩
  have hcore : (s.setSatb h v).coreOf x = s.coreOf x := by
    rw [State.setSatb, hcs]
    rfl
  rw [State.satbOn, hcore]
  exact hset _ s _ (.inl (List.mem_filter.mpr ⟨List.mem_range.mpr hlt, hon⟩))

/-! ### The work of EVAC (R318) -/

theorem State.rt0_congr {s t : State} (hm : t.mem = s.mem) (htags : t.tags = s.tags) (hbase : t.reg (oGc + 0x10) = s.reg (oGc + 0x10)) (i : Nat) : t.rt0 i = s.rt0 i := by
  rw [State.rt0, State.word_congr hm htags, State.rtAddr, State.rf_congr hbase]
  rfl

theorem State.evacDone_congr {s t : State} {h : Nat} (hm : t.mem = s.mem) (htags : t.tags = s.tags) (hbase : t.reg (oGc + 0x10) = s.reg (oGc + 0x10))
    (hgeom : t.reg (oHeap h + 0x10) = s.reg (oHeap h + 0x10)) : t.evacDone h = s.evacDone h := by
  unfold State.evacDone State.regionsOf State.heapRidx State.heapRegions
  rw [State.rf_congr hgeom, State.rf_congr hgeom]
  simp only [State.rt0_congr hm htags hbase]

/-- EVAC begins with READY as its work is, and recording ends. -/
theorem State.startEvac_starts {s : State} {h : Nat} (hh : h < 4) (hu : s.unbound (0x52 + h) = true) : ∃ t, s.startEvac h = t ∧ t = { s with dev := t.dev, cores := t.cores } ∧
    t.heapPhase h = (if s.evacDone h ∧ s.heapAuto h then 0 else 3) ∧ (s.heapAuto h = false → t.heapStat h 63 = s.evacDone h ∧ t.heapAuto h = false ∧
      ∀ x, s.clOn (clusterOfCore (s.coreOf x)) = true → s.coreOf x < 64 → t.satbOn x h = false) := by
  obtain ⟨a, ha⟩ : ∃ a, (s.setPhase h 3).setHeapStat h 63 false = a := ⟨_, rfl⟩
  have hrega : RegsOnly s [oHeap h + 0x20, oHeap h + 0x30] a := ha ▸ ((RegsOnly.setPhase s h 3).trans (RegsOnly.setHeapStat _ h _ _)).mono (by simp)
  have hactl : a.heapCtl h = setFld (s.heapCtl h) 2 0 3 := by rw [← ha, State.heapCtl_setHeapStat, State.heapCtl_setPhase]
  obtain ⟨cs, hcs, hsatb⟩ := a.setSatb_sets h false
  obtain ⟨b, hb⟩ : ∃ b, a.setSatb h false = b := ⟨_, rfl⟩
  rw [hb] at hcs hsatb
  have hbctl : b.heapCtl h = setFld (s.heapCtl h) 2 0 3 := by rw [hcs]; exact hactl
  have hphase : b.heapPhase h = 3 := by
    rw [State.heapPhase_eq, hbctl, fld_setFld_self _ _ _ _ (by decide) (by decide)]
    rfl
  have hauto : b.heapAuto h = s.heapAuto h := by
    rw [State.heapAuto_eq, hbctl, bit_setFld_disjoint _ _ _ _ _ (by decide) (by decide) (by decide)]
    rfl
  have hdone : b.evacDone h = s.evacDone h := by
    refine State.evacDone_congr ?_ ?_ ?_ ?_
    · rw [hcs, hrega.rest]
    · rw [hcs, hrega.rest]
    · rw [hcs]
      exact hrega.others (oGc + 0x10) (by simp [oHeap, oGc]; omega)
    · rw [hcs]
      exact hrega.others (oHeap h + 0x10) (by simp)
  have hrow : s.startEvac h = b.checkEvac h := by
    unfold State.startEvac
    rw [ha, hb]
  have hrest : b = { s with dev := b.dev, cores := b.cores } := by rw [hcs, hrega.rest]
  have hshown : ∀ v, s.startEvac h = b.setHeapStat h 63 v → ¬ (s.evacDone h = true ∧ s.heapAuto h = true) → (s.heapAuto h = false → s.evacDone h = v) →
      ∃ t, s.startEvac h = t ∧ t = { s with dev := t.dev, cores := t.cores } ∧
        t.heapPhase h = (if s.evacDone h ∧ s.heapAuto h then 0 else 3) ∧ (s.heapAuto h = false → t.heapStat h 63 = s.evacDone h ∧ t.heapAuto h = false ∧
          ∀ x, s.clOn (clusterOfCore (s.coreOf x)) = true → s.coreOf x < 64 → t.satbOn x h = false) := by
    intro v ht hnot hv
    have hregt := RegsOnly.setHeapStat b h 63 v
    refine ⟨b.setHeapStat h 63 v, ht, ?_, ?_, fun hoff => ⟨?_, ?_, fun x hon hlt => ?_⟩⟩
    · rw [hregt.rest, hrest]
    · rw [if_neg hnot, State.heapPhase_eq, State.heapCtl_setHeapStat, ← State.heapPhase_eq, hphase]
    · rw [State.heapStat_setHeapStat _ _ _ _ (by decide), if_pos rfl, hv hoff]
    · rw [State.heapAuto_eq, State.heapCtl_setHeapStat, ← State.heapAuto_eq, hauto, hoff]
    · have hsame : (b.setHeapStat h 63 v).satbOn x h = b.satbOn x h := by
        rw [hregt.rest]
        rfl
      rw [hsame]
      refine hsatb x ?_ ?_
      · rw [hrega.rest]
        exact hon
      · rw [hrega.rest]
        exact hlt
  unfold State.checkEvac at hrow
  rw [if_neg (by simp [hphase]), hdone, hauto] at hrow
  obtain hd | hd := Bool.eq_false_or_eq_true (s.evacDone h)
  · rw [hd, if_pos rfl] at hrow
    obtain hau | hau := Bool.eq_false_or_eq_true (s.heapAuto h)
    · rw [hau, if_pos rfl] at hrow
      have hub : b.unbound (0x52 + h) = true := by
        rw [hcs]
        refine (hrega.unbound ?_).trans hu
        simp [oEvr, oHeap, oGc]
        omega
      obtain ⟨t, ht, hregt, hidle, -⟩ := State.cycleEnds_ends hh hub
      refine ⟨t, hrow.trans ht, ?_, ?_, fun hoff => ?_⟩
      · rw [hregt.rest, hrest]
      · rw [hidle, if_pos ⟨hd, hau⟩]
      · rw [hau] at hoff
        cases hoff
    · rw [hau, if_neg (by decide)] at hrow
      exact hshown true hrow (by simp [hau]) (fun _ => hd)
  · rw [hd, if_neg (by decide)] at hrow
    exact hshown false hrow (by simp [hd]) (fun _ => hd)

/-! ### Phases written by software (R318) -/

section
variable {s : State} {src : Src} {hb : BitVec 2} {v : Pay} (hs : s.calm = true) (hen : bit v 3 = s.heapEn hb.toNat)
include hs hen

/-- A write of a phase to a heap whose EN stays. -/
theorem State.phase_row {p : Nat} (hp : p < 4) : ∃ a, RegsOnly s [oHeap hb.toNat + 0x20] a ∧ a.heapPhase hb.toNat = s.heapPhase hb.toNat ∧
    a.heapEn hb.toNat = s.heapEn hb.toNat ∧ a.heapAuto hb.toNat = bit v 8 ∧ a.heapCycle hb.toNat = s.heapCycle hb.toNat ∧
    (∀ b, a.heapStat hb.toNat b = s.heapStat hb.toNat b) ∧
    ∀ (c : Instr) (t : State), exec c s = fin s (s.regWrite src (oHeap hb.toNat + 0x20) (setFld v 2 0 p)) →
      s.canWrite src (oHeap hb.toNat + 0x20) (setFld v 2 0 p) = true → (a.writePhase hb.toNat p).autoAdvance hb.toNat = t → t.calm = true → t.pending = s.pending →
      exec c s = .next t := by
  obtain ⟨hphase, hbits⟩ := phase_written v hp
  obtain ⟨a, hregs, hsame, hena, hauto, hcycle, -, hstat, hwrite⟩ := s.heapCtl_written hb.toNat (setFld v 2 0 p) ((hbits 3 (by decide)).trans hen)
  refine ⟨a, hregs, hsame, hena, hauto.trans (hbits 8 (by decide)), hcycle, hstat, fun c t hrow hw ht hcalm hpending => ?_⟩
  rw [hphase] at hwrite
  exact exec_store hrow hs hw ((s.blockStore_heapCtl _ _ hb _).trans (hwrite.trans ht)) hcalm hpending

end

theorem State.autoAdvance_off {s : State} {h : Nat} (hoff : s.heapAuto h = false ∨ s.heapStat h 63 = false) : s.autoAdvance h = s := by
  unfold State.autoAdvance
  rw [if_pos]
  simpa [Bool.not_eq_true'] using hoff

theorem calm_of_rest {s t : State} (hs : s.calm = true) (ho : t.outbox = s.outbox) (hc : t.clusters = s.clusters) (hl : t.ldg = s.ldg) (hy : t.sys = s.sys) : t.calm = true :=
  (State.calm_congr ho hc (by rw [hl]) (by rw [hy])).trans hs

section
variable {s : State} {src : Src} {hb : BitVec 2} {v : Pay} (hs : s.calm = true) (hen : bit v 3 = s.heapEn hb.toNat)
include hs hen

theorem State.writeMark_begins (hw : s.canWrite src (oHeap hb.toNat + 0x20) (setFld v 2 0 1) = true) (hc : s.heapPhase hb.toNat = 0)
    (hon : s.heapEn hb.toNat = true) : ∃ t, exec (.writeMark src hb v) s = .next t ∧ t = { s with dev := t.dev, heaps := t.heaps } ∧
      t.heapPhase hb.toNat = 1 ∧ t.heapCycle hb.toNat = (s.heapCycle hb.toNat + 1) % 4 ∧ bit (t.heapCtl hb.toNat) 31 = false ∧
      bit (t.heapCtl hb.toNat) 30 = false ∧ t.heapStat hb.toNat 62 = false ∧ t.heapStat hb.toNat 63 = false := by
  obtain ⟨a, hregs, hphase, hena, -, hcycle, -, hrow⟩ := State.phase_row hs (src := src) hen (p := 1) (by decide)
  obtain ⟨t, ht, hrest, h1, hcyc, h31, h30, h62, h63⟩ := a.startMark_starts hb.toNat
  have hts : t = { s with dev := t.dev, heaps := t.heaps } := by rw [hrest, hregs.rest]
  refine ⟨t, hrow (.writeMark src hb v) t rfl hw ?_ ?_ ?_, hts, h1, by rw [hcyc, hcycle], h31, h30, h62, h63⟩
  · unfold State.writePhase
    dsimp only
    rw [hphase, hc, hena, if_neg (by decide), if_pos ⟨rfl, rfl, hon⟩, ht, State.autoAdvance_off (.inr h63)]
  · rw [hts]
    exact calm_of_rest hs rfl rfl rfl rfl
  · rw [hts]

theorem State.writeMark_refused (hw : s.canWrite src (oHeap hb.toNat + 0x20) (setFld v 2 0 1) = true) (h0 : s.heapPhase hb.toNat ≠ 0) (h1 : s.heapPhase hb.toNat ≠ 1)
    (hready : s.heapStat hb.toNat 63 = false) : ∃ t, exec (.writeMark src hb v) s = .next t ∧ RegsOnly s [oHeap hb.toNat + 0x20, oHeap hb.toNat + 0x30] t ∧
      t.heapPhase hb.toNat = s.heapPhase hb.toNat ∧ t.heapStat hb.toNat 61 = true := by
  obtain ⟨a, hrega, hphase, -, -, -, hstat, hrow⟩ := State.phase_row hs (src := src) hen (p := 1) (by decide)
  obtain ⟨t, ht⟩ : ∃ t, a.setHeapStat hb.toNat 61 true = t := ⟨_, rfl⟩
  have hregt : RegsOnly a [oHeap hb.toNat + 0x30] t := ht ▸ RegsOnly.setHeapStat a _ _ _
  have hregs : RegsOnly s [oHeap hb.toNat + 0x20, oHeap hb.toNat + 0x30] t := (hrega.trans hregt).mono (by simp)
  have hshown : ∀ b, t.heapStat hb.toNat b = if 61 = b then true else a.heapStat hb.toNat b := fun b => by rw [← ht, State.heapStat_setHeapStat _ _ _ _ (by decide)]
  refine ⟨t, hrow (.writeMark src hb v) t rfl hw ?_ ?_ ?_, hregs, ?_, by rw [hshown, if_pos rfl]⟩
  · unfold State.writePhase
    dsimp only
    rw [hphase, if_neg (Ne.symm h1), if_neg (fun h => h0 h.1), hstat, hready, if_neg (by simp), ht, State.autoAdvance_off (.inr ?_)]
    rw [hshown, if_neg (by decide), hstat, hready]
  · rw [hregs.rest]
    exact calm_of_rest hs rfl rfl rfl rfl
  · rw [hregs.rest]
  · rw [State.heapPhase_eq, hregt.heapCtl (by simp), ← State.heapPhase_eq, hphase]

theorem State.writeWeak_row (hw : s.canWrite src (oHeap hb.toNat + 0x20) (setFld v 2 0 2) = true) (hc : s.heapPhase hb.toNat = 1) (hoff : bit v 8 = false)
    (hready : s.heapStat hb.toNat 63 = true) : ∃ t, exec (.writeWeak src hb v) s = .next t ∧ RegsOnly s [oHeap hb.toNat + 0x20, oHeap hb.toNat + 0x30] t ∧
      t.heapPhase hb.toNat = 2 ∧ t.heapStat hb.toNat 63 = false := by
  obtain ⟨a, hrega, hphase, -, hauto, -, hstat, hrow⟩ := State.phase_row hs (src := src) hen (p := 2) (by decide)
  obtain ⟨t, ht⟩ : ∃ t, (a.setPhase hb.toNat 2).setHeapStat hb.toNat 63 false = t := ⟨_, rfl⟩
  have hregt : RegsOnly (a.setPhase hb.toNat 2) [oHeap hb.toNat + 0x30] t := ht ▸ RegsOnly.setHeapStat _ _ _ _
  have hregs : RegsOnly s [oHeap hb.toNat + 0x20, oHeap hb.toNat + 0x30] t := ((hrega.trans (RegsOnly.setPhase a _ _)).trans hregt).mono (by simp)
  have h63 : t.heapStat hb.toNat 63 = false := by rw [← ht, State.heapStat_setHeapStat _ _ _ _ (by decide), if_pos rfl]
  refine ⟨t, hrow (.writeWeak src hb v) t rfl hw ?_ ?_ ?_, hregs, ?_, h63⟩
  · unfold State.writePhase
    dsimp only
    rw [hphase, hc, hauto, hoff, hstat, hready, if_neg (by decide), if_neg (by simp), if_pos (by decide), if_pos rfl, ht, State.autoAdvance_off (.inr h63)]
  · rw [hregs.rest]
    exact calm_of_rest hs rfl rfl rfl rfl
  · rw [hregs.rest]
  · rw [State.heapPhase_eq, hregt.heapCtl (by simp), ← State.heapPhase_eq, State.heapPhase_setPhase _ _ (by decide)]

theorem State.writeEvac_row (hu : s.unbound (0x52 + hb.toNat) = true) (hw : s.canWrite src (oHeap hb.toNat + 0x20) (setFld v 2 0 3) = true)
    (hc : s.heapPhase hb.toNat = 2) (hoff : bit v 8 = false) (hready : s.heapStat hb.toNat 63 = true) :
    ∃ t, exec (.writeEvac src hb v) s = .next t ∧ t = { s with dev := t.dev, cores := t.cores } ∧ t.heapPhase hb.toNat = 3 ∧
      t.heapStat hb.toNat 63 = s.evacDone hb.toNat ∧
      ∀ x, s.clOn (clusterOfCore (s.coreOf x)) = true → s.coreOf x < 64 → t.satbOn x hb.toNat = false := by
  have hh : hb.toNat < 4 := hb.isLt
  obtain ⟨a, hrega, hphase, -, hauto, -, hstat, hrow⟩ := State.phase_row hs (src := src) hen (p := 3) (by decide)
  have hua : a.unbound (0x52 + hb.toNat) = true := by
    refine (hrega.unbound ?_).trans hu
    simp [oEvr, oHeap, oGc]
    omega
  have hdone : a.evacDone hb.toNat = s.evacDone hb.toNat := by
    refine State.evacDone_congr ?_ ?_ (hrega.others (oGc + 0x10) (by simp [oHeap, oGc]; omega)) (hrega.others _ (by simp))
    · rw [hrega.rest]
    · rw [hrega.rest]
  obtain ⟨t, ht, hrest, hshown, hoffs⟩ := State.startEvac_starts hh hua
  rw [hoff] at hauto
  obtain ⟨h63, hautot, hsatb⟩ := hoffs hauto
  have hts : t = { s with dev := t.dev, cores := t.cores } := by rw [hrest, hrega.rest]
  refine ⟨t, hrow (.writeEvac src hb v) t rfl hw ?_ ?_ ?_, hts, ?_, by rw [h63, hdone], fun x hon hlt => hsatb x ?_ ?_⟩
  · unfold State.writePhase
    dsimp only
    rw [hphase, hc, hauto, hstat, hready, if_neg (by decide), if_neg (by simp), if_pos (by decide), if_neg (by decide), if_pos rfl, ht,
      State.autoAdvance_off (.inl hautot)]
  · rw [hts]
    exact calm_of_rest hs rfl rfl rfl rfl
  · rw [hts]
  · rw [hshown, hauto, if_neg (by simp)]
  · rw [hrega.rest]
    exact hon
  · rw [hrega.rest]
    exact hlt

theorem State.writeIdle_row (hu : s.unbound (0x52 + hb.toNat) = true) (hw : s.canWrite src (oHeap hb.toNat + 0x20) (setFld v 2 0 0) = true)
    (hc : s.heapPhase hb.toNat = 3) (hoff : bit v 8 = false) (hready : s.heapStat hb.toNat 63 = true) :
    ∃ t, exec (.writeIdle src hb v) s = .next t ∧ RegsOnly s [oHeap hb.toNat + 0x20, oHeap hb.toNat + 0x30] t ∧ t.heapPhase hb.toNat = 0 ∧
      t.heapStat hb.toNat 63 = false ∧ t.rf (oHeap hb.toNat + 0x30) 31 0 = (s.rf (oHeap hb.toNat + 0x30) 31 0 + 1) % 2 ^ 32 := by
  have hh : hb.toNat < 4 := hb.isLt
  obtain ⟨a, hrega, hphase, -, hauto, -, hstat, hrow⟩ := State.phase_row hs (src := src) hen (p := 0) (by decide)
  have hua : a.unbound (0x52 + hb.toNat) = true := by
    refine (hrega.unbound ?_).trans hu
    simp [oEvr, oHeap, oGc]
    omega
  obtain ⟨t, ht, hregt, hidle, h63, hcount, -⟩ := State.cycleEnds_ends hh hua
  have hregs : RegsOnly s [oHeap hb.toNat + 0x20, oHeap hb.toNat + 0x30] t := (hrega.trans hregt).mono (by simp)
  refine ⟨t, hrow (.writeIdle src hb v) t rfl hw ?_ ?_ ?_, hregs, hidle, h63, ?_⟩
  · unfold State.writePhase
    dsimp only
    rw [hphase, hc, hauto, hoff, hstat, hready, if_neg (by decide), if_neg (by simp), if_pos (by decide), if_neg (by decide), if_neg (by decide), ht,
      State.autoAdvance_off (.inr h63)]
  · rw [hregs.rest]
    exact calm_of_rest hs rfl rfl rfl rfl
  · rw [hregs.rest]
  · rw [hcount, State.rf_congr (hrega.others (oHeap hb.toNat + 0x30) (by simp))]

theorem State.rootsSet_row (hw : s.canWrite src (oHeap hb.toNat + 0x20) (setBit v 30 true) = true) (hc : fld v 2 0 = s.heapPhase hb.toNat)
    (hoff : bit v 8 = false ∨ s.heapStat hb.toNat 63 = false) : ∃ t, exec (.rootsSet src hb v) s = .next t ∧ RegsOnly s [oHeap hb.toNat + 0x20] t ∧
      bit (t.heapCtl hb.toNat) 30 = true ∧ t.heapPhase hb.toNat = s.heapPhase hb.toNat := by
  obtain ⟨t, hregs, hphase, -, hauto, -, h30, hstat, hwrite⟩ := s.heapCtl_written hb.toNat (setBit v 30 true) ((bit_setBit_ne v 30 3 true (by decide) (by decide)).trans hen)
  rw [bit_setBit_ne v 30 8 true (by decide) (by decide)] at hauto
  rw [bit_setBit_self v 30 true (by decide)] at h30
  rw [fld_setBit_disjoint v 30 true 2 0 (by decide) (by decide), hc, ← hphase] at hwrite
  have ht : s.heapCtlWrite hb.toNat (setBit v 30 true) = t := by
    rw [hwrite, State.writePhase]
    rw [if_pos rfl, State.autoAdvance_off (hoff.imp (hauto.trans ·) ((hstat 63).trans ·))]
  exact ⟨t, exec_store_regs (c := .rootsSet src hb v) rfl hs hw ((s.blockStore_heapCtl _ _ hb _).trans ht) hregs, hregs, h30, hphase⟩

end

/-! ### The end of MARK and of WEAK (R325, R327) -/

theorem State.weakEnd_row {s : State} (hs : s.calm = true) (hw : s.noWindows) {hb : BitVec 2} (hu : s.unbound (0x52 + hb.toNat) = true) (hc : s.heapPhase hb.toNat = 2)
    (hready : s.heapStat hb.toNat 63 = false) (hnone : ∀ e ∈ s.clusters, ∀ pa ∈ e.2.weakL, s.weakSlotHeap pa ≠ some hb.toNat) :
    (s.heapAuto hb.toNat = false → ∃ t, exec (.weakEnd hb) s = .next t ∧ RegsOnly s [oHeap hb.toNat + 0x30] t ∧ t.heapStat hb.toNat 63 = true) ∧
    (s.heapAuto hb.toNat = true → s.selected hb.toNat = [] → s.noStores →
      ∃ t, exec (.weakEnd hb) s = .next t ∧ t.heapPhase hb.toNat = if s.evacDone hb.toNat then 0 else 3) := by
  have hrow : exec (.weakEnd hb) s = fin s (if s.heapAuto hb.toNat then s.evacSelected hb.toNat else s.setHeapStat hb.toNat 63 true) := by
    show fin s (s.weakEnd hb.toNat) = _
    unfold State.weakEnd
    dsimp only
    rw [if_neg]
    rintro (h | h | h)
    · exact h hc
    · obtain ⟨e, he, hopen⟩ := List.any_eq_true.mp h
      obtain ⟨pa, hpa, hslot⟩ := List.any_eq_true.mp (Bool.and_eq_true_iff.mp hopen).2
      exact hnone e he pa hpa (of_decide_eq_true hslot)
    · rw [hready] at h
      cases h
  refine ⟨fun hoff => ?_, fun hon hsel hst => ?_⟩
  · have hregs := RegsOnly.setHeapStat s hb.toNat 63 true
    refine ⟨_, ?_, hregs, by rw [State.heapStat_setHeapStat _ _ _ _ (by decide), if_pos rfl]⟩
    rw [hrow, hoff]
    exact hregs.fin hs
  · have hland : s.landStores = s := by
      have hholds : s.twins.filter (fun e => !e.2.hold.isEmpty) = [] := List.filter_eq_nil_iff.mpr (fun e he => by simp [(hw e he).2])
      have hopen : ∀ u ∈ s.txns, (decide (u.kind = .store) && !u.arrived) = false := by
        intro u hu
        by_cases hk : u.kind = .store
        · simp [hst u hu hk]
        · simp [hk]
      unfold State.landStores
      dsimp only
      rw [hholds, List.foldl_nil, List.filter_eq_nil_iff.mpr (fun u hu => by simp [hopen u hu]), List.filterMap_nil, List.append_nil]
      have hsame : s.txns.map (fun t => if (decide (t.kind = .store) && !t.arrived) = true then { t with arrived := true } else t) = s.txns := by
        refine (List.map_congr_left (fun u hu => ?_)).trans (List.map_id _)
        rw [hopen u hu]
        rfl
      rw [hsame]
    obtain ⟨t, ht, hrest, hphase, -⟩ := State.startEvac_starts hb.isLt hu
    refine ⟨t, ?_, by rw [hphase, hon]; simp⟩
    have hsel : s.evacSelected hb.toNat = t := by
      unfold State.evacSelected
      dsimp only
      rw [hland, hsel]
      exact ht
    rw [hrow, hon, if_pos rfl, hsel, hrest]
    exact fin_calm hs rfl rfl rfl rfl rfl

/-! ### Recording goes on while memory is written (R319) -/

/-- Each core records for the heaps it recorded for. -/
def SameSatb (s u : State) : Prop := ∀ k, (u.core k).satb = (s.core k).satb

namespace SameSatb

variable {s u v : State}

theorem refl (s : State) : SameSatb s s := fun _ => rfl
theorem trans (h : SameSatb s u) (g : SameSatb u v) : SameSatb s v := fun k => (g k).trans (h k)
theorem of_cores (h : u.cores = s.cores) : SameSatb s u := fun k => by rw [State.core, h]; rfl

theorem foldl {β : Type} {f : State → β → State} (hf : ∀ s b, SameSatb s (f s b)) (l : List β) (s : State) : SameSatb s (l.foldl f s) := by
  induction l generalizing s with
  | nil => exact refl s
  | cons b l ih => exact (hf s b).trans (ih _)

theorem l1dDrop (s : State) (k line : Nat) : SameSatb s (s.l1dDrop k line) := by
  have hdrop : SameSatb s (s.updCore k (fun c => { c with l1d := Tbl.erase c.l1d line })) := fun j => by
    rw [State.updCore_eq, State.core_setCore]
    split
    · next h => rw [h]
    · rfl
  unfold State.l1dDrop
  split
  · exact refl s
  · dsimp only
    split
    · exact hdrop
    · split
      · exact hdrop.trans (of_cores rfl)
      · exact hdrop.trans (of_cores rfl)

theorem cohWrite (s : State) (k n : Option Nat) (line : Nat) : SameSatb s (s.cohWrite k n line) := by
  unfold State.cohWrite
  dsimp only
  have hcores : SameSatb s ((s.cores.map (·.1)).foldl (fun s j => if some j = k then s else s.l1dDrop j line) s) := by
    refine foldl (fun v j => ?_) _ s
    split
    · exact refl v
    · exact l1dDrop v j line
  obtain ⟨u, hu⟩ : ∃ u, (s.cores.map (·.1)).foldl (fun s j => if some j = k then s else s.l1dDrop j line) s = u := ⟨_, rfl⟩
  rw [hu] at hcores ⊢
  refine SameSatb.trans ?_ (foldl (fun v m => ?_) _ _)
  · split
    · split
      · exact hcores.trans (of_cores rfl)
      · exact hcores.trans (of_cores rfl)
    · exact hcores
  · split
    · exact refl v
    · split
      · exact refl v
      · split <;> split <;> exact of_cores rfl

theorem engWrite (hw : s.noWindows) (k : Nat) (w : Word) : SameSatb s (s.engWrite k w) := by
  unfold State.engWrite
  split
  · exact refl s
  · rw [State.busWrite_noWindows hw]
    refine (cohWrite s none none (k / 64)).trans (of_cores ?_)
    rw [State.setWord_eq]

end SameSatb

/-- A word of the Region Table written by the GC block. -/
theorem State.gcWrite_traffic {s : State} (hw : s.noWindows) (pa : Nat) (w : Word) : Traffic s (s.gcWrite pa w) ∧ SameSatb s (s.gcWrite pa w) := by
  unfold State.gcWrite
  split
  · exact ⟨Traffic.engWrite hw pa w, SameSatb.engWrite hw pa w⟩
  · exact ⟨Traffic.refl s, SameSatb.refl s⟩

theorem State.recordTams_traffic {s : State} (hw : s.noWindows) (h i : Nat) : Traffic s (s.recordTams h i) ∧ SameSatb s (s.recordTams h i) := by
  unfold State.recordTams
  dsimp only
  split
  · exact ⟨Traffic.refl s, SameSatb.refl s⟩
  · exact State.gcWrite_traffic hw _ _

theorem State.recordAll_traffic (h : Nat) (l : List Nat) : ∀ {s : State}, s.noWindows → Traffic s (l.foldl (fun s i => s.recordTams h i) s) ∧
    SameSatb s (l.foldl (fun s i => s.recordTams h i) s) := by
  induction l with
  | nil => exact fun {s} _ => ⟨Traffic.refl s, SameSatb.refl s⟩
  | cons i l ih =>
    intro s hw
    obtain ⟨h1, h2⟩ := State.recordTams_traffic hw h i
    obtain ⟨h3, h4⟩ := ih (h1.noWindows hw)
    exact ⟨h1.trans h3, h2.trans h4⟩

theorem State.satbOn_congr {s u : State} (ht : u.twins = s.twins) (h : SameSatb s u) (x n : Nat) : u.satbOn x n = s.satbOn x n := by
  have hcore : u.coreOf x = s.coreOf x := by
    unfold State.coreOf State.twin
    rw [ht]
  rw [State.satbOn, hcore, h]
  rfl

/-- Every powered core records, TAMS is noted and ACTIVE is set. -/
theorem State.markActive_row {s : State} (hs : s.calm = true) (hw : s.noWindows) {hb : BitVec 2} (hc : s.heapPhase hb.toNat = 1) (h31 : bit (s.heapCtl hb.toNat) 31 = false) :
    ∃ t, exec (.markActive hb) s = .next t ∧ bit (t.heapCtl hb.toNat) 31 = true ∧ t.heapPhase hb.toNat = 1 ∧
      ∀ x, s.clOn (clusterOfCore (s.coreOf x)) = true → s.coreOf x < 64 → t.satbOn x hb.toNat = true := by
  obtain ⟨cs, hcs, hsatb⟩ := s.setSatb_sets hb.toNat true
  obtain ⟨a, ha⟩ : ∃ a, s.setSatb hb.toNat true = a := ⟨_, rfl⟩
  rw [ha] at hcs hsatb
  obtain ⟨htraffic, hsame⟩ := State.recordAll_traffic hb.toNat (s.regionsOf hb.toNat) (s := a) (by rw [hcs]; exact hw)
  obtain ⟨b, hb'⟩ : ∃ b, (s.regionsOf hb.toNat).foldl (fun s i => s.recordTams hb.toNat i) a = b := ⟨_, rfl⟩
  rw [hb'] at htraffic hsame
  obtain ⟨cards, hcards⟩ : ∃ cards, (b.regionsOf hb.toNat).flatMap (fun i => b.dirtyCards hb.toNat i) = cards := ⟨_, rfl⟩
  obtain ⟨now, hnow⟩ : ∃ now, min cards.length (256 * b.poweredClusters.length) = now := ⟨_, rfl⟩
  obtain ⟨c, hc'⟩ : ∃ c, b.setHeapSt hb.toNat { b.heapSt hb.toNat with cards := cards.drop now } = c := ⟨_, rfl⟩
  obtain ⟨cls, hcls⟩ : ∃ cls, b.poweredClusters = cls := ⟨_, rfl⟩
  have hgiven : ∀ (l : List Nat) (u : State), Traffic u (l.foldl (fun s j => s.updCluster (cls.getD (j % cls.length) 0) (fun k => { k with cardQ := k.cardQ ++ [cards.getD j (0, 0)] })) u) ∧
      (l.foldl (fun s j => s.updCluster (cls.getD (j % cls.length) 0) (fun k => { k with cardQ := k.cardQ ++ [cards.getD j (0, 0)] })) u).cores = u.cores := by
    intro l
    induction l with
    | nil => exact fun u => ⟨Traffic.refl u, rfl⟩
    | cons j l ih =>
      intro u
      obtain ⟨h1, h2⟩ := ih (u.updCluster (cls.getD (j % cls.length) 0) (fun k => { k with cardQ := k.cardQ ++ [cards.getD j (0, 0)] }))
      exact ⟨((Traffic.refl u).updCluster _ _ (by intro; rfl)).trans h1, h2⟩
  obtain ⟨hd1, hd2⟩ := hgiven (List.range now) c
  obtain ⟨d, hd⟩ : ∃ d, (List.range now).foldl (fun s j => s.updCluster (cls.getD (j % cls.length) 0) (fun k => { k with cardQ := k.cardQ ++ [cards.getD j (0, 0)] })) c = d := ⟨_, rfl⟩
  rw [hd] at hd1 hd2
  obtain ⟨t, ht⟩ : ∃ t, d.setRf (oHeap hb.toNat + 0x20) 31 31 1 = t := ⟨_, rfl⟩
  have hrow : s.markActive hb.toNat = t := by
    unfold State.markActive
    rw [if_neg (by simp [hc, h31])]
    dsimp only
    rw [ha, hb', hcards, hcls, ← hcls, hnow, hc', hcls, hd, ht]
  have hregs : RegsOnly d [oHeap hb.toNat + 0x20] t := ht ▸ RegsOnly.setRf d _ _ _ _
  have hctl : t.heapCtl hb.toNat = setFld (s.heapCtl hb.toNat) 31 31 1 := by
    rw [← ht, State.heapCtl, State.setRf_eq, State.reg_setReg_self, hd1.reg, ← hc']
    show setFld (b.reg _) 31 31 1 = _
    rw [htraffic.reg, hcs]
    rfl
  have hcalm : d.calm = true := by
    refine hd1.calm ?_
    rw [← hc']
    refine (State.calm_congr (s := b) rfl rfl rfl rfl).trans (htraffic.calm ?_)
    rw [hcs]
    exact (State.calm_congr rfl rfl rfl rfl).trans hs
  refine ⟨t, ?_, ?_, ?_, fun x hon hlt => ?_⟩
  · show fin s (s.markActive hb.toNat) = _
    rw [hrow]
    refine fin_next ?_ ?_
    · rw [hregs.rest]
      exact calm_of_rest hcalm rfl rfl rfl rfl
    · rw [hregs.rest, hd1.rest, ← hc', State.setHeapSt, htraffic.rest, hcs]
  · rw [hctl, bit_eq_fld, fld_setFld_self _ _ _ _ (by decide) (by decide)]
    rfl
  · rw [State.heapPhase_eq, hctl, fld_setFld_disjoint _ _ _ _ _ _ (by decide) (by decide) (by decide), ← State.heapPhase_eq, hc]
  · have htwins : t.twins = a.twins := by
      rw [hregs.rest, hd1.rest, ← hc', State.setHeapSt, htraffic.rest]
    refine (State.satbOn_congr htwins (hsame.trans (SameSatb.of_cores ?_)) x _).trans (hsatb x hon hlt)
    rw [hregs.rest]
    show d.cores = b.cores
    rw [hd2, ← hc']
    rfl

/-! ### A termination round (R325) -/

theorem State.markEnds_empty {s : State} {h : Nat} (hnone : (s.heapSt h).atMark = []) : ∃ t, s.markEnds h = t ∧ t = { s with dev := t.dev, heaps := t.heaps } ∧
    (s.heapAuto h = true → t.heapPhase h = 2) ∧ (s.heapAuto h = false → t.heapPhase h = s.heapPhase h ∧ t.heapStat h 63 = true) := by
  obtain ⟨a, ha⟩ : ∃ a, s.setHeapSt h { s.heapSt h with passed := ((s.heapSt h).passed ++ []).eraseDups, atMark := [], young := [] } = a := ⟨_, rfl⟩
  have hauto : a.heapAuto h = s.heapAuto h := by rw [← ha]; rfl
  have hphase : a.heapPhase h = s.heapPhase h := by rw [← ha]; rfl
  have hrow : s.markEnds h = if s.heapAuto h then a.setPhase h 2 else a.setHeapStat h 63 true := by
    unfold State.markEnds
    dsimp only
    rw [hnone, List.filter_nil, ha, List.foldl_nil, ite_self, hauto]
  obtain hon | hoff := Bool.eq_false_or_eq_true (s.heapAuto h)
  · refine ⟨a.setPhase h 2, by rw [hrow, hon, if_pos rfl], ?_, fun _ => State.heapPhase_setPhase _ _ (by decide), fun hoff => ?_⟩
    · rw [(RegsOnly.setPhase a h 2).rest, ← ha]
      rfl
    · rw [hon] at hoff
      cases hoff
  · refine ⟨a.setHeapStat h 63 true, by rw [hrow, hoff, if_neg (by decide)], ?_, fun hon => ?_, fun _ => ⟨?_, ?_⟩⟩
    · rw [(RegsOnly.setHeapStat a h 63 true).rest, ← ha]
      rfl
    · rw [hoff] at hon
      cases hon
    · rw [State.heapPhase_eq, State.heapCtl_setHeapStat, ← State.heapPhase_eq, hphase]
    · rw [State.heapStat_setHeapStat _ _ _ _ (by decide), if_pos rfl]

/-- Waking contexts leaves their registers. -/
theorem State.sp_wakeRun (l : List (Nat × Ctx)) : ∀ (s : State) (x n : Nat), ((l.foldl (fun s e => s.updCtx e.1 (fun c => { c with run := .run })) s).ctx x).sp n = (s.ctx x).sp n := by
  induction l with
  | nil => exact fun _ _ _ => rfl
  | cons e l ih =>
    intro s x n
    rw [List.foldl_cons, ih, State.updCtx_eq, State.ctx_setCtx]
    split
    · next h => rw [h]; rfl
    · rfl

/-- The machine after some contexts have submitted their entries: queues that were submitted are empty. -/
structure Submitted (s u : State) (l : List Nat) : Prop where
  rest : u = { s with ctxs := u.ctxs, twins := u.twins, clusters := u.clusters }
  windows : s.noWindows → u.noWindows
  bottom : ∀ x, (u.ctx x).sp Sr.sqb = (s.ctx x).sp Sr.sqb
  top : ∀ x, (x ∈ l ∨ (s.ctx x).sp Sr.sqt = (s.ctx x).sp Sr.sqb) → (u.ctx x).sp Sr.sqt = (s.ctx x).sp Sr.sqb

theorem Submitted.cons {s u v : State} {x : Nat} {l : List Nat} (h : Submitted s u [x]) (g : Submitted u v l) : Submitted s v (x :: l) := by
  refine ⟨?_, fun hw => g.windows (h.windows hw), fun y => (g.bottom y).trans (h.bottom y), fun y hy => ?_⟩
  · rw [g.rest, h.rest]
  · rw [g.top y ?_, h.bottom]
    rcases hy with hy | hy
    · rcases List.mem_cons.mp hy with rfl | hy
      · exact .inr ((h.top y (.inl List.mem_cons_self)).trans (h.bottom y).symm)
      · exact .inl hy
    · exact .inr ((h.top y (.inr hy)).trans (h.bottom y).symm)

/-- A window with nothing in it closes: no output is held. -/
theorem Submitted.confirm {s : State} (hw : s.noWindows) (t : Nat) : Submitted s (s.confirm t) [] := by
  have hhold : (s.twin t).hold = [] := by
    exact (Tbl.get_of_forall (d := fun _ => Twin.reset) (P := fun w => w.undo = [] ∧ w.hold = []) hw t ⟨rfl, rfl⟩).2
  obtain ⟨hrest, -⟩ := State.confirm_quiet hhold
  have hsp : ∀ x n, ((s.confirm t).ctx x).sp n = (s.ctx x).sp n := fun x n =>
    State.sp_wakeRun _ (s.setTwin t { s.twin t with groups := 0, misr := misrSeed, undo := [], sqtConf := [], hold := [] }) x n
  refine ⟨?_, fun _ => ?_, fun x => hsp x _, fun x hx => ?_⟩
  · rw [hrest]
  · intro e he
    have htwins : (s.confirm t).twins = Tbl.set (fun _ => Twin.reset) s.twins t { s.twin t with groups := 0, misr := misrSeed, undo := [], sqtConf := [], hold := [] } := by
      obtain ⟨cs, hcs⟩ := foldl_ctxs (f := fun s (e : Nat × Ctx) => s.updCtx e.1 (fun c => { c with run := .run })) (fun _ _ => ⟨_, rfl⟩)
        ((s.setTwin t { s.twin t with groups := 0, misr := misrSeed, undo := [], sqtConf := [], hold := [] }).ctxs.filter (fun e => twinOf e.1 = t && e.2.run = .window))
        (s.setTwin t { s.twin t with groups := 0, misr := misrSeed, undo := [], sqtConf := [], hold := [] })
      exact congrArg State.twins hcs
    rw [htwins] at he
    obtain rfl | he := Tbl.mem_of_mem_set (d := fun _ => Twin.reset) he
    · exact ⟨rfl, rfl⟩
    · exact hw e he
  · rw [hsp, hx.resolve_left List.not_mem_nil]

/-- One context submits its entries, its window closed first where it has one. -/
def State.submitTop (s : State) (x : Nat) : State :=
  ((if s.isTight x then s.confirm (twinOf x) else s).submitSatb x).updCtx x (fun c => c.setSp Sr.sqt (c.sp Sr.sqb))

theorem State.submitSatb_rest (s : State) (x : Nat) : ∃ cs, s.submitSatb x = { s with clusters := cs } := by
  unfold State.submitSatb
  dsimp only
  split
  · exact ⟨s.clusters, rfl⟩
  · exact ⟨_, rfl⟩

theorem Submitted.submitTop {s : State} (hw : s.noWindows) (x : Nat) : Submitted s (s.submitTop x) [x] := by
  obtain ⟨a, ha, hsub⟩ : ∃ a, (if s.isTight x then s.confirm (twinOf x) else s) = a ∧ Submitted s a [] := by
    refine ⟨_, rfl, ?_⟩
    split
    · exact Submitted.confirm hw _
    · exact ⟨rfl, id, fun _ => rfl, fun _ h => h.resolve_left List.not_mem_nil⟩
  obtain ⟨cs, hcs⟩ := a.submitSatb_rest x
  obtain ⟨b, hb⟩ : ∃ b, a.submitSatb x = b := ⟨_, rfl⟩
  have hba : b = { a with clusters := cs } := hb.symm.trans hcs
  have hctx : ∀ y, b.ctx y = a.ctx y := fun y => by rw [hba]; rfl
  have hfinal : s.submitTop x = b.updCtx x (fun c => c.setSp Sr.sqt (c.sp Sr.sqb)) := by rw [State.submitTop, ha, hb]
  refine ⟨?_, fun _ => ?_, fun y => ?_, fun y hy => ?_⟩
  · rw [hfinal, State.updCtx_eq, State.setCtx, hba, hsub.rest]
  · have := hsub.windows hw
    rw [hfinal, hba]
    exact this
  · rw [hfinal, State.updCtx_eq, State.ctx_setCtx]
    split
    · next h => rw [Ctx.sp_setSp, if_neg (by decide), hctx, h, hsub.bottom]
    · rw [hctx, hsub.bottom]
  · rw [hfinal, State.updCtx_eq, State.ctx_setCtx]
    split
    · next h => rw [Ctx.sp_setSp_self, hctx, h, hsub.bottom]
    · next h =>
      rw [hctx]
      exact hsub.top y (.inr (hy.resolve_left (fun hm => h (List.mem_singleton.mp hm).symm)))

theorem Submitted.all (l : List Nat) : ∀ {s : State}, s.noWindows → Submitted s (l.foldl (fun s x => s.submitTop x) s) l := by
  induction l with
  | nil => exact fun {s} _ => ⟨rfl, id, fun _ => rfl, fun _ h => h.resolve_left List.not_mem_nil⟩
  | cons x l ih =>
    intro s hw
    have h := Submitted.submitTop hw x
    exact h.cons (ih (h.windows hw))

/-- What a termination round does in MARK, with ACTIVE and ROOTS set. -/
theorem State.termRound_runs {s : State} {h : Nat} (hc : s.heapPhase h = 1) (h31 : bit (s.heapCtl h) 31 = true) (h30 : bit (s.heapCtl h) 30 = true)
    (h63 : s.heapStat h 63 = false) {xs : List Nat} (hxs : (allTwins.flatMap (fun t => s.heldOf t)).filter (fun x => (s.ctx x).started) = xs) :
    s.termRound h = if s.enginesIdle ∧ xs.all (fun x => (s.ctx x).submits && decide ((s.ctx x).sp Sr.sqt = (s.ctx x).sp Sr.sqb)) then s.markEnds h
      else (xs.filter (fun x => (s.ctx x).submits && decide ((s.ctx x).sp Sr.sqt ≠ (s.ctx x).sp Sr.sqb))).foldl (fun s x => s.submitTop x) s := by
  unfold State.termRound
  rw [if_neg (by simp [hc, h31, h30, h63])]
  dsimp only
  rw [hxs]
  rfl

theorem steadyReg_heapCtl (h : Nat) (hh : h < 4) : steadyReg (oHeap h + 0x20) := by
  refine ⟨?_, fun g => ?_, .inl ?_⟩
  · simp only [pageOf, oHeap, oGc]
    omega
  · simp only [oHeap, oGc]
    omega
  · simp only [oHeap, oGc, oEvr]
    omega

theorem State.termRound_submits {s : State} (hs : s.calm = true) (hw : s.noWindows) {hb : BitVec 2} (hc : s.heapPhase hb.toNat = 1)
    (h31 : bit (s.heapCtl hb.toNat) 31 = true) (h30 : bit (s.heapCtl hb.toNat) 30 = true) (h63 : s.heapStat hb.toNat 63 = false) {x : Nat}
    (hx : x ∈ (allTwins.flatMap (fun t => s.heldOf t)).filter (fun x => (s.ctx x).started)) (hsub : (s.ctx x).submits = true)
    (hne : (s.ctx x).sp Sr.sqt ≠ (s.ctx x).sp Sr.sqb) :
    ∃ t, exec (.terminationRound hb) s = .next t ∧ (t.ctx x).sp Sr.sqt = (s.ctx x).sp Sr.sqb ∧ t.heapPhase hb.toNat = 1 := by
  obtain ⟨hout, -, hrestart, -⟩ := State.calm_parts.mp hs
  obtain ⟨xs, hxs⟩ : ∃ xs, (allTwins.flatMap (fun t => s.heldOf t)).filter (fun x => (s.ctx x).started) = xs := ⟨_, rfl⟩
  rw [hxs] at hx
  obtain ⟨l, hl⟩ : ∃ l, xs.filter (fun x => (s.ctx x).submits && decide ((s.ctx x).sp Sr.sqt ≠ (s.ctx x).sp Sr.sqb)) = l := ⟨_, rfl⟩
  obtain ⟨u, hu⟩ : ∃ u, l.foldl (fun s x => s.submitTop x) s = u := ⟨_, rfl⟩
  have hall : Submitted s u l := hu ▸ Submitted.all l hw
  have hrow : s.termRound hb.toNat = u := by
    rw [State.termRound_runs hc h31 h30 h63 hxs, if_neg, hl, hu]
    rintro ⟨-, hquiet⟩
    have := List.all_eq_true.mp hquiet x hx
    simp [hsub, hne] at this
  have hmem : x ∈ l := hl ▸ List.mem_filter.mpr ⟨hx, by simp [hsub, hne]⟩
  obtain ⟨v, hv, hsettle⟩ := State.settle_aftermath (s := u) (by rw [hall.rest]; exact hout) (by rw [hall.rest]; exact hrestart)
  obtain ⟨w, hwake, hwrest, hwreg⟩ := v.checkWake_rest
  refine ⟨{ w with pending := s.pending }, ?_, ?_, ?_⟩
  · show fin s (s.termRound hb.toNat) = _
    rw [hrow, fin, hsettle, hwake]
  · show (w.ctx x).sp Sr.sqt = _
    have hctx : w.ctx x = v.ctx x := by rw [hwrest]; rfl
    rw [hctx, hv.queue, hall.top x (.inl hmem)]
  · show w.heapPhase hb.toNat = 1
    have hh : hb.toNat < 4 := hb.isLt
    have hreg : w.reg (oHeap hb.toNat + 0x20) = s.reg (oHeap hb.toNat + 0x20) := by
      rw [hwreg _ (by simp only [oHeap, oGc]; omega) (by simp only [oHeap, oGc]; omega), hv.reg _ (steadyReg_heapCtl _ hh), hall.rest]
      rfl
    rw [State.heapPhase, State.rf_congr hreg]
    exact hc

theorem State.termRound_ends {s : State} (hs : s.calm = true) {hb : BitVec 2} (hc : s.heapPhase hb.toNat = 1)
    (h31 : bit (s.heapCtl hb.toNat) 31 = true) (h30 : bit (s.heapCtl hb.toNat) 30 = true) (h63 : s.heapStat hb.toNat 63 = false) (hidle : s.enginesIdle = true)
    (hquiet : ∀ x ∈ (allTwins.flatMap (fun t => s.heldOf t)).filter (fun x => (s.ctx x).started), (s.ctx x).submits = true ∧ (s.ctx x).sp Sr.sqt = (s.ctx x).sp Sr.sqb)
    (hnone : (s.heapSt hb.toNat).atMark = []) :
    ∃ t, exec (.terminationRound hb) s = .next t ∧ t = { s with dev := t.dev, heaps := t.heaps } ∧
      (s.heapAuto hb.toNat = true → t.heapPhase hb.toNat = 2) ∧ (s.heapAuto hb.toNat = false → t.heapPhase hb.toNat = 1 ∧ t.heapStat hb.toNat 63 = true) := by
  obtain ⟨t, ht, hrest, hon, hoff⟩ := State.markEnds_empty hnone
  have hall : ((allTwins.flatMap (fun t => s.heldOf t)).filter (fun x => (s.ctx x).started)).all
      (fun x => (s.ctx x).submits && decide ((s.ctx x).sp Sr.sqt = (s.ctx x).sp Sr.sqb)) = true := by
    refine List.all_eq_true.mpr (fun x hx => ?_)
    obtain ⟨h1, h2⟩ := hquiet x hx
    simp [h1, h2]
  have hrow : s.termRound hb.toNat = t := by
    rw [State.termRound_runs hc h31 h30 h63 rfl, if_pos ⟨hidle, hall⟩, ht]
  refine ⟨t, ?_, hrest, hon, fun h => by rw [← hc]; exact hoff h⟩
  show fin s (s.termRound hb.toNat) = _
  rw [hrow, hrest]
  exact fin_calm hs rfl rfl rfl rfl rfl

/-- Settles O38: each phase by what its write or its row does. -/
theorem gcPhases : Obligations.GcPhases := by
  unfold Obligations.GcPhases
  intro s src hb v h o c hs hw hu hen
  refine ⟨fun hcan => ⟨State.writeMark_begins hs hen hcan, State.writeMark_refused hs hen hcan⟩, State.writeWeak_row hs hen, State.writeEvac_row hs hen hu,
    State.writeIdle_row hs hen hu, State.markActive_row hs hw, State.rootsSet_row hs hen, ?_, State.weakEnd_row hs hw hu⟩
  intro xs hc h31 h30 h63
  exact ⟨State.termRound_ends hs hc h31 h30 h63, fun x hx => State.termRound_submits hs hw hc h31 h30 h63 hx⟩

end Sys2Proof.Machine
end

section
/-!
PROOFS. Transactions and credits of the fabric (O34).
-/
namespace Sys2Proof.Machine

/-! ### Listed contexts -/

theorem Tbl.look_of_mem {α : Type} {t : Tbl α} (hn : (t.map (·.1)).Nodup) {e : Nat × α} (he : e ∈ t) : Tbl.look t e.1 = some e.2 := by
  induction t with
  | nil => cases he
  | cons f t ih =>
    rw [List.map_cons, List.nodup_cons] at hn
    rw [Tbl.look_cons]
    rcases List.mem_cons.mp he with rfl | he
    · rw [if_pos rfl]
    · rw [if_neg, ih hn.2 he]
      intro hk
      exact hn.1 (hk ▸ List.mem_map_of_mem he)

theorem State.ctx_of_mem {s : State} (hn : (s.ctxs.map (·.1)).Nodup) {e : Nat × Ctx} (he : e ∈ s.ctxs) : s.ctx e.1 = e.2 := by
  rw [State.ctx, Tbl.get, Tbl.look_of_mem hn he]
  rfl

theorem State.mem_of_run {s : State} {x : Nat} (h : (s.ctx x).run ≠ Ctx.reset.run) : (x, s.ctx x) ∈ s.ctxs := by
  cases hlook : Tbl.look s.ctxs x with
  | none =>
    rw [State.ctx, Tbl.get, hlook] at h
    exact absurd rfl h
  | some c =>
    have : s.ctx x = c := by rw [State.ctx, Tbl.get, hlook]; rfl
    rw [this]
    exact Tbl.mem_of_look hlook

/-- The entries of a list without repetition that satisfy what one entry alone does. -/
theorem filter_eq_one {α : Type} {l : List α} (hn : l.Nodup) {p : α → Bool} {a : α} (ha : a ∈ l) (hp : ∀ b ∈ l, p b = true ↔ b = a) : l.filter p = [a] := by
  have hmem : ∀ b ∈ l.filter p, b = a := fun b hb => (hp b (List.mem_filter.mp hb).1).mp (List.mem_filter.mp hb).2
  have hrep := List.eq_replicate_of_mem hmem
  have hone : (l.filter p).length = 1 := by
    have hnodup := hn.filter p
    rw [hrep] at hnodup
    have hle := List.nodup_replicate.mp hnodup
    have hpos : 0 < (l.filter p).length := List.length_pos_of_mem (List.mem_filter.mpr ⟨ha, (hp a ha).mpr rfl⟩)
    omega
  rw [hrep, hone]
  rfl

/-! ### What goes on after a response (R25, R27) -/

/-- One context waits for the transaction: it alone goes on. -/
theorem State.wakeTxn_one {s : State} (hn : (s.ctxs.map (·.1)).Nodup) {id x : Nat} (hx : ∀ y, (s.ctx y).run = .fabric id ↔ y = x) (g : Option Grant) :
    s.wakeTxn id g = s.setCtx x { s.ctx x with run := .run, grants := (s.ctx x).grants ++ g.toList } := by
  have hrun : (s.ctx x).run = .fabric id := (hx x).mpr rfl
  have hmem : (x, s.ctx x) ∈ s.ctxs := State.mem_of_run (by rw [hrun]; exact RunState.noConfusion)
  unfold State.wakeTxn
  rw [filter_eq_one (List.Nodup.of_map _ hn) hmem]
  · rfl
  · intro e he
    have hc := State.ctx_of_mem hn he
    constructor
    · intro hp
      have hex : e.1 = x := (hx e.1).mp (by rw [hc]; exact of_decide_eq_true hp)
      rw [← hex, hc]
    · rintro rfl
      exact decide_eq_true hrun

/-- A context that a held resource kept back tries again. -/
def Ctx.retried (c : Ctx) : Ctx := if c.run = .hold then { c with run := .run } else c

theorem State.ctx_wakeHold_retried {s : State} (hreal : ∀ e ∈ s.ctxs, e.2.run = .hold → s.ctx e.1 = e.2) (y : Nat) : (s.wakeHold.ctx y) = (s.ctx y).retried := by
  have hfold := ctx_foldl_idem (g := fun c => { c with run := .run }) (fun _ => rfl) ((s.ctxs.filter (fun e => e.2.run = .hold)).map (·.1)) s y
  rw [List.foldl_map] at hfold
  refine hfold.trans ?_
  have hiff : y ∈ (s.ctxs.filter (fun e => e.2.run = .hold)).map (·.1) ↔ (s.ctx y).run = .hold := by
    constructor
    · intro h
      obtain ⟨e, he, rfl⟩ := List.mem_map.mp h
      obtain ⟨hin, hrun⟩ := List.mem_filter.mp he
      have hrun := of_decide_eq_true hrun
      rw [hreal e hin hrun, hrun]
    · intro h
      exact List.mem_map.mpr ⟨_, List.mem_filter.mpr ⟨State.mem_of_run (by rw [h]; exact RunState.noConfusion), decide_eq_true h⟩, rfl⟩
  unfold Ctx.retried
  simp only [hiff]

/-- No request is held where none is listed. -/
theorem State.sendHeld_none {s : State} {h tgt : Nat} (hnone : ∀ v ∈ s.txns, v.st = .held → holderOf v.src ≠ h ∨ v.tgt ≠ tgt) (fuel : Nat) : State.sendHeld h tgt fuel s = s := by
  have hfilter : s.txns.filter (fun t => t.st = .held && holderOf t.src = h && t.tgt = tgt) = [] := by
    refine List.filter_eq_nil_iff.mpr (fun v hv => ?_)
    have := hnone v hv
    simp only [Bool.and_eq_true, decide_eq_true_eq, not_and]
    tauto
  have hnext : s.nextHeld h tgt = none := by
    unfold State.nextHeld
    dsimp only
    rw [hfilter]
    rfl
  cases fuel with
  | zero => rfl
  | succ fuel =>
    unfold State.sendHeld
    rw [hnext]

/-! ### The end of a transaction (R25 to R27) -/

/-- A transaction of the table, its context, and what the response leaves of the rest: no store of its source is on its way, and no request
is held for its credits. -/
structure Ending (s : State) (u : Txn) : Prop where
  quiet : s.calm = true
  apart : (s.ctxs.map (·.1)).Nodup
  waits : ∀ y, (s.ctx y).run = .fabric u.id ↔ y = u.x
  stores : s.txns.all (fun v => !v.stands u.src u.tgt u.id) = true
  credits : ∀ v ∈ s.txns, v.st = .held → holderOf v.src ≠ holderOf u.src ∨ v.tgt ≠ u.tgt

/-- The machine with transaction id out of the table. -/
def State.without (s : State) (id : Nat) : State := { s with txns := s.txns.filter (fun v => v.id ≠ id) }

variable {s : State} {u : Txn}

theorem Ending.arriveBefore (h : Ending s u) : s.arriveBefore u.src u.tgt u.id = s := by
  have hstands : ∀ v ∈ s.txns, v.stands u.src u.tgt u.id = false := fun v hv => by
    have := List.all_eq_true.mp h.stores v hv
    simpa using this
  have hsame : s.txns.map (fun v => if v.stands u.src u.tgt u.id then { v with arrived := true } else v) = s.txns := by
    refine (List.map_congr_left (fun v hv => ?_)).trans (List.map_id _)
    rw [hstands v hv]
    rfl
  unfold State.arriveBefore
  dsimp only
  rw [hsame, List.filter_eq_nil_iff.mpr (fun v hv => by simp [hstands v hv]), List.filterMap_nil, List.append_nil]
  exact State.settle_of_calm s h.quiet

/-- What the response wakes: the waiting context with its answer, and those that a held resource kept back. -/
theorem Ending.wakes (h : Ending s u) {b : State} (hctxs : b.ctxs = s.ctxs) (htxns : b.txns = s.txns.filter (fun v => v.id ≠ u.id)) (g : Grant) :
    let t := (State.sendHeld (holderOf u.src) u.tgt queueDepth (b.wakeTxn u.id (some g))).wakeHold
    t = { b with ctxs := t.ctxs } ∧ t.ctx u.x = { s.ctx u.x with grants := (s.ctx u.x).grants ++ [g], run := .run } ∧ ∀ y, y ≠ u.x → t.ctx y = (s.ctx y).retried := by
  have hctx : ∀ y, b.ctx y = s.ctx y := fun y => by rw [State.ctx, hctxs]; rfl
  obtain ⟨c, hc⟩ : ∃ c, b.wakeTxn u.id (some g) = c := ⟨_, rfl⟩
  have hone : c = b.setCtx u.x { s.ctx u.x with run := .run, grants := (s.ctx u.x).grants ++ [g] } := by
    rw [← hc, State.wakeTxn_one (by rw [hctxs]; exact h.apart) (fun y => by rw [hctx]; exact h.waits y), hctx]
    rfl
  have hsend : State.sendHeld (holderOf u.src) u.tgt queueDepth c = c := by
    refine State.sendHeld_none (fun v hv => h.credits v ?_) _
    rw [hone] at hv
    have hv : v ∈ b.txns := hv
    rw [htxns] at hv
    exact (List.mem_filter.mp hv).1
  have hcctx : ∀ y, c.ctx y = if u.x = y then { s.ctx u.x with run := .run, grants := (s.ctx u.x).grants ++ [g] } else s.ctx y := fun y => by
    rw [hone, State.ctx_setCtx, hctx]
  have hreal : ∀ e ∈ c.ctxs, e.2.run = .hold → c.ctx e.1 = e.2 := by
    intro e he hrun
    rw [hone] at he
    obtain rfl | he := Tbl.mem_of_mem_set (d := fun _ => Ctx.reset) he
    · cases hrun
    · rw [hctxs] at he
      have hreads := State.ctx_of_mem h.apart he
      rw [hcctx, if_neg, hreads]
      intro hx
      have hfabric := (h.waits u.x).mpr rfl
      rw [hx, hreads, hrun] at hfabric
      cases hfabric
  obtain ⟨cs, hcs⟩ := State.wakeHold_rest c
  dsimp only
  rw [hc, hsend]
  refine ⟨?_, ?_, fun y hy => ?_⟩
  · rw [hcs, hone]
    rfl
  · rw [State.ctx_wakeHold_retried hreal, hcctx, if_pos rfl]
    rfl
  · rw [State.ctx_wakeHold_retried hreal, hcctx, if_neg (Ne.symm hy)]

/-- A response that brings nothing but its answer: a miss that may go on, or an error. -/
theorem Ending.complete (h : Ending s u) (hst : u.kind ≠ .store) (hev : u.kind ≠ .evict) {r : Resp} {g : Grant} (hside : (s.without u.id).respSide u r = s.without u.id)
    (hg : respError r = some g ∨ respError r = none ∧ u.kind ≠ .load ∧ g = .done) :
    s.complete u r = (State.sendHeld (holderOf u.src) u.tgt queueDepth ((s.without u.id).wakeTxn u.id (some g))).wakeHold := by
  unfold State.complete
  rw [h.arriveBefore]
  dsimp only
  have hside : ({ s with txns := s.txns.filter (fun v => decide (v.id ≠ u.id)) } : State).respSide u r = s.without u.id := hside
  rw [hside]
  cases hk : u.kind with
  | store => exact absurd hk hst
  | evict => exact absurd hk hev
  | load =>
    obtain hg | ⟨-, hload, -⟩ := hg
    · rw [hg]
    · exact absurd hk hload
  | line =>
    obtain hg | ⟨hg, -, rfl⟩ := hg
    · rw [hg]
      rfl
    · rw [hg]
      rfl
  | fetch =>
    obtain hg | ⟨hg, -, rfl⟩ := hg
    · rw [hg]
      rfl
    · rw [hg]
      rfl

/-- Transaction u has left the table, and what it kept back goes on with its answer. -/
structure Completed (s : State) (u : Txn) (g : Grant) (t : State) : Prop where
  gone : t.txns = s.txns.filter (fun v => v.id ≠ u.id)
  waiter : t.ctx u.x = { s.ctx u.x with grants := (s.ctx u.x).grants ++ [g], run := .run }
  others : ∀ y, y ≠ u.x → t.ctx y = (s.ctx y).retried
  mem : t.mem = s.mem
  tags : t.tags = s.tags

theorem Ending.completes (h : Ending s u) (hst : u.kind ≠ .store) (hev : u.kind ≠ .evict) {r : Resp} {g : Grant} (hside : (s.without u.id).respSide u r = s.without u.id)
    (hg : respError r = some g ∨ respError r = none ∧ u.kind ≠ .load ∧ g = .done) :
    ∃ t, s.complete u r = t ∧ Completed s u g t ∧ t = { s with ctxs := t.ctxs, txns := t.txns } := by
  obtain ⟨hrest, hwaiter, hothers⟩ := h.wakes (b := s.without u.id) rfl rfl g
  refine ⟨_, h.complete hst hev hside hg, ⟨?_, hwaiter, hothers, ?_, ?_⟩, ?_⟩
  · rw [hrest]
    rfl
  · rw [hrest]
    rfl
  · rw [hrest]
    rfl
  · rw [hrest]
    rfl

/-- No eviction of the line is on its way. -/
theorem State.cancelEvict_none {s : State} {line : Nat} (h : s.evicting line = none) : (s.cancelEvict line).txns = s.txns := by
  refine List.filter_eq_self.mpr (fun v hv => ?_)
  have := List.find?_eq_none.mp h v hv
  simpa [imp_iff_not_or] using this

theorem State.evicting_congr {s v : State} (h : v.txns = s.txns) (line : Nat) : v.evicting line = s.evicting line := by rw [State.evicting, h]; rfl

theorem State.txns_l1dDrop {s : State} {line : Nat} (h : s.evicting line = none) (k : Nat) : (s.l1dDrop k line).txns = s.txns := by
  unfold State.l1dDrop
  split
  · rfl
  · dsimp only
    split
    · rfl
    · split
      · rfl
      · exact State.cancelEvict_none (s := s.updCore k _) h

theorem State.txns_foldl {β : Type} {f : State → β → State} {line : Nat} (hf : ∀ v b, v.evicting line = none → (f v b).txns = v.txns) (l : List β) :
    ∀ {s : State}, s.evicting line = none → (l.foldl f s).txns = s.txns := by
  induction l with
  | nil => exact fun {s} _ => rfl
  | cons b l ih =>
    intro s h
    have hb := hf s b h
    exact (ih ((State.evicting_congr hb line).trans h)).trans hb

theorem State.txns_cohRead {s : State} {line : Nat} (h : s.evicting line = none) (n : Option Nat) : (s.cohRead n line).txns = s.txns := by
  refine State.txns_foldl (fun v m hv => ?_) _ h
  have hdrop : (v.l1dDropAll m line).txns = v.txns := State.txns_foldl (fun v k hv => State.txns_l1dDrop hv k) _ hv
  have hnone : (v.l1dDropAll m line).evicting line = none := (State.evicting_congr hdrop line).trans hv
  split
  · rfl
  · split
    · rfl
    · dsimp only
      split
      · split
        · exact (State.cancelEvict_none (s := (v.l1dDropAll m line).updCluster m _) hnone).trans hdrop
        · exact hdrop
      · exact hdrop

/-- A load of memory brings the word there. -/
theorem Ending.loads (h : Ending s u) (hload : u.kind = .load) (hram : (s.region u.pa).isRam = true) (hw : s.noWindows) (hp : s.poisoned (s.key u.src u.pa / 64) = false)
    (hnone : s.evicting (s.key u.src u.pa / 64) = none) : ∃ t, fin s (s.complete u .good) = .next t ∧ Completed s u (.word (s.word (s.key u.src u.pa))) t := by
  obtain ⟨key, hkey⟩ : ∃ key, s.key u.src u.pa = key := ⟨_, rfl⟩
  rw [hkey] at hp hnone ⊢
  obtain ⟨a, ha⟩ : ∃ a, s.without u.id = a := ⟨_, rfl⟩
  have hnonea : a.evicting (key / 64) = none := by
    rw [← ha]
    refine List.find?_eq_none.mpr (fun v hv => ?_)
    exact List.find?_eq_none.mp hnone v (List.mem_filter.mp hv).1
  obtain ⟨b, hb⟩ : ∃ b, a.cohRead none (key / 64) = b := ⟨_, rfl⟩
  have htraffic : Traffic a b := hb ▸ (Traffic.refl a).cohRead none _
  have hcontents : b.contents = a.contents := hb ▸ State.contents_cohRead a none _
  have htxns : b.txns = s.txns.filter (fun v => v.id ≠ u.id) := by
    rw [← hb, State.txns_cohRead hnonea, ← ha]
    rfl
  obtain ⟨hmem, htags⟩ := Prod.mk.inj hcontents
  have hmems : b.mem = s.mem := hmem.trans (by rw [← ha]; rfl)
  have htagss : b.tags = s.tags := htags.trans (by rw [← ha]; rfl)
  have hanswer : a.loadAnswer u = (.word (s.word key), b) := by
    have hregion : a.region u.pa = s.region u.pa := by rw [← ha]; rfl
    have hka : a.key u.src u.pa = key := by rw [← hkey, ← ha]; rfl
    have hpa : a.poisoned (key / 64) = false := by rw [← hp, ← ha]; rfl
    have hwa : a.noWindows := by rw [← ha]; exact hw
    have hmain : (if a.poisoned (a.key u.src u.pa / 64) then (Grant.poison, a) else
        (.word (((a.confirmLine (a.key u.src u.pa / 64)).cohRead none (a.key u.src u.pa / 64)).word (a.key u.src u.pa)),
          (a.confirmLine (a.key u.src u.pa / 64)).cohRead none (a.key u.src u.pa / 64))) = (.word (s.word key), b) := by
      rw [hka, hpa, if_neg (by decide), Traffic.confirmLine hwa, hb, State.word_congr hmems htagss]
    unfold State.loadAnswer
    rw [hregion]
    cases hr : s.region u.pa with
    | dev off =>
      rw [hr] at hram
      cases hram
    | pcie c =>
      rw [hr] at hram
      cases hram
    | _ => exact hmain
  have hctxs : b.ctxs = s.ctxs := by
    rw [htraffic.rest, ← ha]
    rfl
  obtain ⟨hrest, hwaiter, hothers⟩ := h.wakes (b := b) hctxs htxns (.word (s.word key))
  obtain ⟨t, ht⟩ : ∃ t, (State.sendHeld (holderOf u.src) u.tgt queueDepth (b.wakeTxn u.id (some (.word (s.word key))))).wakeHold = t := ⟨_, rfl⟩
  rw [ht] at hrest hwaiter hothers
  have hcomplete : s.complete u .good = t := by
    unfold State.complete
    rw [h.arriveBefore, hload]
    dsimp only [respError]
    have hside : ({ s with txns := s.txns.filter (fun v => decide (v.id ≠ u.id)) } : State).respSide u .good = a := ha
    rw [hside, hanswer, ← ht]
  refine ⟨t, ?_, ?_, hwaiter, hothers, ?_, ?_⟩
  · rw [hcomplete]
    refine fin_next ?_ ?_
    · rw [hrest]
      refine (State.calm_congr (s := b) rfl rfl rfl rfl).trans (htraffic.calm ?_)
      rw [← ha]
      exact h.quiet
    · rw [hrest, htraffic.rest, ← ha]
      rfl
  · rw [hrest]
    exact htxns
  · rw [hrest]
    exact hmems
  · rw [hrest]
    exact htagss

/-! ### Telemetry of the fabric (R25, R26) -/

/-- What is recorded stands in the ring. -/
theorem State.telem_records (s : State) (src code : Nat) (addr extra : Pay) : ∃ r ∈ (s.telem src code addr extra).bgs.tel, r.src = src ∧ r.code = code := by
  unfold State.telem
  dsimp only
  split
  · next hany =>
    obtain ⟨r, hr, hnear⟩ := List.any_eq_true.mp hany
    obtain ⟨hcodes, -⟩ := Bool.and_eq_true_iff.mp hnear
    obtain ⟨hsrc, hcode⟩ := Bool.and_eq_true_iff.mp hcodes
    refine ⟨_, List.mem_map_of_mem hr, ?_⟩
    rw [if_pos hnear]
    exact ⟨of_decide_eq_true hsrc, of_decide_eq_true hcode⟩
  · obtain ⟨r, hr⟩ : ∃ r : TelRec, (⟨s.rf (oBgs + 0x30) 31 0, src, code, 1, s.time, addr, extra⟩ : TelRec) = r := ⟨_, rfl⟩
    rw [hr]
    refine ⟨r, ?_, by rw [← hr], by rw [← hr]⟩
    show r ∈ (if (s.bgs.tel ++ [r]).length > 4096 then (s.bgs.tel ++ [r]).drop 1 else s.bgs.tel ++ [r])
    split
    · next hlong =>
      rw [List.drop_append_of_le_length]
      · exact List.mem_append_right _ (List.mem_singleton_self r)
      · rw [List.length_append, List.length_singleton] at hlong
        omega
    · exact List.mem_append_right _ (List.mem_singleton_self r)

/-- A timeout answers with an error and is recorded. -/
theorem Ending.expires (h : Ending s u) (hst : u.kind ≠ .store) (hev : u.kind ≠ .evict) :
    ∃ t, fin s ((s.timeTo (u.time + p64 (fabricLimit + fabricCycle))).expire u) = .next t ∧ Completed s u .error t ∧
      t = { s with ctxs := t.ctxs, txns := t.txns, dev := t.dev, bgs := t.bgs, time := t.time } ∧
      s.time.toNat ≤ t.time.toNat ∧ (u.time + 50000001).toNat ≤ t.time.toNat ∧ ∃ r ∈ t.bgs.tel, r.src = u.src ∧ r.code = telFabTo := by
  obtain ⟨a, ha⟩ : ∃ a, s.timeTo (u.time + p64 (fabricLimit + fabricCycle)) = a := ⟨_, rfl⟩
  have has : a = { s with time := a.time } ∧ s.time.toNat ≤ a.time.toNat ∧ (u.time + 50000001).toNat ≤ a.time.toNat := by
    rw [← ha, State.timeTo]
    split
    · next hlt => exact ⟨rfl, Nat.le_of_lt hlt, le_refl _⟩
    · next hle => exact ⟨rfl, le_refl _, Nat.le_of_not_lt hle⟩
  obtain ⟨has, htime, hlimit⟩ := has
  obtain ⟨d, l, hb⟩ := a.telem_rest u.src telFabTo (p64 u.pa) 0
  obtain ⟨r, hr, hrsrc⟩ := a.telem_records u.src telFabTo (p64 u.pa) 0
  obtain ⟨b, hbb⟩ : ∃ b, a.telem u.src telFabTo (p64 u.pa) = b := ⟨_, rfl⟩
  rw [hbb] at hb hr
  have hbs : b = { s with dev := d, bgs := { s.bgs with tel := l }, time := a.time } := by rw [hb, has]
  have hending : Ending b u := by
    rw [hbs]
    exact ⟨(State.calm_congr rfl rfl rfl rfl).trans h.quiet, h.apart, h.waits, h.stores, h.credits⟩
  obtain ⟨t, ht, hdone, hrest⟩ := hending.completes hst hev (r := .error) (g := .error) rfl (.inl rfl)
  have hts : t = { s with ctxs := t.ctxs, txns := t.txns, dev := t.dev, bgs := t.bgs, time := t.time } := by rw [hrest, hbs]
  refine ⟨t, ?_, ⟨?_, ?_, fun y hy => ?_, ?_, ?_⟩, hts, ?_, ?_, r, ?_, hrsrc⟩
  · rw [ha]
    unfold State.expire
    rw [hbb, ht, hts]
    exact fin_calm h.quiet rfl rfl rfl rfl rfl
  · rw [hdone.gone, hbs]
  · rw [hdone.waiter, hbs]
    rfl
  · rw [hdone.others y hy, hbs]
    rfl
  · rw [hdone.mem, hbs]
  · rw [hdone.tags, hbs]
  · rw [hrest, hbs]
    exact htime
  · rw [hrest, hbs]
    exact hlimit
  · rw [hrest]
    exact hr

/-! ### Entries of the Transaction Table (R22 to R24) -/

/-- The round robin chooses, and no other of the list comes earlier in turn. -/
theorem roundRobin_some {α : Type} (src : α → Nat) (last : Nat) {ts : List α} (hne : ts ≠ []) : ∃ w ∈ ts, roundRobin src last ts = some w ∧
    ∀ v ∈ ts, turnOf last (src w) ≤ turnOf last (src v) := by
  induction ts with
  | nil => exact absurd rfl hne
  | cons t ts ih =>
    rw [roundRobin]
    cases ts with
    | nil =>
      refine ⟨t, List.mem_cons_self, rfl, fun v hv => ?_⟩
      rw [List.mem_singleton.mp hv]
    | cons a ts =>
      obtain ⟨w, hw, hnext, hleast⟩ := ih (List.cons_ne_nil _ _)
      rw [hnext]
      dsimp only
      by_cases hlt : turnOf last (src w) < turnOf last (src t)
      · refine ⟨w, List.mem_cons_of_mem _ hw, if_pos hlt, fun v hv => ?_⟩
        rcases List.mem_cons.mp hv with rfl | hv
        · omega
        · exact hleast v hv
      · refine ⟨t, List.mem_cons_self, if_neg hlt, fun v hv => ?_⟩
        rcases List.mem_cons.mp hv with rfl | hv
        · omega
        · have := hleast v hv
          omega

/-! ### Credits (R16, R17, R33) -/

theorem State.newEntry_not_held (s : State) (h : Nat) : s.newEntry h ≠ .held := by
  have hentry : s.entryFor h ≠ .held := by
    unfold State.entryFor
    split
    · exact TxnSt.noConfusion
    · split <;> exact TxnSt.noConfusion
  unfold State.newEntry
  split
  · exact TxnSt.noConfusion
  · split
    · split <;> exact TxnSt.noConfusion
    · exact hentry

/-- The queue without its oldest message. -/
def State.freed (s : State) (q : Nat) : State := { s with queues := Tbl.set (fun _ => []) s.queues q ((s.queue q).drop 1) }

theorem State.queue_freed (s : State) (q k : Nat) : (s.freed q).queue k = if q = k then (s.queue q).drop 1 else s.queue k := Tbl.get_set _ _ _ _ _

/-- One request is held for the credits returned: it goes out. -/
theorem State.sendHeld_one {s : State} {h tgt : Nat} {u : Txn} (hheld : s.txns.filter (fun t => t.st = .held && holderOf t.src = h && t.tgt = tgt) = [u])
    (hroom : (s.queue (creditKey 0 h tgt)).sum + reqFlits u.kind u.width ≤ queueDepth)
    (hrsp : s.rspUse h + rspFlits u.kind ≤ rspDepth h) (fuel : Nat) :
    ∃ t, State.sendHeld h tgt (fuel + 1) s = t ∧ t = { s with queues := t.queues, txns := t.txns, lastSent := t.lastSent } ∧
      t.queue (creditKey 0 h tgt) = s.queue (creditKey 0 h tgt) ++ [reqFlits u.kind u.width] ∧
      t.txns = s.txns.map (fun v => if v.id = u.id then { v with st := s.newEntry h, time := s.time } else v) := by
  have hnext : s.nextHeld h tgt = some u := by
    unfold State.nextHeld
    dsimp only
    rw [hheld]
    show Option.filter _ (some u) = some u
    rw [Option.filter, if_pos]
    simp [hroom, hrsp]
  obtain ⟨a, ha⟩ : ∃ a, (s.enqueue (creditKey 0 h tgt) (reqFlits u.kind u.width)).enter u.id (s.newEntry h) = a := ⟨_, rfl⟩
  obtain ⟨b, hb⟩ : ∃ b : State, { a with lastSent := Tbl.set (fun _ => 255) a.lastSent (creditKey 0 h tgt) u.src } = b := ⟨_, rfl⟩
  have htxns : b.txns = s.txns.map (fun v => if v.id = u.id then { v with st := s.newEntry h, time := s.time } else v) := by
    rw [← hb, ← ha]
    rfl
  have hnone : ∀ v ∈ b.txns, v.st = .held → holderOf v.src ≠ h ∨ v.tgt ≠ tgt := by
    intro v hv hst
    rw [htxns] at hv
    obtain ⟨w, hw, rfl⟩ := List.mem_map.mp hv
    by_cases hid : w.id = u.id
    · rw [if_pos hid] at hst
      exact absurd hst (s.newEntry_not_held h)
    · rw [if_neg hid] at hst ⊢
      by_contra hboth
      rw [not_or, not_not, not_not] at hboth
      have hin : w ∈ s.txns.filter (fun t => t.st = .held && holderOf t.src = h && t.tgt = tgt) := List.mem_filter.mpr ⟨hw, by simp [hst, hboth.1, hboth.2]⟩
      rw [hheld] at hin
      exact hid (by rw [List.mem_singleton.mp hin])
  refine ⟨b, ?_, ?_, ?_, htxns⟩
  · rw [State.sendHeld, hnext]
    dsimp only
    rw [ha, hb]
    exact State.sendHeld_none hnone fuel
  · rw [← hb, ← ha]
    rfl
  · rw [← hb, ← ha]
    exact Tbl.get_set_self _ _ _ _

/-- Settles O34: responses and timeouts through the end of a transaction, entries and credits each on their own. -/
theorem fabricTransactions : Obligations.FabricTransactions := by
  unfold Obligations.FabricTransactions
  intro s hs
  refine ⟨fun id u hfind htable hst hev hn hx hstores hheld => ?_, fun id hfind hlt => ?_, fun hne => ?_, fun src tgt cls => ?_, fun src tgt u => ?_⟩
  · intro back woken
    have hid : decide (u.id = id) = true := List.find?_some (p := fun t : Txn => decide (t.id = id)) hfind
    obtain rfl : u.id = id := of_decide_eq_true hid
    have h : Ending s u := ⟨hs, hn, hx, hstores, hheld⟩
    have hresponse : ∀ r, exec (.responseDelivery u.id r) s = fin s (s.complete u r) := fun r => by
      show fin s (s.response u.id r) = _
      unfold State.response
      rw [hfind]
      dsimp only
      rw [if_pos htable]
    have hwoken : ∀ {g t}, Completed s u g t → woken t g := fun hc => ⟨hc.gone, hc.waiter, hc.others, hc.mem, hc.tags⟩
    have hanswer : ∀ r g, (s.without u.id).respSide u r = s.without u.id → (respError r = some g ∨ respError r = none ∧ u.kind ≠ .load ∧ g = .done) →
        ∃ t, exec (.responseDelivery u.id r) s = .next t ∧ woken t g ∧ t = { s with ctxs := t.ctxs, txns := t.txns } := by
      intro r g hside hg
      obtain ⟨t, ht, hdone, hrest⟩ := h.completes hst hev hside hg
      refine ⟨t, ?_, hwoken hdone, hrest⟩
      rw [hresponse, ht, hrest]
      exact fin_calm hs rfl rfl rfl rfl rfl
    refine ⟨fun hload => hanswer .good .done rfl (.inr ⟨rfl, hload, rfl⟩), fun hload hram hw hp hnone => ?_, hanswer .error .error rfl (.inl rfl),
      hanswer .doubleBit .doubleBit rfl (.inl rfl), ?_⟩
    · obtain ⟨t, ht, hdone⟩ := h.loads hload hram hw hp hnone
      exact ⟨t, (hresponse .good).trans ht, hwoken hdone⟩
    · obtain ⟨t, ht, hdone, hrest⟩ := h.expires hst hev
      refine ⟨t, ?_, hwoken hdone, hrest⟩
      rw [← ht]
      show fin s (s.fabricTimeout u.id) = _
      unfold State.fabricTimeout
      rw [hfind]
      dsimp only
      rw [if_pos htable]
  · obtain ⟨d, b, ht⟩ := s.telem_rest 0x51 telLate (p64 id) 0
    obtain ⟨r, hr, hsrc⟩ := s.telem_records 0x51 telLate (p64 id) 0
    obtain ⟨t, htt⟩ : ∃ t, s.telem 0x51 telLate (p64 id) = t := ⟨_, rfl⟩
    rw [htt] at ht hr
    refine ⟨t, ?_, by rw [ht], r, hr, hsrc⟩
    have hrow : exec (.responseDelivery id .good) s = fin s t := by
      show fin s (s.response id .good) = _
      unfold State.response
      rw [hfind]
      dsimp only
      rw [if_pos hlt, htt]
    rw [hrow, ht]
    exact fin_calm hs rfl rfl rfl rfl rfl
  · obtain ⟨w, hw, hnext, hleast⟩ := roundRobin_some Txn.src s.lastGrant hne
    refine ⟨w, hw, hleast, ?_⟩
    show fin s s.grantEntry = _
    have hgrant : s.grantEntry = { s.enter w.id (s.entryFor (holderOf w.src)) with lastGrant := w.src } := by
      unfold State.grantEntry nextWaiter
      rw [hnext]
    rw [hgrant]
    exact fin_calm hs rfl rfl rfl rfl rfl
  · intro q hnone
    have hsend : State.sendHeld (holderOf src.toNat) tgt.toNat queueDepth (s.freed q) = s.freed q := by
      refine State.sendHeld_none (fun v hv hst => ?_) _
      by_cases hsrc : holderOf v.src = holderOf src.toNat
      · exact .inr (hnone v hv hst hsrc)
      · exact .inl hsrc
    refine ⟨s.freed q, ?_, rfl, by rw [State.queue_freed, if_pos rfl], fun k hk => by rw [State.queue_freed, if_neg (Ne.symm hk)]⟩
    show fin s (if classNo cls = 0 then State.sendHeld (holderOf src.toNat) tgt.toNat queueDepth (s.freed q) else s.freed q) = _
    rw [hsend, ite_self]
    exact fin_calm hs rfl rfl rfl rfl rfl
  · intro h q hheld _ hroom hrsp
    have hq : (s.freed q).queue q = (s.queue q).drop 1 := by rw [State.queue_freed, if_pos rfl]
    obtain ⟨t, ht, hrest, hqueue, htxns⟩ := State.sendHeld_one (s := s.freed q) (h := h) hheld (by rw [hq]; exact hroom) hrsp 15
    refine ⟨t, ?_, hrest, hqueue.trans (by rw [hq]), htxns⟩
    show fin s (State.sendHeld h tgt.toNat queueDepth (s.freed q)) = _
    rw [ht, hrest]
    exact fin_calm hs rfl rfl rfl rfl rfl

end Sys2Proof.Machine
end

section
/-!
PROOFS. The hold-up node and its certification tests (O54, R685, R692, R698).
-/
namespace Sys2Proof.Machine

/-! ### PWR_STAT (R701) -/

theorem State.pwrStat_setPwrStat (s : State) {b : Nat} (v : Bool) (c : Nat) (hb : b < 64) : (s.setPwrStat b v).pwrStat c = if b = c then v else s.pwrStat c := by
  rw [State.pwrStat, State.setPwrStat, State.reg_setReg_self]
  split
  · next h => rw [← h, bit_setBit_self _ _ _ hb]
  · next h => exact bit_setBit_ne _ _ _ _ hb h

theorem State.pwrStat_setRf (s : State) {hi lo : Nat} (v : Nat) {c : Nat} (h : hi < 64) (hl : lo ≤ hi) (hd : c < lo ∨ hi < c) :
    (s.setRf (oPwr + 0x18) hi lo v).pwrStat c = s.pwrStat c := State.bit_setRf_apart s _ v h hl hd

theorem State.rf_setPwrStat (s : State) {b : Nat} (v : Bool) {hi lo : Nat} (hb : b < 64) (hd : hi < b ∨ b < lo) :
    (s.setPwrStat b v).rf (oPwr + 0x18) hi lo = s.rf (oPwr + 0x18) hi lo := State.rf_setReg_bit s _ v hb hd

theorem RegsOnly.setPwrStat (s : State) (b : Nat) (v : Bool) : RegsOnly s [oPwr + 0x18] (s.setPwrStat b v) := RegsOnly.setReg s _ _

theorem RegsOnly.pwrStat {s t : State} {os : List Nat} (h : RegsOnly s os t) (hno : oPwr + 0x18 ∉ os) (b : Nat) : t.pwrStat b = s.pwrStat b := by
  rw [State.pwrStat, h.others _ hno]
  rfl

/-- The settings of the node follow their registers. -/
theorem RegsOnly.settings {s t : State} {os : List Nat} (h : RegsOnly s os t) (h1 : oPwr + 0x28 ∉ os) (h2 : oPwr + 0x20 ∉ os) :
    t.vcut = s.vcut ∧ t.vok = s.vok ∧ t.vtest = s.vtest ∧ t.need = s.need := by
  unfold State.vcut State.vok State.vtest State.need
  rw [State.rf_congr (h.others _ h1), State.rf_congr (h.others _ h1), State.rf_congr (h.others _ h1), State.rf_congr (h.others _ h2)]
  exact ⟨rfl, rfl, rfl, rfl⟩

theorem RegsOnly.certSync (s : State) : RegsOnly s [oPwr + 0x18] s.certSync := by
  unfold State.certSync
  split
  · exact RegsOnly.refl s _
  · exact RegsOnly.setPwrStat s _ _

theorem State.pwrStat_certSync (s : State) {b : Nat} (hb : b ≠ 63) : s.certSync.pwrStat b = s.pwrStat b := by
  unfold State.certSync
  split
  · rfl
  · rw [State.pwrStat_setPwrStat _ _ _ (by decide), if_neg (Ne.symm hb)]

theorem State.rf_certSync (s : State) {hi lo : Nat} (hd : hi < 63) : s.certSync.rf (oPwr + 0x18) hi lo = s.rf (oPwr + 0x18) hi lo := by
  unfold State.certSync
  split
  · rfl
  · exact State.rf_setPwrStat s _ (by decide) (.inl hd)

/-- CERT without a test under way. -/
theorem State.cert_certSync {s : State} (h : s.pwr.test = none) :
    s.certSync.pwrStat 63 = (s.pwrStat 62 && decide (s.need ≤ s.rf (oPwr + 0x18) 31 0) && !s.pwr.pfw && decide (s.vok ≤ s.vhold)) := by
  unfold State.certSync
  rw [h, if_neg (by decide), State.pwrStat_setPwrStat _ _ _ (by decide), if_pos rfl]

/-! ### Certification tests (R698) -/

/-- The machine with a test begun. -/
theorem State.testStarts_starts {s : State} (ht : s.pwr.test = none) (hr : s.sys.inReset = false) (hp : s.pwr.pfw = false) (hg : s.pwr.glaze = none) :
    ∃ t, s.testStarts = t ∧ t.pwrStat 61 = true ∧ RegsOnly { s with pwr := { s.pwr with test := some ⟨s.vhold, s.time⟩, due := false, retryAt := none } } [oPwr + 0x18] t := by
  obtain ⟨a, ha⟩ : ∃ a, s.setPwrStat 61 true = a := ⟨_, rfl⟩
  have hregs : RegsOnly s [oPwr + 0x18] a := ha ▸ RegsOnly.setPwrStat s _ _
  refine ⟨a.updPwr (fun p => { p with test := some ⟨s.vhold, s.time⟩, due := false, retryAt := none }), ?_, ?_, ?_, fun off ho => hregs.others off ho⟩
  · unfold State.testStarts
    rw [ht, hr, hp, hg, if_neg (by simp), if_neg (by simp), ha]
  · show a.pwrStat 61 = true
    rw [← ha, State.pwrStat_setPwrStat _ _ _ (by decide), if_pos rfl]
  · rw [hregs.rest]
    rfl

theorem State.timeTo_reaches (s : State) (m : Pay) : ∃ t, s.timeTo m = t ∧ t = { s with time := t.time } ∧ s.time.toNat ≤ t.time.toNat ∧ m.toNat ≤ t.time.toNat := by
  refine ⟨_, rfl, ?_⟩
  unfold State.timeTo
  split
  · next hlt => exact ⟨rfl, Nat.le_of_lt hlt, le_refl _⟩
  · next hle => exact ⟨rfl, le_refl _, Nat.le_of_not_lt hle⟩

theorem State.blockStore_pwrCtl (s : State) (src x : Nat) (v : Pay) : s.blockStore src x (oPwr + 0x10) v = s.pwrStore src 0x10 v := rfl

theorem State.pwrCtl_written (s : State) (v : Pay) : RegsOnly s [oPwr + 0x10] (s.plainWrite (oPwr + 0x10) v) := by
  unfold State.plainWrite
  rw [if_neg (by decide)]
  split
  · exact RegsOnly.refl s _
  · exact RegsOnly.setReg s _ _

theorem State.testgo_row {s : State} (hs : s.calm = true) (hr : s.sys.inReset = false) (ht : s.pwr.test = none) (hp : s.pwr.pfw = false) (hg : s.pwr.glaze = none)
    {src : Src} {v : Pay} (hw : s.canWrite src (oPwr + 0x10) (setBit v 63 true) = true) (hsrc : src.code.toNat < 4) :
    ∃ t, exec (.testgo src v) s = .next t ∧ t.pwrStat 61 = true ∧
      t = { s with dev := t.dev, pwr := { s.pwr with test := some ⟨s.vhold, s.time⟩, due := false, retryAt := none } } := by
  have hregs := s.pwrCtl_written (setBit v 63 true)
  obtain ⟨a, ha⟩ : ∃ a, s.plainWrite (oPwr + 0x10) (setBit v 63 true) = a := ⟨_, rfl⟩
  rw [ha] at hregs
  obtain ⟨t, hstart, h61, hregt⟩ := State.testStarts_starts (s := a) (by rw [hregs.rest]; exact ht) (by rw [hregs.rest]; exact hr) (by rw [hregs.rest]; exact hp)
    (by rw [hregs.rest]; exact hg)
  have hvhold : a.vhold = s.vhold := State.rf_congr (hregs.others (oPwr + 0x18) (by decide)) _ _
  have hrest : t = { s with dev := t.dev, pwr := { s.pwr with test := some ⟨s.vhold, s.time⟩, due := false, retryAt := none } } := by
    rw [hregt.rest, hvhold, hregs.rest]
  have hstore : s.blockStore src.code.toNat src.x.toNat (oPwr + 0x10) (setBit v 63 true) = t := by
    rw [State.blockStore_pwrCtl]
    unfold State.pwrStore
    rw [if_neg (by decide), if_neg (by omega), if_pos rfl]
    dsimp only
    rw [ha, bit_setBit_self _ _ _ (by decide), if_pos rfl, hstart]
  refine ⟨t, exec_store rfl hs hw hstore ?_ ?_, h61, hrest⟩
  · rw [hrest]
    exact (State.calm_congr rfl rfl rfl rfl).trans hs
  · rw [hrest]

/-- A test that begins at a moment. -/
theorem State.testAt_row {s : State} (hs : s.calm = true) (hr : s.sys.inReset = false) (ht : s.pwr.test = none) (hp : s.pwr.pfw = false) (hg : s.pwr.glaze = none)
    {c : Instr} {m : Pay} (hrow : exec c s = fin s (s.timeTo m).testStarts) :
    ∃ t, exec c s = .next t ∧ m.toNat ≤ t.time.toNat ∧ t.pwrStat 61 = true ∧
      t = { s with dev := t.dev, time := t.time, pwr := { s.pwr with test := some ⟨s.vhold, t.time⟩, due := false, retryAt := none } } := by
  obtain ⟨a, ha, has, -, hm⟩ := s.timeTo_reaches m
  obtain ⟨t, hstart, h61, hregt⟩ := State.testStarts_starts (s := a) (by rw [has]; exact ht) (by rw [has]; exact hr) (by rw [has]; exact hp) (by rw [has]; exact hg)
  have hvhold : a.vhold = s.vhold := by rw [has]; rfl
  have htime : t.time = a.time := by rw [hregt.rest]
  have hrest : t = { s with dev := t.dev, time := t.time, pwr := { s.pwr with test := some ⟨s.vhold, t.time⟩, due := false, retryAt := none } } := by
    rw [htime, hregt.rest, hvhold, has]
  refine ⟨t, ?_, by rw [htime]; exact hm, h61, hrest⟩
  rw [hrow, ha, hstart, hrest]
  exact fin_calm hs rfl rfl rfl rfl rfl

theorem State.testDue_row {s : State} (hs : s.calm = true) (hr : s.sys.inReset = false) (ht : s.pwr.test = none) (hp : s.pwr.pfw = false) (hg : s.pwr.glaze = none)
    {t0 : Pay} (hdue : s.pwr.due = true) (hok : s.pwr.okSince = some t0) :
    ∃ t, exec .certTestDue s = .next t ∧ (t0 + 100000000).toNat ≤ t.time.toNat ∧ t.pwrStat 61 = true ∧
      t = { s with dev := t.dev, time := t.time, pwr := { s.pwr with test := some ⟨s.vhold, t.time⟩, due := false, retryAt := none } } := by
  refine State.testAt_row hs hr ht hp hg ?_
  show fin s s.testDue = _
  unfold State.testDue
  rw [hr, ht, if_neg (by simp)]
  dsimp only
  rw [if_pos hdue]
  dsimp only
  rw [hp, hg, if_neg (by simp), hok]
  dsimp only
  rw [if_pos hdue]

theorem State.testRetry_row {s : State} (hs : s.calm = true) (hr : s.sys.inReset = false) (ht : s.pwr.test = none) (hp : s.pwr.pfw = false) (hg : s.pwr.glaze = none)
    {tm : Pay} (hretry : s.pwr.retryAt = some tm) :
    ∃ t, exec .certTestRetry s = .next t ∧ tm.toNat ≤ t.time.toNat ∧ t.pwrStat 61 = true ∧
      t = { s with dev := t.dev, time := t.time, pwr := { s.pwr with test := some ⟨s.vhold, t.time⟩, due := false, retryAt := none } } := by
  refine State.testAt_row hs hr ht hp hg ?_
  show fin s s.testRetries = _
  unfold State.testRetries
  rw [hretry]

theorem State.testEnd_passes {s : State} (hs : s.calm = true) {tt : CertTest} {eout : BitVec 32} {v2 : BitVec 16} (ht : s.pwr.test = some tt) (h1 : v2.toNat + 20 ≤ tt.v1)
    (h2 : s.vtest + 20 ≤ tt.v1) :
    let e := min (2 ^ 32 - 1) (eout.toNat * 743900 / (tt.v1 * tt.v1 - v2.toNat * v2.toNat))
    ∃ t, exec (.certTestEnd eout v2) s = .next t ∧ t.rf (oPwr + 0x18) 31 0 = e ∧ t.pwrStat 62 = decide (s.need ≤ e) ∧
      t.pwrStat 61 = false ∧ t.vhold = v2.toNat ∧ t = { s with dev := t.dev, pwr := { s.pwr with test := none, lastTest := some tt.start } } := by
  intro e
  have he : e < 2 ^ 32 := by
    have : e ≤ 2 ^ 32 - 1 := Nat.min_le_left _ _
    omega
  obtain ⟨a, ha⟩ : ∃ a, s.setRf (oPwr + 0x18) 47 32 v2.toNat = a := ⟨_, rfl⟩
  obtain ⟨b, hb⟩ : ∃ b, a.setRf (oPwr + 0x18) 31 0 e = b := ⟨_, rfl⟩
  obtain ⟨c, hc⟩ : ∃ c, (b.setPwrStat 62 (decide (a.need ≤ e))).setPwrStat 61 false = c := ⟨_, rfl⟩
  have hrega : RegsOnly s [oPwr + 0x18] a := ha ▸ RegsOnly.setRf s _ _ _ _
  have hregb : RegsOnly a [oPwr + 0x18] b := hb ▸ RegsOnly.setRf a _ _ _ _
  have hregc : RegsOnly b [oPwr + 0x18] c := hc ▸ ((RegsOnly.setPwrStat b _ _).trans (RegsOnly.setPwrStat _ _ _)).mono (by simp)
  have hregs : RegsOnly s [oPwr + 0x18] c := ((hrega.trans hregb).trans hregc).mono (by simp)
  obtain ⟨-, -, hvtest, hneed⟩ := hrega.settings (by decide) (by decide)
  obtain ⟨d, hd⟩ : ∃ d, c.updPwr (fun p => { p with test := none, lastTest := some tt.start }) = d := ⟨_, rfl⟩
  have hrow : exec (.certTestEnd eout v2) s = fin s d.certSync := by
    show fin s (s.testEnds eout.toNat v2.toNat) = _
    unfold State.testEnds
    rw [ht]
    dsimp only
    rw [ha, hvtest, if_neg (by omega)]
    have : min (2 ^ 32 - 1) (eout.toNat * 743900 / (tt.v1 * tt.v1 - v2.toNat * v2.toNat)) = e := rfl
    rw [this, hb, hc, hd]
  have hsync := RegsOnly.certSync d
  have hrest : d.certSync = { s with dev := d.certSync.dev, pwr := { s.pwr with test := none, lastTest := some tt.start } } := by
    rw [hsync.rest, ← hd, hregs.rest]
    rfl
  have hstat : ∀ m, m ≠ 63 → d.certSync.pwrStat m = c.pwrStat m := fun m hm => by rw [State.pwrStat_certSync _ hm, ← hd]; rfl
  have hfld : ∀ hi lo, hi < 61 → d.certSync.rf (oPwr + 0x18) hi lo = b.rf (oPwr + 0x18) hi lo := fun hi lo hhi => by
    rw [State.rf_certSync _ (by omega), ← hd]
    show c.rf (oPwr + 0x18) hi lo = _
    rw [← hc, State.rf_setPwrStat _ _ (by decide) (by omega), State.rf_setPwrStat _ _ (by decide) (by omega)]
  refine ⟨d.certSync, ?_, ?_, ?_, ?_, ?_, hrest⟩
  · rw [hrow, hrest]
    exact fin_calm hs rfl rfl rfl rfl rfl
  · rw [hfld 31 0 (by decide), ← hb, State.rf_setRf_self _ _ _ _ _ (by decide) (by decide)]
    exact Nat.mod_eq_of_lt he
  · rw [hstat 62 (by decide), ← hc, State.pwrStat_setPwrStat _ _ _ (by decide), if_neg (by decide), State.pwrStat_setPwrStat _ _ _ (by decide), if_pos rfl, hneed]
  · rw [hstat 61 (by decide), ← hc, State.pwrStat_setPwrStat _ _ _ (by decide), if_pos rfl]
  · rw [State.vhold, hfld 47 32 (by decide), ← hb, State.rf_setRf_apart _ _ _ (by decide) (by decide) (by decide), ← ha, State.rf_setRf_self _ _ _ _ _ (by decide) (by decide)]
    exact Nat.mod_eq_of_lt v2.isLt

theorem State.testEnd_aborts {s : State} (hs : s.calm = true) {tt : CertTest} {eout : BitVec 32} {v2 : BitVec 16} (ht : s.pwr.test = some tt)
    (hfell : tt.v1 < v2.toNat + 20 ∨ tt.v1 < s.vtest + 20) :
    ∃ t, exec (.certTestEnd eout v2) s = .next t ∧ t.pwrStat 58 = true ∧ t.pwrStat 61 = false ∧
      t = { s with dev := t.dev, pwr := { s.pwr with test := none, retryAt := some (s.time + 60000000000) } } := by
  obtain ⟨a, ha⟩ : ∃ a, s.setRf (oPwr + 0x18) 47 32 v2.toNat = a := ⟨_, rfl⟩
  obtain ⟨c, hc⟩ : ∃ c, (a.setPwrStat 58 true).setPwrStat 61 false = c := ⟨_, rfl⟩
  have hrega : RegsOnly s [oPwr + 0x18] a := ha ▸ RegsOnly.setRf s _ _ _ _
  have hregc : RegsOnly a [oPwr + 0x18] c := hc ▸ ((RegsOnly.setPwrStat a _ _).trans (RegsOnly.setPwrStat _ _ _)).mono (by simp)
  obtain ⟨-, -, hvtest, -⟩ := hrega.settings (by decide) (by decide)
  obtain ⟨d, hd⟩ : ∃ d, c.updPwr (fun p => { p with test := none, retryAt := some (a.time + 60000000000) }) = d := ⟨_, rfl⟩
  have hrow : exec (.certTestEnd eout v2) s = fin s d.certSync := by
    show fin s (s.testEnds eout.toNat v2.toNat) = _
    unfold State.testEnds
    rw [ht]
    dsimp only
    rw [ha, hvtest, if_pos hfell]
    unfold State.testAborts
    rw [hc, hd]
  have hsync := RegsOnly.certSync d
  have htime : a.time = s.time := by rw [hrega.rest]
  have hrest : d.certSync = { s with dev := d.certSync.dev, pwr := { s.pwr with test := none, retryAt := some (s.time + 60000000000) } } := by
    rw [hsync.rest, ← hd, htime, hregc.rest, hrega.rest]
    rfl
  have hstat : ∀ m, m ≠ 63 → d.certSync.pwrStat m = c.pwrStat m := fun m hm => by rw [State.pwrStat_certSync _ hm, ← hd]; rfl
  refine ⟨d.certSync, ?_, ?_, ?_, hrest⟩
  · rw [hrow, hrest]
    exact fin_calm hs rfl rfl rfl rfl rfl
  · rw [hstat 58 (by decide), ← hc, State.pwrStat_setPwrStat _ _ _ (by decide), if_neg (by decide), State.pwrStat_setPwrStat _ _ _ (by decide), if_pos rfl]
  · rw [hstat 61 (by decide), ← hc, State.pwrStat_setPwrStat _ _ _ (by decide), if_pos rfl]

/-! ### PFW_N high, the cut-off and the samples of the node (R685, R692, R695) -/

theorem State.pfwRises_row {s : State} (hs : s.calm = true) (hp : s.pwr.pfw = true) : ∃ t, exec .pfwNRelease s = .next t ∧ t.pwrStat 57 = false ∧
    t = { s with dev := t.dev, pwr := { s.pwr with pfw := false, pfwHigh := s.time } } := by
  obtain ⟨a, ha⟩ : ∃ a, s.updPwr (fun p => { p with pfw := false, pfwHigh := s.time }) = a := ⟨_, rfl⟩
  obtain ⟨b, hb⟩ : ∃ b, a.setPwrStat 57 false = b := ⟨_, rfl⟩
  have hregb : RegsOnly a [oPwr + 0x18] b := hb ▸ RegsOnly.setPwrStat a _ _
  have hsync := RegsOnly.certSync b
  have hrow : exec .pfwNRelease s = fin s b.certSync := by
    show fin s s.pfwRises = _
    unfold State.pfwRises
    rw [hp, if_neg (by decide), ha, hb]
  have hrest : b.certSync = { s with dev := b.certSync.dev, pwr := { s.pwr with pfw := false, pfwHigh := s.time } } := by
    rw [hsync.rest, hregb.rest, ← ha]
    rfl
  refine ⟨b.certSync, ?_, ?_, hrest⟩
  · rw [hrow, hrest]
    exact fin_calm hs rfl rfl rfl rfl rfl
  · rw [State.pwrStat_certSync _ (by decide), ← hb, State.pwrStat_setPwrStat _ _ _ (by decide), if_pos rfl]

/-- The cut-off after a Reserve sequence has begun. -/
theorem State.cutOff_resets {s : State} {m : Nat} (hg : s.pwr.glaze = some m) : ∃ t, s.cutOff = t ∧ ResetBy s 7 t ∧ t.pwr.cut = true ∧ t.calm = true ∧ t.pending = s.pending := by
  obtain ⟨a, ha, hreset, hcalm, hpending, -⟩ := s.resetBy (why := 7) (by decide)
  refine ⟨a.updPwr (fun p => { p with cut := true }), ?_, ?_, rfl, (State.calm_congr rfl rfl rfl rfl).trans hcalm, hpending⟩
  · unfold State.cutOff
    rw [hg, if_neg (by simp), ha]
  · obtain ⟨h1, h2, h3, h4, h5, h6, h7, h8, h9, h10, h11, h12⟩ := hreset
    exact ⟨h1, h2, h3, h4, h5, h6, h7, h8, h9, h10, h11, h12⟩

theorem State.cutOff_row {s : State} {m : Nat} (hg : s.pwr.glaze = some m) : ∃ t, exec .cutOff s = .next t ∧ ResetBy s 7 t ∧ t.pwr.cut = true := by
  obtain ⟨t, ht, hreset, hcut, hcalm, hpending⟩ := State.cutOff_resets hg
  refine ⟨t, ?_, hreset, hcut⟩
  show fin s s.cutOff = _
  rw [ht]
  exact fin_next hcalm hpending

/-- Since when the node has stood high enough, after a sample. -/
def State.okAfter (s : State) (v : Nat) : Option Pay := if s.vok ≤ v then some (s.pwr.okSince.getD s.time) else none

/-- The machine after a sample that cuts nothing off. -/
theorem State.sampled (s : State) {v : Nat} (hv : v < 2 ^ 16) : ∃ t, s.vholdSample v = (if v < s.vcut then t.cutOff.setRf (oPwr + 0x18) 47 32 v else t) ∧
    t = { s with dev := t.dev, pwr := { s.pwr with okSince := s.okAfter v } } ∧ t.vhold = v ∧
    (s.pwr.test = none → t.pwrStat 63 = (s.pwrStat 62 && decide (s.need ≤ s.rf (oPwr + 0x18) 31 0) && !s.pwr.pfw && decide (s.vok ≤ v))) := by
  obtain ⟨a, ha⟩ : ∃ a, s.setRf (oPwr + 0x18) 47 32 v = a := ⟨_, rfl⟩
  have hrega : RegsOnly s [oPwr + 0x18] a := ha ▸ RegsOnly.setRf s _ _ _ _
  obtain ⟨b, hb⟩ : ∃ b, a.updPwr (fun p => { p with okSince := s.okAfter v }) = b := ⟨_, rfl⟩
  have hrow : s.vholdSample v = if v < s.vcut then b.certSync.cutOff.setRf (oPwr + 0x18) 47 32 v else b.certSync := by
    unfold State.vholdSample
    dsimp only
    rw [ha]
    generalize hx : a.updPwr _ = x
    have hxb : x = b := by
      have hpwr : a.pwr = s.pwr := by rw [hrega.rest]
      rw [← hx, ← hb]
      unfold State.updPwr State.okAfter
      dsimp only
      rw [hpwr]
      cases s.pwr.okSince <;> rfl
    rw [hxb]
  have hvhold : b.vhold = v := by
    rw [← hb]
    show a.vhold = v
    rw [State.vhold, ← ha, State.rf_setRf_self _ _ _ _ _ (by decide) (by decide)]
    exact Nat.mod_eq_of_lt hv
  have hsync := RegsOnly.certSync b
  refine ⟨b.certSync, hrow, ?_, ?_, fun ht => ?_⟩
  · rw [hsync.rest, ← hb, hrega.rest]
    rfl
  · rw [State.vhold, State.rf_certSync _ (by decide)]
    exact hvhold
  · obtain ⟨-, hvok, -, hneed⟩ := hrega.settings (by decide) (by decide)
    have htest : b.pwr.test = none := by
      rw [← hb, hrega.rest]
      exact ht
    have h62 : b.pwrStat 62 = s.pwrStat 62 := by
      rw [← hb]
      show a.pwrStat 62 = _
      rw [← ha, State.pwrStat_setRf _ _ (by decide) (by decide) (by decide)]
    have hecap : b.rf (oPwr + 0x18) 31 0 = s.rf (oPwr + 0x18) 31 0 := by
      rw [← hb]
      show a.rf (oPwr + 0x18) 31 0 = _
      rw [← ha, State.rf_setRf_apart _ _ _ (by decide) (by decide) (by decide)]
    have hneedb : b.need = s.need := by rw [← hneed, ← hb]; rfl
    have hvokb : b.vok = s.vok := by rw [← hvok, ← hb]; rfl
    have hpfw : b.pwr.pfw = s.pwr.pfw := by
      rw [← hb, hrega.rest]
      rfl
    rw [State.cert_certSync htest, h62, hecap, hneedb, hvokb, hpfw, hvhold]

theorem State.setVhold_self (s : State) {v : Nat} (hv : v < 2 ^ 16) : RegsOnly s [oPwr + 0x18] (s.setRf (oPwr + 0x18) 47 32 v) ∧
    (s.setRf (oPwr + 0x18) 47 32 v).vhold = v ∧ (s.setRf (oPwr + 0x18) 47 32 v).pwrStat 63 = s.pwrStat 63 := by
  refine ⟨RegsOnly.setRf s _ _ _ _, ?_, State.pwrStat_setRf _ _ (by decide) (by decide) (by decide)⟩
  rw [State.vhold, State.rf_setRf_self _ _ _ _ _ (by decide) (by decide)]
  exact Nat.mod_eq_of_lt hv

theorem State.vholdSample_row {s : State} (hs : s.calm = true) {v : BitVec 16} (hno : s.vcut ≤ v.toNat ∨ s.pwr.glaze = none) (ht : s.pwr.test = none) :
    ∃ t, exec (.vholdSample v) s = .next t ∧ t = { s with dev := t.dev, pwr := { s.pwr with okSince := t.pwr.okSince } } ∧
      t.vhold = v.toNat ∧ (s.vok ≤ v.toNat → t.pwr.okSince = some (s.pwr.okSince.getD s.time)) ∧
      (v.toNat < s.vok → t.pwr.okSince = none) ∧
      t.pwrStat 63 = (s.pwrStat 62 && decide (s.need ≤ s.rf (oPwr + 0x18) 31 0) && !s.pwr.pfw && decide (s.vok ≤ v.toNat)) := by
  obtain ⟨a, ha, hrest, hvhold, hcert⟩ := s.sampled v.isLt
  have hok : a.pwr.okSince = s.okAfter v.toNat := by rw [hrest]
  obtain ⟨hregt, hv, h63⟩ := a.setVhold_self v.isLt
  have hrow : ∃ t, RegsOnly a [oPwr + 0x18] t ∧ t.vhold = v.toNat ∧ t.pwrStat 63 = a.pwrStat 63 ∧ s.vholdSample v.toNat = t := by
    rw [ha]
    by_cases hcut : v.toNat < s.vcut
    · have hglaze : a.pwr.glaze = none := by
        rw [hrest]
        exact hno.resolve_left (by omega)
      rw [if_pos hcut, State.cutOff, hglaze, if_pos (by decide)]
      exact ⟨_, hregt, hv, h63, rfl⟩
    · rw [if_neg hcut]
      exact ⟨a, RegsOnly.refl a _, hvhold, rfl, rfl⟩
  obtain ⟨t, hregs, hvt, h63t, hrow⟩ := hrow
  have hts : t = { s with dev := t.dev, pwr := { s.pwr with okSince := s.okAfter v.toNat } } := by rw [hregs.rest, hrest]
  have hokt : t.pwr.okSince = s.okAfter v.toNat := by rw [hts]
  refine ⟨t, ?_, by rw [hokt]; exact hts, hvt, fun h => ?_, fun h => ?_, ?_⟩
  · show fin s (s.vholdSample v.toNat) = _
    rw [hrow, hts]
    exact fin_calm hs rfl rfl rfl rfl rfl
  · rw [hokt, State.okAfter, if_pos h]
  · rw [hokt, State.okAfter, if_neg (by omega)]
  · rw [h63t, hcert ht]

theorem State.vholdSample_cuts {s : State} {v : BitVec 16} {m : Nat} (hlow : v.toNat < s.vcut) (hg : s.pwr.glaze = some m) :
    ∃ t, exec (.vholdSample v) s = .next t ∧ t.mode = mReset ∧ t.rf 0x38 63 56 = 7 ∧ t.pwr.cut = true ∧ t.vhold = v.toNat := by
  obtain ⟨a, ha, hrest, -⟩ := s.sampled v.isLt
  obtain ⟨b, hb, hreset, hcut, hcalm, hpending⟩ := State.cutOff_resets (s := a) (m := m) (by rw [hrest]; exact hg)
  obtain ⟨hregt, hv, -⟩ := b.setVhold_self v.isLt
  obtain ⟨t, ht⟩ : ∃ t, b.setRf (oPwr + 0x18) 47 32 v.toNat = t := ⟨_, rfl⟩
  rw [ht] at hregt hv
  refine ⟨t, ?_, (hregt.mode (by decide)).trans hreset.mode, (State.rf_congr (hregt.others 0x38 (by decide)) _ _).trans hreset.cause, by rw [hregt.rest]; exact hcut, hv⟩
  show fin s (s.vholdSample v.toNat) = _
  have hrow : s.vholdSample v.toNat = t := by
    rw [ha, if_pos hlow, hb, ht]
  rw [hrow]
  refine fin_next ?_ ?_
  · rw [hregt.rest]
    exact (State.calm_congr rfl rfl rfl rfl).trans hcalm
  · rw [hregt.rest]
    show b.pending = s.pending
    rw [hpending, hrest]

end Sys2Proof.Machine
end

section
/-!
PROOFS. The TLB instructions (O15).
-/
namespace Sys2Proof.Machine

/-! ### The entries that an invalidation clears (R380) -/

theorem Core.ent_setEnt (c : Core) (i n : Nat) (e : TlbEntry) : (c.setEnt i e).ent n = if i = n then e else c.ent n :=
  Tbl.get_set (fun _ => noEntry) c.tlb i n e

/-- The entries of a rising table have keys at and above its bound. -/
theorem Tbl.le_of_look {α : Type} {t : Tbl α} {a k : Nat} {v : α} (ht : Tbl.rising a t = true) (h : Tbl.look t k = some v) : a ≤ k := by
  induction t generalizing a with
  | nil => cases h
  | cons e t ih =>
    obtain ⟨i, w⟩ := e
    simp only [Tbl.rising, Bool.and_eq_true, decide_eq_true_eq] at ht
    rw [Tbl.look_cons] at h
    split at h
    · next hi => exact hi ▸ ht.1
    · exact Nat.le_trans (by omega) (ih ht.2 h)

/-- An entry after the invalidation of those that `p` holds of. -/
def TlbEntry.after (p : TlbEntry → Bool) (e : TlbEntry) : TlbEntry := if e.v && p e then e.inval else e

/-- The invalidation of one listed entry. -/
def Core.clearEnt (p : TlbEntry → Bool) (c : Core) (e : Nat × TlbEntry) : Core := if e.2.v && p e.2 then c.setEnt e.1 e.2.inval else c

theorem Core.ent_clearEnt (p : TlbEntry → Bool) (c : Core) (e : Nat × TlbEntry) (n : Nat) (he : c.ent e.1 = e.2) :
    (c.clearEnt p e).ent n = if e.1 = n then e.2.after p else c.ent n := by
  unfold Core.clearEnt TlbEntry.after
  split
  · exact Core.ent_setEnt c e.1 n e.2.inval
  · split
    · next hn => rw [← hn, he]
    · rfl

/-- Walking part of a table invalidates the listed entries and no others. -/
theorem Core.ent_foldl_clearEnt (p : TlbEntry → Bool) (l : Tbl TlbEntry) {a : Nat} (hl : Tbl.rising a l = true) (c : Core)
    (hc : ∀ n e, Tbl.look l n = some e → c.ent n = e) (n : Nat) :
    (l.foldl (Core.clearEnt p) c).ent n = if (Tbl.look l n).isSome then (c.ent n).after p else c.ent n := by
  induction l generalizing c a with
  | nil => rfl
  | cons e l ih =>
    obtain ⟨i, w⟩ := e
    simp only [Tbl.rising, Bool.and_eq_true, decide_eq_true_eq] at hl
    have hi : c.ent i = w := hc i w (by rw [Tbl.look_cons, if_pos rfl])
    have hlow {m : Nat} {v : TlbEntry} (hm : Tbl.look l m = some v) : i ≠ m := by
      have := Tbl.le_of_look hl.2 hm
      omega
    have hstep := Core.ent_clearEnt p c (i, w)
    have hrest (m : Nat) (v : TlbEntry) (hm : Tbl.look l m = some v) : (c.clearEnt p (i, w)).ent m = v := by
      rw [hstep m hi, if_neg (hlow hm)]
      exact hc m v (by rw [Tbl.look_cons, if_neg (hlow hm), hm])
    rw [List.foldl_cons, ih hl.2 _ hrest, hstep n hi, Tbl.look_cons]
    by_cases hn : i = n
    · have hnone : Tbl.look l n = none := by
        cases hm : Tbl.look l n with
        | none => rfl
        | some v => exact absurd hn (hlow hm)
      subst hn
      rw [hnone, if_pos rfl, if_pos rfl, hi]
      rfl
    · rw [if_neg hn, if_neg hn]

theorem foldl_clearEnt_tlb (p : TlbEntry → Bool) (l : Tbl TlbEntry) (c : Core) :
    l.foldl (Core.clearEnt p) c = { c with tlb := (l.foldl (Core.clearEnt p) c).tlb } := by
  induction l generalizing c with
  | nil => rfl
  | cons e l ih =>
    rw [List.foldl_cons, ih]
    unfold Core.clearEnt
    split <;> rfl

theorem Core.tlbInval_rest (c : Core) (p : TlbEntry → Bool) : c.tlbInval p = { c with tlb := (c.tlbInval p).tlb } :=
  foldl_clearEnt_tlb p c.tlb c

theorem Core.ent_tlbInval (c : Core) (p : TlbEntry → Bool) (hl : Tbl.rising 0 c.tlb = true) (n : Nat) :
    (c.tlbInval p).ent n = (c.ent n).after p := by
  refine (Core.ent_foldl_clearEnt p c.tlb hl c (fun m e hm => ?_) n).trans ?_
  · show (Tbl.look c.tlb m).getD noEntry = e
    rw [hm]
    rfl
  · split
    · rfl
    · next hnone =>
      have hent : c.ent n = noEntry := by
        show (Tbl.look c.tlb n).getD noEntry = noEntry
        rw [Option.not_isSome_iff_eq_none.mp hnone]
        rfl
      rw [hent]
      rfl

/-! ### Reads of the TLB -/

section
variable {s : State} {at_ : At} {f : RF}

theorem opTlbr_run {d a b : BitVec 5} (ha : immForm (s.gr (ctxOf at_) a) = true) (hb : immForm (s.gr (ctxOf at_) b) = true) :
    let e := (s.core (s.coreOf (ctxOf at_))).ent (fld (s.gr (ctxOf at_) a).pay 7 0)
    opTlbr d a b (startRun s at_) = .ok .seq { startRun s at_ with
      s := s.wrReg (ctxOf at_) d (Word.raw (if bit (s.gr (ctxOf at_) b).pay 0 then e.attr else e.tagw)) } := by
  unfold opTlbr
  exact (X.bind_ok (X.st_run _) _).trans ((X.bind_ok (X.core_run _) _).trans
    ((X.bind_ok (X.rdUsed_run (startRun s at_) ha) _).trans (X.bind_ok (X.rdUsed_run (startRun s at_) hb) _)))

theorem opTlbs_run (hr : Ready s at_ 4) {d a b : BitVec 5} (ha : immForm (s.gr (ctxOf at_) a) = true) (hb : immForm (s.gr (ctxOf at_) b) = true) :
    opTlbs d a b (startRun s at_) = .ok .seq { startRun s at_ with
      acc := 1
      s := s.wrReg (ctxOf at_) d (match (s.core (s.coreOf (ctxOf at_))).tlbFind (fld (s.gr (ctxOf at_) a).pay 47 0) (fld (s.gr (ctxOf at_) b).pay 11 0) with
        | some i => Word.fixN i
        | none => Word.nil) } := by
  have hm : X.met (startRun s at_) = .ok .clean { startRun s at_ with acc := 1 } := X.met_clean hr.undisturbed
  unfold opTlbs
  refine (X.bind_ok (X.st_run _) _).trans ((X.bind_ok (X.core_run _) _).trans ((X.bind_ok hm _).trans
    ((X.bind_ok (X.rdUsed_run { startRun s at_ with acc := 1 } ha) _).trans
      ((X.bind_ok (X.rdUsed_run { startRun s at_ with acc := 1 } hb) _).trans ?_))))
  show (match (s.core (s.coreOf (ctxOf at_))).tlbFind (fld (s.gr (ctxOf at_) a).pay 47 0) (fld (s.gr (ctxOf at_) b).pay 11 0) with
    | some i => _
    | none => _ : X Flow) { startRun s at_ with acc := 1 } = _
  cases (s.core (s.coreOf (ctxOf at_))).tlbFind (fld (s.gr (ctxOf at_) a).pay 47 0) (fld (s.gr (ctxOf at_) b).pay 11 0) with
  | none => rfl
  | some i => rfl

/-- A row of the three that use D, A and B and write D alone. -/
theorem tlbRow_wrote {min : Nat} (hm : min ≤ 2) (h : s.ready at_ 4 = true) (hrsv : f.rsv = 0) (hring : (s.ctx (ctxOf at_)).ring ≤ 1) {body : X Flow} {w : Word}
    {q : Run} (hb : body (startRun s at_) = .ok .seq q) (hq : q.s = s.wrReg (ctxOf at_) f.d w) :
    ∃ t, fin s (s.rowR at_ f 0x2B min false (fun _ => body)) = .next t ∧ WroteReg s (ctxOf at_) 4 f.d w t := by
  have hmeta : rMeta 0x2B min = some (metaR 0x2B min).priv := if_pos hm
  have hfields : (metaR 0x2B min).priv.rsvR f = true := by simp [Meta.rsvR, metaR, Meta.priv, hrsv]
  have hr := State.ready_iff s at_ 4 h
  have hrun := (rowR_checked hr hmeta hfields hring (fun _ => body) (s.ctx (ctxOf at_)).pc).trans hb
  have hsame := issue_ready hr false (fun _ r => .ok .seq { r with s := s.wrReg (ctxOf at_) f.d w })
  obtain ⟨t, hfin, ht⟩ := issue_wrote h false (fun _ r => .ok .seq { r with s := s.wrReg (ctxOf at_) f.d w }) f.d w rfl
  refine ⟨t, ?_, ht⟩
  rw [hsame] at hfin
  rw [State.rowR, issue_ready hr, hrun]
  show fin s (q.s.retire (ctxOf at_) (slotsOf (s.ctx (ctxOf at_)).pc 4) ((s.ctx (ctxOf at_)).pc + p64 4) none).settle = .next t
  rw [hq]
  exact hfin

/-! ### Writes of the TLB -/

/-- The retirement of an instruction that changed its core and then wrote D. -/
theorem onlyCore_wrote (h : Ready s at_ 4) {u : State} {k : Nat} {c : Core} (hu : CoreSet s (ctxOf at_) k c u) (d : BitVec 5) (w : Word) :
    ∃ t, (u.wrReg (ctxOf at_) d w).retire (ctxOf at_) (slotsOf (s.ctx (ctxOf at_)).pc 4) ((s.ctx (ctxOf at_)).pc + p64 4) none = t ∧
      OnlyCore s (ctxOf at_) k t ∧ t.core k = c ∧ (d ≠ 0 → t.gr (ctxOf at_) d = w) ∧
      ∀ r, r ≠ regKey (s.ctx (ctxOf at_)).bank d → (t.ctx (ctxOf at_)).rdKey r = (s.ctx (ctxOf at_)).rdKey r := by
  have hv := within_wrReg u (ctxOf at_) d w
  have hctx : (u.wrReg (ctxOf at_) d w).ctx (ctxOf at_) = (s.ctx (ctxOf at_)).wr d w := by rw [State.ctx_wrReg, hu.ctxs]
  have hplain := h.plain.wr d w
  obtain ⟨-, hret, -⟩ := State.retire_seq (u.wrReg (ctxOf at_) d w) (ctxOf at_) (slotsOf (s.ctx (ctxOf at_)).pc 4) ((s.ctx (ctxOf at_)).pc + p64 4)
    (by rw [hctx]; exact hplain.loads) (h.noLoopEnd (by rw [hctx]; exact Ctx.sr_wr _ d w) _)
  have hw := hv.trans (within_retire (u.wrReg (ctxOf at_) d w) (ctxOf at_) (slotsOf (s.ctx (ctxOf at_)).pc 4) ((s.ctx (ctxOf at_)).pc + p64 4) none)
  rw [hctx, hplain.marked_setPc] at hret
  obtain ⟨hdest, hregs⟩ := Ctx.retired_wr (s.ctx (ctxOf at_)) d w ((s.ctx (ctxOf at_)).pc + 4)
  obtain ⟨t, ht⟩ : ∃ t, (u.wrReg (ctxOf at_) d w).retire (ctxOf at_) (slotsOf (s.ctx (ctxOf at_)).pc 4) ((s.ctx (ctxOf at_)).pc + p64 4) none = t := ⟨_, rfl⟩
  rw [ht] at hret hw
  have hret4 : t.ctx (ctxOf at_) = ((s.ctx (ctxOf at_)).wr d w).retired ((s.ctx (ctxOf at_)).pc + 4) := hret
  refine ⟨t, ht, ⟨?_, ?_, ?_, ?_, ?_, ?_, ?_, ?_⟩, ?_, ?_, ?_⟩
  · rw [hw.rest, hu.rest]
  · intro y hy; rw [hw.others y hy, hu.ctxs]
  · rw [hret4, Ctx.wr_same]; rfl
  · rw [hret4, Ctx.pc_retired]
  · intro n hn; rw [hret4, Ctx.sp_retired, if_neg (Ne.symm hn), Ctx.sp_wr]
  · intro j hj; rw [hw.toNear.core, hu.cores j hj]
  · intro y hy; rw [hw.twins y hy, hu.twins y hy]
  · rw [hw.twin, hu.twin]
  · rw [hw.toNear.core, hu.core]
  · intro hd
    show (t.ctx (ctxOf at_)).rd d = w
    rw [hret4]
    exact hdest hd
  · intro r hr
    rw [hret4]
    exact hregs r hr

theorem CoreSet.of_updCore (s : State) (x k : Nat) (f : Core → Core) : CoreSet s x k (f (s.core k)) (s.updCore k f) :=
  (CoreSet.refl s x k).upd f

theorem tlbw_rejects (h : s.ready at_ 4 = true) (hrsv : f.rsv = 0) (hring : (s.ctx (ctxOf at_)).ring ≤ 1)
    (ha : immForm (s.gr (ctxOf at_) f.a) = true) (hb : immForm (s.gr (ctxOf at_) f.b) = true) {n : Nat}
    (hrej : (s.core (s.coreOf (ctxOf at_))).tlbw (s.gr (ctxOf at_) f.a).pay (s.gr (ctxOf at_) f.b).pay = .reject n) :
    ∃ t, exec (.tlbw at_ f) s = .next t ∧ WroteReg s (ctxOf at_) 4 f.d (Word.rawN n) t := by
  refine tlbRow_wrote (min := 0) (by decide) h hrsv hring (q := { startRun s at_ with s := s.wrReg (ctxOf at_) f.d (Word.rawN n) }) ?_ rfl
  unfold opTlbw
  refine (X.bind_ok (X.st_run _) _).trans ((X.bind_ok (X.core_run _) _).trans
    ((X.bind_ok (X.rdUsed_run (startRun s at_) ha) _).trans ((X.bind_ok (X.rdUsed_run (startRun s at_) hb) _).trans ?_)))
  show (match (s.core (s.coreOf (ctxOf at_))).tlbw (s.gr (ctxOf at_) f.a).pay (s.gr (ctxOf at_) f.b).pay with
    | .wrote i c => _
    | .reject r => _ : X Flow) (startRun s at_) = _
  rw [hrej]
  rfl

theorem opTlbw_writes {d a b : BitVec 5} (ha : immForm (s.gr (ctxOf at_) a) = true) (hb : immForm (s.gr (ctxOf at_) b) = true) {i : Nat} {c : Core}
    (hw : (s.core (s.coreOf (ctxOf at_))).tlbw (s.gr (ctxOf at_) a).pay (s.gr (ctxOf at_) b).pay = .wrote i c) :
    opTlbw d a b (startRun s at_) = .ok .seq { startRun s at_ with
      s := (s.updCore (s.coreOf (ctxOf at_)) (fun _ => c)).wrReg (ctxOf at_) d (Word.fixN i) } := by
  unfold opTlbw
  refine (X.bind_ok (X.st_run _) _).trans ((X.bind_ok (X.core_run _) _).trans
    ((X.bind_ok (X.rdUsed_run (startRun s at_) ha) _).trans ((X.bind_ok (X.rdUsed_run (startRun s at_) hb) _).trans ?_)))
  show (match (s.core (s.coreOf (ctxOf at_))).tlbw (s.gr (ctxOf at_) a).pay (s.gr (ctxOf at_) b).pay with
    | .wrote i c => _
    | .reject r => _ : X Flow) (startRun s at_) = _
  rw [hw]
  rfl

theorem tlbw_writes (h : s.ready at_ 4 = true) (hrsv : f.rsv = 0) (hring : (s.ctx (ctxOf at_)).ring ≤ 1)
    (ha : immForm (s.gr (ctxOf at_) f.a) = true) (hb : immForm (s.gr (ctxOf at_) f.b) = true) {i : Nat} {c : Core}
    (hw : (s.core (s.coreOf (ctxOf at_))).tlbw (s.gr (ctxOf at_) f.a).pay (s.gr (ctxOf at_) f.b).pay = .wrote i c) :
    ∃ t, exec (.tlbw at_ f) s = .next t ∧ OnlyCore s (ctxOf at_) (s.coreOf (ctxOf at_)) t ∧ t.core (s.coreOf (ctxOf at_)) = c ∧
      (f.d ≠ 0 → t.gr (ctxOf at_) f.d = Word.fixN i) ∧
      ∀ r, r ≠ regKey (s.ctx (ctxOf at_)).bank f.d → (t.ctx (ctxOf at_)).rdKey r = (s.ctx (ctxOf at_)).rdKey r := by
  have hr := State.ready_iff s at_ 4 h
  have hmeta : rMeta 0x2B 0 = some (metaR 0x2B 0).priv := rfl
  have hfields : (metaR 0x2B 0).priv.rsvR f = true := by simp [Meta.rsvR, metaR, Meta.priv, hrsv]
  have hu := CoreSet.of_updCore s (ctxOf at_) (s.coreOf (ctxOf at_)) (fun _ => c)
  have hv := within_wrReg (s.updCore (s.coreOf (ctxOf at_)) (fun _ => c)) (ctxOf at_) f.d (Word.fixN i)
  have hctx : ((s.updCore (s.coreOf (ctxOf at_)) (fun _ => c)).wrReg (ctxOf at_) f.d (Word.fixN i)).ctx (ctxOf at_) = (s.ctx (ctxOf at_)).wr f.d (Word.fixN i) := by
    rw [State.ctx_wrReg, hu.ctxs]
  obtain ⟨t, ht, hrest⟩ := onlyCore_wrote hr hu f.d (Word.fixN i)
  have hgo := issue_seq h false (body := fun pc => do
      X.decodeChecks ((rMeta 0x2B 0).getD (metaR 0x2B 0)) (((rMeta 0x2B 0).getD (metaR 0x2B 0)).rsvR f)
      opTlbw f.d f.a f.b) ((rowR_checked hr hmeta hfields hring (fun _ => opTlbw f.d f.a f.b) (s.ctx (ctxOf at_)).pc).trans (opTlbw_writes ha hb hw))
    (by rw [hctx]; exact (hr.plain.wr f.d (Word.fixN i)).loads) (hr.noLoopEnd (by rw [hctx]; exact Ctx.sr_wr _ f.d _) _)
    (hv.calm.trans (hu.calm.trans hr.calm)) (hv.pending.trans hu.pending)
  exact ⟨t, ht ▸ hgo, hrest⟩

/-! ### Invalidations (R380) -/

/-- A privileged row whose body changes its core alone. -/
theorem coreRow_changes {maj min : Nat} {m : Meta} {c : Core} (h : s.ready at_ 4 = true) (hm : rMeta maj min = some m) (hrsv : m.rsvR f = true)
    (hring : (s.ctx (ctxOf at_)).ring ≤ m.ringMax) {body : X Flow} {g : Core → Core} (hg : g (s.core (s.coreOf (ctxOf at_))) = c)
    (hb : body (startRun s at_) = .ok .seq { startRun s at_ with s := s.updCore (s.coreOf (ctxOf at_)) g }) :
    ∃ t, fin s (s.rowR at_ f maj min false (fun _ => body)) = .next t ∧ OnlyCore s (ctxOf at_) (s.coreOf (ctxOf at_)) t ∧
      (∀ r, (t.ctx (ctxOf at_)).rdKey r = (s.ctx (ctxOf at_)).rdKey r) ∧ t.core (s.coreOf (ctxOf at_)) = c := by
  subst hg
  have hr := State.ready_iff s at_ 4 h
  have hu := CoreSet.of_updCore s (ctxOf at_) (s.coreOf (ctxOf at_)) g
  exact ⟨_, issue_seq h false ((rowR_checked hr hm hrsv hring (fun _ => body) (s.ctx (ctxOf at_)).pc).trans hb) (by rw [hu.ctxs]; exact hr.loads)
    (hr.noLoopEnd (by rw [hu.ctxs]) _) (hu.calm.trans hr.calm) hu.pending, onlyCore_retire hr hu⟩

theorem tlbiRow_invalidates {i : Instr} {a : BitVec 5} (hi : tlbiRow i = some (at_, a)) (h : s.ready at_ 4 = true)
    (ha : immForm (s.gr (ctxOf at_) a) = true) (hring : (s.ctx (ctxOf at_)).ring ≤ 1) :
    ∃ t, exec i s = .next t ∧ OnlyCore s (ctxOf at_) (s.coreOf (ctxOf at_)) t ∧
      (∀ r, (t.ctx (ctxOf at_)).rdKey r = (s.ctx (ctxOf at_)).rdKey r) ∧
      t.core (s.coreOf (ctxOf at_)) = (s.core (s.coreOf (ctxOf at_))).tlbInval (tlbiHits i (s.gr (ctxOf at_) a)) := by
  have named {f : RF} {min : Nat} (hmin : min = 3 ∨ min = 4 ∨ min = 6) (hf : f.d = 0 ∧ f.b = 0 ∧ f.rsv = 0) :
      ∃ m, rMeta 0x2B min = some m ∧ m.rsvR f = true ∧ m.ringMax = 1 := by
    obtain ⟨hd, hb, hrsv⟩ := hf
    obtain rfl | rfl | rfl := hmin <;> exact ⟨_, rfl, by simp [Meta.rsvR, metaR, Meta.onlyA, Meta.priv, hd, hb, hrsv], rfl⟩
  have reads (p : Word → TlbEntry → Bool) :
      (do let w ← X.rdUsed a
          X.updTlb (fun c => c.tlbInval (p w))
          return .seq : X Flow) (startRun s at_) = .ok .seq { startRun s at_ with
            s := s.updCore (s.coreOf (ctxOf at_)) (fun c => c.tlbInval (p (s.gr (ctxOf at_) a))) } :=
    X.bind_ok (X.rdUsed_run (startRun s at_) ha) _
  cases i <;> simp only [tlbiRow, reduceCtorEq, Option.ite_none_right_eq_some, Option.some.injEq, Prod.mk.injEq] at hi
  case tlbiA at' f =>
    obtain ⟨hf, rfl, rfl⟩ := hi
    obtain ⟨m, hm, hrsv, hmax⟩ := named (.inl rfl) hf
    exact coreRow_changes h hm hrsv (hmax ▸ hring) rfl (reads (fun w e => e.covers (fld w.pay 47 12 * 4096)))
  case tlbiT at' f =>
    obtain ⟨hf, rfl, rfl⟩ := hi
    obtain ⟨m, hm, hrsv, hmax⟩ := named (.inr (.inl rfl)) hf
    exact coreRow_changes h hm hrsv (hmax ▸ hring) rfl (reads (fun w e => !e.l && !e.g && e.asid = fld w.pay 11 0))
  case tlbiTForce at' f =>
    obtain ⟨hf, rfl, rfl⟩ := hi
    obtain ⟨m, hm, hrsv, hmax⟩ := named (.inr (.inr rfl)) hf
    exact coreRow_changes h hm hrsv (hmax ▸ hring) rfl (reads (fun w e => !e.g && e.asid = fld w.pay 11 0))
  case tlbiAll at' f =>
    obtain ⟨rfl, rfl, rfl⟩ := hi
    exact coreRow_changes h (rfl : rMeta 0x2B 5 = _) rfl hring rfl rfl
  case tlbiAllForce at' f =>
    obtain ⟨rfl, rfl, rfl⟩ := hi
    exact coreRow_changes h (rfl : rMeta 0x2B 7 = _) rfl hring rfl rfl

end

/-- Settles O15: each row writes D or its core alone, and an invalidation walks the listed entries once. -/
theorem tlbInstructions : Obligations.TlbInstructions := by
  unfold Obligations.TlbInstructions
  refine ⟨?_, ?_⟩
  · intro s at_ f x k a b h hrsv hring ha hb
    exact ⟨tlbRow_wrote (by decide) h hrsv hring (opTlbr_run ha hb) rfl,
      tlbRow_wrote (by decide) h hrsv hring (opTlbs_run (State.ready_iff s at_ 4 h) ha hb) rfl,
      fun r hrej => tlbw_rejects h hrsv hring ha hb hrej, fun i c hw => tlbw_writes h hrsv hring ha hb hw⟩
  · intro i s at_ a x k hi h ha hring hrise
    obtain ⟨t, hexec, honly, hregs, hcore⟩ := tlbiRow_invalidates hi h ha hring
    refine ⟨t, hexec, honly, hregs, ?_, fun n => ?_⟩
    · rw [hcore]
      exact Core.tlbInval_rest _ _
    · rw [hcore]
      exact Core.ent_tlbInval _ _ hrise n

end Sys2Proof.Machine
end

section
/-!
PROOFS. The canonical form of memory (O10).
-/
namespace Sys2Proof.Machine
namespace State

variable {s : State}

/-! ### What leaves memory alone -/

theorem memForm_of_contents {t : State} (hc : t.contents = s.contents) (h : s.memForm) : t.memForm := by
  obtain ⟨hm, ht⟩ := Prod.mk.inj hc
  exact memForm_congr hm ht h

theorem contents_forN (f : Nat → State → State) (hf : ∀ i s, (f i s).contents = s.contents) (n k : Nat) (s : State) :
    (forN n k f s).contents = s.contents := by
  induction n generalizing k s with
  | zero => rfl
  | succ n ih => exact (ih (k + 1) (f k s)).trans (hf k s)

theorem contents_wakeWindow (s : State) (t : Nat) : (s.wakeWindow t).contents = s.contents :=
  contents_foldl s (fun s (e : Nat × Ctx) => s.updCtx e.1 (fun c => { c with run := .run })) (fun _ _ => rfl) _

theorem contents_confirm (s : State) (t : Nat) : (s.confirm t).contents = s.contents :=
  contents_wakeWindow (s.setTwin t { s.twin t with groups := 0, misr := misrSeed, undo := [], sqtConf := [], hold := [] }) t

theorem contents_confirmLine (s : State) (line : Nat) : (s.confirmLine line).contents = s.contents :=
  contents_foldl s (fun s (e : Nat × Twin) => s.confirm e.1) (fun s e => contents_confirm s e.1) _

theorem contents_confirmedWrite (s : State) (line : Nat) : ((s.confirmLine line).cohWrite none none line).contents = s.contents :=
  (contents_cohWrite _ none none line).trans (contents_confirmLine s line)

theorem contents_recSbe (s : State) (x cause pa : Nat) (pc : Pay) : (s.recSbe x cause pa pc).contents = s.contents := by
  unfold recSbe
  dsimp only
  split
  · rfl
  · split <;> rfl

theorem contents_holdOut (s : State) (t : Nat) (o : Out) : (s.holdOut t o).contents = s.contents := by
  unfold holdOut
  dsimp only
  split
  · exact contents_confirm s t
  · rfl

theorem contents_leaveCore (s : State) (x : Nat) (o : Out) : (s.leaveCore x o).contents = s.contents := by
  unfold leaveCore
  dsimp only
  split
  · exact contents_holdOut s (twinOf x) o
  · split <;> rfl

theorem contents_emptyL1d (s : State) (k : Nat) (keep : Bool) : (s.emptyL1d k keep).contents = s.contents :=
  contents_foldl s _ (fun s line => contents_l1dDrop s k line) _

theorem contents_mirrorCore (s : State) (src dst : Nat) : (s.mirrorCore src dst).contents = s.contents := contents_emptyL1d s dst true

theorem contents_dropUpper (s : State) (t : Nat) : (s.dropUpper t).contents = s.contents := by
  refine contents_forN _ (fun x s => ?_) 4 (8 * t) s
  dsimp only
  split <;> rfl

theorem contents_confirmedSqt (s : State) (x : Nat) : (s.confirmedSqt x).contents = s.contents := by
  unfold confirmedSqt
  split <;> rfl

theorem contents_submitSatb (s : State) (x : Nat) : (s.submitSatb x).contents = s.contents := by
  unfold submitSatb
  dsimp only
  split <;> rfl

theorem contents_submitAll (s : State) (xs : List Nat) : (s.submitAll xs).contents = s.contents :=
  contents_foldl s _ (fun s x => (contents_submitSatb _ x).trans (contents_confirmedSqt s x)) xs

/-! ### Words written past the caches and through them -/

theorem memForm_busWrite (k : Nat) (w : Word) (h : s.memForm) : (s.busWrite k w).memForm :=
  memForm_setWord k w (memForm_of_contents (contents_confirmedWrite s (k / 64)) h)

theorem memForm_engWrite (k : Nat) (w : Word) (h : s.memForm) : (s.engWrite k w).memForm := by
  unfold engWrite
  split
  · exact h
  · exact memForm_busWrite k w h

theorem memForm_engWords (k : Nat) (ws : List Word) (h : s.memForm) : (s.engWords k ws).memForm :=
  memForm_foldl _ (fun _ i hs => memForm_engWrite (k + 8 * i) (ws.getD i Word.nil) hs) _ h

theorem memForm_engPutBytes (pa : Nat) (bs : List (BitVec 8)) (h : s.memForm) : (s.engPutBytes pa bs).memForm :=
  memForm_setBytesRaw pa bs (memForm_of_contents (contents_foldl s _ contents_confirmedWrite _) h)

theorem memForm_memStore (src pa width : Nat) (v : Word) (h : s.memForm) : (s.memStore src pa width v).memForm := by
  unfold memStore
  dsimp only
  split
  · exact memForm_foldl _ (fun _ i hs => memForm_busWrite _ v hs) _ h
  · exact memForm_busWrite _ _ h

theorem memForm_cachedStore (k key x : Nat) (w : Word) (h : s.memForm) : (s.cachedStore k key x w).memForm := by
  unfold cachedStore
  dsimp only
  have hconf : ((s.twins.filter (fun e => e.1 ≠ k / 2 && e.2.provisional (key / 64))).foldl (fun s e => s.confirm e.1) s).contents = s.contents :=
    contents_foldl s (fun s (e : Nat × Twin) => s.confirm e.1) (fun s e => contents_confirm s e.1) _
  generalize (s.twins.filter (fun e => e.1 ≠ k / 2 && e.2.provisional (key / 64))).foldl (fun s e => s.confirm e.1) s = u at hconf ⊢
  obtain ⟨v, hv⟩ : ∃ v, (if (s.twin (k / 2)).mode = .tight then u.updTwin (k / 2) (fun w => { w with undo := (key, u.word key) :: w.undo }) else u) = v := ⟨_, rfl⟩
  have hlog : v.contents = u.contents := by
    rw [← hv]
    split <;> rfl
  rw [hv]
  obtain ⟨y, hy, hcontents⟩ := cacheWrite_eq_setWord v k key x w
    (decide ((v.twin (k / 2)).mode = .tight) && !(u.twin (k / 2)).provisional (key / 64))
  rw [hy]
  exact memForm_setWord key w (memForm_of_contents (hcontents.trans (hlog.trans hconf)) h)

theorem memForm_cachedWidth (k key x pa width : Nat) (v : Word) (h : s.memForm) : (s.cachedWidth k key x pa width v).memForm := by
  unfold cachedWidth
  split
  · exact memForm_foldl _ (fun _ i hs => memForm_cachedStore k _ x v hs) _ h
  · exact memForm_cachedStore k _ x _ h

theorem memForm_mirrorKeep (t pa width : Nat) (h : s.memForm) : (s.mirrorKeep t pa width).memForm := by
  unfold mirrorKeep
  exact memForm_forN _ (fun i s hs => memForm_setWord _ _ hs) _ 0 h

theorem memForm_keepStore (x src pa width : Nat) (v : Word) (h : s.memForm) : (s.keepStore x src pa width v).memForm := by
  unfold keepStore
  dsimp only
  split
  · exact memForm_mirrorKeep _ pa width (memForm_memStore src pa width v h)
  · exact memForm_memStore src pa width v h

/-- A posted store, region by region: it is recorded as an error, leaves the core, or is written. -/
theorem memForm_postStore (x : Nat) (tr : Tr) (width : Nat) (v : Word) (pc : Pay) (h : s.memForm) : (s.postStore x tr width v pc).memForm := by
  unfold postStore
  dsimp only
  obtain ⟨u, hu⟩ : ∃ u, (if s.isTight x then s.sign (twinOf x) (signStore tr.pa (if width = 9 then 8 else width) (if width = 64 then Word.fix 0 else v)) else s) = u :=
    ⟨_, rfl⟩
  have hform : u.memForm := by
    refine memForm_of_contents (s := s) ?_ h
    rw [← hu]
    split <;> rfl
  rw [hu]
  have records (cause : Nat) : (u.recSbe x cause tr.pa pc).memForm := memForm_of_contents (contents_recSbe u x cause tr.pa pc) hform
  have leaves (o : Out) : (u.leaveCore x o).memForm := memForm_of_contents (contents_leaveCore u x o) hform
  have writes (k key : Nat) : (u.cachedWidth k key x tr.pa width v).memForm := memForm_cachedWidth k key x tr.pa width v hform
  split
  · exact records 1
  · exact records 6
  · split
    · exact records 7
    · split
      · split
        · exact leaves _
        · exact memForm_keepStore x _ tr.pa width v hform
      · split
        · exact memForm_mirrorKeep _ tr.pa width (writes _ _)
        · exact writes _ _
  · exact leaves _
  · exact leaves _
  · split
    · exact leaves _
    · split
      · exact leaves _
      · exact writes _ _

/-! ### Windows and twins -/

theorem memForm_rollback (t : Nat) (h : s.memForm) : (s.rollback t).memForm := by
  unfold rollback
  dsimp only
  refine memForm_of_contents (s := undoAll (s.twin t).undo s) ?_ (memForm_undoAll _ h)
  refine Eq.trans (contents_foldl _ (fun s (e : Nat × Pay) => s.updCtx e.1 (fun c => c.setSp Sr.sqt e.2)) (fun _ _ => rfl) _)
    (contents_foldl _ _ (fun s line => ?_) _)
  split
  · split <;> rfl
  · rfl

theorem memForm_toJoined (t : Nat) (before : TwinMode) (ksync : Bool) (h : s.memForm) : (s.toJoined t before ksync).memForm := by
  unfold toJoined
  dsimp only
  obtain ⟨a, ha⟩ : ∃ a, (if before = .split then s.submitAll (List.range' (8 * t + 4) 4) else s) = a := ⟨_, rfl⟩
  have hforma : a.memForm := by
    refine memForm_of_contents (s := s) ?_ h
    rw [← ha]
    split
    · exact contents_submitAll s _
    · rfl
  rw [ha]
  generalize (decide (before = .solo) && (a.twin t).lf) = shadow
  generalize (if shadow = true then 2 * t + 1 else 2 * t) = src
  generalize (if shadow = true then 2 * t else 2 * t + 1) = dst
  obtain ⟨b, hb⟩ : ∃ b, (if t < 2 then (a.emptyL1d src true).emptyL1i src else a) = b := ⟨_, rfl⟩
  have hformb : b.memForm := by
    refine memForm_of_contents (s := a) ?_ hforma
    rw [← hb]
    split
    · exact contents_emptyL1d a src true
    · rfl
  rw [hb]
  have hformc : (b.mirrorCore src dst).memForm := memForm_of_contents (contents_mirrorCore b src dst) hformb
  generalize b.mirrorCore src dst = c at hformc ⊢
  obtain ⟨d, hd⟩ : ∃ d, (if t < 2 then c.updCore dst (fun k => { k with lfsrD := (c.core src).lfsrD, lfsrI := (c.core src).lfsrI }) else c) = d := ⟨_, rfl⟩
  have hformd : d.memForm := by
    refine memForm_of_contents (s := c) ?_ hformc
    rw [← hd]
    split <;> rfl
  rw [hd]
  obtain ⟨e, he⟩ : ∃ e, (if t < 2 ∧ (ksync = true ∨ before = .solo) then d.copyKeep shadow else d) = e := ⟨_, rfl⟩
  have hforme : e.memForm := by
    rw [← he]
    split
    · exact memForm_copyKeep shadow hformd
    · exact hformd
  rw [he]
  exact memForm_of_contents (s := e) (contents_dropUpper e t) hforme

/-! ### Images, side areas, reset, the flush and its return -/

theorem memForm_loadBody (m : Image) (h : s.memForm) : (s.loadBody m).memForm :=
  memForm_forN _ (fun _ _ hs => memForm_setWord _ _ (memForm_setWord _ _ hs)) _ 0 h

theorem memForm_clearRange (pa len : Nat) (h : s.memForm) : (s.clearRange pa len).memForm := by
  unfold clearRange
  dsimp only
  exact memForm_filter _ _ (memForm_of_contents (contents_foldl s _ contents_confirmedWrite _) h)

theorem memForm_deviceReset (cause : Nat) (h : s.memForm) : (s.deviceReset cause).memForm := by
  unfold deviceReset
  have hd : ((s.backing.filter (fun e => inStaging (e.1 * 64))).foldl (fun s e => s.discard e.1) s).memForm :=
    memForm_foldl _ (fun _ e hs => memForm_discard e.1 hs) _ h
  generalize (s.backing.filter (fun e => inStaging (e.1 * 64))).foldl (fun s e => s.discard e.1) s = u at hd ⊢
  exact memForm_congr rfl rfl (memForm_filter (fun e => inJnv e.1 || (!decide (cause = 1) && inStaging e.1))
    (fun e => inJnv (8 * e.1) || (!decide (cause = 1) && inStaging (8 * e.1))) hd)

theorem memForm_copyPages (src dst : Nat → Nat) (ps : List Nat) (h : s.memForm) :
    (ps.foldl (fun s p => s.copyMem (src p) (dst p) 0x1000) s).memForm :=
  memForm_foldl _ (fun _ p hs => memForm_copyMem (src p) (dst p) 0x1000 hs) ps h

theorem memForm_updPwr (f : Pwr → Pwr) (h : s.memForm) : (s.updPwr f).memForm := h

theorem memForm_setRf (off hi lo v : Nat) (h : s.memForm) : (s.setRf off hi lo v).memForm := h

theorem memForm_setPwrStat (b : Nat) (v : Bool) (h : s.memForm) : (s.setPwrStat b v).memForm := h

theorem memForm_flushed (h : s.memForm) : s.flushed.memForm := by
  unfold flushed
  split
  · exact h
  · dsimp only
    generalize bit (s.reg (oPwr + 0x30)) 63 = sv
    generalize bit (s.reg (oPwr + 0x30)) 62 = kv
    obtain ⟨a, ha⟩ : ∃ a, (if sv = true then s else
      s.stagingPages.foldl (fun s p => s.copyMem (0x7E0000400000 + 0x1000 * p) (jnvAt (0x3801000 + 0x1000 * p)) 0x1000) s) = a := ⟨_, rfl⟩
    have hforma : a.memForm := by
      rw [← ha]
      split
      · exact h
      · exact memForm_copyPages _ _ _ h
    rw [ha]
    obtain ⟨b, hb⟩ : ∃ b, (if sv = true ∨ kv = true then a else (a.copyMem (keepBase + s.keepArea.1) (jnvAt 0x3A01000) s.keepArea.2).updPwr
      (fun p => { p with
        keepOff := s.keepArea.1 / 0x10000, keepLen := s.keepArea.2 / 0x10000, keepDiff := s.keepDiffers s.keepArea.1 s.keepArea.2 })) = b := ⟨_, rfl⟩
    have hformb : b.memForm := by
      rw [← hb]
      split
      · exact hforma
      · exact memForm_updPwr _ (memForm_copyMem (keepBase + s.keepArea.1) (jnvAt 0x3A01000) s.keepArea.2 hforma)
    rw [hb]
    have hformc : ((b.setPwrStat 60 true).setWords (jnvAt 0x3B01000) (b.setPwrStat 60 true).faultWords).memForm :=
      memForm_setWords _ _ (memForm_setPwrStat 60 true hformb)
    generalize (b.setPwrStat 60 true).setWords (jnvAt 0x3B01000) (b.setPwrStat 60 true).faultWords = c at hformc ⊢
    have ends {d : State} (hd : d.memForm) : (if d.sys.rstWait = true then d.deviceReset 2 else d).memForm := by
      split
      · exact memForm_deviceReset 2 hd
      · exact hd
    apply ends
    split
    · exact hformc
    · exact memForm_setRf _ _ _ _ (memForm_setRf _ _ _ _ (memForm_updPwr _ hformc))

theorem memForm_restoreStaging (h : s.memForm) : s.restoreStaging.memForm := by
  unfold restoreStaging
  split
  · exact h
  · dsimp only
    have hpages := memForm_copyPages (fun p => jnvAt (0x3801000 + 0x1000 * p)) (fun p => 0x7E0000400000 + 0x1000 * p) s.pwr.pages h
    split
    · exact memForm_congr rfl rfl hpages
    · exact hpages

end State

/-- Settles O10: memory changes only by words, bytes and tags written one by one, by ranges copied or removed, and each keeps the form. -/
theorem memoryForm : Obligations.MemoryForm := by
  unfold Obligations.MemoryForm
  refine ⟨State.memForm_reset, fun s h => ?_⟩
  exact ⟨fun x tr width v pc => State.memForm_postStore x tr width v pc h, fun k key x w => State.memForm_cachedStore k key x w h,
    fun src pa width v => State.memForm_memStore src pa width v h, fun k ws => State.memForm_engWords k ws h,
    fun pa bs => State.memForm_engPutBytes pa bs h, fun t => State.memForm_rollback t h,
    fun t before ksync => State.memForm_toJoined t before ksync h, fun m => State.memForm_loadBody m h,
    fun pa len => State.memForm_clearRange pa len h, fun cause => State.memForm_deviceReset cause h,
    State.memForm_flushed h, State.memForm_restoreStaging h⟩

end Sys2Proof.Machine
end

section
/-!
PROOFS. What the maintenance of a line does to the caches and to memory (O12).
-/
namespace Sys2Proof.Machine

/-! ### Caches changed, and nothing else of their cores and clusters -/

/-- The cores and clusters of u are those of s but for the lines of their caches, and no request has gone out or come back. -/
structure Recached (s u : State) : Prop where
  core : ∀ k, u.core k = { s.core k with l1d := (u.core k).l1d, l1i := (u.core k).l1i, l1iLk := (u.core k).l1iLk }
  cluster : ∀ n, u.cluster n = { s.cluster n with l2 := (u.cluster n).l2, l2Lk := (u.cluster n).l2Lk }
  txns : u.txns = s.txns

namespace Recached

variable {s u v : State}

theorem refl (s : State) : Recached s s := ⟨fun _ => rfl, fun _ => rfl, rfl⟩

theorem trans (h : Recached s u) (g : Recached u v) : Recached s v where
  core k := (g.core k).trans (by rw [h.core k])
  cluster n := (g.cluster n).trans (by rw [h.cluster n])
  txns := g.txns.trans h.txns

theorem foldl {β : Type} {f : State → β → State} (hf : ∀ s b, Recached s (f s b)) (l : List β) (s : State) : Recached s (l.foldl f s) := by
  induction l generalizing s with
  | nil => exact refl s
  | cons b l ih => exact (hf s b).trans (ih _)

theorem updCore (h : Recached s u) (k : Nat) (f : Core → Core)
    (hf : ∀ c, f c = { c with l1d := (f c).l1d, l1i := (f c).l1i, l1iLk := (f c).l1iLk }) : Recached s (u.updCore k f) := by
  refine h.trans ⟨fun j => ?_, fun _ => rfl, rfl⟩
  rw [State.updCore_eq, State.core_setCore]
  split
  · next hj => exact hj ▸ hf (u.core k)
  · rfl

theorem updCluster (h : Recached s u) (n : Nat) (f : Cluster → Cluster) (hf : ∀ c, f c = { c with l2 := (f c).l2, l2Lk := (f c).l2Lk }) :
    Recached s (u.updCluster n f) := by
  refine h.trans ⟨fun _ => rfl, fun j => ?_, rfl⟩
  rw [State.updCluster_eq, State.cluster_setCluster]
  split
  · next hj => exact hj ▸ hf (u.cluster n)
  · rfl

/-- A write-back, where the line stands in no eviction buffer. -/
theorem writeBack (h : Recached s u) {line : Nat} (he : s.evicting line = none) : Recached s (u.writeBack line) :=
  h.trans ⟨fun _ => rfl, fun _ => rfl, State.cancelEvict_none ((State.evicting_congr h.txns line).trans he)⟩

end Recached

/-! ### Folds over the cores and the clusters -/

variable {s u : State}

theorem State.core_foldl_upd {P : Core → Prop} (g : Core → Core) (hg : ∀ c, P (g c)) (l : List Nat) (s : State) (k : Nat) (h : P (s.core k) ∨ k ∈ l) :
    P ((l.foldl (fun s j => s.updCore j g) s).core k) := by
  induction l generalizing s with
  | nil => exact h.resolve_right List.not_mem_nil
  | cons j l ih =>
    refine ih _ ?_
    dsimp only
    rw [State.updCore_eq, State.core_setCore]
    by_cases hj : j = k
    · rw [if_pos hj]
      exact .inl (hg _)
    · rw [if_neg hj]
      exact h.imp id (fun hk => (List.mem_cons.mp hk).resolve_left (Ne.symm hj))

theorem foldl_clusters {α : Type} {f : State → α → State} (hf : ∀ s a, ∃ cs, f s a = { s with clusters := cs }) (l : List α) (s : State) :
    ∃ cs, l.foldl f s = { s with clusters := cs } := by
  induction l generalizing s with
  | nil => exact ⟨s.clusters, rfl⟩
  | cons a l ih =>
    obtain ⟨cs, hcs⟩ := hf s a
    obtain ⟨ds, hds⟩ := ih (f s a)
    exact ⟨ds, by rw [List.foldl_cons, hds, hcs]⟩

/-! ### Lines that no L2 holds poisoned -/

/-- No L2 holds the line poisoned. -/
def State.soundAt (s : State) (line : Nat) : Prop := ∀ n m, s.l2At n line = some m → m.poison = false

theorem State.soundAt_congr {line : Nat} (h : s.soundAt line) (hc : u.clusters = s.clusters) : u.soundAt line := by
  intro n m hm
  refine h n m ?_
  unfold State.l2At State.cluster at hm ⊢
  rwa [hc] at hm

theorem State.poison_of_unpoisoned {line : Nat} (h : s.poisoned line = false) {e : Nat × Cluster} (he : e ∈ s.clusters) {m : L2Line}
    (hm : Tbl.look e.2.l2 line = some m) : m.poison = false := by
  have hp := List.any_eq_false.mp h e he
  rw [hm] at hp
  exact Bool.eq_false_iff.mpr hp

theorem State.tagBad_of_unpoisoned {line : Nat} (h : s.poisoned line = false) {e : Nat × Cluster} (he : e ∈ s.clusters)
    (hm : Tbl.look e.2.l2 line = none) : e.2.tagBad.any (fun b => b.1 = line % 4096) = false := by
  have hp := List.any_eq_false.mp h e he
  rw [hm] at hp
  exact Bool.eq_false_iff.mpr hp

theorem State.soundAt_of_unpoisoned {line : Nat} (h : s.poisoned line = false) : s.soundAt line := fun n m hm =>
  Tbl.get_of_forall (d := fun _ => Cluster.reset) (P := fun c : Cluster => ∀ m, Tbl.look c.l2 line = some m → m.poison = false)
    (fun _ he _ hm => State.poison_of_unpoisoned h he hm) n (fun _ h => by cases h) m hm

theorem State.soundAt_updCluster {line n : Nat} {f : Cluster → Cluster} (h : s.soundAt line)
    (hf : ∀ c, (∀ m, Tbl.look c.l2 line = some m → m.poison = false) → ∀ m, Tbl.look (f c).l2 line = some m → m.poison = false) :
    (s.updCluster n f).soundAt line := by
  intro j m hm
  rw [State.l2At, State.updCluster_eq, State.cluster_setCluster] at hm
  split at hm
  · exact hf _ (h n) m hm
  · exact h j m hm

/-- Nothing is cleared of the unreadable tag entries, where none could name the line. -/
theorem State.clearTagBad_unpoisoned {line : Nat} (h : s.poisoned line = false) : s.clearTagBad line = s := by
  have hstep (n : Nat) : ((s.l2At n line).isNone && (s.cluster n).tagBad.any (fun b => b.1 = line % 4096)) = false := by
    refine Tbl.get_of_forall (d := fun _ => Cluster.reset)
      (P := fun c : Cluster => ((Tbl.look c.l2 line).isNone && c.tagBad.any (fun b => b.1 = line % 4096)) = false) (fun e he => ?_) n rfl
    cases hm : Tbl.look e.2.l2 line with
    | none => exact State.tagBad_of_unpoisoned h he hm
    | some m => rfl
  unfold State.clearTagBad
  induction s.clusterList with
  | nil => rfl
  | cons n l ih =>
    rw [List.foldl_cons, hstep n]
    exact ih

theorem State.confirmLine_unprovisional {line : Nat} (h : ∀ e ∈ s.twins, e.2.provisional line = false) : s.confirmLine line = s := by
  unfold State.confirmLine
  rw [List.filter_eq_nil_iff.mpr fun e he => ?_, List.foldl_nil]
  rw [h e he]
  exact Bool.false_ne_true

/-! ### Clean copies -/

/-- An L1D copy of a line becomes clean. -/
def Core.cleanL1d (line : Nat) (c : Core) : Core :=
  match Tbl.look c.l1d line with
  | some l => { c with l1d := Tbl.insert c.l1d line { l with dirty := false } }
  | none => c

/-- An L2 copy of a line that is not poisoned becomes clean. -/
def Cluster.cleanL2 (line : Nat) (c : Cluster) : Cluster :=
  match Tbl.look c.l2 line with
  | some l => if l.poison then c else { c with l2 := Tbl.insert c.l2 line { l with dirty := false } }
  | none => c

/-- Every copy of a line clean, before memory has it. -/
def State.copiesClean (s : State) (line : Nat) : State :=
  let s1 := (s.cores.map (·.1)).foldl (fun s k => s.updCore k (Core.cleanL1d line)) s
  s1.clusterList.foldl (fun s n => s.updCluster n (Cluster.cleanL2 line)) s1

theorem State.cleanLine_eq (s : State) (line : Nat) :
    s.cleanLine line = if s.poisoned line then s.copiesClean line else (s.copiesClean line).writeBack line := rfl

theorem Core.cleanL1d_rest (line : Nat) (c : Core) :
    c.cleanL1d line = { c with l1d := (c.cleanL1d line).l1d, l1i := (c.cleanL1d line).l1i, l1iLk := (c.cleanL1d line).l1iLk } := by
  unfold Core.cleanL1d
  split <;> rfl

theorem Cluster.cleanL2_rest (line : Nat) (c : Cluster) :
    c.cleanL2 line = { c with l2 := (c.cleanL2 line).l2, l2Lk := (c.cleanL2 line).l2Lk } := by
  unfold Cluster.cleanL2
  split
  · split <;> rfl
  · rfl

theorem recached_copiesClean (s : State) (line : Nat) : Recached s (s.copiesClean line) :=
  (Recached.foldl (fun s k => (Recached.refl s).updCore k _ (Core.cleanL1d_rest line)) _ s).trans
    (Recached.foldl (fun s n => (Recached.refl s).updCluster n _ (Cluster.cleanL2_rest line)) _ _)

theorem Traffic.copiesClean (s : State) (line : Nat) : Traffic s (s.copiesClean line) :=
  (Traffic.foldl (fun s k => (Traffic.refl s).updCore k _) _ s).trans
    (Traffic.foldl (fun s n => (Traffic.refl s).updCluster n _ (fun c => by rw [Cluster.cleanL2_rest])) _ _)

theorem State.contents_copiesClean (s : State) (line : Nat) : (s.copiesClean line).contents = s.contents :=
  (State.contents_foldl _ (fun s n => s.updCluster n (Cluster.cleanL2 line)) (fun _ _ => rfl) _).trans
    (State.contents_foldl _ (fun s k => s.updCore k (Core.cleanL1d line)) (fun _ _ => rfl) _)

theorem State.soundAt_copiesClean {line : Nat} (h : s.soundAt line) : (s.copiesClean line).soundAt line := by
  have hstep (c : Cluster) (hc : ∀ m, Tbl.look c.l2 line = some m → m.poison = false) :
      ∀ m, Tbl.look (c.cleanL2 line).l2 line = some m → m.poison = false := by
    unfold Cluster.cleanL2
    split
    · next l hl =>
      rw [if_neg (by rw [hc l hl]; decide)]
      intro m hm
      have hput : Tbl.look (Tbl.insert c.l2 line { l with dirty := false }) line = some m := hm
      rw [Tbl.look_insert_self] at hput
      cases hput
      exact hc l hl
    · exact hc
  have hcores : ((s.cores.map (·.1)).foldl (fun s k => s.updCore k (Core.cleanL1d line)) s).soundAt line := by
    obtain ⟨cs, hcs⟩ := foldl_cores (f := fun (s : State) (k : Nat) => s.updCore k (Core.cleanL1d line)) (fun _ _ => ⟨_, rfl⟩) (s.cores.map (·.1)) s
    rw [hcs]
    exact State.soundAt_congr h rfl
  unfold State.copiesClean
  dsimp only
  generalize (s.cores.map (·.1)).foldl (fun s k => s.updCore k (Core.cleanL1d line)) s = u at hcores ⊢
  generalize u.clusterList = l
  induction l generalizing u with
  | nil => exact hcores
  | cons n l ih => exact ih _ (State.soundAt_updCluster hcores hstep)

/-- A line cleaned: its copies stay, memory has it. -/
theorem State.cleaned {line : Nat} (hp : s.poisoned line = false) (he : s.evicting line = none) :
    ∃ t, s.cleanLine line = t ∧ Recached s t ∧ Traffic s t ∧ t.contents = s.contents ∧ t.soundAt line ∧ Tbl.look t.backing line = none := by
  refine ⟨_, rfl, ?_⟩
  rw [State.cleanLine_eq, hp, if_neg (by decide)]
  refine ⟨(recached_copiesClean s line).writeBack he, (Traffic.copiesClean s line).writeBack line, State.contents_copiesClean s line, ?_, ?_⟩
  · exact State.soundAt_congr (State.soundAt_copiesClean (State.soundAt_of_unpoisoned hp)) rfl
  · exact Tbl.look_erase_self _ _

/-! ### Copies that leave the caches -/

theorem Core.l1iDrop_rest (line : Nat) (c : Core) :
    c.l1iDrop line = { c with l1d := (c.l1iDrop line).l1d, l1i := (c.l1iDrop line).l1i, l1iLk := (c.l1iDrop line).l1iLk } := by
  unfold Core.l1iDrop
  split
  · rfl
  · dsimp only
    split <;> rfl

theorem recached_dropL1iLine (s : State) (line : Nat) : Recached s (s.dropL1iLine line) :=
  Recached.foldl (fun s k => (Recached.refl s).updCore k _ (Core.l1iDrop_rest line)) _ s

theorem Traffic.dropL1iLine (s : State) (line : Nat) : Traffic s (s.dropL1iLine line) :=
  Traffic.foldl (fun v k => (Traffic.refl v).updCore k _) _ s

theorem State.dropL1iLine_cores (s : State) (line : Nat) : ∃ cs, s.dropL1iLine line = { s with cores := cs } :=
  foldl_cores (f := fun (s : State) (k : Nat) => s.updCore k (fun c => c.l1iDrop line)) (fun _ _ => ⟨_, rfl⟩) _ s

/-- Cluster n's L2 copy of a line becomes invalid, or invalid-locked in a locked way; a poisoned one stays unless `clear`. -/
def State.invalL2 (line : Nat) (clear : Bool) (s : State) (n : Nat) : State :=
  match s.l2At n line with
  | none => s
  | some l =>
    if l.poison && !clear then s
    else
      let lk := s.l2Locked n l.way
      s.updCluster n (fun c => { c with l2 := Tbl.erase c.l2 line, l2Lk := if lk then Tbl.insert c.l2Lk line l.way else c.l2Lk })

/-- No L1D and no L1I holds the line any more. -/
def State.l1Free (s : State) (line : Nat) : State :=
  (s.cores.map (·.1)).foldl (fun s k => s.updCore k (fun c => { c with l1d := Tbl.erase c.l1d line })) (s.dropL1iLine line)

theorem State.invalLine_eq (s : State) (line : Nat) (clear : Bool) :
    s.invalLine line clear = (s.l1Free line).clusterList.foldl (State.invalL2 line clear) (s.l1Free line) := rfl

theorem State.l1Free_cores (s : State) (line : Nat) : ∃ cs, s.l1Free line = { s with cores := cs } := by
  obtain ⟨cs, hcs⟩ := s.dropL1iLine_cores line
  obtain ⟨ds, hds⟩ := foldl_cores (f := fun (s : State) (k : Nat) => s.updCore k (fun c => { c with l1d := Tbl.erase c.l1d line }))
    (fun _ _ => ⟨_, rfl⟩) (s.cores.map (·.1)) (s.dropL1iLine line)
  refine ⟨ds, ?_⟩
  rw [State.l1Free, hds, hcs]

theorem recached_l1Free (s : State) (line : Nat) : Recached s (s.l1Free line) :=
  (recached_dropL1iLine s line).trans (Recached.foldl (fun s k => (Recached.refl s).updCore k _ (fun _ => rfl)) _ _)

theorem Traffic.l1Free (s : State) (line : Nat) : Traffic s (s.l1Free line) :=
  (Traffic.dropL1iLine s line).trans (Traffic.foldl (fun s k => (Traffic.refl s).updCore k _) _ _)

theorem State.l1dAt_unlisted {k line : Nat} (hk : k ∉ s.cores.map (·.1)) : s.l1dAt k line = none := by
  have hnone : Tbl.look s.cores k = none := Tbl.look_eq_none (fun e he hek => hk (List.mem_map.mpr ⟨e, he, hek⟩))
  have hcore : s.core k = Core.reset := by
    show (Tbl.look s.cores k).getD Core.reset = Core.reset
    rw [hnone]
    rfl
  rw [State.l1dAt, hcore]
  rfl

theorem State.l2At_unlisted {n line : Nat} (hn : n ∉ s.clusterList) : s.l2At n line = none := by
  have hnone : Tbl.look s.clusters n = none := Tbl.look_eq_none (fun e he hen => hn (List.mem_map.mpr ⟨e, he, hen⟩))
  have hcluster : s.cluster n = Cluster.reset := by
    show (Tbl.look s.clusters n).getD Cluster.reset = Cluster.reset
    rw [hnone]
    rfl
  rw [State.l2At, hcluster]
  rfl

theorem State.l1dAt_l1Free (s : State) (k line : Nat) : (s.l1Free line).l1dAt k line = none := by
  refine State.core_foldl_upd (P := fun c => Tbl.look c.l1d line = none) (fun c => { c with l1d := Tbl.erase c.l1d line })
    (fun c => Tbl.look_erase_self c.l1d line) _ _ k ?_
  by_cases hk : k ∈ s.cores.map (·.1)
  · exact .inr hk
  · refine .inl ?_
    have hdrop (c : Core) : (c.l1iDrop line).l1d = c.l1d := by
      unfold Core.l1iDrop
      split
      · rfl
      · dsimp only
        split <;> rfl
    have hl1d (l : List Nat) : ∀ v : State, ((l.foldl (fun s k => s.updCore k (fun c => c.l1iDrop line)) v).core k).l1d = (v.core k).l1d := by
      induction l with
      | nil => exact fun v => rfl
      | cons j l ih =>
        intro v
        rw [List.foldl_cons, ih, State.updCore_eq, State.core_setCore]
        split
        · next hj => rw [hdrop, hj]
        · rfl
    exact (congrArg (fun t => Tbl.look t line) (hl1d (s.cores.map (·.1)) s)).trans (State.l1dAt_unlisted hk)

theorem State.invalL2_clusters (line : Nat) (clear : Bool) (s : State) (n : Nat) : ∃ cs, State.invalL2 line clear s n = { s with clusters := cs } := by
  unfold State.invalL2
  split
  · exact ⟨s.clusters, rfl⟩
  · dsimp only
    split
    · exact ⟨s.clusters, rfl⟩
    · exact ⟨_, rfl⟩

theorem recached_invalL2 (line : Nat) (clear : Bool) (s : State) (n : Nat) : Recached s (State.invalL2 line clear s n) := by
  unfold State.invalL2
  split
  · exact .refl s
  · dsimp only
    split
    · exact .refl s
    · exact (Recached.refl s).updCluster n _ (fun _ => rfl)

theorem Traffic.invalL2 (line : Nat) (clear : Bool) (s : State) (n : Nat) : Traffic s (State.invalL2 line clear s n) := by
  unfold State.invalL2
  split
  · exact .refl s
  · dsimp only
    split
    · exact .refl s
    · exact (Traffic.refl s).updCluster n _ (fun _ => rfl)

theorem State.l2At_invalL2 {line n : Nat} {clear : Bool} (h : clear = true ∨ s.soundAt line) (j : Nat) :
    (State.invalL2 line clear s n).l2At j line = if n = j then none else s.l2At j line := by
  unfold State.invalL2
  split
  · next hnone =>
    split
    · next hj => rw [← hj, hnone]
    · rfl
  · next l hl =>
    have hgo : ¬ (l.poison && !clear) = true := by
      obtain rfl | hs := h
      · simp
      · simp [hs n l hl]
    dsimp only
    rw [if_neg hgo, State.l2At, State.updCluster_eq, State.cluster_setCluster]
    split
    · exact Tbl.look_erase_self _ _
    · rfl

theorem State.soundAt_invalL2 {line n : Nat} {clear : Bool} (h : clear = true ∨ s.soundAt line) :
    clear = true ∨ (State.invalL2 line clear s n).soundAt line := by
  refine h.imp id (fun hs j m hm => ?_)
  rw [State.l2At_invalL2 (.inr hs)] at hm
  split at hm
  · cases hm
  · exact hs j m hm

theorem State.l2At_foldl_invalL2 {line : Nat} {clear : Bool} (l : List Nat) : ∀ {s : State}, (clear = true ∨ s.soundAt line) →
    ∀ j, (s.l2At j line = none ∨ j ∈ l) → (l.foldl (State.invalL2 line clear) s).l2At j line = none := by
  induction l with
  | nil => exact fun _ j hj => hj.resolve_right List.not_mem_nil
  | cons n l ih =>
    intro s h j hj
    refine ih (State.soundAt_invalL2 h) j ?_
    rw [State.l2At_invalL2 h]
    by_cases hn : n = j
    · rw [if_pos hn]
      exact .inl rfl
    · rw [if_neg hn]
      exact hj.imp id (fun hm => (List.mem_cons.mp hm).resolve_left (Ne.symm hn))

theorem recached_invalLine (s : State) (line : Nat) (clear : Bool) : Recached s (s.invalLine line clear) := by
  rw [State.invalLine_eq]
  exact (recached_l1Free s line).trans (Recached.foldl (recached_invalL2 line clear) _ _)

theorem Traffic.invalLine (s : State) (line : Nat) (clear : Bool) : Traffic s (s.invalLine line clear) := by
  rw [State.invalLine_eq]
  exact (Traffic.l1Free s line).trans (Traffic.foldl (Traffic.invalL2 line clear) _ _)

theorem State.invalLine_caches (s : State) (line : Nat) (clear : Bool) : ∃ cs ds, s.invalLine line clear = { s with cores := cs, clusters := ds } := by
  rw [State.invalLine_eq]
  obtain ⟨cs, hcs⟩ := s.l1Free_cores line
  obtain ⟨ds, hds⟩ := foldl_clusters (State.invalL2_clusters line clear) (s.l1Free line).clusterList (s.l1Free line)
  exact ⟨cs, ds, by rw [hds, hcs]⟩

theorem State.lineFree_invalLine {line : Nat} {clear : Bool} (h : clear = true ∨ s.soundAt line) : (s.invalLine line clear).lineFree line := by
  rw [State.invalLine_eq]
  have hsound : clear = true ∨ (s.l1Free line).soundAt line := by
    obtain ⟨cs, hcs⟩ := s.l1Free_cores line
    rw [hcs]
    exact h.imp id (fun hs => State.soundAt_congr hs rfl)
  refine ⟨fun k => ?_, fun n => ?_⟩
  · obtain ⟨ds, hds⟩ := foldl_clusters (State.invalL2_clusters line clear) (s.l1Free line).clusterList (s.l1Free line)
    rw [hds]
    exact s.l1dAt_l1Free k line
  · refine State.l2At_foldl_invalL2 _ hsound n ?_
    by_cases hn : n ∈ (s.l1Free line).clusterList
    · exact .inr hn
    · exact .inl (State.l2At_unlisted hn)

/-! ### Dirty contents that are discarded -/

theorem State.word_setWordsFrom_below (ws : List Word) : ∀ (k : Nat) (s : State) (j : Nat), j / 8 < k / 8 → (setWordsFrom ws k s).word j = s.word j := by
  induction ws with
  | nil => exact fun _ _ _ _ => rfl
  | cons w ws ih =>
    intro k s j hj
    rw [setWordsFrom, ih (k + 8) _ j (by omega), State.word_setWord_ne _ _ (by omega)]

/-- Words written one after the other are read back, each at its place. -/
theorem State.word_setWordsFrom (ws : List Word) : ∀ (k : Nat) (s : State) (i : Nat), i < ws.length → (setWordsFrom ws k s).word (k + 8 * i) = ws.getD i Word.nil := by
  induction ws with
  | nil => exact fun _ _ _ hi => absurd hi (by simp)
  | cons w ws ih =>
    intro k s i hi
    rw [setWordsFrom]
    cases i with
    | zero =>
      rw [Nat.mul_zero, State.word_setWordsFrom_below _ _ _ _ (by omega)]
      exact State.word_setWord_self _ k w
    | succ i =>
      have hat : k + 8 * (i + 1) = (k + 8) + 8 * i := by omega
      rw [hat, ih (k + 8) _ i (by simpa using hi)]
      rfl

theorem State.setWordsFrom_rest (ws : List Word) : ∀ (k : Nat) (s : State), ∃ m t, setWordsFrom ws k s = { s with mem := m, tags := t } := by
  induction ws with
  | nil => exact fun k s => ⟨s.mem, s.tags, rfl⟩
  | cons w ws ih =>
    intro k s
    obtain ⟨m, t, h⟩ := ih (k + 8) (s.setWord k w)
    exact ⟨m, t, by rw [setWordsFrom, h, State.setWord_eq]⟩

/-- The discarded line: memory's own words return. -/
theorem State.discarded {line : Nat} (he : s.evicting line = none) :
    Recached s (s.discard line) ∧ (s.discard line).clusters = s.clusters ∧
      (∀ ws, Tbl.look s.backing line = some ws → ∀ i, i < ws.length → (s.discard line).word (line * 64 + 8 * i) = ws.getD i Word.nil) ∧
      (Tbl.look s.backing line = none → s.discard line = s) := by
  unfold State.discard
  split
  next ws hb =>
    have hwords : Recached s ((s.cancelEvict line).setWords (line * 64) ws) ∧ ((s.cancelEvict line).setWords (line * 64) ws).clusters = s.clusters := by
      obtain ⟨m, t, hrest⟩ := State.setWordsFrom_rest ws (line * 64) (s.cancelEvict line)
      rw [State.setWords, hrest]
      exact ⟨⟨fun _ => rfl, fun _ => rfl, State.cancelEvict_none he⟩, rfl⟩
    refine ⟨⟨hwords.1.core, hwords.1.cluster, hwords.1.txns⟩, hwords.2, fun vs h i hi => ?_, fun h => ?_⟩
    · cases hb.symm.trans h
      exact State.word_setWordsFrom ws (line * 64) (s.cancelEvict line) i hi
    · cases hb.symm.trans h
  next hb => exact ⟨.refl s, rfl, fun ws h => (by cases hb.symm.trans h), fun _ => rfl⟩

end Sys2Proof.Machine
end

section
/-!
PROOFS. CWB, CWBI and CINV over the line they name (O12).
-/
namespace Sys2Proof.Machine

section
variable {s u : State} {at_ : At}

/-! ### The line that the base names -/

/-- The address of a maintenance instruction translates to a line that it may act on, and no sweep, window or eviction buffer is in the way. -/
structure Maintains (s : State) (x : Nat) (kind : AccKind) (va : Pay) (tr : Tr) (line : Nat) : Prop where
  translates : s.translate x (s.ctx x).ring kind va = .ok tr
  names : s.key (s.coreOf x) tr.pa / 64 = line
  notTight : s.isTight x = false
  notLoose : s.isLoose x = false
  notSwept : bit ((s.core (s.coreOf x)).sp Sr.cctl) 15 = false
  l2NotSwept : s.l2Sweeping (clusterOfCore (s.coreOf x)) = false
  maintainable : s.maintainable tr.pa = true
  notEvicted : s.evicting line = none
  unprovisional : ∀ e ∈ s.twins, e.2.provisional line = false

theorem State.maintains_of {x : Nat} {kind : AccKind} {a : Word} {line : Nat} (h : s.maintLine x kind a = some line) :
    ∃ va tr, s.ea x a 0 1 (decide (kind = .store)) = some va ∧ Maintains s x kind va tr line := by
  unfold State.maintLine at h
  split at h
  · next va hva =>
    split at h
    · next tr htr =>
      dsimp only at h
      split at h
      · next hc =>
        obtain ⟨ht, hl, h15, h63, hm, he, hp⟩ := hc
        cases h
        refine ⟨va, tr, hva, State.translate_of_trOf htr, rfl, ht, hl, h15, h63, hm, Option.isNone_iff_eq_none.mp he, fun e he => ?_⟩
        simpa using List.all_eq_true.mp hp e he
      · cases h
    · cases h
  · cases h

theorem Maintains.maintTr {kind : AccKind} {va : Pay} {tr : Tr} {line : Nat} {r : Run} (h : Maintains r.s r.x kind va tr line) (hu : Undisturbed r) :
    X.maintTr (r.s.ctx r.x).ring kind va .clean r = .ok (some tr) { r with seen := r.seen ++ [.tr tr.pa tr.cache] } := by
  have hl : X.lookup (r.s.ctx r.x).ring kind va .clean r = .ok tr r := by
    unfold X.lookup
    simp only [h.notSwept, h.translates, h.l2NotSwept, Bool.false_eq_true, false_and, if_false]
  have honce : X.once (do let t ← X.lookup (r.s.ctx r.x).ring kind va .clean; pure (.tr t.pa t.cache)) r =
      .ok (.tr tr.pa tr.cache) { r with seen := r.seen ++ [.tr tr.pa tr.cache] } := by
    simp only [X.once, hu.obs, List.getElem?_nil, X.bind_ok hl, X.pure_run]
  have htr : X.translate (r.s.ctx r.x).ring kind va .clean r = .ok tr { r with seen := r.seen ++ [.tr tr.pa tr.cache] } := X.bind_ok honce _
  unfold X.maintTr
  rw [htr]

theorem X.maint_run {kind : AccKind} {a : BitVec 5} {line : Nat} (m : Maint) (h : Ready s at_ 4)
    (hline : s.maintLine (ctxOf at_) kind (s.gr (ctxOf at_) a) = some line) :
    ∃ q, X.maint m kind a (startRun s at_) = .ok .seq q ∧ q.s = s.maintain m line := by
  obtain ⟨va, tr, hea, hm⟩ := State.maintains_of hline
  have hr := h.undisturbed
  have hacc : Undisturbed { startRun s at_ with acc := (startRun s at_).acc + 1 } := ⟨hr.met, hr.obs, hr.grants, hr.held, hr.calm⟩
  refine ⟨{ startRun s at_ with
    acc := (startRun s at_).acc + 1, seen := (startRun s at_).seen ++ [Obs.tr tr.pa tr.cache], s := s.maintain m line }, ?_, rfl⟩
  unfold X.maint
  refine (X.bind_ok (X.rd_run _ a) _).trans ((X.bind_ok (X.baseTag_ok (r := startRun s at_) hea) _).trans
    ((X.bind_ok (X.eaForm_ok (r := startRun s at_) hea) _).trans ((X.bind_ok (X.eaAddr_ok hr hea) _).trans
    ((X.bind_ok (X.ring_run _) _).trans ((X.bind_ok (X.met_clean hr) _).trans ((X.bind_ok (X.closeWindow_untight hacc hm.notTight) _).trans
    ((X.bind_ok (Maintains.maintTr (r := { startRun s at_ with acc := (startRun s at_).acc + 1 }) hm hacc) _).trans
    ((X.bind_ok (X.core_run _) _).trans ?_))))))))
  show EStateM.Result.ok Flow.seq { startRun s at_ with
    acc := (startRun s at_).acc + 1, seen := (startRun s at_).seen ++ [Obs.tr tr.pa tr.cache]
    s := if s.maintainable tr.pa then s.maintain m (s.key (s.coreOf (ctxOf at_)) tr.pa / 64) else s } = _
  rw [if_pos hm.maintainable, hm.names]

/-! ### The row -/

/-- A run that has noted findings retires as one that has noted none. -/
theorem issue_noted (h : Ready s at_ 4) (long : Bool) {body : Pay → X Flow} {q : Run}
    (hb : body (s.ctx (ctxOf at_)).pc (startRun s at_) = .ok .seq q) :
    issue at_ 4 long body s = issue at_ 4 long (fun _ r => .ok .seq { r with s := q.s }) s := by
  have hrun := issue_ready h long body
  rw [hb] at hrun
  exact hrun.trans (issue_ready h long (fun _ r => .ok .seq { r with s := q.s })).symm

theorem State.retire_untight (u : State) (x : Nat) (slots : List Pay) (next : Pay) (hl : (u.ctx x).loads = []) (ht : u.isTight x = false) :
    ∃ cs, u.retire x slots next none = { u with ctxs := cs } := by
  unfold State.retire State.landLoads
  rw [hl]
  unfold State.retireMark
  dsimp only [List.map_nil, List.filter_nil, List.foldl_nil]
  rw [if_neg]
  · exact ⟨_, rfl⟩
  · exact Bool.eq_false_iff.mp ht

/-- The instruction has gone on, and but for its own context the machine is u. -/
structure GoesOn (s : State) (x : Nat) (u t : State) : Prop where
  rest : ∃ cs, t = { u with ctxs := cs }
  others : ∀ y, y ≠ x → t.ctx y = u.ctx y
  own : t.ctx x = (u.ctx x).retired ((s.ctx x).pc + 4)

theorem issue_goesOn (h : s.ready at_ 4 = true) (ht : s.isTight (ctxOf at_) = false) {body : Pay → X Flow} {q : Run}
    (hb : body (s.ctx (ctxOf at_)).pc (startRun s at_) = .ok .seq q) (hrest : q.s.twins = s.twins) (hplain : (q.s.ctx (ctxOf at_)).Plain)
    (hi : (q.s.ctx (ctxOf at_)).innermost = none) (hc : q.s.calm = true) (hq : q.s.pending = s.pending) :
    ∃ t, fin s (issue at_ 4 false body s) = .next t ∧ GoesOn s (ctxOf at_) q.s t := by
  have hr := State.ready_iff s at_ 4 h
  have hend : ∀ j, (q.s.ctx (ctxOf at_)).innermost = some j → (q.s.ctx (ctxOf at_)).leAddr j ∉ slotsOf (s.ctx (ctxOf at_)).pc 4 := by
    intro j hj
    rw [hi] at hj
    cases hj
  have htight : q.s.isTight (ctxOf at_) = false := by
    rw [← ht, State.isTight, State.isTight, State.twin, State.twin, hrest]
  obtain ⟨near, hctx, -⟩ := State.retire_seq q.s (ctxOf at_) (slotsOf (s.ctx (ctxOf at_)).pc 4) ((s.ctx (ctxOf at_)).pc + p64 4) hplain.loads hend
  refine ⟨_, ?_, ⟨State.retire_untight q.s (ctxOf at_) _ _ hplain.loads htight, near.others, ?_⟩⟩
  · rw [issue_noted hr false hb]
    exact issue_seq h false rfl hplain.loads hend hc hq
  · rw [hctx, hplain.marked_setPc]
    rfl

theorem Traffic.goesOn (h : Traffic s u) (hrec : Recached s u) {x : Nat} {t : State} (g : GoesOn s x u t) : OnlyCaches s x t where
  rest := by
    obtain ⟨cs, hcs⟩ := g.rest
    have hu := h.rest
    rw [hrec.txns] at hu
    rw [hcs, hu]
  others y hy := by rw [g.others y hy, h.ctx]
  regs k := by rw [g.own, h.ctx]; rfl
  pc := by rw [g.own, Ctx.pc_retired]
  spec n hn := by rw [g.own, h.ctx, Ctx.sp_retired, if_neg (Ne.symm hn)]
  core k := by
    obtain ⟨cs, hcs⟩ := g.rest
    rw [hcs]
    exact hrec.core k
  cluster n := by
    obtain ⟨cs, hcs⟩ := g.rest
    rw [hcs]
    exact hrec.cluster n

/-- A maintenance row over a line that leaves u. -/
theorem maintRow_goesOn {f : RF} {min line : Nat} {mt : Meta} {kind : AccKind} {m : Maint} (h : s.ready at_ 4 = true) (hm : rMeta 0x2C min = some mt)
    (hrsv : mt.rsvR f = true) (hring : (s.ctx (ctxOf at_)).ring ≤ mt.ringMax)
    (hline : s.maintLine (ctxOf at_) kind (s.gr (ctxOf at_) f.a) = some line) (hu : s.maintain m line = u) (htr : Traffic s u) (hrec : Recached s u) :
    ∃ t, fin s (s.rowR at_ f 0x2C min false (fun _ => X.maint m kind f.a)) = .next t ∧ OnlyCaches s (ctxOf at_) t ∧ ∃ cs, t = { u with ctxs := cs } := by
  have hr := State.ready_iff s at_ 4 h
  obtain ⟨va, tr, -, hmaint⟩ := State.maintains_of hline
  obtain ⟨q, hrun, hq⟩ := X.maint_run m hr hline
  rw [hu] at hq
  obtain ⟨t, hfin, hgo⟩ := issue_goesOn h hmaint.notTight (body := fun _ => do
    X.decodeChecks ((rMeta 0x2C min).getD (metaR 0x2C min)) (((rMeta 0x2C min).getD (metaR 0x2C min)).rsvR f)
    X.maint m kind f.a) ((rowR_checked hr hm hrsv hring (fun _ => X.maint m kind f.a) (s.ctx (ctxOf at_)).pc).trans hrun)
    (hq ▸ htr.twins) (by rw [hq, htr.ctx]; exact hr.plain) (by rw [hq, htr.ctx]; exact hr.innermost) (hq ▸ htr.calm hr.calm) (by rw [hq, htr.rest])
  rw [hq] at hgo
  exact ⟨t, hfin, htr.goesOn hrec hgo, hgo.rest⟩

/-! ### What each leaves (R408) -/

variable {f : RF} {line : Nat}

theorem onlyA_rsv (hd : f.d = 0) (hb : f.b = 0) (hrsv : f.rsv = 0) : (metaR 0x2C 5).onlyA.rsvR f = true := by
  simp [Meta.rsvR, metaR, Meta.onlyA, hd, hb, hrsv]

theorem onlyA_priv_rsv (hd : f.d = 0) (hb : f.b = 0) (hrsv : f.rsv = 0) (min : Nat) : (metaR 0x2C min).onlyA.priv.rsvR f = true := by
  simp [Meta.rsvR, metaR, Meta.onlyA, Meta.priv, hd, hb, hrsv]

theorem Maintains.confirmed {x : Nat} {kind : AccKind} {va : Pay} {tr : Tr} (h : Maintains s x kind va tr line) : s.confirmLine line = s :=
  State.confirmLine_unprovisional h.unprovisional

theorem cwb_cleans (h : s.ready at_ 4 = true) (hd : f.d = 0) (hb : f.b = 0) (hrsv : f.rsv = 0) (hp : s.poisoned line = false)
    (hline : s.maintLine (ctxOf at_) .load (s.gr (ctxOf at_) f.a) = some line) :
    ∃ t, exec (.cwb at_ f) s = .next t ∧ OnlyCaches s (ctxOf at_) t ∧ t.mem = s.mem ∧ t.tags = s.tags ∧ t.lineDirty line = false := by
  obtain ⟨va, tr, -, hm⟩ := State.maintains_of hline
  obtain ⟨v, hv, hrec, htr, hcontents, -, hclean⟩ := State.cleaned hp hm.notEvicted
  obtain ⟨cs, hcs⟩ := v.dropL1iLine_cores line
  have hu : s.maintain .cwb line = v.dropL1iLine line := by
    show ((s.confirmLine line).cleanLine line).dropL1iLine line = _
    rw [hm.confirmed, hv]
  obtain ⟨t, hexec, honly, ds, ht⟩ := maintRow_goesOn (f := f) (min := 5) h rfl (onlyA_rsv hd hb hrsv) (ring_le _) hline hu
    (htr.trans (Traffic.dropL1iLine v line)) (hrec.trans (recached_dropL1iLine v line))
  obtain ⟨hmem, htags⟩ := Prod.mk.inj hcontents
  refine ⟨t, hexec, honly, ?_, ?_, ?_⟩
  · rw [ht, hcs]; exact hmem
  · rw [ht, hcs]; exact htags
  · rw [ht, hcs, State.lineDirty]
    show (Tbl.look v.backing line).isSome = false
    rw [hclean]
    rfl

theorem cwbi_frees (h : s.ready at_ 4 = true) (hd : f.d = 0) (hb : f.b = 0) (hrsv : f.rsv = 0) (hp : s.poisoned line = false)
    (hring : (s.ctx (ctxOf at_)).ring ≤ 1) (hline : s.maintLine (ctxOf at_) .store (s.gr (ctxOf at_) f.a) = some line) :
    ∃ t, exec (.cwbi at_ f) s = .next t ∧ OnlyCaches s (ctxOf at_) t ∧ t.mem = s.mem ∧ t.tags = s.tags ∧ t.lineDirty line = false ∧ t.lineFree line := by
  obtain ⟨va, tr, -, hm⟩ := State.maintains_of hline
  obtain ⟨v, hv, hrec, htr, hcontents, hsound, hclean⟩ := State.cleaned hp hm.notEvicted
  obtain ⟨cs, ds, hcs⟩ := v.invalLine_caches line false
  have hu : s.maintain .cwbi line = v.invalLine line false := by
    show ((s.confirmLine line).cleanLine line).invalLine line false = _
    rw [hm.confirmed, hv]
  obtain ⟨t, hexec, honly, es, ht⟩ := maintRow_goesOn (f := f) (min := 7) h rfl (onlyA_priv_rsv hd hb hrsv 7) hring hline hu
    (htr.trans (Traffic.invalLine v line false)) (hrec.trans (recached_invalLine v line false))
  have hfree := State.lineFree_invalLine (line := line) (clear := false) (.inr hsound)
  obtain ⟨hmem, htags⟩ := Prod.mk.inj hcontents
  refine ⟨t, hexec, honly, ?_, ?_, ?_, ?_⟩
  · rw [ht, hcs]; exact hmem
  · rw [ht, hcs]; exact htags
  · rw [ht, hcs, State.lineDirty]
    show (Tbl.look v.backing line).isSome = false
    rw [hclean]
    rfl
  · rw [ht]
    exact hfree

theorem cinv_frees (h : s.ready at_ 4 = true) (hd : f.d = 0) (hb : f.b = 0) (hrsv : f.rsv = 0) (hp : s.poisoned line = false)
    (hring : (s.ctx (ctxOf at_)).ring ≤ 1) (hline : s.maintLine (ctxOf at_) .store (s.gr (ctxOf at_) f.a) = some line) :
    ∃ t, exec (.cinv at_ f) s = .next t ∧ OnlyCaches s (ctxOf at_) t ∧ t.lineFree line ∧
      (∀ ws, Tbl.look s.backing line = some ws → ∀ i, i < ws.length → t.word (line * 64 + 8 * i) = ws.getD i Word.nil) ∧
      (Tbl.look s.backing line = none → t.mem = s.mem ∧ t.tags = s.tags) := by
  obtain ⟨va, tr, -, hm⟩ := State.maintains_of hline
  obtain ⟨hrec, -, hwords, hkept⟩ := State.discarded hm.notEvicted
  obtain ⟨cs, ds, hcs⟩ := (s.discard line).invalLine_caches line true
  have hu : s.maintain .cinv line = (s.discard line).invalLine line true := by
    show (((s.confirmLine line).clearTagBad line).discard line).invalLine line true = _
    rw [hm.confirmed, State.clearTagBad_unpoisoned hp]
  obtain ⟨t, hexec, honly, es, ht⟩ := maintRow_goesOn (f := f) (min := 6) h rfl (onlyA_priv_rsv hd hb hrsv 6) hring hline hu
    ((Traffic.discard s line).trans (Traffic.invalLine _ line true)) (hrec.trans (recached_invalLine _ line true))
  have hfree := State.lineFree_invalLine (s := s.discard line) (line := line) (clear := true) (.inl rfl)
  refine ⟨t, hexec, honly, ?_, fun ws hws i hi => ?_, fun hnone => ?_⟩
  · rw [ht]
    exact hfree
  · rw [ht, hcs]
    exact hwords ws hws i hi
  · rw [ht, hcs, hkept hnone]
    exact ⟨rfl, rfl⟩

end

end Sys2Proof.Machine
end

section
/-!
PROOFS. CINVR and CINVR.NW, writes of CCTL and the sweep of the L1D (O12).
-/
namespace Sys2Proof.Machine

section
variable {s u : State} {at_ : At} {f : RF}

/-! ### Ranges of lines (R410) -/

theorem firstN_none {n lo : Nat} {p : Nat → Bool} (h : ∀ i, lo ≤ i → i < lo + n → p i = false) : firstN n lo p = none := by
  induction n generalizing lo with
  | zero => rfl
  | succ n ih =>
    rw [firstN, if_neg (by rw [h lo (Nat.le_refl _) (by omega)]; decide)]
    exact ih (fun i hlo hi => h i (by omega) (by omega))

theorem Traffic.cleanLine (s : State) (line : Nat) : Traffic s (s.cleanLine line) := by
  rw [State.cleanLine_eq]
  split
  · exact .copiesClean s line
  · exact (Traffic.copiesClean s line).writeBack line

theorem State.contents_cleanLine (s : State) (line : Nat) : (s.cleanLine line).contents = s.contents := by
  rw [State.cleanLine_eq]
  split
  · exact s.contents_copiesClean line
  · exact s.contents_copiesClean line

theorem State.contents_invalLine (s : State) (line : Nat) (clear : Bool) : (s.invalLine line clear).contents = s.contents := by
  obtain ⟨cs, ds, h⟩ := s.invalLine_caches line clear
  rw [h]
  rfl

theorem Traffic.clearTagBad (s : State) (line : Nat) : Traffic s (s.clearTagBad line) := by
  refine Traffic.foldl (fun v n => ?_) _ s
  split
  · exact (Traffic.refl v).updCluster n _ (fun _ => rfl)
  · exact .refl v

/-- A machine whose twins have written nothing that is not confirmed. -/
def State.confirmed (s : State) : Prop := ∀ e ∈ s.twins, e.2.undo = []

theorem State.confirmLine_confirmed (h : s.confirmed) (line : Nat) : s.confirmLine line = s :=
  State.confirmLine_unprovisional (fun e he => by rw [Twin.provisional, h e he]; rfl)

theorem Traffic.maintain (h : s.confirmed) (m : Maint) (line : Nat) : Traffic s (s.maintain m line) := by
  unfold State.maintain
  dsimp only
  rw [State.confirmLine_confirmed h]
  cases m with
  | cwb => exact (Traffic.cleanLine s line).trans (.dropL1iLine _ line)
  | cwbi => exact (Traffic.cleanLine s line).trans (.invalLine _ line false)
  | cinvr => exact (Traffic.cleanLine s line).trans (.invalLine _ line false)
  | cinv => exact ((Traffic.clearTagBad s line).trans (.discard _ line)).trans (.invalLine _ line true)
  | cinvrNw => exact ((Traffic.clearTagBad s line).trans (.discard _ line)).trans (.invalLine _ line true)

theorem State.contents_cinvr (h : s.confirmed) (line : Nat) : (s.maintain .cinvr line).contents = s.contents := by
  show (((s.confirmLine line).cleanLine line).invalLine line false).contents = s.contents
  rw [State.confirmLine_confirmed h, State.contents_invalLine, State.contents_cleanLine]

/-- One line of a range of core k from `st` up. -/
def State.maintainAt (m : Maint) (k st i : Nat) (s : State) : State :=
  if s.maintainable (st + 64 * i) then s.maintain m (s.key k (st + 64 * i) / 64) else s

theorem Traffic.maintainAt (h : s.confirmed) (m : Maint) (k st i : Nat) : Traffic s (s.maintainAt m k st i) := by
  unfold State.maintainAt
  split
  · exact .maintain h m _
  · exact .refl s

theorem Traffic.maintainRange (m : Maint) (k st n : Nat) : ∀ (lo : Nat) {s : State}, s.confirmed → Traffic s (Machine.forN n lo (State.maintainAt m k st) s) := by
  induction n with
  | zero => exact fun lo s _ => .refl s
  | succ n ih =>
    intro lo s h
    have hstep := Traffic.maintainAt h m k st lo
    refine hstep.trans (ih (lo + 1) ?_)
    unfold State.confirmed
    rw [hstep.twins]
    exact h

theorem State.contents_cinvrRange (k st n : Nat) : ∀ (lo : Nat) {s : State}, s.confirmed → (forN n lo (State.maintainAt .cinvr k st) s).contents = s.contents := by
  induction n with
  | zero => exact fun lo s _ => rfl
  | succ n ih =>
    intro lo s h
    have hstep := Traffic.maintainAt h .cinvr k st lo
    have hconf : (s.maintainAt .cinvr k st lo).confirmed := by
      unfold State.confirmed
      rw [hstep.twins]
      exact h
    refine (ih (lo + 1) hconf).trans ?_
    unfold State.maintainAt
    split
    · exact State.contents_cinvr h _
    · rfl

/-- The range of a maintenance instruction: the first line's address and the count of lines, in form and permitted. -/
structure Ranges (s : State) (x : Nat) (a b : Word) (st n : Nat) : Prop where
  formA : immForm a = true
  formB : immForm b = true
  start : st = fld a.pay 47 6 * 64
  count : n = min b.pay.toNat 4096
  high : fld a.pay 63 48 = 0
  within : st + 64 * n ≤ 2 ^ 48
  permitted : ∀ i, i < n → s.prtOk (s.ctx x).ring (st + 64 * i) = true

theorem X.maintRange_run (m : Maint) {st n : Nat} (h : Ready s at_ 4) (ht : s.isTight (ctxOf at_) = false)
    (hr : Ranges s (ctxOf at_) (s.gr (ctxOf at_) f.a) (s.gr (ctxOf at_) f.b) st n) :
    X.maintRange m f.d f.a f.b (startRun s at_) = .ok .seq { startRun s at_ with
      s := (forN n 0 (State.maintainAt m (s.coreOf (ctxOf at_)) st) s).wrReg (ctxOf at_) f.d (Word.fixN ((s.gr (ctxOf at_) f.b).pay.toNat - n)) } := by
  obtain ⟨hA, hB, rfl, rfl, hhigh, hwithin, hok⟩ := hr
  have hnone : firstN (min (s.gr (ctxOf at_) f.b).pay.toNat 4096) 0
      (fun i => !s.prtOk (s.ctx (ctxOf at_)).ring (fld (s.gr (ctxOf at_) f.a).pay 47 6 * 64 + 64 * i)) = none :=
    firstN_none (fun i _ hi => by rw [hok i (by omega)]; rfl)
  have hrange : ¬ (fld (s.gr (ctxOf at_) f.a).pay 63 48 ≠ 0 ∨
      fld (s.gr (ctxOf at_) f.a).pay 47 6 * 64 + 64 * min (s.gr (ctxOf at_) f.b).pay.toNat 4096 > 2 ^ 48) := by
    rintro (h | h)
    · exact h hhigh
    · omega
  unfold X.maintRange
  refine (X.bind_ok (X.rdUsed_run (startRun s at_) hA) _).trans ((X.bind_ok (X.rdUsed_run (startRun s at_) hB) _).trans
    ((X.bind_ok (X.ring_run _) _).trans ((X.bind_ok (X.st_run _) _).trans ((X.bind_ok (X.core_run _) _).trans ?_))))
  refine (congrFun (if_neg hrange) _).trans ?_
  have hfirst : firstN (min (((startRun s at_).s.ctx (startRun s at_).x).rd f.b).pay.toNat 4096) 0
      (fun i => !(startRun s at_).s.prtOk ((startRun s at_).s.ctx (startRun s at_).x).ring
        (fld (((startRun s at_).s.ctx (startRun s at_).x).rd f.a).pay 47 6 * 64 + 64 * i)) = none := hnone
  rw [hfirst]
  exact X.bind_ok (X.closeWindow_untight h.undisturbed ht) _

theorem State.wrReg_untight {x : Nat} (ht : s.isTight x = false) (d : BitVec 5) (w : Word) : ∃ cs, s.wrReg x d w = { s with ctxs := cs } := by
  unfold State.wrReg
  dsimp only
  rw [if_neg (fun h => by rw [ht] at h; cases h.1)]
  exact ⟨_, rfl⟩

theorem maintRange_goesOn (m : Maint) {min st n : Nat} (h : s.ready at_ 4 = true) (hmin : min = 8 ∨ min = 9) (hrsv : f.rsv = 0)
    (hring : (s.ctx (ctxOf at_)).ring ≤ 1) (ht : s.isTight (ctxOf at_) = false) (hconf : s.confirmed)
    (hr : Ranges s (ctxOf at_) (s.gr (ctxOf at_) f.a) (s.gr (ctxOf at_) f.b) st n) :
    ∃ t, fin s (s.rowR at_ f 0x2C min false (fun _ => X.maintRange m f.d f.a f.b)) = .next t ∧
      (f.d ≠ 0 → t.gr (ctxOf at_) f.d = Word.fixN ((s.gr (ctxOf at_) f.b).pay.toNat - n)) ∧
      (∀ r, r ≠ regKey (s.ctx (ctxOf at_)).bank f.d → (t.ctx (ctxOf at_)).rdKey r = (s.ctx (ctxOf at_)).rdKey r) ∧
      (t.ctx (ctxOf at_)).pc = (s.ctx (ctxOf at_)).pc + 4 ∧
      t.contents = (forN n 0 (State.maintainAt m (s.coreOf (ctxOf at_)) st) s).contents := by
  have hready := State.ready_iff s at_ 4 h
  have hmeta : rMeta 0x2C min = some (metaR 0x2C min).priv := by obtain rfl | rfl := hmin <;> rfl
  have hfields : (metaR 0x2C min).priv.rsvR f = true := by simp [Meta.rsvR, metaR, Meta.priv, hrsv]
  have htr := Traffic.maintainRange m (s.coreOf (ctxOf at_)) st n 0 hconf
  have hrun := (rowR_checked hready hmeta hfields hring (fun _ => X.maintRange m f.d f.a f.b) (s.ctx (ctxOf at_)).pc).trans
    (X.maintRange_run m hready ht hr)
  generalize forN n 0 (State.maintainAt m (s.coreOf (ctxOf at_)) st) s = u at htr hrun ⊢
  generalize Word.fixN ((s.gr (ctxOf at_) f.b).pay.toNat - n) = w at hrun ⊢
  have htight : u.isTight (ctxOf at_) = false := by rw [← ht, State.isTight, State.isTight, State.twin, State.twin, htr.twins]
  obtain ⟨cs, hcs⟩ := State.wrReg_untight htight f.d w
  have hctx : (u.wrReg (ctxOf at_) f.d w).ctx (ctxOf at_) = (s.ctx (ctxOf at_)).wr f.d w := by rw [State.ctx_wrReg, htr.ctx]
  have hin := within_wrReg u (ctxOf at_) f.d w
  obtain ⟨t, hfin, hgo⟩ := issue_goesOn h ht (body := fun _ => do
      X.decodeChecks ((rMeta 0x2C min).getD (metaR 0x2C min)) (((rMeta 0x2C min).getD (metaR 0x2C min)).rsvR f)
      X.maintRange m f.d f.a f.b) hrun
    (by show (u.wrReg (ctxOf at_) f.d w).twins = s.twins; rw [hcs]; exact htr.twins)
    (by rw [hctx]; exact hready.plain.wr f.d w) (by rw [hctx, Ctx.innermost_wr]; exact hready.innermost)
    (hin.calm.trans (htr.calm hready.calm)) (hin.pending.trans (by rw [htr.rest]))
  have hown : t.ctx (ctxOf at_) = ((s.ctx (ctxOf at_)).wr f.d w).retired ((s.ctx (ctxOf at_)).pc + 4) := by rw [hgo.own, hctx]
  obtain ⟨hdest, hregs⟩ := Ctx.retired_wr (s.ctx (ctxOf at_)) f.d w ((s.ctx (ctxOf at_)).pc + 4)
  obtain ⟨ds, hds⟩ := hgo.rest
  refine ⟨t, hfin, fun hd => ?_, fun r hr => ?_, ?_, ?_⟩
  · show (t.ctx (ctxOf at_)).rd f.d = w
    rw [hown]
    exact hdest hd
  · rw [hown]
    exact hregs r hr
  · rw [hown, Ctx.pc_retired]
  · rw [hds]
    show (u.wrReg (ctxOf at_) f.d w).contents = u.contents
    rw [hcs]
    rfl

/-! ### CCTL written (R414, R419) -/

theorem and_maskFld_of_clear {q : Pay} {b : Nat} (hb : b < 64) (h : bit q b = false) : q &&& maskFld b b = 0 := by
  apply BitVec.eq_of_getLsbD_eq
  intro i _
  show bit (q &&& maskFld b b) i = bit 0 i
  have hand : bit (q &&& maskFld b b) i = (bit q i && bit (maskFld b b) i) := by simp only [bit, BitVec.getLsbD_and]
  rw [hand, bit_maskFld b b i hb (Nat.le_refl _)]
  by_cases hi : b ≤ i ∧ i ≤ b
  · have : i = b := by omega
    rw [this, h, Bool.false_and]
    simp [bit]
  · rw [decide_eq_false hi, Bool.and_false]
    simp [bit]

theorem Tbl.key_of_mem_erase {α : Type} {t : Tbl α} {k : Nat} {e : Nat × α} (h : e ∈ Tbl.erase t k) : e.1 ≠ k :=
  Tbl.key_ne_of_look (Tbl.look_erase_self t k) e h

/-- A table loses every key of a list. -/
theorem Tbl.mem_foldl_erase {α : Type} (l : List Nat) : ∀ {t : Tbl α} {e : Nat × α}, e ∈ l.foldl Tbl.erase t → e ∈ t ∧ e.1 ∉ l := by
  induction l with
  | nil => exact fun h => ⟨h, List.not_mem_nil⟩
  | cons k l ih =>
    intro t e h
    obtain ⟨hmem, hnot⟩ := ih h
    exact ⟨Tbl.mem_erase hmem, fun hl => (List.mem_cons.mp hl).elim (Tbl.key_of_mem_erase hmem) hnot⟩

theorem Tbl.foldl_erase_keys {α : Type} (t : Tbl α) : (t.map (·.1)).foldl Tbl.erase t = [] := by
  refine List.eq_nil_iff_forall_not_mem.mpr (fun e he => ?_)
  obtain ⟨hmem, hnot⟩ := Tbl.mem_foldl_erase _ he
  exact hnot (List.mem_map.mpr ⟨e, hmem, rfl⟩)

theorem Core.l1i_l1iDrop (c : Core) (line : Nat) : (c.l1iDrop line).l1i = Tbl.erase c.l1i line := by
  unfold Core.l1iDrop
  split
  · next hnone => exact (Tbl.erase_unlisted (Tbl.key_ne_of_look hnone)).symm
  · dsimp only
    split <;> rfl

/-- Every line of the L1I leaves. -/
def Core.emptyL1i (c : Core) : Core := (c.l1i.map (·.1)).foldl (fun c l => c.l1iDrop l) c

theorem Core.foldl_l1iDrop (l : List Nat) : ∀ c : Core, (l.foldl (fun c l => c.l1iDrop l) c).l1i = l.foldl Tbl.erase c.l1i ∧
    l.foldl (fun c l => c.l1iDrop l) c =
      { c with l1i := (l.foldl (fun c l => c.l1iDrop l) c).l1i, l1iLk := (l.foldl (fun c l => c.l1iDrop l) c).l1iLk } := by
  induction l with
  | nil => exact fun c => ⟨rfl, rfl⟩
  | cons line l ih =>
    intro c
    obtain ⟨hl1i, hrest⟩ := ih (c.l1iDrop line)
    have hdrop : c.l1iDrop line = { c with l1i := (c.l1iDrop line).l1i, l1iLk := (c.l1iDrop line).l1iLk } := by
      unfold Core.l1iDrop
      split
      · rfl
      · dsimp only
        split <;> rfl
    rw [List.foldl_cons, List.foldl_cons]
    exact ⟨by rw [hl1i, Core.l1i_l1iDrop], by rw [hrest, hdrop]⟩

theorem Core.l1i_emptyL1i (c : Core) : c.emptyL1i.l1i = [] := (Core.foldl_l1iDrop _ c).1.trans (Tbl.foldl_erase_keys c.l1i)

theorem Core.emptyL1i_rest (c : Core) : c.emptyL1i = { c with l1i := c.emptyL1i.l1i, l1iLk := c.emptyL1i.l1iLk } := (Core.foldl_l1iDrop _ c).2

/-- A core after the write of v to its CCTL, no sweep under way. -/
structure CctlWritten (c : Core) (v : Pay) (d : Core) : Prop where
  value : d.sp Sr.cctl = v &&& maskFld 7 0
  l1d : d.l1d = c.l1d
  emptied : bit (c.sp Sr.cctl) 1 = true → bit v 1 = false → d.l1i = []

theorem State.writeCctl_set (s : State) (x : Nat) {k : Nat} {v : Pay} (h15 : bit ((s.core k).sp Sr.cctl) 15 = false) :
    ∃ d, CoreSet s x k d (s.writeCctl k v) ∧ CctlWritten (s.core k) v d := by
  have hvalue : (v &&& maskFld 7 0) ||| ((s.core k).sp Sr.cctl &&& maskFld 15 15) = v &&& maskFld 7 0 := by
    rw [and_maskFld_of_clear (by decide) h15]
    exact BitVec.or_zero
  unfold State.writeCctl
  dsimp only
  rw [hvalue]
  by_cases hoff : bit ((s.core k).sp Sr.cctl) 1 = true ∧ (!bit v 1) = true
  · rw [if_pos hoff]
    have hset := ((CoreSet.refl s x k).upd Core.emptyL1i).upd
      (fun c => { (c.setSp Sr.cctl (v &&& maskFld 7 0)) with l1iLk := c.l1iLk.filter (fun e => bit v (4 + e.2)) })
    refine ⟨_, hset, Core.sp_setSp_self _ _ _, ?_, fun _ _ => Core.l1i_emptyL1i (s.core k)⟩
    show (s.core k).emptyL1i.l1d = (s.core k).l1d
    rw [Core.emptyL1i_rest]
  · rw [if_neg hoff]
    have hset := (CoreSet.refl s x k).upd
      (fun c => { (c.setSp Sr.cctl (v &&& maskFld 7 0)) with l1iLk := c.l1iLk.filter (fun e => bit v (4 + e.2)) })
    exact ⟨_, hset, Core.sp_setSp_self _ _ _, rfl, fun h1 h2 => absurd ⟨h1, by rw [h2]; rfl⟩ hoff⟩

end

section
variable {s : State} {at_ : At} {f : SF}

theorem X.mtsCctl_checked (h : Ready s at_ 4) (v : Pay) (ht : s.isTight (ctxOf at_) = false) (hl : s.isLoose (ctxOf at_) = false)
    (hp : s.lastPosted (ctxOf at_) = none) (h15 : bit ((s.core (s.coreOf (ctxOf at_))).sp Sr.cctl) 15 = false) :
    X.mtsCctl v (startRun s at_) = (if bit ((s.core (s.coreOf (ctxOf at_))).sp Sr.cctl) 0 ∧ !bit v 0 then do
        X.upd (fun s' => s'.updCore (s.coreOf (ctxOf at_)) (fun c => c.setSp Sr.cctl (setBit (c.sp Sr.cctl) 15 true)))
        X.park (.sweep v 4 false)
      else do
        let x ← X.ctxNo
        X.upd (fun s' => s'.signedCctl (s.coreOf (ctxOf at_)) x v)
        return .seq : X Flow) (startRun s at_) := by
  unfold X.mtsCctl
  refine (X.bind_ok (X.core_run _) _).trans ((X.bind_ok (X.st_run _) _).trans ?_)
  refine (X.check_passed (by rw [show bit (((startRun s at_).s.core ((startRun s at_).s.coreOf (startRun s at_).x)).sp Sr.cctl) 15 = false from h15]; decide)).trans ?_
  exact (X.bind_ok (X.closeWindow_untight h.undisturbed ht) _).trans ((X.bind_ok (X.storesDone_acknowledged hl hp) _).trans
    (X.bind_ok (X.st_run _) _))

end

end Sys2Proof.Machine
end

section
/-!
PROOFS. MTS to CCTL, the end of the L1D sweep, and the cache instructions as a whole (O12).
-/
namespace Sys2Proof.Machine

section
variable {s u : State} {at_ : At} {f : SF}

/-! ### MTS to CCTL (R414, R417 to R419) -/

/-- An MTS by name is an MTS to the register of its row. -/
theorem rowMts_body (hd : f.d = 0) (hhi : f.hi = 0) (hok : s.mtsOk (ctxOf at_) Sr.cctl (s.gr (ctxOf at_) f.a).tag = true) :
    let g : IF := ⟨f.d, f.a, BitVec.ofNat 16 (f.hi.toNat * 4096 + Sr.cctl)⟩
    (do X.decodeChecks ((iMeta 0x1F).getD (metaR 0x1F 0)) (((iMeta 0x1F).getD (metaR 0x1F 0)).rsvI g && immOk 0x1F g.imm.toNat)
        opMts f.a Sr.cctl : X Flow) (startRun s at_) = X.mtsCctl (s.gr (ctxOf at_) f.a).pay (startRun s at_) := by
  intro g
  have hrsv : ((metaR 0x1F 0).onlyA.rsvI g && immOk 0x1F g.imm.toNat) = true := by
    have himm : g.imm = BitVec.ofNat 16 Sr.cctl := by
      show BitVec.ofNat 16 (f.hi.toNat * 4096 + Sr.cctl) = _
      rw [hhi]
      rfl
    rw [himm]
    have hfits : immOk 0x1F (BitVec.ofNat 16 Sr.cctl).toNat = true := rfl
    rw [hfits, Bool.and_true]
    simp [Meta.rsvI, Meta.onlyA, metaR, hd, g]
  refine (rowI_body (f := g) (maj := 0x1F) (m := (metaR 0x1F 0).onlyA) rfl hrsv rfl rfl (fun _ => opMts f.a Sr.cctl)).trans ?_
  exact (opMts_run hok).trans rfl

theorem mtsCctl_writes (h : s.ready at_ 4 = true) (hd : f.d = 0) (hhi : f.hi = 0) (ht : s.isTight (ctxOf at_) = false)
    (hl : s.isLoose (ctxOf at_) = false) (hp : s.lastPosted (ctxOf at_) = none)
    (h15 : bit ((s.core (s.coreOf (ctxOf at_))).sp Sr.cctl) 15 = false) (hok : s.mtsOk (ctxOf at_) Sr.cctl (s.gr (ctxOf at_) f.a).tag = true)
    (hon : bit ((s.core (s.coreOf (ctxOf at_))).sp Sr.cctl) 0 = false ∨ bit (s.gr (ctxOf at_) f.a).pay 0 = true) :
    ∃ t, exec (.mtsCctl at_ f) s = .next t ∧ OnlyCore s (ctxOf at_) (s.coreOf (ctxOf at_)) t ∧
      (∀ r, (t.ctx (ctxOf at_)).rdKey r = (s.ctx (ctxOf at_)).rdKey r) ∧
      CctlWritten (s.core (s.coreOf (ctxOf at_))) (s.gr (ctxOf at_) f.a).pay (t.core (s.coreOf (ctxOf at_))) := by
  have hr := State.ready_iff s at_ 4 h
  have hstay : ¬ (bit ((s.core (s.coreOf (ctxOf at_))).sp Sr.cctl) 0 = true ∧ (!bit (s.gr (ctxOf at_) f.a).pay 0) = true) := by
    rintro ⟨h0, hv⟩
    obtain hoff | hon := hon
    · rw [hoff] at h0; cases h0
    · rw [hon] at hv; cases hv
  have hsigned : s.signedCctl (s.coreOf (ctxOf at_)) (ctxOf at_) (s.gr (ctxOf at_) f.a).pay = s.writeCctl (s.coreOf (ctxOf at_)) (s.gr (ctxOf at_) f.a).pay := by
    unfold State.signedCctl
    dsimp only
    rw [ht, if_neg (by decide)]
  have hb : X.mtsWrite Sr.cctl (s.gr (ctxOf at_) f.a).pay (startRun s at_) = .ok .seq { startRun s at_ with
      s := s.writeCctl (s.coreOf (ctxOf at_)) (s.gr (ctxOf at_) f.a).pay } := by
    refine ((X.mtsCctl_checked hr (s.gr (ctxOf at_) f.a).pay ht hl hp h15).trans (congrFun (if_neg hstay) _)).trans ?_
    rw [← hsigned]
    rfl
  obtain ⟨d, hset, hwritten⟩ := State.writeCctl_set s (ctxOf at_) (v := (s.gr (ctxOf at_) f.a).pay) h15
  obtain ⟨honly, hregs, hcore⟩ := onlyCore_retire hr hset
  exact ⟨_, mtsRow_seq (if_pos ⟨hd, hhi⟩) h hok hb (by rw [hset.ctxs]; exact hr.loads) (hr.noLoopEnd (by rw [hset.ctxs]) _) (hset.calm.trans hr.calm)
    hset.pending, honly, hregs, hcore ▸ hwritten⟩

/-- One that clears EN starts the sweep and waits for it. -/
theorem mtsCctl_sweeps (h : s.ready at_ 4 = true) (hd : f.d = 0) (hhi : f.hi = 0) (ht : s.isTight (ctxOf at_) = false)
    (hl : s.isLoose (ctxOf at_) = false) (hp : s.lastPosted (ctxOf at_) = none)
    (h15 : bit ((s.core (s.coreOf (ctxOf at_))).sp Sr.cctl) 15 = false) (hok : s.mtsOk (ctxOf at_) Sr.cctl (s.gr (ctxOf at_) f.a).tag = true)
    (hon : bit ((s.core (s.coreOf (ctxOf at_))).sp Sr.cctl) 0 = true) (hoff : bit (s.gr (ctxOf at_) f.a).pay 0 = false) :
    ∃ t, exec (.mtsCctl at_ f) s = .next t ∧ bit ((t.core (s.coreOf (ctxOf at_))).sp Sr.cctl) 15 = true ∧
      (t.ctx (ctxOf at_)).run = .sweep (s.gr (ctxOf at_) f.a).pay 4 false ∧ (t.ctx (ctxOf at_)).pc = (s.ctx (ctxOf at_)).pc ∧ t.mem = s.mem := by
  have hr := State.ready_iff s at_ 4 h
  obtain ⟨u, hu⟩ : ∃ u, s.updCore (s.coreOf (ctxOf at_)) (fun c => c.setSp Sr.cctl (setBit (c.sp Sr.cctl) 15 true)) = u := ⟨_, rfl⟩
  have hb : X.mtsCctl (s.gr (ctxOf at_) f.a).pay (startRun s at_) =
      .error (.park (.sweep (s.gr (ctxOf at_) f.a).pay 4 false)) { startRun s at_ with s := u } := by
    refine ((X.mtsCctl_checked hr (s.gr (ctxOf at_) f.a).pay ht hl hp h15).trans (congrFun (if_pos ⟨hon, by rw [hoff]; rfl⟩) _)).trans ?_
    rw [← hu]
    rfl
  obtain ⟨t, htq⟩ : ∃ t, u.updCtx (ctxOf at_) (fun c =>
      { c with run := .sweep (s.gr (ctxOf at_) f.a).pay 4 false, obs := [], inflight := false, slot := none }) = t := ⟨_, rfl⟩
  have hcalm : t.calm = true := by
    rw [← htq, ← hu]
    exact hr.calm
  have hrow : s.rowMts at_ f Sr.cctl = t.settle := by
    unfold State.rowMts State.rowI
    dsimp only
    rw [issue_ready hr, (rowMts_body hd hhi hok).trans hb, ← htq]
    rfl
  refine ⟨t, ?_, ?_, ?_, ?_, ?_⟩
  · show fin s (s.rowMts at_ f Sr.cctl) = .next t
    rw [hrow, State.settle_of_calm t hcalm]
    exact fin_next hcalm (by rw [← htq, ← hu]; rfl)
  · have hcore : t.core (s.coreOf (ctxOf at_)) =
        (s.core (s.coreOf (ctxOf at_))).setSp Sr.cctl (setBit ((s.core (s.coreOf (ctxOf at_))).sp Sr.cctl) 15 true) := by
      rw [← htq, ← hu]
      exact State.core_setCore_self s _ _
    rw [hcore, Core.sp_setSp_self]
    exact bit_setBit_self _ _ _ (by decide)
  · rw [← htq, State.updCtx_eq, State.ctx_setCtx_self]
  · rw [← htq, State.updCtx_eq, State.ctx_setCtx_self, ← hu]
    rfl
  · rw [← htq, ← hu]
    rfl

/-! ### The end of the sweep (R417) -/

theorem State.core_l1dDrop (s : State) (k line : Nat) : (s.l1dDrop k line).core k = { s.core k with l1d := Tbl.erase (s.core k).l1d line } := by
  unfold State.l1dDrop
  split
  · next hnone => rw [Tbl.erase_unlisted (Tbl.key_ne_of_look hnone)]
  · dsimp only
    have hdrop : (s.updCore k (fun c => { c with l1d := Tbl.erase c.l1d line })).core k = { s.core k with l1d := Tbl.erase (s.core k).l1d line } :=
      State.core_setCore_self s k _
    split
    · exact hdrop
    · split
      · exact hdrop
      · exact hdrop

theorem State.core_foldl_l1dDrop (k : Nat) (l : List Nat) : ∀ s : State,
    (l.foldl (fun s line => s.l1dDrop k line) s).core k = { s.core k with l1d := l.foldl Tbl.erase (s.core k).l1d } := by
  induction l with
  | nil => exact fun s => rfl
  | cons line l ih =>
    intro s
    rw [List.foldl_cons, ih, State.core_l1dDrop]
    rfl

theorem State.core_sweepL1d (s : State) (k : Nat) : (s.sweepL1d k).core k = { s.core k with l1d := [] } := by
  rw [← Tbl.foldl_erase_keys (s.core k).l1d]
  exact State.core_foldl_l1dDrop k _ s

theorem Traffic.sweepL1d (s : State) (k : Nat) : Traffic s (s.sweepL1d k) := Traffic.foldl (fun v line => (Traffic.refl v).l1dDrop k line) _ s

theorem State.contents_sweepL1d (s : State) (k : Nat) : (s.sweepL1d k).contents = s.contents :=
  State.contents_foldl s (fun s line => s.l1dDrop k line) (fun s line => s.contents_l1dDrop k line) _

theorem CoreSet.sign {x k : Nat} {c : Core} (h : CoreSet s x k c u) (ws : List Pay) : CoreSet s x k c (u.sign (twinOf x) ws) where
  rest := by
    have hrest := h.rest
    rw [hrest]
    rfl
  ctxs := h.ctxs
  core := h.core
  cores := h.cores
  twins w hw := by rw [State.sign, State.updTwin_eq, State.twin_setTwin, if_neg (Ne.symm hw), h.twins w hw]
  twin := by rw [State.sign, State.updTwin_eq, State.twin_setTwin_self, h.twin]

theorem State.signedCctl_set (s : State) (x : Nat) {k : Nat} {v : Pay} (h15 : bit ((s.core k).sp Sr.cctl) 15 = false) :
    ∃ d, CoreSet s x k d (s.signedCctl k x v) ∧ CctlWritten (s.core k) v d := by
  obtain ⟨d, hset, hwritten⟩ := State.writeCctl_set s x (v := v) h15
  refine ⟨d, ?_, hwritten⟩
  unfold State.signedCctl
  dsimp only
  split
  · exact hset.sign _
  · exact hset

theorem State.ctx_wakeHold_running {y : Nat} (h : (s.ctx y).run = .run) : s.wakeHold.ctx y = s.ctx y := by
  have hfold := ctx_foldl_idem (g := fun c => { c with run := .run }) (fun _ => rfl) ((s.ctxs.filter (fun e => e.2.run = .hold)).map (·.1)) s y
  rw [List.foldl_map] at hfold
  refine hfold.trans ?_
  split
  · rw [← h]
  · rfl

theorem State.endSweep_of {k y size : Nat} {v : Pay} {rep : Bool} (h : s.sweeper k = some (y, v, size, rep)) :
    s.endSweep k = (((s.sweepL1d k).updCore k (fun c => c.setSp Sr.cctl (setBit (c.sp Sr.cctl) 15 false))).signedCctl k y v |>.sweptMts y size rep).wakeHold := by
  obtain ⟨l, hl⟩ := List.head?_eq_some_iff.mp h
  unfold State.endSweep
  dsimp only
  split
  · next hnil => cases hnil.symm.trans hl
  · next x' v' size' rep' _ hcons =>
    cases hcons.symm.trans hl
    rfl

theorem sweepEnd_retires {k y : Nat} {v : Pay} (hs : s.calm = true) (hsw : s.sweeper k = some (y, v, 4, false))
    (h15 : bit ((s.core k).sp Sr.cctl) 15 = true) (hl : (s.ctx y).loads = []) (hi : (s.ctx y).innermost = none) :
    ∃ t, fin s (s.sweepEnds k []) = .next t ∧ (t.core k).sp Sr.cctl = v &&& maskFld 7 0 ∧ (t.core k).l1d = [] ∧
      (t.ctx y).pc = (s.ctx y).pc + 4 ∧ (t.ctx y).run = .run ∧ t.mem = s.mem ∧ t.tags = s.tags := by
  have hends : s.sweepEnds k [] = s.endSweep k := if_pos h15
  have htr := Traffic.sweepL1d s k
  have hcontents := s.contents_sweepL1d k
  have hcore := s.core_sweepL1d k
  rw [hends, State.endSweep_of hsw]
  generalize s.sweepL1d k = a at htr hcontents hcore ⊢
  obtain ⟨b, hb⟩ : ∃ b, a.updCore k (fun c => c.setSp Sr.cctl (setBit (c.sp Sr.cctl) 15 false)) = b := ⟨_, rfl⟩
  have hbcore : b.core k = (a.core k).setSp Sr.cctl (setBit ((a.core k).sp Sr.cctl) 15 false) := by
    rw [← hb]
    exact State.core_setCore_self a k _
  have hb15 : bit ((b.core k).sp Sr.cctl) 15 = false := by
    rw [hbcore, Core.sp_setSp_self]
    exact bit_setBit_self _ _ _ (by decide)
  have hbctx (x : Nat) : b.ctx x = s.ctx x := by
    rw [← hb]
    exact htr.ctx x
  rw [hb]
  obtain ⟨d, hset, hwritten⟩ := State.signedCctl_set b y (v := v) hb15
  generalize b.signedCctl k y v = c at hset ⊢
  have hcctx : c.ctx y = s.ctx y := (hset.ctxs y).trans (hbctx y)
  have hend : ∀ j, (c.ctx y).innermost = some j → (c.ctx y).leAddr j ∉ slotsOf (s.ctx y).pc 4 := by
    intro j hj
    rw [hcctx, hi] at hj
    cases hj
  have hswept : c.sweptMts y 4 false = c.retire y (slotsOf (s.ctx y).pc 4) ((s.ctx y).pc + p64 4) none := by
    unfold State.sweptMts
    dsimp only
    rw [hcctx]
    rfl
  obtain ⟨near, hret, -⟩ := State.retire_seq c y (slotsOf (s.ctx y).pc 4) ((s.ctx y).pc + p64 4) (by rw [hcctx]; exact hl) hend
  rw [hswept]
  generalize c.retire y (slotsOf (s.ctx y).pc 4) ((s.ctx y).pc + p64 4) none = e at near hret ⊢
  have hrun : (e.ctx y).run = .run := by
    rw [hret]
    rfl
  have hwoken := State.ctx_wakeHold_running hrun
  obtain ⟨cs, hcs⟩ := State.wakeHold_rest e
  have hcalm : e.wakeHold.calm = true := by
    rw [hcs]
    refine Eq.trans (near.calm.trans (hset.calm.trans ?_)) (htr.calm hs)
    rw [← hb]
    rfl
  have hpending : e.wakeHold.pending = s.pending := by
    rw [hcs]
    refine (near.pending.trans (hset.pending.trans ?_)).trans (show a.pending = s.pending by rw [htr.rest])
    rw [← hb]
    rfl
  have hkeeps : e.contents = s.contents := by
    rw [State.contents, near.rest, hset.rest, ← hb]
    exact hcontents
  obtain ⟨hmem, htags⟩ := Prod.mk.inj hkeeps
  have hfinal : e.wakeHold.core k = d := by
    rw [hcs]
    exact (near.core k).trans hset.core
  refine ⟨e.wakeHold, fin_next hcalm hpending, ?_, ?_, ?_, ?_, ?_, ?_⟩
  · rw [hfinal]
    exact hwritten.value
  · rw [hfinal, hwritten.l1d, hbcore, hcore]
    rfl
  · rw [hwoken, hret, Ctx.pc_setPc]
    rfl
  · rw [hwoken]
    exact hrun
  · rw [hcs]
    exact hmem
  · rw [hcs]
    exact htags

end

/-- Settles O12: CCTL's write or sweep, a line's maintenance in the caches and in memory, and a range line by line. -/
theorem cacheInstructions : Obligations.CacheInstructions := by
  unfold Obligations.CacheInstructions
  refine ⟨?_, ?_, ?_⟩
  · intro s at_ f x k v old
    refine ⟨fun hd hhi ht hl hp h15 h hok => ⟨fun hon => ?_, fun hon hoff => ?_⟩, fun y u j hs hsw h15 hl hi => sweepEnd_retires hs hsw h15 hl hi⟩
    · obtain ⟨t, hexec, honly, hregs, hwritten⟩ := mtsCctl_writes h hd hhi ht hl hp h15 hok hon
      refine ⟨t, hexec, hwritten.value, honly.pc, ?_, ?_, hregs, hwritten.emptied⟩
      · rw [honly.rest]
      · rw [honly.rest]
    · exact mtsCctl_sweeps h hd hhi ht hl hp h15 hok hon hoff
  · intro s at_ f line x h hd hb hrsv hp
    exact ⟨fun hline => cwb_cleans h hd hb hrsv hp hline,
      fun hline hring => ⟨cwbi_frees h hd hb hrsv hp hring hline, cinv_frees h hd hb hrsv hp hring hline⟩⟩
  · intro s at_ f x a b n st h hrsv hring ht hl hA hB hconf hhigh hwithin hok
    have hr : Ranges s x (s.gr x f.a) (s.gr x f.b) st n := ⟨hA, hB, rfl, rfl, hhigh, hwithin, hok⟩
    refine ⟨?_, ?_⟩
    · obtain ⟨t, hexec, hdest, hregs, hpc, hcontents⟩ := maintRange_goesOn .cinvr h (.inl rfl) hrsv hring ht hconf hr
      obtain ⟨hmem, htags⟩ := Prod.mk.inj (hcontents.trans (State.contents_cinvrRange _ _ _ 0 hconf))
      exact ⟨t, hexec, hdest, hmem, htags, hregs, hpc⟩
    · obtain ⟨t, hexec, hdest, hregs, hpc, -⟩ := maintRange_goesOn .cinvrNw h (.inr rfl) hrsv hring ht hconf hr
      exact ⟨t, hexec, hdest, hregs, hpc⟩

end Sys2Proof.Machine
end

section
/-!
PROOFS. The fall of PFW_N: the machine stops, and Reserve begins (O54, R685 to R690).
-/
namespace Sys2Proof.Machine

variable {s u v : State}

/-! ### Twins and contexts stop -/

/-- Twins and contexts changed, and nothing else. -/
structure Stopped (s u : State) : Prop where
  rest : u = { s with ctxs := u.ctxs, twins := u.twins }

namespace Stopped

theorem refl (s : State) : Stopped s s := ⟨rfl⟩

theorem trans (h : Stopped s u) (g : Stopped u v) : Stopped s v := ⟨by rw [g.rest, h.rest]⟩

theorem updCtx (h : Stopped s u) (x : Nat) (f : Ctx → Ctx) : Stopped s (u.updCtx x f) := h.trans ⟨rfl⟩

theorem setTwin (h : Stopped s u) (t : Nat) (w : Twin) : Stopped s (u.setTwin t w) := h.trans ⟨rfl⟩

theorem foldlCtx {β : Type} (f : β → Nat) (g : β → Ctx → Ctx) (l : List β) (s : State) : Stopped s (l.foldl (fun s e => s.updCtx (f e) (g e)) s) := by
  induction l generalizing s with
  | nil => exact refl s
  | cons e l ih => exact ((refl s).updCtx (f e) (g e)).trans (ih _)

end Stopped

theorem State.noWindows_twin (h : s.noWindows) (t : Nat) : (s.twin t).undo = [] ∧ (s.twin t).hold = [] :=
  Tbl.get_of_forall (d := fun _ => Twin.reset) (P := fun w : Twin => w.undo = [] ∧ w.hold = []) h t ⟨rfl, rfl⟩

theorem State.noWindows_setTwin (h : s.noWindows) (t : Nat) {w : Twin} (hw : w.undo = [] ∧ w.hold = []) : (s.setTwin t w).noWindows := by
  intro e he
  obtain rfl | he := Tbl.mem_of_mem_set (d := fun _ => Twin.reset) (t := s.twins) he
  · exact hw
  · exact h e he

/-- A window with nothing in it is dropped without a trace in memory or in the caches. -/
theorem State.rollback_stops (h : s.noWindows) (t : Nat) : Stopped s (s.rollback t) ∧ (s.rollback t).noWindows := by
  have hundo := (State.noWindows_twin h t).1
  obtain ⟨a, ha⟩ : ∃ a, (s.twin t).sqtConf.foldl (fun s e => s.updCtx e.1 (fun c => c.setSp Sr.sqt e.2)) s = a := ⟨_, rfl⟩
  have hstop : Stopped s a := ha ▸ Stopped.foldlCtx (fun e : Nat × Pay => e.1) (fun e c => c.setSp Sr.sqt e.2) _ s
  have heq : s.rollback t = a.setTwin t { s.twin t with groups := 0, misr := misrSeed, undo := [], sqtConf := [], hold := [] } := by
    unfold State.rollback
    dsimp only
    rw [hundo]
    exact congrArg (fun b : State => b.setTwin t { s.twin t with groups := 0, misr := misrSeed, undo := [], sqtConf := [], hold := [] }) ha
  have hwin : a.noWindows := by
    obtain ⟨cs, hcs⟩ := foldl_ctxs (f := fun (s : State) (e : Nat × Pay) => s.updCtx e.1 (fun c => c.setSp Sr.sqt e.2)) (fun _ _ => ⟨_, rfl⟩) (s.twin t).sqtConf s
    rw [← ha, hcs]
    exact h
  rw [heq]
  exact ⟨hstop.setTwin t _, State.noWindows_setTwin hwin t ⟨rfl, rfl⟩⟩

/-- A twin stops: its window is dropped and its outputs that wait for a partner are lost. -/
def State.stopTwin (s : State) (t : Nat) : State :=
  if (s.twin t).recov.isSome then s else (s.rollback t).updTwin t (fun w => { w with outL := [], outS := [] })

theorem State.stopTwin_stops (h : s.noWindows) (t : Nat) : Stopped s (s.stopTwin t) ∧ (s.stopTwin t).noWindows := by
  unfold State.stopTwin
  split
  · exact ⟨.refl s, h⟩
  · obtain ⟨hstop, hwin⟩ := State.rollback_stops h t
    exact ⟨hstop.setTwin t _, State.noWindows_setTwin hwin t (State.noWindows_twin hwin t)⟩

theorem State.stopTwins (l : List Nat) : ∀ {s : State}, s.noWindows → Stopped s (l.foldl State.stopTwin s) := by
  induction l with
  | nil => exact fun {s} _ => .refl s
  | cons t l ih =>
    intro s h
    obtain ⟨hstop, hwin⟩ := State.stopTwin_stops h t
    exact hstop.trans (ih hwin)

theorem Stopped.freeze (s : State) (xs : List Nat) : Stopped s (s.freeze xs) := Stopped.foldlCtx (fun x : Nat => x) (fun _ c => { c with frozen := true }) xs s

/-- A context frozen, or never started, runs nothing. -/
theorem State.unpowered {x : Nat} (h : (s.ctx x).frozen = true ∨ (s.ctx x).started = false) : s.powered x = false := by
  unfold State.powered
  obtain h | h := h <;> simp [h]

theorem State.frozen_all (s : State) (x : Nat) : ((s.freeze (s.ctxs.map (·.1))).ctx x).frozen = true ∨ ((s.freeze (s.ctxs.map (·.1))).ctx x).started = false := by
  have hfold := ctx_foldl_idem (g := fun c => { c with frozen := true }) (fun _ => rfl) (s.ctxs.map (·.1)) s x
  have hctx : (s.freeze (s.ctxs.map (·.1))).ctx x = if x ∈ s.ctxs.map (·.1) then { s.ctx x with frozen := true } else s.ctx x := hfold
  rw [hctx]
  by_cases hx : x ∈ s.ctxs.map (·.1)
  · rw [if_pos hx]
    exact .inl rfl
  · have hnone : Tbl.look s.ctxs x = none := Tbl.look_eq_none (fun e he hex => hx (List.mem_map.mpr ⟨e, he, hex⟩))
    rw [if_neg hx]
    refine .inr ?_
    show ((Tbl.look s.ctxs x).getD Ctx.reset).started = false
    rw [hnone]
    rfl

/-! ### Settling -/

/-- Outside Quiet a wake request that stands changes nothing. -/
theorem State.settle_of_idle (ho : s.outbox = []) (hi : s.idleIntakes) (hr : s.ldg.restart = []) (hm : s.mode ≠ mQuiet) : s.settle = s := by
  have h1 : settleN 4096 s = s := by
    show (match s.outbox with | [] => s | o :: os => settleN 4095 (({ s with outbox := os }).perform o)) = s
    rw [ho]
  have h2 : s.absorbAll = s := by
    have : s.clusters.filter (fun e => !e.2.intake.isEmpty) = [] := List.filter_eq_nil_iff.mpr (fun e he => by simp [hi e he])
    simp [State.absorbAll, this]
  have h3 : s.restartDue = s := by simp [State.restartDue, hr]
  have h4 : s.checkWake = s := by simp [State.checkWake, hm]
  rw [State.settle, h1, h2, h3, h4]

theorem State.idle_of_calm (h : s.calm = true) : s.outbox = [] ∧ s.idleIntakes ∧ s.ldg.restart = [] := by
  simp only [State.calm, Bool.and_eq_true, List.isEmpty_iff] at h
  obtain ⟨⟨⟨ho, hi⟩, hr⟩, -⟩ := h
  exact ⟨ho, s.idleIntakes_iff.mpr hi, hr⟩

/-! ### PFW_N falls -/

theorem State.pnlFreeze_rest (s : State) : ∃ p, RegsOnly { s with pnl := p } [oPnl + 0x18] s.pnlFreeze := by
  unfold State.pnlFreeze
  split
  · exact ⟨s.pnl, RegsOnly.refl s _⟩
  · have hregs := ((RegsOnly.setReg s (oPnl + 0x18) (setBit (s.reg (oPnl + 0x18)) 63 false)).trans (RegsOnly.setReg _ (oPnl + 0x18)
      (setBit ((s.setReg (oPnl + 0x18) (setBit (s.reg (oPnl + 0x18)) 63 false)).reg (oPnl + 0x18)) 62 false))).mono (ps := [oPnl + 0x18]) (by simp)
    exact ⟨{ s.pnl with upNext := s.pnl.upNext ++ s.pnl.touches, touches := [], cands := [], learn := [], learnt := [] },
      rfl, fun off ho => hregs.others off ho⟩

/-- What PFW_N's fall notes of itself before the machine stops. -/
def State.pfwNoted (s : State) : State :=
  ((((s.updPwr (fun p => { p with pfw := true })).setPwrStat 57 true).setPwrStat 63 false).setPwrStat 60 false).updPwr
    (fun p => { p with glaze := some s.mode, complete := false, seq := satInc 32 p.seq })

theorem State.pfwNoted_shows (s : State) :
    RegsOnly { s with pwr := s.pfwNoted.pwr } [oPwr + 0x18] s.pfwNoted ∧ s.pfwNoted.pwr.pfw = true ∧ s.pfwNoted.pwr.glaze = some s.mode ∧
      s.pfwNoted.pwr.complete = false ∧ s.pfwNoted.pwrStat 57 = true ∧ s.pfwNoted.pwrStat 60 = false ∧ s.pfwNoted.pwrStat 63 = false := by
  have hregs := ((((RegsOnly.setPwrStat (s.updPwr (fun p => { p with pfw := true })) 57 true).trans (RegsOnly.setPwrStat _ 63 false)).trans
    (RegsOnly.setPwrStat _ 60 false))).mono (ps := [oPwr + 0x18]) (by simp)
  have hstat (b : Nat) : s.pfwNoted.pwrStat b = if 60 = b then false else if 63 = b then false else if 57 = b then true else s.pwrStat b := by
    show ((((s.updPwr (fun p => { p with pfw := true })).setPwrStat 57 true).setPwrStat 63 false).setPwrStat 60 false).pwrStat b = _
    rw [State.pwrStat_setPwrStat _ _ _ (by decide), State.pwrStat_setPwrStat _ _ _ (by decide), State.pwrStat_setPwrStat _ _ _ (by decide)]
    rfl
  refine ⟨⟨rfl, fun off ho => hregs.others off ho⟩, rfl, rfl, rfl, ?_, ?_, ?_⟩
  · rw [hstat]; rfl
  · rw [hstat]; rfl
  · rw [hstat]; rfl

/-- The machine as Reserve begins, before its mode is entered: every twin and context stopped, the watch disarmed. -/
def State.reserveBegins (s : State) : State :=
  let b := (List.range 32).foldl State.stopTwin s
  let c := (b.freeze (b.ctxs.map (·.1))).updSys (fun y => { y with armed := false, wakeReq := y.wakeReq || y.quiet = .waking, quiet := .none })
  { c.pnlFreeze with bgs := { c.bgs with move := none }, outbox := c.outbox }

theorem State.pfwFalls_eq (hp : s.pwr.pfw = false) (hg : s.pwr.glaze = none) (hr : s.sys.inReset = false) (ht : s.pwr.test = none)
    (hmove : s.bgs.move = none) (hbusy : s.modeBusy = false) (hw : s.noWindows) (hsv : bit (s.reg (oPwr + 0x30)) 63 = false) :
    s.pfwFalls = (s.pfwNoted.reserveBegins.setMode mReserve).refresh := by
  obtain ⟨hregs, -⟩ := s.pfwNoted_shows
  obtain ⟨a, ha⟩ : ∃ a, (s.updPwr (fun p => { p with pfw := true })).setPwrStat 57 true = a := ⟨_, rfl⟩
  have hatest : a.pwr.test.isSome = false := by rw [← ha]; show s.pwr.test.isSome = false; rw [ht]; rfl
  have hareset : a.sys.inReset = false := by rw [← ha]; exact hr
  obtain ⟨b, hb⟩ : ∃ b, (a.setPwrStat 63 false) = b := ⟨_, rfl⟩
  have hbglaze : b.pwr.glaze.isSome = false := by rw [← hb, ← ha]; show s.pwr.glaze.isSome = false; rw [hg]; rfl
  have hbsv : bit ((b.setPwrStat 60 false).reg (oPwr + 0x30)) 63 = false := by
    rw [← hb, ← ha, (RegsOnly.setPwrStat _ _ _).others _ (by decide), (RegsOnly.setPwrStat _ _ _).others _ (by decide),
      (RegsOnly.setPwrStat _ _ _).others _ (by decide)]
    exact hsv
  have hnoted : (b.setPwrStat 60 false).updPwr (fun p => { p with glaze := some a.mode, complete := false, seq := satInc 32 p.seq }) = s.pfwNoted := by
    have hmode : a.mode = s.mode := by
      rw [← ha]
      exact (RegsOnly.setPwrStat (s.updPwr (fun p => { p with pfw := true })) 57 true).mode (by decide)
    rw [hmode, ← hb, ← ha]
    rfl
  unfold State.pfwFalls
  rw [if_neg (by rw [hp]; decide)]
  dsimp only
  rw [ha]
  simp only [hatest, Bool.false_eq_true, if_false, hb, hbglaze, hareset, hbsv, hnoted]
  obtain ⟨c, hc⟩ : ∃ c, (List.range 32).foldl State.stopTwin s.pfwNoted = c := ⟨_, rfl⟩
  obtain ⟨d, hd⟩ : ∃ d, (c.freeze (c.ctxs.map (·.1))).updSys (fun y =>
    { y with armed := false, wakeReq := y.wakeReq || y.quiet = .waking, quiet := .none }) = d := ⟨_, rfl⟩
  have hfold : (List.range 32).foldl (fun s t => if (s.twin t).recov.isSome then s else (s.rollback t).updTwin t (fun w => { w with outL := [], outS := [] }))
      s.pfwNoted = c := hc
  have hwin : s.pfwNoted.noWindows := by
    unfold State.noWindows
    rw [hregs.rest]
    exact hw
  have hstop : Stopped s.pfwNoted c := hc ▸ State.stopTwins (List.range 32) hwin
  have hfrozen := Stopped.freeze c (c.ctxs.map (·.1))
  have hdev : d.dev = s.pfwNoted.dev ∧ d.bgs = s.bgs := by
    rw [← hd]
    show (c.freeze (c.ctxs.map (·.1))).dev = _ ∧ (c.freeze (c.ctxs.map (·.1))).bgs = _
    rw [hfrozen.rest, hstop.rest, hregs.rest]
    exact ⟨rfl, rfl⟩
  have hdbusy : d.modeBusy = false := by
    rw [← hbusy]
    refine (congrArg (fun v => bit v 15) (?_ : d.reg 0x10 = s.reg 0x10))
    refine Eq.trans ?_ (hregs.others 0x10 (by decide))
    unfold State.reg
    rw [hdev.1]
  have hdmove : d.bgs.move = none := by rw [hdev.2]; exact hmove
  rw [hfold, hd]
  unfold State.reserveBegins
  dsimp only
  rw [hc, hd, hdbusy]
  simp only [Bool.false_eq_true, if_false, hdmove, List.append_nil]

/-- What stands as Reserve begins. -/
structure Reserved (s u : State) : Prop where
  memory : u.contents = s.contents
  pwr : u.pwr = s.pwr
  clusters : u.clusters = s.clusters
  outbox : u.outbox = s.outbox
  restart : u.ldg.restart = s.ldg.restart
  pending : u.pending = s.pending
  disarmed : u.sys.armed = false
  regs : ∀ off, off ≠ oPnl + 0x18 → u.reg off = s.reg off
  stopped : ∀ x, (u.ctx x).frozen = true ∨ (u.ctx x).started = false

theorem State.reserveBegins_reserved (hw : s.noWindows) : Reserved s s.reserveBegins := by
  have hstop := State.stopTwins (List.range 32) hw
  unfold State.reserveBegins
  dsimp only
  generalize (List.range 32).foldl State.stopTwin s = b at hstop ⊢
  have hfrozen := Stopped.freeze b (b.ctxs.map (·.1))
  have hctx := b.frozen_all
  generalize b.freeze (b.ctxs.map (·.1)) = c at hfrozen hctx ⊢
  obtain ⟨d, hd⟩ : ∃ d, c.updSys (fun y => { y with armed := false, wakeReq := y.wakeReq || y.quiet = .waking, quiet := .none }) = d := ⟨_, rfl⟩
  rw [hd]
  have hkept : Stopped s c := hstop.trans hfrozen
  obtain ⟨p, hpnl⟩ := d.pnlFreeze_rest
  have hdsys : d.sys.armed = false := by rw [← hd]; rfl
  have hdrest : d = { c with sys := d.sys } := by rw [← hd]; rfl
  refine ⟨?_, ?_, ?_, ?_, ?_, ?_, ?_, fun off ho => ?_, fun x => ?_⟩
  · show d.pnlFreeze.contents = s.contents
    rw [State.contents, hpnl.rest, hdrest, hkept.rest]; rfl
  · show d.pnlFreeze.pwr = s.pwr
    rw [hpnl.rest, hdrest, hkept.rest]
  · show d.pnlFreeze.clusters = s.clusters
    rw [hpnl.rest, hdrest, hkept.rest]
  · show d.outbox = s.outbox
    rw [hdrest, hkept.rest]
  · show d.pnlFreeze.ldg.restart = s.ldg.restart
    rw [hpnl.rest, hdrest, hkept.rest]
  · show d.pnlFreeze.pending = s.pending
    rw [hpnl.rest, hdrest, hkept.rest]
  · show d.pnlFreeze.sys.armed = false
    rw [hpnl.rest]
    exact hdsys
  · refine (hpnl.others off (by simpa using ho)).trans ?_
    show d.reg off = s.reg off
    rw [hdrest, hkept.rest]
    rfl
  · show (d.pnlFreeze.ctx x).frozen = true ∨ (d.pnlFreeze.ctx x).started = false
    rw [hpnl.rest, hdrest]
    exact hctx x

theorem State.pfwFalls_row (hs : s.calm = true) (hp : s.pwr.pfw = false) (hg : s.pwr.glaze = none) (hr : s.sys.inReset = false) (ht : s.pwr.test = none)
    (hmove : s.bgs.move = none) (hbusy : s.modeBusy = false) (hw : s.noWindows) (hsv : bit (s.reg (oPwr + 0x30)) 63 = false) :
    ∃ t, exec .pfwNAssert s = .next t ∧ t.mode = mReserve ∧ t.rf 0x10 10 8 = s.mode ∧ t.pwr.pfw = true ∧ t.pwr.glaze = some s.mode ∧
      t.pwr.complete = false ∧ t.sys.armed = false ∧ t.pwrStat 57 = true ∧ t.pwrStat 60 = false ∧ t.pwrStat 63 = false ∧
      t.mem = s.mem ∧ t.tags = s.tags ∧ ∀ x, t.powered x = false := by
  obtain ⟨hnoted, hpfw, hglaze, hcomplete, h57, h60, h63⟩ := s.pfwNoted_shows
  have heq := State.pfwFalls_eq hp hg hr ht hmove hbusy hw hsv
  have hwin : s.pfwNoted.noWindows := by
    unfold State.noWindows
    rw [hnoted.rest]
    exact hw
  have hres := State.reserveBegins_reserved hwin
  generalize s.pfwNoted.reserveBegins = a at heq hres
  have hamode : a.mode = s.mode := by
    refine State.rf_congr ((hres.regs 0x10 (by decide)).trans (hnoted.others 0x10 (by decide))) 2 0
  have habusy : a.modeBusy = false := by
    rw [← hbusy]
    exact State.modeBusy_congr ((hres.regs 0x10 (by decide)).trans (hnoted.others 0x10 (by decide)))
  obtain ⟨b, hb⟩ : ∃ b, a.setMode mReserve = b := ⟨_, rfl⟩
  have hset : RegsOnly a [0x10] b := hb ▸ RegsOnly.setMode a mReserve
  have hbmode : b.mode = mReserve := hb ▸ State.mode_setMode a (by decide)
  have hbbusy : b.modeBusy = false := by rw [← hb, (State.status_setMode a mReserve).1, habusy]
  have hprev : b.rf 0x10 10 8 = s.mode := by
    rw [← hb, State.setMode, State.rf_setRf_apart _ _ _ (by decide) (by decide) (by decide), State.rf_setRf_self _ _ _ _ _ (by decide) (by decide), hamode]
    exact Nat.mod_eq_of_lt (fld_lt _ _ _)
  have hstat := RegsOnly.refresh_fixed (s := b) (by rw [hbmode]; decide) hbbusy
  rw [hb] at heq
  generalize b.refresh = t at heq hstat
  have hall := hset.trans hstat
  obtain ⟨ho, hi, hrestart⟩ := State.idle_of_calm hs
  have htmode : t.mode = mReserve := (hstat.mode (by decide)).trans hbmode
  have hsettle : t.settle = t := by
    refine State.settle_of_idle ?_ ?_ ?_ (by rw [htmode]; decide)
    · rw [hall.rest]; exact hres.outbox.trans (by rw [hnoted.rest]; exact ho)
    · have hclusters : t.clusters = s.clusters := by rw [hall.rest]; exact hres.clusters.trans (by rw [hnoted.rest])
      unfold State.idleIntakes
      rw [hclusters]
      exact hi
    · rw [hall.rest]; exact hres.restart.trans (by rw [hnoted.rest]; exact hrestart)
  have hpending : t.pending = s.pending := by rw [hall.rest]; exact hres.pending.trans (by rw [hnoted.rest])
  have hpwr : t.pwr = s.pfwNoted.pwr := by rw [hall.rest]; exact hres.pwr
  have hstatus (b : Nat) : t.pwrStat b = s.pfwNoted.pwrStat b :=
    congrArg (fun v => bit v b) ((hall.others (oPwr + 0x18) (by decide)).trans (hres.regs (oPwr + 0x18) (by decide)))
  have hcontents : t.contents = s.contents := by
    refine Eq.trans ?_ (hres.memory.trans ?_)
    · rw [hall.rest]; rfl
    · rw [hnoted.rest]; rfl
  obtain ⟨hmem, htags⟩ := Prod.mk.inj hcontents
  refine ⟨t, ?_, htmode, ?_, ?_, ?_, ?_, ?_, ?_, ?_, ?_, hmem, htags, fun x => State.unpowered ?_⟩
  · show fin s s.pfwFalls = .next t
    rw [heq, fin, hsettle, ← hpending]
  · exact (State.rf_congr (hstat.others _ (by decide)) 10 8).trans hprev
  · rw [hpwr]; exact hpfw
  · rw [hpwr]; exact hglaze
  · rw [hpwr]; exact hcomplete
  · rw [hall.rest]; exact hres.disarmed
  · rw [hstatus]; exact h57
  · rw [hstatus]; exact h60
  · rw [hstatus]; exact h63
  · have := hres.stopped x
    rw [hall.rest]
    exact this

end Sys2Proof.Machine
end

section
/-!
PROOFS. The flush of a Reserve: what is copied to the save area (O54, R686, R689, R690).
-/
namespace Sys2Proof.Machine

variable {s u : State} {α : Type}

/-! ### Ranges copied -/

/-- Entries listed over a table, each at its key moved from `src` to `dst`. -/
theorem Tbl.look_moved (src dst : Nat) (l : Tbl α) : ∀ (a : Nat) (u : Tbl α) (k : Nat), src ≤ a → Tbl.rising a l = true →
    Tbl.look (l.foldl (fun u e => Tbl.insert u (e.1 - src + dst) e.2) u) k =
      (if dst ≤ k then Tbl.look l (k - dst + src) else none).or (Tbl.look u k) := by
  induction l with
  | nil => intro a u k _ _; simp [Tbl.look]
  | cons e l ih =>
    intro a u k ha hl
    obtain ⟨i, v⟩ := e
    simp only [Tbl.rising, Bool.and_eq_true, decide_eq_true_eq] at hl
    obtain ⟨hi, hl⟩ := hl
    rw [List.foldl_cons, ih (i + 1) _ k (by omega) hl, Tbl.look_cons]
    by_cases hk : i - src + dst = k
    · have hkey : k - dst + src = i := by omega
      have hnone : Tbl.look l i = none := Option.eq_none_iff_forall_ne_some.mpr (fun w hw => absurd (Tbl.le_of_look hl hw) (by omega))
      rw [hkey, hnone, if_pos rfl, if_pos (by omega), if_pos (by omega), ← hk, Tbl.look_insert_self]
      rfl
    · rw [Tbl.look_insert_ne _ _ hk]
      by_cases hd : dst ≤ k
      · rw [if_pos hd, if_pos hd, if_neg (by omega)]
      · rw [if_neg hd, if_neg hd]

/-- Rising keys rise from any bound that is under all of them. -/
theorem Tbl.rising_above {t : Tbl α} {a b : Nat} (ht : Tbl.rising b t = true) (h : ∀ e ∈ t, a ≤ e.1) : Tbl.rising a t = true := by
  cases t with
  | nil => rfl
  | cons e t =>
    simp only [Tbl.rising, Bool.and_eq_true, decide_eq_true_eq] at ht ⊢
    exact ⟨h e List.mem_cons_self, ht.2⟩

/-- A range copied reads in its new place as in its old one, and all else as before. -/
theorem look_copyRange {t : Tbl α} (src dst len : Nat) (ht : Tbl.rising 0 t = true) (k : Nat) :
    Tbl.look (copyRange t src dst len) k = if dst ≤ k ∧ k < dst + len then Tbl.look t (k - dst + src) else Tbl.look t k := by
  have hl : Tbl.rising src (t.filter (fun e => src ≤ e.1 && e.1 < src + len)) = true :=
    Tbl.rising_above (Tbl.rising_filter _ ht) (fun e he => by
      have := (List.mem_filter.mp he).2
      simp only [Bool.and_eq_true, decide_eq_true_eq] at this
      exact this.1)
  unfold copyRange
  rw [Tbl.look_moved src dst _ src _ k (Nat.le_refl _) hl, Tbl.look_filter (fun i => src ≤ i && i < src + len) t,
    Tbl.look_filter (fun i => !(dst ≤ i ∧ i < dst + len)) t]
  by_cases hd : dst ≤ k ∧ k < dst + len
  · have hin : (decide (src ≤ k - dst + src) && decide (k - dst + src < src + len)) = true := by
      simp only [Bool.and_eq_true, decide_eq_true_eq]; omega
    rw [if_pos hd, if_pos hd.1, if_pos hin]
    simp [hd]
  · rw [if_neg hd]
    have hout : (if dst ≤ k then if (decide (src ≤ k - dst + src) && decide (k - dst + src < src + len)) = true then Tbl.look t (k - dst + src) else none
        else none) = none := by
      split
      · rw [if_neg]; simp only [Bool.and_eq_true, decide_eq_true_eq]; omega
      · rfl
    rw [hout]
    simp [hd]

/-! ### Bytes and tags of memory -/

/-- The byte of memory at an address, with its tag. -/
def State.cell (s : State) (k : Nat) : BitVec 8 × BitVec 8 := (s.byte k, s.tagAt k)

theorem State.cell_copyMem (hf : s.memForm) {src dst len : Nat} (hs : src % 8 = 0) (hd : dst % 8 = 0) (hl : len % 8 = 0) (k : Nat) :
    (s.copyMem src dst len).cell k = if dst ≤ k ∧ k < dst + len then s.cell (k - dst + src) else s.cell k := by
  have hm : Tbl.rising 0 s.mem = true := (Bool.and_eq_true_iff.mp hf.1).1
  have ht : Tbl.rising 0 s.tags = true := (Bool.and_eq_true_iff.mp hf.2).1
  unfold State.cell State.byte State.tagAt State.copyMem Tbl.get
  dsimp only
  rw [look_copyRange src dst len hm, look_copyRange (src / 8) (dst / 8) (len / 8) ht]
  by_cases h : dst ≤ k ∧ k < dst + len
  · have hkey : k / 8 - dst / 8 + src / 8 = (k - dst + src) / 8 := by omega
    rw [if_pos h, if_pos h, if_pos (by omega), hkey]
  · rw [if_neg h, if_neg h, if_neg (by omega)]

/-- Pages copied one after the other: each reads in its new place as it was, the others and all below keep what they had. -/
theorem State.cell_copyPages {src dst : Nat} (hs : src % 8 = 0) (hd : dst % 8 = 0) (hapart : src + 0x200000 ≤ dst) (ps : List Nat) :
    ∀ {s : State}, s.memForm → (∀ p ∈ ps, p < 512) →
      let u := ps.foldl (fun s p => s.copyMem (src + 0x1000 * p) (dst + 0x1000 * p) 0x1000) s
      (∀ k, k < dst → u.cell k = s.cell k) ∧
        ∀ p o, p < 512 → o < 0x1000 → u.cell (dst + 0x1000 * p + o) = if p ∈ ps then s.cell (src + 0x1000 * p + o) else s.cell (dst + 0x1000 * p + o) := by
  induction ps with
  | nil => exact fun {s} _ _ => ⟨fun _ _ => rfl, fun _ _ _ _ => (if_neg List.not_mem_nil).symm⟩
  | cons q ps ih =>
    intro s hf hps
    have hq : q < 512 := hps q List.mem_cons_self
    have hcopy := State.cell_copyMem hf (src := src + 0x1000 * q) (dst := dst + 0x1000 * q) (len := 0x1000) (by omega) (by omega) (by decide)
    obtain ⟨hbelow, hin⟩ := ih (s := s.copyMem (src + 0x1000 * q) (dst + 0x1000 * q) 0x1000) (State.memForm_copyMem _ _ _ hf)
      (fun p hp => hps p (List.mem_cons_of_mem _ hp))
    refine ⟨fun k hk => ?_, fun p o hp ho => ?_⟩
    · rw [List.foldl_cons, hbelow k hk, hcopy, if_neg (by omega)]
    · rw [List.foldl_cons, hin p o hp ho, hcopy, hcopy, if_neg (by omega : ¬ (dst + 0x1000 * q ≤ src + 0x1000 * p + o ∧ _))]
      by_cases hpq : p = q
      · have hkey : dst + 0x1000 * p + o - (dst + 0x1000 * q) + (src + 0x1000 * q) = src + 0x1000 * p + o := by omega
        rw [if_pos (by omega : dst + 0x1000 * q ≤ dst + 0x1000 * p + o ∧ dst + 0x1000 * p + o < dst + 0x1000 * q + 0x1000), hkey, ite_self,
          if_pos (hpq ▸ List.mem_cons_self)]
      · rw [if_neg (by omega : ¬ (dst + 0x1000 * q ≤ dst + 0x1000 * p + o ∧ dst + 0x1000 * p + o < dst + 0x1000 * q + 0x1000))]
        simp [hpq]

theorem State.tagAt_setWordsFrom (ws : List Word) : ∀ (k : Nat) (s : State) (j : Nat), k % 8 = 0 → (j < k ∨ k + 8 * ws.length ≤ j) →
    (setWordsFrom ws k s).tagAt j = s.tagAt j := by
  induction ws with
  | nil => exact fun _ _ _ _ _ => rfl
  | cons w ws ih =>
    intro k s j hk hj
    rw [List.length_cons] at hj
    rw [setWordsFrom, ih _ _ _ (by omega) (by omega), State.tagAt_setWord, if_neg (by omega)]

theorem State.cell_setWords (s : State) (ws : List Word) {k j : Nat} (hk : k % 8 = 0) (hj : j < k ∨ k + 8 * ws.length ≤ j) :
    (s.setWords k ws).cell j = s.cell j := by
  rw [State.cell, State.cell, State.setWords, State.byte_setWordsFrom ws k s j hk hj, State.tagAt_setWordsFrom ws k s j hk hj]

/-! ### The flush -/

theorem jnvAt_add (o i : Nat) : jnvAt (o + i) = jnvAt o + i := by
  unfold jnvAt
  omega

/-- The flush with its Staging pages and its Keep area copied. -/
def State.areasSaved (s : State) : State :=
  let a := s.stagingPages.foldl (fun s p => s.copyMem (0x7E0000400000 + 0x1000 * p) (jnvAt (0x3801000 + 0x1000 * p)) 0x1000) s
  if bit (s.reg (oPwr + 0x30)) 62 then a
  else (a.copyMem (keepBase + s.keepArea.1) (jnvAt 0x3A01000) s.keepArea.2).updPwr (fun p =>
    { p with keepOff := s.keepArea.1 / 0x10000, keepLen := s.keepArea.2 / 0x10000, keepDiff := s.keepDiffers s.keepArea.1 s.keepArea.2 })

theorem State.areasSaved_rest (s : State) : ∃ m t p, s.areasSaved = { s with mem := m, tags := t, pwr := p } := by
  have hpages : ∀ (ps : List Nat) (s : State), ∃ m t,
      ps.foldl (fun s p => s.copyMem (0x7E0000400000 + 0x1000 * p) (jnvAt (0x3801000 + 0x1000 * p)) 0x1000) s = { s with mem := m, tags := t } := by
    intro ps
    induction ps with
    | nil => exact fun s => ⟨s.mem, s.tags, rfl⟩
    | cons q ps ih =>
      intro s
      obtain ⟨m, t, h⟩ := ih (s.copyMem (0x7E0000400000 + 0x1000 * q) (jnvAt (0x3801000 + 0x1000 * q)) 0x1000)
      exact ⟨m, t, h⟩
  obtain ⟨m, t, h⟩ := hpages s.stagingPages s
  unfold State.areasSaved
  dsimp only
  rw [h]
  split
  · exact ⟨m, t, s.pwr, rfl⟩
  · exact ⟨_, _, _, rfl⟩

/-- The Keep area is at most one MiB. -/
theorem State.keepArea_le (s : State) : s.keepArea.2 ≤ 0x100000 ∧ (keepBase + s.keepArea.1) % 8 = 0 ∧ s.keepArea.2 % 8 = 0 := by
  unfold State.keepArea keepBase
  dsimp only
  omega

theorem State.areasSaved_cell (hf : s.memForm) {p o : Nat} (hp : p ∈ s.stagingPages) (ho : o < 0x1000) :
    s.areasSaved.cell (jnvAt (0x3801000 + 0x1000 * p + o)) = s.cell (0x7E0000400000 + 0x1000 * p + o) := by
  have hlt : ∀ q ∈ s.stagingPages, q < 512 := fun q hq => List.mem_range.mp (List.mem_filter.mp hq).1
  have hcopied := (State.cell_copyPages (src := 0x7E0000400000) (dst := jnvAt 0x3801000) (by decide) (by decide) (by decide) s.stagingPages hf hlt).2 p o (hlt p hp) ho
  have hform := State.memForm_copyPages (fun p => 0x7E0000400000 + 0x1000 * p) (fun p => jnvAt 0x3801000 + 0x1000 * p) s.stagingPages hf
  have hp512 := hlt p hp
  rw [if_pos hp] at hcopied
  rw [jnvAt_add, jnvAt_add, ← hcopied]
  unfold State.areasSaved
  simp only [jnvAt_add 0x3801000] at hform ⊢
  generalize s.stagingPages.foldl (fun s p => s.copyMem (0x7E0000400000 + 0x1000 * p) (jnvAt 0x3801000 + 0x1000 * p) 0x1000) s = a at hform ⊢
  split
  · rfl
  · obtain ⟨-, hoff, hlen⟩ := s.keepArea_le
    refine (State.cell_copyMem hform (by omega) (by decide) hlen _).trans (if_neg ?_)
    unfold jnvAt
    omega

/-- The flush before its header is written: flag and fault records. -/
def State.recordsSaved (s : State) : State := (s.areasSaved.setPwrStat 60 true).setWords (jnvAt 0x3B01000) (s.areasSaved.setPwrStat 60 true).faultWords

/-- The header of the save area. -/
def State.headed (s : State) (live : Led) (pages : List Nat) : State :=
  let u := s.updPwr (fun p => { p with complete := true, saved := some live, pages := pages })
  let v := u.setRf (oPwr + 0x30) 31 0 (satInc 32 (u.rf (oPwr + 0x30) 31 0))
  v.setRf (oPwr + 0x30) 61 61 (b2n v.pwr.keepDiff)

/-- The header is registers and the record of the save. -/
theorem State.headed_regs (s : State) (live : Led) (pages : List Nat) :
    RegsOnly { s with pwr := { s.pwr with complete := true, saved := some live, pages := pages } } [oPwr + 0x30] (s.headed live pages) :=
  ((RegsOnly.setRf { s with pwr := { s.pwr with complete := true, saved := some live, pages := pages } } (oPwr + 0x30) 31 0 _).trans
    (RegsOnly.setRf _ (oPwr + 0x30) 61 61 _)).mono (by simp)

theorem State.reg_updPwr (s : State) (f : Pwr → Pwr) (off : Nat) : (s.updPwr f).reg off = s.reg off := rfl

theorem State.headed_flag (s : State) (live : Led) (pages : List Nat) : (s.headed live pages).pwrStat 60 = s.pwrStat 60 := by
  unfold State.pwrStat State.headed
  dsimp only
  rw [(RegsOnly.setRf _ (oPwr + 0x30) 61 61 _).others _ (by decide), (RegsOnly.setRf _ (oPwr + 0x30) 31 0 _).others _ (by decide), State.reg_updPwr]

theorem State.recordsSaved_rest (s : State) : ∃ m t p, s.recordsSaved = { s with mem := m, tags := t, pwr := p, dev := s.recordsSaved.dev } ∧
    RegsOnly { s with mem := m, tags := t, pwr := p } [oPwr + 0x18] s.recordsSaved := by
  obtain ⟨m, t, p, h⟩ := s.areasSaved_rest
  obtain ⟨m', t', h'⟩ := State.setWordsFrom_rest (s.areasSaved.setPwrStat 60 true).faultWords (jnvAt 0x3B01000) (s.areasSaved.setPwrStat 60 true)
  have hrec : s.recordsSaved = ({ s with mem := m', tags := t', pwr := p } : State).setPwrStat 60 true := by
    rw [State.recordsSaved, State.setWords, h', h]
    rfl
  refine ⟨m', t', p, ?_, ?_⟩
  · rw [hrec]; rfl
  · rw [hrec]; exact RegsOnly.setPwrStat _ _ _

theorem State.flushed_eq {m : Nat} (hg : s.pwr.glaze = some m) (h60 : s.pwrStat 60 = false) (hfuse : s.sec.fuse = none) (hrst : s.sys.rstWait = false)
    (hsv : bit (s.reg (oPwr + 0x30)) 63 = false) : s.flushed = s.recordsSaved.headed s.recordsSaved.ldg.live s.stagingPages := by
  unfold State.flushed
  rw [if_neg (by simp [hg, h60, hfuse])]
  have hnot : s.recordsSaved.sys.rstWait = false := by
    obtain ⟨m, t, p, hrest, -⟩ := s.recordsSaved_rest
    rw [hrest]
    exact hrst
  dsimp only
  simp only [hsv, Bool.false_eq_true, if_false, false_or]
  obtain ⟨c, hc⟩ : ∃ c, s.recordsSaved = c := ⟨_, rfl⟩
  rw [hc] at hnot ⊢
  unfold State.recordsSaved State.areasSaved at hc
  dsimp only at hc
  rw [hc]
  exact if_neg (by rw [Bool.not_eq_true]; exact hnot)

theorem State.recordsSaved_flag (s : State) : s.recordsSaved.pwrStat 60 = true := by
  obtain ⟨m, t, h⟩ := State.setWordsFrom_rest (s.areasSaved.setPwrStat 60 true).faultWords (jnvAt 0x3B01000) (s.areasSaved.setPwrStat 60 true)
  have hflag := State.pwrStat_setPwrStat s.areasSaved (b := 60) true 60 (by decide)
  rw [State.recordsSaved, State.setWords, h]
  exact hflag

theorem State.cell_congr {t : State} (hm : t.mem = s.mem) (ht : t.tags = s.tags) (k : Nat) : t.cell k = s.cell k := by
  rw [State.cell, State.cell, State.byte, State.byte, State.tagAt, State.tagAt, hm, ht]

theorem State.cell_eq {t : State} {j k : Nat} (h : t.cell j = s.cell k) : t.byte j = s.byte k ∧ t.tagAt j = s.tagAt k := Prod.mk.inj h

theorem State.faultWords_length (s : State) : s.faultWords.length = 261 := by
  simp [State.faultWords]

theorem State.faultWords_log (s : State) {i : Nat} (hi : i < 256) : s.faultWords.getD i Word.nil = Word.raw (s.reg (oTwin + 0x1000 + 8 * i)) := by
  unfold State.faultWords
  rw [List.getD_append _ _ _ _ (by simpa using hi)]
  simp [List.getD_eq_getElem?_getD, hi]

theorem State.recordsSaved_page (hf : s.memForm) {p o : Nat} (hp : p ∈ s.stagingPages) (ho : o < 0x1000) :
    s.recordsSaved.cell (jnvAt (0x3801000 + 0x1000 * p + o)) = s.cell (0x7E0000400000 + 0x1000 * p + o) := by
  have hlt := List.mem_range.mp (List.mem_filter.mp hp).1
  rw [State.recordsSaved, State.cell_setWords _ _ (by decide) (.inl (by unfold jnvAt; omega))]
  exact State.areasSaved_cell hf hp ho

theorem State.recordsSaved_log (s : State) {i : Nat} (hi : i < 256) :
    s.recordsSaved.word (jnvAt 0x3B01000 + 8 * i) = Word.raw (s.reg (oTwin + 0x1000 + 8 * i)) := by
  have hlog : (s.areasSaved.setPwrStat 60 true).reg (oTwin + 0x1000 + 8 * i) = s.reg (oTwin + 0x1000 + 8 * i) := by
    obtain ⟨m, t, p, h⟩ := s.areasSaved_rest
    rw [(RegsOnly.setPwrStat _ _ _).others _ (by simp only [List.mem_singleton, oTwin, oPwr]; omega), h]
    rfl
  rw [State.recordsSaved, State.setWords, State.word_setWordsFrom _ _ _ _ (by rw [State.faultWords_length]; omega), State.faultWords_log _ hi, hlog]

theorem State.flushed_row (hs : s.calm = true) {m : Nat} (hg : s.pwr.glaze = some m) (h60 : s.pwrStat 60 = false) (hfuse : s.sec.fuse = none)
    (hrst : s.sys.rstWait = false) (hsv : bit (s.reg (oPwr + 0x30)) 63 = false) (hf : s.memForm) :
    ∃ t, exec .flushComplete s = .next t ∧ t.pwrStat 60 = true ∧ t.pwr.complete = true ∧ t.pwr.saved = some s.ldg.live ∧
      (∀ p ∈ s.stagingPages, ∀ o, o < 0x1000 →
        t.byte (jnvAt (0x3801000 + 0x1000 * p + o)) = s.byte (0x7E0000400000 + 0x1000 * p + o) ∧
        t.tagAt (jnvAt (0x3801000 + 0x1000 * p + o)) = s.tagAt (0x7E0000400000 + 0x1000 * p + o)) ∧
      ∀ i, i < 256 → t.word (jnvAt 0x3B01000 + 8 * i) = Word.raw (s.reg (oTwin + 0x1000 + 8 * i)) := by
  have heq := State.flushed_eq hg h60 hfuse hrst hsv
  have hexec : exec .flushComplete s = fin s s.flushed := rfl
  obtain ⟨mem, tags, p, hrest, -⟩ := s.recordsSaved_rest
  have hflag := s.recordsSaved_flag
  have hpage := fun p hp o ho => State.recordsSaved_page hf (p := p) (o := o) hp ho
  have hlog := fun i hi => s.recordsSaved_log (i := i) hi
  have hhead := s.recordsSaved.headed_regs s.recordsSaved.ldg.live s.stagingPages
  have hkeep := s.recordsSaved.headed_flag s.recordsSaved.ldg.live s.stagingPages
  rw [← heq] at hhead hkeep
  rw [hexec]
  generalize s.flushed = t at hhead hkeep
  generalize s.recordsSaved = c at hrest hflag hpage hlog hhead hkeep
  have hmem : t.mem = c.mem := by rw [hhead.rest]
  have htags : t.tags = c.tags := by rw [hhead.rest]
  have hall : t = { s with mem := t.mem, tags := t.tags, pwr := t.pwr, dev := t.dev } := by rw [hhead.rest, hrest]
  have hpwr : t.pwr = { c.pwr with complete := true, saved := some c.ldg.live, pages := s.stagingPages } := by rw [hhead.rest]
  have hlive : c.ldg.live = s.ldg.live := by rw [hrest]
  refine ⟨t, ?_, hkeep.trans hflag, ?_, ?_, fun p hp o ho => State.cell_eq ?_, fun i hi => ?_⟩
  · rw [hall]
    exact fin_calm hs rfl rfl rfl rfl rfl
  · rw [hpwr]
  · rw [hpwr, hlive]
  · rw [State.cell_congr hmem htags]
    exact hpage p hp o ho
  · rw [State.word_congr hmem htags]
    exact hlog i hi

end Sys2Proof.Machine
end

section
/-!
PROOFS. The resume after a Reserve (O54, R692 to R694), and the reserve as a whole.
-/
namespace Sys2Proof.Machine

variable {s u v : State}

/-! ### What the Event Router held is delivered -/

/-- Contexts get their lines and latches, and a wake request may stand: who is started, what each does and its special registers stay. -/
structure EventsGiven (s u : State) : Prop where
  rest : u = { s with ctxs := u.ctxs, sys := { s.sys with wakeReq := u.sys.wakeReq } }
  started : ∀ z, (u.ctx z).started = (s.ctx z).started
  run : ∀ z, (u.ctx z).run = (s.ctx z).run
  sr : ∀ z, (u.ctx z).sr = (s.ctx z).sr

namespace EventsGiven

theorem refl (s : State) : EventsGiven s s := ⟨rfl, fun _ => rfl, fun _ => rfl, fun _ => rfl⟩

theorem trans (h : EventsGiven s u) (g : EventsGiven u v) : EventsGiven s v :=
  ⟨by rw [g.rest, h.rest], fun z => (g.started z).trans (h.started z), fun z => (g.run z).trans (h.run z), fun z => (g.sr z).trans (h.sr z)⟩

theorem updCtx (s : State) (x : Nat) {f : Ctx → Ctx} (hs : ∀ c, (f c).started = c.started) (hr : ∀ c, (f c).run = c.run) (hsr : ∀ c, (f c).sr = c.sr) :
    EventsGiven s (s.updCtx x f) := by
  have hctx : ∀ z, (s.updCtx x f).ctx z = if x = z then f (s.ctx x) else s.ctx z := fun z => by rw [State.updCtx_eq, State.ctx_setCtx]
  refine ⟨rfl, fun z => ?_, fun z => ?_, fun z => ?_⟩
  · rw [hctx]
    split
    · next h => rw [hs, h]
    · rfl
  · rw [hctx]
    split
    · next h => rw [hr, h]
    · rfl
  · rw [hctx]
    split
    · next h => rw [hsr, h]
    · rfl

/-- A context that runs has no wait to wake from. -/
theorem latchCtx (x : Nat) (hrun : (s.ctx x).run = .run) : EventsGiven s (s.latchCtx x) := by
  have hset : EventsGiven s (s.updCtx x (fun c => { c with latch := true })) := updCtx s x (fun _ => rfl) (fun _ => rfl) (fun _ => rfl)
  have hrun' := (hset.run x).trans hrun
  have hstay : (s.updCtx x (fun c => { c with latch := true })).wakeWait x = s.updCtx x (fun c => { c with latch := true }) := by
    unfold State.wakeWait
    dsimp only
    rw [hrun']
    simp only [ite_self]
  rw [State.latchCtx, hstay]
  exact hset

theorem latchAll (l : List Nat) : ∀ {s : State}, (∀ y ∈ l, (s.ctx y).run = .run) → EventsGiven s (l.foldl (fun s y => s.latchCtx y) s) := by
  induction l with
  | nil => exact fun {s} _ => refl s
  | cons x l ih =>
    intro s h
    have hstep := latchCtx (s := s) x (h x List.mem_cons_self)
    exact hstep.trans (ih (fun y hy => (hstep.run y).trans (h y (List.mem_cons_of_mem _ hy))))

theorem wantWake (s : State) (x : Nat) : EventsGiven s (s.wantWake x) := by
  unfold State.wantWake
  split
  · exact ⟨rfl, fun _ => rfl, fun _ => rfl, fun _ => rfl⟩
  · exact refl s

theorem setLine (s : State) (x n : Nat) (tm : Pay) : EventsGiven s (s.setLine x n tm) := by
  have hall (l : List Nat) : ∀ s : State, EventsGiven s (l.foldl (fun s y => s.updCtx y (fun c => { c with lines := insertLine ⟨n, tm⟩ c.lines })) s) := by
    induction l with
    | nil => exact refl
    | cons y l ih => exact fun s => (updCtx s y (by intro; rfl) (by intro; rfl) (by intro; rfl)).trans (ih _)
  unfold State.setLine
  dsimp only
  split
  · exact hall _ s
  · exact (updCtx s _ (by intro; rfl) (by intro; rfl) (by intro; rfl)).trans (wantWake _ _)

theorem lines (x : Nat) (l : List LineEv) : ∀ s : State, EventsGiven s (l.foldl (fun s l => s.setLine x l.n l.time) s) := by
  induction l with
  | nil => exact refl
  | cons e l ih => exact fun s => (setLine s x e.n e.time).trans (ih _)

theorem setLatch (x : Nat) (h : ∀ y ∈ s.reached (s.presented x), (s.ctx y).run = .run) : EventsGiven s (s.setLatch x) := by
  unfold State.setLatch
  dsimp only
  split
  · exact latchAll _ h
  · exact (updCtx s _ (by intro; rfl) (by intro; rfl) (by intro; rfl)).trans (wantWake _ _)

theorem reached (h : EventsGiven s u) (x : Nat) : u.reached x = s.reached x := by
  rw [h.rest]
  rfl

theorem presented (h : EventsGiven s u) (x : Nat) : u.presented x = s.presented x := by
  rw [h.rest]
  rfl

theorem deliverHeld (x : Nat) (h : ∀ y ∈ s.reached (s.presented x), (s.ctx y).run = .run) : EventsGiven s (s.deliverHeld x) := by
  unfold State.deliverHeld
  split
  · exact refl s
  · dsimp only
    have hlines := (updCtx s x (f := fun c => { c with evHeld := false, linesHeld := [] }) (fun _ => rfl) (fun _ => rfl) (fun _ => rfl)).trans
      (lines x (s.ctx x).linesHeld _)
    split
    · refine hlines.trans (setLatch x (fun y hy => ?_))
      rw [hlines.presented, hlines.reached] at hy
      exact (hlines.run y).trans (h y hy)
    · exact hlines

end EventsGiven

/-! ### Contexts at reset -/

/-- No context has entries in its SATB queue, and no window keeps an SQT. -/
structure SatbIdle (s : State) : Prop where
  conf : ∀ e ∈ s.twins, e.2.sqtConf = []
  queue : ∀ x, (s.ctx x).sp Sr.sqt = (s.ctx x).sp Sr.sqb

theorem SatbIdle.submit (h : SatbIdle s) (x : Nat) : (s.confirmedSqt x).submitSatb x = s := by
  have hconf : (s.twin (twinOf x)).sqtConf = [] := Tbl.get_of_forall (d := fun _ => Twin.reset) (P := fun w : Twin => w.sqtConf = []) h.conf (twinOf x) rfl
  have hstay : s.confirmedSqt x = s := by
    unfold State.confirmedSqt
    rw [hconf]
    rfl
  rw [hstay, State.submitSatb, h.queue x, Nat.sub_self]
  rfl

theorem SatbIdle.submitAll (h : SatbIdle s) (xs : List Nat) : s.submitAll xs = s := by
  unfold State.submitAll
  induction xs with
  | nil => rfl
  | cons x xs ih => rw [List.foldl_cons, h.submit]; exact ih

theorem SatbIdle.orphans (h : SatbIdle s) : ∃ ts, Machine.forN 32 0 (fun t s => (s.submitAll (s.presentedOf t)).orphanTxns t) s = { s with txns := ts } := by
  have hkeep := State.forN_keeps (P := fun u => u = { s with txns := u.txns }) (fun t s => (s.submitAll (s.presentedOf t)).orphanTxns t) (fun t u hu => by
    have hidle : SatbIdle u := ⟨by rw [hu]; exact h.conf, fun x => by rw [hu]; exact h.queue x⟩
    rw [hidle.submitAll]
    show u.orphanTxns t = _
    rw [hu]
    rfl) 32 0 (u := s) rfl
  exact ⟨_, hkeep⟩

/-- Contexts that no core runs any more, one after the other. -/
theorem State.dropCtxs (n : Nat) : ∀ (k : Nat) (s : State), ∃ cs, Machine.forN n k (fun x s => s.dropCtx x) s = { s with ctxs := cs } ∧
    ∀ z, ({ s with ctxs := cs } : State).ctx z =
      if k ≤ z ∧ z < k + n then { Ctx.reset with evHeld := (s.ctx z).evHeld, linesHeld := (s.ctx z).linesHeld } else s.ctx z := by
  induction n with
  | zero => exact fun k s => ⟨s.ctxs, rfl, fun z => (if_neg (by omega)).symm⟩
  | succ n ih =>
    intro k s
    obtain ⟨cs, hrest, hctx⟩ := ih (k + 1) (s.dropCtx k)
    have hdrop : ∀ z, (s.dropCtx k).ctx z = if k = z then { Ctx.reset with evHeld := (s.ctx k).evHeld, linesHeld := (s.ctx k).linesHeld } else s.ctx z :=
      fun z => by rw [State.dropCtx, State.updCtx_eq, State.ctx_setCtx]
    refine ⟨cs, hrest, fun z => (hctx z).trans ?_⟩
    rw [hdrop]
    by_cases hz : k = z
    · rw [if_neg (by omega), if_pos hz, if_pos (by omega), hz]
    · rw [if_neg hz]
      by_cases hin : k + 1 ≤ z ∧ z < k + 1 + n
      · rw [if_pos hin, if_pos (by omega)]
      · rw [if_neg hin, if_neg (by omega)]

/-- A context reset with nothing in its SATB queue: it is started, runs, and its registers are at reset. -/
theorem SatbIdle.ctxReset (h : SatbIdle s) (x : Nat) : ∃ c, s.ctxReset x = s.setCtx x c ∧ c.started = true ∧ c.run = .run ∧ c.sp Sr.sqt = c.sp Sr.sqb := by
  unfold State.ctxReset
  dsimp only
  rw [h.submit]
  split
  · refine ⟨_, rfl, rfl, rfl, ?_⟩
    rw [Ctx.setPc, Ctx.sp_setSp, Ctx.sp_setSp, if_neg (by decide), if_neg (by decide)]
    rfl
  · exact ⟨_, rfl, rfl, rfl, rfl⟩

/-! ### The contexts of the Sentinel start -/

/-- Contexts `xs` are started, every other is as it was. -/
structure Restarted (xs : List Nat) (s u : State) : Prop where
  rest : u = { s with ctxs := u.ctxs, sys := { s.sys with wakeReq := u.sys.wakeReq } }
  started : ∀ z, (u.ctx z).started = if z ∈ xs then true else (s.ctx z).started

theorem Restarted.fold (l : List Nat) : ∀ {s : State}, SatbIdle s → (∀ z, z < 256 → (s.ctx z).run = .run) →
    (∀ x ∈ l, ∀ y ∈ s.reached (s.presented x), y < 256) → Restarted l s (l.foldl (fun s x => (s.ctxReset x).deliverHeld x) s) := by
  induction l with
  | nil => exact fun {s} _ _ _ => ⟨rfl, fun _ => (if_neg List.not_mem_nil).symm⟩
  | cons x l ih =>
    intro s hidle hrun hreach
    obtain ⟨c, hreset, hcs, hcr, hcq⟩ := hidle.ctxReset x
    have hctx : ∀ z, (s.ctxReset x).ctx z = if x = z then c else s.ctx z := fun z => by rw [hreset, State.ctx_setCtx]
    have hrun1 : ∀ z, z < 256 → ((s.ctxReset x).ctx z).run = .run := fun z hz => by
      rw [hctx]
      split
      · exact hcr
      · exact hrun z hz
    have hsame (y : Nat) : (s.ctxReset x).reached ((s.ctxReset x).presented y) = s.reached (s.presented y) := by rw [hreset]; rfl
    have hdel := EventsGiven.deliverHeld (s := s.ctxReset x) x (fun y hy => hrun1 y (hreach x List.mem_cons_self y (hsame x ▸ hy)))
    have hrest : s.ctxReset x = { s with ctxs := (s.ctxReset x).ctxs } := by rw [hreset]; rfl
    rw [List.foldl_cons]
    generalize s.ctxReset x = a at hctx hrun1 hsame hdel hrest
    generalize a.deliverHeld x = b at hdel
    have hidle' : SatbIdle b := by
      refine ⟨by rw [hdel.rest, hrest]; exact hidle.conf, fun z => ?_⟩
      rw [Ctx.sp, Ctx.sp, hdel.sr, hctx]
      split
      · exact hcq
      · exact hidle.queue z
    obtain ⟨hrest', hstarted'⟩ := ih hidle' (fun z hz => (hdel.run z).trans (hrun1 z hz)) (fun y hy w hw => by
      rw [hdel.presented, hdel.reached, hsame] at hw
      exact hreach y (List.mem_cons_of_mem _ hy) w hw)
    refine ⟨by rw [hrest', hdel.rest, hrest], fun z => ?_⟩
    rw [hstarted', hdel.started, hctx]
    by_cases hz : z ∈ l
    · rw [if_pos hz, if_pos (List.mem_cons_of_mem _ hz)]
    · rw [if_neg hz]
      by_cases hx : x = z
      · rw [if_pos hx, if_pos (hx ▸ List.mem_cons_self), hcs]
      · rw [if_neg hx, if_neg (by simp [hz, Ne.symm hx])]

theorem State.sentinelCtx_le (s : State) : s.sentinelCtx ≤ 8 := by
  have : s.rf (oTwin + 0x28) 62 62 < 2 ^ (62 - 62 + 1) := fld_lt _ _ _
  unfold State.sentinelCtx
  omega

theorem State.reached_le (s : State) (x : Nat) : ∀ y ∈ s.reached x, y ≤ x + 4 := by
  unfold State.reached
  split
  · simp
  · simp

theorem State.presented_le (s : State) (x : Nat) : s.presented x ≤ x := by
  unfold State.presented
  dsimp only
  split
  · omega
  · exact Nat.le_refl x

theorem State.pnlStart_rest (s : State) : ∃ p, RegsOnly { s with pnl := p } [oPnl + 0x18] s.pnlStart := by
  unfold State.pnlStart
  split
  · refine ⟨{ s.pnl with learn := s.pnl.entries.map (fun e => (e, 8)), learnt := [] }, ?_⟩
    exact (((RegsOnly.setReg _ (oPnl + 0x18) _).trans (RegsOnly.setReg _ (oPnl + 0x18) _)).trans (RegsOnly.setRf _ (oPnl + 0x18) 58 56 _)).mono (by simp)
  · exact ⟨s.pnl, RegsOnly.refl s _⟩

/-! ### RESUME -/

/-- The resume with its flags shown, before any context goes. -/
def State.resumeBegins (s : State) : State :=
  (((s.timeTo (s.pwr.pfwHigh + p64 s.debounce)).updPwr (fun p => { p with glaze := none })).setPwrStat 60 false).setPwrStat 59 true

theorem State.resumeBegins_shows (s : State) : (∃ tm, RegsOnly { s with time := tm, pwr := { s.pwr with glaze := none } } [oPwr + 0x18] s.resumeBegins) ∧
    s.resumeBegins.pwrStat 59 = true ∧ s.resumeBegins.pwrStat 60 = false := by
  obtain ⟨a, ha, hrest, -, -⟩ := s.timeTo_reaches (s.pwr.pfwHigh + p64 s.debounce)
  unfold State.resumeBegins
  rw [ha]
  have hbegun : a.updPwr (fun p => { p with glaze := none }) = { s with time := a.time, pwr := { s.pwr with glaze := none } } := by rw [hrest]; rfl
  rw [hbegun]
  obtain ⟨b, hb⟩ : ∃ b, ({ s with time := a.time, pwr := { s.pwr with glaze := none } } : State) = b := ⟨_, rfl⟩
  rw [hb]
  refine ⟨⟨a.time, ?_⟩, ?_, ?_⟩
  · rw [hb]
    exact ((RegsOnly.setPwrStat b 60 false).trans (RegsOnly.setPwrStat _ 59 true)).mono (by simp)
  · rw [State.pwrStat_setPwrStat _ _ _ (by decide), if_pos rfl]
  · rw [State.pwrStat_setPwrStat _ _ _ (by decide), if_neg (by decide), State.pwrStat_setPwrStat _ _ _ (by decide), if_pos rfl]

/-- Every context is dropped, and the mode entered is the one of before. -/
def State.allDropped (s : State) (m : Nat) : State :=
  let u := forN 256 0 (fun x s => s.dropCtx x) (forN 32 0 (fun t s => (s.submitAll (s.presentedOf t)).orphanTxns t) s)
  ({ u with runs := [] } : State).setMode (if m = mRun ∨ m = mDegraded then u.runMode else m)

structure AllDropped (m : Nat) (s u : State) : Prop where
  rest : u = { s with txns := u.txns, ctxs := u.ctxs, runs := [], dev := u.dev }
  regs : ∀ off, off ≠ 0x10 → u.reg off = s.reg off
  mode : if m = mRun ∨ m = mDegraded then u.mode = mRun ∨ u.mode = mDegraded else u.mode = m
  fresh : ∀ z, z < 256 → (u.ctx z).started = false ∧ (u.ctx z).run = .run
  idle : SatbIdle u

theorem SatbIdle.allDropped (h : SatbIdle s) {m : Nat} (hm : m < 8) : AllDropped m s (s.allDropped m) := by
  obtain ⟨ts, hts⟩ := h.orphans
  obtain ⟨cs, hcs, hctx⟩ := State.dropCtxs 256 0 ({ s with txns := ts } : State)
  obtain ⟨k, hk, hk8, hkm⟩ : ∃ k, (if m = mRun ∨ m = mDegraded then ({ s with txns := ts, ctxs := cs } : State).runMode else m) = k ∧ k < 8 ∧
      if m = mRun ∨ m = mDegraded then k = mRun ∨ k = mDegraded else k = m := by
    refine ⟨_, rfl, ?_, ?_⟩
    · split
      · exact (State.runMode_run _).1
      · exact hm
    · split
      · exact (State.runMode_run _).2
      · rfl
  have heq : s.allDropped m = ({ s with txns := ts, ctxs := cs, runs := [] } : State).setMode k := by
    unfold State.allDropped
    dsimp only
    rw [hts, hcs, hk]
  rw [heq]
  have hset := RegsOnly.setMode ({ s with txns := ts, ctxs := cs, runs := [] } : State) k
  have hmode := State.mode_setMode ({ s with txns := ts, ctxs := cs, runs := [] } : State) hk8
  generalize ({ s with txns := ts, ctxs := cs, runs := [] } : State).setMode k = u at hset hmode
  have hctx' : ∀ z, u.ctx z = if z < 256 then { Ctx.reset with evHeld := (s.ctx z).evHeld, linesHeld := (s.ctx z).linesHeld } else s.ctx z := by
    intro z
    rw [hset.rest]
    refine (hctx z).trans ?_
    simp only [Nat.zero_le, true_and, Nat.zero_add]
    rfl
  refine ⟨by rw [hset.rest], fun off ho => hset.others off (by simpa using ho), by rw [hmode]; exact hkm, fun z hz => ?_, ?_, fun z => ?_⟩
  · rw [hctx', if_pos hz]
    exact ⟨rfl, rfl⟩
  · rw [hset.rest]
    exact h.conf
  · rw [hctx']
    split
    · rfl
    · exact h.queue z

theorem State.resume_eq {m : Nat} (hg : s.pwr.glaze = some m) (h60 : s.pwrStat 60 = true) (hp : s.pwr.pfw = false) (hv : s.vok ≤ s.vhold)
    (hr : s.sys.inReset = false) (hm : m ≠ mBoot) :
    s.resume = ((((((s.resumeBegins.allDropped m).reached (s.resumeBegins.allDropped m).sentinelCtx).foldl (fun s x => (s.ctxReset x).deliverHeld x)
      (s.resumeBegins.allDropped m)).restartCmds (List.range 256)).awaitDrives.pnlStart).retryHeld.certSync).refresh := by
  have hin : (s.timeTo (s.pwr.pfwHigh + p64 s.debounce)).sys.inReset = false := by
    unfold State.timeTo
    split <;> exact hr
  unfold State.resume
  rw [hg]
  dsimp only
  rw [if_neg (by simp [h60, hp, hv]), if_neg hm, if_neg (by rw [hin]; decide)]
  rfl

/-- How a resume ends: drives are awaited, the panel unit starts, and CERT, SYS_STAT and the mode follow. -/
structure ResumeEnded (s u : State) : Prop where
  rest : u = { s with sto := u.sto, pnl := u.pnl, dev := u.dev }
  stat : ∀ b, b ≠ 63 → u.pwrStat b = s.pwrStat b
  run : s.mode = mRun ∨ s.mode = mDegraded → u.mode = if u.degraded then mDegraded else mRun
  other : s.mode ≠ mRun → s.mode ≠ mDegraded → u.mode = s.mode

theorem State.resumeEnds (hslots : s.ldg.live.slots = []) (hheld : s.ldg.held = []) (hk : s.kept = true) :
    ResumeEnded s (((s.restartCmds (List.range 256)).awaitDrives.pnlStart).retryHeld.certSync).refresh := by
  have hcmds : s.restartCmds (List.range 256) = s := by
    unfold State.restartCmds
    rw [hslots]
    rfl
  rw [hcmds]
  obtain ⟨st, hst⟩ : ∃ st, s.awaitDrives = { s with sto := st } := ⟨_, rfl⟩
  rw [hst]
  obtain ⟨p, hpnl⟩ := ({ s with sto := st } : State).pnlStart_rest
  generalize ({ s with sto := st } : State).pnlStart = a at hpnl
  have hretry : a.retryHeld = a := by
    have : a.ldg.held = [] := by rw [hpnl.rest]; exact hheld
    rw [State.retryHeld, this]
    rfl
  rw [hretry]
  have hcert := RegsOnly.certSync a
  have hcstat := fun b hb => State.pwrStat_certSync a (b := b) hb
  generalize a.certSync = c at hcert hcstat
  have hmode : c.mode = s.mode := (hcert.mode (by decide)).trans (hpnl.mode (by decide))
  have hck : c.kept = true := hcert.kept.trans (hpnl.kept.trans hk)
  have hfresh := RegsOnly.refresh hck
  refine ⟨?_, fun b hb => ?_, fun hrun => State.refresh_run hck (by rw [hmode]; exact hrun), fun h1 h2 => ?_⟩
  · rw [hfresh.rest, hcert.rest, hpnl.rest]
  · exact (hfresh.pwrStat (by decide) b).trans ((hcstat b hb).trans (hpnl.pwrStat (by decide) b))
  · rw [State.refresh_other hck (by rw [hmode]; exact h1) (by rw [hmode]; exact h2), hmode]

theorem State.resume_row (hs : s.calm = true) {m : Nat} (hg : s.pwr.glaze = some m) (h60 : s.pwrStat 60 = true) (hp : s.pwr.pfw = false)
    (hv : s.vok ≤ s.vhold) (hr : s.sys.inReset = false) (hk : s.kept = true) (hslots : s.ldg.live.slots = []) (hheld : s.ldg.held = [])
    (hm : m ∈ [mRun, mDegraded, mSafe, mService]) (hidle : SatbIdle s) :
    ∃ t, exec .resume s = .next t ∧ t.pwr.glaze = none ∧ t.pwrStat 59 = true ∧ t.pwrStat 60 = false ∧ t.mem = s.mem ∧ t.runs = [] ∧
      t.mode = (if m = mRun ∨ m = mDegraded then (if t.degraded then mDegraded else mRun) else m) ∧
      (t.ctx s.sentinelCtx).started = true ∧ ∀ x, x < 256 → x ∉ s.reached s.sentinelCtx → (t.ctx x).started = false := by
  have hm8 : m < 8 ∧ m ≠ mBoot ∧ m ≠ mQuiet := by
    simp only [List.mem_cons, List.not_mem_nil, or_false] at hm
    obtain rfl | rfl | rfl | rfl := hm <;> decide
  have heq := State.resume_eq hg h60 hp hv hr hm8.2.1
  obtain ⟨⟨tm, hbegun⟩, h59b, h60b⟩ := s.resumeBegins_shows
  generalize s.resumeBegins = b at heq hbegun h59b h60b
  have hidleb : SatbIdle b := ⟨by rw [hbegun.rest]; exact hidle.conf, fun x => by rw [hbegun.rest]; exact hidle.queue x⟩
  have hdrop := hidleb.allDropped hm8.1
  generalize b.allDropped m = c at heq hdrop
  have hcrest : c = { s with time := tm, pwr := { s.pwr with glaze := none }, txns := c.txns, ctxs := c.ctxs, runs := [], dev := c.dev } := by
    rw [hdrop.rest, hbegun.rest]
  have hsent : c.sentinelCtx = s.sentinelCtx := by
    rw [State.sentinelCtx, State.sentinelCtx, State.rf_congr (hdrop.regs _ (by decide)), State.rf_congr (hbegun.others _ (by decide))]
    rfl
  have hreach : ∀ x, c.reached x = s.reached x := fun x => by rw [hcrest]; rfl
  rw [hsent, hreach] at heq
  have hle := s.sentinelCtx_le
  have hstart := Restarted.fold (s.reached s.sentinelCtx) hdrop.idle (fun z hz => (hdrop.fresh z hz).2) (fun x hx y hy => by
    have h1 := s.reached_le _ x hx
    have h2 := c.presented_le x
    have h3 := c.reached_le _ y hy
    omega)
  generalize (s.reached s.sentinelCtx).foldl (fun s x => (s.ctxReset x).deliverHeld x) c = d at heq hstart
  have hdk : d.kept = true := by
    rw [← hk, hstart.rest, hcrest]
    rfl
  have hends := State.resumeEnds (s := d) (by rw [hstart.rest, hcrest]; exact hslots) (by rw [hstart.rest, hcrest]; exact hheld) hdk
  rw [← heq] at hends
  have hexec : exec .resume s = fin s s.resume := rfl
  rw [hexec]
  generalize s.resume = t at hends
  have hdmode : d.mode = c.mode := by rw [hstart.rest]; rfl
  have hmode : t.mode = if m = mRun ∨ m = mDegraded then (if t.degraded then mDegraded else mRun) else m := by
    have hentered := hdrop.mode
    split
    · next h =>
      rw [if_pos h] at hentered
      exact hends.run (by rw [hdmode]; exact hentered)
    · next h =>
      rw [if_neg h] at hentered
      obtain ⟨h1, h2⟩ := not_or.mp h
      rw [hends.other (by rw [hdmode, hentered]; exact h1) (by rw [hdmode, hentered]; exact h2), hdmode, hentered]
  have hquiet : t.mode ≠ mQuiet := by
    rw [hmode]
    split
    · split <;> decide
    · exact hm8.2.2
  obtain ⟨ho, hi, hrestart⟩ := State.idle_of_calm hs
  have hsettle : t.settle = t := by
    refine State.settle_of_idle ?_ ?_ ?_ hquiet
    · rw [hends.rest, hstart.rest, hcrest]; exact ho
    · rw [hends.rest, hstart.rest, hcrest]; exact hi
    · rw [hends.rest, hstart.rest, hcrest]; exact hrestart
  have hpending : t.pending = s.pending := by rw [hends.rest, hstart.rest, hcrest]
  have hstat (n : Nat) (hn : n ≠ 63) : t.pwrStat n = b.pwrStat n := by
    refine (hends.stat n hn).trans ?_
    refine congrArg (fun v => bit v n) (Eq.trans ?_ (hdrop.regs (oPwr + 0x18) (by decide)))
    rw [hstart.rest]
    rfl
  have hctx : ∀ z, t.ctx z = d.ctx z := fun z => by rw [hends.rest]; rfl
  refine ⟨t, ?_, ?_, ?_, ?_, ?_, ?_, hmode, ?_, fun x hx hnot => ?_⟩
  · rw [fin, hsettle, ← hpending]
  · rw [hends.rest, hstart.rest, hcrest]
  · rw [hstat 59 (by decide), h59b]
  · rw [hstat 60 (by decide), h60b]
  · rw [hends.rest, hstart.rest, hcrest]
  · rw [hends.rest, hstart.rest, hcrest]
  · rw [hctx, hstart.started, if_pos]
    unfold State.reached
    split
    · exact List.mem_cons_self
    · exact List.mem_cons_self
  · rw [hctx, hstart.started, if_neg hnot]
    exact (hdrop.fresh x hx).1

/-- Settles O54: each happening of the reserve and of its tests by its own row; the save by the pages copied, the resume by the contexts dropped and reset. -/
theorem reserveAndCertification : Obligations.ReserveAndCertification := by
  unfold Obligations.ReserveAndCertification
  refine ⟨fun s hs => ⟨fun hp hg hr ht hmove hbusy hw hsv => State.pfwFalls_row hs hp hg hr ht hmove hbusy hw hsv, fun hp => State.pfwRises_row hs hp,
    fun m hg h60 hfuse hrst hsv hmem htags => State.flushed_row hs hg h60 hfuse hrst hsv ⟨hmem, htags⟩,
    fun m hg h60 hp hv hr hk hslots hheld hm hqueue hconf => State.resume_row hs hg h60 hp hv hr hk hslots hheld hm ⟨hconf, fun x => ?_⟩,
    fun m hg => State.cutOff_row hg, fun v => ⟨fun hno ht => State.vholdSample_row hs hno ht, fun m hlow hg => State.vholdSample_cuts hlow hg⟩⟩,
    fun s hs hr => ⟨fun ht hp hg => ⟨fun src v hw hsrc => State.testgo_row hs hr ht hp hg hw hsrc, fun t0 hdue hok => State.testDue_row hs hr ht hp hg hdue hok,
      fun tm hretry => State.testRetry_row hs hr ht hp hg hretry⟩,
      fun tt eout v2 ht => ⟨fun h1 h2 => State.testEnd_passes hs ht h1 h2, fun hfell => State.testEnd_aborts hs ht hfell⟩⟩⟩
  exact Tbl.get_of_forall (d := fun _ => Ctx.reset) (P := fun c : Ctx => c.sp Sr.sqt = c.sp Sr.sqb) hqueue x rfl

end Sys2Proof.Machine
end
